-- ==== Sys2Proof/Word.lean ====
section
/-! DEFINITION. The words of the machine: 64-bit payloads and registers, 72-bit tagged words (R169), bytes. -/

namespace Sys2Proof

/-- A page register, or the payload of a tagged word. -/
abbrev Word := BitVec 64

/-- A tagged word: tag byte in bits [71:64], payload in bits [63:0] (R169). -/
abbrev TWord := BitVec 72

/-- A byte. -/
abbrev Byte := BitVec 8

end Sys2Proof
end

