-- ==== Sys2Proof/Syntax.lean ====
section
/-! DEFINITION. The commands of the block, one constructor for each row of the opcode table, with the
data a command carries. A command that is a write carries its writer; an event of the analog, network or
memory world carries what that world shows (a voltage, a frame, the errors of a line). -/

namespace Sys2Proof

/-- A slice, a panel or a sector (R2): all three carry the same number. -/
abbrev Slice := Fin 8

/-- A hardware thread: its panel and 4 × core + thread (R147, R201). -/
structure Tid where
  panel : Slice
  index : Fin 16
  deriving DecidableEq, Repr

/-- Who makes a page access (R12, R13, R19). -/
inductive Agent where
  | thread (t : Tid)
  | dma (p : Slice) (c : Fin 32)
  | manager (p : Slice) (port : Fin 2)
  | intent (p : Slice) (channel : Fin 32)
  | easel
  deriving DecidableEq, Repr

/-- A page by its window and page number (R375, R379). -/
inductive Page where
  | sector (s : Slice) (n : Fin 4096)
  | panel (p : Slice) (n : Fin 256)
  | package (n : Fin 4096)
  deriving DecidableEq, Repr

/-- An output of a pair (R87). -/
inductive Out where
  | a | b
  deriving DecidableEq, Repr

/-- A literal in its immediate form (R185): `LIT.S` and `LIT.U`. -/
inductive Lit where
  | i8 (v : BitVec 8) | i16 (v : BitVec 16) | i32 (v : BitVec 32) | i64 (v : BitVec 64)
  deriving DecidableEq, Repr

/-- A displacement in its immediate form (R185). Branches have the first two forms only. -/
inductive Disp where
  | s8 (v : BitVec 8) | s16 (v : BitVec 16) | s32 (v : BitVec 32)
  deriving DecidableEq, Repr

/-- An error that strikes a cell of a panel's arrays (R226 to R229): the array as `SCR_ECC_LAST` numbers it, the core of
an L1 cache, the word by its address, and whether it is beyond correction. -/
structure Upset where
  array : Fin 5
  core : Fin 4
  addr : BitVec 48
  fatal : Bool
  deriving DecidableEq, Repr

/-- What the array cells and the other ports do to one memory access: the errors that have struck by then (R226), and
the ports whose writes win a collision with its first and with its second request (R220, R221). -/
structure MemEnv where
  upsets : List Upset
  winner : Option (Fin 7)
  second : Option (Fin 7)
  deriving DecidableEq, Repr

/-- Where a DRAM line lies and which of its 160 symbols are in error (R237, R238, R244). -/
structure LineErrors where
  rank : Fin 2
  bg : Fin 8
  bank : Fin 4
  row : BitVec 18
  symbols : List (Fin 160)
  poisoned : Bool
  deriving DecidableEq, Repr

/-- The state of an Ethernet link as the port sees it (R296). -/
structure LinkState where
  up : Bool
  anDone : Bool
  /-- what the link partner advertises: 10GBASE-KR in bit 0, 25GBASE-KR in bit 1 -/
  speeds : BitVec 2
  /-- clause 74 FEC, and clause 108 RS-FEC, as the link partner offers and requests them -/
  fec74 : Bool
  fecRs : Bool
  deriving DecidableEq, Repr

/-- The SecTAG of a received frame (R281): its SCI, which it carries or implies, its association and packet numbers,
whether the user data are encrypted, whether it is well formed, and whether the ICV is right under the key of the
association that it names. -/
structure RxTag where
  sci : Word
  carried : Bool
  an : Fin 4
  pn : BitVec 32
  encrypted : Bool
  wellFormed : Bool
  icv : Bool
  deriving DecidableEq, Repr

/-- A received frame: its bytes from the destination address to the end of the user data, whether its FCS is right,
and its SecTAG (R278, R281, R297); and for each word of its record the port that writes that word in the same bank cycle
(R221). -/
structure RxFrame where
  bytes : List Byte
  fcs : Bool
  tag : Option RxTag
  rivals : List (Option (Fin 7))
  deriving DecidableEq, Repr

/-- Whom a mode command names: one slice by its `MODE_CMD`, or a set by `MODE_PKG_CMD` (R325). -/
inductive ModeCmd where
  | slice (s : Slice)
  | package (mask : BitVec 8)
  deriving DecidableEq, Repr

/-- A monitored rail: a core rail by its index, or a PWM bank (R339). -/
inductive Rail where
  | core (r : Fin 7)
  | bank (b : Fin 16)
  deriving DecidableEq, Repr

/-- What a rail's monitor has seen (R339): for so many consecutive ticks, up to this one, the rail has been at no more, or
at no less, than so many millivolts. -/
structure RailReading where
  millivolts : Nat
  ticks : Nat
  deriving DecidableEq, Repr

/-- What `PRIME` finds in one slice (R347, R349): comparator step results, delay-line taps, converter trims,
checkers, spares in use, the DDR5 module and its training. -/
structure GessoSlice where
  /-- step results of each comparator, four bits for each of 32 (R77) -/
  steps : BitVec 128
  /-- measured taps of lines A and B of each pair, and of each converter's sampling line (R99) -/
  taps : List (Nat × Nat)
  lines : List Nat
  /-- gain and offset trims of each converter, and whether they lie in range (R60) -/
  trims : List (BitVec 16 × BitVec 16 × Bool)
  /-- checkers that passed (R230) -/
  checkers : BitVec 20
  /-- every injected lockstep difference was detected (R347) -/
  lockstepDetected : Bool
  repair : BitVec 64
  repairL2 : BitVec 16
  present : Bool
  /-- a registered DIMM with ECC of 80 bits, not stacked, and the only one of its channel (R233) -/
  registered : Bool
  capacity : BitVec 8
  maxSpeed : Fin 8
  width : Fin 3
  ranks : Fin 4
  /-- bank groups, banks of a group, and rows of a bank, as the SPD gives them (R243) -/
  groups : Fin 9
  banks : Fin 5
  rows : BitVec 19
  trained : Bool
  deriving DecidableEq, Repr

/-- A pass of the boundary-scan register (R370): the levels that the board gives the balls, by ball number, and what is
shifted into the cells: a level for each ball, and whether its output is on. -/
structure Scan where
  board : BitVec 492
  levels : BitVec 492
  outputs : BitVec 492
  deriving DecidableEq, Repr

/-- A boot image slot as the flash gives it: whether the flash answers, and its bytes from the slot's offset; bytes beyond
the list read as zero (R350, R351; assumption 133). -/
structure Image where
  answers : Bool
  flash : List Byte
  deriving DecidableEq, Repr

/-- The commands, in the order of the opcode table. -/
inductive Instr where
  /-- REGISTER_WRITE (R6): A write to a register field that has no row of its own acts under its access code, with an RWC field dropped outside COMMISSION. -/
  | registerWrite (ag : Agent) (page : Page) (off : Fin 512) (data : Word)
  /-- EVENT_SET (R377): A write of EVENT_SET sets EVENT bits as their occurrences would, with none of the block's other effects. -/
  | eventSet (ag : Agent) (page : Page) (mask : Word)
  /-- LOCK_CFG (R378): A write of 1 to LOCK.CFG locks the page so that later RWC changes are dropped with an error. -/
  | lockCfg (ag : Agent) (page : Page)
  /-- TRANSFER_READY (R43): A transfer reaches the receiving side of a crossing and is queued, refused, or found late. -/
  | transferReady (n : Nat)
  /-- TIMED_WRITE_DUE (R37): At its due tick a queued timed write takes effect and its queue entry is freed. -/
  | timedWriteDue (queue : Fin 9)
  /-- UPDATE_POINT_APPLY (R42): At a block's update point, pending untimed RWT writes and late writes deferred to it take effect. -/
  | updatePointApply (page : Page)
  /-- TWQ_CLR (R404): Writing CTRL.CLR of a TWQ or CANV page clears the queue's high-water mark and counters. -/
  | twqClr (ag : Agent) (queue : Fin 9)
  /-- CANV_STEP (R35): A timed write to CANV_STEP steps canvas time at its due tick, or is refused if the result would fall out of range. -/
  | canvStep (delta : Word)
  /-- CANV_ALARM_FIRE (R29): An armed alarm fires at the first tick at which canvas time reaches TICK, and EN is cleared. -/
  | canvAlarmFire (i : Fin 4)
  /-- SYNC_FRAME_RECEIVED (R33): A sync frame received on CANVAS_SYNC_IN is checked and its time used as the discipline measurement. -/
  | syncFrameReceived (frame : BitVec 128) (sub : Fin 64)
  /-- PTP_SYNC_MESSAGE (R31): A gPTP sync message received on the selected port gives a measurement of source time against canvas time. -/
  | ptpSyncMessage (p : Slice) (port : Fin 2) (ns : Word) (sub : Fin 64)
  /-- SYNC_SOURCE_LOST (R34): Missing edges, failed frames or missing sync messages put the package into holdover. -/
  | syncSourceLost
  /-- SYNC_SOURCE_RETURN (R34): When the discipline source returns, holdover ends and slewing resumes. -/
  | syncSourceReturn
  /-- FADC_SAMPLE (R56): At a reference tick the converter samples at the stipple offset and hands the code to its loop slots and FADC_RESULT. -/
  | fadcSample (s : Slice) (c : Fin 16) (nanovolts : Int)
  /-- FADC_CAL_START (R60): A write of 1 to FADC_CAL.START begins a calibration, or is refused while a closed loop reads the converter. -/
  | fadcCalStart (ag : Agent) (s : Slice) (c : Fin 16)
  /-- FADC_CAL_DONE (R60): A calibration completes, its trims apply, CAL_DUE clears and calibration-done is raised. -/
  | fadcCalDone (s : Slice) (c : Fin 16) (gain : BitVec 16) (offset : BitVec 16)
  /-- FADC_TRIG_FIRE (R66): A write of 1 to FADC_TRIG_FIRE fires an armed trigger when it takes effect. -/
  | fadcTrigFire (s : Slice) (c : Fin 16)
  /-- STREAM_PAYLOAD (R65): The streamer writes a completed line of payloads to the ring, or drops it when it cannot be accepted. -/
  | streamPayload (s : Slice) (c : Fin 16) (accepted : Bool)
  /-- FADC_RING_DROPPED_CLR (R59): Writing 1 to FADC_RING_DROPPED.CLR sets the drop count to zero. -/
  | fadcRingDroppedClr (ag : Agent) (s : Slice) (c : Fin 16)
  /-- MADC_CONVERSION_END (R62): At the end of an entry's last conversion the mean is stored, limits are checked, and the schedule moves on. -/
  | madcConversionEnd (s : Slice) (nanovolts : Nat)
  /-- COMPARATOR_CROSSING (R71): A comparator input crossing a threshold changes ABOVE or BELOW and drives the trip network with no clock. -/
  | comparatorCrossing (s : Slice) (c : Fin 32) (nanovolts : Int) (held : Bool) (sub : Fin 64)
  /-- WCMP_CHECK_START (R75): A write of 1 to WCMP_CHECK.START begins a check with the twin standing in, or is refused. -/
  | wcmpCheckStart (ag : Agent) (s : Slice) (c : Fin 32)
  /-- CHECK_STEP (R75): Every 16 ticks the check moves to its next tie level and reads the result of the last step. -/
  | checkStep (s : Slice) (c : Fin 32) (above : Bool) (below : Bool)
  /-- CHECK_DONE (R75): At C + 112 the check ends, sets RESULT and FAILED, and raises check-done or check-failed. -/
  | checkDone (s : Slice) (c : Fin 32)
  /-- SWEEP_GO (R80): A write of 1 to SWEEP_CTRL.GO starts a static sweep, ramp or search on the target, or is refused. -/
  | sweepGo (s : Slice)
  /-- SWEEP_STEP (R81): After each DWELL ticks a ramp or search moves to its next code. -/
  | sweepStep (s : Slice)
  /-- SWEEP_END (R81): A sweep ends on a crossing, at the end of its ramp or search, or on STOP, and the target's threshold is restored. -/
  | sweepEnd (s : Slice)
  /-- SWEEP_STOP (R79): A write of 1 to SWEEP_CTRL.STOP ends the sweep at the next tick. -/
  | sweepStop (ag : Agent) (s : Slice)
  /-- PWM_START (R84): A write of 1 to PWMP_RUN.START starts a stopped leader's counter with a wrap at the tick it takes effect. -/
  | pwmStart (s : Slice) (p : Fin 16)
  /-- PWM_STOP (R84): A write of 1 to PWMP_RUN.STOP stops a leader at its next wrap with both outputs off. -/
  | pwmStop (s : Slice) (p : Fin 16)
  /-- PWMP_WRAP (R83): The count reaches its period and wraps, taking pending period, compare and configuration values. -/
  | pwmpWrap (s : Slice) (p : Fin 16)
  /-- RAW_EDGE (R86): The count reaches a compare position, and the raw signal S rises or falls, subject to the narrow-pulse test. -/
  | rawEdge (s : Slice) (p : Fin 16) (second : Bool) (rise : Bool)
  /-- DEAD_TIME_EXPIRY (R88): When DT_RISE or DT_FALL runs out after an edge of S, the complementary output turns on. -/
  | deadTimeExpiry (s : Slice) (p : Fin 16) (out : Out)
  /-- MIN_PULSE_EXPIRY (R92): A held or stretched interval ends at the first instant at or after its start plus m at which S calls for its end. -/
  | minPulseExpiry (s : Slice) (p : Fin 16) (out : Out)
  /-- PWMP_CLR_COUNTS (R103): Writing 1 to PWMP_RUN.CLR_COUNTS clears DROPPED and STRETCHED. -/
  | pwmpClrCounts (ag : Agent) (s : Slice) (p : Fin 16)
  /-- STIPPLE_CALIBRATION (R99): Every 4096 ticks the calibrator measures each delay line and recomputes its map, losing or regaining lock. -/
  | stippleCalibration (s : Slice) (taps : List (Nat × Nat)) (lines : List Nat := [])
  /-- TRIP_SOURCE_ACTIVE (R106): A trip source becomes active and starts a cycle-by-cycle trip or sets a latch in every pair that masks it unblanked. -/
  | tripSourceActive (s : Slice) (src : Fin 76) (sub : Fin 64)
  /-- BLANKING_CLOSE (R107): A blanking window closes BLANK ticks after its edge, and blankable sources still active take effect. -/
  | blankingClose (s : Slice) (p : Fin 16)
  /-- TRIP_CLEAR_PAIR (R116): A write of 1 to a TRIP_CLEAR.PAIR bit requests a clear of that latch, which clears, pends or is refused. -/
  | tripClearPair (s : Slice) (p : Fin 16)
  /-- CLEAR_PENDING_COMPLETE (R116): A pending clear completes when every masked source has been quiet for 16 ticks, or is refused when one becomes active. -/
  | clearPendingComplete (s : Slice) (p : Fin 16)
  /-- VOTE_DISAGREE (R115): A trip-network copy that differs from the other two for two consecutive ticks is recorded. -/
  | voteDisagree (s : Slice) (copy : Fin 3) (latches : BitVec 16 := 0) (cbc : BitVec 16 := 0)
  /-- VOTE_CLR (R121): Writing 1 to TRIP_CLEAR.VOTE_CLR clears TRIP_VOTE. -/
  | voteClr (ag : Agent) (s : Slice)
  /-- COUNT_CLR (R121): Writing 1 to TRIP_CLEAR.COUNT_CLR clears CBC_COUNT and LATCH_COUNT of every pair. -/
  | countClr (ag : Agent) (s : Slice)
  /-- CANVAS_CLOCK_LOSS (R119): A missing tick edge puts the sector in safe state, sets CLOCK_LOST and sends every slice into HOLD. -/
  | canvasClockLoss (s : Slice)
  /-- CANVAS_CLOCK_RETURN (R119): When the tick returns, counters and canvas time resume from the values they held. -/
  | canvasClockReturn (s : Slice)
  /-- LOOP_EVALUATION (R132): A slot evaluates its law for a reference tick it takes and writes its output at T + 5, or records a miss or mismatch. -/
  | loopEvaluation (s : Slice) (n : Fin 16) (upset : Bool)
  /-- LOOP_CLOSE (R135): A write of 1 to LOOP_CMD.CLOSE copies the staged set to the live set and presets the history at T0. -/
  | loopClose (s : Slice) (n : Fin 16)
  /-- LOOP_OPEN (R136): A write of 1 to LOOP_CMD.OPEN opens the slot at its next reference tick, which then writes MANUAL. -/
  | loopOpen (s : Slice) (n : Fin 16)
  /-- LOOP_CLR_COUNTS (R143): Writing 1 to LOOP_CMD.CLR_COUNTS clears the slot's miss, saturation, mismatch and evaluation counts. -/
  | loopClrCounts (ag : Agent) (s : Slice) (n : Fin 16)
  /-- LENG_CLR (R146): Writing 1 to LENG_CLR.CLR clears the engine's GRANTED and both counts. -/
  | lengClr (ag : Agent) (s : Slice) (g : Fin 4)
  /-- NOP (R186): Does nothing. -/
  | nop (t : Tid)
  /-- DUP (R186): Duplicates the top stack word at rename. -/
  | dup (t : Tid)
  /-- DROP (R186): Discards the top stack word. -/
  | drop (t : Tid)
  /-- SWAP (R186): Exchanges the top two stack words. -/
  | swap (t : Tid)
  /-- OVER (R186): Copies the second word to the top. -/
  | over (t : Tid)
  /-- ROT (R186): Rotates the third word to the top. -/
  | rot (t : Tid)
  /-- PICK (R186): Pushes a copy of stack entry n. -/
  | pick (t : Tid) (n : Byte)
  /-- ROLL (R186): Moves stack entry n to the top. -/
  | roll (t : Tid) (n : Byte)
  /-- DROPN (R186): Discards n stack words. -/
  | dropn (t : Tid) (n : Byte)
  /-- DEPTH (R186): Pushes the operand-stack depth as an unsigned INT. -/
  | depth (t : Tid)
  /-- LIT_S (R186): Pushes a signed INT literal. -/
  | litS (t : Tid) (imm : Lit)
  /-- LIT_U (R186): Pushes an unsigned INT literal. -/
  | litU (t : Tid) (imm : Lit)
  /-- LIT_R (R186): Pushes a RAW literal. -/
  | litR (t : Tid) (imm : Word)
  /-- LIT_F (R186): Pushes a FLT literal. -/
  | litF (t : Tid) (imm : Word)
  /-- LIT_C (R186): Pushes a CODE address relative to the next instruction. -/
  | litC (t : Tid) (disp : BitVec 32)
  /-- LIT_V (R186): Pushes an empty VOID word. -/
  | litV (t : Tid)
  /-- ADD (R188): Adds INT, FIX or PTR plus INT operands, with overflow handling. -/
  | add (t : Tid)
  /-- SUB (R188): Subtracts INT, FIX or PTR operands, with overflow handling. -/
  | sub (t : Tid)
  /-- NEG (R188): Negates a signed INT or a FIX. -/
  | neg (t : Tid)
  /-- ABS (R188): Takes the absolute value of a signed INT or a FIX. -/
  | abs (t : Tid)
  /-- MIN (R186): Leaves the lesser of two INT or FIX operands. -/
  | min (t : Tid)
  /-- MAX (R186): Leaves the greater of two INT or FIX operands. -/
  | max (t : Tid)
  /-- MUL (R189): Multiplies INT or FIX operands, rounding FIX products to nearest. -/
  | mul (t : Tid)
  /-- MULH (R186): Leaves the high 64 bits of an INT product. -/
  | mulh (t : Tid)
  /-- DIV (R191): Divides INT or FIX operands, truncating, with divide-by-zero handling. -/
  | div (t : Tid)
  /-- REM (R191): Leaves the INT remainder, with divide-by-zero handling. -/
  | rem (t : Tid)
  /-- AND (R186): Bitwise AND of INT or RAW operands. -/
  | and (t : Tid)
  /-- OR (R186): Bitwise OR of INT or RAW operands. -/
  | or (t : Tid)
  /-- XOR (R186): Bitwise XOR of INT or RAW operands. -/
  | xor (t : Tid)
  /-- NOT (R186): Bitwise complement of an INT or RAW operand. -/
  | not (t : Tid)
  /-- SHL (R186): Shifts left by a stack count. -/
  | shl (t : Tid)
  /-- SHR (R186): Shifts right logically by a stack count. -/
  | shr (t : Tid)
  /-- SAR (R186): Shifts right arithmetically by a stack count. -/
  | sar (t : Tid)
  /-- SHLI (R186): Shifts left by an immediate count. -/
  | shli (t : Tid) (n : Byte)
  /-- SHRI (R186): Shifts right logically by an immediate count. -/
  | shri (t : Tid) (n : Byte)
  /-- SARI (R186): Shifts right arithmetically by an immediate count. -/
  | sari (t : Tid) (n : Byte)
  /-- EQ (R186): Compares all 72 bits of two words for equality. -/
  | eq (t : Tid)
  /-- NE (R186): Compares all 72 bits of two words for inequality. -/
  | ne (t : Tid)
  /-- LT (R186): Tests less-than on INT, FIX or PTR operands. -/
  | lt (t : Tid)
  /-- LE (R186): Tests less-or-equal on INT, FIX or PTR operands. -/
  | le (t : Tid)
  /-- EQZ (R186): Tests a payload for zero. -/
  | eqz (t : Tid)
  /-- FADD (R191): Adds binary64 operands. -/
  | fadd (t : Tid)
  /-- FSUB (R191): Subtracts binary64 operands. -/
  | fsub (t : Tid)
  /-- FMUL (R191): Multiplies binary64 operands. -/
  | fmul (t : Tid)
  /-- FDIV (R191): Divides binary64 operands, setting DZ on a zero divisor. -/
  | fdiv (t : Tid)
  /-- FSQRT (R191): Takes a binary64 square root. -/
  | fsqrt (t : Tid)
  /-- FNEG (R186): Negates a binary64 operand. -/
  | fneg (t : Tid)
  /-- FABS (R186): Takes the absolute value of a binary64 operand. -/
  | fabs (t : Tid)
  /-- FEQ (R186): Tests binary64 equality, false on NaN. -/
  | feq (t : Tid)
  /-- FLT (R186): Tests binary64 less-than, false on NaN. -/
  | flt (t : Tid)
  /-- FLE (R186): Tests binary64 less-or-equal, false on NaN. -/
  | fle (t : Tid)
  /-- CVT_IF (R186): Converts an INT to FLT. -/
  | cvtIf (t : Tid)
  /-- CVT_FI (R186): Converts a FLT to a signed INT, truncating and saturating. -/
  | cvtFi (t : Tid)
  /-- CVT_XF (R186): Converts a FIX to FLT. -/
  | cvtXf (t : Tid)
  /-- AS (R186): Retags a word with the same payload, within the allowed classes. -/
  | retag (t : Tid) (tag : Byte)
  /-- SAT (R190): Clamps an INT or FIX payload to n bits. -/
  | sat (t : Tid) (n : Byte)
  /-- ALIGN (R189): Converts a FIX to another fraction count, rounding to nearest. -/
  | align (t : Tid) (f : Byte)
  /-- BR (R186): Branches unconditionally. -/
  | br (t : Tid) (disp : Disp)
  /-- BZ (R186): Branches when an INT is zero. -/
  | bz (t : Tid) (disp : Disp)
  /-- BNZ (R186): Branches when an INT is not zero. -/
  | bnz (t : Tid) (disp : Disp)
  /-- JMP (R186): Jumps to a CODE operand. -/
  | jmp (t : Tid)
  /-- CALL (R177): Pushes a call record and calls a displacement target. -/
  | call (t : Tid) (disp : BitVec 24) (a : Fin 16) (r : Fin 16)
  /-- CALLI (R177): Pushes a call record and calls a CODE operand. -/
  | calli (t : Tid) (a : Fin 16) (r : Fin 16)
  /-- RET (R177): Pops and checks the call record, then returns, or faults on a bad record or depth. -/
  | ret (t : Tid)
  /-- RETI (R198): Checks and pops an entry frame, restores THR_STATUS and returns. -/
  | reti (t : Tid)
  /-- LD_T (R180): Loads a tagged word. -/
  | ldT (t : Tid) (disp : Disp) (env : MemEnv)
  /-- LD_R (R180): Loads 8 bytes as RAW. -/
  | ldR (t : Tid) (disp : Disp) (env : MemEnv)
  /-- LD_S32 (R180): Loads 32 bits sign-extended. -/
  | ldS32 (t : Tid) (disp : Disp) (env : MemEnv)
  /-- LD_U32 (R180): Loads 32 bits zero-extended. -/
  | ldU32 (t : Tid) (disp : Disp) (env : MemEnv)
  /-- LD_S16 (R180): Loads 16 bits sign-extended. -/
  | ldS16 (t : Tid) (disp : Disp) (env : MemEnv)
  /-- LD_U16 (R180): Loads 16 bits zero-extended. -/
  | ldU16 (t : Tid) (disp : Disp) (env : MemEnv)
  /-- LD_S8 (R180): Loads 8 bits sign-extended. -/
  | ldS8 (t : Tid) (disp : Disp) (env : MemEnv)
  /-- LD_U8 (R180): Loads 8 bits zero-extended. -/
  | ldU8 (t : Tid) (disp : Disp) (env : MemEnv)
  /-- ST_T (R180): Stores a tagged word. -/
  | stT (t : Tid) (disp : Disp) (env : MemEnv)
  /-- ST_R (R180): Stores 8 bytes tagged RAW. -/
  | stR (t : Tid) (disp : Disp) (env : MemEnv)
  /-- ST_32 (R180): Stores 32 bits. -/
  | st32 (t : Tid) (disp : Disp) (env : MemEnv)
  /-- ST_16 (R180): Stores 16 bits. -/
  | st16 (t : Tid) (disp : Disp) (env : MemEnv)
  /-- ST_8 (R180): Stores 8 bits. -/
  | st8 (t : Tid) (disp : Disp) (env : MemEnv)
  /-- STT (R183): Stores a value to a page register with a due time. -/
  | stt (t : Tid) (disp : Disp)
  /-- AADD (R184): Atomically adds to a scratch-bank word and returns the old value. -/
  | aadd (t : Tid) (disp : Byte) (env : MemEnv)
  /-- ASWAP (R184): Atomically swaps a scratch-bank word and returns the old value. -/
  | aswap (t : Tid) (disp : Byte) (env : MemEnv)
  /-- SRR (R186): Reads a special register. -/
  | srr (t : Tid) (num : BitVec 16)
  /-- SRW (R186): Writes a special register, with privilege checked. -/
  | srw (t : Tid) (num : BitVec 16)
  /-- TAG (R186): Pushes the tag byte of a word. -/
  | tag (t : Tid)
  /-- TAGSET (R186): Privileged retag of a word with any tag. -/
  | tagset (t : Tid) (tag : Byte)
  /-- PTRR (R186): Clears permission bits of a pointer. -/
  | ptrr (t : Tid) (mask : Byte)
  /-- WFE (R208): Parks the thread until an event routed to it becomes pending. -/
  | wfe (t : Tid)
  /-- FENCE (R186): Completes when every earlier store of the thread has been answered. -/
  | fence (t : Tid)
  /-- YIELD (R186): Skips fetch until every other running thread of the core has fetched once. -/
  | yield (t : Tid)
  /-- SYSCALL (R194): Enters system-call vector n. -/
  | syscall (t : Tid) (n : Byte)
  /-- TRAP (R194): Enters trap vector n. -/
  | trap (t : Tid) (n : Byte)
  /-- BRK (R186): Takes the breakpoint fault, or halts the panel when BRK_HALT is 1. -/
  | brk (t : Tid)
  /-- BMOVE (R192): Moves n tagged words element by element. -/
  | bmove (t : Tid) (env : MemEnv)
  /-- BFILL (R192): Fills n words with a tagged value element by element. -/
  | bfill (t : Tid) (env : MemEnv)
  /-- DOTX (R192): Accumulates a FIX dot product element by element. -/
  | dotx (t : Tid) (env : MemEnv)
  /-- CRC32 (R192): Updates a CRC-32 state over n bytes. -/
  | crc32 (t : Tid) (env : MemEnv)
  /-- CACHE_FILL_COMPLETE (R154): Data or an instruction line that missed the L2 arrives, and the parked thread leaves parking. -/
  | cacheFillComplete (t : Tid)
  /-- DEVICE_LOAD_RESPONSE (R155): The response to a device-space load fills its pending stack entry, as VOID on an error. -/
  | deviceLoadResponse (t : Tid) (noData : Bool)
  /-- STORE_RESPONSE (R182): The response to a device-space store unparks a native thread, or faults it on an error. -/
  | storeResponse (t : Tid)
  /-- FAULT_ENTRY (R199): A faulting instruction becomes oldest, and the thread pushes a frame and enters the fault vector. -/
  | faultEntry (t : Tid) (upsets : List Upset)
  /-- LOCKSTEP_MISMATCH (R165): The two copies of a core differ, outputs are withheld, and the panel fails. -/
  | lockstepMismatch (p : Slice) (core : Fin 4) (thread : Fin 4) (output : Fin 7)
  /-- EVENT_ARRIVAL (R22): An event transfer reaches its due time at the receiving event controller and becomes pending. -/
  | eventArrival (n : Nat)
  /-- INTERRUPT_PRESENTATION (R207): The controller presents the highest-priority pending source to a thread once its conditions hold. -/
  | interruptPresentation (t : Tid) (upsets : List Upset)
  /-- EVC_CLAIM (R209): An SRR of EVC_CLAIM claims the highest eligible pending source, or returns 0x3FF. -/
  | evcClaim (t : Tid)
  /-- EVC_COMPLETE (R211): An SRW to EVC_COMPLETE completes the most recent claim, or takes the stack-order fault. -/
  | evcComplete (t : Tid)
  /-- EVC_CLR (R213): Writing 1 to EVC_CLR.CLR clears EVC_SPURIOUS and EVC_ORDER. -/
  | evcClr (ag : Agent) (p : Slice)
  /-- WATCHER_WAKE (R216): In a slow-clock period of a rest, the watcher sees a pending watched source and wakes the panel. -/
  | watcherWake (p : Slice)
  /-- EVENT_PIN_CHANGE (R386): An EVTIN pin counted as changed becomes a transfer to every panel's controller. -/
  | eventPinChange (pin : Fin 16) (low : Bool)
  /-- CORE_CLR_CORE (R167): Writing 1 to CORE_CLR.CORE clears CORE_ENTRY_SLOW. -/
  | coreClrCore (t : Tid)
  /-- CORE_CLR_THREAD (R167): Writing 1 to CORE_CLR.THREAD clears the writing thread's performance counters. -/
  | coreClrThread (t : Tid)
  /-- SCR_POWER_WRITE (R223): A write of SCR_POWER commands banks on, into retention or off. -/
  | scrPowerWrite (ag : Agent) (p : Slice) (data : Word)
  /-- BANK_POWER_DONE (R223): A bank power change, with its clear when powering from off, completes and BUSY clears. -/
  | bankPowerDone (p : Slice) (b : Fin 8)
  /-- SCR_WIPE (R225): A secure write of 1 to SCR_CMD.WIPE wipes bank 7. -/
  | scrWipe (ag : Agent) (p : Slice)
  /-- BANK7_WIPE_DONE (R225): A wipe of bank 7 completes after 16 384 cycles and raises its event. -/
  | bank7WipeDone (p : Slice)
  /-- SCR_CLR (R231): Writing 1 to SCR_CMD.CLR clears the ECC, L1 and collision counts. -/
  | scrClr (ag : Agent) (p : Slice)
  /-- DRAM_READ_COMPLETE (R238): A DRAM line read decodes, is corrected and written back, or is reported uncorrectable or poisoned. -/
  | dramReadComplete (p : Slice) (line : Nat) (errs : LineErrors)
  /-- POISONED_EVICTION (R240): A dirty L2 line with an uncorrectable word is written to DRAM poisoned. -/
  | poisonedEviction (p : Slice) (line : Nat)
  /-- DRAM_INIT_DONE (R235): Initialisation of every DRAM line ends and waiting accesses proceed. -/
  | dramInitDone (p : Slice)
  /-- DRAM_REFRESH (R241): The refresh interval expires and the controller refreshes the module. -/
  | dramRefresh (p : Slice) (doubled : Bool)
  /-- PATROL_SCRUB_READ (R242): The scrub interval expires and the next line is read, corrected or logged. -/
  | patrolScrubRead (p : Slice) (errs : LineErrors)
  /-- WRITE_TIMING_ADJUST (R234): Every 64 ms the controller reads the interval oscillators and adjusts write timing. -/
  | writeTimingAdjust (p : Slice) (outOfRange : Bool)
  /-- DDRC_PPR_GO (R243): A write of 1 to DDRC_PPR.GO starts a post-package repair of the named row. -/
  | ddrcPprGo (ag : Agent) (p : Slice)
  /-- PPR_DONE (R243): A repair ends with DONE or FAIL set and its event raised. -/
  | pprDone (p : Slice) (ok : Bool)
  /-- DDRC_CLR_DEV (R244): Writing 1 to DDRC_CLR.DEV clears every per-device count. -/
  | ddrcClrDev (ag : Agent) (p : Slice)
  /-- DDRC_CLR_COUNTS (R244): Writing 1 to DDRC_CLR.COUNTS clears DDRC_COUNTS. -/
  | ddrcClrCounts (ag : Agent) (p : Slice)
  /-- DMA_START (R254): A write of 1 to DMA_CMD.START starts or continues a transfer from the registers, or is refused. -/
  | dmaStart (ag : Agent) (p : Slice) (c : Fin 32)
  /-- DMA_PAUSE (R251): A write of PAUSE 1 stops new reads and lets the channel drain to the paused state. -/
  | dmaPause (ag : Agent) (p : Slice) (c : Fin 32) (inFlight : Fin 17)
  /-- DMA_RESUME (R251): A write of PAUSE 0 returns a pausing or paused channel to running. -/
  | dmaResume (ag : Agent) (p : Slice) (c : Fin 32)
  /-- DMA_ELEMENT_DONE (R246): An element's write is answered and the channel's registers advance. -/
  | dmaElementDone (p : Slice) (c : Fin 32) (env : MemEnv) (beyond : Fin 16)
  /-- DMA_ALLOC (R255): A read of DMA_ALLOC allocates the lowest free channel or returns 0x3F. -/
  | dmaAlloc (ag : Agent) (p : Slice)
  /-- DMA_FREE (R255): A write of c to DMA_FREE clears channel c's allocated bit. -/
  | dmaFree (ag : Agent) (p : Slice) (c : Fin 32)
  /-- DMA_ALLOC_REFUSED_CLR (R257): Writing 1 to DMA_ALLOC_REFUSED.CLR sets the refusal count to zero. -/
  | dmaAllocRefusedClr (ag : Agent) (p : Slice)
  /-- DMA_COLL_CLR (R256): Writing 1 to DMA_COLL.CLR sets the collision count to zero. -/
  | dmaCollClr (ag : Agent) (p : Slice) (c : Fin 32)
  /-- TMR_STEP (R259): A running timer's prescaler expires and the count steps, reloads or stops, raising zero and compare events. -/
  | tmrStep (p : Slice) (n : Fin 16)
  /-- TMR_START (R261): A write of 1 to TMR_CMD.START starts or restarts the timer from its reload value. -/
  | tmrStart (ag : Agent) (p : Slice) (n : Fin 16)
  /-- TMR_STOP (R261): A write of 1 to TMR_CMD.STOP stops the timer with its count. -/
  | tmrStop (ag : Agent) (p : Slice) (n : Fin 16)
  /-- TMR_GSTART (R261): A write to TMR_GSTART starts every named timer in one timer clock. -/
  | tmrGstart (ag : Agent) (p : Slice) (mask : BitVec 16)
  /-- TMR_GSTOP (R261): A write to TMR_GSTOP stops every named timer. -/
  | tmrGstop (ag : Agent) (p : Slice) (mask : BitVec 16)
  /-- CAPTURE_EDGE (R262): An accepted edge of the capture input is counted and every CAP_DIV + 1th becomes a capture edge transfer. -/
  | captureEdge (p : Slice) (n : Fin 16) (rise : Bool)
  /-- TIMER_CAPTURE (R262): At the due tick the capture stores COUNT and TICK, sets CAPTURED, or records an overrun. -/
  | timerCapture (p : Slice) (n : Fin 16)
  /-- TMR_CAP_READ (R263): A read of TMR_CAP returns both fields and clears CAPTURED. -/
  | tmrCapRead (ag : Agent) (p : Slice) (n : Fin 16)
  /-- RATIO_MEASUREMENT (R264): Every 2^15 slow periods the panel measures timer clocks per slow-clock period. -/
  | ratioMeasurement (p : Slice) (ratio : BitVec 32)
  /-- STENCIL_ROW_END (R268): A row's dwell ends, its end actions run, and the next row is entered with its entry actions. -/
  | stencilRowEnd (s : Slice) (e : Fin 8) (pins : BitVec 16)
  /-- STEN_START (R272): A write of 1 to STEN_CMD.START starts a stopped engine at row 0 with its INIT levels. -/
  | stenStart (s : Slice) (e : Fin 8)
  /-- STEN_STOP (R272): A write of 1 to STEN_CMD.STOP freezes the engine and abandons the row in progress. -/
  | stenStop (s : Slice) (e : Fin 8)
  /-- STEN_CLR_FIFO (R272): Writing 1 to STEN_CMD.CLR_FIFO empties both FIFOs. -/
  | stenClrFifo (ag : Agent) (s : Slice) (e : Fin 8)
  /-- STEN_TXF_WRITE (R271): A write to STEN_TXF pushes a word onto the TX FIFO, or drops it when full. -/
  | stenTxfWrite (s : Slice) (e : Fin 8) (word : BitVec 32)
  /-- STEN_RXF_READ (R271): A read of STEN_RXF pops the RX FIFO head, or returns VALID 0 when empty. -/
  | stenRxfRead (ag : Agent) (s : Slice) (e : Fin 8)
  /-- STEN_ROW_WRITE (R273): A write to a row of a running engine becomes pending until a row boundary with SCNT 0. -/
  | stenRowWrite (s : Slice) (e : Fin 8) (r : Fin 32) (data : Word)
  /-- STEN_GSTART (R274): A write to STEN_GSTART starts every named engine of the same owner at one edge. -/
  | stenGstart (s : Slice) (mask : Byte)
  /-- STEN_GSTOP (R274): A write to STEN_GSTOP stops every named engine of the same owner at one edge. -/
  | stenGstop (s : Slice) (mask : Byte)
  /-- STEN_GCLK (R274): A write to STEN_GCLK restarts the dividers of the named engines at one edge. -/
  | stenGclk (s : Slice) (mask : Byte)
  /-- INTENT_FRAME_RECEIVED (R285): An intent frame passes the port-stage checks into the queue or is dropped. -/
  | intentFrameReceived (p : Slice) (port : Fin 2) (tag : Option RxTag) (bytes : List Byte)
  /-- TOKEN_REFILL (R285): After RATE ticks a partner's rate budget gains one token. -/
  | tokenRefill (p : Slice) (i : Fin 64)
  /-- INTENT_MESSAGE_TAKEN (R286): The block takes a queued message, rechecks it, and rejects or accepts it. -/
  | intentMessageTaken (p : Slice)
  /-- PARTNER_SILENCE (R288): At a partner's silence tick it becomes absent and decay or a new value is issued. -/
  | partnerSilence (p : Slice) (i : Fin 64)
  /-- QUAR_CLEAR (R290): A write of 1 to QUAR ends quarantine, refills the bucket and zeroes FAULTS. -/
  | quarClear (ag : Agent) (p : Slice) (i : Fin 64)
  /-- PARTNER_VALID_CHANGE (R291): A change of a partner entry's VALID makes it absent and resets its state. -/
  | partnerValidChange (ag : Agent) (p : Slice) (i : Fin 64) (valid : Bool)
  /-- INTN_CLR (R293): Writing 1 to INTN_CLR.CLR clears the drop counters and every REJECTS and GAPS. -/
  | intnClr (ag : Agent) (p : Slice)
  /-- LINK_STATE_CHANGE (R297): An Ethernet link comes up or goes down, or autonegotiation completes. -/
  | linkStateChange (p : Slice) (n : Fin 2) (link : LinkState)
  /-- RX_FRAME (R297): A received non-intent frame is checked and written as a record to the receive ring, or dropped and counted. -/
  | rxFrame (p : Slice) (n : Fin 2) (frame : RxFrame)
  /-- TX_RECORD (R297): The port reads the next transmit record and queues its frame, or skips a bad record. -/
  | txRecord (p : Slice) (n : Fin 2)
  /-- TX_FRAME_SENT (R297): A queued frame is transmitted with SecTAG, ICV and FCS under the gates and preemption. -/
  | txFrameSent (p : Slice) (n : Fin 2) (cut : Nat := 0)
  /-- GCL_CHANGE (R297): A write of 1 to ETH_GCL_CFG.CHANGE requests that the administrative gate list become operational. -/
  | gclChange (ag : Agent) (p : Slice) (n : Fin 2)
  /-- GCL_CHANGE_APPLIED (R297): At the chosen cycle boundary the administrative list becomes operational. -/
  | gclChangeApplied (p : Slice) (n : Fin 2) (gptp : Word)
  /-- GATE_ENTRY_EXPIRY (R280): A gate-list entry's interval expires and the next entry's gates apply. -/
  | gateEntryExpiry (p : Slice) (n : Fin 2) (gptp : Word := 0)
  /-- PREEMPT_VERIFY_DONE (R280): Preemption verification ends with success or failure. -/
  | preemptVerifyDone (p : Slice) (n : Fin 2) (ok : Bool)
  /-- SA_LOAD_GO (R297): A secure write of 1 to ETH_SA_LOAD.GO starts installing a secure association from bank 7. -/
  | saLoadGo (ag : Agent) (p : Slice) (n : Fin 2)
  /-- SA_LOAD_DONE (R297): An SA load completes by installing the record or setting ERROR. -/
  | saLoadDone (p : Slice) (n : Fin 2)
  /-- ETH_CLR (R296): Writing 1 to ETH_CLR.CLR clears the port's frame and error counters. -/
  | ethClr (ag : Agent) (p : Slice) (n : Fin 2)
  /-- FAB_CLR (R381): Writing 1 to FAB_CLR.CLR clears the overflow and flit counters. -/
  | fabClr (ag : Agent) (p : Slice)
  /-- FABRIC_LINK_ERROR (R381): A flit still failing after resend sets its link error bit, and a partner-link error stops mirroring. -/
  | fabricLinkError (p : Slice) (link : Fin 3)
  /-- EPOCH_BOUNDARY (R305): At a grid boundary, or an early close, the panel captures an EPOCH entry and each journaled thread's checkpoint. -/
  | epochBoundary (p : Slice)
  /-- CHECKPOINT_CLOSE (R307): All entries and held writes of the boundary arrive at the partner and are applied to the mirror. -/
  | checkpointClose (p : Slice)
  /-- JRNL_ENABLE (R305): A change of JRNL_CFG.EN from 0 to 1 starts journaling at the next grid tick. -/
  | jrnlEnable (ag : Agent) (p : Slice) (en : Bool)
  /-- JRNL_CLR (R321): Writing 1 to JRNL_CLR.CLR clears JRNL_COUNTS. -/
  | jrnlClr (ag : Agent) (p : Slice)
  /-- HOVR_KICK (R309): A write of 1 to HOVR_KICK restarts the watchdog. -/
  | hovrKick (ag : Agent) (s : Slice)
  /-- WATCHDOG_EXPIRY (R309): The watchdog interval passes without a kick and the slice fails. -/
  | watchdogExpiry (s : Slice)
  /-- THREAD_RESTORE (R312): Each adopted thread is loaded from its last closed checkpoint and replay begins. -/
  | threadRestore (s : Slice)
  /-- THREAD_THROUGH (R314): An adopted thread consumes its last mirrored entry and runs live. -/
  | threadThrough (s : Slice) (u : Fin 16)
  /-- HOVR_ADOPT (R310): A write of 1 to HOVR_CMD.ADOPT retries an orphaned handover. -/
  | hovrAdopt (s : Slice)
  /-- HOVR_PLANNED (R317): A write of 1 to HOVR_CMD.PLANNED hands the slice over at the next boundary. -/
  | hovrPlanned (s : Slice)
  /-- HOVR_RELEASE (R318): A write of 1 to HOVR_CMD.RELEASE takes a held panel out of reset. -/
  | hovrRelease (ag : Agent) (s : Slice)
  /-- HOVR_RETURN (R318): A write of 1 to HOVR_CMD.RETURN returns the slice at the next grid boundary. -/
  | hovrReturn (s : Slice)
  /-- RETURN_COMPLETE (R318): The copy of regions and thread state ends, ADOPTED clears and the slice enters UNDER. -/
  | returnComplete (s : Slice)
  /-- MODE_COMMISSION (R325): A TARGET 1 command moves the slice to COMMISSION, or sets UNDER, or is refused. -/
  | modeCommission (tgt : ModeCmd)
  /-- MODE_RUN (R325): A TARGET 2 command moves the slice to RUN, or is refused while a protective cause persists. -/
  | modeRun (tgt : ModeCmd)
  /-- MODE_HOLD (R325): A TARGET 3 command moves the slice to HOLD. -/
  | modeHold (tgt : ModeCmd)
  /-- MODE_REST (R329): A TARGET 4 command runs the REST entry steps and stops the panel's island. -/
  | modeRest (tgt : ModeCmd)
  /-- MODE_WARM (R333): A write of 1 to MODE_CMD.WARM gives a commanded panel warm reset. -/
  | modeWarm (ag : Agent) (s : Slice)
  /-- PANEL_WARM_RESET_DONE (R333): A warm reset sequence ends and the AUTORUN threads start from their start records. -/
  | panelWarmResetDone (p : Slice)
  /-- THREAD_RESET_STOP (R332): MODE_THREAD with OP 1 resets the named threads and leaves them stopped. -/
  | threadResetStop (ag : Agent) (s : Slice) (mask : BitVec 16)
  /-- THREAD_RESET_START (R332): MODE_THREAD with OP 2 resets the named threads and starts them from their start records. -/
  | threadResetStart (ag : Agent) (s : Slice) (mask : BitVec 16)
  /-- PKG_RESET_CMD (R331): A write of 0xC01D to MODE_PKG_CMD.PKG_RESET gives a package reset. -/
  | pkgResetCmd (ag : Agent) (code : BitVec 16)
  /-- PKG_RESET_PIN (R331): PKG_RESET_N low for 100 ns or more gives a package reset. -/
  | pkgResetPin
  /-- POWER_ON (R387): Core rails recover and the reference runs, so the cold reset ends and PRIME begins. -/
  | powerOn
  /-- PRIME_END (R349): PRIME ends, thread 0 of each panel starts, and each slice enters its resumed or failure mode. -/
  | primeEnd (gesso : List GessoSlice) (slotA : Image) (slotB : Image)
  /-- RAIL_BELOW_WARNING (R340): A rail counted below its warning level starts a dip, flags samples and takes a dip record. -/
  | railBelowWarning (rail : Rail) (reading : RailReading := ⟨0, 64⟩)
  /-- DIP_RECORD_WRITTEN (R340): The dip record is written to MRAM and DIP_VALID is set. -/
  | dipRecordWritten
  /-- RAIL_RECOVERED (R341): A rail counted recovered raises its event and may end the dip. -/
  | railRecovered (rail : Rail) (reading : RailReading := ⟨5000, 1250⟩)
  /-- RAIL_BELOW_RESET (R341): A core rail at its reset level causes a cold reset, and a bank rail makes its pins high impedance. -/
  | railBelowReset (rail : Rail) (reading : RailReading := ⟨0, 64⟩)
  /-- JUNCTION_READING (R342): Every 10 µs the sector sensor reads the junction, raising the warning or the thermal override. -/
  | junctionReading (s : Slice) (celsius : Int)
  /-- UPNT_COMMIT (R337): A write of 1 to UPNT_CMD.COMMIT captures every U field into the older slot. -/
  | upntCommit (ag : Agent)
  /-- UPNT_COMMIT_KEYS (R337): A secure write of 1 to COMMIT_KEYS commits with the secure sub-slot from bank 7. -/
  | upntCommitKeys (ag : Agent)
  /-- COMMIT_DONE (R337): A commit ends, BUSY clears, and commit-complete or commit-failed is raised. -/
  | commitDone (ok : Bool)
  /-- UPNT_DIP_CLR (R345): Writing 1 to UPNT_CMD.DIP_CLR clears DIP_VALID and DIP_OVERRUN. -/
  | upntDipClr (ag : Agent)
  /-- LIFE_TRANSITION (R354): A secure write of LIFE_CMD.TARGET with CONFIRM requests a lifecycle transition, which wipes keys, burns fuses and resets. -/
  | lifeTransition (ag : Agent) (confirm : BitVec 16) (target : Fin 8)
  /-- ADVANCE_FLOOR (R355): A secure write of ADVANCE_FLOOR in PRODUCTION raises the rollback floor. -/
  | advanceFloor (ag : Agent)
  /-- RELOCK (R358): Writing 1 to LIFE_CMD.RELOCK ends any unlock. -/
  | relock (ag : Agent)
  /-- UNLOCK_REQ (R356): An Easel write of 1 to LIFE_UNLOCK.REQ draws a fresh challenge. -/
  | unlockReq (challenge : BitVec 384)
  /-- UNLOCK_SUBMIT (R356): An Easel write of 1 to LIFE_UNLOCK.SUBMIT checks the response and grants or refuses the unlock. -/
  | unlockSubmit
  /-- TAMPER_SENSE (R357): A tamper sensor senses, is counted, and its action wipes keys and may reset the package. -/
  | tamperSense (i : Fin 6)
  /-- TAP_RESET (R360): TRST_N resets the JTAG port and nothing else. -/
  | tapReset
  /-- EXTEST (R371): The EXTEST instruction drives the boundary cells only while PKG_RESET_N is low. -/
  | extest (scan : Scan := ⟨0, 0, 0⟩)
  /-- IDCODE (R360): The IDCODE instruction selects the 32-bit identification register. -/
  | idcode
  /-- SAMPLE_PRELOAD (R360): The SAMPLE/PRELOAD instruction captures and preloads the boundary cells. -/
  | samplePreload (scan : Scan := ⟨0, 0, 0⟩)
  /-- CLAMP (R371): The CLAMP instruction selects bypass with boundary cells driving while reset is held. -/
  | clamp (board : BitVec 492 := 0)
  /-- HIGHZ (R371): The HIGHZ instruction turns outputs off while reset is held. -/
  | highz (board : BitVec 492 := 0)
  /-- BYPASS (R360): The BYPASS instruction, or any unlisted code, selects the 1-bit bypass register. -/
  | bypass
  /-- EASEL_ACCESS (R361): At Update-DR an Easel read or write is performed at the chosen panel's view, checked against the lifecycle. -/
  | easelAccess (dr : BitVec 128)
  /-- EASL_HALT (R364): A write of 1 to EASL_CMD.HALT puts the panel's pairs in safe state and stops its cores. -/
  | easlHalt (p : Slice)
  /-- HALT_COMPLETE (R364): The panel's cores have drained, HALTED becomes 1 and source 568 is raised. -/
  | haltComplete (p : Slice)
  /-- EASL_STEP (R365): A write of n to EASL_STEP.COUNT runs one thread of a halted panel for n retirements. -/
  | easlStep (thread : Fin 16) (irq : Bool) (count : BitVec 30)
  /-- STEP_END (R365): A step reaches its retired count and stops, raising source 569. -/
  | stepEnd (p : Slice)
  /-- EASL_RESUME (R366): A write of 1 to EASL_CMD.RESUME restarts every thread of a halted panel. -/
  | easlResume (p : Slice)
  /-- EASL_DRESET (R334): A write of 1 to EASL_CMD.DRESET gives the panel a debug reset. -/
  | easlDreset (p : Slice)
  /-- EASL_TREG_WRITE (R367): A write of EASL_TDATA applies the selected thread item to both lockstep copies. -/
  | easlTregWrite (data : Word)
  /-- EASL_INJECT (R368): A write with EASL_INJECT.GO 1 forces a difference into a checker copy. -/
  | easlInject (data : Word)
  /-- REST_ENTRY_COMPLETE (R329): The last of the REST entry steps completes, the island clock stops, the slice's mode becomes REST and REST_PENDING clears. -/
  | restEntryComplete (s : Slice)
  /-- REMOTE_DRAM_RESPONSE (R154): The response to a thread's load from another panel's DRAM window reaches the register file, or arrives as an error, and the parked thread leaves parking. -/
  | remoteDramResponse (t : Tid) (failed : Bool)
  /-- TRIP_PIN_INACTIVE (R106): An enabled external trip pin returns high and the source becomes inactive, starting its count toward quiet. -/
  | tripPinInactive (s : Slice) (pin : Fin 8)
  /-- TAMPER_SENSE_END (R357): A tamper sensor stops sensing and its LIFE_TAMPER_STATUS.NOW bit clears. -/
  | tamperSenseEnd (i : Fin 6)
  /-- PKG_RESET_N_RELEASE (R371): PKG_RESET_N returns high, ending the control of the balls that EXTEST, CLAMP and HIGHZ hold only while the pin is low. -/
  | pkgResetNRelease
  /-- EASEL_ACCESS_DONE (R361): An Easel access started at Update-DR completes, and its result changes from busy to done, error or refused with any word read. -/
  | easelAccessDone
  /-- PTP_INTERVAL_EXPIRY (R296): A port's LOG_SYNC or LOG_PDELAY interval expires, and its 802.1AS instance sends a Sync as master or a Pdelay_Req. -/
  | ptpIntervalExpiry (p : Slice) (n : Fin 2) (pdelay : Bool)
  /-- PDELAY_RESPONSE (R296): A Pdelay response is received on a port and completes a link-delay measurement, updating ETH_PTP_DELAY.MEAN. -/
  | pdelayResponse (p : Slice) (n : Fin 2) (ps : BitVec 64)
  deriving DecidableEq, Repr

end Sys2Proof
end

