-- ==== Sys2Proof/Decode.lean ====
section
/-! DEFINITION. The word form of a command. The opcode table gives no row any bits: commands reach the block as
register accesses, events and instructions of its own threads, so no word spells a command. -/

namespace Sys2Proof

/-- The command a table word spells: none, since no row of the table has bits. -/
def decodeTableWord (_nbits _w : Nat) : Option Instr := none

end Sys2Proof
end

