-- ==== Sys2Proof/Config.lean ====
section
/-! DEFINITION. What the model leaves uninterpreted: the free values. None has a body: nothing can be proved about
their values. -/

namespace Sys2Proof.Config

/-- The n-th free value of a run (assumption 2): what the spec says results, without saying which. -/
opaque freeValue : Nat → BitVec 64

/-- The n-th free value of a run, of any kind of plain data (assumption 2): what a unit holds that a host error has made
unpredictable (R4; assumption 8). -/
opaque anything {α : Type} [Inhabited α] : Nat → α

/-- Sign and payload of the NaN that a binary64 operation delivers on operands for which IEEE 754 leaves them open
(R191; assumption 38). -/
opaque nanBits : BitVec 64 → BitVec 64 → BitVec 64

/-- The silicon revision that `IDCODE` shows (R360), which the spec does not state. -/
opaque siliconRevision : BitVec 4

end Sys2Proof.Config
end

