-- ==== Sys2Proof/Machine/RegTable.lean ====
section
/-! DEFINITION. The registers of every page, transcribed from the register tables of the spec
(R11, R28, R40, R46, R47, R59, R63, R73, R79, R103, R121, R143, R144, R146, R213, R231, R244, R256,
R257, R265, R266, R275, R276, R293, R294, R296, R321, R322, R343, R344, R345, R358, R373, R377, R381).
A field is named as the spec names it, `REGISTER.FIELD`. Reserved fields are not listed (R5): they
read as zero and writes to them do nothing. -/

namespace Sys2Proof.Machine

/-- The blocks of the page index (R379); a block with pages of two layouts has one name for each. -/
inductive Block where
  | pwmp
  | trip
  | fadc
  | madc
  | wcmp
  | sweep
  | loop
  | leng
  | twq
  | sten
  | stenGroup
  | scr
  | ddrc
  | evc
  | jrnl
  | fab
  | intnPartner
  | intnChannel
  | eth
  | dma
  | dmaAlloc
  | tmr
  | tmrGlobal
  | canv
  | modeSlice
  | modePkg
  | upnt
  | life
  | hovr
  | easl
  deriving DecidableEq, Repr

/-- Access codes (R6). -/
inductive Access where
  | rw | ro | wo | w1c | w1s | w1l | rwt | rwc | rws
  deriving DecidableEq, Repr

/-- Restore codes (R9). -/
inductive Restore where
  | u | k | z
  deriving DecidableEq, Repr

/-- A reset or factory value: a number, or a number that depends on which instance or which register
of a row of registers it is. -/
inductive ResetValue where
  | val (n : Nat)
  /-- the index of the register in its row of registers (`MADC_ENTRY{i}.INPUT`) -/
  | index
  /-- the instance number of the page (`LOOP_CFG.SRC`) -/
  | inst
  /-- the instance number mod 4 (`LOOP_ENGINE`) -/
  | instMod4
  deriving DecidableEq, Repr

/-- Where a field lies on its page: register offset, high bit, low bit. -/
structure Fld where
  off : Nat
  hi : Nat
  lo : Nat
  deriving DecidableEq, Repr

/-- The same field in the register `d` bytes further on. -/
def Fld.at (f : Fld) (d : Nat) : Fld := ⟨f.off + d, f.hi, f.lo⟩

/-- A field with its access code, Restore code and reset or factory value. -/
structure FieldRow where
  fld : Fld
  acc : Access
  rest : Restore
  reset : ResetValue
  deriving DecidableEq, Repr

/-- A row of `count` registers of one layout, `stride` bytes apart, whose first register holds `fields`. -/
structure RegRow where
  first : Nat
  stride : Nat
  count : Nat
  fields : List FieldRow
  deriving DecidableEq, Repr

/-! ### PWMP -/
def PWMP_CFG.WRAP_DIV : Fld := ⟨0x100, 31, 24⟩
def PWMP_CFG.SYNC : Fld := ⟨0x100, 20, 16⟩
def PWMP_CFG.DRIVE : Fld := ⟨0x100, 13, 12⟩
def PWMP_CFG.INV_B : Fld := ⟨0x100, 9, 9⟩
def PWMP_CFG.INV_A : Fld := ⟨0x100, 8, 8⟩
def PWMP_CFG.AUTOSTART : Fld := ⟨0x100, 7, 7⟩
def PWMP_CFG.NARROW : Fld := ⟨0x100, 6, 6⟩
def PWMP_CFG.IMM_PERIOD : Fld := ⟨0x100, 5, 5⟩
def PWMP_CFG.ONE_SHOT : Fld := ⟨0x100, 4, 4⟩
def PWMP_CFG.PRESC : Fld := ⟨0x100, 3, 2⟩
def PWMP_CFG.OUT_MODE : Fld := ⟨0x100, 1, 0⟩
def PWMP_PERIOD.VALUE : Fld := ⟨0x108, 20, 0⟩
def PWMP_CMP.VALUE : Fld := ⟨0x110, 25, 0⟩
def PWMP_PHASE.VALUE : Fld := ⟨0x130, 25, 0⟩
def PWMP_DEADTIME.DT_RISE : Fld := ⟨0x138, 49, 32⟩
def PWMP_DEADTIME.DT_FALL : Fld := ⟨0x138, 17, 0⟩
def PWMP_MIN_PULSE.VALUE : Fld := ⟨0x140, 17, 0⟩
def PWMP_RUN.CLR_COUNTS : Fld := ⟨0x148, 2, 2⟩
def PWMP_RUN.STOP : Fld := ⟨0x148, 1, 1⟩
def PWMP_RUN.START : Fld := ⟨0x148, 0, 0⟩
def PWMP_COUNT.RUNNING : Fld := ⟨0x150, 63, 63⟩
def PWMP_COUNT.PERIOD_NOW : Fld := ⟨0x150, 52, 32⟩
def PWMP_COUNT.COUNT : Fld := ⟨0x150, 19, 0⟩
def PWMP_WRAP.TICK : Fld := ⟨0x158, 61, 0⟩
def PWMP_NARROW.STRETCHED : Fld := ⟨0x160, 63, 32⟩
def PWMP_NARROW.DROPPED : Fld := ⟨0x160, 31, 0⟩
def PWMP_STIPPLE.LOCKED : Fld := ⟨0x168, 16, 16⟩
def PWMP_STIPPLE.TAPS_B : Fld := ⟨0x168, 14, 8⟩
def PWMP_STIPPLE.TAPS_A : Fld := ⟨0x168, 6, 0⟩

/-- The block-specific registers of a PWMP page. -/
def pwmpRows : List RegRow := [
  ⟨0x100, 0x0, 1, [⟨PWMP_CFG.WRAP_DIV, .rw, .u, .val 0x0⟩,
    ⟨PWMP_CFG.SYNC, .rwc, .u, .val 0x10⟩,
    ⟨PWMP_CFG.DRIVE, .rwc, .u, .val 0x1⟩,
    ⟨PWMP_CFG.INV_B, .rwc, .u, .val 0x0⟩,
    ⟨PWMP_CFG.INV_A, .rwc, .u, .val 0x0⟩,
    ⟨PWMP_CFG.AUTOSTART, .rwc, .u, .val 0x0⟩,
    ⟨PWMP_CFG.NARROW, .rwc, .u, .val 0x0⟩,
    ⟨PWMP_CFG.IMM_PERIOD, .rwc, .u, .val 0x0⟩,
    ⟨PWMP_CFG.ONE_SHOT, .rwc, .u, .val 0x0⟩,
    ⟨PWMP_CFG.PRESC, .rwc, .u, .val 0x0⟩,
    ⟨PWMP_CFG.OUT_MODE, .rwc, .u, .val 0x0⟩]⟩,
  ⟨0x108, 0x0, 1, [⟨PWMP_PERIOD.VALUE, .rwt, .u, .val 0x1000⟩]⟩,
  ⟨0x110, 0x8, 4, [⟨PWMP_CMP.VALUE, .rwt, .u, .val 0x0⟩]⟩,
  ⟨0x130, 0x0, 1, [⟨PWMP_PHASE.VALUE, .rwt, .u, .val 0x0⟩]⟩,
  ⟨0x138, 0x0, 1, [⟨PWMP_DEADTIME.DT_RISE, .rwt, .u, .val 0x1000⟩,
    ⟨PWMP_DEADTIME.DT_FALL, .rwt, .u, .val 0x1000⟩]⟩,
  ⟨0x140, 0x0, 1, [⟨PWMP_MIN_PULSE.VALUE, .rwt, .u, .val 0x0⟩]⟩,
  ⟨0x148, 0x0, 1, [⟨PWMP_RUN.CLR_COUNTS, .wo, .z, .val 0x0⟩,
    ⟨PWMP_RUN.STOP, .rwt, .z, .val 0x0⟩,
    ⟨PWMP_RUN.START, .rwt, .z, .val 0x0⟩]⟩,
  ⟨0x150, 0x0, 1, [⟨PWMP_COUNT.RUNNING, .ro, .z, .val 0x0⟩,
    ⟨PWMP_COUNT.PERIOD_NOW, .ro, .z, .val 0x0⟩,
    ⟨PWMP_COUNT.COUNT, .ro, .z, .val 0x0⟩]⟩,
  ⟨0x158, 0x0, 1, [⟨PWMP_WRAP.TICK, .ro, .z, .val 0x0⟩]⟩,
  ⟨0x160, 0x0, 1, [⟨PWMP_NARROW.STRETCHED, .ro, .z, .val 0x0⟩,
    ⟨PWMP_NARROW.DROPPED, .ro, .z, .val 0x0⟩]⟩,
  ⟨0x168, 0x0, 1, [⟨PWMP_STIPPLE.LOCKED, .ro, .z, .val 0x0⟩,
    ⟨PWMP_STIPPLE.TAPS_B, .ro, .z, .val 0x0⟩,
    ⟨PWMP_STIPPLE.TAPS_A, .ro, .z, .val 0x0⟩]⟩]

/-! ### TRIP -/
def TRIP_EXT_CFG.NOBLANK : Fld := ⟨0x100, 15, 8⟩
def TRIP_EXT_CFG.EN : Fld := ⟨0x100, 7, 0⟩
def TRIP_NOBLANK_CMP.BELOW : Fld := ⟨0x108, 63, 32⟩
def TRIP_NOBLANK_CMP.ABOVE : Fld := ⟨0x108, 31, 0⟩
def TRIP_BCAST.PAIRS : Fld := ⟨0x110, 15, 0⟩
def TRIP_SRC.LINES : Fld := ⟨0x130, 11, 8⟩
def TRIP_SRC.PINS : Fld := ⟨0x130, 7, 0⟩
def TRIP_VOTE.DISAGREE : Fld := ⟨0x138, 63, 32⟩
def TRIP_VOTE.COPY : Fld := ⟨0x138, 2, 0⟩
def TRIP_OVERRIDE.THERMAL : Fld := ⟨0x140, 2, 2⟩
def TRIP_OVERRIDE.CLOCK_LOST : Fld := ⟨0x140, 1, 1⟩
def TRIP_OVERRIDE.MODE : Fld := ⟨0x140, 0, 0⟩
def TRIP_CLEAR.VOTE_CLR : Fld := ⟨0x148, 17, 17⟩
def TRIP_CLEAR.COUNT_CLR : Fld := ⟨0x148, 16, 16⟩
def TRIP_CLEAR.PAIR : Fld := ⟨0x148, 15, 0⟩
def TRIP_PAIR_CFG.FATAL : Fld := ⟨0x200, 16, 16⟩
def TRIP_PAIR_CFG.BLANK : Fld := ⟨0x200, 15, 8⟩
def TRIP_PAIR_CFG.SAFE_B : Fld := ⟨0x200, 3, 2⟩
def TRIP_PAIR_CFG.SAFE_A : Fld := ⟨0x200, 1, 0⟩
def TRIP_PAIR_CBC_CMP.CMP : Fld := ⟨0x208, 63, 0⟩
def TRIP_PAIR_CBC_OTHER.LINES : Fld := ⟨0x210, 11, 8⟩
def TRIP_PAIR_CBC_OTHER.PINS : Fld := ⟨0x210, 7, 0⟩
def TRIP_PAIR_LAT_CMP.CMP : Fld := ⟨0x218, 63, 0⟩
def TRIP_PAIR_LAT_OTHER.LINES : Fld := ⟨0x220, 11, 8⟩
def TRIP_PAIR_LAT_OTHER.PINS : Fld := ⟨0x220, 7, 0⟩
def TRIP_PAIR_STATE.RELEASE_WAIT : Fld := ⟨0x228, 6, 6⟩
def TRIP_PAIR_STATE.CLEAR_PENDING : Fld := ⟨0x228, 5, 5⟩
def TRIP_PAIR_STATE.STILL_ACTIVE : Fld := ⟨0x228, 4, 4⟩
def TRIP_PAIR_STATE.DEBUG : Fld := ⟨0x228, 3, 3⟩
def TRIP_PAIR_STATE.SAFE : Fld := ⟨0x228, 2, 2⟩
def TRIP_PAIR_STATE.CBC : Fld := ⟨0x228, 1, 1⟩
def TRIP_PAIR_STATE.LATCHED : Fld := ⟨0x228, 0, 0⟩
def TRIP_PAIR_CAUSE.SOURCE : Fld := ⟨0x230, 62, 56⟩
def TRIP_PAIR_CAUSE.TICK : Fld := ⟨0x230, 47, 0⟩
def TRIP_PAIR_COUNTS.CBC_COUNT : Fld := ⟨0x238, 63, 32⟩
def TRIP_PAIR_COUNTS.LATCH_COUNT : Fld := ⟨0x238, 31, 0⟩

/-- The block-specific registers of a TRIP page. -/
def tripRows : List RegRow := [
  ⟨0x100, 0x0, 1, [⟨TRIP_EXT_CFG.NOBLANK, .rwc, .u, .val 0x0⟩,
    ⟨TRIP_EXT_CFG.EN, .rwc, .u, .val 0x0⟩]⟩,
  ⟨0x108, 0x0, 1, [⟨TRIP_NOBLANK_CMP.BELOW, .rwc, .u, .val 0x0⟩,
    ⟨TRIP_NOBLANK_CMP.ABOVE, .rwc, .u, .val 0x0⟩]⟩,
  ⟨0x110, 0x8, 4, [⟨TRIP_BCAST.PAIRS, .rwc, .u, .val 0x0⟩]⟩,
  ⟨0x130, 0x0, 1, [⟨TRIP_SRC.LINES, .ro, .z, .val 0x0⟩,
    ⟨TRIP_SRC.PINS, .ro, .z, .val 0x0⟩]⟩,
  ⟨0x138, 0x0, 1, [⟨TRIP_VOTE.DISAGREE, .ro, .k, .val 0x0⟩,
    ⟨TRIP_VOTE.COPY, .ro, .k, .val 0x0⟩]⟩,
  ⟨0x140, 0x0, 1, [⟨TRIP_OVERRIDE.THERMAL, .ro, .z, .val 0x0⟩,
    ⟨TRIP_OVERRIDE.CLOCK_LOST, .ro, .k, .val 0x0⟩,
    ⟨TRIP_OVERRIDE.MODE, .ro, .z, .val 0x1⟩]⟩,
  ⟨0x148, 0x0, 1, [⟨TRIP_CLEAR.VOTE_CLR, .wo, .z, .val 0x0⟩,
    ⟨TRIP_CLEAR.COUNT_CLR, .wo, .z, .val 0x0⟩,
    ⟨TRIP_CLEAR.PAIR, .rwt, .z, .val 0x0⟩]⟩,
  ⟨0x200, 0x40, 16, [⟨TRIP_PAIR_CFG.FATAL, .rwc, .u, .val 0x0⟩,
    ⟨TRIP_PAIR_CFG.BLANK, .rwc, .u, .val 0x0⟩,
    ⟨TRIP_PAIR_CFG.SAFE_B, .rwc, .u, .val 0x2⟩,
    ⟨TRIP_PAIR_CFG.SAFE_A, .rwc, .u, .val 0x2⟩]⟩,
  ⟨0x208, 0x40, 16, [⟨TRIP_PAIR_CBC_CMP.CMP, .rwc, .u, .val 0x0⟩]⟩,
  ⟨0x210, 0x40, 16, [⟨TRIP_PAIR_CBC_OTHER.LINES, .rwc, .u, .val 0x0⟩,
    ⟨TRIP_PAIR_CBC_OTHER.PINS, .rwc, .u, .val 0x0⟩]⟩,
  ⟨0x218, 0x40, 16, [⟨TRIP_PAIR_LAT_CMP.CMP, .rwc, .u, .val 0x0⟩]⟩,
  ⟨0x220, 0x40, 16, [⟨TRIP_PAIR_LAT_OTHER.LINES, .rwc, .u, .val 0x0⟩,
    ⟨TRIP_PAIR_LAT_OTHER.PINS, .rwc, .u, .val 0x0⟩]⟩,
  ⟨0x228, 0x40, 16, [⟨TRIP_PAIR_STATE.RELEASE_WAIT, .ro, .z, .val 0x0⟩,
    ⟨TRIP_PAIR_STATE.CLEAR_PENDING, .ro, .k, .val 0x0⟩,
    ⟨TRIP_PAIR_STATE.STILL_ACTIVE, .ro, .k, .val 0x0⟩,
    ⟨TRIP_PAIR_STATE.DEBUG, .ro, .z, .val 0x0⟩,
    ⟨TRIP_PAIR_STATE.SAFE, .ro, .z, .val 0x1⟩,
    ⟨TRIP_PAIR_STATE.CBC, .ro, .z, .val 0x0⟩,
    ⟨TRIP_PAIR_STATE.LATCHED, .ro, .k, .val 0x0⟩]⟩,
  ⟨0x230, 0x40, 16, [⟨TRIP_PAIR_CAUSE.SOURCE, .ro, .k, .val 0x7F⟩,
    ⟨TRIP_PAIR_CAUSE.TICK, .ro, .k, .val 0x0⟩]⟩,
  ⟨0x238, 0x40, 16, [⟨TRIP_PAIR_COUNTS.CBC_COUNT, .ro, .k, .val 0x0⟩,
    ⟨TRIP_PAIR_COUNTS.LATCH_COUNT, .ro, .k, .val 0x0⟩]⟩]

/-! ### FADC -/
def FADC_SCHED.MODE : Fld := ⟨0x100, 63, 62⟩
def FADC_SCHED.PAIR : Fld := ⟨0x100, 57, 54⟩
def FADC_SCHED.STIPPLE : Fld := ⟨0x100, 53, 48⟩
def FADC_SCHED.START : Fld := ⟨0x100, 35, 16⟩
def FADC_SCHED.PERIOD : Fld := ⟨0x100, 15, 0⟩
def FADC_RESULT.TICK : Fld := ⟨0x108, 63, 32⟩
def FADC_RESULT.DIP : Fld := ⟨0x108, 15, 15⟩
def FADC_RESULT.RANGE : Fld := ⟨0x108, 14, 14⟩
def FADC_RESULT.CLIP : Fld := ⟨0x108, 13, 13⟩
def FADC_RESULT.CODE : Fld := ⟨0x108, 11, 0⟩
def FADC_RANGE.HI : Fld := ⟨0x110, 27, 16⟩
def FADC_RANGE.LO : Fld := ⟨0x110, 11, 0⟩
def FADC_CAL.CAL_DUE : Fld := ⟨0x118, 7, 7⟩
def FADC_CAL.BUSY : Fld := ⟨0x118, 4, 4⟩
def FADC_CAL.START : Fld := ⟨0x118, 0, 0⟩
def FADC_CAL_RESULT.GAIN : Fld := ⟨0x120, 31, 16⟩
def FADC_CAL_RESULT.OFFSET : Fld := ⟨0x120, 15, 0⟩
def FADC_RING_BASE.ADDR : Fld := ⟨0x128, 47, 7⟩
def FADC_RING_BASE.EN : Fld := ⟨0x128, 0, 0⟩
def FADC_RING_SIZE.SIZE : Fld := ⟨0x130, 39, 7⟩
def FADC_RING_COUNT.COUNT : Fld := ⟨0x138, 63, 0⟩
def FADC_TRIG.POST : Fld := ⟨0x140, 63, 32⟩
def FADC_TRIG.ARM : Fld := ⟨0x140, 31, 31⟩
def FADC_TRIG.LINK_OUT : Fld := ⟨0x140, 30, 30⟩
def FADC_TRIG.SOURCE : Fld := ⟨0x140, 23, 20⟩
def FADC_TRIG.INDEX : Fld := ⟨0x140, 4, 0⟩
def FADC_TRIG_FIRE.FIRE : Fld := ⟨0x148, 0, 0⟩
def FADC_TRIG_SAMPLE.SAMPLE : Fld := ⟨0x150, 63, 0⟩
def FADC_RING_STATE.ADOPTED : Fld := ⟨0x158, 1, 1⟩
def FADC_RING_STATE.FROZEN : Fld := ⟨0x158, 0, 0⟩
def FADC_DIP_START.START : Fld := ⟨0x160, 61, 0⟩
def FADC_DIP_END.OPEN : Fld := ⟨0x168, 63, 63⟩
def FADC_DIP_END.END : Fld := ⟨0x168, 61, 0⟩
def FADC_RING_DROPPED.CLR : Fld := ⟨0x170, 63, 63⟩
def FADC_RING_DROPPED.DROPPED : Fld := ⟨0x170, 31, 0⟩

/-- The block-specific registers of a FADC page. -/
def fadcRows : List RegRow := [
  ⟨0x100, 0x0, 1, [⟨FADC_SCHED.MODE, .rwc, .u, .val 0x0⟩,
    ⟨FADC_SCHED.PAIR, .rwc, .u, .val 0x0⟩,
    ⟨FADC_SCHED.STIPPLE, .rwc, .u, .val 0x0⟩,
    ⟨FADC_SCHED.START, .rwc, .u, .val 0x0⟩,
    ⟨FADC_SCHED.PERIOD, .rwc, .u, .val 0x3⟩]⟩,
  ⟨0x108, 0x0, 1, [⟨FADC_RESULT.TICK, .ro, .z, .val 0x0⟩,
    ⟨FADC_RESULT.DIP, .ro, .z, .val 0x0⟩,
    ⟨FADC_RESULT.RANGE, .ro, .z, .val 0x0⟩,
    ⟨FADC_RESULT.CLIP, .ro, .z, .val 0x0⟩,
    ⟨FADC_RESULT.CODE, .ro, .z, .val 0x0⟩]⟩,
  ⟨0x110, 0x0, 1, [⟨FADC_RANGE.HI, .rw, .u, .val 0x7FF⟩,
    ⟨FADC_RANGE.LO, .rw, .u, .val 0x800⟩]⟩,
  ⟨0x118, 0x0, 1, [⟨FADC_CAL.CAL_DUE, .ro, .z, .val 0x0⟩,
    ⟨FADC_CAL.BUSY, .ro, .z, .val 0x0⟩,
    ⟨FADC_CAL.START, .wo, .z, .val 0x0⟩]⟩,
  ⟨0x120, 0x0, 1, [⟨FADC_CAL_RESULT.GAIN, .ro, .z, .val 0x0⟩,
    ⟨FADC_CAL_RESULT.OFFSET, .ro, .z, .val 0x0⟩]⟩,
  ⟨0x128, 0x0, 1, [⟨FADC_RING_BASE.ADDR, .rw, .u, .val 0x0⟩,
    ⟨FADC_RING_BASE.EN, .rw, .u, .val 0x0⟩]⟩,
  ⟨0x130, 0x0, 1, [⟨FADC_RING_SIZE.SIZE, .rw, .u, .val 0x0⟩]⟩,
  ⟨0x138, 0x0, 1, [⟨FADC_RING_COUNT.COUNT, .ro, .z, .val 0x0⟩]⟩,
  ⟨0x140, 0x0, 1, [⟨FADC_TRIG.POST, .rw, .u, .val 0x0⟩,
    ⟨FADC_TRIG.ARM, .rw, .z, .val 0x0⟩,
    ⟨FADC_TRIG.LINK_OUT, .rw, .u, .val 0x0⟩,
    ⟨FADC_TRIG.SOURCE, .rw, .u, .val 0x0⟩,
    ⟨FADC_TRIG.INDEX, .rw, .u, .val 0x0⟩]⟩,
  ⟨0x148, 0x0, 1, [⟨FADC_TRIG_FIRE.FIRE, .rwt, .z, .val 0x0⟩]⟩,
  ⟨0x150, 0x0, 1, [⟨FADC_TRIG_SAMPLE.SAMPLE, .ro, .z, .val 0x0⟩]⟩,
  ⟨0x158, 0x0, 1, [⟨FADC_RING_STATE.ADOPTED, .ro, .z, .val 0x0⟩,
    ⟨FADC_RING_STATE.FROZEN, .ro, .z, .val 0x0⟩]⟩,
  ⟨0x160, 0x0, 1, [⟨FADC_DIP_START.START, .ro, .z, .val 0x0⟩]⟩,
  ⟨0x168, 0x0, 1, [⟨FADC_DIP_END.OPEN, .ro, .z, .val 0x0⟩,
    ⟨FADC_DIP_END.END, .ro, .z, .val 0x0⟩]⟩,
  ⟨0x170, 0x0, 1, [⟨FADC_RING_DROPPED.CLR, .wo, .z, .val 0x0⟩,
    ⟨FADC_RING_DROPPED.DROPPED, .ro, .z, .val 0x0⟩]⟩]

/-! ### MADC -/
def MADC_SCHED.LEN : Fld := ⟨0x100, 4, 0⟩
def MADC_ENTRY.AVG : Fld := ⟨0x180, 22, 20⟩
def MADC_ENTRY.ACQ : Fld := ⟨0x180, 19, 8⟩
def MADC_ENTRY.INPUT : Fld := ⟨0x180, 3, 0⟩
def MADC_RESULT.TICK : Fld := ⟨0x200, 63, 32⟩
def MADC_RESULT.DIP : Fld := ⟨0x200, 17, 17⟩
def MADC_RESULT.OUT : Fld := ⟨0x200, 16, 16⟩
def MADC_RESULT.CODE : Fld := ⟨0x200, 15, 0⟩
def MADC_LIMIT.EN : Fld := ⟨0x280, 32, 32⟩
def MADC_LIMIT.HI : Fld := ⟨0x280, 31, 16⟩
def MADC_LIMIT.LO : Fld := ⟨0x280, 15, 0⟩

/-- The block-specific registers of a MADC page. -/
def madcRows : List RegRow := [
  ⟨0x100, 0x0, 1, [⟨MADC_SCHED.LEN, .rw, .u, .val 0x0⟩]⟩,
  ⟨0x180, 0x8, 16, [⟨MADC_ENTRY.AVG, .rw, .u, .val 0x0⟩,
    ⟨MADC_ENTRY.ACQ, .rw, .u, .val 0x7D⟩,
    ⟨MADC_ENTRY.INPUT, .rw, .u, .index⟩]⟩,
  ⟨0x200, 0x8, 16, [⟨MADC_RESULT.TICK, .ro, .z, .val 0x0⟩,
    ⟨MADC_RESULT.DIP, .ro, .z, .val 0x0⟩,
    ⟨MADC_RESULT.OUT, .ro, .z, .val 0x0⟩,
    ⟨MADC_RESULT.CODE, .ro, .z, .val 0x0⟩]⟩,
  ⟨0x280, 0x8, 16, [⟨MADC_LIMIT.EN, .rw, .u, .val 0x0⟩,
    ⟨MADC_LIMIT.HI, .rw, .u, .val 0xFFFF⟩,
    ⟨MADC_LIMIT.LO, .rw, .u, .val 0x0⟩]⟩]

/-! ### WCMP -/
def WCMP_CFG.TIE : Fld := ⟨0x100, 13, 12⟩
def WCMP_CFG.SWAP : Fld := ⟨0x100, 8, 8⟩
def WCMP_CFG.HYST : Fld := ⟨0x100, 5, 4⟩
def WCMP_CFG.SEL : Fld := ⟨0x100, 1, 0⟩
def WCMP_THRESH.HI : Fld := ⟨0x108, 25, 16⟩
def WCMP_THRESH.LO : Fld := ⟨0x108, 9, 0⟩
def WCMP_STATE.FAILED : Fld := ⟨0x110, 8, 8⟩
def WCMP_STATE.SWEPT : Fld := ⟨0x110, 7, 7⟩
def WCMP_STATE.CHECKING : Fld := ⟨0x110, 6, 6⟩
def WCMP_STATE.REPLACED : Fld := ⟨0x110, 5, 5⟩
def WCMP_STATE.STANDIN : Fld := ⟨0x110, 4, 4⟩
def WCMP_STATE.BELOW : Fld := ⟨0x110, 1, 1⟩
def WCMP_STATE.ABOVE : Fld := ⟨0x110, 0, 0⟩
def WCMP_CHECK.RESULT : Fld := ⟨0x118, 11, 8⟩
def WCMP_CHECK.START : Fld := ⟨0x118, 0, 0⟩

/-- The block-specific registers of a WCMP page. -/
def wcmpRows : List RegRow := [
  ⟨0x100, 0x0, 1, [⟨WCMP_CFG.TIE, .rwc, .z, .val 0x0⟩,
    ⟨WCMP_CFG.SWAP, .rwc, .z, .val 0x0⟩,
    ⟨WCMP_CFG.HYST, .rwc, .u, .val 0x0⟩,
    ⟨WCMP_CFG.SEL, .rwc, .u, .val 0x0⟩]⟩,
  ⟨0x108, 0x0, 1, [⟨WCMP_THRESH.HI, .rwt, .u, .val 0x3FF⟩,
    ⟨WCMP_THRESH.LO, .rwt, .u, .val 0x0⟩]⟩,
  ⟨0x110, 0x0, 1, [⟨WCMP_STATE.FAILED, .ro, .z, .val 0x0⟩,
    ⟨WCMP_STATE.SWEPT, .ro, .z, .val 0x0⟩,
    ⟨WCMP_STATE.CHECKING, .ro, .z, .val 0x0⟩,
    ⟨WCMP_STATE.REPLACED, .ro, .z, .val 0x0⟩,
    ⟨WCMP_STATE.STANDIN, .ro, .z, .val 0x0⟩,
    ⟨WCMP_STATE.BELOW, .ro, .z, .val 0x0⟩,
    ⟨WCMP_STATE.ABOVE, .ro, .z, .val 0x0⟩]⟩,
  ⟨0x118, 0x0, 1, [⟨WCMP_CHECK.RESULT, .ro, .z, .val 0x0⟩,
    ⟨WCMP_CHECK.START, .wo, .z, .val 0x0⟩]⟩]

/-! ### SWEEP -/
def SWEEP_CFG.DWELL : Fld := ⟨0x100, 47, 32⟩
def SWEEP_CFG.TARGET : Fld := ⟨0x100, 20, 16⟩
def SWEEP_CFG.BITS : Fld := ⟨0x100, 13, 12⟩
def SWEEP_CFG.MODE : Fld := ⟨0x100, 1, 0⟩
def SWEEP_RAMP.STEP : Fld := ⟨0x108, 43, 32⟩
def SWEEP_RAMP.TO : Fld := ⟨0x108, 27, 16⟩
def SWEEP_RAMP.FROM : Fld := ⟨0x108, 11, 0⟩
def SWEEP_CTRL.STOP : Fld := ⟨0x110, 1, 1⟩
def SWEEP_CTRL.GO : Fld := ⟨0x110, 0, 0⟩
def SWEEP_RESULT.TICK : Fld := ⟨0x118, 63, 32⟩
def SWEEP_RESULT.REFUSED : Fld := ⟨0x118, 15, 15⟩
def SWEEP_RESULT.BUSY : Fld := ⟨0x118, 14, 14⟩
def SWEEP_RESULT.DONE : Fld := ⟨0x118, 13, 13⟩
def SWEEP_RESULT.CROSS : Fld := ⟨0x118, 12, 12⟩
def SWEEP_RESULT.CODE : Fld := ⟨0x118, 11, 0⟩

/-- The block-specific registers of a SWEEP page. -/
def sweepRows : List RegRow := [
  ⟨0x100, 0x0, 1, [⟨SWEEP_CFG.DWELL, .rw, .u, .val 0x40⟩,
    ⟨SWEEP_CFG.TARGET, .rw, .u, .val 0x0⟩,
    ⟨SWEEP_CFG.BITS, .rw, .u, .val 0x3⟩,
    ⟨SWEEP_CFG.MODE, .rw, .u, .val 0x0⟩]⟩,
  ⟨0x108, 0x0, 1, [⟨SWEEP_RAMP.STEP, .rw, .u, .val 0x1⟩,
    ⟨SWEEP_RAMP.TO, .rw, .u, .val 0x0⟩,
    ⟨SWEEP_RAMP.FROM, .rw, .u, .val 0x0⟩]⟩,
  ⟨0x110, 0x0, 1, [⟨SWEEP_CTRL.STOP, .wo, .z, .val 0x0⟩,
    ⟨SWEEP_CTRL.GO, .rwt, .z, .val 0x0⟩]⟩,
  ⟨0x118, 0x0, 1, [⟨SWEEP_RESULT.TICK, .ro, .z, .val 0x0⟩,
    ⟨SWEEP_RESULT.REFUSED, .ro, .z, .val 0x0⟩,
    ⟨SWEEP_RESULT.BUSY, .ro, .z, .val 0x0⟩,
    ⟨SWEEP_RESULT.DONE, .ro, .z, .val 0x0⟩,
    ⟨SWEEP_RESULT.CROSS, .ro, .z, .val 0x0⟩,
    ⟨SWEEP_RESULT.CODE, .ro, .z, .val 0x0⟩]⟩]

/-! ### LOOP -/
def LOOP_STATUS.MM_RUN : Fld := ⟨0x18, 11, 10⟩
def LOOP_STATUS.CAUSE : Fld := ⟨0x18, 9, 8⟩
def LOOP_STATUS.FROZEN : Fld := ⟨0x18, 6, 6⟩
def LOOP_STATUS.SAT : Fld := ⟨0x18, 5, 4⟩
def LOOP_STATUS.MISS : Fld := ⟨0x18, 3, 3⟩
def LOOP_STATUS.STAGED_DIFF : Fld := ⟨0x18, 2, 2⟩
def LOOP_STATUS.FORCED_OPEN : Fld := ⟨0x18, 1, 1⟩
def LOOP_STATUS.CLOSED : Fld := ⟨0x18, 0, 0⟩
def LOOP_CFG.PICK : Fld := ⟨0x100, 63, 44⟩
def LOOP_CFG.DECIM : Fld := ⟨0x100, 43, 24⟩
def LOOP_CFG.DECAY_SHIFT : Fld := ⟨0x100, 23, 20⟩
def LOOP_CFG.AW : Fld := ⟨0x100, 18, 18⟩
def LOOP_CFG.TARGET : Fld := ⟨0x100, 17, 16⟩
def LOOP_CFG.PAIR : Fld := ⟨0x100, 11, 8⟩
def LOOP_CFG.EN : Fld := ⟨0x100, 4, 4⟩
def LOOP_CFG.SRC : Fld := ⟨0x100, 3, 0⟩
def LOOP_ENGINE.ENGINE : Fld := ⟨0x108, 1, 0⟩
def LOOP_REF.VALUE : Fld := ⟨0x110, 15, 0⟩
def LOOP_FF_FW.VALUE : Fld := ⟨0x118, 31, 0⟩
def LOOP_FF_INTENT.VALUE : Fld := ⟨0x120, 31, 0⟩
def LOOP_FF_DECAY.ACTIVE : Fld := ⟨0x128, 0, 0⟩
def LOOP_LIMIT.HI : Fld := ⟨0x130, 57, 32⟩
def LOOP_LIMIT.LO : Fld := ⟨0x130, 25, 0⟩
def LOOP_MANUAL.VALUE : Fld := ⟨0x138, 25, 0⟩
def LOOP_B.VALUE : Fld := ⟨0x140, 31, 0⟩
def LOOP_A.VALUE : Fld := ⟨0x160, 31, 0⟩
def LOOP_BSHIFT.VALUE : Fld := ⟨0x178, 5, 0⟩
def LOOP_PRESET.AUTO : Fld := ⟨0x180, 63, 63⟩
def LOOP_PRESET.C : Fld := ⟨0x180, 43, 0⟩
def LOOP_PRE_E.VALUE : Fld := ⟨0x188, 17, 0⟩
def LOOP_CMD.CLR_COUNTS : Fld := ⟨0x190, 2, 2⟩
def LOOP_CMD.OPEN : Fld := ⟨0x190, 1, 1⟩
def LOOP_CMD.CLOSE : Fld := ⟨0x190, 0, 0⟩
def LOOP_OUT.TICK : Fld := ⟨0x198, 63, 32⟩
def LOOP_OUT.VALUE : Fld := ⟨0x198, 25, 0⟩
def LOOP_COUNTS.MISSES : Fld := ⟨0x1A0, 63, 32⟩
def LOOP_COUNTS.SATURATIONS : Fld := ⟨0x1A0, 31, 0⟩
def LOOP_MISMATCHES.COUNT : Fld := ⟨0x1A8, 31, 0⟩
def LOOP_EVALS.COUNT : Fld := ⟨0x1B0, 63, 0⟩
def LOOP_HIST.E : Fld := ⟨0x1B8, 61, 44⟩
def LOOP_HIST.C : Fld := ⟨0x1B8, 43, 0⟩

/-- The block-specific registers of a LOOP page. -/
def loopRows : List RegRow := [
  ⟨0x18, 0x0, 1, [⟨LOOP_STATUS.MM_RUN, .ro, .z, .val 0x0⟩,
    ⟨LOOP_STATUS.CAUSE, .ro, .z, .val 0x0⟩,
    ⟨LOOP_STATUS.FROZEN, .ro, .z, .val 0x0⟩,
    ⟨LOOP_STATUS.SAT, .ro, .z, .val 0x0⟩,
    ⟨LOOP_STATUS.MISS, .ro, .z, .val 0x0⟩,
    ⟨LOOP_STATUS.STAGED_DIFF, .ro, .z, .val 0x0⟩,
    ⟨LOOP_STATUS.FORCED_OPEN, .ro, .z, .val 0x0⟩,
    ⟨LOOP_STATUS.CLOSED, .ro, .z, .val 0x0⟩]⟩,
  ⟨0x100, 0x0, 1, [⟨LOOP_CFG.PICK, .rwc, .u, .val 0x0⟩,
    ⟨LOOP_CFG.DECIM, .rwc, .u, .val 0x1⟩,
    ⟨LOOP_CFG.DECAY_SHIFT, .rwc, .u, .val 0x0⟩,
    ⟨LOOP_CFG.AW, .rwc, .u, .val 0x1⟩,
    ⟨LOOP_CFG.TARGET, .rwc, .u, .val 0x0⟩,
    ⟨LOOP_CFG.PAIR, .rwc, .u, .inst⟩,
    ⟨LOOP_CFG.EN, .rwc, .u, .val 0x0⟩,
    ⟨LOOP_CFG.SRC, .rwc, .u, .inst⟩]⟩,
  ⟨0x108, 0x0, 1, [⟨LOOP_ENGINE.ENGINE, .rwt, .u, .instMod4⟩]⟩,
  ⟨0x110, 0x0, 1, [⟨LOOP_REF.VALUE, .rwt, .u, .val 0x0⟩]⟩,
  ⟨0x118, 0x0, 1, [⟨LOOP_FF_FW.VALUE, .rwt, .u, .val 0x0⟩]⟩,
  ⟨0x120, 0x0, 1, [⟨LOOP_FF_INTENT.VALUE, .rwt, .z, .val 0x0⟩]⟩,
  ⟨0x128, 0x0, 1, [⟨LOOP_FF_DECAY.ACTIVE, .rwt, .z, .val 0x0⟩]⟩,
  ⟨0x130, 0x0, 1, [⟨LOOP_LIMIT.HI, .rwt, .u, .val 0x0⟩,
    ⟨LOOP_LIMIT.LO, .rwt, .u, .val 0x0⟩]⟩,
  ⟨0x138, 0x0, 1, [⟨LOOP_MANUAL.VALUE, .rwt, .u, .val 0x0⟩]⟩,
  ⟨0x140, 0x8, 4, [⟨LOOP_B.VALUE, .rw, .u, .val 0x0⟩]⟩,
  ⟨0x160, 0x8, 3, [⟨LOOP_A.VALUE, .rw, .u, .val 0x0⟩]⟩,
  ⟨0x178, 0x0, 1, [⟨LOOP_BSHIFT.VALUE, .rw, .u, .val 0x18⟩]⟩,
  ⟨0x180, 0x0, 1, [⟨LOOP_PRESET.AUTO, .rw, .u, .val 0x1⟩,
    ⟨LOOP_PRESET.C, .rw, .u, .val 0x0⟩]⟩,
  ⟨0x188, 0x0, 1, [⟨LOOP_PRE_E.VALUE, .rw, .u, .val 0x0⟩]⟩,
  ⟨0x190, 0x0, 1, [⟨LOOP_CMD.CLR_COUNTS, .wo, .z, .val 0x0⟩,
    ⟨LOOP_CMD.OPEN, .rwt, .z, .val 0x0⟩,
    ⟨LOOP_CMD.CLOSE, .rwt, .z, .val 0x0⟩]⟩,
  ⟨0x198, 0x0, 1, [⟨LOOP_OUT.TICK, .ro, .z, .val 0x0⟩,
    ⟨LOOP_OUT.VALUE, .ro, .z, .val 0x0⟩]⟩,
  ⟨0x1A0, 0x0, 1, [⟨LOOP_COUNTS.MISSES, .ro, .z, .val 0x0⟩,
    ⟨LOOP_COUNTS.SATURATIONS, .ro, .z, .val 0x0⟩]⟩,
  ⟨0x1A8, 0x0, 1, [⟨LOOP_MISMATCHES.COUNT, .ro, .z, .val 0x0⟩]⟩,
  ⟨0x1B0, 0x0, 1, [⟨LOOP_EVALS.COUNT, .ro, .z, .val 0x0⟩]⟩,
  ⟨0x1B8, 0x0, 1, [⟨LOOP_HIST.E, .ro, .z, .val 0x0⟩,
    ⟨LOOP_HIST.C, .ro, .z, .val 0x0⟩]⟩]

/-! ### LENG -/
def LENG_SLOTS.SLOTS : Fld := ⟨0x100, 15, 0⟩
def LENG_GRANTED.GRANTED : Fld := ⟨0x108, 63, 0⟩
def LENG_BUSY.COUNT : Fld := ⟨0x110, 31, 0⟩
def LENG_MISMATCH.COUNT : Fld := ⟨0x118, 31, 0⟩
def LENG_CLR.CLR : Fld := ⟨0x120, 0, 0⟩

/-- The block-specific registers of a LENG page. -/
def lengRows : List RegRow := [
  ⟨0x100, 0x0, 1, [⟨LENG_SLOTS.SLOTS, .ro, .z, .val 0x0⟩]⟩,
  ⟨0x108, 0x0, 1, [⟨LENG_GRANTED.GRANTED, .ro, .z, .val 0x0⟩]⟩,
  ⟨0x110, 0x0, 1, [⟨LENG_BUSY.COUNT, .ro, .z, .val 0x0⟩]⟩,
  ⟨0x118, 0x0, 1, [⟨LENG_MISMATCH.COUNT, .ro, .z, .val 0x0⟩]⟩,
  ⟨0x120, 0x0, 1, [⟨LENG_CLR.CLR, .wo, .z, .val 0x0⟩]⟩]

/-! ### TWQ -/
def TWQ_LEVEL.HIGH_WATER : Fld := ⟨0x100, 24, 16⟩
def TWQ_LEVEL.OCCUPANCY : Fld := ⟨0x100, 8, 0⟩
def TWQ_DISCARDED.DISCARDED : Fld := ⟨0x108, 31, 0⟩
def TWQ_APPLIED_LATE.APPLIED_LATE : Fld := ⟨0x110, 31, 0⟩
def TWQ_REFUSED.REFUSED : Fld := ⟨0x118, 31, 0⟩
def TWQ_LAST_LATE.LATENESS : Fld := ⟨0x120, 63, 48⟩
def TWQ_LAST_LATE.PAGE : Fld := ⟨0x120, 43, 32⟩
def TWQ_LAST_LATE.OFFSET : Fld := ⟨0x120, 11, 0⟩
def TWQ_WARN.WARN_LEVEL : Fld := ⟨0x128, 8, 0⟩

/-- The block-specific registers of a TWQ page. -/
def twqRows : List RegRow := [
  ⟨0x100, 0x0, 1, [⟨TWQ_LEVEL.HIGH_WATER, .ro, .z, .val 0x0⟩,
    ⟨TWQ_LEVEL.OCCUPANCY, .ro, .z, .val 0x0⟩]⟩,
  ⟨0x108, 0x0, 1, [⟨TWQ_DISCARDED.DISCARDED, .ro, .z, .val 0x0⟩]⟩,
  ⟨0x110, 0x0, 1, [⟨TWQ_APPLIED_LATE.APPLIED_LATE, .ro, .z, .val 0x0⟩]⟩,
  ⟨0x118, 0x0, 1, [⟨TWQ_REFUSED.REFUSED, .ro, .z, .val 0x0⟩]⟩,
  ⟨0x120, 0x0, 1, [⟨TWQ_LAST_LATE.LATENESS, .ro, .z, .val 0x0⟩,
    ⟨TWQ_LAST_LATE.PAGE, .ro, .z, .val 0x0⟩,
    ⟨TWQ_LAST_LATE.OFFSET, .ro, .z, .val 0x0⟩]⟩,
  ⟨0x128, 0x0, 1, [⟨TWQ_WARN.WARN_LEVEL, .rw, .u, .val 0x0⟩]⟩]

/-! ### STEN -/
def STEN_CFG.DIV : Fld := ⟨0x100, 63, 48⟩
def STEN_CFG.LEN : Fld := ⟨0x100, 45, 40⟩
def STEN_CFG.SIN : Fld := ⟨0x100, 34, 32⟩
def STEN_CFG.SOUT : Fld := ⟨0x100, 30, 28⟩
def STEN_CFG.DIR : Fld := ⟨0x100, 24, 24⟩
def STEN_CFG.STALL : Fld := ⟨0x100, 16, 16⟩
def STEN_CFG.AUTOSTART : Fld := ⟨0x100, 8, 8⟩
def STEN_IN.IN_SEL7 : Fld := ⟨0x108, 62, 56⟩
def STEN_IN.IN_SEL6 : Fld := ⟨0x108, 54, 48⟩
def STEN_IN.IN_SEL5 : Fld := ⟨0x108, 46, 40⟩
def STEN_IN.IN_SEL4 : Fld := ⟨0x108, 38, 32⟩
def STEN_IN.IN_SEL3 : Fld := ⟨0x108, 30, 24⟩
def STEN_IN.IN_SEL2 : Fld := ⟨0x108, 22, 16⟩
def STEN_IN.IN_SEL1 : Fld := ⟨0x108, 14, 8⟩
def STEN_IN.IN_SEL0 : Fld := ⟨0x108, 6, 0⟩
def STEN_OUT.INIT7 : Fld := ⟨0x110, 62, 62⟩
def STEN_OUT.OD7 : Fld := ⟨0x110, 61, 61⟩
def STEN_OUT.PIN7 : Fld := ⟨0x110, 60, 56⟩
def STEN_OUT.INIT6 : Fld := ⟨0x110, 54, 54⟩
def STEN_OUT.OD6 : Fld := ⟨0x110, 53, 53⟩
def STEN_OUT.PIN6 : Fld := ⟨0x110, 52, 48⟩
def STEN_OUT.INIT5 : Fld := ⟨0x110, 46, 46⟩
def STEN_OUT.OD5 : Fld := ⟨0x110, 45, 45⟩
def STEN_OUT.PIN5 : Fld := ⟨0x110, 44, 40⟩
def STEN_OUT.INIT4 : Fld := ⟨0x110, 38, 38⟩
def STEN_OUT.OD4 : Fld := ⟨0x110, 37, 37⟩
def STEN_OUT.PIN4 : Fld := ⟨0x110, 36, 32⟩
def STEN_OUT.INIT3 : Fld := ⟨0x110, 30, 30⟩
def STEN_OUT.OD3 : Fld := ⟨0x110, 29, 29⟩
def STEN_OUT.PIN3 : Fld := ⟨0x110, 28, 24⟩
def STEN_OUT.INIT2 : Fld := ⟨0x110, 22, 22⟩
def STEN_OUT.OD2 : Fld := ⟨0x110, 21, 21⟩
def STEN_OUT.PIN2 : Fld := ⟨0x110, 20, 16⟩
def STEN_OUT.INIT1 : Fld := ⟨0x110, 14, 14⟩
def STEN_OUT.OD1 : Fld := ⟨0x110, 13, 13⟩
def STEN_OUT.PIN1 : Fld := ⟨0x110, 12, 8⟩
def STEN_OUT.INIT0 : Fld := ⟨0x110, 6, 6⟩
def STEN_OUT.OD0 : Fld := ⟨0x110, 5, 5⟩
def STEN_OUT.PIN0 : Fld := ⟨0x110, 4, 0⟩
def STEN_CMD.CLR_FIFO : Fld := ⟨0x118, 2, 2⟩
def STEN_CMD.STOP : Fld := ⟨0x118, 1, 1⟩
def STEN_CMD.START : Fld := ⟨0x118, 0, 0⟩
def STEN_TXF.WORD : Fld := ⟨0x120, 31, 0⟩
def STEN_RXF.VALID : Fld := ⟨0x128, 32, 32⟩
def STEN_RXF.WORD : Fld := ⟨0x128, 31, 0⟩
def STEN_STATE.OUT : Fld := ⟨0x130, 63, 56⟩
def STEN_STATE.ST : Fld := ⟨0x130, 55, 48⟩
def STEN_STATE.ROW : Fld := ⟨0x130, 44, 40⟩
def STEN_STATE.SCNT : Fld := ⟨0x130, 37, 32⟩
def STEN_STATE.PENDING : Fld := ⟨0x130, 22, 22⟩
def STEN_STATE.STALLED : Fld := ⟨0x130, 21, 21⟩
def STEN_STATE.RUNNING : Fld := ⟨0x130, 20, 20⟩
def STEN_STATE.TX_LEVEL : Fld := ⟨0x130, 15, 12⟩
def STEN_STATE.RX_LEVEL : Fld := ⟨0x130, 11, 8⟩
def STEN_SR.SR : Fld := ⟨0x138, 31, 0⟩
def STEN_FLAGS.RX_UNDER : Fld := ⟨0x140, 3, 3⟩
def STEN_FLAGS.RX_OVER : Fld := ⟨0x140, 2, 2⟩
def STEN_FLAGS.TX_UNDER : Fld := ⟨0x140, 1, 1⟩
def STEN_FLAGS.TX_OVER : Fld := ⟨0x140, 0, 0⟩
def STEN_ROW.ROW : Fld := ⟨0x200, 63, 0⟩

/-- The block-specific registers of a STEN page. -/
def stenRows : List RegRow := [
  ⟨0x100, 0x0, 1, [⟨STEN_CFG.DIV, .rwt, .u, .val 0x0⟩,
    ⟨STEN_CFG.LEN, .rwt, .u, .val 0x20⟩,
    ⟨STEN_CFG.SIN, .rwt, .u, .val 0x0⟩,
    ⟨STEN_CFG.SOUT, .rwt, .u, .val 0x0⟩,
    ⟨STEN_CFG.DIR, .rwt, .u, .val 0x0⟩,
    ⟨STEN_CFG.STALL, .rwt, .u, .val 0x1⟩,
    ⟨STEN_CFG.AUTOSTART, .rwt, .u, .val 0x0⟩]⟩,
  ⟨0x108, 0x0, 1, [⟨STEN_IN.IN_SEL7, .rwt, .u, .val 0x50⟩,
    ⟨STEN_IN.IN_SEL6, .rwt, .u, .val 0x50⟩,
    ⟨STEN_IN.IN_SEL5, .rwt, .u, .val 0x50⟩,
    ⟨STEN_IN.IN_SEL4, .rwt, .u, .val 0x50⟩,
    ⟨STEN_IN.IN_SEL3, .rwt, .u, .val 0x50⟩,
    ⟨STEN_IN.IN_SEL2, .rwt, .u, .val 0x50⟩,
    ⟨STEN_IN.IN_SEL1, .rwt, .u, .val 0x50⟩,
    ⟨STEN_IN.IN_SEL0, .rwt, .u, .val 0x50⟩]⟩,
  ⟨0x110, 0x0, 1, [⟨STEN_OUT.INIT7, .rwc, .u, .val 0x1⟩,
    ⟨STEN_OUT.OD7, .rwc, .u, .val 0x0⟩,
    ⟨STEN_OUT.PIN7, .rwc, .u, .val 0x1F⟩,
    ⟨STEN_OUT.INIT6, .rwc, .u, .val 0x1⟩,
    ⟨STEN_OUT.OD6, .rwc, .u, .val 0x0⟩,
    ⟨STEN_OUT.PIN6, .rwc, .u, .val 0x1F⟩,
    ⟨STEN_OUT.INIT5, .rwc, .u, .val 0x1⟩,
    ⟨STEN_OUT.OD5, .rwc, .u, .val 0x0⟩,
    ⟨STEN_OUT.PIN5, .rwc, .u, .val 0x1F⟩,
    ⟨STEN_OUT.INIT4, .rwc, .u, .val 0x1⟩,
    ⟨STEN_OUT.OD4, .rwc, .u, .val 0x0⟩,
    ⟨STEN_OUT.PIN4, .rwc, .u, .val 0x1F⟩,
    ⟨STEN_OUT.INIT3, .rwc, .u, .val 0x1⟩,
    ⟨STEN_OUT.OD3, .rwc, .u, .val 0x0⟩,
    ⟨STEN_OUT.PIN3, .rwc, .u, .val 0x1F⟩,
    ⟨STEN_OUT.INIT2, .rwc, .u, .val 0x1⟩,
    ⟨STEN_OUT.OD2, .rwc, .u, .val 0x0⟩,
    ⟨STEN_OUT.PIN2, .rwc, .u, .val 0x1F⟩,
    ⟨STEN_OUT.INIT1, .rwc, .u, .val 0x1⟩,
    ⟨STEN_OUT.OD1, .rwc, .u, .val 0x0⟩,
    ⟨STEN_OUT.PIN1, .rwc, .u, .val 0x1F⟩,
    ⟨STEN_OUT.INIT0, .rwc, .u, .val 0x1⟩,
    ⟨STEN_OUT.OD0, .rwc, .u, .val 0x0⟩,
    ⟨STEN_OUT.PIN0, .rwc, .u, .val 0x1F⟩]⟩,
  ⟨0x118, 0x0, 1, [⟨STEN_CMD.CLR_FIFO, .wo, .z, .val 0x0⟩,
    ⟨STEN_CMD.STOP, .rwt, .z, .val 0x0⟩,
    ⟨STEN_CMD.START, .rwt, .z, .val 0x0⟩]⟩,
  ⟨0x120, 0x0, 1, [⟨STEN_TXF.WORD, .rwt, .z, .val 0x0⟩]⟩,
  ⟨0x128, 0x0, 1, [⟨STEN_RXF.VALID, .ro, .z, .val 0x0⟩,
    ⟨STEN_RXF.WORD, .ro, .z, .val 0x0⟩]⟩,
  ⟨0x130, 0x0, 1, [⟨STEN_STATE.OUT, .ro, .z, .val 0xFF⟩,
    ⟨STEN_STATE.ST, .ro, .z, .val 0x0⟩,
    ⟨STEN_STATE.ROW, .ro, .z, .val 0x0⟩,
    ⟨STEN_STATE.SCNT, .ro, .z, .val 0x0⟩,
    ⟨STEN_STATE.PENDING, .ro, .z, .val 0x0⟩,
    ⟨STEN_STATE.STALLED, .ro, .z, .val 0x0⟩,
    ⟨STEN_STATE.RUNNING, .ro, .z, .val 0x0⟩,
    ⟨STEN_STATE.TX_LEVEL, .ro, .z, .val 0x0⟩,
    ⟨STEN_STATE.RX_LEVEL, .ro, .z, .val 0x0⟩]⟩,
  ⟨0x138, 0x0, 1, [⟨STEN_SR.SR, .ro, .z, .val 0x0⟩]⟩,
  ⟨0x140, 0x0, 1, [⟨STEN_FLAGS.RX_UNDER, .w1c, .z, .val 0x0⟩,
    ⟨STEN_FLAGS.RX_OVER, .w1c, .z, .val 0x0⟩,
    ⟨STEN_FLAGS.TX_UNDER, .w1c, .z, .val 0x0⟩,
    ⟨STEN_FLAGS.TX_OVER, .w1c, .z, .val 0x0⟩]⟩,
  ⟨0x200, 0x8, 32, [⟨STEN_ROW.ROW, .rwt, .u, .val 0x0⟩]⟩]

/-! ### STENG -/
def STEN_GSTART.MASK : Fld := ⟨0x100, 7, 0⟩
def STEN_GSTOP.MASK : Fld := ⟨0x108, 7, 0⟩
def STEN_GCLK.MASK : Fld := ⟨0x110, 7, 0⟩

/-- The block-specific registers of a STENG page. -/
def stenGroupRows : List RegRow := [
  ⟨0x100, 0x0, 1, [⟨STEN_GSTART.MASK, .rwt, .z, .val 0x0⟩]⟩,
  ⟨0x108, 0x0, 1, [⟨STEN_GSTOP.MASK, .rwt, .z, .val 0x0⟩]⟩,
  ⟨0x110, 0x0, 1, [⟨STEN_GCLK.MASK, .rwt, .z, .val 0x0⟩]⟩]

/-! ### SCR -/
def SCR_POWER.BANK7 : Fld := ⟨0x100, 15, 14⟩
def SCR_POWER.BANKS : Fld := ⟨0x100, 13, 0⟩
def SCR_POWER_STATUS.BUSY : Fld := ⟨0x108, 23, 16⟩
def SCR_POWER_STATUS.STATE : Fld := ⟨0x108, 15, 0⟩
def SCR_ECC_COUNTS.SCR_UE : Fld := ⟨0x110, 63, 48⟩
def SCR_ECC_COUNTS.SCR_CE : Fld := ⟨0x110, 47, 32⟩
def SCR_ECC_COUNTS.L2_UE : Fld := ⟨0x110, 31, 16⟩
def SCR_ECC_COUNTS.L2_CE : Fld := ⟨0x110, 15, 0⟩
def SCR_L1_COUNT.COUNT : Fld := ⟨0x118, 31, 0⟩
def SCR_ECC_LAST.VALID : Fld := ⟨0x120, 63, 63⟩
def SCR_ECC_LAST.UE : Fld := ⟨0x120, 62, 62⟩
def SCR_ECC_LAST.ARRAY : Fld := ⟨0x120, 61, 59⟩
def SCR_ECC_LAST.PORT : Fld := ⟨0x120, 58, 56⟩
def SCR_ECC_LAST.ADDR : Fld := ⟨0x120, 47, 0⟩
def SCR_COLL.COUNT : Fld := ⟨0x128, 63, 32⟩
def SCR_COLL.WINNER : Fld := ⟨0x128, 27, 25⟩
def SCR_COLL.LOSER : Fld := ⟨0x128, 24, 22⟩
def SCR_COLL.ADDR : Fld := ⟨0x128, 20, 0⟩
def SCR_REPAIR.BANKS : Fld := ⟨0x130, 63, 0⟩
def SCR_REPAIR_L2.COLS : Fld := ⟨0x138, 15, 8⟩
def SCR_REPAIR_L2.ROWS : Fld := ⟨0x138, 7, 0⟩
def SCR_CHECK.PASS : Fld := ⟨0x140, 19, 0⟩
def SCR_CMD.WIPE : Fld := ⟨0x148, 1, 1⟩
def SCR_CMD.CLR : Fld := ⟨0x148, 0, 0⟩

/-- The block-specific registers of a SCR page. -/
def scrRows : List RegRow := [
  ⟨0x100, 0x0, 1, [⟨SCR_POWER.BANK7, .rws, .u, .val 0x0⟩,
    ⟨SCR_POWER.BANKS, .rw, .u, .val 0x0⟩]⟩,
  ⟨0x108, 0x0, 1, [⟨SCR_POWER_STATUS.BUSY, .ro, .z, .val 0x0⟩,
    ⟨SCR_POWER_STATUS.STATE, .ro, .z, .val 0x0⟩]⟩,
  ⟨0x110, 0x0, 1, [⟨SCR_ECC_COUNTS.SCR_UE, .ro, .k, .val 0x0⟩,
    ⟨SCR_ECC_COUNTS.SCR_CE, .ro, .k, .val 0x0⟩,
    ⟨SCR_ECC_COUNTS.L2_UE, .ro, .k, .val 0x0⟩,
    ⟨SCR_ECC_COUNTS.L2_CE, .ro, .k, .val 0x0⟩]⟩,
  ⟨0x118, 0x0, 1, [⟨SCR_L1_COUNT.COUNT, .ro, .k, .val 0x0⟩]⟩,
  ⟨0x120, 0x0, 1, [⟨SCR_ECC_LAST.VALID, .w1c, .k, .val 0x0⟩,
    ⟨SCR_ECC_LAST.UE, .ro, .k, .val 0x0⟩,
    ⟨SCR_ECC_LAST.ARRAY, .ro, .k, .val 0x0⟩,
    ⟨SCR_ECC_LAST.PORT, .ro, .k, .val 0x0⟩,
    ⟨SCR_ECC_LAST.ADDR, .ro, .k, .val 0x0⟩]⟩,
  ⟨0x128, 0x0, 1, [⟨SCR_COLL.COUNT, .ro, .z, .val 0x0⟩,
    ⟨SCR_COLL.WINNER, .ro, .z, .val 0x0⟩,
    ⟨SCR_COLL.LOSER, .ro, .z, .val 0x0⟩,
    ⟨SCR_COLL.ADDR, .ro, .z, .val 0x0⟩]⟩,
  ⟨0x130, 0x0, 1, [⟨SCR_REPAIR.BANKS, .ro, .z, .val 0x0⟩]⟩,
  ⟨0x138, 0x0, 1, [⟨SCR_REPAIR_L2.COLS, .ro, .z, .val 0x0⟩,
    ⟨SCR_REPAIR_L2.ROWS, .ro, .z, .val 0x0⟩]⟩,
  ⟨0x140, 0x0, 1, [⟨SCR_CHECK.PASS, .ro, .z, .val 0x0⟩]⟩,
  ⟨0x148, 0x0, 1, [⟨SCR_CMD.WIPE, .rws, .z, .val 0x0⟩,
    ⟨SCR_CMD.CLR, .wo, .z, .val 0x0⟩]⟩]

/-! ### DDRC -/
def DDRC_CFG.MARK_THRESH : Fld := ⟨0x100, 23, 16⟩
def DDRC_CFG.SCRUB_HOURS : Fld := ⟨0x100, 15, 8⟩
def DDRC_CFG.SPEED : Fld := ⟨0x100, 2, 0⟩
def DDRC_MODULE.PRESENT : Fld := ⟨0x108, 63, 63⟩
def DDRC_MODULE.SUPPORTED : Fld := ⟨0x108, 62, 62⟩
def DDRC_MODULE.CAPACITY : Fld := ⟨0x108, 47, 40⟩
def DDRC_MODULE.MAX_SPEED : Fld := ⟨0x108, 10, 8⟩
def DDRC_MODULE.WIDTH : Fld := ⟨0x108, 5, 4⟩
def DDRC_MODULE.RANKS : Fld := ⟨0x108, 1, 0⟩
def DDRC_STATE.PASSES : Fld := ⟨0x110, 63, 32⟩
def DDRC_STATE.SPEED_NOW : Fld := ⟨0x110, 11, 9⟩
def DDRC_STATE.REFRESH_2X : Fld := ⟨0x110, 8, 8⟩
def DDRC_STATE.SELF_REFRESH : Fld := ⟨0x110, 2, 2⟩
def DDRC_STATE.TRAIN_FAIL : Fld := ⟨0x110, 1, 1⟩
def DDRC_STATE.TRAINED : Fld := ⟨0x110, 0, 0⟩
def DDRC_CE_LOG.VALID : Fld := ⟨0x118, 63, 63⟩
def DDRC_CE_LOG.SPREAD : Fld := ⟨0x118, 62, 62⟩
def DDRC_CE_LOG.DEVICE : Fld := ⟨0x118, 61, 57⟩
def DDRC_CE_LOG.SYMBOLS : Fld := ⟨0x118, 56, 52⟩
def DDRC_CE_LOG.RANK : Fld := ⟨0x118, 51, 51⟩
def DDRC_CE_LOG.BG : Fld := ⟨0x118, 50, 48⟩
def DDRC_CE_LOG.BANK : Fld := ⟨0x118, 47, 46⟩
def DDRC_CE_LOG.ROW : Fld := ⟨0x118, 45, 28⟩
def DDRC_CE_ADDR.ADDR : Fld := ⟨0x120, 47, 7⟩
def DDRC_UE_LOG.VALID : Fld := ⟨0x128, 63, 63⟩
def DDRC_UE_LOG.OVERRUN : Fld := ⟨0x128, 62, 62⟩
def DDRC_UE_LOG.SOURCE : Fld := ⟨0x128, 61, 60⟩
def DDRC_UE_LOG.COORD : Fld := ⟨0x128, 51, 28⟩
def DDRC_UE_ADDR.ADDR : Fld := ⟨0x130, 47, 7⟩
def DDRC_COUNTS.CE : Fld := ⟨0x138, 63, 32⟩
def DDRC_COUNTS.UE : Fld := ⟨0x138, 31, 0⟩
def DDRC_MARK.VALID1 : Fld := ⟨0x140, 15, 15⟩
def DDRC_MARK.AUTO1 : Fld := ⟨0x140, 14, 14⟩
def DDRC_MARK.DEV1 : Fld := ⟨0x140, 12, 8⟩
def DDRC_MARK.VALID0 : Fld := ⟨0x140, 7, 7⟩
def DDRC_MARK.AUTO0 : Fld := ⟨0x140, 6, 6⟩
def DDRC_MARK.DEV0 : Fld := ⟨0x140, 4, 0⟩
def DDRC_PPR.GO : Fld := ⟨0x148, 63, 63⟩
def DDRC_PPR.KIND : Fld := ⟨0x148, 62, 62⟩
def DDRC_PPR.COORD : Fld := ⟨0x148, 51, 28⟩
def DDRC_PPR.FAIL : Fld := ⟨0x148, 2, 2⟩
def DDRC_PPR.DONE : Fld := ⟨0x148, 1, 1⟩
def DDRC_PPR.BUSY : Fld := ⟨0x148, 0, 0⟩
def DDRC_DEV_CE.COUNTS : Fld := ⟨0x150, 63, 0⟩
def DDRC_CLR.DEV : Fld := ⟨0x1A0, 1, 1⟩
def DDRC_CLR.COUNTS : Fld := ⟨0x1A0, 0, 0⟩

/-- The block-specific registers of a DDRC page. -/
def ddrcRows : List RegRow := [
  ⟨0x100, 0x0, 1, [⟨DDRC_CFG.MARK_THRESH, .rw, .u, .val 0x10⟩,
    ⟨DDRC_CFG.SCRUB_HOURS, .rw, .u, .val 0x18⟩,
    ⟨DDRC_CFG.SPEED, .rwc, .u, .val 0x4⟩]⟩,
  ⟨0x108, 0x0, 1, [⟨DDRC_MODULE.PRESENT, .ro, .z, .val 0x0⟩,
    ⟨DDRC_MODULE.SUPPORTED, .ro, .z, .val 0x0⟩,
    ⟨DDRC_MODULE.CAPACITY, .ro, .z, .val 0x0⟩,
    ⟨DDRC_MODULE.MAX_SPEED, .ro, .z, .val 0x0⟩,
    ⟨DDRC_MODULE.WIDTH, .ro, .z, .val 0x0⟩,
    ⟨DDRC_MODULE.RANKS, .ro, .z, .val 0x0⟩]⟩,
  ⟨0x110, 0x0, 1, [⟨DDRC_STATE.PASSES, .ro, .k, .val 0x0⟩,
    ⟨DDRC_STATE.SPEED_NOW, .ro, .z, .val 0x0⟩,
    ⟨DDRC_STATE.REFRESH_2X, .ro, .z, .val 0x0⟩,
    ⟨DDRC_STATE.SELF_REFRESH, .ro, .z, .val 0x0⟩,
    ⟨DDRC_STATE.TRAIN_FAIL, .ro, .k, .val 0x0⟩,
    ⟨DDRC_STATE.TRAINED, .ro, .k, .val 0x0⟩]⟩,
  ⟨0x118, 0x0, 1, [⟨DDRC_CE_LOG.VALID, .w1c, .k, .val 0x0⟩,
    ⟨DDRC_CE_LOG.SPREAD, .ro, .k, .val 0x0⟩,
    ⟨DDRC_CE_LOG.DEVICE, .ro, .k, .val 0x0⟩,
    ⟨DDRC_CE_LOG.SYMBOLS, .ro, .k, .val 0x0⟩,
    ⟨DDRC_CE_LOG.RANK, .ro, .k, .val 0x0⟩,
    ⟨DDRC_CE_LOG.BG, .ro, .k, .val 0x0⟩,
    ⟨DDRC_CE_LOG.BANK, .ro, .k, .val 0x0⟩,
    ⟨DDRC_CE_LOG.ROW, .ro, .k, .val 0x0⟩]⟩,
  ⟨0x120, 0x0, 1, [⟨DDRC_CE_ADDR.ADDR, .ro, .k, .val 0x0⟩]⟩,
  ⟨0x128, 0x0, 1, [⟨DDRC_UE_LOG.VALID, .w1c, .k, .val 0x0⟩,
    ⟨DDRC_UE_LOG.OVERRUN, .w1c, .k, .val 0x0⟩,
    ⟨DDRC_UE_LOG.SOURCE, .ro, .k, .val 0x0⟩,
    ⟨DDRC_UE_LOG.COORD, .ro, .k, .val 0x0⟩]⟩,
  ⟨0x130, 0x0, 1, [⟨DDRC_UE_ADDR.ADDR, .ro, .k, .val 0x0⟩]⟩,
  ⟨0x138, 0x0, 1, [⟨DDRC_COUNTS.CE, .ro, .k, .val 0x0⟩,
    ⟨DDRC_COUNTS.UE, .ro, .k, .val 0x0⟩]⟩,
  ⟨0x140, 0x0, 1, [⟨DDRC_MARK.VALID1, .rw, .u, .val 0x0⟩,
    ⟨DDRC_MARK.AUTO1, .ro, .z, .val 0x0⟩,
    ⟨DDRC_MARK.DEV1, .rw, .u, .val 0x0⟩,
    ⟨DDRC_MARK.VALID0, .rw, .u, .val 0x0⟩,
    ⟨DDRC_MARK.AUTO0, .ro, .z, .val 0x0⟩,
    ⟨DDRC_MARK.DEV0, .rw, .u, .val 0x0⟩]⟩,
  ⟨0x148, 0x0, 1, [⟨DDRC_PPR.GO, .wo, .z, .val 0x0⟩,
    ⟨DDRC_PPR.KIND, .rw, .z, .val 0x0⟩,
    ⟨DDRC_PPR.COORD, .rw, .z, .val 0x0⟩,
    ⟨DDRC_PPR.FAIL, .w1c, .z, .val 0x0⟩,
    ⟨DDRC_PPR.DONE, .w1c, .z, .val 0x0⟩,
    ⟨DDRC_PPR.BUSY, .ro, .z, .val 0x0⟩]⟩,
  ⟨0x150, 0x8, 10, [⟨DDRC_DEV_CE.COUNTS, .ro, .k, .val 0x0⟩]⟩,
  ⟨0x1A0, 0x0, 1, [⟨DDRC_CLR.DEV, .wo, .z, .val 0x0⟩,
    ⟨DDRC_CLR.COUNTS, .wo, .z, .val 0x0⟩]⟩]

/-! ### EVC -/
def EVC_PEND.PEND : Fld := ⟨0x100, 63, 0⟩
def EVC_SERV.SERV : Fld := ⟨0x180, 63, 0⟩
def EVC_STATE.THIRD_VALID : Fld := ⟨0x200, 20, 20⟩
def EVC_STATE.THIRD_THREAD : Fld := ⟨0x200, 19, 16⟩
def EVC_STATE.WATCH_COUNT : Fld := ⟨0x200, 14, 8⟩
def EVC_STATE.WATCH_REFUSED : Fld := ⟨0x200, 4, 4⟩
def EVC_STATE.STACK_FULL : Fld := ⟨0x200, 3, 0⟩
def EVC_WAKE.VALID : Fld := ⟨0x208, 63, 63⟩
def EVC_WAKE.SOURCE : Fld := ⟨0x208, 58, 48⟩
def EVC_WAKE.TICK : Fld := ⟨0x208, 47, 0⟩
def EVC_SPURIOUS.COUNT : Fld := ⟨0x210, 31, 0⟩
def EVC_ORDER.COUNT : Fld := ⟨0x218, 31, 0⟩
def EVC_CLR.CLR : Fld := ⟨0x220, 0, 0⟩
def EVC_SRC.WATCH1 : Fld := ⟨0x400, 42, 42⟩
def EVC_SRC.EDGE1 : Fld := ⟨0x400, 41, 41⟩
def EVC_SRC.CORE1 : Fld := ⟨0x400, 40, 39⟩
def EVC_SRC.THREAD1 : Fld := ⟨0x400, 38, 37⟩
def EVC_SRC.PRIO1 : Fld := ⟨0x400, 36, 32⟩
def EVC_SRC.WATCH0 : Fld := ⟨0x400, 10, 10⟩
def EVC_SRC.EDGE0 : Fld := ⟨0x400, 9, 9⟩
def EVC_SRC.CORE0 : Fld := ⟨0x400, 8, 7⟩
def EVC_SRC.THREAD0 : Fld := ⟨0x400, 6, 5⟩
def EVC_SRC.PRIO0 : Fld := ⟨0x400, 4, 0⟩

/-- The block-specific registers of a EVC page. -/
def evcRows : List RegRow := [
  ⟨0x100, 0x8, 12, [⟨EVC_PEND.PEND, .ro, .z, .val 0x0⟩]⟩,
  ⟨0x180, 0x8, 12, [⟨EVC_SERV.SERV, .ro, .z, .val 0x0⟩]⟩,
  ⟨0x200, 0x0, 1, [⟨EVC_STATE.THIRD_VALID, .w1c, .k, .val 0x0⟩,
    ⟨EVC_STATE.THIRD_THREAD, .ro, .k, .val 0x0⟩,
    ⟨EVC_STATE.WATCH_COUNT, .ro, .z, .val 0x0⟩,
    ⟨EVC_STATE.WATCH_REFUSED, .w1c, .z, .val 0x0⟩,
    ⟨EVC_STATE.STACK_FULL, .ro, .z, .val 0x0⟩]⟩,
  ⟨0x208, 0x0, 1, [⟨EVC_WAKE.VALID, .w1c, .z, .val 0x0⟩,
    ⟨EVC_WAKE.SOURCE, .ro, .z, .val 0x0⟩,
    ⟨EVC_WAKE.TICK, .ro, .z, .val 0x0⟩]⟩,
  ⟨0x210, 0x0, 1, [⟨EVC_SPURIOUS.COUNT, .ro, .z, .val 0x0⟩]⟩,
  ⟨0x218, 0x0, 1, [⟨EVC_ORDER.COUNT, .ro, .z, .val 0x0⟩]⟩,
  ⟨0x220, 0x0, 1, [⟨EVC_CLR.CLR, .wo, .z, .val 0x0⟩]⟩,
  ⟨0x400, 0x8, 296, [⟨EVC_SRC.WATCH1, .rw, .u, .val 0x0⟩,
    ⟨EVC_SRC.EDGE1, .rw, .u, .val 0x0⟩,
    ⟨EVC_SRC.CORE1, .rw, .u, .val 0x0⟩,
    ⟨EVC_SRC.THREAD1, .rw, .u, .val 0x0⟩,
    ⟨EVC_SRC.PRIO1, .rw, .u, .val 0x0⟩,
    ⟨EVC_SRC.WATCH0, .rw, .u, .val 0x0⟩,
    ⟨EVC_SRC.EDGE0, .rw, .u, .val 0x0⟩,
    ⟨EVC_SRC.CORE0, .rw, .u, .val 0x0⟩,
    ⟨EVC_SRC.THREAD0, .rw, .u, .val 0x0⟩,
    ⟨EVC_SRC.PRIO0, .rw, .u, .val 0x0⟩]⟩]

/-! ### JRNL -/
def JRNL_CFG.EN : Fld := ⟨0x100, 63, 63⟩
def JRNL_CFG.EPOCH : Fld := ⟨0x100, 45, 32⟩
def JRNL_CFG.THREADS : Fld := ⟨0x100, 31, 16⟩
def JRNL_CFG.RX_THREAD1 : Fld := ⟨0x100, 11, 8⟩
def JRNL_CFG.RX_THREAD0 : Fld := ⟨0x100, 3, 0⟩
def JRNL_RING.ADDR : Fld := ⟨0x108, 47, 7⟩
def JRNL_RING_SIZE.SIZE : Fld := ⟨0x110, 39, 7⟩
def JRNL_MIRROR.ADDR : Fld := ⟨0x118, 47, 7⟩
def JRNL_HOLD.ADDR : Fld := ⟨0x120, 47, 7⟩
def JRNL_HOLD_SIZE.SIZE : Fld := ⟨0x128, 39, 7⟩
def JRNL_STATUS.EPOCH : Fld := ⟨0x130, 63, 32⟩
def JRNL_STATUS.STALLED : Fld := ⟨0x130, 4, 4⟩
def JRNL_STATUS.LINK_DOWN : Fld := ⟨0x130, 3, 3⟩
def JRNL_STATUS.CLOSE_LATE : Fld := ⟨0x130, 2, 2⟩
def JRNL_STATUS.CLOSING : Fld := ⟨0x130, 1, 1⟩
def JRNL_STATUS.ACTIVE : Fld := ⟨0x130, 0, 0⟩
def JRNL_CLOSED.TICK : Fld := ⟨0x138, 61, 0⟩
def JRNL_COUNTS.EARLY : Fld := ⟨0x140, 63, 32⟩
def JRNL_COUNTS.LATE : Fld := ⟨0x140, 31, 0⟩
def JRNL_FILL.HOLD : Fld := ⟨0x148, 63, 32⟩
def JRNL_FILL.RING : Fld := ⟨0x148, 31, 0⟩
def JRNL_CLR.CLR : Fld := ⟨0x150, 0, 0⟩
def JRNL_REGION_BASE.EN : Fld := ⟨0x200, 63, 63⟩
def JRNL_REGION_BASE.LOCAL : Fld := ⟨0x200, 47, 12⟩
def JRNL_REGION_SIZE.SIZE : Fld := ⟨0x208, 35, 12⟩
def JRNL_REGION_MIRROR.MIRROR : Fld := ⟨0x210, 47, 12⟩

/-- The block-specific registers of a JRNL page. -/
def jrnlRows : List RegRow := [
  ⟨0x100, 0x0, 1, [⟨JRNL_CFG.EN, .rw, .u, .val 0x0⟩,
    ⟨JRNL_CFG.EPOCH, .rw, .u, .val 0x64⟩,
    ⟨JRNL_CFG.THREADS, .rw, .u, .val 0x0⟩,
    ⟨JRNL_CFG.RX_THREAD1, .rw, .u, .val 0x0⟩,
    ⟨JRNL_CFG.RX_THREAD0, .rw, .u, .val 0x0⟩]⟩,
  ⟨0x108, 0x0, 1, [⟨JRNL_RING.ADDR, .rw, .u, .val 0x0⟩]⟩,
  ⟨0x110, 0x0, 1, [⟨JRNL_RING_SIZE.SIZE, .rw, .u, .val 0x0⟩]⟩,
  ⟨0x118, 0x0, 1, [⟨JRNL_MIRROR.ADDR, .rw, .u, .val 0x0⟩]⟩,
  ⟨0x120, 0x0, 1, [⟨JRNL_HOLD.ADDR, .rw, .u, .val 0x0⟩]⟩,
  ⟨0x128, 0x0, 1, [⟨JRNL_HOLD_SIZE.SIZE, .rw, .u, .val 0x0⟩]⟩,
  ⟨0x130, 0x0, 1, [⟨JRNL_STATUS.EPOCH, .ro, .z, .val 0x0⟩,
    ⟨JRNL_STATUS.STALLED, .ro, .z, .val 0x0⟩,
    ⟨JRNL_STATUS.LINK_DOWN, .ro, .k, .val 0x0⟩,
    ⟨JRNL_STATUS.CLOSE_LATE, .w1c, .k, .val 0x0⟩,
    ⟨JRNL_STATUS.CLOSING, .ro, .z, .val 0x0⟩,
    ⟨JRNL_STATUS.ACTIVE, .ro, .z, .val 0x0⟩]⟩,
  ⟨0x138, 0x0, 1, [⟨JRNL_CLOSED.TICK, .ro, .k, .val 0x0⟩]⟩,
  ⟨0x140, 0x0, 1, [⟨JRNL_COUNTS.EARLY, .ro, .k, .val 0x0⟩,
    ⟨JRNL_COUNTS.LATE, .ro, .k, .val 0x0⟩]⟩,
  ⟨0x148, 0x0, 1, [⟨JRNL_FILL.HOLD, .ro, .z, .val 0x0⟩,
    ⟨JRNL_FILL.RING, .ro, .z, .val 0x0⟩]⟩,
  ⟨0x150, 0x0, 1, [⟨JRNL_CLR.CLR, .wo, .z, .val 0x0⟩]⟩,
  ⟨0x200, 0x20, 16, [⟨JRNL_REGION_BASE.EN, .rw, .u, .val 0x0⟩,
    ⟨JRNL_REGION_BASE.LOCAL, .rw, .u, .val 0x0⟩]⟩,
  ⟨0x208, 0x20, 16, [⟨JRNL_REGION_SIZE.SIZE, .rw, .u, .val 0x0⟩]⟩,
  ⟨0x210, 0x20, 16, [⟨JRNL_REGION_MIRROR.MIRROR, .rw, .u, .val 0x0⟩]⟩]

/-! ### FAB -/
def FAB_OVERFLOW.COUNT : Fld := ⟨0x100, 31, 0⟩
def FAB_LINK.PKG_ERR : Fld := ⟨0x108, 2, 2⟩
def FAB_LINK.PARTNER_ERR : Fld := ⟨0x108, 1, 1⟩
def FAB_LINK.VERT_ERR : Fld := ⟨0x108, 0, 0⟩
def FAB_TIMED.COUNT : Fld := ⟨0x110, 63, 0⟩
def FAB_BULK.COUNT : Fld := ⟨0x118, 63, 0⟩
def FAB_CLR.CLR : Fld := ⟨0x120, 0, 0⟩

/-- The block-specific registers of a FAB page. -/
def fabRows : List RegRow := [
  ⟨0x100, 0x0, 1, [⟨FAB_OVERFLOW.COUNT, .ro, .z, .val 0x0⟩]⟩,
  ⟨0x108, 0x0, 1, [⟨FAB_LINK.PKG_ERR, .w1c, .k, .val 0x0⟩,
    ⟨FAB_LINK.PARTNER_ERR, .w1c, .k, .val 0x0⟩,
    ⟨FAB_LINK.VERT_ERR, .w1c, .k, .val 0x0⟩]⟩,
  ⟨0x110, 0x0, 1, [⟨FAB_TIMED.COUNT, .ro, .z, .val 0x0⟩]⟩,
  ⟨0x118, 0x0, 1, [⟨FAB_BULK.COUNT, .ro, .z, .val 0x0⟩]⟩,
  ⟨0x120, 0x0, 1, [⟨FAB_CLR.CLR, .wo, .z, .val 0x0⟩]⟩]

/-! ### INTNP -/
def INTN_CFG.ETHERTYPE : Fld := ⟨0x100, 47, 32⟩
def INTN_CFG.PORT_EN : Fld := ⟨0x100, 1, 0⟩
def INTN_DROP.UNSECURED : Fld := ⟨0x108, 63, 48⟩
def INTN_DROP.UNKNOWN : Fld := ⟨0x108, 47, 32⟩
def INTN_DROP.QUARANTINED : Fld := ⟨0x108, 31, 16⟩
def INTN_DROP.BACKLOG : Fld := ⟨0x108, 15, 0⟩
def INTN_LAST_UNKNOWN.SCI : Fld := ⟨0x110, 63, 0⟩
def INTN_CLR.CLR : Fld := ⟨0x118, 0, 0⟩
def INTN_PSCI.SCI : Fld := ⟨0x400, 63, 0⟩
def INTN_PCFG.VALID : Fld := ⟨0x408, 63, 63⟩
def INTN_PCFG.TIME : Fld := ⟨0x408, 62, 62⟩
def INTN_PCFG.CHANNEL : Fld := ⟨0x408, 60, 56⟩
def INTN_PCFG.BURST : Fld := ⟨0x408, 55, 48⟩
def INTN_PCFG.RATE : Fld := ⟨0x408, 47, 32⟩
def INTN_PCFG.FRESH_MAX : Fld := ⟨0x408, 31, 16⟩
def INTN_PCFG.FAULT_LIMIT : Fld := ⟨0x408, 15, 8⟩
def INTN_PENV.AMP_MAX : Fld := ⟨0x410, 63, 32⟩
def INTN_PENV.AMP_MIN : Fld := ⟨0x410, 31, 0⟩
def INTN_PLIM.STEP_MAX : Fld := ⟨0x418, 63, 32⟩
def INTN_PLIM.SILENCE : Fld := ⟨0x418, 31, 0⟩
def INTN_PSTAT.SEQ : Fld := ⟨0xC00, 63, 32⟩
def INTN_PSTAT.GAPS : Fld := ⟨0xC00, 31, 24⟩
def INTN_PSTAT.FAULTS : Fld := ⟨0xC00, 23, 16⟩
def INTN_PSTAT.LAST_REJECT : Fld := ⟨0xC00, 15, 12⟩
def INTN_PSTAT.ABSENT : Fld := ⟨0xC00, 2, 2⟩
def INTN_PSTAT.QUAR : Fld := ⟨0xC00, 1, 1⟩
def INTN_PSTAT.SEEN : Fld := ⟨0xC00, 0, 0⟩
def INTN_PCONTRIB.REJECTS : Fld := ⟨0xC08, 63, 32⟩
def INTN_PCONTRIB.AMP : Fld := ⟨0xC08, 31, 0⟩

/-- The block-specific registers of a INTNP page. -/
def intnPartnerRows : List RegRow := [
  ⟨0x100, 0x0, 1, [⟨INTN_CFG.ETHERTYPE, .rw, .u, .val 0x88B5⟩,
    ⟨INTN_CFG.PORT_EN, .rw, .u, .val 0x0⟩]⟩,
  ⟨0x108, 0x0, 1, [⟨INTN_DROP.UNSECURED, .ro, .z, .val 0x0⟩,
    ⟨INTN_DROP.UNKNOWN, .ro, .z, .val 0x0⟩,
    ⟨INTN_DROP.QUARANTINED, .ro, .z, .val 0x0⟩,
    ⟨INTN_DROP.BACKLOG, .ro, .z, .val 0x0⟩]⟩,
  ⟨0x110, 0x0, 1, [⟨INTN_LAST_UNKNOWN.SCI, .ro, .z, .val 0x0⟩]⟩,
  ⟨0x118, 0x0, 1, [⟨INTN_CLR.CLR, .wo, .z, .val 0x0⟩]⟩,
  ⟨0x400, 0x20, 64, [⟨INTN_PSCI.SCI, .rw, .u, .val 0x0⟩]⟩,
  ⟨0x408, 0x20, 64, [⟨INTN_PCFG.VALID, .rw, .u, .val 0x0⟩,
    ⟨INTN_PCFG.TIME, .rw, .u, .val 0x0⟩,
    ⟨INTN_PCFG.CHANNEL, .rw, .u, .val 0x0⟩,
    ⟨INTN_PCFG.BURST, .rw, .u, .val 0x8⟩,
    ⟨INTN_PCFG.RATE, .rw, .u, .val 0x4E2⟩,
    ⟨INTN_PCFG.FRESH_MAX, .rw, .u, .val 0x271⟩,
    ⟨INTN_PCFG.FAULT_LIMIT, .rw, .u, .val 0x0⟩]⟩,
  ⟨0x410, 0x20, 64, [⟨INTN_PENV.AMP_MAX, .rw, .u, .val 0x0⟩,
    ⟨INTN_PENV.AMP_MIN, .rw, .u, .val 0x0⟩]⟩,
  ⟨0x418, 0x20, 64, [⟨INTN_PLIM.STEP_MAX, .rw, .u, .val 0x0⟩,
    ⟨INTN_PLIM.SILENCE, .rw, .u, .val 0x0⟩]⟩,
  ⟨0xC00, 0x10, 64, [⟨INTN_PSTAT.SEQ, .ro, .z, .val 0x0⟩,
    ⟨INTN_PSTAT.GAPS, .ro, .z, .val 0x0⟩,
    ⟨INTN_PSTAT.FAULTS, .ro, .z, .val 0x0⟩,
    ⟨INTN_PSTAT.LAST_REJECT, .ro, .z, .val 0x0⟩,
    ⟨INTN_PSTAT.ABSENT, .ro, .z, .val 0x1⟩,
    ⟨INTN_PSTAT.QUAR, .w1c, .k, .val 0x0⟩,
    ⟨INTN_PSTAT.SEEN, .ro, .z, .val 0x0⟩]⟩,
  ⟨0xC08, 0x10, 64, [⟨INTN_PCONTRIB.REJECTS, .ro, .z, .val 0x0⟩,
    ⟨INTN_PCONTRIB.AMP, .ro, .z, .val 0x0⟩]⟩]

/-! ### INTNC -/
def INTN_CCFG.DECAY : Fld := ⟨0x100, 8, 8⟩
def INTN_CCFG.TARGETS : Fld := ⟨0x100, 3, 0⟩
def INTN_CDUE.LAST_DUE : Fld := ⟨0x200, 61, 0⟩
def INTN_CSUM.SUM : Fld := ⟨0x300, 63, 0⟩
def INTN_TGT.GAIN : Fld := ⟨0x400, 63, 32⟩
def INTN_TGT.SECTOR : Fld := ⟨0x400, 6, 4⟩
def INTN_TGT.SLOT : Fld := ⟨0x400, 3, 0⟩

/-- The block-specific registers of a INTNC page. -/
def intnChannelRows : List RegRow := [
  ⟨0x100, 0x8, 32, [⟨INTN_CCFG.DECAY, .rw, .u, .val 0x1⟩,
    ⟨INTN_CCFG.TARGETS, .rw, .u, .val 0x0⟩]⟩,
  ⟨0x200, 0x8, 32, [⟨INTN_CDUE.LAST_DUE, .ro, .z, .val 0x0⟩]⟩,
  ⟨0x300, 0x8, 32, [⟨INTN_CSUM.SUM, .ro, .z, .val 0x0⟩]⟩,
  ⟨0x400, 0x8, 256, [⟨INTN_TGT.GAIN, .rw, .u, .val 0x0⟩,
    ⟨INTN_TGT.SECTOR, .rw, .u, .val 0x0⟩,
    ⟨INTN_TGT.SLOT, .rw, .u, .val 0x0⟩]⟩]

/-! ### ETH -/
def ETH_STATUS.PTP_SYNC : Fld := ⟨0x18, 5, 5⟩
def ETH_STATUS.FEC_NOW : Fld := ⟨0x18, 4, 3⟩
def ETH_STATUS.SPEED_NOW : Fld := ⟨0x18, 2, 2⟩
def ETH_STATUS.AN_DONE : Fld := ⟨0x18, 1, 1⟩
def ETH_STATUS.LINK : Fld := ⟨0x18, 0, 0⟩
def ETH_CFG.EN : Fld := ⟨0x100, 63, 63⟩
def ETH_CFG.AN_EN : Fld := ⟨0x100, 62, 62⟩
def ETH_CFG.SPEED_ADV : Fld := ⟨0x100, 61, 60⟩
def ETH_CFG.FEC_ADV : Fld := ⟨0x100, 59, 58⟩
def ETH_CFG.FORCE_SPEED : Fld := ⟨0x100, 57, 57⟩
def ETH_CFG.FORCE_FEC : Fld := ⟨0x100, 56, 55⟩
def ETH_CFG.MAC : Fld := ⟨0x100, 47, 0⟩
def ETH_PTP.ASYM : Fld := ⟨0x108, 63, 32⟩
def ETH_PTP.LOG_PDELAY : Fld := ⟨0x108, 31, 24⟩
def ETH_PTP.LOG_SYNC : Fld := ⟨0x108, 23, 16⟩
def ETH_PTP.ROLE : Fld := ⟨0x108, 1, 0⟩
def ETH_PTP_DELAY.MEAN : Fld := ⟨0x110, 31, 0⟩
def ETH_TC_MAP.CLASS7 : Fld := ⟨0x118, 30, 28⟩
def ETH_TC_MAP.CLASS6 : Fld := ⟨0x118, 26, 24⟩
def ETH_TC_MAP.CLASS5 : Fld := ⟨0x118, 22, 20⟩
def ETH_TC_MAP.CLASS4 : Fld := ⟨0x118, 18, 16⟩
def ETH_TC_MAP.CLASS3 : Fld := ⟨0x118, 14, 12⟩
def ETH_TC_MAP.CLASS2 : Fld := ⟨0x118, 10, 8⟩
def ETH_TC_MAP.CLASS1 : Fld := ⟨0x118, 6, 4⟩
def ETH_TC_MAP.CLASS0 : Fld := ⟨0x118, 2, 0⟩
def ETH_GCL_CFG.GATE_EN : Fld := ⟨0x120, 63, 63⟩
def ETH_GCL_CFG.CHANGE : Fld := ⟨0x120, 62, 62⟩
def ETH_GCL_CFG.PENDING : Fld := ⟨0x120, 61, 61⟩
def ETH_GCL_CFG.OPER_LEN : Fld := ⟨0x120, 23, 16⟩
def ETH_GCL_CFG.ADMIN_LEN : Fld := ⟨0x120, 7, 0⟩
def ETH_GCL_CYCLE.OPER : Fld := ⟨0x128, 63, 32⟩
def ETH_GCL_CYCLE.ADMIN : Fld := ⟨0x128, 31, 0⟩
def ETH_GCL_BASE.ADMIN : Fld := ⟨0x130, 63, 0⟩
def ETH_GCL_OPER_BASE.OPER : Fld := ⟨0x138, 63, 0⟩
def ETH_PREEMPT.EN : Fld := ⟨0x140, 63, 63⟩
def ETH_PREEMPT.VERIFY_EN : Fld := ⟨0x140, 62, 62⟩
def ETH_PREEMPT.VERIFY : Fld := ⟨0x140, 61, 60⟩
def ETH_PREEMPT.ACTIVE : Fld := ⟨0x140, 59, 59⟩
def ETH_PREEMPT.ADD_FRAG : Fld := ⟨0x140, 9, 8⟩
def ETH_PREEMPT.PREEMPTABLE : Fld := ⟨0x140, 7, 0⟩
def ETH_SECY_CFG.PROTECT : Fld := ⟨0x148, 63, 63⟩
def ETH_SECY_CFG.VALIDATE : Fld := ⟨0x148, 62, 61⟩
def ETH_SECY_CFG.XPN : Fld := ⟨0x148, 60, 60⟩
def ETH_SECY_CFG.REPLAY : Fld := ⟨0x148, 59, 59⟩
def ETH_SECY_CFG.TX_AN : Fld := ⟨0x148, 58, 57⟩
def ETH_SECY_CFG.TX_EN : Fld := ⟨0x148, 56, 56⟩
def ETH_SECY_CFG.WINDOW : Fld := ⟨0x148, 30, 0⟩
def ETH_TX_SCI.SCI : Fld := ⟨0x150, 63, 0⟩
def ETH_SA_LOAD.GO : Fld := ⟨0x158, 63, 63⟩
def ETH_SA_LOAD.BUSY : Fld := ⟨0x158, 62, 62⟩
def ETH_SA_LOAD.ERROR : Fld := ⟨0x158, 61, 61⟩
def ETH_SA_LOAD.DIR : Fld := ⟨0x158, 32, 32⟩
def ETH_SA_LOAD.AN : Fld := ⟨0x158, 31, 30⟩
def ETH_SA_LOAD.CHANNEL : Fld := ⟨0x158, 29, 24⟩
def ETH_SA_LOAD.RECORD : Fld := ⟨0x158, 17, 6⟩
def ETH_TX_PN.PN : Fld := ⟨0x160, 63, 0⟩
def ETH_RX_FRAMES.COUNT : Fld := ⟨0x168, 63, 0⟩
def ETH_RX_DROPS.FCS : Fld := ⟨0x170, 63, 48⟩
def ETH_RX_DROPS.LENGTH : Fld := ⟨0x170, 47, 32⟩
def ETH_RX_DROPS.CONTROL : Fld := ⟨0x170, 31, 16⟩
def ETH_RX_DROPS.NOBUF : Fld := ⟨0x170, 15, 0⟩
def ETH_SECY_DROPS.NOSCI : Fld := ⟨0x178, 63, 48⟩
def ETH_SECY_DROPS.ICV : Fld := ⟨0x178, 47, 32⟩
def ETH_SECY_DROPS.REPLAY : Fld := ⟨0x178, 31, 16⟩
def ETH_SECY_DROPS.OTHER : Fld := ⟨0x178, 15, 0⟩
def ETH_FEC.CORR : Fld := ⟨0x180, 63, 32⟩
def ETH_FEC.UNCORR : Fld := ⟨0x180, 31, 0⟩
def ETH_TX_FRAMES.COUNT : Fld := ⟨0x188, 63, 0⟩
def ETH_RX_BASE.EN : Fld := ⟨0x190, 63, 63⟩
def ETH_RX_BASE.ADDR : Fld := ⟨0x190, 47, 7⟩
def ETH_RX_SIZE.SIZE : Fld := ⟨0x198, 31, 7⟩
def ETH_RX_HEAD.OFFSET : Fld := ⟨0x1A0, 31, 0⟩
def ETH_RX_TAIL.OFFSET : Fld := ⟨0x1A8, 31, 0⟩
def ETH_TX_BASE.EN : Fld := ⟨0x1B0, 63, 63⟩
def ETH_TX_BASE.ADDR : Fld := ⟨0x1B0, 47, 7⟩
def ETH_TX_SIZE.SIZE : Fld := ⟨0x1B8, 31, 7⟩
def ETH_TX_HEAD.OFFSET : Fld := ⟨0x1C0, 31, 0⟩
def ETH_TX_TAIL.OFFSET : Fld := ⟨0x1C8, 31, 0⟩
def ETH_CLR.CLR : Fld := ⟨0x1D0, 0, 0⟩
def ETH_TX_BAD.COUNT : Fld := ⟨0x1D8, 31, 0⟩
def ETH_GCL_ADMIN.GATES : Fld := ⟨0x400, 63, 56⟩
def ETH_GCL_ADMIN.INTERVAL : Fld := ⟨0x400, 31, 0⟩
def ETH_GCL_OPER.GATES : Fld := ⟨0x800, 63, 56⟩
def ETH_GCL_OPER.INTERVAL : Fld := ⟨0x800, 31, 0⟩
def ETH_RXSC_SCI.SCI : Fld := ⟨0xC00, 63, 0⟩
def ETH_RXSC_CFG.EN : Fld := ⟨0xC08, 63, 63⟩
def ETH_RXSC_CFG.SA_EN : Fld := ⟨0xC08, 3, 0⟩

/-- The block-specific registers of a ETH page. -/
def ethRows : List RegRow := [
  ⟨0x18, 0x0, 1, [⟨ETH_STATUS.PTP_SYNC, .ro, .z, .val 0x0⟩,
    ⟨ETH_STATUS.FEC_NOW, .ro, .z, .val 0x0⟩,
    ⟨ETH_STATUS.SPEED_NOW, .ro, .z, .val 0x0⟩,
    ⟨ETH_STATUS.AN_DONE, .ro, .z, .val 0x0⟩,
    ⟨ETH_STATUS.LINK, .ro, .z, .val 0x0⟩]⟩,
  ⟨0x100, 0x0, 1, [⟨ETH_CFG.EN, .rw, .u, .val 0x0⟩,
    ⟨ETH_CFG.AN_EN, .rw, .u, .val 0x1⟩,
    ⟨ETH_CFG.SPEED_ADV, .rw, .u, .val 0x3⟩,
    ⟨ETH_CFG.FEC_ADV, .rw, .u, .val 0x3⟩,
    ⟨ETH_CFG.FORCE_SPEED, .rw, .u, .val 0x1⟩,
    ⟨ETH_CFG.FORCE_FEC, .rw, .u, .val 0x2⟩,
    ⟨ETH_CFG.MAC, .rw, .u, .val 0x0⟩]⟩,
  ⟨0x108, 0x0, 1, [⟨ETH_PTP.ASYM, .rw, .u, .val 0x0⟩,
    ⟨ETH_PTP.LOG_PDELAY, .rw, .u, .val 0x0⟩,
    ⟨ETH_PTP.LOG_SYNC, .rw, .u, .val 0xFD⟩,
    ⟨ETH_PTP.ROLE, .rw, .u, .val 0x0⟩]⟩,
  ⟨0x110, 0x0, 1, [⟨ETH_PTP_DELAY.MEAN, .ro, .z, .val 0x0⟩]⟩,
  ⟨0x118, 0x0, 1, [⟨ETH_TC_MAP.CLASS7, .rw, .u, .val 0x7⟩,
    ⟨ETH_TC_MAP.CLASS6, .rw, .u, .val 0x6⟩,
    ⟨ETH_TC_MAP.CLASS5, .rw, .u, .val 0x5⟩,
    ⟨ETH_TC_MAP.CLASS4, .rw, .u, .val 0x4⟩,
    ⟨ETH_TC_MAP.CLASS3, .rw, .u, .val 0x3⟩,
    ⟨ETH_TC_MAP.CLASS2, .rw, .u, .val 0x2⟩,
    ⟨ETH_TC_MAP.CLASS1, .rw, .u, .val 0x1⟩,
    ⟨ETH_TC_MAP.CLASS0, .rw, .u, .val 0x0⟩]⟩,
  ⟨0x120, 0x0, 1, [⟨ETH_GCL_CFG.GATE_EN, .rw, .u, .val 0x0⟩,
    ⟨ETH_GCL_CFG.CHANGE, .wo, .z, .val 0x0⟩,
    ⟨ETH_GCL_CFG.PENDING, .ro, .z, .val 0x0⟩,
    ⟨ETH_GCL_CFG.OPER_LEN, .ro, .z, .val 0x0⟩,
    ⟨ETH_GCL_CFG.ADMIN_LEN, .rw, .u, .val 0x1⟩]⟩,
  ⟨0x128, 0x0, 1, [⟨ETH_GCL_CYCLE.OPER, .ro, .z, .val 0x0⟩,
    ⟨ETH_GCL_CYCLE.ADMIN, .rw, .u, .val 0xF4240⟩]⟩,
  ⟨0x130, 0x0, 1, [⟨ETH_GCL_BASE.ADMIN, .rw, .u, .val 0x0⟩]⟩,
  ⟨0x138, 0x0, 1, [⟨ETH_GCL_OPER_BASE.OPER, .ro, .z, .val 0x0⟩]⟩,
  ⟨0x140, 0x0, 1, [⟨ETH_PREEMPT.EN, .rw, .u, .val 0x0⟩,
    ⟨ETH_PREEMPT.VERIFY_EN, .rw, .u, .val 0x1⟩,
    ⟨ETH_PREEMPT.VERIFY, .ro, .z, .val 0x0⟩,
    ⟨ETH_PREEMPT.ACTIVE, .ro, .z, .val 0x0⟩,
    ⟨ETH_PREEMPT.ADD_FRAG, .rw, .u, .val 0x0⟩,
    ⟨ETH_PREEMPT.PREEMPTABLE, .rw, .u, .val 0x0⟩]⟩,
  ⟨0x148, 0x0, 1, [⟨ETH_SECY_CFG.PROTECT, .rw, .u, .val 0x0⟩,
    ⟨ETH_SECY_CFG.VALIDATE, .rw, .u, .val 0x2⟩,
    ⟨ETH_SECY_CFG.XPN, .rw, .u, .val 0x1⟩,
    ⟨ETH_SECY_CFG.REPLAY, .rw, .u, .val 0x1⟩,
    ⟨ETH_SECY_CFG.TX_AN, .rw, .u, .val 0x0⟩,
    ⟨ETH_SECY_CFG.TX_EN, .rw, .u, .val 0x0⟩,
    ⟨ETH_SECY_CFG.WINDOW, .rw, .u, .val 0x0⟩]⟩,
  ⟨0x150, 0x0, 1, [⟨ETH_TX_SCI.SCI, .rw, .u, .val 0x0⟩]⟩,
  ⟨0x158, 0x0, 1, [⟨ETH_SA_LOAD.GO, .rws, .z, .val 0x0⟩,
    ⟨ETH_SA_LOAD.BUSY, .ro, .z, .val 0x0⟩,
    ⟨ETH_SA_LOAD.ERROR, .w1c, .z, .val 0x0⟩,
    ⟨ETH_SA_LOAD.DIR, .rws, .z, .val 0x0⟩,
    ⟨ETH_SA_LOAD.AN, .rws, .z, .val 0x0⟩,
    ⟨ETH_SA_LOAD.CHANNEL, .rws, .z, .val 0x0⟩,
    ⟨ETH_SA_LOAD.RECORD, .rws, .z, .val 0x0⟩]⟩,
  ⟨0x160, 0x0, 1, [⟨ETH_TX_PN.PN, .ro, .z, .val 0x0⟩]⟩,
  ⟨0x168, 0x0, 1, [⟨ETH_RX_FRAMES.COUNT, .ro, .z, .val 0x0⟩]⟩,
  ⟨0x170, 0x0, 1, [⟨ETH_RX_DROPS.FCS, .ro, .z, .val 0x0⟩,
    ⟨ETH_RX_DROPS.LENGTH, .ro, .z, .val 0x0⟩,
    ⟨ETH_RX_DROPS.CONTROL, .ro, .z, .val 0x0⟩,
    ⟨ETH_RX_DROPS.NOBUF, .ro, .z, .val 0x0⟩]⟩,
  ⟨0x178, 0x0, 1, [⟨ETH_SECY_DROPS.NOSCI, .ro, .z, .val 0x0⟩,
    ⟨ETH_SECY_DROPS.ICV, .ro, .z, .val 0x0⟩,
    ⟨ETH_SECY_DROPS.REPLAY, .ro, .z, .val 0x0⟩,
    ⟨ETH_SECY_DROPS.OTHER, .ro, .z, .val 0x0⟩]⟩,
  ⟨0x180, 0x0, 1, [⟨ETH_FEC.CORR, .ro, .z, .val 0x0⟩,
    ⟨ETH_FEC.UNCORR, .ro, .z, .val 0x0⟩]⟩,
  ⟨0x188, 0x0, 1, [⟨ETH_TX_FRAMES.COUNT, .ro, .z, .val 0x0⟩]⟩,
  ⟨0x190, 0x0, 1, [⟨ETH_RX_BASE.EN, .rw, .u, .val 0x0⟩,
    ⟨ETH_RX_BASE.ADDR, .rw, .u, .val 0x0⟩]⟩,
  ⟨0x198, 0x0, 1, [⟨ETH_RX_SIZE.SIZE, .rw, .u, .val 0x0⟩]⟩,
  ⟨0x1A0, 0x0, 1, [⟨ETH_RX_HEAD.OFFSET, .ro, .z, .val 0x0⟩]⟩,
  ⟨0x1A8, 0x0, 1, [⟨ETH_RX_TAIL.OFFSET, .rw, .z, .val 0x0⟩]⟩,
  ⟨0x1B0, 0x0, 1, [⟨ETH_TX_BASE.EN, .rw, .u, .val 0x0⟩,
    ⟨ETH_TX_BASE.ADDR, .rw, .u, .val 0x0⟩]⟩,
  ⟨0x1B8, 0x0, 1, [⟨ETH_TX_SIZE.SIZE, .rw, .u, .val 0x0⟩]⟩,
  ⟨0x1C0, 0x0, 1, [⟨ETH_TX_HEAD.OFFSET, .ro, .z, .val 0x0⟩]⟩,
  ⟨0x1C8, 0x0, 1, [⟨ETH_TX_TAIL.OFFSET, .rw, .z, .val 0x0⟩]⟩,
  ⟨0x1D0, 0x0, 1, [⟨ETH_CLR.CLR, .wo, .z, .val 0x0⟩]⟩,
  ⟨0x1D8, 0x0, 1, [⟨ETH_TX_BAD.COUNT, .ro, .z, .val 0x0⟩]⟩,
  ⟨0x400, 0x8, 128, [⟨ETH_GCL_ADMIN.GATES, .rw, .u, .val 0xFF⟩,
    ⟨ETH_GCL_ADMIN.INTERVAL, .rw, .u, .val 0xF4240⟩]⟩,
  ⟨0x800, 0x8, 128, [⟨ETH_GCL_OPER.GATES, .ro, .z, .val 0x0⟩,
    ⟨ETH_GCL_OPER.INTERVAL, .ro, .z, .val 0x0⟩]⟩,
  ⟨0xC00, 0x10, 64, [⟨ETH_RXSC_SCI.SCI, .rw, .u, .val 0x0⟩]⟩,
  ⟨0xC08, 0x10, 64, [⟨ETH_RXSC_CFG.EN, .rw, .u, .val 0x0⟩,
    ⟨ETH_RXSC_CFG.SA_EN, .rw, .u, .val 0x0⟩]⟩]

/-! ### DMA -/
def DMA_STATUS.BEYOND : Fld := ⟨0x18, 35, 32⟩
def DMA_STATUS.ERROR : Fld := ⟨0x18, 23, 16⟩
def DMA_STATUS.START_REFUSED : Fld := ⟨0x18, 4, 4⟩
def DMA_STATUS.COLL : Fld := ⟨0x18, 3, 3⟩
def DMA_STATUS.STATE : Fld := ⟨0x18, 2, 0⟩
def DMA_SRC.ADDR : Fld := ⟨0x100, 47, 0⟩
def DMA_DST.ADDR : Fld := ⟨0x108, 47, 0⟩
def DMA_COUNT.COUNT : Fld := ⟨0x110, 31, 0⟩
def DMA_INDEX.ADDR : Fld := ⟨0x118, 47, 2⟩
def DMA_CFG.IDX : Fld := ⟨0x120, 9, 8⟩
def DMA_CFG.DST_FIX : Fld := ⟨0x120, 5, 5⟩
def DMA_CFG.SRC_FIX : Fld := ⟨0x120, 4, 4⟩
def DMA_CFG.SIZE : Fld := ⟨0x120, 2, 0⟩
def DMA_CMD.PAUSE : Fld := ⟨0x128, 1, 1⟩
def DMA_CMD.START : Fld := ⟨0x128, 0, 0⟩
def DMA_FAIL.WHICH : Fld := ⟨0x130, 63, 62⟩
def DMA_FAIL.ADDR : Fld := ⟨0x130, 47, 0⟩
def DMA_COLL.CLR : Fld := ⟨0x138, 63, 63⟩
def DMA_COLL.COUNT : Fld := ⟨0x138, 31, 0⟩

/-- The block-specific registers of a DMA page. -/
def dmaRows : List RegRow := [
  ⟨0x18, 0x0, 1, [⟨DMA_STATUS.BEYOND, .ro, .z, .val 0x0⟩,
    ⟨DMA_STATUS.ERROR, .ro, .z, .val 0x0⟩,
    ⟨DMA_STATUS.START_REFUSED, .w1c, .z, .val 0x0⟩,
    ⟨DMA_STATUS.COLL, .w1c, .z, .val 0x0⟩,
    ⟨DMA_STATUS.STATE, .ro, .z, .val 0x0⟩]⟩,
  ⟨0x100, 0x0, 1, [⟨DMA_SRC.ADDR, .rw, .z, .val 0x0⟩]⟩,
  ⟨0x108, 0x0, 1, [⟨DMA_DST.ADDR, .rw, .z, .val 0x0⟩]⟩,
  ⟨0x110, 0x0, 1, [⟨DMA_COUNT.COUNT, .rw, .z, .val 0x0⟩]⟩,
  ⟨0x118, 0x0, 1, [⟨DMA_INDEX.ADDR, .rw, .z, .val 0x0⟩]⟩,
  ⟨0x120, 0x0, 1, [⟨DMA_CFG.IDX, .rw, .z, .val 0x0⟩,
    ⟨DMA_CFG.DST_FIX, .rw, .z, .val 0x0⟩,
    ⟨DMA_CFG.SRC_FIX, .rw, .z, .val 0x0⟩,
    ⟨DMA_CFG.SIZE, .rw, .z, .val 0x0⟩]⟩,
  ⟨0x128, 0x0, 1, [⟨DMA_CMD.PAUSE, .rw, .z, .val 0x0⟩,
    ⟨DMA_CMD.START, .wo, .z, .val 0x0⟩]⟩,
  ⟨0x130, 0x0, 1, [⟨DMA_FAIL.WHICH, .ro, .z, .val 0x0⟩,
    ⟨DMA_FAIL.ADDR, .ro, .z, .val 0x0⟩]⟩,
  ⟨0x138, 0x0, 1, [⟨DMA_COLL.CLR, .wo, .z, .val 0x0⟩,
    ⟨DMA_COLL.COUNT, .ro, .z, .val 0x0⟩]⟩]

/-! ### DMAA -/
def DMA_ALLOC.CHANNEL : Fld := ⟨0x100, 5, 0⟩
def DMA_ALLOCATED.MASK : Fld := ⟨0x108, 31, 0⟩
def DMA_FREE.CHANNEL : Fld := ⟨0x110, 4, 0⟩
def DMA_ALLOC_REFUSED.CLR : Fld := ⟨0x118, 63, 63⟩
def DMA_ALLOC_REFUSED.COUNT : Fld := ⟨0x118, 31, 0⟩

/-- The block-specific registers of a DMAA page. -/
def dmaAllocRows : List RegRow := [
  ⟨0x100, 0x0, 1, [⟨DMA_ALLOC.CHANNEL, .ro, .z, .val 0x0⟩]⟩,
  ⟨0x108, 0x0, 1, [⟨DMA_ALLOCATED.MASK, .ro, .z, .val 0x0⟩]⟩,
  ⟨0x110, 0x0, 1, [⟨DMA_FREE.CHANNEL, .wo, .z, .val 0x0⟩]⟩,
  ⟨0x118, 0x0, 1, [⟨DMA_ALLOC_REFUSED.CLR, .wo, .z, .val 0x0⟩,
    ⟨DMA_ALLOC_REFUSED.COUNT, .ro, .z, .val 0x0⟩]⟩]

/-! ### TMR -/
def TMR_STATUS.MADE_UP : Fld := ⟨0x18, 4, 4⟩
def TMR_STATUS.OVERRUN : Fld := ⟨0x18, 3, 3⟩
def TMR_STATUS.CAPTURED : Fld := ⟨0x18, 2, 2⟩
def TMR_STATUS.RUNNING : Fld := ⟨0x18, 0, 0⟩
def TMR_CFG.PRESC : Fld := ⟨0x100, 63, 48⟩
def TMR_CFG.CAP_SEL : Fld := ⟨0x100, 46, 40⟩
def TMR_CFG.CAP_EDGE : Fld := ⟨0x100, 37, 36⟩
def TMR_CFG.FILT : Fld := ⟨0x100, 35, 32⟩
def TMR_CFG.CAP_DIV : Fld := ⟨0x100, 31, 24⟩
def TMR_CFG.ONE_SHOT : Fld := ⟨0x100, 0, 0⟩
def TMR_COUNT.COUNT : Fld := ⟨0x108, 31, 0⟩
def TMR_RELOAD.VALUE : Fld := ⟨0x110, 31, 0⟩
def TMR_CMP.VALUE : Fld := ⟨0x118, 31, 0⟩
def TMR_CMP_NOW.VALUE : Fld := ⟨0x120, 31, 0⟩
def TMR_CAP.COUNT : Fld := ⟨0x128, 63, 32⟩
def TMR_CAP.TICK : Fld := ⟨0x128, 31, 0⟩
def TMR_CMD.STOP : Fld := ⟨0x130, 1, 1⟩
def TMR_CMD.START : Fld := ⟨0x130, 0, 0⟩

/-- The block-specific registers of a TMR page. -/
def tmrRows : List RegRow := [
  ⟨0x18, 0x0, 1, [⟨TMR_STATUS.MADE_UP, .w1c, .z, .val 0x0⟩,
    ⟨TMR_STATUS.OVERRUN, .w1c, .z, .val 0x0⟩,
    ⟨TMR_STATUS.CAPTURED, .ro, .z, .val 0x0⟩,
    ⟨TMR_STATUS.RUNNING, .ro, .z, .val 0x0⟩]⟩,
  ⟨0x100, 0x0, 1, [⟨TMR_CFG.PRESC, .rw, .z, .val 0x0⟩,
    ⟨TMR_CFG.CAP_SEL, .rw, .z, .val 0x0⟩,
    ⟨TMR_CFG.CAP_EDGE, .rw, .z, .val 0x0⟩,
    ⟨TMR_CFG.FILT, .rw, .z, .val 0x0⟩,
    ⟨TMR_CFG.CAP_DIV, .rw, .z, .val 0x0⟩,
    ⟨TMR_CFG.ONE_SHOT, .rw, .z, .val 0x0⟩]⟩,
  ⟨0x108, 0x0, 1, [⟨TMR_COUNT.COUNT, .ro, .z, .val 0x0⟩]⟩,
  ⟨0x110, 0x0, 1, [⟨TMR_RELOAD.VALUE, .rw, .z, .val 0x0⟩]⟩,
  ⟨0x118, 0x0, 1, [⟨TMR_CMP.VALUE, .rw, .z, .val 0x0⟩]⟩,
  ⟨0x120, 0x0, 1, [⟨TMR_CMP_NOW.VALUE, .ro, .z, .val 0x0⟩]⟩,
  ⟨0x128, 0x0, 1, [⟨TMR_CAP.COUNT, .ro, .z, .val 0x0⟩,
    ⟨TMR_CAP.TICK, .ro, .z, .val 0x0⟩]⟩,
  ⟨0x130, 0x0, 1, [⟨TMR_CMD.STOP, .wo, .z, .val 0x0⟩,
    ⟨TMR_CMD.START, .wo, .z, .val 0x0⟩]⟩]

/-! ### TMRG -/
def TMR_GSTART.MASK : Fld := ⟨0x100, 15, 0⟩
def TMR_GSTOP.MASK : Fld := ⟨0x108, 15, 0⟩
def TMR_RATIO.RATIO : Fld := ⟨0x110, 31, 0⟩
def TMR_REST.PERIODS : Fld := ⟨0x118, 31, 0⟩

/-- The block-specific registers of a TMRG page. -/
def tmrGlobalRows : List RegRow := [
  ⟨0x100, 0x0, 1, [⟨TMR_GSTART.MASK, .wo, .z, .val 0x0⟩]⟩,
  ⟨0x108, 0x0, 1, [⟨TMR_GSTOP.MASK, .wo, .z, .val 0x0⟩]⟩,
  ⟨0x110, 0x0, 1, [⟨TMR_RATIO.RATIO, .ro, .k, .val 0x17D78400⟩]⟩,
  ⟨0x118, 0x0, 1, [⟨TMR_REST.PERIODS, .ro, .z, .val 0x0⟩]⟩]

/-! ### CANV -/
def CANV_NOW.VALUE : Fld := ⟨0x100, 63, 0⟩
def CANV_DISC.SLEW_LIMIT : Fld := ⟨0x108, 19, 16⟩
def CANV_DISC.SYNC_OUT_EN : Fld := ⟨0x108, 12, 12⟩
def CANV_DISC.PTP_PANEL : Fld := ⟨0x108, 10, 8⟩
def CANV_DISC.PTP_PORT : Fld := ⟨0x108, 4, 4⟩
def CANV_DISC.SOURCE : Fld := ⟨0x108, 1, 0⟩
def CANV_DISC_STATUS.OFFSET : Fld := ⟨0x110, 63, 32⟩
def CANV_DISC_STATUS.FREQ_ADJ : Fld := ⟨0x110, 31, 16⟩
def CANV_DISC_STATUS.OVER_LIMIT : Fld := ⟨0x110, 2, 2⟩
def CANV_DISC_STATUS.HOLDOVER : Fld := ⟨0x110, 1, 1⟩
def CANV_DISC_STATUS.LOCKED : Fld := ⟨0x110, 0, 0⟩
def CANV_STEP.DELTA : Fld := ⟨0x118, 63, 0⟩
def CANV_SYNC_DELAY.DELAY : Fld := ⟨0x120, 25, 0⟩
def CANV_PTP_OFFSET.OFFSET : Fld := ⟨0x128, 63, 0⟩
def CANV_ALARM.EN : Fld := ⟨0x130, 63, 63⟩
def CANV_ALARM.TICK : Fld := ⟨0x130, 61, 0⟩
def CANV_Q_LEVEL.HIGH_WATER : Fld := ⟨0x200, 24, 16⟩
def CANV_Q_LEVEL.OCCUPANCY : Fld := ⟨0x200, 8, 0⟩
def CANV_Q_DISCARDED.DISCARDED : Fld := ⟨0x208, 31, 0⟩
def CANV_Q_APPLIED_LATE.APPLIED_LATE : Fld := ⟨0x210, 31, 0⟩
def CANV_Q_REFUSED.REFUSED : Fld := ⟨0x218, 31, 0⟩
def CANV_Q_LAST_LATE.LATENESS : Fld := ⟨0x220, 63, 48⟩
def CANV_Q_LAST_LATE.PAGE : Fld := ⟨0x220, 43, 32⟩
def CANV_Q_LAST_LATE.OFFSET : Fld := ⟨0x220, 11, 0⟩
def CANV_Q_WARN.WARN_LEVEL : Fld := ⟨0x228, 8, 0⟩

/-- The block-specific registers of a CANV page. -/
def canvRows : List RegRow := [
  ⟨0x100, 0x0, 1, [⟨CANV_NOW.VALUE, .ro, .z, .val 0x0⟩]⟩,
  ⟨0x108, 0x0, 1, [⟨CANV_DISC.SLEW_LIMIT, .rwc, .u, .val 0x5⟩,
    ⟨CANV_DISC.SYNC_OUT_EN, .rwc, .u, .val 0x0⟩,
    ⟨CANV_DISC.PTP_PANEL, .rwc, .u, .val 0x0⟩,
    ⟨CANV_DISC.PTP_PORT, .rwc, .u, .val 0x0⟩,
    ⟨CANV_DISC.SOURCE, .rwc, .u, .val 0x0⟩]⟩,
  ⟨0x110, 0x0, 1, [⟨CANV_DISC_STATUS.OFFSET, .ro, .z, .val 0x0⟩,
    ⟨CANV_DISC_STATUS.FREQ_ADJ, .ro, .z, .val 0x0⟩,
    ⟨CANV_DISC_STATUS.OVER_LIMIT, .ro, .z, .val 0x0⟩,
    ⟨CANV_DISC_STATUS.HOLDOVER, .ro, .z, .val 0x0⟩,
    ⟨CANV_DISC_STATUS.LOCKED, .ro, .z, .val 0x0⟩]⟩,
  ⟨0x118, 0x0, 1, [⟨CANV_STEP.DELTA, .rwt, .z, .val 0x0⟩]⟩,
  ⟨0x120, 0x0, 1, [⟨CANV_SYNC_DELAY.DELAY, .rwc, .u, .val 0x0⟩]⟩,
  ⟨0x128, 0x0, 1, [⟨CANV_PTP_OFFSET.OFFSET, .rwc, .u, .val 0x0⟩]⟩,
  ⟨0x130, 0x8, 4, [⟨CANV_ALARM.EN, .rw, .z, .val 0x0⟩,
    ⟨CANV_ALARM.TICK, .rw, .z, .val 0x0⟩]⟩,
  ⟨0x200, 0x0, 1, [⟨CANV_Q_LEVEL.HIGH_WATER, .ro, .z, .val 0x0⟩,
    ⟨CANV_Q_LEVEL.OCCUPANCY, .ro, .z, .val 0x0⟩]⟩,
  ⟨0x208, 0x0, 1, [⟨CANV_Q_DISCARDED.DISCARDED, .ro, .z, .val 0x0⟩]⟩,
  ⟨0x210, 0x0, 1, [⟨CANV_Q_APPLIED_LATE.APPLIED_LATE, .ro, .z, .val 0x0⟩]⟩,
  ⟨0x218, 0x0, 1, [⟨CANV_Q_REFUSED.REFUSED, .ro, .z, .val 0x0⟩]⟩,
  ⟨0x220, 0x0, 1, [⟨CANV_Q_LAST_LATE.LATENESS, .ro, .z, .val 0x0⟩,
    ⟨CANV_Q_LAST_LATE.PAGE, .ro, .z, .val 0x0⟩,
    ⟨CANV_Q_LAST_LATE.OFFSET, .ro, .z, .val 0x0⟩]⟩,
  ⟨0x228, 0x0, 1, [⟨CANV_Q_WARN.WARN_LEVEL, .rw, .u, .val 0x0⟩]⟩]

/-! ### MODES -/
def MODE_CMD.WARM : Fld := ⟨0x100, 8, 8⟩
def MODE_CMD.TARGET : Fld := ⟨0x100, 2, 0⟩
def MODE_STATE.HOLD_CAUSE : Fld := ⟨0x108, 23, 20⟩
def MODE_STATE.LAST_CAUSE : Fld := ⟨0x108, 19, 16⟩
def MODE_STATE.REFUSED : Fld := ⟨0x108, 15, 12⟩
def MODE_STATE.REST_PENDING : Fld := ⟨0x108, 8, 8⟩
def MODE_STATE.UNDER : Fld := ⟨0x108, 6, 4⟩
def MODE_STATE.MODE : Fld := ⟨0x108, 2, 0⟩
def MODE_RESUME.RESUME : Fld := ⟨0x110, 1, 0⟩
def MODE_START.ADDR : Fld := ⟨0x118, 47, 7⟩
def MODE_AUTORUN.MASK : Fld := ⟨0x120, 15, 0⟩
def MODE_THREAD.OP : Fld := ⟨0x128, 17, 16⟩
def MODE_THREAD.MASK : Fld := ⟨0x128, 15, 0⟩
def MODE_THREAD_STATE.BAD_START : Fld := ⟨0x130, 31, 16⟩
def MODE_THREAD_STATE.RUN : Fld := ⟨0x130, 15, 0⟩
def MODE_PANEL_RESET.COUNT : Fld := ⟨0x138, 63, 32⟩
def MODE_PANEL_RESET.LAST : Fld := ⟨0x138, 2, 0⟩
def MODE_THERMAL.NOW : Fld := ⟨0x140, 24, 16⟩
def MODE_THERMAL.WARN : Fld := ⟨0x140, 7, 0⟩

/-- The block-specific registers of a MODES page. -/
def modeSliceRows : List RegRow := [
  ⟨0x100, 0x0, 1, [⟨MODE_CMD.WARM, .wo, .z, .val 0x0⟩,
    ⟨MODE_CMD.TARGET, .rwt, .z, .val 0x0⟩]⟩,
  ⟨0x108, 0x0, 1, [⟨MODE_STATE.HOLD_CAUSE, .ro, .z, .val 0x0⟩,
    ⟨MODE_STATE.LAST_CAUSE, .ro, .z, .val 0x0⟩,
    ⟨MODE_STATE.REFUSED, .ro, .z, .val 0x0⟩,
    ⟨MODE_STATE.REST_PENDING, .ro, .z, .val 0x0⟩,
    ⟨MODE_STATE.UNDER, .ro, .z, .val 0x0⟩,
    ⟨MODE_STATE.MODE, .ro, .z, .val 0x0⟩]⟩,
  ⟨0x110, 0x0, 1, [⟨MODE_RESUME.RESUME, .rw, .u, .val 0x0⟩]⟩,
  ⟨0x118, 0x0, 1, [⟨MODE_START.ADDR, .rw, .u, .val 0x0⟩]⟩,
  ⟨0x120, 0x0, 1, [⟨MODE_AUTORUN.MASK, .rw, .u, .val 0x1⟩]⟩,
  ⟨0x128, 0x0, 1, [⟨MODE_THREAD.OP, .wo, .z, .val 0x0⟩,
    ⟨MODE_THREAD.MASK, .wo, .z, .val 0x0⟩]⟩,
  ⟨0x130, 0x0, 1, [⟨MODE_THREAD_STATE.BAD_START, .w1c, .z, .val 0x0⟩,
    ⟨MODE_THREAD_STATE.RUN, .ro, .z, .val 0x0⟩]⟩,
  ⟨0x138, 0x0, 1, [⟨MODE_PANEL_RESET.COUNT, .ro, .k, .val 0x0⟩,
    ⟨MODE_PANEL_RESET.LAST, .ro, .k, .val 0x0⟩]⟩,
  ⟨0x140, 0x0, 1, [⟨MODE_THERMAL.NOW, .ro, .z, .val 0x0⟩,
    ⟨MODE_THERMAL.WARN, .rw, .u, .val 0x78⟩]⟩]

/-! ### MODEP -/
def MODE_PKG_CMD.PKG_RESET : Fld := ⟨0x100, 63, 48⟩
def MODE_PKG_CMD.SLICES : Fld := ⟨0x100, 15, 8⟩
def MODE_PKG_CMD.TARGET : Fld := ⟨0x100, 2, 0⟩
def MODE_SUPPLY.BANK_LOW : Fld := ⟨0x108, 63, 48⟩
def MODE_SUPPLY.BANK_DIP : Fld := ⟨0x108, 47, 32⟩
def MODE_SUPPLY.BELOW : Fld := ⟨0x108, 22, 16⟩
def MODE_SUPPLY.DIP_SEEN : Fld := ⟨0x108, 6, 0⟩
def MODE_RESET_CAUSE.RAIL : Fld := ⟨0x110, 10, 8⟩
def MODE_RESET_CAUSE.CAUSE : Fld := ⟨0x110, 2, 0⟩
def MODE_BANKV.V33 : Fld := ⟨0x118, 15, 0⟩

/-- The block-specific registers of a MODEP page. -/
def modePkgRows : List RegRow := [
  ⟨0x100, 0x0, 1, [⟨MODE_PKG_CMD.PKG_RESET, .wo, .z, .val 0x0⟩,
    ⟨MODE_PKG_CMD.SLICES, .rwt, .z, .val 0x0⟩,
    ⟨MODE_PKG_CMD.TARGET, .rwt, .z, .val 0x0⟩]⟩,
  ⟨0x108, 0x0, 1, [⟨MODE_SUPPLY.BANK_LOW, .ro, .z, .val 0x0⟩,
    ⟨MODE_SUPPLY.BANK_DIP, .w1c, .k, .val 0x0⟩,
    ⟨MODE_SUPPLY.BELOW, .ro, .z, .val 0x0⟩,
    ⟨MODE_SUPPLY.DIP_SEEN, .w1c, .k, .val 0x0⟩]⟩,
  ⟨0x110, 0x0, 1, [⟨MODE_RESET_CAUSE.RAIL, .ro, .z, .val 0x0⟩,
    ⟨MODE_RESET_CAUSE.CAUSE, .ro, .z, .val 0x1⟩]⟩,
  ⟨0x118, 0x0, 1, [⟨MODE_BANKV.V33, .rwc, .u, .val 0xFFFF⟩]⟩]

/-! ### UPNT -/
def UPNT_CMD.DIP_CLR : Fld := ⟨0x100, 2, 2⟩
def UPNT_CMD.COMMIT_KEYS : Fld := ⟨0x100, 1, 1⟩
def UPNT_CMD.COMMIT : Fld := ⟨0x100, 0, 0⟩
def UPNT_STATUS.GEN : Fld := ⟨0x108, 63, 32⟩
def UPNT_STATUS.CARRIED : Fld := ⟨0x108, 23, 16⟩
def UPNT_STATUS.DIP_OVERRUN : Fld := ⟨0x108, 9, 9⟩
def UPNT_STATUS.DIP_VALID : Fld := ⟨0x108, 8, 8⟩
def UPNT_STATUS.FAILED : Fld := ⟨0x108, 7, 7⟩
def UPNT_STATUS.B_VALID : Fld := ⟨0x108, 6, 6⟩
def UPNT_STATUS.A_VALID : Fld := ⟨0x108, 5, 5⟩
def UPNT_STATUS.BUSY : Fld := ⟨0x108, 4, 4⟩
def UPNT_STATUS.RESTORED : Fld := ⟨0x108, 3, 2⟩
def UPNT_STATUS.NEWEST : Fld := ⟨0x108, 1, 0⟩
def UPNT_COMMITTED.TICK : Fld := ⟨0x110, 61, 0⟩
def UPNT_DIP_SEL.QUARTER : Fld := ⟨0x118, 1, 0⟩
def UPNT_HASH.HASH : Fld := ⟨0x140, 63, 0⟩
def UPNT_DIP_DATA.DATA : Fld := ⟨0x800, 63, 0⟩

/-- The block-specific registers of a UPNT page. -/
def upntRows : List RegRow := [
  ⟨0x100, 0x0, 1, [⟨UPNT_CMD.DIP_CLR, .wo, .z, .val 0x0⟩,
    ⟨UPNT_CMD.COMMIT_KEYS, .rws, .z, .val 0x0⟩,
    ⟨UPNT_CMD.COMMIT, .wo, .z, .val 0x0⟩]⟩,
  ⟨0x108, 0x0, 1, [⟨UPNT_STATUS.GEN, .ro, .z, .val 0x0⟩,
    ⟨UPNT_STATUS.CARRIED, .ro, .z, .val 0x0⟩,
    ⟨UPNT_STATUS.DIP_OVERRUN, .ro, .z, .val 0x0⟩,
    ⟨UPNT_STATUS.DIP_VALID, .ro, .z, .val 0x0⟩,
    ⟨UPNT_STATUS.FAILED, .ro, .z, .val 0x0⟩,
    ⟨UPNT_STATUS.B_VALID, .ro, .z, .val 0x0⟩,
    ⟨UPNT_STATUS.A_VALID, .ro, .z, .val 0x0⟩,
    ⟨UPNT_STATUS.BUSY, .ro, .z, .val 0x0⟩,
    ⟨UPNT_STATUS.RESTORED, .ro, .z, .val 0x2⟩,
    ⟨UPNT_STATUS.NEWEST, .ro, .z, .val 0x2⟩]⟩,
  ⟨0x110, 0x0, 1, [⟨UPNT_COMMITTED.TICK, .ro, .z, .val 0x0⟩]⟩,
  ⟨0x118, 0x0, 1, [⟨UPNT_DIP_SEL.QUARTER, .rw, .z, .val 0x0⟩]⟩,
  ⟨0x140, 0x8, 24, [⟨UPNT_HASH.HASH, .rws, .u, .val 0x0⟩]⟩,
  ⟨0x800, 0x8, 256, [⟨UPNT_DIP_DATA.DATA, .ro, .z, .val 0x0⟩]⟩]

/-! ### LIFE -/
def LIFE_STATE.TRIES : Fld := ⟨0x100, 13, 12⟩
def LIFE_STATE.UNLOCK : Fld := ⟨0x100, 9, 8⟩
def LIFE_STATE.KEY_FUSED : Fld := ⟨0x100, 4, 4⟩
def LIFE_STATE.STATE : Fld := ⟨0x100, 2, 0⟩
def LIFE_BOOT.VERSION : Fld := ⟨0x108, 63, 32⟩
def LIFE_BOOT.FLOOR : Fld := ⟨0x108, 31, 24⟩
def LIFE_BOOT.FAIL_B : Fld := ⟨0x108, 11, 8⟩
def LIFE_BOOT.FAIL_A : Fld := ⟨0x108, 7, 4⟩
def LIFE_BOOT.STATUS : Fld := ⟨0x108, 3, 0⟩
def LIFE_GESSO.PANEL : Fld := ⟨0x110, 63, 56⟩
def LIFE_GESSO.SECTOR : Fld := ⟨0x110, 55, 48⟩
def LIFE_SECURE.SIZE : Fld := ⟨0x118, 52, 44⟩
def LIFE_SECURE.BASE : Fld := ⟨0x118, 20, 12⟩
def LIFE_TAMPER_CFG.ACTION5 : Fld := ⟨0x158, 11, 10⟩
def LIFE_TAMPER_CFG.ACTION4 : Fld := ⟨0x158, 9, 8⟩
def LIFE_TAMPER_CFG.ACTION3 : Fld := ⟨0x158, 7, 6⟩
def LIFE_TAMPER_CFG.ACTION2 : Fld := ⟨0x158, 5, 4⟩
def LIFE_TAMPER_CFG.ACTION1 : Fld := ⟨0x158, 3, 2⟩
def LIFE_TAMPER_CFG.ACTION0 : Fld := ⟨0x158, 1, 0⟩
def LIFE_TAMPER_STATUS.COUNT : Fld := ⟨0x160, 63, 32⟩
def LIFE_TAMPER_STATUS.NOW : Fld := ⟨0x160, 13, 8⟩
def LIFE_TAMPER_STATUS.SEEN : Fld := ⟨0x160, 5, 0⟩
def LIFE_CMD.CONFIRM : Fld := ⟨0x168, 63, 48⟩
def LIFE_CMD.RELOCK : Fld := ⟨0x168, 9, 9⟩
def LIFE_CMD.ADVANCE_FLOOR : Fld := ⟨0x168, 8, 8⟩
def LIFE_CMD.TARGET : Fld := ⟨0x168, 2, 0⟩
def LIFE_ID.ID : Fld := ⟨0x170, 63, 0⟩
def LIFE_CHALLENGE.WORD : Fld := ⟨0x180, 63, 0⟩
def LIFE_RESPONSE.WORD : Fld := ⟨0x1C0, 63, 0⟩
def LIFE_UNLOCK.SCOPE : Fld := ⟨0x280, 9, 8⟩
def LIFE_UNLOCK.SUBMIT : Fld := ⟨0x280, 1, 1⟩
def LIFE_UNLOCK.REQ : Fld := ⟨0x280, 0, 0⟩

/-- The block-specific registers of a LIFE page. -/
def lifeRows : List RegRow := [
  ⟨0x100, 0x0, 1, [⟨LIFE_STATE.TRIES, .ro, .z, .val 0x0⟩,
    ⟨LIFE_STATE.UNLOCK, .ro, .z, .val 0x0⟩,
    ⟨LIFE_STATE.KEY_FUSED, .ro, .z, .val 0x0⟩,
    ⟨LIFE_STATE.STATE, .ro, .z, .val 0x0⟩]⟩,
  ⟨0x108, 0x0, 1, [⟨LIFE_BOOT.VERSION, .ro, .z, .val 0x0⟩,
    ⟨LIFE_BOOT.FLOOR, .ro, .z, .val 0x0⟩,
    ⟨LIFE_BOOT.FAIL_B, .ro, .z, .val 0x0⟩,
    ⟨LIFE_BOOT.FAIL_A, .ro, .z, .val 0x0⟩,
    ⟨LIFE_BOOT.STATUS, .ro, .z, .val 0x0⟩]⟩,
  ⟨0x110, 0x0, 1, [⟨LIFE_GESSO.PANEL, .ro, .z, .val 0x0⟩,
    ⟨LIFE_GESSO.SECTOR, .ro, .z, .val 0x0⟩]⟩,
  ⟨0x118, 0x8, 8, [⟨LIFE_SECURE.SIZE, .ro, .z, .val 0x0⟩,
    ⟨LIFE_SECURE.BASE, .ro, .z, .val 0x0⟩]⟩,
  ⟨0x158, 0x0, 1, [⟨LIFE_TAMPER_CFG.ACTION5, .rws, .u, .val 0x2⟩,
    ⟨LIFE_TAMPER_CFG.ACTION4, .rws, .u, .val 0x2⟩,
    ⟨LIFE_TAMPER_CFG.ACTION3, .rws, .u, .val 0x2⟩,
    ⟨LIFE_TAMPER_CFG.ACTION2, .rws, .u, .val 0x2⟩,
    ⟨LIFE_TAMPER_CFG.ACTION1, .rws, .u, .val 0x2⟩,
    ⟨LIFE_TAMPER_CFG.ACTION0, .rws, .u, .val 0x2⟩]⟩,
  ⟨0x160, 0x0, 1, [⟨LIFE_TAMPER_STATUS.COUNT, .ro, .k, .val 0x0⟩,
    ⟨LIFE_TAMPER_STATUS.NOW, .ro, .z, .val 0x0⟩,
    ⟨LIFE_TAMPER_STATUS.SEEN, .w1c, .k, .val 0x0⟩]⟩,
  ⟨0x168, 0x0, 1, [⟨LIFE_CMD.CONFIRM, .rws, .z, .val 0x0⟩,
    ⟨LIFE_CMD.RELOCK, .wo, .z, .val 0x0⟩,
    ⟨LIFE_CMD.ADVANCE_FLOOR, .rws, .z, .val 0x0⟩,
    ⟨LIFE_CMD.TARGET, .rws, .z, .val 0x0⟩]⟩,
  ⟨0x170, 0x0, 1, [⟨LIFE_ID.ID, .ro, .z, .val 0x0⟩]⟩,
  ⟨0x180, 0x8, 6, [⟨LIFE_CHALLENGE.WORD, .ro, .z, .val 0x0⟩]⟩,
  ⟨0x1C0, 0x8, 24, [⟨LIFE_RESPONSE.WORD, .wo, .z, .val 0x0⟩]⟩,
  ⟨0x280, 0x0, 1, [⟨LIFE_UNLOCK.SCOPE, .rw, .z, .val 0x0⟩,
    ⟨LIFE_UNLOCK.SUBMIT, .wo, .z, .val 0x0⟩,
    ⟨LIFE_UNLOCK.REQ, .wo, .z, .val 0x0⟩]⟩]

/-! ### HOVR -/
def HOVR_CFG.WDOG : Fld := ⟨0x100, 51, 32⟩
def HOVR_MAP0.VALID7 : Fld := ⟨0x108, 63, 63⟩
def HOVR_MAP0.TARGET7 : Fld := ⟨0x108, 59, 56⟩
def HOVR_MAP0.VALID6 : Fld := ⟨0x108, 55, 55⟩
def HOVR_MAP0.TARGET6 : Fld := ⟨0x108, 51, 48⟩
def HOVR_MAP0.VALID5 : Fld := ⟨0x108, 47, 47⟩
def HOVR_MAP0.TARGET5 : Fld := ⟨0x108, 43, 40⟩
def HOVR_MAP0.VALID4 : Fld := ⟨0x108, 39, 39⟩
def HOVR_MAP0.TARGET4 : Fld := ⟨0x108, 35, 32⟩
def HOVR_MAP0.VALID3 : Fld := ⟨0x108, 31, 31⟩
def HOVR_MAP0.TARGET3 : Fld := ⟨0x108, 27, 24⟩
def HOVR_MAP0.VALID2 : Fld := ⟨0x108, 23, 23⟩
def HOVR_MAP0.TARGET2 : Fld := ⟨0x108, 19, 16⟩
def HOVR_MAP0.VALID1 : Fld := ⟨0x108, 15, 15⟩
def HOVR_MAP0.TARGET1 : Fld := ⟨0x108, 11, 8⟩
def HOVR_MAP0.VALID0 : Fld := ⟨0x108, 7, 7⟩
def HOVR_MAP0.TARGET0 : Fld := ⟨0x108, 3, 0⟩
def HOVR_MAP1.VALID15 : Fld := ⟨0x110, 63, 63⟩
def HOVR_MAP1.TARGET15 : Fld := ⟨0x110, 59, 56⟩
def HOVR_MAP1.VALID14 : Fld := ⟨0x110, 55, 55⟩
def HOVR_MAP1.TARGET14 : Fld := ⟨0x110, 51, 48⟩
def HOVR_MAP1.VALID13 : Fld := ⟨0x110, 47, 47⟩
def HOVR_MAP1.TARGET13 : Fld := ⟨0x110, 43, 40⟩
def HOVR_MAP1.VALID12 : Fld := ⟨0x110, 39, 39⟩
def HOVR_MAP1.TARGET12 : Fld := ⟨0x110, 35, 32⟩
def HOVR_MAP1.VALID11 : Fld := ⟨0x110, 31, 31⟩
def HOVR_MAP1.TARGET11 : Fld := ⟨0x110, 27, 24⟩
def HOVR_MAP1.VALID10 : Fld := ⟨0x110, 23, 23⟩
def HOVR_MAP1.TARGET10 : Fld := ⟨0x110, 19, 16⟩
def HOVR_MAP1.VALID9 : Fld := ⟨0x110, 15, 15⟩
def HOVR_MAP1.TARGET9 : Fld := ⟨0x110, 11, 8⟩
def HOVR_MAP1.VALID8 : Fld := ⟨0x110, 7, 7⟩
def HOVR_MAP1.TARGET8 : Fld := ⟨0x110, 3, 0⟩
def HOVR_KICK.KICK : Fld := ⟨0x118, 0, 0⟩
def HOVR_CMD.ADOPT : Fld := ⟨0x120, 3, 3⟩
def HOVR_CMD.RELEASE : Fld := ⟨0x120, 2, 2⟩
def HOVR_CMD.RETURN : Fld := ⟨0x120, 1, 1⟩
def HOVR_CMD.PLANNED : Fld := ⟨0x120, 0, 0⟩
def HOVR_STATE.COUNT : Fld := ⟨0x128, 20, 16⟩
def HOVR_STATE.REFUSE : Fld := ⟨0x128, 15, 12⟩
def HOVR_STATE.CAUSE : Fld := ⟨0x128, 11, 8⟩
def HOVR_STATE.STATE : Fld := ⟨0x128, 2, 0⟩
def HOVR_DETECT.TICK : Fld := ⟨0x130, 61, 0⟩
def HOVR_CAUGHT_UP.TICK : Fld := ⟨0x138, 61, 0⟩
def HOVR_COUNTS.COALESCED : Fld := ⟨0x140, 63, 48⟩
def HOVR_COUNTS.REISSUED : Fld := ⟨0x140, 47, 32⟩
def HOVR_COUNTS.DROPPED : Fld := ⟨0x140, 31, 16⟩
def HOVR_COUNTS.SUPPRESSED : Fld := ⟨0x140, 15, 0⟩

/-- The block-specific registers of a HOVR page. -/
def hovrRows : List RegRow := [
  ⟨0x100, 0x0, 1, [⟨HOVR_CFG.WDOG, .rw, .u, .val 0x0⟩]⟩,
  ⟨0x108, 0x0, 1, [⟨HOVR_MAP0.VALID7, .rw, .u, .val 0x0⟩,
    ⟨HOVR_MAP0.TARGET7, .rw, .u, .val 0x0⟩,
    ⟨HOVR_MAP0.VALID6, .rw, .u, .val 0x0⟩,
    ⟨HOVR_MAP0.TARGET6, .rw, .u, .val 0x0⟩,
    ⟨HOVR_MAP0.VALID5, .rw, .u, .val 0x0⟩,
    ⟨HOVR_MAP0.TARGET5, .rw, .u, .val 0x0⟩,
    ⟨HOVR_MAP0.VALID4, .rw, .u, .val 0x0⟩,
    ⟨HOVR_MAP0.TARGET4, .rw, .u, .val 0x0⟩,
    ⟨HOVR_MAP0.VALID3, .rw, .u, .val 0x0⟩,
    ⟨HOVR_MAP0.TARGET3, .rw, .u, .val 0x0⟩,
    ⟨HOVR_MAP0.VALID2, .rw, .u, .val 0x0⟩,
    ⟨HOVR_MAP0.TARGET2, .rw, .u, .val 0x0⟩,
    ⟨HOVR_MAP0.VALID1, .rw, .u, .val 0x0⟩,
    ⟨HOVR_MAP0.TARGET1, .rw, .u, .val 0x0⟩,
    ⟨HOVR_MAP0.VALID0, .rw, .u, .val 0x0⟩,
    ⟨HOVR_MAP0.TARGET0, .rw, .u, .val 0x0⟩]⟩,
  ⟨0x110, 0x0, 1, [⟨HOVR_MAP1.VALID15, .rw, .u, .val 0x0⟩,
    ⟨HOVR_MAP1.TARGET15, .rw, .u, .val 0x0⟩,
    ⟨HOVR_MAP1.VALID14, .rw, .u, .val 0x0⟩,
    ⟨HOVR_MAP1.TARGET14, .rw, .u, .val 0x0⟩,
    ⟨HOVR_MAP1.VALID13, .rw, .u, .val 0x0⟩,
    ⟨HOVR_MAP1.TARGET13, .rw, .u, .val 0x0⟩,
    ⟨HOVR_MAP1.VALID12, .rw, .u, .val 0x0⟩,
    ⟨HOVR_MAP1.TARGET12, .rw, .u, .val 0x0⟩,
    ⟨HOVR_MAP1.VALID11, .rw, .u, .val 0x0⟩,
    ⟨HOVR_MAP1.TARGET11, .rw, .u, .val 0x0⟩,
    ⟨HOVR_MAP1.VALID10, .rw, .u, .val 0x0⟩,
    ⟨HOVR_MAP1.TARGET10, .rw, .u, .val 0x0⟩,
    ⟨HOVR_MAP1.VALID9, .rw, .u, .val 0x0⟩,
    ⟨HOVR_MAP1.TARGET9, .rw, .u, .val 0x0⟩,
    ⟨HOVR_MAP1.VALID8, .rw, .u, .val 0x0⟩,
    ⟨HOVR_MAP1.TARGET8, .rw, .u, .val 0x0⟩]⟩,
  ⟨0x118, 0x0, 1, [⟨HOVR_KICK.KICK, .wo, .z, .val 0x0⟩]⟩,
  ⟨0x120, 0x0, 1, [⟨HOVR_CMD.ADOPT, .rwt, .z, .val 0x0⟩,
    ⟨HOVR_CMD.RELEASE, .wo, .z, .val 0x0⟩,
    ⟨HOVR_CMD.RETURN, .rwt, .z, .val 0x0⟩,
    ⟨HOVR_CMD.PLANNED, .rwt, .z, .val 0x0⟩]⟩,
  ⟨0x128, 0x0, 1, [⟨HOVR_STATE.COUNT, .ro, .k, .val 0x0⟩,
    ⟨HOVR_STATE.REFUSE, .ro, .k, .val 0x0⟩,
    ⟨HOVR_STATE.CAUSE, .ro, .k, .val 0x0⟩,
    ⟨HOVR_STATE.STATE, .ro, .k, .val 0x0⟩]⟩,
  ⟨0x130, 0x0, 1, [⟨HOVR_DETECT.TICK, .ro, .k, .val 0x0⟩]⟩,
  ⟨0x138, 0x0, 1, [⟨HOVR_CAUGHT_UP.TICK, .ro, .k, .val 0x0⟩]⟩,
  ⟨0x140, 0x0, 1, [⟨HOVR_COUNTS.COALESCED, .ro, .k, .val 0x0⟩,
    ⟨HOVR_COUNTS.REISSUED, .ro, .k, .val 0x0⟩,
    ⟨HOVR_COUNTS.DROPPED, .ro, .k, .val 0x0⟩,
    ⟨HOVR_COUNTS.SUPPRESSED, .ro, .k, .val 0x0⟩]⟩]

/-! ### EASL -/
def EASL_CMD.BRK_HALT : Fld := ⟨0x100, 11, 11⟩
def EASL_CMD.PANEL : Fld := ⟨0x100, 10, 8⟩
def EASL_CMD.DRESET : Fld := ⟨0x100, 2, 2⟩
def EASL_CMD.RESUME : Fld := ⟨0x100, 1, 1⟩
def EASL_CMD.HALT : Fld := ⟨0x100, 0, 0⟩
def EASL_STATUS.HALTED : Fld := ⟨0x108, 7, 0⟩
def EASL_STEP.COUNT : Fld := ⟨0x110, 63, 34⟩
def EASL_STEP.STEP_IRQ : Fld := ⟨0x110, 33, 33⟩
def EASL_STEP.THREAD : Fld := ⟨0x110, 3, 0⟩
def EASL_TREG.THREAD : Fld := ⟨0x118, 19, 16⟩
def EASL_TREG.SEL : Fld := ⟨0x118, 11, 0⟩
def EASL_TDATA.DATA : Fld := ⟨0x120, 63, 0⟩
def EASL_TTAG.TAG : Fld := ⟨0x128, 7, 0⟩
def EASL_INJECT.SEEN : Fld := ⟨0x130, 63, 63⟩
def EASL_INJECT.DETECT : Fld := ⟨0x130, 9, 9⟩
def EASL_INJECT.GO : Fld := ⟨0x130, 8, 8⟩
def EASL_INJECT.PANEL : Fld := ⟨0x130, 7, 5⟩
def EASL_INJECT.CORE : Fld := ⟨0x130, 4, 3⟩
def EASL_INJECT.OUTPUT : Fld := ⟨0x130, 2, 0⟩
def EASL_TRACE_BASE.EN : Fld := ⟨0x400, 63, 63⟩
def EASL_TRACE_BASE.ADDR : Fld := ⟨0x400, 47, 7⟩
def EASL_TRACE_SIZE.DROPS : Fld := ⟨0x408, 63, 32⟩
def EASL_TRACE_SIZE.SIZE : Fld := ⟨0x408, 31, 7⟩

/-- The block-specific registers of a EASL page. -/
def easlRows : List RegRow := [
  ⟨0x100, 0x0, 1, [⟨EASL_CMD.BRK_HALT, .rw, .z, .val 0x0⟩,
    ⟨EASL_CMD.PANEL, .rw, .z, .val 0x0⟩,
    ⟨EASL_CMD.DRESET, .wo, .z, .val 0x0⟩,
    ⟨EASL_CMD.RESUME, .wo, .z, .val 0x0⟩,
    ⟨EASL_CMD.HALT, .wo, .z, .val 0x0⟩]⟩,
  ⟨0x108, 0x0, 1, [⟨EASL_STATUS.HALTED, .ro, .z, .val 0x0⟩]⟩,
  ⟨0x110, 0x0, 1, [⟨EASL_STEP.COUNT, .rw, .z, .val 0x0⟩,
    ⟨EASL_STEP.STEP_IRQ, .rw, .z, .val 0x0⟩,
    ⟨EASL_STEP.THREAD, .rw, .z, .val 0x0⟩]⟩,
  ⟨0x118, 0x0, 1, [⟨EASL_TREG.THREAD, .rw, .z, .val 0x0⟩,
    ⟨EASL_TREG.SEL, .rw, .z, .val 0x0⟩]⟩,
  ⟨0x120, 0x0, 1, [⟨EASL_TDATA.DATA, .rw, .z, .val 0x0⟩]⟩,
  ⟨0x128, 0x0, 1, [⟨EASL_TTAG.TAG, .rw, .z, .val 0x0⟩]⟩,
  ⟨0x130, 0x0, 1, [⟨EASL_INJECT.SEEN, .w1c, .z, .val 0x0⟩,
    ⟨EASL_INJECT.DETECT, .rw, .z, .val 0x1⟩,
    ⟨EASL_INJECT.GO, .wo, .z, .val 0x0⟩,
    ⟨EASL_INJECT.PANEL, .rw, .z, .val 0x0⟩,
    ⟨EASL_INJECT.CORE, .rw, .z, .val 0x0⟩,
    ⟨EASL_INJECT.OUTPUT, .rw, .z, .val 0x0⟩]⟩,
  ⟨0x400, 0x10, 128, [⟨EASL_TRACE_BASE.EN, .rw, .z, .val 0x0⟩,
    ⟨EASL_TRACE_BASE.ADDR, .rw, .z, .val 0x0⟩]⟩,
  ⟨0x408, 0x10, 128, [⟨EASL_TRACE_SIZE.DROPS, .ro, .z, .val 0x0⟩,
    ⟨EASL_TRACE_SIZE.SIZE, .rw, .z, .val 0x0⟩]⟩]

/-- The block-specific registers of a page of each kind. -/
def blockRows : Block → List RegRow
  | .pwmp => pwmpRows
  | .trip => tripRows
  | .fadc => fadcRows
  | .madc => madcRows
  | .wcmp => wcmpRows
  | .sweep => sweepRows
  | .loop => loopRows
  | .leng => lengRows
  | .twq => twqRows
  | .sten => stenRows
  | .stenGroup => stenGroupRows
  | .scr => scrRows
  | .ddrc => ddrcRows
  | .evc => evcRows
  | .jrnl => jrnlRows
  | .fab => fabRows
  | .intnPartner => intnPartnerRows
  | .intnChannel => intnChannelRows
  | .eth => ethRows
  | .dma => dmaRows
  | .dmaAlloc => dmaAllocRows
  | .tmr => tmrRows
  | .tmrGlobal => tmrGlobalRows
  | .canv => canvRows
  | .modeSlice => modeSliceRows
  | .modePkg => modePkgRows
  | .upnt => upntRows
  | .life => lifeRows
  | .hovr => hovrRows
  | .easl => easlRows

end Sys2Proof.Machine
end

