-- ==== Sys2Proof/Machine/State.lean ====
section
/-! DEFINITION. The state of the package as plain data: the registers of every page, memory, every unit's
state outside its registers, and the queue of waiting commands. A `Store` lists only what differs from its
default, so the state right after reset is nearly empty. -/

namespace Sys2Proof.Machine

/-- Sparse data by key: keys rising, no entry equal to the default. -/
abbrev Store (α : Type) := List (Nat × α)

/-- The three variants (R1, R2). -/
inductive Variant where
  | kv2 | kv4 | kv8
  deriving DecidableEq, Repr

/-- A write on its way over a crossing (R17, R19): its writer, its origin, its place in the order of issue. -/
structure Transfer where
  agent : Agent
  origin : Nat
  seq : Nat
  page : Nat
  off : Nat
  data : Word
  due : Option Nat
  /-- the tick at which it leaves its port (R17, R21) -/
  sent : Nat
  /-- it left through the port that the model schedules; of one that its sender makes ready this is not known -/
  ported : Bool
  /-- the store of this thread that waits for the response, by address (R182) -/
  addr : Nat
  /-- issued without a due time whatever `DUE` holds (R314) -/
  untimed : Bool
  /-- its page has been adopted while it was on its way: it is delivered all the same (R302) -/
  entitled : Bool
  /-- the tick at which it came to its port (R21) -/
  issued : Nat
  /-- the access of the instruction, or of the agent, that issued it is secure (R353) -/
  secure : Bool
  deriving DecidableEq, Repr

/-- A write in a timed-write queue (R43), or an untimed or late one waiting for its update point (R42, R45). -/
structure Queued where
  page : Nat
  off : Nat
  data : Word
  origin : Nat
  seq : Nat
  due : Nat
  /-- applied at this tick; a queue entry is free from the next one (R43) -/
  done : Bool
  deriving DecidableEq, Repr

/-- A write of this tick that has changed RWC fields: its writer, and the register before it (R378). -/
structure RwcWrite where
  page : Nat
  off : Nat
  before : Word
  agent : Agent
  addr : Nat
  secure : Bool
  deriving DecidableEq, Repr

/-- An event transfer on its way to a panel's controller (R22); `gone` tells of an event pin that is high again (R386). -/
structure EventTransfer where
  panel : Nat
  adopted : Bool
  source : Nat
  due : Nat
  gone : Bool := false
  deriving DecidableEq, Repr

/-- A thread's run state (R306, R332, R364). -/
inductive Run where
  | stopped | running
  deriving DecidableEq, Repr

/-- Why a thread is parked (R154, R182). -/
inductive Park where
  | dataMiss | fetchMiss | remoteLoad | deviceLoad | pendingEntry | wfe | store
  deriving DecidableEq, Repr

/-- A device-space load that is waiting for its data: the pending entries of that number take it (R155). -/
structure LoadInFlight where
  id : Nat
  addr : Nat
  /-- the tick at which it leaves the panel, and that by which its response is there (R17) -/
  sent : Nat
  latest : Nat
  /-- the access of its instruction is secure (R353) -/
  secure : Bool
  deriving DecidableEq, Repr

/-- A retired device-space store that has not been answered (R182, R193). -/
structure StoreInFlight where
  addr : Nat
  native : Bool
  answer : Option Bool
  /-- the tick by which its answer is back (R17) -/
  latest : Nat
  deriving DecidableEq, Repr

/-- An entry of a renamed operand stack: a word, or one still pending from a device-space load (R155). -/
inductive Slot where
  | word (w : TWord)
  | pending (id : Nat)
  deriving DecidableEq, Repr

/-- An uncompleted claim on a core's priority stack (R209). -/
structure Claim where
  thread : Nat
  value : Nat
  prio : Nat
  deriving DecidableEq, Repr

/-- A set of a cache (R147): way to line plus one, a bit for each way that is dirty, the tree of its replacement. -/
structure CacheSet where
  ways : Store Nat := []
  dirty : Nat := 0
  tree : Nat := 0
  deriving DecidableEq, Repr

/-- A bit error that stands in an array of a panel (R226, R228, R229): the array as `SCR_ECC_LAST` numbers it, the core
of an L1 cache, the key of the word in memory, and whether the code can correct it. -/
structure Flip where
  array : Nat
  core : Nat
  key : Nat
  fatal : Bool
  deriving DecidableEq, Repr

/-- A hardware thread (R174, R175, R157, R167, R214). -/
structure Thread where
  pc : Nat := 0
  run : Run := .stopped
  park : Option Park := none
  /-- a fault whose instruction has become oldest and which waits for its entry: code, return address, and whether
  the instruction executes again when an interrupt discards it (R182, R199) -/
  fault : Option (Nat × Nat × Bool) := none
  /-- `YIELD`: fetch is skipped until the others of the core have fetched -/
  yielded : List Nat := []
  /-- renamed entries, top first -/
  stack : List Slot := []
  loads : List LoadInFlight := []
  /-- words that have arrived for the instruction in progress, or are on their way to it, by key in memory (R154) -/
  arrived : List Nat := []
  /-- the miss of the L2 that the thread waits for: address, and whether it is an instruction fetch (R154) -/
  missing : Option (Nat × Bool) := none
  /-- the line of the handler's first instruction, at hand since the entry (R161, R162) -/
  entryLine : Option Nat := none
  /-- the device-space load that it is parked for (R154) -/
  waitsFor : Nat := 0
  stores : List StoreInFlight := []
  status : Word := 0x100
  osp : Word := 0
  osLo : Word := 0
  osHi : Word := 0
  csp : Word := 0
  csLo : Word := 0
  csHi : Word := 0
  vbase : Word := 0
  fsp : Word := 0
  flags : Word := 0
  imprecise : Word := 0
  double : Bool := false
  retired : Word := 0
  specIssue : Word := 0
  mispredict : Word := 0
  misses : Word := 0
  /-- branch history, 12 bits -/
  history : BitVec 12 := 0
  /-- return stack of the predictor, top first: of 16 entries, the sixteenth push overwrites the oldest (R157) -/
  returns : List Nat := []
  /-- the fetch that the next instruction may belong to: its address, and the instructions it has delivered (R148) -/
  group : Option (Nat × Nat) := none
  /-- `CORE_PARKED` as of its last read or clear; it grows by a free amount between if the thread has been parked
  (assumption 48) -/
  parked : Word := 0
  hasParked : Bool := false
  /-- instructions retired since the last trace entry (R369), and a gap owed -/
  traced : Nat := 0
  traceGap : Bool := false
  /-- offset of the next trace entry in its ring -/
  traceAt : Nat := 0
  /-- steps left of an Easel step (R365), in retired counts, and the count at which it ends -/
  stepEnd : Option Nat := none
  /-- the failed panel's thread this thread carries (R312), and whether it is through -/
  adopted : Option Nat := none
  through : Bool := false
  deriving DecidableEq, Repr

/-- A core (R157, R166, R167, R209). -/
structure Core where
  l2fill : Word := 0
  /-- the L1 caches by set, lines of 64 bytes by address / 64, and the line buffer, last used first -/
  l1i : Store CacheSet := []
  l1d : Store CacheSet := []
  lineBuf : List Nat := []
  /-- the branch target buffer: its sets, with tags for lines, and the target of each entry, by set × 4 + way (R157) -/
  btb : Store CacheSet := []
  targets : Store Nat := []
  entrySlow : Word := 0
  prio : List Claim := []
  /-- `CORE_CYCLES` as of its last read or the reset; it grows by a free amount between (assumption 48) -/
  cycles : Word := 0
  inject : Option (Nat × Bool) := none
  deriving DecidableEq, Repr

/-- A panel: what its four cores share, and its reset, rest and halt state (R166, R309, R329, R364). -/
structure Panel where
  l2lock : Word := 0
  /-- the L2 by set, lines of 128 bytes by address / 128 -/
  l2 : Store CacheSet := []
  /-- `CORE_LOCKSTEP` (R165) -/
  lockstep : Word := 0
  /-- held in reset after a failure, or by a gesso failure -/
  held : Bool := false
  /-- a warm reset sequence is running; `true` when it was commanded -/
  resetting : Option Bool := none
  /-- clock island stopped by `REST` -/
  island : Bool := false
  /-- Easel has ordered a halt that has not completed -/
  halting : Bool := false
  halted : Bool := false
  /-- steps of `REST` entry are running (R329) -/
  restFrom : Option Nat := none
  /-- sources the watcher copied (R216): claim values -/
  watched : List Nat := []
  /-- slow-clock periods of the rest counted so far -/
  restTick : Nat := 0
  wipeBank7 : Bool := false
  /-- tick at which the last protective cause of the slice arose, and that of the last protective transition (R326,
  R328) -/
  causeAt : Option Nat := none
  movedAt : Option Nat := none
  /-- the thermal warning has been raised and not armed again (R342) -/
  warned : Bool := false
  /-- the tick at which the last package-wide command to the slice took effect, and whether a protective cause would have
  moved the slice from the mode before it (R326) -/
  commandAt : Option (Nat × Bool) := none
  /-- commands of the slice's own page that take effect in this tick, unless a package-wide one does (R326) -/
  orders : List Nat := []
  /-- the mode by which they make the sector's units work in this tick (R37, R125) -/
  soon : Option Nat := none
  /-- the next DRAM line of the patrol scrub (R242) -/
  scrubAt : Nat := 0
  /-- every line of the module is being written (R235) -/
  dramInit : Bool := false
  /-- bank groups, banks of a group and rows of a bank that the module has (R243) -/
  dramGroups : Nat := 0
  dramBanks : Nat := 0
  dramRows : Nat := 0
  /-- the fabric port (R20, R21): the tick from which a reserved flit is free, the first tick whose flit no timed-class
  transfer has, and the ticks of flits taken and not yet counted; bulk flits have left since `FAB_BULK` was read -/
  flitFrom : Nat := 0
  flitNext : Nat := 0
  flits : List Nat := []
  hasBulk : Bool := false
  /-- the tick from which a watched source has been pending in the rest (R17) -/
  watchFrom : Option Nat := none
  /-- a lookup of the L2 that no reader waits for has met an uncorrectable tag or state entry: the panel fails (R229) -/
  tagHit : Bool := false
  /-- threads whose start waits for a record that cannot be read yet (R225, R235, R332) -/
  starts : List Nat := []
  deriving DecidableEq, Repr

/-- A fast converter outside its registers (R55 to R68). -/
structure Conv where
  calEnd : Option Nat := none
  calJunction : Int := 25
  /-- results on their way, oldest first: reference tick T and register value, readable from T + 3. A series that
  restarts at a wrap can leave several (R55, R58) -/
  handed : List (Nat × Word) := []
  lastRef : Option Nat := none
  schedAt : Nat := 0
  /-- trigger tick seen and waiting for its sample -/
  trigger : Option Nat := none
  /-- index of the payload after which the ring freezes -/
  freezeAt : Option Nat := none
  /-- samples of the payload being packed, oldest first -/
  pack : List (BitVec 12) := []
  /-- completed payloads not yet written: index and word -/
  line : List (Nat × Word) := []
  /-- taps last measured on the sampling line, those of its map in use, and those of a map that the next reference tick
  adopts (R99) -/
  span : Nat := 0
  map : Nat := 0
  nextMap : Option Nat := none
  deriving DecidableEq, Repr, Inhabited

/-- A source of triggers as a sector has seen it (R66): source and index of `FADC_TRIG`, and the tick from which it
counts. A write of `FADC_TRIG_FIRE` is source 0 of its converter. -/
structure Seen where
  sector : Nat
  source : Nat
  index : Nat
  tick : Nat
  deriving DecidableEq, Repr

/-- A sector's monitor converter: entry in progress, conversions done, their sum, when the conversion began,
a dip seen (R62). -/
structure Monitor where
  entry : Nat := 0
  done : Nat := 0
  sum : Nat := 0
  began : Nat := 0
  dip : Bool := false
  running : Bool := false
  avg : Nat := 0
  input : Nat := 0
  acq : Nat := 125
  /-- `LEN` or an entry has been written since the conversion began -/
  changed : Bool := false
  deriving DecidableEq, Repr, Inhabited

/-- A running comparator check: its start tick, the next step to end, results so far (R75), and the threshold codes that
the comparator uses until the pin is tied, high and low (R76). -/
structure Check where
  start : Nat
  step : Nat
  results : Nat
  hi : Nat
  lo : Nat
  deriving DecidableEq, Repr, Inhabited

/-- A comparator outside its registers (R71, R74): live outputs, the outputs as the last tick edge registered them, and
as the one before did, which `WCMP_STATE` shows. -/
structure Comparator where
  above : Bool := false
  below : Bool := false
  lastAbove : Bool := false
  lastBelow : Bool := false
  wasAbove : Bool := false
  wasBelow : Bool := false
  input : Int := 0
  check : Option Check := none
  deriving DecidableEq, Repr, Inhabited

/-- The phase of a sweep (R80). -/
inductive SweepPhase where
  | idle | handover | driving | returning
  deriving DecidableEq, Repr, Inhabited

/-- A sector's sweep in progress (R78 to R81). -/
structure Sweep where
  phase : SweepPhase := .idle
  target : Nat := 0
  mode : Nat := 0
  start : Nat := 0
  stepAt : Nat := 0
  code : Nat := 0
  bit : Nat := 0
  first : Option Bool := none
  stop : Bool := false
  endAt : Nat := 0
  /-- targets of earlier sweeps whose own threshold is still settling, and the end ticks of those sweeps -/
  back : List (Nat × Nat) := []
  /-- `SWEEP_RESULT` before the `GO` -/
  before : Word := 0
  deriving DecidableEq, Repr, Inhabited

/-- An on-interval of an output: its start instant, the minimum width it must last, whether it was predicted
narrow, and whether its hold has been counted (R90 to R92). Instants are in stipple steps. -/
structure Interval where
  start : Nat
  width : Nat
  narrow : Bool
  counted : Bool
  deriving DecidableEq, Repr, Inhabited

/-- A wrap of a pair: its tick, and the period and step that govern from it, in steps and ticks (R83, R94). -/
structure Wrap where
  tick : Nat
  period : Nat
  presc : Nat
  deriving DecidableEq, Repr, Inhabited

/-- A PWM pair outside its registers (R83 to R98). Instants are counts of stipple steps. -/
structure Pair where
  running : Bool := false
  wrapTick : Nat := 0
  wraps : Nat := 0
  period : Nat := 0x1000
  presc : Nat := 1
  /-- the tick at which a leader's present period ends -/
  endTick : Nat := 0
  /-- stipple part of the phase in this period -/
  phase : Nat := 0
  dtRise : Nat := 4096
  dtFall : Nat := 4096
  minWidth : Nat := 64
  outMode : Nat := 0
  stopAsked : Bool := false
  /-- mode of a follower that a change of `SYNC` makes: the leader it follows (R94) -/
  leader : Nat := 16
  /-- edges of S and S_B that have occurred in this period -/
  roseA : Bool := false
  fellA : Bool := false
  roseB : Bool := false
  fellB : Bool := false
  /-- edges moved into the past fall at these instants (R96) -/
  riseAtA : Option Nat := none
  fallAtA : Option Nat := none
  riseAtB : Option Nat := none
  fallAtB : Option Nat := none
  s : Bool := false
  sB : Bool := false
  /-- the next fall or rise of S is ignored, its interval having been dropped (R91) -/
  skipFall : Bool := false
  skipRise : Bool := false
  a : Bool := false
  b : Bool := false
  /-- turn-on instants the dead-time unit has set -/
  onA : Option Nat := none
  onB : Option Nat := none
  intA : Option Interval := none
  intB : Option Interval := none
  /-- taps of the maps in use on both lines, and of the maps that the next wrap adopts (R99, R101) -/
  tapsA : Nat := 0
  tapsB : Nat := 0
  nextA : Option Nat := none
  nextB : Option Nat := none
  lockNext : Bool := false
  /-- tick of the last release (R117) -/
  relTick : Nat := 0
  /-- the wraps before the last one from which a follower's wrap may still be due, newest first; the tick of the last
  start, and of the last stop (R94) -/
  past : List Wrap := []
  started : Nat := 0
  stopped : Option Nat := none
  /-- the first tick at which a follower may wrap, and a wrap that a new phase found due at its own tick (R94, R95) -/
  since : Nat := 0
  forced : Option Nat := none
  /-- tick of the last `STOP` (R84); the present period was cut (R97) -/
  stopAt : Option Nat := none
  early : Bool := false
  /-- the word of `PWMP_CFG` in use (R98) -/
  cfg : Nat := 0
  deriving DecidableEq, Repr, Inhabited

/-- A sector's trip network outside its registers (R106 to R118). -/
structure Trip where
  /-- sources now active, by index of R106 -/
  active : BitVec 76 := 0
  /-- package lines and external pins as the last tick edge registered them (R121): pins in bits 0 to 7 -/
  registered : BitVec 12 := 0
  /-- levels of the external pins: 1 is low -/
  pinsLow : BitVec 8 := 0
  /-- the three copies of the latches, and of the cycle-by-cycle trips (R115) -/
  latches : BitVec 16 × BitVec 16 × BitVec 16 := (0, 0, 0)
  cbcs : BitVec 16 × BitVec 16 × BitVec 16 := (0, 0, 0)
  /-- pairs released under R117 -/
  released : BitVec 16 := 0
  /-- by pair: the tick at which its blanking window closes, and the instant at which the window opened (R107) -/
  blankUntil : Store Nat := []
  blankFrom : Store Nat := []
  /-- tick at which each source last became inactive -/
  quietFrom : Store Nat := []
  clockMissing : Bool := false
  deriving DecidableEq, Repr

/-- Coefficients of the control law (R126). -/
structure Coeffs where
  b0 : Int := 0
  b1 : Int := 0
  b2 : Int := 0
  b3 : Int := 0
  a1 : Int := 0
  a2 : Int := 0
  a3 : Int := 0
  bshift : Nat := 24
  deriving DecidableEq, Repr, Inhabited

/-- Error and compensator history, newest first (R127, R128). -/
structure History where
  e1 : Int := 0
  e2 : Int := 0
  e3 : Int := 0
  c1 : Int := 0
  c2 : Int := 0
  c3 : Int := 0
  deriving DecidableEq, Repr, Inhabited

/-- What a reference tick a slot takes reads at that tick (R131), waiting for its evaluation. -/
structure EvalInput where
  tick : Nat
  code : Int
  ref : Int
  ffFw : Int
  ffInt : Int
  lo : Int
  hi : Int
  manual : Int
  engine : Nat
  closed : Bool
  /-- outcome of the grant decision: 0 granted, 1 BUSY, 2 PREP, 3 not yet made (R138) -/
  grant : Nat
  /-- a close took effect at this tick (R135) -/
  closing : Bool
  opening : Bool
  /-- what the prepared sum was formed from: the live set and the two copies of the history (R131, R140) -/
  live : Coeffs
  hist : History
  mirror : History
  deriving DecidableEq, Repr, Inhabited

/-- A loop slot outside its registers: live set, the two mirrored histories, requests, evaluations pending. -/
structure LoopSlot where
  live : Coeffs := {}
  hist : History := {}
  mirror : History := {}
  closed : Bool := false
  lastGrant : Option Nat := none
  /-- a close or open that has taken effect and waits for its reference tick: `true` closes -/
  request : Option Bool := none
  evals : List EvalInput := []
  mmRun : Nat := 0
  /-- the last output: the tick at which it takes effect, pair, target, value (R132, R133) -/
  out : Option (Nat × Nat × Nat × Nat) := none
  deriving DecidableEq, Repr, Inhabited

/-- A stencil engine outside its registers (R268 to R273). -/
structure Stencil where
  running : Bool := false
  row : Nat := 0
  outs : BitVec 8 := 0xFF
  /-- outputs before the last edge that set any, and the tick of that edge (R269) -/
  wasOuts : BitVec 8 := 0xFF
  outsAt : Nat := 0
  st : BitVec 8 := 0
  sr : BitVec 32 := 0
  scnt : Nat := 0
  tx : List (BitVec 32) := []
  rx : List (BitVec 32) := []
  stalled : Bool := false
  /-- pending row writes, oldest first: row and value (R273) -/
  rows : List (Nat × Word) := []
  /-- tick of the entry of the row in progress -/
  entry : Nat := 0
  /-- tick of the next engine-clock edge, and engine-clock edges up to and including the end of the row -/
  next : Nat := 0
  left : Nat := 0
  /-- ticks at which a start or a stop has taken effect, and whether a divider restart has: they wait for their
  stencil-clock edge -/
  startAt : Option Nat := none
  stopAt : Option Nat := none
  restart : Bool := false
  deriving DecidableEq, Repr, Inhabited

/-- What the stencil engines drive on the pins of a sector (R269): the pins driven, and their levels. -/
structure Pads where
  drives : BitVec 16 := 0
  levels : BitVec 16 := 0
  deriving DecidableEq, Repr

/-- A DMA channel outside its registers (R249 to R251): elements in flight when it was paused, paused by `REST`,
the thread whose store started it, elements since the start. -/
structure Dma where
  inFlight : Nat := 0
  restPaused : Bool := false
  starter : Option Nat := none
  /-- words written into continuity regions since the start: address and word (R304) -/
  wrote : List (Nat × TWord) := []
  deriving DecidableEq, Repr

/-- A timer outside its registers (R259 to R264). -/
structure Timer where
  presc : Nat := 0
  oneShot : Bool := false
  edges : Nat := 0
  /-- capture edges on their way: the tick counted from `PRIME`, and the edge tick in canvas time -/
  captures : List (Nat × Nat) := []
  restRunning : Bool := false
  /-- tick of the last start: a stop that reaches the timer in the same timer clock gives way (R261) -/
  startAt : Option Nat := none
  /-- the capture input: whether it is watched, its accepted level, since when it has been sampled at the other one, and
  the tick at which its level was last accepted or chosen (R262) -/
  watch : Bool := false
  level : Option Bool := none
  since : Option Nat := none
  accepted : Nat := 0
  /-- tick of the last write of `TMR_CFG`, which zeroes the count of edges (R262) -/
  chosen : Nat := 0
  /-- tick of the last capture, and whether it met an earlier one that no read of this tick has taken yet (R263) -/
  took : Option Nat := none
  overran : Bool := false
  deriving DecidableEq, Repr, Inhabited

/-- A message in the intent queue (R285). -/
structure IntentMessage where
  sci : Word
  body : List Byte
  arrival : Nat
  /-- the arrival in ticks since `PRIME` -/
  ready : Nat
  deriving DecidableEq, Repr

/-- A partner's rate budget (R285): tokens spent, and the tick from which the next one is counted; and the due time
of its last accepted message (R288). -/
structure Budget where
  spent : Nat := 0
  since : Nat := 0
  lastDue : Option Nat := none
  deriving DecidableEq, Repr

/-- A timed write that an intent block will issue: the tick, the channel, and the write (R23, R287). -/
structure IntentWrite where
  tick : Nat
  channel : Nat
  page : Nat
  off : Nat
  data : Word
  due : Nat
  deriving DecidableEq, Repr

/-- A panel's intent block: its queue, the tick at which it last took a message (R286), and the writes that it has not
issued yet. -/
structure Intent where
  out : List IntentWrite := []
  queue : List IntentMessage := []
  /-- intent frames that port 1 has completed in this tick: SCI and body; those of port 0 come first (R285) -/
  later : List (Option Word × List Byte) := []
  taken : Option Nat := none
  deriving DecidableEq, Repr

/-- An installed secure association (R281, R297): its next packet number to send, or the lowest acceptable one; and, of
a receive association, the number after the highest verified. -/
structure Association where
  transmit : Bool
  channel : Nat
  an : Nat
  record : List Word
  pn : Word
  next : Word
  deriving DecidableEq, Repr

/-- A frame queued for transmission: class, unprotected, bytes (R297). -/
structure TxFrame where
  cls : Nat
  clear : Bool
  bytes : List Byte
  deriving DecidableEq, Repr

/-- The SecTAG of a transmitted frame: SCI, association and packet number (R281, R297). -/
structure TxTag where
  sci : Word
  an : Nat
  pn : Word
  deriving DecidableEq, Repr

/-- A frame that has been sent, whole or as a fragment: its first octet, and the one after its last (R280). -/
structure Sent where
  frame : TxFrame
  tag : Option TxTag
  first : Nat
  upto : Nat
  deriving DecidableEq, Repr

/-- An Ethernet port outside its registers. -/
structure EthPort where
  txq : List TxFrame := []
  /-- the frame, or the rest of one, that the port is sending (R280) -/
  onWire : Option TxFrame := none
  /-- the frame or fragment last sent -/
  sent : Option Sent := none
  /-- the fragments of a preempted frame sent so far, of which the rest waits (R280) -/
  cut : Option Sent := none
  associations : List Association := []
  gatePos : Nat := 0
  /-- gPTP times: the start of the operational cycle in progress, and the latest that a command has shown (R280) -/
  cycleStart : Nat := 0
  clock : Nat := 0
  /-- sync intervals of a slave that have passed without a message (R279) -/
  missed : Nat := 0
  /-- the ticks at which the present sync and Pdelay_Req intervals began (R296) -/
  syncAt : Nat := 0
  pdelayAt : Nat := 0
  /-- received frames whose records wait for the initialisation of DRAM, oldest first, each with the channel that verified
  it and its arrival (R235, R297) -/
  held : List (RxFrame × Option Nat × Nat) := []
  /-- 802.1AS messages sent: Sync and Pdelay_Req -/
  syncs : Nat := 0
  pdelays : Nat := 0
  deriving DecidableEq, Repr

/-- A journal entry: kind, thread, key and payload words (R299 to R301). -/
structure Entry where
  kind : Nat
  thread : Nat
  key : Nat
  payload : List TWord
  deriving DecidableEq, Repr

/-- A write on its way to the mirror: epoch, address in the panel's view, the word. One that a thread made is held
for its epoch (R303); one of a `DATA` entry is not held, and is listed here for the order of R304 only. -/
structure HeldWrite where
  epoch : Nat
  addr : Nat
  word : TWord
  data : Bool
  deriving DecidableEq, Repr

/-- A thread's checkpoint (R306). -/
structure Checkpoint where
  thread : Nat
  state : Thread
  prio : List Claim
  deriving DecidableEq, Repr

/-- What a stall of the journal waits for (R308): words of the rings, or lines of the holding buffer for addresses. -/
inductive Room where
  | ring (words : Nat)
  | lines (addrs : List Nat)
  deriving DecidableEq, Repr

/-- A panel's journal outside its registers (R299 to R308). -/
structure Journal where
  /-- who stalls, and for what: a thread by its number, a port by 16 and its number, the boundary as 18 (R308) -/
  stalls : List (Nat × Room) := []
  /-- entries that have found no room: their threads stall until they are captured (R308) -/
  late : List Entry := []
  /-- a panel warm reset has set `JRNL_FILL` to 0 since the last boundary (R321) -/
  emptied : Bool := false
  /-- entries since the last closed boundary, oldest first, here and in the mirror ring -/
  entries : List Entry := []
  held : List HeldWrite := []
  epoch : Nat := 0
  /-- byte offset of the next entry in the ring -/
  ringAt : Nat := 0
  /-- boundary tick and checkpoints not yet closed at the partner; writes of the epoch before it -/
  openAt : Option Nat := none
  openCkpt : List Checkpoint := []
  /-- the last closed checkpoint -/
  closed : Option Nat := none
  closedCkpt : List Checkpoint := []
  /-- starts at the next grid tick -/
  starting : Bool := false
  /-- threads journaled and epoch length since the last boundary (R321) -/
  threads : Nat := 0
  epochLen : Nat := 0
  deriving DecidableEq, Repr

/-- A device-space write held for an adopted thread (R314). -/
structure HeldDevice where
  origin : Nat
  page : Nat
  off : Nat
  data : Word
  due : Option Nat
  own : Bool
  deriving DecidableEq, Repr

/-- A slice's handover state outside its registers (R309 to R318). -/
structure Handover where
  wdogFrom : Nat := 0
  /-- adoption check passed and pages adopted: threads not yet restored -/
  restoring : Bool := false
  held : List HeldDevice := []
  /-- a planned handover waits for its boundary; its check has passed and its checkpoint is open -/
  plannedAt : Option Nat := none
  planning : Bool := false
  returnAt : Option Nat := none
  /-- threads that were running when a planned handover or a return stopped them -/
  stopped : List Nat := []
  released : Bool := false
  deriving DecidableEq, Repr

/-- An underpainting slot (R336): the header's marker, variant, generation, commit tick and CRC; the U fields by register
key; the secure sub-slot (the first 8 KiB of bank 7 of each panel, as words by panel × 1024 + index). -/
structure Painting where
  marker : BitVec 16
  variant : Variant
  gen : Nat
  tick : Nat
  crc : BitVec 32
  fields : Store Word
  secure : Store TWord
  deriving DecidableEq, Repr

/-- A commit in progress: into slot B, the capture taken at C. -/
structure Commit where
  slotB : Bool
  data : Painting
  deriving DecidableEq, Repr

/-- The fuses (R354, R355). -/
structure Fuses where
  /-- the silicon grade is B (R400) -/
  gradeB : Bool := false
  state : Nat := 0
  keyHash : Option (BitVec 384) := none
  debugHash : Option (BitVec 384) := none
  floor : Nat := 0
  id : Word := 0
  deriving DecidableEq, Repr

/-- An Easel access in progress (R361). -/
structure EaselAccess where
  op : Nat
  tagged : Bool
  panel : Nat
  addr : Nat
  word : TWord
  deriving DecidableEq, Repr

/-- The JTAG port and Easel's own state (R360, R361, R371). -/
structure Jtag where
  ir : BitVec 8 := 0x01
  /-- what the instruction register captured before the last instruction was shifted in (R360) -/
  irCaptured : BitVec 8 := 0x01
  access : Option EaselAccess := none
  /-- result code of the last access, collision bit, word read (R361) -/
  result : Nat := 0
  collided : Bool := false
  word : TWord := 0
  /-- the boundary cells: what the last Capture-DR caught, and the levels and output enables last shifted in (R370) -/
  caught : BitVec 492 := 0
  levels : BitVec 492 := 0
  outputs : BitVec 492 := 0
  deriving DecidableEq, Repr

/-- Supplies and the dip record (R339 to R341). -/
structure Supply where
  /-- banks now below warning, and banks that count as below their reset level: all of them from power-up (R105;
  assumption 102) -/
  banksBelow : BitVec 16 := 0
  banksDown : BitVec 16 := 0xFFFF
  dip : Bool := false
  /-- the record taken and not yet written; the record in the MRAM, by word -/
  taken : Option (Store Word) := none
  record : Store Word := []
  deriving DecidableEq, Repr

/-- The parts of the state that RO fields show, as the hardware's work of the last tick left them (R8). -/
structure Shown where
  regs : Store Word := []
  twq : List Queued := []
  waiting : List Queued := []
  evArrived : Store Bool := []
  evPend : Store Bool := []
  evServ : Store Bool := []
  evtLow : BitVec 16 := 0
  cmps : Store Comparator := []
  sweeps : Store Sweep := []
  pairs : Store Pair := []
  trips : Store Trip := []
  slots : Store LoopSlot := []
  engines : Store Nat := []
  threads : Store Thread := []
  cores : Store Core := []
  panels : Store Panel := []
  stencils : Store Stencil := []
  ports : Store EthPort := []
  journals : Store Journal := []
  deriving DecidableEq, Repr

/-- Where a reset through `PRIME` stands (R331, R347): in cold reset waiting for `POWER_ON`, priming, or past it. -/
inductive Boot where
  | cold | priming | done
  deriving DecidableEq, Repr

/-- The whole package. -/
structure State where
  variant : Variant
  boot : Boot
  /-- `PRIME` has restored the underpainting: its step 3 has ended (R347, R348) -/
  restored : Bool
  /-- a lifecycle transition that waits for the wipes: the fuses that it will burn (R355) -/
  burn : Option Fuses
  /-- canvas ticks since tick 0 of `PRIME`, steps of canvas time not counted (R27) -/
  ticks : Nat
  /-- canvas time (R25) -/
  canvas : Nat
  /-- canvas time of the next tick, after a step (R35) -/
  canvasNext : Option Nat
  /-- the sector anchor tick (R55), by slice -/
  anchors : Store Nat
  /-- registers of the pages, by page key × 4096 + offset -/
  regs : Store Word
  /-- what an RO field shows in this tick (R8) -/
  shown : Shown
  /-- bits of W1C fields that hardware has set in this tick, by register (R8) -/
  setNow : Store Word
  /-- writes of this tick that have changed RWC fields, newest first (R378) -/
  rwcNow : List RwcWrite
  /-- compared outputs that the instruction in progress has used, of cores that await an injected difference (R164, R368) -/
  outputs : List (Nat × Nat × Nat)
  /-- writes that this tick has performed at the banks' ports of Easel and the cores: panel, port, word (R221) -/
  bankWrites : List (Nat × Nat × Nat)
  /-- `DUE` of each writing panel, by page key × 8 + panel (R41) -/
  dues : Store Word
  /-- memory of every panel as tagged words, by panel × 2^45 + address / 8 (R169, R375) -/
  mem : Store TWord
  /-- words that read uncorrectable (R228); lines poisoned in DRAM (R240) -/
  badWords : List Nat
  poisoned : List Nat
  /-- bit errors in the arrays of the panels that no read has corrected (R226) -/
  flips : List Flip
  seq : Nat
  flight : List Transfer
  twq : List Queued
  waiting : List Queued
  events : List EventTransfer
  /-- event controllers: by (panel × 2 + table) × 1024 + source (R206) -/
  evArrived : Store Bool
  evPend : Store Bool
  evServ : Store Bool
  alarms : Store Nat
  syncRun : Nat
  syncBad : Nat
  /-- tick of the last change of `FREQ_ADJ`, and the adjustment that the discipline slews to (R30) -/
  lastAdj : Nat
  adjGoal : Int
  /-- the bit of the frame on `CANVAS_SYNC_OUT`, and the frame (R33) -/
  syncOut : Option (Nat × BitVec 128)
  evtLow : BitVec 16
  convs : Store Conv
  /-- trigger sources seen at this tick, or registered for the next one -/
  seen : List Seen
  monitors : Store Monitor
  cmps : Store Comparator
  sweeps : Store Sweep
  pairs : Store Pair
  trips : Store Trip
  slots : Store LoopSlot
  /-- reference tick last granted by each engine, plus one (R138) -/
  engines : Store Nat
  /-- the tick at which each ring last drove the freeze line of its sector, by sector × 16 + converter (R66) -/
  freezeLines : Store Nat
  threads : Store Thread
  cores : Store Core
  panels : Store Panel
  /-- direction counters, by core × 8192 + index (R157) -/
  counters : Store Nat
  dmas : Store Dma
  timers : Store Timer
  stencils : Store Stencil
  /-- the stencil pins of each sector as they stood before the last three stencil-clock edges, newest first (R269) -/
  pads : Store (List Pads)
  intents : Store Intent
  budgets : Store Budget
  ports : Store EthPort
  journals : Store Journal
  handovers : Store Handover
  slotA : Option Painting
  slotB : Option Painting
  commit : Option Commit
  supply : Supply
  fuses : Fuses
  /-- header facts of the running image: version, key hash, debug-key hash -/
  image : Option (Nat × BitVec 384 × BitVec 384)
  challenge : Bool
  /-- sensors whose response was the last to start (R357) -/
  tamperBusy : BitVec 6
  jtag : Jtag
  resetPinLow : Bool
  /-- the model's own counter of free values taken (assumption 2) -/
  free : Nat
  /-- pages whose block a host error has made unpredictable (R3, R4; assumption 8) -/
  upset : List Nat
  pending : List Instr
  deriving DecidableEq, Repr

/-- Why a command stops the run. No command does: where the spec leaves a result open, it is free (assumption 8), and
the run goes on. Safe. -/
inductive Fault where
  deriving DecidableEq, Repr

/-- Why a command has no meaning. -/
inductive Refusal where
  /-- The command has no meaning in this model. Raised by no command: every row of the table has its meaning. Safe. -/
  | notModelled (mnemonic : String)
  deriving DecidableEq, Repr

/-- Tick 0 of `PRIME` of a blank KV720-8 after its supply ramp (R25, R331, R338, R347; assumptions 1 and 5). -/
def State.reset : State where
  variant := .kv8
  boot := .priming
  restored := false
  burn := none
  ticks := 0
  canvas := 0
  canvasNext := none
  anchors := []
  regs := []
  shown := {}
  setNow := []
  rwcNow := []
  outputs := []
  bankWrites := []
  dues := []
  mem := []
  badWords := []
  poisoned := []
  flips := []
  seq := 0
  flight := []
  twq := []
  waiting := []
  events := []
  evArrived := []
  evPend := []
  evServ := []
  alarms := []
  syncRun := 0
  syncBad := 0
  lastAdj := 0
  adjGoal := 0
  syncOut := none
  evtLow := 0
  convs := []
  seen := []
  monitors := []
  cmps := []
  sweeps := []
  pairs := []
  trips := []
  slots := []
  engines := []
  freezeLines := []
  threads := []
  cores := []
  panels := []
  counters := []
  dmas := []
  timers := []
  stencils := []
  pads := []
  intents := []
  budgets := []
  ports := []
  journals := []
  handovers := []
  slotA := none
  slotB := none
  commit := none
  supply := {}
  fuses := {}
  image := none
  challenge := false
  tamperBusy := 0
  jtag := {}
  resetPinLow := false
  free := 0
  upset := []
  pending := []

end Sys2Proof.Machine
end

