-- ==== Sys2Proof/Machine/Ops.lean ====
section
/-! DEFINITION. The named operations over the state that every family shares: sparse stores, pages and their
registers, memory words, free values, ownership and modes, events, transfers, and the entry of faults. -/

namespace Sys2Proof.Machine

/-! ### Sparse stores -/

/-- What a store holds at a key: the first entry, or the default. -/
def Store.read {α : Type} (d : α) : Store α → Nat → α
  | [], _ => d
  | (k, v) :: rest, i => if k = i then v else Store.read d rest i

/-- A store with an entry put in key order. -/
def Store.place {α : Type} (k : Nat) (v : α) : Store α → Store α
  | [] => [(k, v)]
  | (j, w) :: rest => if k < j then (k, v) :: (j, w) :: rest else (j, w) :: Store.place k v rest

/-- A store without any entry for a key. -/
def Store.drop {α : Type} (k : Nat) (m : Store α) : Store α :=
  m.filter (fun e => decide (e.1 ≠ k))

/-- A store after a write: the default is not listed. -/
def Store.write {α : Type} [DecidableEq α] (d : α) (m : Store α) (k : Nat) (v : α) : Store α :=
  if v = d then Store.drop k m else Store.place k v (Store.drop k m)

/-- The canonical form: keys strictly rising, no entry equal to its default. -/
def Store.wf {α : Type} [DecidableEq α] (d : Nat → α) (m : Store α) : Bool :=
  decide ((m.map Prod.fst).Pairwise (· < ·)) && m.all (fun e => decide (e.2 ≠ d e.1))

/-! ### Numbers -/

/-- Bit `i` of a number. -/
def bit (n i : Nat) : Bool := n.testBit i

/-- A number with bit `i` set or cleared. -/
def putBit (n i : Nat) (v : Bool) : Nat :=
  if v then n ||| (1 <<< i) else if n.testBit i then n - (1 <<< i) else n

/-- Two's complement value of the low `w` bits. -/
def signed (w n : Nat) : Int :=
  let m := n % 2 ^ w
  if 2 * m < 2 ^ w then (m : Int) else (m : Int) - 2 ^ w

/-- The low `w` bits of an integer. -/
def unsign (w : Nat) (i : Int) : Nat := (i % (2 ^ w : Int)).toNat

/-- An integer held between two bounds. -/
def clampInt (v lo hi : Int) : Int := if v < lo then lo else if hi < v then hi else v

/-- A count that stops at its largest value. -/
def satAdd (w n d : Nat) : Nat := if n + d < 2 ^ w then n + d else 2 ^ w - 1

/-- A field of a word. -/
def bits (w : Word) (hi lo : Nat) : Nat := (w.toNat >>> lo) % 2 ^ (hi + 1 - lo)

/-- A word with a field replaced. -/
def putBits (w : Word) (hi lo v : Nat) : Word :=
  BitVec.ofNat 64 (w.toNat - ((w.toNat >>> lo) % 2 ^ (hi + 1 - lo)) * 2 ^ lo + (v % 2 ^ (hi + 1 - lo)) * 2 ^ lo)

/-! ### Pages -/

/-- Slice count of a variant (R2). -/
def Variant.slices : Variant → Nat
  | .kv2 => 2
  | .kv4 => 4
  | .kv8 => 8

def sectorPage (s n : Nat) : Nat := s * 4096 + n
def panelPage (p n : Nat) : Nat := (8 + p) * 4096 + n
def packagePage (n : Nat) : Nat := 16 * 4096 + n

/-- The key of a page. -/
def pageKey : Page → Nat
  | .sector s n => sectorPage s n
  | .panel p n => panelPage p n
  | .package n => packagePage n

def pwmpPage (s p : Nat) : Nat := sectorPage s p
def tripPage (s : Nat) : Nat := sectorPage s 16
def fadcPage (s c : Nat) : Nat := sectorPage s (32 + c)
def madcPage (s : Nat) : Nat := sectorPage s 48
def wcmpPage (s c : Nat) : Nat := sectorPage s (64 + c)
def sweepPage (s : Nat) : Nat := sectorPage s 96
def loopPage (s n : Nat) : Nat := sectorPage s (128 + n)
def lengPage (s g : Nat) : Nat := sectorPage s (144 + g)
def twqPage (s : Nat) : Nat := sectorPage s 160
def stenPage (s e : Nat) : Nat := sectorPage s (176 + e)
def scrPage (p : Nat) : Nat := panelPage p 0
def ddrcPage (p : Nat) : Nat := panelPage p 1
def evcPage (p table : Nat) : Nat := panelPage p (2 + table)
def jrnlPage (p : Nat) : Nat := panelPage p 4
def fabPage (p : Nat) : Nat := panelPage p 5
def intnPage (p : Nat) : Nat := panelPage p 6
def intnChannelPage (p : Nat) : Nat := panelPage p 7
def ethPage (p n : Nat) : Nat := panelPage p (8 + n)
def dmaPage (p c : Nat) : Nat := panelPage p (32 + c)
def tmrPage (p n : Nat) : Nat := panelPage p (96 + n)
def canvPage : Nat := packagePage 0
def modePage (s : Nat) : Nat := packagePage (16 + s)
def modePkgPage : Nat := packagePage 24
def upntPage : Nat := packagePage 32
def lifePage : Nat := packagePage 33
def hovrPage (s : Nat) : Nat := packagePage (48 + s)
def easlPage : Nat := packagePage 64

/-- Window of a page: slices 0 to 7 of the sectors, 8 to 15 the panels, 16 the package. -/
def windowOf (pk : Nat) : Nat := pk / 4096

def isSectorPage (pk : Nat) : Bool := decide (windowOf pk < 8)
def isPanelPage (pk : Nat) : Bool := decide (8 ≤ windowOf pk) && decide (windowOf pk < 16)
def isPackagePage (pk : Nat) : Bool := decide (windowOf pk = 16)

/-- Block and instance of a page number of a sector window (R379). -/
def sectorBlock (n : Nat) : Option (Block × Nat) :=
  if n < 16 then some (.pwmp, n)
  else if n = 16 then some (.trip, 0)
  else if 32 ≤ n ∧ n < 48 then some (.fadc, n - 32)
  else if n = 48 then some (.madc, 0)
  else if 64 ≤ n ∧ n < 96 then some (.wcmp, n - 64)
  else if n = 96 then some (.sweep, 32)
  else if 128 ≤ n ∧ n < 144 then some (.loop, n - 128)
  else if 144 ≤ n ∧ n < 148 then some (.leng, n - 144)
  else if n = 160 then some (.twq, 0)
  else if 176 ≤ n ∧ n < 184 then some (.sten, n - 176)
  else if n = 184 then some (.stenGroup, 8)
  else none

/-- Block and instance of an own panel block page (R379). -/
def panelBlock (n : Nat) : Option (Block × Nat) :=
  if n = 0 then some (.scr, 0)
  else if n = 1 then some (.ddrc, 0)
  else if n = 2 then some (.evc, 0)
  else if n = 3 then some (.evc, 1)
  else if n = 4 then some (.jrnl, 0)
  else if n = 5 then some (.fab, 0)
  else if n = 6 then some (.intnPartner, 0)
  else if n = 7 then some (.intnChannel, 1)
  else if n = 8 then some (.eth, 0)
  else if n = 9 then some (.eth, 1)
  else if 32 ≤ n ∧ n < 64 then some (.dma, n - 32)
  else if n = 64 then some (.dmaAlloc, 32)
  else if 96 ≤ n ∧ n < 112 then some (.tmr, n - 96)
  else if n = 112 then some (.tmrGlobal, 16)
  else none

/-- Block and instance of a package page (R379). -/
def packageBlock (n : Nat) : Option (Block × Nat) :=
  if n = 0 then some (.canv, 0)
  else if 16 ≤ n ∧ n < 24 then some (.modeSlice, n - 16)
  else if n = 24 then some (.modePkg, 8)
  else if n = 32 then some (.upnt, 0)
  else if n = 33 then some (.life, 0)
  else if 48 ≤ n ∧ n < 56 then some (.hovr, n - 48)
  else if n = 64 then some (.easl, 0)
  else none

/-- Block and instance of a page, if the page index assigns it. -/
def blockOf (pk : Nat) : Option (Block × Nat) :=
  if windowOf pk < 8 then sectorBlock (pk % 4096)
  else if windowOf pk < 16 then panelBlock (pk % 4096)
  else if windowOf pk = 16 then packageBlock (pk % 4096)
  else none

/-- Block type code and instances in the window (R377, R379). -/
def typeCode : Block → Nat × Nat
  | .pwmp => (0x0101, 16) | .trip => (0x0102, 1) | .fadc => (0x0201, 16) | .madc => (0x0202, 1)
  | .wcmp => (0x0203, 33) | .sweep => (0x0203, 33) | .loop => (0x0204, 16) | .leng => (0x0205, 4)
  | .twq => (0x0206, 1) | .sten => (0x0301, 9) | .stenGroup => (0x0301, 9) | .scr => (0x0401, 1)
  | .ddrc => (0x0402, 1) | .evc => (0x0302, 2) | .jrnl => (0x0405, 1) | .fab => (0x0406, 1)
  | .intnPartner => (0x0404, 2) | .intnChannel => (0x0404, 2) | .eth => (0x0403, 2)
  | .dma => (0x0304, 33) | .dmaAlloc => (0x0304, 33) | .tmr => (0x0303, 17) | .tmrGlobal => (0x0303, 17)
  | .canv => (0x0502, 1) | .modeSlice => (0x0501, 9) | .modePkg => (0x0501, 9) | .upnt => (0x0503, 1)
  | .life => (0x0504, 1) | .hovr => (0x0505, 8) | .easl => (0x0506, 1)

/-- Pages that raise no events: their event registers read zero and ignore writes (R146, R213, R257, R266, R276,
R293). -/
def eventless : Block → Bool
  | .leng | .evc | .dmaAlloc | .tmrGlobal | .stenGroup | .intnChannel => true
  | _ => false

/-! ### The common page head (R377) -/

def HEAD.EVENT : Fld := ⟨0x020, 63, 0⟩
def HEAD.EVENT_EN : Fld := ⟨0x028, 63, 0⟩
def HEAD.LATE_APPLY : Fld := ⟨0x010, 63, 63⟩
def HEAD.CTRL_CLR : Fld := ⟨0x010, 0, 0⟩
def HEAD.ORPHANED : Fld := ⟨0x038, 11, 11⟩
def HEAD.ADOPTED : Fld := ⟨0x038, 10, 10⟩
def HEAD.PANEL : Fld := ⟨0x038, 2, 0⟩
def HEAD.LOCK : Fld := ⟨0x048, 0, 0⟩
def HEAD.DUE_ARM : Fld := ⟨0x040, 63, 62⟩
def HEAD.DUE_TICK : Fld := ⟨0x040, 61, 0⟩

/-- The fields of the head that a write can change, by page kind (R11, R46, R377, R404). -/
def headRows (pk : Nat) : List RegRow :=
  let common : List RegRow :=
    [⟨0x048, 0, 1, [⟨HEAD.LOCK, .w1l, .k, .val 0⟩]⟩]
  let events : List RegRow :=
    match blockOf pk with
    | some (b, _) => if eventless b then [] else
        [⟨0x020, 0, 1, [⟨HEAD.EVENT, .w1c, .z, .val 0⟩]⟩,
         ⟨0x028, 0, 1, [⟨HEAD.EVENT_EN, .rw, .u, .val 0⟩]⟩,
         ⟨0x030, 0, 1, [⟨⟨0x030, 63, 0⟩, .w1s, .z, .val 0⟩]⟩]
    | none => []
  let owner : List RegRow :=
    if isPanelPage pk then [] else
      [⟨0x010, 0, 1, [⟨HEAD.LATE_APPLY, .rwc, .u, .val 0⟩, ⟨HEAD.CTRL_CLR, .wo, .z, .val 0⟩]⟩,
       ⟨0x038, 0, 1, [⟨HEAD.ORPHANED, .ro, .z, .val 0⟩, ⟨HEAD.ADOPTED, .ro, .z, .val 0⟩,
         ⟨HEAD.PANEL, .rwc, .u, .val 0⟩]⟩]
  common ++ events ++ owner

/-- Whether a register row holds the register at an offset. -/
def RegRow.holds (r : RegRow) (off : Nat) : Bool :=
  decide (off = r.first) ||
    (decide (r.first < off) && decide (0 < r.stride) && decide ((off - r.first) % r.stride = 0)
      && decide ((off - r.first) / r.stride < r.count))

/-- The fields of the register at an offset of a page, placed there; registers 0x200 to 0x220 of the event controller
exist on instance 0 only (R213). -/
def fieldsAt (pk off : Nat) : List FieldRow :=
  let find (rows : List RegRow) : List FieldRow :=
    match rows.find? (fun r => r.holds off) with
    | some r => r.fields.map (fun f => { f with fld := f.fld.at (off - r.first) })
    | none => []
  if off < 0x100 then
    find (headRows pk) ++ (match blockOf pk with | some (b, _) => find (blockRows b) | none => [])
  else match blockOf pk with
    | some (b, i) => if b = .evc ∧ i = 1 ∧ 0x200 ≤ off ∧ off < 0x228 then [] else find (blockRows b)
    | none => []

/-- Index of a register within its row of registers. -/
def registerIndex (pk off : Nat) : Nat :=
  match blockOf pk with
  | some (b, _) =>
    match (blockRows b).find? (fun r => r.holds off) with
    | some r => if r.stride = 0 then 0 else (off - r.first) / r.stride
    | none => 0
  | none => 0

/-- The owner a page has by factory value (R11, R322, R343). -/
def factoryOwner (pk : Nat) : Nat :=
  if isPackagePage pk then
    match packageBlock (pk % 4096) with
    | some (.modeSlice, i) => i
    | some (.hovr, i) => i ^^^ 1
    | _ => 0
  else windowOf pk % 8

/-- A reset or factory value as a number. -/
def ResetValue.number (pk off : Nat) : ResetValue → Nat
  | .val n => n
  | .index => registerIndex pk off
  | .inst => match blockOf pk with | some (_, i) => i | none => 0
  | .instMod4 => match blockOf pk with | some (_, i) => i % 4 | none => 0

/-- What a register holds when nothing is listed: its reset and factory values. -/
def defaultWord (pk off : Nat) : Word :=
  if off = 0x038 then BitVec.ofNat 64 (factoryOwner pk)
  else (fieldsAt pk off).foldl (fun w f => putBits w f.fld.hi f.fld.lo (f.reset.number pk off)) 0

def regKey (pk off : Nat) : Nat := pk * 4096 + off

/-- The stored value of a register of a page. -/
def State.reg (s : State) (pk off : Nat) : Word := Store.read (defaultWord pk off) s.regs (regKey pk off)

/-- The state with a register of a page set. -/
def State.setReg (s : State) (pk off : Nat) (v : Word) : State :=
  { s with regs := Store.write (defaultWord pk off) s.regs (regKey pk off) v }

/-- A field in force. -/
def State.fld (s : State) (pk : Nat) (f : Fld) : Nat := bits (s.reg pk f.off) f.hi f.lo

/-- A one-bit field in force. -/
def State.flag (s : State) (pk : Nat) (f : Fld) : Bool := s.fld pk f != 0

/-- The state with a field set. -/
def State.setFld (s : State) (pk : Nat) (f : Fld) (v : Nat) : State :=
  s.setReg pk f.off (putBits (s.reg pk f.off) f.hi f.lo v)

/-- Hardware sets bit `i` of a field of flags; a write of the same tick does not clear it (R8). -/
def State.markBit (s : State) (pk : Nat) (f : Fld) (i : Nat) : State :=
  let k := regKey pk f.off
  { s.setFld pk f (putBit (s.fld pk f) i true) with
    setNow := Store.write 0 s.setNow k (Store.read 0 s.setNow k ||| (1#64 <<< (f.lo + i))) }

/-- Hardware has set a flag of the field in this tick. -/
def State.markedNow (s : State) (pk : Nat) (f : Fld) : Bool :=
  bits (Store.read 0 s.setNow (regKey pk f.off)) f.hi f.lo != 0

/-- Hardware sets a flag. -/
def State.mark (s : State) (pk : Nat) (f : Fld) : State := s.markBit pk f 0

/-- The state with a count field raised, saturating. -/
def State.count (s : State) (pk : Nat) (f : Fld) (d : Nat) : State :=
  s.setFld pk f (satAdd (f.hi + 1 - f.lo) (s.fld pk f) d)

/-- A field as a signed number. -/
def State.sfld (s : State) (pk : Nat) (f : Fld) : Int := signed (f.hi + 1 - f.lo) (s.fld pk f)

/-- The state with a signed field set. -/
def State.setSfld (s : State) (pk : Nat) (f : Fld) (v : Int) : State :=
  s.setFld pk f (unsign (f.hi + 1 - f.lo) v)

/-! ### Units -/

def State.conv (s : State) (sec c : Nat) : Conv := Store.read {} s.convs (sec * 16 + c)
def State.setConv (s : State) (sec c : Nat) (v : Conv) : State :=
  { s with convs := Store.write {} s.convs (sec * 16 + c) v }
def State.monitor (s : State) (sec : Nat) : Monitor := Store.read {} s.monitors sec
def State.setMonitor (s : State) (sec : Nat) (v : Monitor) : State :=
  { s with monitors := Store.write {} s.monitors sec v }
def State.cmp (s : State) (sec c : Nat) : Comparator := Store.read {} s.cmps (sec * 32 + c)
def State.setCmp (s : State) (sec c : Nat) (v : Comparator) : State :=
  { s with cmps := Store.write {} s.cmps (sec * 32 + c) v }
def State.sweep (s : State) (sec : Nat) : Sweep := Store.read {} s.sweeps sec
def State.setSweep (s : State) (sec : Nat) (v : Sweep) : State :=
  { s with sweeps := Store.write {} s.sweeps sec v }
def State.pair (s : State) (sec p : Nat) : Pair := Store.read {} s.pairs (sec * 16 + p)
def State.setPair (s : State) (sec p : Nat) (v : Pair) : State :=
  { s with pairs := Store.write {} s.pairs (sec * 16 + p) v }
def State.trip (s : State) (sec : Nat) : Trip := Store.read {} s.trips sec
def State.setTrip (s : State) (sec : Nat) (v : Trip) : State :=
  { s with trips := Store.write {} s.trips sec v }
def State.slot (s : State) (sec n : Nat) : LoopSlot := Store.read {} s.slots (sec * 16 + n)
def State.setSlot (s : State) (sec n : Nat) (v : LoopSlot) : State :=
  { s with slots := Store.write {} s.slots (sec * 16 + n) v }
def State.thread (s : State) (p t : Nat) : Thread := Store.read {} s.threads (p * 16 + t)
def State.setThread (s : State) (p t : Nat) (v : Thread) : State :=
  { s with threads := Store.write {} s.threads (p * 16 + t) v }
def State.core (s : State) (p c : Nat) : Core := Store.read {} s.cores (p * 4 + c)
def State.setCore (s : State) (p c : Nat) (v : Core) : State :=
  { s with cores := Store.write {} s.cores (p * 4 + c) v }
def State.panel (s : State) (p : Nat) : Panel := Store.read {} s.panels p
def State.setPanel (s : State) (p : Nat) (v : Panel) : State :=
  { s with panels := Store.write {} s.panels p v }
def State.dma (s : State) (p c : Nat) : Dma := Store.read {} s.dmas (p * 32 + c)
def State.setDma (s : State) (p c : Nat) (v : Dma) : State :=
  { s with dmas := Store.write {} s.dmas (p * 32 + c) v }
def State.timer (s : State) (p n : Nat) : Timer := Store.read {} s.timers (p * 16 + n)
def State.setTimer (s : State) (p n : Nat) (v : Timer) : State :=
  { s with timers := Store.write {} s.timers (p * 16 + n) v }
def State.stencil (s : State) (sec e : Nat) : Stencil := Store.read {} s.stencils (sec * 8 + e)
def State.setStencil (s : State) (sec e : Nat) (v : Stencil) : State :=
  { s with stencils := Store.write {} s.stencils (sec * 8 + e) v }
def State.intent (s : State) (p : Nat) : Intent := Store.read {} s.intents p
def State.setIntent (s : State) (p : Nat) (v : Intent) : State :=
  { s with intents := Store.write {} s.intents p v }
def State.budget (s : State) (p i : Nat) : Budget := Store.read {} s.budgets (p * 64 + i)
def State.setBudget (s : State) (p i : Nat) (v : Budget) : State :=
  { s with budgets := Store.write {} s.budgets (p * 64 + i) v }
def State.port (s : State) (p n : Nat) : EthPort := Store.read {} s.ports (p * 2 + n)
def State.setPort (s : State) (p n : Nat) (v : EthPort) : State :=
  { s with ports := Store.write {} s.ports (p * 2 + n) v }
def State.journal (s : State) (p : Nat) : Journal := Store.read {} s.journals p
def State.setJournal (s : State) (p : Nat) (v : Journal) : State :=
  { s with journals := Store.write {} s.journals p v }
def State.handover (s : State) (sl : Nat) : Handover := Store.read {} s.handovers sl
def State.setHandover (s : State) (sl : Nat) (v : Handover) : State :=
  { s with handovers := Store.write {} s.handovers sl v }

/-! ### What RO fields show (R8) -/

/-- The state as the hardware's work of the last tick left the parts of it that RO fields show. -/
def State.asShown (s : State) : State :=
  let v := s.shown
  { s with
    regs := v.regs, twq := v.twq, waiting := v.waiting, evArrived := v.evArrived, evPend := v.evPend,
    evServ := v.evServ, evtLow := v.evtLow, cmps := v.cmps, sweeps := v.sweeps, pairs := v.pairs, trips := v.trips, slots := v.slots,
    engines := v.engines, threads := v.threads, cores := v.cores, panels := v.panels, stencils := v.stencils,
    ports := v.ports, journals := v.journals }

/-- What RO fields show is what they hold now. -/
def State.showNow (s : State) : State :=
  { s with shown :=
    { regs := s.regs, twq := s.twq, waiting := s.waiting, evArrived := s.evArrived, evPend := s.evPend,
      evServ := s.evServ, evtLow := s.evtLow, cmps := s.cmps, sweeps := s.sweeps, pairs := s.pairs, trips := s.trips, slots := s.slots,
      engines := s.engines, threads := s.threads, cores := s.cores, panels := s.panels, stencils := s.stencils,
      ports := s.ports, journals := s.journals } }

/-! ### Free values -/

/-- A free value, and the state in which the next one is another (assumption 2). -/
def State.fresh (s : State) : Word × State := (Config.freeValue s.free, { s with free := s.free + 1 })

/-- The key under which what hardware sets in a special register stands. -/
def specialKey (p t num : Nat) : Nat := regKey (17 * 4096 + p * 16 + t) num

/-- Hardware has set flags of a special register in this tick (R8). -/
def State.noteSpecial (s : State) (p t num : Nat) (flags : Word) : State :=
  let k := specialKey p t num
  { s with setNow := Store.write 0 s.setNow k (Store.read 0 s.setNow k ||| flags) }

/-- The bits that a write of a special register clears: a flag that hardware sets in the very core cycle stays (R8). Which
cycles of the tick the two fall into is free (assumption 129). -/
def State.clearing (s : State) (p t num : Nat) (v : Word) : Word × State :=
  let m := Store.read 0 s.setNow (specialKey p t num) &&& v
  if m = 0 then (v, s)
  else
    let (x, u) := s.fresh
    (if bit x.toNat 0 then v &&& ~~~m else v, u)

/-- A free value of plain data, and the state in which the next one is another (assumption 2). -/
def State.anything (s : State) (α : Type) [Inhabited α] : α × State :=
  (Config.anything s.free, { s with free := s.free + 1 })

/-! ### Host errors (R3, R4; assumption 8) -/

/-- Blocks that a host error makes unpredictable as a whole. The trip network keeps its configuration, and the package
pages serve every slice (R4). -/
def mayUpset : Block → Bool
  | .pwmp | .fadc | .madc | .wcmp | .sweep | .loop | .twq | .sten | .scr | .ddrc | .jrnl | .intnPartner
  | .intnChannel | .eth | .dma | .tmr => true
  | _ => false

/-- Blocks whose records alone a host error makes unpredictable: the trip network keeps its configuration and its latches,
a slice's mode stays, and other slices are served on (R4). -/
def mayBlur : Block → Bool
  | .trip | .modeSlice | .hovr => true
  | _ => false

/-- A field of a ground block that says where the block acts: a ring in memory and the freeze line it drives, the pair and
the engine of a slot, the target of a sweep, and the polarity that a pair's safe state has (R4). -/
def reaching (pk : Nat) (f : FieldRow) : Bool :=
  match blockOf pk with
  | some (.fadc, _) =>
    decide (f.fld.off = 0x128) || decide (f.fld.off = 0x130) || decide (f.fld.off = 0x138)
      || decide (f.fld = FADC_TRIG.LINK_OUT)
  | some (.pwmp, _) => decide (f.fld = PWMP_CFG.INV_A) || decide (f.fld = PWMP_CFG.INV_B)
  | some (.loop, _) =>
    decide (f.fld = LOOP_CFG.PAIR) || decide (f.fld = LOOP_CFG.TARGET) || decide (f.fld = LOOP_ENGINE.ENGINE)
  | some (.sweep, _) => decide (f.fld = SWEEP_CFG.TARGET)
  | _ => false

/-- A field that only records what has been: the cause and the counts of a pair's trips, of a slice's mode changes and of
a handover. -/
def recording (pk : Nat) (f : FieldRow) : Bool :=
  match blockOf pk with
  | some (.trip, _) => decide (0x230 ≤ f.fld.off) && (decide (f.fld.off % 64 = 0x30) || decide (f.fld.off % 64 = 0x38))
  | some (.modeSlice, _) => decide (f.fld = MODE_STATE.LAST_CAUSE) || decide (f.fld = MODE_STATE.REFUSED)
  | some (.hovr, _) => decide (0x130 ≤ f.fld.off)
  | _ => false

/-- Fields of an unpredictable block that take any value: every one of a ground block but those that say where it acts,
the records of a trip, mode or handover page, and the flags and results of a panel block, whose configuration names what
it may reach (R4). -/
def upsetField (pk : Nat) (f : FieldRow) : Bool :=
  match blockOf pk with
  | some (b, _) =>
    if mayBlur b then recording pk f
    else if isSectorPage pk then !reaching pk f
    else decide (f.acc = .ro) || decide (f.acc = .w1c)
  | none => false

/-- A configuration word with its polarity bits as they were. -/
def keepPolarity (old new : Nat) : Nat := new % 256 + old / 256 % 4 * 256 + new / 1024 * 1024

/-- The registers of a page's block take free values. -/
def State.freeRegs (s : State) (pk : Nat) : State :=
  match blockOf pk with
  | none => s
  | some (b, _) =>
    (blockRows b).foldl (fun u r => (List.range r.count).foldl (fun v i =>
      let off := r.first + i * r.stride
      let (x, v1) := v.fresh
      v1.setReg pk off (((fieldsAt pk off).filter (upsetField pk)).foldl
        (fun y f => putBits y f.fld.hi f.fld.lo (bits x f.fld.hi f.fld.lo)) (v1.reg pk off))) u) s

/-- The unit behind a page takes a free state. What it has stored for other blocks stays: it writes nothing that it was
not told to write (R4). -/
def State.freeUnit (s : State) (pk : Nat) : State :=
  let w := windowOf pk
  match blockOf pk with
  | some (.pwmp, i) =>
    let (v, u) := s.anything Pair
    u.setPair w i { v with leader := v.leader % 17, cfg := keepPolarity (s.pair w i).cfg v.cfg }
  | some (.fadc, i) =>
    let (v, u) := s.anything Conv
    u.setConv w i { v with pack := (s.conv w i).pack, line := (s.conv w i).line }
  | some (.madc, _) =>
    let (v, u) := s.anything Monitor
    u.setMonitor w { v with entry := v.entry % 16 }
  | some (.wcmp, i) =>
    let (v, u) := s.anything Comparator
    u.setCmp w i v
  | some (.sweep, _) =>
    let (v, u) := s.anything Sweep
    u.setSweep w { v with target := (s.sweep w).target }
  | some (.loop, i) =>
    let (v, u) := s.anything LoopSlot
    u.setSlot w i { v with out := (s.slot w i).out, evals := (s.slot w i).evals }
  | some (.sten, i) =>
    let (v, u) := s.anything Stencil
    u.setStencil w i { v with row := v.row % 32, rows := (s.stencil w i).rows }
  | some (.tmr, i) =>
    let (v, u) := s.anything Timer
    u.setTimer (w - 8) i v
  | _ => s

/-- What an unpredictable block shows and does is free anew. -/
def State.scramble (s : State) (pk : Nat) : State := (s.freeRegs pk).freeUnit pk

/-- A host error on a page (R3): its block is unpredictable from now until a reset reaches it. -/
def State.err (s : State) (pk : Nat) : State :=
  match blockOf pk with
  | some (b, _) =>
    if mayUpset b || mayBlur b then
      { s with upset := if s.upset.contains pk then s.upset else s.upset ++ [pk] }.scramble pk
    else s
  | none => s

/-- Each unpredictable block shows and does something else at the next tick. -/
def State.tickUpset (s : State) : State := s.upset.foldl (fun u pk => u.scramble pk) s

/-- A free number within bounds: what an encoding counts as that its table does not list (R3, R4; assumption 8). -/
def State.freeWithin (s : State) (lo hi : Nat) : Nat × State :=
  let (x, u) := s.fresh
  (lo + x.toNat % (hi + 1 - lo), u)

/-! ### Slices, modes, ownership -/

/-- Whether a slice number lies within the variant (R24). -/
def State.present (s : State) (sl : Nat) : Bool := decide (sl < s.variant.slices)

/-- Slices of the variant. -/
def State.slices (s : State) : List Nat := List.range s.variant.slices

/-- No canvas tick passes: the package is in cold reset, or a tick edge is missing (R119, R331). -/
def State.timeStands (s : State) : Bool :=
  decide (s.boot = .cold) || s.slices.any (fun sl => (s.trip sl).clockMissing)

/-- The mode codes (R343). -/
def PRIME : Nat := 0
def COMMISSION : Nat := 1
def RUN : Nat := 2
def HOLD : Nat := 3
def REST : Nat := 4
def HANDOVER : Nat := 5

def State.mode (s : State) (sl : Nat) : Nat := s.fld (modePage sl) MODE_STATE.MODE
def State.under (s : State) (sl : Nat) : Nat := s.fld (modePage sl) MODE_STATE.UNDER

/-- The mode that the units of a sector follow (R324). -/
def State.shownMode (s : State) (sl : Nat) : Nat :=
  if s.mode sl = REST ∨ s.mode sl = HANDOVER then s.under sl else s.mode sl

/-- The mode by which R113, R117, R120 and R125 treat a sector, as a command of this tick has set it (R37, R324). -/
def State.sectorMode (s : State) (sl : Nat) : Nat := (s.panel sl).soon.getD (s.shownMode sl)

/-- Whether RWC fields of a page may be written: the governing slices are in `COMMISSION` (R7). -/
def State.commissioned (s : State) (pk : Nat) : Bool :=
  if windowOf pk < 16 then decide (s.mode (windowOf pk % 8) = COMMISSION)
  else match packageBlock (pk % 4096) with
    | some (.modeSlice, i) => decide (s.mode i = COMMISSION)
    | some (.hovr, i) => decide (s.mode i = COMMISSION)
    | _ => s.slices.all (fun sl => decide (s.mode sl = COMMISSION))

/-- The partner panel (R11). -/
def partner (p : Nat) : Nat := p ^^^ 1

def State.owner (s : State) (pk : Nat) : Nat := s.fld pk HEAD.PANEL
def State.adopted (s : State) (pk : Nat) : Bool := s.flag pk HEAD.ADOPTED
def State.orphaned (s : State) (pk : Nat) : Bool := s.flag pk HEAD.ORPHANED

/-- The panel that holds a page's write rights and receives its events (R11, R12). -/
def State.holder (s : State) (pk : Nat) : Nat :=
  if isPanelPage pk then windowOf pk - 8
  else if s.adopted pk then partner (s.owner pk) else s.owner pk

/-- Whether the page index assigns a page that the variant has (R24, R376, R379). -/
def State.pageThere (s : State) (pk : Nat) : Bool :=
  match blockOf pk with
  | none => false
  | some (b, i) =>
    if windowOf pk < 16 then s.present (windowOf pk % 8)
    else match b with
      | .modeSlice => s.present i
      | .hovr => s.present i
      | _ => true

/-- The panel an agent sits on; Easel sits on none. -/
def agentPanel : Agent → Option Nat
  | .thread t => some t.panel
  | .dma p _ => some p
  | .manager p _ => some p
  | .intent p _ => some p
  | .easel => none

/-- Origin numbers (R19), for agents that write on their own panel's behalf. -/
def agentOrigin : Agent → Nat
  | .thread t => 256 * t.panel + t.index
  | .dma p c => 256 * p + 16 + c
  | .manager p n => 256 * p + 48 + n
  | .intent p i => 256 * p + 64 + i
  | .easel => 2047

/-! ### Lifecycle and secure accesses (R353, R372) -/

def State.lifecycle (s : State) : Nat := s.fuses.state

def State.unlock (s : State) : Nat := s.fld lifePage LIFE_STATE.UNLOCK

/-- Easel accesses are secure in `BLANK`, in `DEVELOP`, and in `PRODUCTION` under an unlock of scope 1. -/
def State.easelSecure (s : State) : Bool :=
  decide (s.lifecycle = 0) || decide (s.lifecycle = 1) || (decide (s.lifecycle = 2) && decide (s.unlock = 2))

/-- Easel may reach other pages, memory and threads (R372). -/
def State.easelOpen (s : State) : Bool :=
  decide (s.lifecycle = 0) || decide (s.lifecycle = 1) || decide (s.lifecycle = 3)
    || (decide (s.lifecycle = 2) && decide (s.unlock ≠ 0))

/-- A data access of a thread is secure when it is privileged, not adopted, and its code lies in the secure
range (R353). -/
def State.threadSecure (s : State) (p t : Nat) : Bool :=
  let th := s.thread p t
  let base := s.fld lifePage (LIFE_SECURE.BASE.at (8 * p)) * 4096
  let size := s.fld lifePage (LIFE_SECURE.SIZE.at (8 * p)) * 4096
  bit th.status.toNat 8 && decide (th.adopted = none) && decide (base ≤ th.pc) && decide (th.pc < base + size)
    && decide (s.lifecycle < 3)

def State.secure (s : State) : Agent → Bool
  | .thread t => s.threadSecure t.panel t.index
  | .easel => s.easelSecure
  | _ => false

/-! ### Events (R22, R205, R206) -/

/-- The source that an `EVENT` bit of a page belongs to, if the page ever raises it. -/
def sourceOf (pk b : Nat) : Option Nat :=
  match blockOf pk with
  | none => none
  | some (blk, i) =>
    match blk with
    | .pwmp => if b = 0 then some (5 * i) else if b ≤ 3 then some (5 * i + 1) else if b ≤ 5 then some (5 * i + 2)
        else if b ≤ 7 then some (5 * i + 3) else none
    | .trip => if b < 48 then some (5 * (b % 16) + 4) else if b ≤ 50 then some 4 else none
    | .fadc => if b ≤ 8 then some (80 + i) else none
    | .madc => if b ≤ 2 then some (96 + b) else none
    | .wcmp => if b ≤ 3 then some (112 + i) else none
    | .sweep => if b ≤ 2 then some 144 else none
    | .loop => if b ≤ 1 then some (176 + 3 * i + b) else if b ≤ 3 then some (178 + 3 * i) else none
    | .twq => if b ≤ 3 then some (512 + b) else none
    | .canv => if b ≤ 13 then some (512 + b) else none
    | .tmr => if b ≤ 2 then some (224 + 4 * i + b) else if b ≤ 4 then some (227 + 4 * i) else none
    | .sten => if b ≤ 3 then some (288 + 4 * i + b) else none
    | .dma => if b = 0 then some (320 + 2 * i) else if b ≤ 4 then some (321 + 2 * i) else none
    | .eth => if b ≤ 7 then some (384 + 16 * i + b) else none
    | .intnPartner => if b ≤ 5 then some (416 + b) else none
    | .fab => if b ≤ 4 then some (432 + b) else none
    | .ddrc => if b ≤ 7 then some (448 + b) else none
    | .scr => if b ≤ 7 then some (464 + b) else none
    | .modeSlice => if b ≤ 5 then some (528 + b) else none
    | .modePkg => if b ≤ 2 then some (534 + b) else none
    | .upnt => if b ≤ 2 then some (537 + b) else none
    | .hovr => if b ≤ 3 then some (544 + b) else if b = 4 then some 552 else none
    | .jrnl => if b ≤ 3 then some (548 + b) else none
    | .life => if b ≤ 5 then some (560 + b) else none
    | .easl => if b ≤ 5 then some (568 + b) else none
    | .leng | .evc | .dmaAlloc | .tmrGlobal | .stenGroup | .intnChannel => none

/-- The pages that can raise a source, seen by panel `p`. -/
def State.sourcePages (s : State) (p src : Nat) : List Nat :=
  let sectors (n : Nat) := s.slices.map (fun sl => sectorPage sl n)
  if src < 80 then sectors (if src % 5 = 4 then 16 else src / 5)
  else if src < 96 then sectors (32 + (src - 80))
  else if src < 112 then sectors 48
  else if src < 144 then sectors (64 + (src - 112))
  else if src < 176 then sectors 96
  else if src < 224 then sectors (128 + (src - 176) / 3)
  else if src < 288 then [tmrPage p ((src - 224) / 4)]
  else if src < 320 then sectors (176 + (src - 288) / 4)
  else if src < 384 then [dmaPage p ((src - 320) / 2)]
  else if src < 416 then [ethPage p ((src - 384) / 16)]
  else if src < 432 then [intnPage p]
  else if src < 448 then [fabPage p]
  else if src < 464 then [ddrcPage p]
  else if src < 480 then [scrPage p]
  else if src < 512 then []
  else if src < 516 then canvPage :: sectors 160
  else if src < 528 then [canvPage]
  else if src < 534 then s.slices.map modePage
  else if src < 537 then [modePkgPage]
  else if src < 544 then [upntPage]
  else if src < 548 ∨ src = 552 then s.slices.map hovrPage
  else if src < 552 then [jrnlPage p]
  else if src < 560 then []
  else if src < 568 then [lifePage]
  else if src < 576 then [easlPage]
  else []

/-- A page's enabled event bits of one source. -/
def State.pageRaises (s : State) (pk src : Nat) : Bool :=
  let live := (s.reg pk 0x020 &&& s.reg pk 0x028).toNat
  (List.range 64).any (fun b => bit live b && decide (sourceOf pk b = some src))

/-- Whether a page's events go to a table of a panel: 0 own, 1 adopted (R11, R205, R212). -/
def State.feeds (s : State) (pk p table : Nat) : Bool :=
  if isPanelPage pk then decide (windowOf pk - 8 = p) && decide (table = 0)
  else decide (s.holder pk = p) && (s.adopted pk == decide (table = 1)) && !s.orphaned pk

/-- Whether a source is active now (R201, R205, R386): a controller knows of a pin's rise when its transfer has come. -/
def State.sourceActive (s : State) (p table src : Nat) : Bool :=
  if 480 ≤ src ∧ src < 496 then
    decide (table = 0) && decide (2 ^ 62 ≤ (s.thread p (src - 480)).imprecise.toNat)
  else if 496 ≤ src ∧ src < 512 then
    let f := (s.thread p (src - 496)).flags.toNat
    decide (table = 0) && bit f 8 && bit f 2
  else if 576 ≤ src ∧ src < 592 then
    decide (table = 0) && (bit s.evtLow.toNat (src - 576) || Store.read false s.evArrived ((p * 2 + table) * 1024 + src))
  else (s.sourcePages p src).any (fun pk => s.feeds pk p table && s.pageRaises pk src)

def evKey (p table src : Nat) : Nat := (p * 2 + table) * 1024 + src

/-- A field of a source's entry in `EVC_SRC` (R213). -/
def State.srcCfg (s : State) (p table src hi lo : Nat) : Nat :=
  let w := s.reg (evcPage p table) (0x400 + 8 * (src / 2))
  bits w (hi + 32 * (src % 2)) (lo + 32 * (src % 2))

def State.srcPrio (s : State) (p table src : Nat) : Nat := s.srcCfg p table src 4 0
def State.srcThread (s : State) (p table src : Nat) : Nat :=
  4 * s.srcCfg p table src 8 7 + s.srcCfg p table src 6 5
def State.srcEdge (s : State) (p table src : Nat) : Bool := s.srcCfg p table src 9 9 != 0
def State.srcWatch (s : State) (p table src : Nat) : Bool := s.srcCfg p table src 10 10 != 0

def State.inService (s : State) (p table src : Nat) : Bool := Store.read false s.evServ (evKey p table src)

/-- Whether a source is pending (R206). -/
def State.srcPending (s : State) (p table src : Nat) : Bool :=
  decide (s.srcPrio p table src ≠ 0) &&
    (if s.srcEdge p table src then Store.read false s.evPend (evKey p table src)
     else Store.read false s.evArrived (evKey p table src) && s.sourceActive p table src)

/-- A thread leaves a wait for an event (R208). -/
def State.endWait (s : State) (p t : Nat) : State :=
  if (s.thread p t).park = some .wfe then s.setThread p t { s.thread p t with park := none } else s

/-- A thread parked in `WFE` leaves parking when a source routed to it, and not in service, becomes pending (R208). -/
def State.wakeWaiter (s : State) (p table src : Nat) : State :=
  if s.srcPending p table src = true ∧ s.inService p table src = false then s.endWait p (s.srcThread p table src) else s

/-- A source's change to active reaches the controller: a level source is seen, an edge source pends, in service too,
once however often it changes (R206, R208). -/
def State.arrive (s : State) (p table src : Nat) : State :=
  let k := evKey p table src
  let s1 := { s with evArrived := Store.write false s.evArrived k true }
  if s.srcEdge p table src = true ∧ s.srcPrio p table src ≠ 0 then
    if Store.read false s.evPend k then s1
    else State.endWait { s1 with evPend := Store.write false s1.evPend k true } p (s.srcThread p table src)
  else s1.wakeWaiter p table src

/-- Sources that have reached a panel's controller, as table and source. -/
def State.listedSources (s : State) (p : Nat) : List (Nat × Nat) :=
  (((s.evArrived ++ s.evPend).map Prod.fst).filter (fun k => decide (k / 2048 = p))).map
    (fun k => (k / 1024 % 2, k % 1024))

/-- Pending sources routed to a thread and not in service (R207, R209). -/
def State.candidates (s : State) (p t : Nat) : List (Nat × Nat) :=
  (s.listedSources p).filter (fun x =>
    decide (s.srcThread p x.1 x.2 = t) && !s.inService p x.1 x.2 && s.srcPending p x.1 x.2)

/-- A source that was inactive became active: a transfer carries it to the receiving controller (R22), or it
pends at once when it was raised on the panel's own page. The due time is counted in ticks since `PRIME`, so that a step of
canvas time moves no event on its way (assumption 92). -/
def State.signal (s : State) (pk src : Nat) : State :=
  if s.orphaned pk && !isPanelPage pk then s
  else
    let p := s.holder pk
    let table := if isPanelPage pk then 0 else if s.adopted pk then 1 else 0
    let s1 := { s with evArrived := Store.write false s.evArrived (evKey p table src) false }
    if isPanelPage pk then s1.arrive p table src
    else
      let transit := if isSectorPage pk ∧ table = 0 ∧ windowOf pk = p then 10 else 30
      { s1 with events := s1.events ++ [⟨p, decide (table = 1), src, s.ticks + transit, false⟩] }

/-- An occurrence of an event of a page: its `EVENT` bit is set, and its source, if it becomes active, is
signalled (R22, R205, R377). -/
def State.raise (s : State) (pk b : Nat) : State :=
  match sourceOf pk b with
  | none => s
  | some src =>
    let p := s.holder pk
    let table := if isPanelPage pk then 0 else if s.adopted pk then 1 else 0
    let was := s.sourceActive p table src
    let k := regKey pk 0x020
    let s1 := { s.setReg pk 0x020 (BitVec.ofNat 64 (putBit (s.reg pk 0x020).toNat b true)) with
      setNow := Store.write 0 s.setNow k (Store.read 0 s.setNow k ||| (1#64 <<< b)) }
    if bit (s.reg pk 0x028).toNat b && !was then s1.signal pk src else s1

/-- Sources that a page's enabled bits make active, and that were not active in an earlier state, are signalled (R22,
R205). -/
def State.signalEnabled (s before : State) (pk : Nat) : State :=
  let p := s.holder pk
  let table := if isPanelPage pk then 0 else if s.adopted pk then 1 else 0
  let srcs := ((List.range 64).filterMap (fun b =>
    if bit (s.reg pk 0x020 &&& s.reg pk 0x028).toNat b then sourceOf pk b else none)).dedup
  srcs.foldl (fun u src => if before.sourceActive p table src then u else u.signal pk src) s

def State.raiseIf (s : State) (c : Bool) (pk b : Nat) : State := if c then s.raise pk b else s

/-- Raise every bit of a mask. -/
def State.raiseMask (s : State) (pk : Nat) (mask : Word) : State :=
  (List.range 64).foldl (fun t b => if bit mask.toNat b then t.raise pk b else t) s

/-! ### Memory (R169, R218, R375) -/

/-- The empty word: class `VOID`, subfield 0. -/
def voidWord : TWord := 0xE00000000000000000#72

def memKey (p addr : Nat) : Nat := p * 2 ^ 45 + addr / 8

def State.word (s : State) (p addr : Nat) : TWord := Store.read voidWord s.mem (memKey p addr)

/-- A whole-word write: it also ends an uncorrectable or poisoned reading of that word (R228, R240). -/
def State.setWord (s : State) (p addr : Nat) (w : TWord) : State :=
  let k := memKey p addr
  let line := (List.range 16).map (fun i => k / 16 * 16 + i)
  let bad := if s.poisoned.contains (k / 16) then s.badWords ++ line else s.badWords
  { s with mem := Store.write voidWord s.mem k w,
           badWords := bad.filter (fun j => decide (j ≠ k)),
           poisoned := s.poisoned.filter (fun j => decide (j ≠ k / 16)),
           flips := s.flips.filter (fun f => decide (f.key ≠ k) || decide (f.array = 2) || decide (f.array = 4)) }

/-- The state with every word of a range of a panel's memory empty. -/
def State.wipe (s : State) (p first size : Nat) : State :=
  { s with mem := s.mem.filter (fun e => decide (e.1 < memKey p first) || decide (memKey p (first + size) ≤ e.1)),
           badWords := s.badWords.filter
             (fun k => decide (k < memKey p first) || decide (memKey p (first + size) ≤ k)),
           poisoned := s.poisoned.filter
             (fun k => decide (16 * k < memKey p first) || decide (memKey p (first + size) ≤ 16 * k)),
           flips := s.flips.filter
             (fun f => decide (f.key < memKey p first) || decide (memKey p (first + size) ≤ f.key)) }

/-- Whether a word reads uncorrectable from its bank, its L2 or its DRAM (R228, R240). -/
def State.bad (s : State) (p addr : Nat) : Bool :=
  s.badWords.contains (memKey p addr) || s.poisoned.contains (memKey p addr / 16)
    || s.flips.any (fun f => decide (f.key = memKey p addr) && f.fatal && decide (f.array ≤ 1))

def tagOf (w : TWord) : Nat := w.toNat / 2 ^ 64
def payload (w : TWord) : Word := w.setWidth 64
def tword (tag : Nat) (v : Word) : TWord := BitVec.ofNat 72 (tag % 256 * 2 ^ 64 + v.toNat)
def raw (v : Word) : TWord := tword 0 v

def dramBase : Nat := 0x10000000000

/-- Where an address of a panel's view leads (R375). -/
inductive Region where
  | scratch (bank : Nat)
  | page (pk off : Nat)
  | dram (addr : Nat)
  | remote (panel addr : Nat)
  | unmapped
  deriving DecidableEq, Repr

def regionOf (p addr : Nat) : Region :=
  if addr < 0x200000 then .scratch (addr / 0x40000)
  else if 0x40000000 ≤ addr ∧ addr < 0x40100000 then
    .page (panelPage p ((addr - 0x40000000) / 4096)) (addr % 4096)
  else if 0x80000000 ≤ addr ∧ addr < 0x88000000 then
    .page (sectorPage ((addr - 0x80000000) / 0x1000000) ((addr - 0x80000000) % 0x1000000 / 4096)) (addr % 4096)
  else if 0xF0000000 ≤ addr ∧ addr < 0xF1000000 then
    .page (packagePage ((addr - 0xF0000000) / 4096)) (addr % 4096)
  else if dramBase ≤ addr ∧ addr < 2 * dramBase then .dram addr
  else if 0x100000000000 ≤ addr ∧ addr < 0x100000000000 + 8 * dramBase then
    .remote ((addr - 0x100000000000) / dramBase) (dramBase + (addr - 0x100000000000) % dramBase)
  else .unmapped

/-- Device space (R179, R375). -/
def deviceSpace (addr : Nat) : Bool := decide (0x40000000 ≤ addr) && decide (addr ≤ 0xFFFFFFFF)

def State.dramBytes (s : State) (p : Nat) : Nat := s.fld (ddrcPage p) DDRC_MODULE.CAPACITY * 2 ^ 30

/-- The own DRAM window answers (R233, R234, R376). -/
def State.dramThere (s : State) (p addr : Nat) : Bool :=
  s.flag (ddrcPage p) DDRC_STATE.TRAINED && decide (addr - dramBase < s.dramBytes p)

/-- State of a bank: 0 on, 1 retention, 2 off; a bank counts as on only when its status shows it on and it is
not commanded otherwise (R223). -/
def State.bankOn (s : State) (p b : Nat) : Bool :=
  decide (s.fld (scrPage p) ⟨0x108, 2 * b + 1, 2 * b⟩ = 0) && decide (s.fld (scrPage p) ⟨0x108, 16 + b, 16 + b⟩ = 0)
    && decide (s.fld (scrPage p) ⟨0x100, 2 * b + 1, 2 * b⟩ = 0)

/-! ### Threads' faults -/

/-- A thread meets a fault: the code of R196 and the return address wait for the entry (R199). -/
def State.setFault (s : State) (p t code ret : Nat) : State :=
  let th := s.thread p t
  match th.fault with
  | some _ => s
  | none => s.setThread p t { th with fault := some (code, ret, true) }

/-- Fault codes (R196). -/
def UD : Nat := 1
def PV : Nat := 2
def SB : Nat := 3
def TY : Nat := 4
def AL : Nat := 5
def AC : Nat := 6
def DZ : Nat := 7
def OV : Nat := 8
def BE : Nat := 9
def SI : Nat := 10
def BP : Nat := 11
def FE : Nat := 12
def SO : Nat := 14

/-! ### Bulk traffic -/

/-- A bulk-class transfer has crossed a panel's fabric port (R20, R381; assumption 48). -/
def State.noteBulk (s : State) (p : Nat) : State := s.setPanel p { s.panel p with hasBulk := true }

/-- A transfer between two panels has crossed the ports of both (R20). -/
def State.noteCross (s : State) (p q : Nat) : State := if q = p then s else (s.noteBulk p).noteBulk q

/-- A core uses a compared output, in the coding of `CORE_LOCKSTEP.OUTPUT` (R164): of interest where a difference has been
injected (R368). -/
def State.noteOutput (s : State) (p c output : Nat) : State :=
  if (s.core p c).inject = none then s else { s with outputs := (p, c, output) :: s.outputs }

/-! ### Easel halt and panel availability -/

def State.halted (s : State) (p : Nat) : Bool := (s.panel p).halted || (s.panel p).halting

/-- The panel's threads may fetch: its island runs, it is neither in reset, held nor halted (R309, R329, R364). -/
def State.panelLive (s : State) (p : Nat) : Bool :=
  let pn := s.panel p
  s.present p && !pn.held && pn.resetting.isNone && !pn.island && !pn.halted && !pn.halting && pn.restFrom.isNone
    && decide (s.boot = .done)

end Sys2Proof.Machine
end

