-- ==== Sys2Proof/Machine/Cache.lean ====
section
/-! DEFINITION. The caches of a panel and the errors that strike its arrays (R147, R156, R166, R226 to R229, R240): sets
and their replacement, the shared L2, the L1 caches and line buffers of the cores, and writes through the L2. -/

namespace Sys2Proof.Machine

open Sys2Proof

/-! ### Sets and tree pseudo-LRU (R156, R166; assumption 103) -/

/-- The tree after a use of way `w`: each node on its path points away from it. The subtree at `node` has `2^k` ways. -/
def treeUse (w : Nat) : Nat → Nat → Nat → Nat
  | 0, _, tree => tree
  | k + 1, node, tree => treeUse w k (2 * node + (bit w k).toNat) (putBit tree node (!bit w k))

/-- The way that the tree names among the allowed ones. -/
def treeVictim (allowed : Nat → Bool) (tree : Nat) : Nat → Nat → Nat → Nat
  | 0, _, base => base
  | k + 1, node, base =>
    let b := bit tree node
    let may := (List.range (2 ^ k)).any (fun i => allowed ((2 * base + b.toNat) * 2 ^ k + i))
    let c := if may then b else !b
    treeVictim allowed tree k (2 * node + c.toNat) (2 * base + c.toNat)

/-- The way that holds a line. -/
def CacheSet.way (c : CacheSet) (line : Nat) : Option Nat :=
  (c.ways.find? (fun e => decide (e.2 = line + 1))).map Prod.fst

/-- The line that a way holds. -/
def CacheSet.line (c : CacheSet) (w : Nat) : Option Nat :=
  match Store.read 0 c.ways w with
  | 0 => none
  | n + 1 => some n

/-- The way that a fill takes: the lowest empty one, or the one that the tree names (R156, R166). -/
def CacheSet.victim (c : CacheSet) (depth : Nat) (allowed : Nat → Bool) : Option Nat :=
  let ways := (List.range (2 ^ depth)).filter allowed
  match ways.find? (fun w => (c.line w).isNone) with
  | some w => some w
  | none => if ways = [] then none else some (treeVictim allowed c.tree depth 1 0)

/-- A line placed in a way. -/
def CacheSet.put (c : CacheSet) (depth w line : Nat) : CacheSet :=
  ⟨Store.write 0 c.ways w (line + 1), putBit c.dirty w false, treeUse w depth 1 c.tree⟩

/-- A way used, and written or not. -/
def CacheSet.use (c : CacheSet) (depth w : Nat) (write : Bool) : CacheSet :=
  { c with dirty := if write then putBit c.dirty w true else c.dirty, tree := treeUse w depth 1 c.tree }

/-- A way emptied. -/
def CacheSet.empty (c : CacheSet) (w : Nat) : CacheSet :=
  { c with ways := Store.write 0 c.ways w 0, dirty := putBit c.dirty w false }

/-! ### Check codes (R226 to R232) -/

/-- An error found in an array, with its reader's port: arrays 0 scratch, 1 L2 data, 2 and 3 L1, 4 L2 tag. -/
def State.noteEcc (s : State) (p array port addr : Nat) (ue : Bool) : State :=
  let pk := scrPage p
  let s1 := ((((s.mark pk SCR_ECC_LAST.VALID).setFld pk SCR_ECC_LAST.UE ue.toNat).setFld
    pk SCR_ECC_LAST.ARRAY array).setFld pk SCR_ECC_LAST.PORT port).setFld pk SCR_ECC_LAST.ADDR (addr % 2 ^ 48)
  if array = 0 then
    if ue then (s1.count pk SCR_ECC_COUNTS.SCR_UE 1).raise pk 1 else (s1.count pk SCR_ECC_COUNTS.SCR_CE 1).raise pk 0
  else if array = 1 ∨ array = 4 then
    if ue then (s1.count pk SCR_ECC_COUNTS.L2_UE 1).raise pk 3 else (s1.count pk SCR_ECC_COUNTS.L2_CE 1).raise pk 2
  else if ue then (s1.count pk SCR_L1_COUNT.COUNT 1).raise pk 4
  else s1

/-- The address of a word within its panel. -/
def keyAddr (k : Nat) : Nat := k % 2 ^ 45 * 8

/-- The keys of so many words of a panel from an address. -/
def wordKeys (p addr n : Nat) : List Nat := (List.range n).map (fun i => memKey p addr + i)

/-- The errors that stand in an array of a panel, or of one of its cores, among words of these keys. -/
def State.errorsIn (s : State) (array core : Nat) (keys : List Nat) : List Flip :=
  s.flips.filter (fun f => decide (f.array = array) && decide (f.core = core) && keys.contains f.key)

/-- Single-bit errors met by a read are corrected, written back and counted (R226). -/
def State.correct (s : State) (p array core port : Nat) (keys : List Nat) : State :=
  let l := (s.errorsIn array core keys).filter (fun f => !f.fatal)
  l.foldl (fun u f => u.noteEcc p array port (keyAddr f.key) false)
    { s with flips := s.flips.filter (fun f => !l.contains f) }

/-- A read meets an uncorrectable word of an array. -/
def State.fatalIn (s : State) (array core : Nat) (keys : List Nat) : Bool :=
  (s.errorsIn array core keys).any (fun f => f.fatal)

/-! ### The L2 (R147, R166, R240) -/

def State.l2Set (s : State) (p line : Nat) : CacheSet := Store.read {} (s.panel p).l2 (line % 1024)

def State.setL2 (s : State) (p line : Nat) (c : CacheSet) : State :=
  s.setPanel p { s.panel p with l2 := Store.write {} (s.panel p).l2 (line % 1024) c }

def State.inL2 (s : State) (p line : Nat) : Bool := ((s.l2Set p line).way line).isSome

/-- A line of the L2 is used, where it holds it. -/
def State.useL2 (s : State) (p line : Nat) (write : Bool) : State :=
  match (s.l2Set p line).way line with
  | none => s
  | some w => s.setL2 p line ((s.l2Set p line).use 4 w write)

/-- Keys that stand for the tag entries of a line's set (R229): the first word of each line there. -/
def State.tagKeys (s : State) (p line : Nat) : List Nat :=
  (s.l2Set p line).ways.map (fun e => memKey p (128 * (e.2 - 1)))

/-- A lookup meets an uncorrectable tag or state entry (R229). -/
def State.tagLost (s : State) (p line : Nat) : Bool := s.fatalIn 4 0 (s.tagKeys p line)

/-- The lost tag or state entry that a lookup meets is recorded (R229, R231). -/
def State.noteTag (s : State) (p line port : Nat) : State :=
  s.noteEcc p 4 port (match (s.errorsIn 4 0 (s.tagKeys p line)).find? (fun f => f.fatal) with
    | some f => keyAddr f.key
    | none => 128 * line) true

/-- A write that no reader waits for meets a lost tag or state entry: nothing is written, and the panel fails (R229). -/
def State.hitTag (s : State) (p line port : Nat) : State :=
  let u := s.noteTag p line port
  u.setPanel p { u.panel p with tagHit := true }

/-! ### The L1 caches and the line buffer (R147, R149, R156) -/

def State.l1Set (s : State) (p c : Nat) (code : Bool) (line : Nat) : CacheSet :=
  Store.read {} (if code then (s.core p c).l1i else (s.core p c).l1d) (line % 128)

def State.setL1 (s : State) (p c : Nat) (code : Bool) (line : Nat) (v : CacheSet) : State :=
  let x := s.core p c
  s.setCore p c (if code then { x with l1i := Store.write {} x.l1i (line % 128) v }
    else { x with l1d := Store.write {} x.l1d (line % 128) v })

/-- The array number of an L1 cache (R231). -/
def l1Array (code : Bool) : Nat := if code then 2 else 3

/-- A 64-byte line leaves an L1 cache. -/
def State.dropL1 (s : State) (p c : Nat) (code : Bool) (line : Nat) : State :=
  match (s.l1Set p c code line).way line with
  | none => s
  | some w =>
    let s1 := s.setL1 p c code line ((s.l1Set p c code line).empty w)
    let gone := s.errorsIn (l1Array code) c (wordKeys p (64 * line) 8)
    { s1 with flips := s1.flips.filter (fun f => !gone.contains f) }

/-- A line of the L2 enters an L1 cache (R156): words that read uncorrectable never do. -/
def State.fillL1 (s : State) (p c : Nat) (code : Bool) (line : Nat) : State :=
  if (s.l1Set p c code line).way line ≠ none ∨ s.inL2 p (line / 2) = false
      ∨ (List.range 8).any (fun i => s.bad p (64 * line + 8 * i)) = true then s
  else
    match (s.l1Set p c code line).victim 2 (fun _ => true) with
    | none => s
    | some w =>
      let s1 := match (s.l1Set p c code line).line w with
        | some old => s.dropL1 p c code old
        | none => s
      s1.setL1 p c code line ((s1.l1Set p c code line).put 2 w line)

/-- An L1 cache is read (R226, R228): whether it delivers the words of these keys. An uncorrectable one sends the line
back to the L2 as a miss. -/
def State.readL1 (s : State) (p c : Nat) (code : Bool) (line : Nat) (keys : List Nat) : Bool × State :=
  match (s.l1Set p c code line).way line with
  | none => (false, s)
  | some w =>
    match ((s.errorsIn (l1Array code) c keys).find? (fun f => f.fatal)) with
    | some f => (false, (s.dropL1 p c code line).noteEcc p (l1Array code) (1 + c) (keyAddr f.key) true)
    | none => (true, (s.setL1 p c code line ((s.l1Set p c code line).use 2 w false)).correct
        p (l1Array code) c (1 + c) keys)

/-- A line is read into the line buffer of a core, least recently used replaced (R147). -/
def State.bufferLine (s : State) (p c line : Nat) : State :=
  let x := s.core p c
  s.setCore p c { x with lineBuf := line :: (x.lineBuf.filter (fun l => decide (l ≠ line))).take 1 }

/-! ### Fills and evictions (R156, R166, R240) -/

/-- The numbers of a panel's cores. -/
def coreNumbers : List Nat := [0, 1, 2, 3]

/-- A line leaves the L2, and with it every L1 (R147). A dirty one is written back, poisoned where a word of it is
uncorrectable (R228, R240). -/
def State.evict (s : State) (p line : Nat) : State :=
  match (s.l2Set p line).way line with
  | none => s
  | some w =>
    let keys := wordKeys p (128 * line) 16
    let s1 := coreNumbers.foldl (fun u c => [false, true].foldl (fun v code =>
      (v.dropL1 p c code (2 * line)).dropL1 p c code (2 * line + 1)) u) s
    let s2 := if bit (s.l2Set p line).dirty w then
        let s3 := s1.correct p 1 0 7 keys
        match keys.find? (fun k => s3.bad p (keyAddr k)) with
        | none => s3
        | some k =>
          let s4 := s3.noteEcc p 1 7 (keyAddr k) true
          { s4 with
            badWords := s4.badWords.filter (fun j => !keys.contains j),
            poisoned := (memKey p (128 * line) / 16) :: s4.poisoned.filter
              (fun j => decide (j ≠ memKey p (128 * line) / 16)) }
      else s1
    let gone := s2.errorsIn 1 0 keys ++ s2.errorsIn 4 0 [memKey p (128 * line)]
    { s2 with flips := s2.flips.filter (fun f => !gone.contains f) }.setL2 p line ((s2.l2Set p line).empty w)

/-- The ways that a fill of a core may use (R166): without `WAYS` every unlocked one, else those of `WAYS`, of which a
locked one takes a line only while it is empty. -/
def State.fillWays (s : State) (p c line w : Nat) : Bool :=
  let ways := (s.core p c).l2fill
  let locked := bit (s.panel p).l2lock.toNat w
  if ways = 0 then !locked else bit ways.toNat w && (!locked || ((s.l2Set p line).line w).isNone)

/-- A line is filled into the L2 for a core; where no way may take it, it is not allocated (R166). -/
def State.fillL2 (s : State) (p c line : Nat) : State :=
  if s.inL2 p line then s
  else
    match (s.l2Set p line).victim 4 (s.fillWays p c line) with
    | none => s
    | some w =>
      let s1 := match (s.l2Set p line).line w with
        | some old => s.evict p old
        | none => s
      s1.setL2 p line ((s1.l2Set p line).put 4 w line)

/-- A write of a panel's DRAM passes through its L2 (R156): a core's store allocates its line, another agent's changes
the L2 only where it holds the line (R380; assumption 104). The line leaves the L1 data caches of the other cores. -/
def State.throughL2 (s : State) (p addr : Nat) (core : Option Nat) : State :=
  if addr < dramBase then s
  else
    let line := addr / 128
    let s1 := match core with
      | some c => (s.noteOutput p c 0).fillL2 p c line
      | none => s
    coreNumbers.foldl (fun u c => if core = some c then u else u.dropL1 p c false (addr / 64)) (s1.useL2 p line true)

/-- A whole word written by an agent other than a core's store. -/
def State.putMem (s : State) (p addr : Nat) (w : TWord) : State :=
  if dramBase ≤ addr ∧ s.tagLost p (addr / 128) = true then s.hitTag p (addr / 128) 6
  else (s.throughL2 p addr none).setWord p addr w

/-- Errors strike cells of a panel's arrays (R226); a cache cell that holds nothing shows none. -/
def State.strike (s : State) (p : Nat) (l : List Upset) : State :=
  l.foldl (fun u x =>
    let a := x.addr.toNat / 8 * 8
    let held := match x.array.val with
      | 0 => decide (a < 0x200000)
      | 2 => ((u.l1Set p x.core true (a / 64)).way (a / 64)).isSome
      | 3 => ((u.l1Set p x.core false (a / 64)).way (a / 64)).isSome
      | _ => u.inL2 p (a / 128)
    let core := if x.array.val = 2 ∨ x.array.val = 3 then x.core.val else 0
    let key := memKey p (if x.array.val = 4 then a / 128 * 128 else a)
    if held then
      { u with flips := ⟨x.array, core, key, x.fatal⟩ ::
          u.flips.filter (fun f => !(decide (f.array = x.array.val) && decide (f.core = core) && decide (f.key = key))) }
    else u) s

/-! ### The L2 of a panel reset (R333) -/

/-- The lines that a panel's L2 holds, each with its way and whether it is dirty. -/
def State.l2Lines (s : State) (p : Nat) : List (Nat × Nat × Bool) :=
  ((s.panel p).l2.map (fun e => e.2.ways.map (fun w => (w.2 - 1, w.1, bit e.2.dirty w.1)))).flatten

/-- A dirty line whose tag entry is lost is never written back: what DRAM holds of it is older than what was read from
the L2, and free (assumption 105). -/
def State.loseTagged (s : State) (p line : Nat) : State :=
  (List.range 16).foldl (fun u i =>
    let (v, u1) := u.anything TWord
    u1.setWord p (128 * line + 8 * i) v) s

/-- Every line leaves the caches of a panel; dirty ones are written back but for those whose tag is lost (R333). -/
def State.emptyCaches (s : State) (p : Nat) : State :=
  let s1 := (s.l2Lines p).foldl (fun u x =>
    let lost := x.2.2 && u.fatalIn 4 0 [memKey p (128 * x.1)]
    let c := u.l2Set p x.1
    let u1 := if lost then u.setL2 p x.1 { c with dirty := putBit c.dirty x.2.1 false } else u
    let u2 := u1.evict p x.1
    if lost then u2.loseTagged p x.1 else u2) s
  coreNumbers.foldl (fun u c => u.setCore p c { u.core p c with lineBuf := [] }) s1

end Sys2Proof.Machine
end

