-- ==== Sys2Proof/Machine/Capture.lean ====
section
/-! DEFINITION. Capture into the pentimento journal (R299 to R304, R308): entries, held writes, stalls. -/

namespace Sys2Proof.Machine

/-- Entry kinds (R299). -/
def LOAD : Nat := 1
def ISSUE : Nat := 2
def RESP : Nat := 3
def ENTRY : Nat := 4
def CLAIM : Nat := 5
def SPECIAL : Nat := 6
def COLL : Nat := 7
def DONE : Nat := 8
def FRAME : Nat := 9
def DATA : Nat := 10
def EPOCH : Nat := 11
def CKPT : Nat := 12

/-- The header word of an entry (R301). -/
def Entry.header (e : Entry) : TWord :=
  raw (BitVec.ofNat 64 (e.kind * 2 ^ 60 + e.thread % 16 * 2 ^ 56 + e.payload.length % 256 * 2 ^ 48 + e.key % 2 ^ 48))

/-- Words of an entry in the ring. -/
def Entry.words (e : Entry) : Nat := 1 + e.payload.length

/-- Bytes of a list of entries. -/
def entryBytes (l : List Entry) : Nat := (l.map (fun e => 8 * e.words)).sum

/-- Whether a thread is journaled now (R299). -/
def State.journaled (s : State) (p t : Nat) : Bool :=
  s.flag (jrnlPage p) JRNL_STATUS.ACTIVE && bit (s.journal p).threads t && decide ((s.thread p t).adopted = none)

def State.ringSize (s : State) (p : Nat) : Nat := s.fld (jrnlPage p) JRNL_RING_SIZE.SIZE * 128

/-- Whether the ring and the mirror ring have room for so many words (R308). -/
def State.ringRoom (s : State) (p words : Nat) : Bool :=
  decide (entryBytes (s.journal p).entries + 8 * words ≤ s.ringSize p)

/-- Words written one after another into the ring and the mirror ring (R301). -/
def State.ringWrite (s : State) (p : Nat) : List TWord → State
  | [] => s
  | w :: rest =>
    let j := s.journal p
    let size := s.ringSize p
    let own := s.fld (jrnlPage p) JRNL_RING.ADDR * 128 + j.ringAt
    let far := s.fld (jrnlPage p) JRNL_MIRROR.ADDR * 128 + j.ringAt
    State.ringWrite (((s.putMem p own w).putMem (partner p) far w).setJournal p
      { j with ringAt := if j.ringAt + 8 < size then j.ringAt + 8 else 0 }) p rest

/-- Words are mirrored at the partner, over the ports of both panels (R20). -/
def State.noteMirror (s : State) (p : Nat) : State := (s.noteBulk p).noteBulk (partner p)

/-- An entry is captured and sent to the partner (R300, R301). -/
def State.addEntry (s : State) (p : Nat) (e : Entry) : State :=
  let s1 := (s.noteMirror p).ringWrite p (e.header :: e.payload)
  let j := s1.journal p
  s1.setJournal p { j with entries := j.entries ++ [{ e with key := e.key % 2 ^ 48 }] }

/-! ### Regions and stalls (R303, R308) -/

/-- The region of a panel that holds an address, with its offset there. -/
def State.region (s : State) (p addr : Nat) : Option (Nat × Nat) :=
  (List.range 16).findSome? (fun i =>
    let base := s.fld (jrnlPage p) (JRNL_REGION_BASE.LOCAL.at (32 * i)) * 4096
    let size := s.fld (jrnlPage p) (JRNL_REGION_SIZE.SIZE.at (32 * i)) * 4096
    if s.flag (jrnlPage p) (JRNL_REGION_BASE.EN.at (32 * i)) ∧ base ≤ addr ∧ addr < base + size then
      some (i, addr - base) else none)

/-- The holding buffer has room for writes of a journaled thread (R308): it holds the lines of every epoch whose
checkpoint has not closed (R303, R307). -/
def State.holdRooms (s : State) (p t : Nat) (addrs : List Nat) : Bool :=
  let mine := addrs.filter (fun a => (s.region p a).isSome)
  if s.journaled p t ∧ mine ≠ [] then
    let j := s.journal p
    let lines := mine.map (fun a => (j.epoch, a / 128))
      ++ (j.held.filter (fun h => !h.data)).map (fun h => (h.epoch, h.addr / 128))
    decide (128 * lines.dedup.length ≤ s.fld (jrnlPage p) JRNL_HOLD_SIZE.SIZE * 128)
  else true

/-- A write of a journaled thread finds room in the holding buffer. -/
def State.holdRoom (s : State) (p t addr : Nat) : Bool := s.holdRooms p t [addr]

/-- What a stall waits for is there. -/
def State.hasRoom (s : State) (p : Nat) (x : Nat × Room) : Bool :=
  match x.2 with
  | .ring words => s.ringRoom p words
  | .lines addrs => s.holdRooms p x.1 addrs

/-- `STALLED` shows whether a stall is in progress: of someone who waits for room, or of an entry that does (R308,
R321). -/
def State.showStalls (s : State) (p : Nat) : State :=
  let j := s.journal p
  s.setFld (jrnlPage p) JRNL_STATUS.STALLED (decide (j.stalls ≠ [] ∨ j.late ≠ [])).toNat

/-- A stall of R308 is shown and raised. -/
def State.noteStall (s : State) (p : Nat) : State :=
  if s.flag (jrnlPage p) JRNL_STATUS.STALLED then s
  else (s.setFld (jrnlPage p) JRNL_STATUS.STALLED 1).raise (jrnlPage p) 3

/-- Someone stalls until there is room (R308). -/
def State.stall (s : State) (p who : Nat) (need : Room) : State :=
  let j := s.journal p
  (s.setJournal p { j with stalls := (who, need) :: j.stalls.filter (fun x => decide (x.1 ≠ who)) }).noteStall p

/-- Someone stalls no longer. -/
def State.unstall (s : State) (p who : Nat) : State :=
  let j := s.journal p
  if j.stalls.all (fun x => decide (x.1 ≠ who)) then s
  else (s.setJournal p { j with stalls := j.stalls.filter (fun x => decide (x.1 ≠ who)) }).showStalls p

/-- Room has appeared: the stalls that it ends are over. -/
def State.settleStalls (s : State) (p : Nat) : State :=
  let j := s.journal p
  (s.setJournal p { j with stalls := j.stalls.filter (fun x => !s.hasRoom p x) }).showStalls p

/-- The entry of an input that a thread consumes is captured, or the thread stalls for want of room (R299, R308). -/
def State.enterInput (s : State) (p : Nat) (e : Entry) : State := (s.addEntry p e).unstall p e.thread

/-- An input of a thread is consumed: captured first when the thread is journaled, and stalled while the entry
finds no room (R299, R308). -/
def State.withEntry (s : State) (p t kind : Nat) (payload : List TWord) (act : State → State) : State :=
  if s.journaled p t then
    if s.ringRoom p (1 + payload.length) then
      act (s.enterInput p ⟨kind, t, (s.thread p t).retired.toNat, payload⟩)
    else s.stall p t (.ring (1 + payload.length))
  else act s

/-- Words of a `DATA` entry join the stream to the mirror (R304). -/
def State.streamData (s : State) (p addr : Nat) (words : List TWord) : State :=
  let j := s.journal p
  (s.noteMirror p).setJournal p { j with held := j.held ++ words.zipIdx.map (fun x => ⟨j.epoch, addr + 8 * x.2, x.1, true⟩) }

/-- An entry that no instruction waits for is captured, a `DATA` entry with its words. -/
def State.captureNote (s : State) (p : Nat) (e : Entry) : State :=
  let u := s.addEntry p e
  if e.kind = DATA then
    match e.payload with
    | h :: words => u.streamData p ((payload h).toNat % 2 ^ 48) words
    | [] => u
  else u

/-- An entry for an event that no instruction waits for (R299): without room, or behind another that waits for room, it
waits, and its thread stalls (R308). -/
def State.noteEntry (s : State) (p t kind : Nat) (payload : List TWord) : State :=
  let e : Entry := ⟨kind, t, (s.thread p t).retired.toNat, payload⟩
  let j := s.journal p
  if s.journaled p t = false then s
  else if j.late = [] ∧ s.ringRoom p (1 + payload.length) = true then s.captureNote p e
  else (s.setJournal p { j with late := j.late ++ [e] }).noteStall p

/-- Entries that have waited are captured, in their order, while there is room. -/
def State.captureLate (s : State) (p : Nat) : Nat → State
  | 0 => s
  | k + 1 =>
    let j := s.journal p
    match j.late with
    | [] => s
    | e :: rest =>
      if s.ringRoom p e.words then State.captureLate ((s.setJournal p { j with late := rest }).captureNote p e) p k
      else s

/-! ### Held writes (R303, R304) -/

/-- The mirror address of a word of a region (R303, R313). -/
def State.mirrorAddr (s : State) (p i off : Nat) : Nat :=
  s.fld (jrnlPage p) (JRNL_REGION_MIRROR.MIRROR.at (32 * i)) * 4096 + off

/-- Distinct 128-byte lines held for an epoch (R321). -/
def heldLines (l : List HeldWrite) (epoch : Nat) : Nat :=
  ((l.filter (fun h => decide (h.epoch = epoch) && !h.data)).map (fun h => h.addr / 128)).dedup.length

/-- A write performed by a journaled thread in a region is held at the partner (R303). -/
def State.holdWrite (s : State) (p t addr : Nat) : State :=
  if s.journaled p t ∧ (s.region p addr).isSome then
    let j := s.journal p
    ((s.noteMirror p).setJournal p
      { j with held := j.held ++ [⟨j.epoch, addr / 8 * 8, s.word p (addr / 8 * 8), false⟩] }).unstall p t
  else s

/-- Words by address, joined into runs of at most 254 words at rising addresses. -/
def runs : List (Nat × TWord) → List (Nat × List TWord)
  | [] => []
  | (a, w) :: rest =>
    match runs rest with
    | (b, l) :: more => if b = a + 8 ∧ l.length < 254 then (a, w :: l) :: more else (a, [w]) :: (b, l) :: more
    | [] => [(a, [w])]

/-- Words that a channel or a port wrote into the regions, recorded after its entry (R299, R304). -/
def State.noteData (s : State) (p t : Nat) (words : List (Nat × TWord)) : State :=
  (runs (words.filter (fun x => (s.region p x.1).isSome))).foldl (fun u r =>
    u.noteEntry p t DATA (raw (BitVec.ofNat 64 (r.1 % 2 ^ 48 + r.2.length % 256 * 2 ^ 56)) :: r.2)) s

/-- The entries of a channel's completion or halt, keyed to the thread that started it (R299, R304). -/
def State.noteDone (s : State) (p c : Nat) : State :=
  let v := s.dma p c
  let s1 := s.setDma p c { v with wrote := [] }
  match v.starter with
  | some t =>
    let s2 := s1.noteEntry p t DONE
      [raw (BitVec.ofNat 64 (c * 2 ^ 48 + (s.reg (dmaPage p c) 0x018).toNat % 2 ^ 36))]
    s2.noteData p t v.wrote
  | none => s1

end Sys2Proof.Machine
end

