-- ==== Sys2Proof/Machine/Access.lean ====
section
/-! DEFINITION. Who may write where: ownership (R12, R13), the pages that only one agent may write, and the error
path of a refused write. -/

namespace Sys2Proof.Machine

/-- The address of a page register, as every panel sees it (R375). -/
def pageAddr (pk off : Nat) : Nat :=
  if windowOf pk < 8 then 0x80000000 + windowOf pk * 0x1000000 + pk % 4096 * 4096 + off
  else if windowOf pk < 16 then 0x40000000 + pk % 4096 * 4096 + off
  else 0xF0000000 + pk % 4096 * 4096 + off

/-- What becomes of a write: it reaches the page, it is dropped in silence, or it is dropped on the error path. -/
inductive Verdict where
  | accept | drop | refuse
  deriving DecidableEq, Repr

/-- Registers that accept writes from one agent only (R322, R343, R358, R373): whether they turn this one away. -/
def reservedFor (ag : Agent) (pk off : Nat) : Option Verdict :=
  if ¬ isPackagePage pk then none
  else match packageBlock (pk % 4096) with
    | some (.hovr, i) =>
      if off = 0x118 then (if agentPanel ag = some i then some .accept else some .refuse) else none
    | some (.modeSlice, i) =>
      if off = 0x118 ∨ off = 0x120 ∨ off = 0x128 then
        (if agentPanel ag = some i ∨ ag = .easel then some .accept else some .refuse) else none
    | some (.life, _) =>
      if off = 0x280 ∨ (0x1C0 ≤ off ∧ off < 0x280) then
        (if ag = .easel then some .accept else some .drop) else none
    | some (.easl, _) =>
      if off = 0x100 ∨ off = 0x110 ∨ off = 0x118 ∨ off = 0x120 ∨ off = 0x128 ∨ off = 0x130 then
        (if ag = .easel then some .accept else some .drop) else none
    | _ => none

/-- Whether a page register lies in the part of `LIFE` that Easel reaches in every state but `SCRAPPED` (R372). -/
def lifeOpen (pk off : Nat) : Bool :=
  decide (pk = lifePage) && (decide (off = 0x100) || decide (off = 0x170) || decide (0x180 ≤ off ∧ off < 0x288))

/-- Easel may read or write a page register (R372). -/
def State.easelMay (s : State) (pk off : Nat) : Bool :=
  s.easelOpen || (lifeOpen pk off && decide (s.lifecycle ≠ 4))

/-- What becomes of a write by an agent to a register of a page (R12, R13, R24, R322, R376; assumption 20): a panel that
does not hold the page is refused before anything else is asked. -/
def State.verdict (s : State) (ag : Agent) (pk off : Nat) : Verdict :=
  let holds := decide (agentPanel ag = some (s.holder pk))
  if s.pageThere pk = false then .refuse
  else match ag with
    | .easel =>
      if s.easelMay pk off = false then .refuse
      else if reservedFor ag pk off = some .refuse then .refuse else .accept
    | .intent _ _ =>
      match blockOf pk with
      | some (.loop, _) => if off = 0x120 ∨ off = 0x128 then .accept else .drop
      | _ => .drop
    | .thread _ | .dma _ _ | .manager _ _ =>
      match reservedFor ag pk off with
      | some .drop => if holds then .drop else .refuse
      | some v => v
      | none => if holds then .accept else .refuse

/-- The longest time that an answer takes back to panel `p` from an address (R17): the crossing, or what is left to an own
page. -/
def backOf (p addr : Nat) : Nat :=
  if addr < 0x80000000 then 12
  else if 0x80000000 + p * 0x1000000 ≤ addr ∧ addr < 0x80000000 + (p + 1) * 0x1000000 then 10 else 30

/-- The first unanswered store of a thread to an address is answered; the answer is back by a tick (R182, R193). -/
def answerStore (addr : Nat) (err : Bool) (latest : Nat) : List StoreInFlight → List StoreInFlight
  | [] => []
  | x :: rest =>
    if x.addr = addr ∧ x.answer = none then { x with answer := some err, latest := latest } :: rest
    else x :: answerStore addr err latest rest

/-- Whether a thread has an unanswered store to an address. -/
def awaits (addr : Nat) (l : List StoreInFlight) : Bool :=
  l.any (fun x => decide (x.addr = addr) && decide (x.answer = none))

/-- A DMA channel halts (R252): cause, where the access was, and which access it was. -/
def State.dmaHalt (s : State) (p c cause which addr : Nat) : State :=
  let pk := dmaPage p c
  let s1 := (s.setFld pk DMA_STATUS.ERROR cause).setFld pk DMA_STATUS.STATE 4
  (((s1.setFld pk DMA_FAIL.WHICH which).setFld pk DMA_FAIL.ADDR addr).raise pk 1).noteDone p c

/-- A timed-class transfer has crossed a panel's fabric port: one flit each (R20, R381; assumption 83). -/
def State.noteFlit (s : State) (p : Nat) : State := s.count (fabPage p) ⟨0x110, 63, 0⟩ 1

/-- The tick at which a timed-class transfer that is ready at a tick leaves its panel's port (R20, R21): a flit for each
tick, at once while the reservation of one in eight lasts, beyond it in the first unreserved flit that no bulk transfer
waits for, which is free, and at the latest in the next reserved one (assumption 62). -/
def State.leavePort (s : State) (p : Nat) (ready : Nat) : Nat × State :=
  let v := s.panel p
  let first := max (max s.ticks ready) v.flitNext
  let (leaves, u) := if v.flitFrom ≤ first then (first, s)
    else
      let (x, u) := s.fresh
      (first + x.toNat % (v.flitFrom + 1 - first), u)
  let w := u.setPanel p { v with
    flitFrom := if v.flitFrom ≤ leaves then leaves + 8 else v.flitFrom
    flitNext := leaves + 1
    flits := if leaves ≤ s.ticks then v.flits else v.flits ++ [leaves] }
  (leaves, if leaves ≤ s.ticks then w.noteFlit p else w)

/-- The flits of this tick leave the port. -/
def State.tickPort (s : State) (p : Nat) : State :=
  let v := s.panel p
  if v.flits = [] then s
  else
    let s1 := s.setPanel p { v with flits := v.flits.filter (fun k => decide (s.ticks < k)) }
    s1.count (fabPage p) ⟨0x110, 63, 0⟩ (v.flits.filter (fun k => decide (k ≤ s.ticks))).length

/-- An access of an agent to an address of the ground crosses the port of its panel (R20): Easel is no panel's. -/
def State.noteAccess (s : State) (ag : Agent) (addr : Nat) : State :=
  match agentPanel ag with
  | some p => if 0x80000000 ≤ addr ∧ deviceSpace addr = true then (s.leavePort p s.ticks).2 else s
  | none => s

/-- The answer to a write that reached its page or was dropped there (R12, R182). -/
def State.answer (s : State) (ag : Agent) (addr : Nat) (err : Bool) : State :=
  match ag with
  | .thread t =>
    let th := s.thread t.panel t.index
    if awaits addr th.stores then
      s.setThread t.panel t.index { th with
        stores := answerStore addr err (s.ticks + backOf t.panel addr) th.stores }
    else if err then s.setFault t.panel t.index BE th.pc else s
  | .dma p c => if err then s.dmaHalt p c 1 1 addr else s
  | .manager _ _ | .intent _ _ => s
  | .easel => if err then { s with jtag := { s.jtag with result := 2 } } else s

/-- The first answer of a thread's stores to an address becomes an error. -/
def spoilAnswer (addr : Nat) : List StoreInFlight → List StoreInFlight
  | [] => []
  | x :: rest =>
    if x.addr = addr ∧ x.answer = some false then { x with answer := some true } :: rest else x :: spoilAnswer addr rest

/-- A write that seemed to have taken effect in this tick turns out to be dropped (R378): its answer is an error. -/
def State.answerDropped (s : State) (ag : Agent) (addr : Nat) : State :=
  match ag with
  | .thread t =>
    let th := s.thread t.panel t.index
    if th.stores.any (fun x => decide (x.addr = addr) && decide (x.answer = some false)) then
      s.setThread t.panel t.index { th with stores := spoilAnswer addr th.stores }
    else s.answer ag addr true
  | _ => s.answer ag addr true

/-- The response to a write that an agent makes ready at its page. -/
def State.respond (s : State) (ag : Agent) (addr : Nat) (err : Bool) : State := (s.noteAccess ag addr).answer ag addr err

/-- The lifecycle state, or the page, does not permit Easel's access (R361, R362, R367). -/
def State.refusePort (s : State) : State :=
  { s with jtag := { s.jtag with result := 3 } }.raise easlPage 5

/-- A write is turned away: one of Easel's that the lifecycle state does not permit is refused (R362), any other is answered
with an error (R12). -/
def State.turnAway (s : State) (ag : Agent) (pk off : Nat) (error : State) : State :=
  if ag = .easel ∧ s.easelMay pk off = false then s.refusePort else error

/-- A write that acts at once: its effect where the page accepts it, its error path where it does not. -/
def State.writeBy (s : State) (ag : Agent) (pk off : Nat) (act : State → State) : State :=
  match s.verdict ag pk off with
  | .accept => (act s).respond ag (pageAddr pk off) false
  | .drop => s.respond ag (pageAddr pk off) false
  | .refuse => s.turnAway ag pk off (s.respond ag (pageAddr pk off) true)

/-- Origin of a write (R19): an adopted thread writes under the failed panel's number. -/
def State.originOf (s : State) (ag : Agent) : Nat :=
  match ag with
  | .thread t =>
    match (s.thread t.panel t.index).adopted with
    | some u => 256 * partner t.panel + u
    | none => agentOrigin ag
  | _ => agentOrigin ag

/-- The first tick at which an agent's next transfer may leave: device-space stores leave the store buffer one at a time in
their order (R153). -/
def State.drained (s : State) (ag : Agent) : Nat :=
  (s.flight.filter (fun t => decide (t.agent = ag) && decide (s.ticks < t.sent))).foldl (fun n t => max n t.sent) s.ticks

/-- A write of an agent of panel `p` comes to its port and enters its crossing (R17, R19); a write to the panel's own pages
crosses no port. -/
def State.issue (s : State) (p : Nat) (ag : Agent) (pk off : Nat) (data : Word) (due : Option Nat) (addr : Nat) :
    State :=
  let first := s.drained ag
  let (leaves, u) := if isPanelPage pk then (first, s) else s.leavePort p first
  { u with
    seq := u.seq + 1,
    flight := u.flight ++
      [⟨ag, s.originOf ag, u.seq, pk, off, data, due, leaves, true, addr, false, false, s.ticks, s.secure ag⟩] }

end Sys2Proof.Machine
end

