-- ==== Sys2Proof/Machine/Canvas.lean ====
section
/-! DEFINITION. Canvas time (R25 to R36): the tick, steps, alarms, and the discipline's measurements; the
timed-write queues' own records (R43 to R48). -/

namespace Sys2Proof.Machine

open Sys2Proof

/-! ### The queues (R43 to R47). Queue 0 to 7 is a sector's, 8 the supervisor's. -/

/-- Page of a queue. -/
def queuePage (q : Nat) : Nat := if q < 8 then twqPage q else canvPage

/-- How far the queue's registers lie from those of a `TWQ` page (R47). -/
def queueShift (q : Nat) : Nat := if q < 8 then 0 else 0x100

def queueSize (q : Nat) : Nat := if q < 8 then 256 else 32

/-- The queue that serves a page. -/
def queueOf (pk : Nat) : Nat := if windowOf pk < 8 then windowOf pk else 8

/-- The queue exists in the variant. -/
def State.queueThere (s : State) (q : Nat) : Bool := decide (q = 8) || s.present q

def State.occupancy (s : State) (q : Nat) : Nat := (s.twq.filter (fun e => decide (queueOf e.page = q))).length

/-- A field of a queue's registers. -/
def qfld (q : Nat) (f : Fld) : Fld := f.at (queueShift q)

/-- A write enters its queue; the high-water mark and event follow (R43, R47, R48). -/
def State.enqueue (s : State) (e : Queued) : State :=
  let q := queueOf e.page
  let qp := queuePage q
  let was := s.occupancy q
  let s1 := { s with twq := s.twq ++ [e] }
  let s2 := if s.fld qp (qfld q TWQ_LEVEL.HIGH_WATER) < was + 1
    then s1.setFld qp (qfld q TWQ_LEVEL.HIGH_WATER) (was + 1) else s1
  let warn := s.fld qp (qfld q TWQ_WARN.WARN_LEVEL)
  s2.raiseIf (decide (warn ≠ 0) && decide (was < warn) && decide (warn ≤ was + 1)) qp 3

/-- A late transfer is recorded, and discarded or kept for the next update point (R45). Either way it counts and raises
its event at its ready tick (assumption 91). -/
def State.lateWrite (s : State) (e : Queued) (lateness : Nat) : State :=
  let q := queueOf e.page
  let qp := queuePage q
  let s1 := ((s.setFld qp (qfld q TWQ_LAST_LATE.LATENESS) (if lateness < 0xFFFF then lateness else 0xFFFF)).setFld
    qp (qfld q TWQ_LAST_LATE.PAGE) (e.page % 4096)).setFld qp (qfld q TWQ_LAST_LATE.OFFSET) e.off
  if s.flag e.page HEAD.LATE_APPLY then
    ({ s1 with waiting := s1.waiting ++ [e] }.count qp (qfld q TWQ_APPLIED_LATE.APPLIED_LATE) 1).raise qp 1
  else (s1.count qp (qfld q TWQ_DISCARDED.DISCARDED) 1).raise qp 0

/-- A timed write that finds its queue full (R44). -/
def State.refuseTimed (s : State) (pk : Nat) : State :=
  let q := queueOf pk
  (s.count (queuePage q) (qfld q TWQ_REFUSED.REFUSED) 1).raise (queuePage q) 2

/-- The queue runs: in every mode but `PRIME`, in which it is empty (R43). -/
def State.queueRuns (s : State) (q : Nat) : Bool :=
  if q < 8 then s.present q && decide (s.mode q ≠ PRIME) else decide (s.boot = .done)

/-- The RWT part of a write that is ready now: queued, refused, late, or kept for the update point (R42 to R45). One with
a due time finds no queue in `PRIME` (assumption 85). -/
def State.acceptTimed (s : State) (pk off : Nat) (data : Word) (due : Option Nat) (origin seq : Nat) : State :=
  match due with
  | none => { s with waiting := s.waiting ++ [⟨pk, off, data, origin, seq, 0, false⟩] }
  | some d =>
    let e : Queued := ⟨pk, off, data, origin, seq, d, false⟩
    if s.queueRuns (queueOf pk) = false then s
    else if d < s.canvas then s.lateWrite e (s.canvas - d)
    else if queueSize (queueOf pk) ≤ s.occupancy (queueOf pk) then s.refuseTimed pk
    else s.enqueue e

/-- Clears of `CTRL.CLR` (R404). `HIGH_WATER` is 0 until the next entry, whatever the queue holds (assumption 90). -/
def State.clearQueue (s : State) (q : Nat) : State :=
  let qp := queuePage q
  (((s.setFld qp (qfld q TWQ_LEVEL.HIGH_WATER) 0).setFld qp (qfld q TWQ_DISCARDED.DISCARDED) 0).setFld
    qp (qfld q TWQ_APPLIED_LATE.APPLIED_LATE) 0).setFld qp (qfld q TWQ_REFUSED.REFUSED) 0

/-- `TWQ_CLR` (R404). -/
def execTwqClr (ag : Agent) (queue : Fin 9) (s : State) : Host.Outcome State Fault Refusal :=
  .next (s.writeBy ag (queuePage queue) 0x010 (fun t => t.clearQueue queue))

/-! ### The tick and steps (R25, R26, R35, R36) -/

/-- Writes whose due times a forward step skips are late at the tick after it (R36); they are recorded in the order in
which they were queued, so that the one queued last stands in `TWQ_LAST_LATE` (assumption 88). -/
def State.skipDue (s : State) (before : Nat) : State :=
  let skipped := s.twq.filter (fun e => decide (before < e.due) && decide (e.due < s.canvas))
  let kept := s.twq.filter (fun e => !(decide (before < e.due) && decide (e.due < s.canvas)))
  skipped.foldl (fun t e => t.lateWrite e (s.canvas - e.due)) { s with twq := kept }

/-- One canvas tick: time counts on, or takes the step ordered at this tick, and entries applied now are free
(R25, R35, R43; assumption 3). Past 2^62 − 1 it counts on (assumption 89). -/
def State.tickCanvas (s : State) : State :=
  if s.slices.any (fun sl => (s.trip sl).clockMissing) then s
  else
    let freed := { s with twq := s.twq.filter (fun e => !e.done), ticks := s.ticks + 1 }
    match s.canvasNext with
    | none => { freed with canvas := s.canvas + 1 }
    | some c => State.skipDue { freed with canvas := c, canvasNext := none } s.canvas

/-- A step takes effect, or is refused (R35; assumption 21). -/
def State.stepCanvas (s : State) (delta : Word) : State :=
  let r : Int := (s.canvas : Int) + 1 + delta.toInt
  if 0 ≤ r ∧ r ≤ 2 ^ 62 - 1 then
    ({ s with canvasNext := some r.toNat }.setFld canvPage CANV_STEP.DELTA delta.toNat).raise canvPage 4
  else s.raise canvPage 5

/-- `CANV_STEP` (R35). -/
def execCanvStep (delta : Word) (s : State) : Host.Outcome State Fault Refusal := .next (s.stepCanvas delta)

/-- An alarm that was armed at an earlier tick and whose time has come fires (R29). -/
def State.fireAlarm (s : State) (i : Nat) : State :=
  let en := CANV_ALARM.EN.at (8 * i)
  let due := s.fld canvPage (CANV_ALARM.TICK.at (8 * i))
  if s.flag canvPage en ∧ due ≤ s.canvas ∧ Store.read 0 s.alarms i < s.ticks then
    (s.setFld canvPage en 0).raise canvPage (10 + i)
  else s

/-- `CANV_ALARM_FIRE` (R29). -/
def execCanvAlarmFire (i : Fin 4) (s : State) : Host.Outcome State Fault Refusal := .next (s.fireAlarm i)

/-! ### Discipline (R30 to R34) -/

/-- A step of the CRC-16 of the sync frame (R33). -/
def crc16Bit (c : BitVec 16) (b : Bool) : BitVec 16 :=
  if c.getLsbD 15 != b then (c <<< 1) ^^^ 0x1021#16 else c <<< 1

/-- The check of a sync frame over its bits 16 to 111; bit 0 is sent first and is the most significant. -/
def syncCheck (frame : BitVec 128) : BitVec 16 :=
  (List.range 96).foldl (fun c i => crc16Bit c (frame.getLsbD (127 - (16 + i)))) 0xFFFF#16

/-- The frame that `CANVAS_SYNC_OUT` carries ahead of the rising edge at canvas time `time` (R33); 112 to 127 check what
lies before them. -/
def State.syncFrame (s : State) (time : Nat) : BitVec 128 :=
  let body := 0xE5A3 * 2 ^ 112 + (time % 2 ^ 64) * 2 ^ 48
    + s.fld canvPage CANV_DISC_STATUS.LOCKED * 2 ^ 47 + s.fld canvPage CANV_DISC_STATUS.HOLDOVER * 2 ^ 46
  BitVec.ofNat 128 (body + (syncCheck (BitVec.ofNat 128 body)).toNat)

/-- The largest adjustment that `SLEW_LIMIT` allows, in units of 0.002 ppm (R28). -/
def State.slewLimit (s : State) : Int := 5000 * s.fld canvPage CANV_DISC.SLEW_LIMIT

/-- What a measurement slews to (R30; assumption 22): the limit, where the offset is over its own limit; else a free
adjustment that lets canvas time gain or lose against the source, as the offset asks. In holdover it keeps the last. -/
def State.slew (s : State) (offset : Int) : State :=
  let limit := s.slewLimit
  let now := clampInt (s.sfld canvPage CANV_DISC_STATUS.FREQ_ADJ) (-limit) limit
  if s.flag canvPage CANV_DISC_STATUS.HOLDOVER then s
  else if 64000 < offset then { s with adjGoal := -limit }
  else if offset < -64000 then { s with adjGoal := limit }
  else if offset = 0 then { s with adjGoal := now }
  else
    let (v, u) := s.fresh
    if 0 < offset then { u with adjGoal := now - v.toNat % (now + limit + 1) }
    else { u with adjGoal := now + v.toNat % (limit - now + 1) }

/-- `FREQ_ADJ` moves by 0.002 ppm every 25 000 ticks, which is 0.1 ppm per millisecond, until it stands at what the last
measurement asks for (R30). -/
def State.tickDiscipline (s : State) : State :=
  let now := s.sfld canvPage CANV_DISC_STATUS.FREQ_ADJ
  if s.fld canvPage CANV_DISC.SOURCE = 0 ∨ s.flag canvPage CANV_DISC_STATUS.HOLDOVER = true ∨ s.adjGoal = now
      ∨ s.ticks < s.lastAdj + 25000 then s
  else { s.setSfld canvPage CANV_DISC_STATUS.FREQ_ADJ (if now < s.adjGoal then now + 1 else now - 1) with
    lastAdj := s.ticks }

/-- A new `SLEW_LIMIT` bounds the adjustment at once (R30; assumption 22). -/
def State.limitSlew (s : State) : State :=
  let limit := s.slewLimit
  let now := s.sfld canvPage CANV_DISC_STATUS.FREQ_ADJ
  { s.setSfld canvPage CANV_DISC_STATUS.FREQ_ADJ (clampInt now (-limit) limit) with
    adjGoal := clampInt s.adjGoal (-limit) limit }

/-! ### The sync stream (R33) -/

/-- The bit on `CANVAS_SYNC_OUT` changes on the ticks at which canvas time is a multiple of 50; a frame of 128 bits is
followed by the next, whose first edge it announces (assumption 86). -/
def State.tickSyncOut (s : State) : State :=
  if s.flag canvPage CANV_DISC.SYNC_OUT_EN = false then { s with syncOut := none }
  else if s.canvas % 50 ≠ 0 then s
  else
    let first : Nat × BitVec 128 := (0, s.syncFrame (s.canvas + 6400))
    { s with syncOut := some (match s.syncOut with
      | some (i, f) => if i < 127 then (i + 1, f) else first
      | none => first) }

/-- The level of `CANVAS_SYNC_OUT`: high for 16 ns of the 40 ns of a 0, for 24 ns of those of a 1; low while the stream
is off (R28, R33). -/
def State.syncOutHigh (s : State) : Bool :=
  match s.syncOut with
  | some (i, f) => decide (s.canvas % 50 < if f.getLsbD (127 - i) then 30 else 20)
  | none => false

/-- A measurement: offset, its limit, the run of good ones, and the slew (R28, R30). -/
def State.measure (s : State) (offset : Int) : State :=
  let o := clampInt offset (-2 ^ 31) (2 ^ 31 - 1)
  let far := decide (64000 < o.natAbs)
  let run := if o.natAbs ≤ 8 then s.syncRun + 1 else 0
  let locked := decide (1000 ≤ run)
  let wasOver := s.flag canvPage CANV_DISC_STATUS.OVER_LIMIT
  let wasLocked := s.flag canvPage CANV_DISC_STATUS.LOCKED
  let s1 := ((s.setSfld canvPage CANV_DISC_STATUS.OFFSET o).setFld canvPage CANV_DISC_STATUS.OVER_LIMIT
    far.toNat).setFld canvPage CANV_DISC_STATUS.LOCKED locked.toNat
  let s2 := { s1 with syncRun := run }.raiseIf (far && !wasOver) canvPage 8
  (s2.raiseIf (locked != wasLocked) canvPage 6).slew o

/-- `PTP_SYNC` of a port changes (R296, R298). -/
def State.setPtpSync (s : State) (p n : Nat) (v : Bool) : State :=
  let pk := ethPage p n
  (s.setFld pk ETH_STATUS.PTP_SYNC v.toNat).raiseIf (s.flag pk ETH_STATUS.PTP_SYNC != v) pk 2

/-- The source is lost: holdover (R34). With `SOURCE` 2 the instance it names is synchronised no more (R298). -/
def State.loseSource (s : State) : State :=
  if s.fld canvPage CANV_DISC.SOURCE = 0 ∨ s.flag canvPage CANV_DISC_STATUS.HOLDOVER then s
  else
    let u := (s.setFld canvPage CANV_DISC_STATUS.HOLDOVER 1).raise canvPage 7
    if s.fld canvPage CANV_DISC.SOURCE = 2 then
      u.setPtpSync (s.fld canvPage CANV_DISC.PTP_PANEL) (s.fld canvPage CANV_DISC.PTP_PORT) false
    else u

/-- `SYNC_SOURCE_LOST` (R34). -/
def execSyncSourceLost (s : State) : Host.Outcome State Fault Refusal := .next s.loseSource

/-- `SYNC_SOURCE_RETURN` (R34). -/
def execSyncSourceReturn (s : State) : Host.Outcome State Fault Refusal :=
  if s.flag canvPage CANV_DISC_STATUS.HOLDOVER then
    .next ({ s with syncBad := 0 }.setFld canvPage CANV_DISC_STATUS.HOLDOVER 0 |>.raise canvPage 7)
  else .next s

/-- `SYNC_FRAME_RECEIVED` (R32 to R34): at the rising edge that begins the next frame. -/
def execSyncFrameReceived (frame : BitVec 128) (sub : Fin 64) (s : State) : Host.Outcome State Fault Refusal :=
  if s.fld canvPage CANV_DISC.SOURCE ≠ 1 then .next s
  else if frame.extractLsb' 112 16 ≠ 0xE5A3#16 ∨ frame.extractLsb' 0 16 ≠ syncCheck frame then
    let s1 := { s with syncBad := s.syncBad + 1 }.raise canvPage 9
    .next (if 2 ≤ s1.syncBad then s1.loseSource else s1)
  else
    let time := (frame.extractLsb' 48 64).toNat
    .next ({ s with syncBad := 0 }.measure
      ((s.canvas * 64 + sub : Nat) - (time * 64 + s.fld canvPage CANV_SYNC_DELAY.DELAY : Nat)))

end Sys2Proof.Machine
end

