-- ==== Sys2Proof/Machine/Float.lean ====
section
/-! DEFINITION. Binary64 arithmetic (R191): IEEE 754 with rounding to nearest, ties to even, computed exactly on
integers and narrowed once. -/

namespace Sys2Proof.Machine

open Sys2Proof

/-! ### The format -/

def fSign (w : Word) : Bool := w.getLsbD 63
def fExp (w : Word) : Nat := w.toNat / 2 ^ 52 % 2048
def fFrac (w : Word) : Nat := w.toNat % 2 ^ 52

def isNan (w : Word) : Bool := decide (fExp w = 2047) && decide (fFrac w ≠ 0)
def isInf (w : Word) : Bool := decide (fExp w = 2047) && decide (fFrac w = 0)
def isZero (w : Word) : Bool := decide (w.toNat % 2 ^ 63 = 0)

/-- Significand and exponent of a finite value: it is the significand times 2 to the exponent. -/
def fMant (w : Word) : Nat := if fExp w = 0 then fFrac w else fFrac w + 2 ^ 52
def fScale (w : Word) : Int := if fExp w = 0 then -1074 else (fExp w : Int) - 1075

def signWord (s : Bool) : Nat := if s then 2 ^ 63 else 0
def fInf (s : Bool) : Word := BitVec.ofNat 64 (signWord s + 2047 * 2 ^ 52)
def fZero (s : Bool) : Word := BitVec.ofNat 64 (signWord s)

/-- A quiet NaN; its sign and payload are left open (assumption 38). -/
def fNan (a b : Word) : Word := 0x7FF8000000000000 ||| (Config.nanBits a b &&& 0x8007FFFFFFFFFFFF)

/-- Bits of a number. -/
def bitLength (m : Nat) : Nat := if m = 0 then 0 else Nat.log2 m + 1

/-- The nearest binary64 of a significand times 2 to an exponent; `sticky` says that a part below the significand's
last bit has been dropped. -/
def roundPack (s : Bool) (m : Nat) (e : Int) (sticky : Bool) : Word :=
  if m = 0 then fZero s
  else
    let top := (bitLength m : Int) + e - 53
    let scale := if top < -1074 then -1074 else top
    let q :=
      if scale ≤ e then m * 2 ^ (e - scale).toNat
      else
        let k := (scale - e).toNat
        let low := m % 2 ^ k
        let half := 2 ^ (k - 1)
        let kept := m / 2 ^ k
        if half < low ∨ (low = half ∧ (sticky = true ∨ kept % 2 = 1)) then kept + 1 else kept
    let enc := if q < 2 ^ 52 then q else (scale + 1075).toNat * 2 ^ 52 + (q - 2 ^ 52)
    if 2047 * 2 ^ 52 ≤ enc then fInf s else BitVec.ofNat 64 (signWord s + enc)

/-- The nearest binary64 of an integer times 2 to an exponent; a zero has the sign given. -/
def roundInt (v : Int) (e : Int) (zeroSign : Bool) : Word :=
  if v = 0 then fZero zeroSign else roundPack (decide (v < 0)) v.natAbs e false

/-- A finite value as an integer at a common exponent. -/
def fAt (w : Word) (e : Int) : Int :=
  let v : Int := fMant w * 2 ^ (fScale w - e).toNat
  if fSign w then -v else v

/-! ### The operations -/

def fadd (a b : Word) : Word :=
  if isNan a ∨ isNan b then fNan a b
  else if isInf a then (if isInf b ∧ fSign a ≠ fSign b then fNan a b else a)
  else if isInf b then b
  else
    let e := min (fScale a) (fScale b)
    roundInt (fAt a e + fAt b e) e (fSign a && fSign b)

def fneg (a : Word) : Word := a ^^^ 0x8000000000000000
def fabs (a : Word) : Word := a &&& 0x7FFFFFFFFFFFFFFF

def fsub (a b : Word) : Word := if isNan a ∨ isNan b then fNan a b else fadd a (fneg b)

def fmul (a b : Word) : Word :=
  let s := fSign a != fSign b
  if isNan a ∨ isNan b then fNan a b
  else if isInf a ∨ isInf b then (if isZero a ∨ isZero b then fNan a b else fInf s)
  else if isZero a ∨ isZero b then fZero s
  else roundPack s (fMant a * fMant b) (fScale a + fScale b) false

def fdiv (a b : Word) : Word :=
  let s := fSign a != fSign b
  if isNan a ∨ isNan b then fNan a b
  else if isInf a then (if isInf b then fNan a b else fInf s)
  else if isInf b then fZero s
  else if isZero b then (if isZero a then fNan a b else fInf s)
  else if isZero a then fZero s
  else
    let n := fMant a * 2 ^ 120
    roundPack s (n / fMant b) (fScale a - fScale b - 120) (n % fMant b != 0)

/-- The largest number whose square is at most `n`, bit by bit from bit `k - 1`. -/
def rootFrom (n : Nat) : Nat → Nat → Nat
  | 0, r => r
  | k + 1, r => rootFrom n k (if (r + 2 ^ k) * (r + 2 ^ k) ≤ n then r + 2 ^ k else r)

def fsqrt (a : Word) : Word :=
  if isNan a then fNan a a
  else if isZero a then a
  else if fSign a then fNan a a
  else if isInf a then a
  else
    let k : Nat := if fScale a % 2 = 0 then 110 else 111
    let n := fMant a * 2 ^ k
    let r := rootFrom n 90 0
    roundPack false r ((fScale a - k) / 2) (r * r != n)

/-- Order of two values that are not NaN: less. -/
def flt (a b : Word) : Bool :=
  !isNan a && !isNan b &&
    (if isZero a ∧ isZero b then false
     else match fSign a, fSign b with
       | true, false => true
       | false, true => false
       | false, false => decide (a.toNat < b.toNat)
       | true, true => decide (b.toNat < a.toNat))

def feq (a b : Word) : Bool := !isNan a && !isNan b && (decide (a = b) || (isZero a && isZero b))

def fle (a b : Word) : Bool := flt a b || feq a b

/-- The integer part of a finite value, truncated. -/
def ftrunc (a : Word) : Int :=
  let m : Int := if 0 ≤ fScale a then fMant a * 2 ^ (fScale a).toNat else fMant a / 2 ^ (-fScale a).toNat
  if fSign a then -m else m

end Sys2Proof.Machine
end

