-- ==== Sys2Proof/Machine/Fadc.lean ====
section
/-! DEFINITION. The sample path (R53 to R69): codes, calibration, the monitor converter, and the sketchbook. -/

namespace Sys2Proof.Machine

open Sys2Proof

/-! ### Codes (R53, R54) -/

/-- The code of a differential input in nanovolts, and whether it clips. -/
def fastCode (nanovolts : Int) : Int × Bool :=
  (clampInt ((2 * (nanovolts * 2048) + 800000000) / 1600000000) (-2048) 2047,
   decide (1600000000 - 390625 < 2 * nanovolts) || decide (nanovolts < -800000000))

/-- Whether a code leaves the range limits of a converter. -/
def State.outOfRange (s : State) (pk : Nat) (code : Int) : Bool :=
  decide (s.sfld pk FADC_RANGE.HI < code) || decide (code < s.sfld pk FADC_RANGE.LO)

/-- The register value of a result with reference tick now. `RANGE` compares with the limits of this tick (assumption
94). -/
def State.resultWord (s : State) (pk : Nat) (nanovolts : Int) : Word :=
  let code := (fastCode nanovolts).1
  let clip := (fastCode nanovolts).2
  BitVec.ofNat 64 (s.canvas % 2 ^ 32 * 2 ^ 32 + s.supply.dip.toNat * 2 ^ 15
    + (s.outOfRange pk code).toNat * 2 ^ 14 + clip.toNat * 2 ^ 13 + unsign 12 code)

/-! ### Reference ticks (R55, R57, R58) -/

/-- A calibration holds the converter (R60). -/
def Conv.calibrating (v : Conv) (now : Nat) : Bool :=
  match v.calEnd with
  | some e => decide (e ≤ now + 51200)
  | none => false

/-- Whether this tick is a reference tick of a converter. -/
def State.referenceTick (s : State) (sec c : Nat) : Bool :=
  let pk := fadcPage sec c
  let v := s.conv sec c
  let start := s.fld pk FADC_SCHED.START
  let period := s.fld pk FADC_SCHED.PERIOD
  s.present sec && decide (s.mode sec ≠ PRIME) && !v.calibrating s.ticks && decide (v.schedAt < s.ticks)
    && decide (v.lastRef ≠ some s.ticks) && decide (period ≠ 0) &&
    (if s.fld pk FADC_SCHED.MODE = 1 then
      let first := Store.read 0 s.anchors sec + start
      decide (first ≤ s.ticks) && decide ((s.ticks - first) % period = 0)
    else if s.fld pk FADC_SCHED.MODE = 2 then
      let p := s.pair sec (s.fld pk FADC_SCHED.PAIR)
      let d := s.ticks - p.wrapTick
      p.running && decide (start ≤ d) && decide ((d - start) % period = 0)
    else false)

/-- The index of a reference tick in its series (R55, R124): from the wrap, or from the anchor. -/
def State.referenceIndex (s : State) (sec c : Nat) : Int :=
  let pk := fadcPage sec c
  let start : Int := s.fld pk FADC_SCHED.START
  let period : Int := s.fld pk FADC_SCHED.PERIOD
  if s.fld pk FADC_SCHED.MODE = 2 then
    ((s.ticks : Int) - (s.pair sec (s.fld pk FADC_SCHED.PAIR)).wrapTick - start) / period
  else ((s.ticks : Int) - (Store.read 0 s.anchors sec : Nat) - start) / period

/-! ### Triggers (R66) -/

/-- An armed trigger fires, with its trigger tick. -/
def State.fireRing (s : State) (sec c tick : Nat) : State :=
  let pk := fadcPage sec c
  if s.flag pk FADC_TRIG.ARM then
    let s1 := (s.setFld pk FADC_TRIG.ARM 0).setConv sec c { s.conv sec c with trigger := some tick }
    let s2 := s1.raise pk 6
    if s.flag pk FADC_TRIG.LINK_OUT then
      { s2 with freezeLines := Store.write 0 s2.freezeLines (sec * 16 + c) s.ticks }
    else s2
  else s

/-- Whether a source that is seen fires the ring of a converter (R66): the freeze line does not fire the ring that drove
it. -/
def State.listens (s : State) (e : Seen) (c : Nat) : Bool :=
  let src := s.fld (fadcPage e.sector c) FADC_TRIG.SOURCE
  let i := s.fld (fadcPage e.sector c) FADC_TRIG.INDEX
  if e.source = 0 ∨ e.source = 5 then decide (e.index = c) && (decide (e.source = 0) || decide (src = 5))
  else if src = 4 then decide (e.source = 4) && decide (e.index ≠ c)
  else decide (e.source = src) && (decide (src = 6) || decide (e.index = i))

/-- The armed rings of a sector that listen to a source fire. -/
def State.fireSeen (s : State) (e : Seen) : State :=
  (List.range 16).foldl (fun t c => if t.listens e c then t.fireRing e.sector c e.tick else t) s

/-- A source is registered: it fires the rings that listen to it at its tick, now or the next one. -/
def State.triggerAt (s : State) (e : Seen) : State :=
  let s1 := { s with seen := s.seen ++ [e] }
  if e.tick = s.ticks then s1.fireSeen e else s1

/-- A source is seen now. -/
def State.triggerSource (s : State) (sec src index : Nat) : State := s.triggerAt ⟨sec, src, index, s.ticks⟩

/-- Two of three (R115). -/
def majority (c : BitVec 16 × BitVec 16 × BitVec 16) : BitVec 16 :=
  (c.1 &&& c.2.1) ||| (c.2.1 &&& c.2.2) ||| (c.1 &&& c.2.2)

/-- Every copy changes in the same way. -/
def everyCopy (f : BitVec 16 → BitVec 16) (c : BitVec 16 × BitVec 16 × BitVec 16) : BitVec 16 × BitVec 16 × BitVec 16 :=
  (f c.1, f c.2.1, f c.2.2)

/-- One copy comes to hold a value. -/
def oneCopy (i : Nat) (x : BitVec 16) (c : BitVec 16 × BitVec 16 × BitVec 16) : BitVec 16 × BitVec 16 × BitVec 16 :=
  match i with
  | 0 => (x, c.2.1, c.2.2)
  | 1 => (c.1, x, c.2.2)
  | _ => (c.1, c.2.1, x)

/-- What one copy holds. -/
def copyOf (i : Nat) (c : BitVec 16 × BitVec 16 × BitVec 16) : BitVec 16 :=
  match i with
  | 0 => c.1
  | 1 => c.2.1
  | _ => c.2.2

/-- The voted latches of a sector (R115). -/
def Trip.vote (t : Trip) : BitVec 16 := majority t.latches

/-- The voted cycle-by-cycle trips of a sector (R115). -/
def Trip.cbc (t : Trip) : BitVec 16 := majority t.cbcs

/-- Every copy changes its cycle-by-cycle trips in the same way. -/
def Trip.setCbc (t : Trip) (f : BitVec 16 → BitVec 16) : Trip := { t with cbcs := everyCopy f t.cbcs }

/-- Every copy changes its latches in the same way. -/
def Trip.setLatches (t : Trip) (f : BitVec 16 → BitVec 16) : Trip := { t with latches := everyCopy f t.latches }

def State.latched (s : State) (sec p : Nat) : Bool := (s.trip sec).vote.getLsbD p

/-- The comparator is under check: its latches and status are kept (R76). -/
def Comparator.hidden (v : Comparator) : Bool :=
  match v.check with
  | some ch => decide (ch.step < 6)
  | none => false

/-- A source that is seen at the tick of an arming write fires it (R66). A comparator that stands outside its window is
seen as long as it does; a latch that is already set is not (assumption 95). -/
def State.seenNow (s : State) (sec c : Nat) : Bool :=
  let pk := fadcPage sec c
  let i := s.fld pk FADC_TRIG.INDEX
  s.seen.any (fun e => decide (e.sector = sec) && decide (e.tick = s.ticks) && s.listens e c)
    || (decide (s.fld pk FADC_TRIG.SOURCE = 1)
      && ((s.cmp sec i).wasAbove || (s.cmp sec i).wasBelow))

/-- An arming write of `FADC_TRIG` has been made: it unfreezes the ring, and a source seen now fires it. A trigger that
has fired and has not frozen the ring yet is given up (assumption 96). DESIGN CHOICE: the ring of an adopted page stays
frozen, since by R68 it streams again only after `EN` 0 and 1 (assumption 115). -/
def State.armRing (s : State) (sec c : Nat) : State :=
  let pk := fadcPage sec c
  let s1 := if s.flag pk FADC_RING_STATE.ADOPTED then s else s.setFld pk FADC_RING_STATE.FROZEN 0
  let s2 := s1.setConv sec c { s1.conv sec c with trigger := none, freezeAt := none }
  if s2.seenNow sec c then s2.fireRing sec c s2.ticks else s2

/-- `EN` of a ring has changed from 0 to 1 (R59, R68). DESIGN CHOICE: a trigger that has fired before is given up
(assumption 117). -/
def State.startRing (s : State) (sec c : Nat) : State :=
  let pk := fadcPage sec c
  let s1 := (s.setFld pk FADC_RING_COUNT.COUNT 0).setConv sec c
    { s.conv sec c with pack := [], line := [], trigger := none, freezeAt := none }
  if s.flag pk FADC_RING_STATE.ADOPTED then
    (s1.setFld pk FADC_RING_STATE.ADOPTED 0).setFld pk FADC_RING_STATE.FROZEN 0
  else s1

/-- Adoption of the page freezes its ring, whatever `ARM` holds; nothing more is written to it (R68). -/
def State.freezeAdopted (s : State) (pk : Nat) : State :=
  let sec := windowOf pk
  let c := pk % 4096 - 32
  let was := s.flag pk FADC_RING_STATE.FROZEN
  let s1 := (s.setFld pk FADC_RING_STATE.ADOPTED 1).setFld pk FADC_RING_STATE.FROZEN 1
  (s1.setConv sec c { s1.conv sec c with pack := [], line := [], trigger := none, freezeAt := none }).raiseIf
    (s.flag pk FADC_RING_BASE.EN && !was) pk 7

/-- `FADC_TRIG_FIRE` (R66): a write of 1 takes effect. -/
def execFadcTrigFire (sec : Slice) (c : Fin 16) (s : State) : Host.Outcome State Fault Refusal :=
  .next (s.triggerSource sec 0 c)

/-! ### The streamer (R65) -/

/-- The ring takes samples: enabled, not frozen, and the payload at which it freezes is not complete. -/
def State.streaming (s : State) (sec c : Nat) : Bool :=
  let pk := fadcPage sec c
  s.flag pk FADC_RING_BASE.EN && !s.flag pk FADC_RING_STATE.FROZEN &&
    (match (s.conv sec c).freezeAt with
     | some j => decide (s.fld pk FADC_RING_COUNT.COUNT < 5 * (j + 1))
     | none => true)

/-- A payload: five samples and the lap. -/
def payloadWord (samples : List (BitVec 12)) (lap : Nat) : Word :=
  BitVec.ofNat 64 ((samples.zipIdx.map (fun e => e.1.toNat * 2 ^ (12 * e.2))).sum + lap % 16 * 2 ^ 60)

/-- A sample enters the streamer three ticks after its reference tick (R56, R65, R66). -/
def State.stream (s : State) (sec c ref : Nat) (code : BitVec 12) : State :=
  let pk := fadcPage sec c
  if s.streaming sec c = false then s
  else
    let k := s.fld pk FADC_RING_COUNT.COUNT
    let room := s.fld pk FADC_RING_SIZE.SIZE * 128 / 8
    if room = 0 then s.err pk
    else
      let v := s.conv sec c
      let s1 := s.setFld pk FADC_RING_COUNT.COUNT (k + 1)
      let hit := match v.trigger with | some t => decide (t ≤ ref) | none => false
      let s2 := if hit then s1.setFld pk FADC_TRIG_SAMPLE.SAMPLE k else s1
      let freezeAt := if hit then some (k / 5 + s.fld pk FADC_TRIG.POST) else v.freezeAt
      let trigger := if hit then none else v.trigger
      let pack := v.pack ++ [code]
      if k % 5 = 4 then
        s2.setConv sec c { v with trigger := trigger, freezeAt := freezeAt, pack := [],
                                  line := v.line ++ [(k / 5, payloadWord pack (k / 5 / room))] }
      else s2.setConv sec c { v with trigger := trigger, freezeAt := freezeAt, pack := pack }

/-- A line's payloads, and whether the line is to be written now. -/
def nextLine (v : Conv) : List (Nat × Word) × Bool :=
  match v.line with
  | [] => ([], false)
  | (j, _) :: _ =>
    let l := v.line.takeWhile (fun e => decide (e.1 / 16 = j / 16))
    (l, l.any (fun e => decide (e.1 % 16 = 15) || decide (v.freezeAt = some e.1)))

/-- The ring's owner can take a line: it is not at rest, and the line lies in its DRAM (R67). -/
def State.ringReaches (s : State) (pk addr : Nat) : Bool :=
  let p := s.holder pk
  decide (s.mode p ≠ REST) && decide (dramBase ≤ addr) && decide (addr < 2 * dramBase) && s.dramThere p addr

/-- `STREAM_PAYLOAD` (R65 to R67): the oldest complete line is written, or dropped. DESIGN CHOICE: of a line in whose
middle an arming write has let the ring go on, the payloads after the freeze point are written (assumption 118). -/
def execStreamPayload (sec : Slice) (c : Fin 16) (accepted : Bool) (s : State) :
    Host.Outcome State Fault Refusal :=
  let pk := fadcPage sec c
  let v := s.conv sec c
  let (l, go) := nextLine v
  let room := s.fld pk FADC_RING_SIZE.SIZE * 128 / 8
  let base := s.fld pk FADC_RING_BASE.ADDR * 128
  if go = false ∨ room = 0 then .next s
  else
    let last := l.any (fun e => decide (v.freezeAt = some e.1))
    let first := match l with | e :: _ => e.1 | [] => 0
    let s1 := s.setConv sec c { v with line := v.line.drop l.length }
    let kept := accepted && s.ringReaches pk (base + first % room * 8)
    let s2 :=
      if kept then
        let s0 := if s.holder pk = sec.val then s1 else s1.noteBulk (s.holder pk)
        let s3 := l.foldl (fun t e => t.putMem (s.holder pk) (base + e.1 % room * 8) (raw e.2)) s0
        if last then
          (List.range (15 - (first + l.length - 1) % 16)).foldl
            (fun t i => t.putMem (s.holder pk) (base + (first + l.length + i) % room * 8) (raw 0)) s3
        else s3
      else (s1.count pk FADC_RING_DROPPED.DROPPED l.length).raise pk 8
    .next (if last then
      ((s2.setFld pk FADC_RING_STATE.FROZEN 1).setConv sec c
        { s2.conv sec c with freezeAt := none }).raise pk 7 else s2)

/-- `FADC_RING_DROPPED_CLR` (R59). -/
def execFadcRingDroppedClr (ag : Agent) (sec : Slice) (c : Fin 16) (s : State) :
    Host.Outcome State Fault Refusal :=
  .next (s.writeBy ag (fadcPage sec c) 0x170 (fun t => t.setFld (fadcPage sec c) FADC_RING_DROPPED.DROPPED 0))

/-! ### Results reach the page (R56): what the tick does for the sample path -/

/-- One result on its way: its events at T + 2, the register and the streamer at T + 3 (R54, R56, R66). -/
def State.landOne (s : State) (sec c : Nat) (x : Nat × Word) : State :=
  let pk := fadcPage sec c
  if s.ticks = x.1 + 2 then
    let range := bits x.2 14 14 = 1
    let s1 := (s.raiseIf (bits x.2 13 13 = 1) pk 0).raiseIf range pk 1
    if range then s1.triggerSource sec 5 c else s1
  else if x.1 + 3 ≤ s.ticks then (s.setReg pk 0x108 x.2).stream sec c x.1 (BitVec.ofNat 12 x.2.toNat)
  else s

/-- The results of a converter that are on their way (R56, R58). -/
def State.landResult (s : State) (sec c : Nat) : State :=
  let l := (s.conv sec c).handed
  let s1 := s.setConv sec c { s.conv sec c with handed := l.filter (fun x => decide (s.ticks < x.1 + 3)) }
  l.foldl (fun t x => t.landOne sec c x) s1

/-- The freeze line of a sector fires the other rings that listen to it in the tick after a ring drove it (R66). -/
def State.freezeLine (s : State) (driver : Nat) : State :=
  let t := Store.read 0 s.freezeLines driver
  if t + 1 = s.ticks ∧ t ≠ 0 then s.triggerSource (driver / 16) 4 (driver % 16) else s

/-- What a canvas tick does on the sample path. -/
def State.tickSamples (s : State) : State :=
  let s0 := { s with seen := s.seen.filter (fun e => decide (s.ticks ≤ e.tick)) }
  let s1 := (s0.convs.map Prod.fst).foldl (fun t k => t.landResult (k / 16) (k % 16)) (s0.seen.foldl (fun t e => t.fireSeen e) s0)
  (s1.freezeLines.map Prod.fst).foldl (fun t k => t.freezeLine k) s1

/-! ### Calibration (R60) -/

/-- A request may be taken: the sector is idle, or no closed running slot reads the converter. -/
def State.mayCalibrate (s : State) (sec c : Nat) : Bool :=
  decide (s.mode sec = COMMISSION) || decide (s.mode sec = HOLD) ||
    (List.range 16).all (fun n =>
      !(s.flag (loopPage sec n) LOOP_STATUS.CLOSED && s.flag (loopPage sec n) LOOP_CFG.EN
        && decide (s.fld (loopPage sec n) LOOP_CFG.SRC = c)))

/-- A calibration is requested. -/
def State.requestCal (s : State) (sec c : Nat) : State :=
  let pk := fadcPage sec c
  if s.flag pk FADC_CAL.BUSY then s
  else if s.mayCalibrate sec c then
    (s.setFld pk FADC_CAL.BUSY 1).setConv sec c { s.conv sec c with calEnd := some (s.ticks + 1 + 51200) }
  else s.raise pk 4

/-- `FADC_CAL_START` (R60). -/
def execFadcCalStart (ag : Agent) (sec : Slice) (c : Fin 16) (s : State) : Host.Outcome State Fault Refusal :=
  .next (s.writeBy ag (fadcPage sec c) 0x118 (fun t => t.requestCal sec c))

/-- `FADC_CAL_DONE` (R60): after 51 200 ticks the new trims are in force. -/
def execFadcCalDone (sec : Slice) (c : Fin 16) (gain offset : BitVec 16) (s : State) :
    Host.Outcome State Fault Refusal :=
  let pk := fadcPage sec c
  if (s.conv sec c).calEnd = some s.ticks then
    let s1 := ((s.setFld pk FADC_CAL_RESULT.GAIN gain.toNat).setFld pk FADC_CAL_RESULT.OFFSET offset.toNat).setFld
      pk FADC_CAL.CAL_DUE 0
    let s2 := (s1.setFld pk FADC_CAL.BUSY 0).setConv sec c
      { s.conv sec c with calEnd := none, calJunction := signed 9 (s.fld (modePage sec) MODE_THERMAL.NOW) }
    .next (s2.raise pk 3)
  else .next s

/-! ### The monitor converter (R62) -/

/-- The code of a monitor input; the rounding of a value between two codes is free (assumption 23). -/
def State.monitorCode (s : State) (nanovolts : Nat) : Nat × State :=
  let x := nanovolts * 65536
  let c := x / 1500000000
  if x % 1500000000 = 0 then (if c < 65535 then c else 65535, s)
  else
    let (v, s1) := s.fresh
    let r := c + (v.getLsbD 0).toNat
    (if r < 65535 then r else 65535, s1)

/-- A conversion of an entry begins now. -/
def State.beginConversion (s : State) (sec entry done sum : Nat) (dip : Bool) : State :=
  let pk := madcPage sec
  let at8 (f : Fld) := f.at (8 * entry)
  let m := s.monitor sec
  let fresh := decide (done = 0)
  s.setMonitor sec { m with
    entry := entry, done := done, sum := sum, began := s.ticks, running := true, changed := false,
    dip := dip || s.supply.dip,
    avg := if fresh then s.fld pk (at8 MADC_ENTRY.AVG) else m.avg,
    input := if fresh then s.fld pk (at8 MADC_ENTRY.INPUT) else m.input,
    acq := if fresh then s.fld pk (at8 MADC_ENTRY.ACQ) else m.acq }

/-- The schedule starts when `LEN` becomes nonzero, and at the anchor tick (R62, R55). -/
def State.startMonitor (s : State) (sec : Nat) : State :=
  if (s.monitor sec).running ∨ s.fld (madcPage sec) MADC_SCHED.LEN = 0 ∨ s.mode sec = PRIME then s
  else s.beginConversion sec 0 0 0 false

/-- `LEN` or an entry is written (R62): the schedule starts, or the change waits for the end of the conversion. -/
def State.changeMonitor (s : State) (sec : Nat) : State :=
  if (s.monitor sec).running then s.setMonitor sec { s.monitor sec with changed := true } else s.startMonitor sec

/-- The schedule goes on with the entry after one, or stops (R62). -/
def State.nextConversion (s : State) (sec i : Nat) : State :=
  let len := s.fld (madcPage sec) MADC_SCHED.LEN
  if len = 0 then s.setMonitor sec { s.monitor sec with running := false }
  else s.beginConversion sec (if i + 1 < len then i + 1 else 0) 0 0 false

/-- `MADC_CONVERSION_END` (R62): the end of a conversion of the entry in progress. A change made since it began takes
effect now, and the schedule goes on with the entry that follows: an entry that is not complete stores no result
(assumption 97). DESIGN CHOICE: the cycle is complete where the entry done is the last of the present `LEN`, or lies
beyond it (assumption 119). -/
def execMadcConversionEnd (sec : Slice) (nanovolts : Nat) (s : State) : Host.Outcome State Fault Refusal :=
  let pk := madcPage sec
  let m := s.monitor sec
  if m.running = false ∨ s.present sec = false ∨ m.began + m.acq + 500 ≠ s.ticks then .next s
  else
    let (code, s1) := s.monitorCode nanovolts
    let sum := m.sum + code
    let done := m.done + 1
    if done < 2 ^ m.avg then
      .next (if m.changed then s1.nextConversion sec m.entry else s1.beginConversion sec m.entry done sum m.dip)
    else
      let i := m.entry
      let mean := sum / 2 ^ m.avg
      let out := s1.flag pk (MADC_LIMIT.EN.at (8 * i)) &&
        (decide (s1.fld pk (MADC_LIMIT.HI.at (8 * i)) < mean) || decide (mean < s1.fld pk (MADC_LIMIT.LO.at (8 * i))))
      let w := BitVec.ofNat 64 (s.canvas % 2 ^ 32 * 2 ^ 32 + m.dip.toNat * 2 ^ 17 + out.toNat * 2 ^ 16 + mean)
      let s2 := ((s1.setReg pk (0x200 + 8 * i) w).raiseIf out pk 1).raiseIf m.dip pk 2
      let len := s2.fld pk MADC_SCHED.LEN
      .next ((s2.raiseIf (decide (len ≤ i + 1)) pk 0).nextConversion sec i)

end Sys2Proof.Machine
end

