-- ==== Sys2Proof/Machine/Rest.lean ====
section
/-! DEFINITION. The mode of a slice as every unit sees it: its changes (R324, R328), and the wake of a resting panel with what the wake does to timers and channels (R251, R264, R330). -/

namespace Sys2Proof.Machine

/-! ### Mode (R324) -/

/-- Every pair of a sector loses its release: its pins are governed by order 2 until released again (R113, R117). -/
def State.unrelease (s : State) (sl : Nat) (mask : BitVec 16) : State :=
  s.setTrip sl { s.trip sl with released := (s.trip sl).released &&& ~~~mask }

/-- The pairs of a sector whose page a panel owns, or holds as adopter. -/
def State.heldPairs (s : State) (p sec : Nat) : BitVec 16 :=
  BitVec.ofNat 16 (((List.range 16).filter (fun k => decide (s.holder (pwmpPage sec k) = p))).foldl
    (fun m k => m + 2 ^ k) 0)

/-- Every pair that a panel holds loses its release: the panel is halted, or its halt ends (R113, R366). -/
def State.unreleaseHeld (s : State) (p : Nat) : State :=
  s.slices.foldl (fun u sec => u.unrelease sec (u.heldPairs p sec)) s

/-- A slice's mode and underlying mode are set; the event, the pins' release and `CLOCK_LOST` follow (R119, R120,
R324, R346). -/
def State.setMode (s : State) (sl mode under : Nat) : State :=
  let pk := modePage sl
  let was := s.shownMode sl
  let changed := decide (s.mode sl ≠ mode) || decide (s.under sl ≠ under)
  let s1 := (((s.setPanel sl { s.panel sl with soon := none }).setFld pk MODE_STATE.MODE mode).setFld pk MODE_STATE.UNDER under).raiseIf changed pk 0
  let now := s1.shownMode sl
  let s2 := if now = RUN then s1 else s1.unrelease sl 0xFFFF
  if was = HOLD ∧ now ≠ HOLD then s2.setFld (tripPage sl) TRIP_OVERRIDE.CLOCK_LOST 0 else s2

/-! ### Timers over a rest (R259, R260, R264) -/

/-- The first steps of a timer, up to and including the one that brings `COUNT` to 0. -/
structure Advance where
  count : Nat
  cmpNow : Nat
  running : Bool
  zero : Bool
  match_ : Bool
  deriving DecidableEq, Repr

/-- A timer taken a number of steps forward: what its registers then hold, and the events it passed. -/
def advance (count cmpNow reload cmp : Nat) (oneShot nextOneShot : Bool) (steps : Nat) : Advance :=
  if steps ≤ count then
    ⟨count - steps, cmpNow, true, decide (0 < steps) && decide (steps = count),
      decide (count - steps ≤ cmpNow) && decide (cmpNow < count)⟩
  else
    let zero := decide (0 < count)
    let hit := decide (cmpNow < count)
    if oneShot then ⟨0, cmpNow, false, zero, hit⟩
    else
      let more := steps - count - 1
      if nextOneShot then
        ⟨reload - more, cmp, decide (more ≤ reload), zero || decide (reload ≤ more),
          hit || (decide (cmp ≤ reload) && decide (reload - more ≤ cmp))⟩
      else
        ⟨reload - more % (reload + 1), cmp, true, zero || decide (reload ≤ more),
          hit || (decide (cmp ≤ reload) && decide (reload ≤ more + cmp))⟩

/-- A timer is advanced by a rest of `n` slow-clock periods (R264). -/
def State.advanceTimer (s : State) (p n periods : Nat) : State :=
  let pk := tmrPage p n
  let v := s.timer p n
  if v.restRunning = false then s
  else
    let ratio := s.fld (tmrPage p 16) TMR_RATIO.RATIO
    let steps := periods * ratio / 2 ^ 16 / (v.presc + 1)
    let cfgOne := s.flag pk TMR_CFG.ONE_SHOT
    let a := advance (s.fld pk TMR_COUNT.COUNT) (s.fld pk TMR_CMP_NOW.VALUE) (s.fld pk TMR_RELOAD.VALUE)
      (s.fld pk TMR_CMP.VALUE) v.oneShot cfgOne steps
    let reloaded := decide (s.fld pk TMR_COUNT.COUNT < steps) && !v.oneShot
    let s1 := ((s.setFld pk TMR_COUNT.COUNT a.count).setFld pk TMR_CMP_NOW.VALUE a.cmpNow).setFld
      pk TMR_STATUS.RUNNING a.running.toNat
    let s2 := s1.setTimer p n { v with
      restRunning := false,
      presc := if reloaded then s.fld pk TMR_CFG.PRESC else v.presc,
      oneShot := if reloaded then cfgOne else v.oneShot }
    (((s2.mark pk TMR_STATUS.MADE_UP).raiseIf a.zero pk 0).raiseIf a.match_ pk 1).raise pk 4

/-- The timers of a panel stop for a rest (R264). -/
def State.stopTimers (s : State) (p : Nat) : State :=
  (List.range 16).foldl (fun t n =>
    if t.flag (tmrPage p n) TMR_STATUS.RUNNING then t.setTimer p n { t.timer p n with restRunning := true } else t) s

/-! ### Channels (R250, R251) -/

/-- A channel completes (R250). -/
def State.completeDma (s : State) (p c : Nat) : State :=
  ((s.setFld (dmaPage p c) DMA_STATUS.STATE 0).raise (dmaPage p c) 0).noteDone p c

/-- A paused or pausing channel runs on from its registers (R251). -/
def State.resumeDma (s : State) (p c : Nat) : State :=
  let pk := dmaPage p c
  let s1 := s.setDma p c { s.dma p c with restPaused := false }
  if s.flag pk DMA_CMD.PAUSE then s1
  else if s.fld pk DMA_STATUS.STATE = 3 ∧ s.fld pk DMA_COUNT.COUNT = 0 then s1.completeDma p c
  else if s.fld pk DMA_STATUS.STATE = 2 ∨ s.fld pk DMA_STATUS.STATE = 3 then s1.setFld pk DMA_STATUS.STATE 1
  else s1

/-! ### The wake (R330) -/

/-- Whole slow-clock periods since a tick; the phase of the slow clock is free (assumption 24). -/
def State.slowPeriods (s : State) (since : Nat) : Nat × State :=
  let (v, s1) := s.fresh
  ((s.ticks - since) * 32768 / 1250000000 + (v.getLsbD 0).toNat, s1)

/-- The island of a panel runs again: self-refresh ends, timers are advanced, channels and threads go on. -/
def State.wakePanel (s : State) (p : Nat) : State :=
  let pn := s.panel p
  let (n, s1) := s.slowPeriods pn.restTick
  let s2 := (s1.setPanel p { pn with island := false, restFrom := none, watched := [] }).setFld (ddrcPage p)
    DDRC_STATE.SELF_REFRESH 0
  let s3 := s2.setFld (tmrPage p 16) TMR_REST.PERIODS (min n (2 ^ 32 - 1))
  let s4 := (List.range 16).foldl (fun t i => t.advanceTimer p i n) s3
  let s5 := (List.range 32).foldl (fun t c => if (t.dma p c).restPaused then t.resumeDma p c else t) s4
  s5.setHandover p { s5.handover p with wdogFrom := s5.ticks }

/-- A slice wakes into a mode (R330). -/
def State.wake (s : State) (sl mode : Nat) : State :=
  ((s.wakePanel sl).setMode sl mode mode).raise (modePage sl) 5

/-- An entry into `REST` is abandoned: the panel goes on from where step 1 stopped it (R329). -/
def State.abandonRest (s : State) (sl : Nat) : State :=
  if s.flag (modePage sl) MODE_STATE.REST_PENDING then
    let s1 := (s.setFld (modePage sl) MODE_STATE.REST_PENDING 0).setPanel sl { s.panel sl with restFrom := none }
    (List.range 32).foldl (fun t c => if (t.dma sl c).restPaused then t.resumeDma sl c else t) s1
  else s

/-! ### Protective causes (R328) -/

/-- Codes of `LAST_CAUSE` (R343). -/
def causeFatal : Nat := 1
def causeClock : Nat := 2
def causeThermal : Nat := 3
def causeHalt : Nat := 4

/-- Code in `REFUSED` of a protective cause (R328). -/
def refusedBy (cause : Nat) : Nat :=
  if cause = causeThermal then 2 else if cause = causeClock then 3 else if cause = causeHalt then 4 else 5

/-- A command is refused with a code (R325). -/
def State.refuseCommand (s : State) (sl code : Nat) : State :=
  (s.setFld (modePage sl) MODE_STATE.REFUSED code).raise (modePage sl) 1

/-- A protective cause moves the slice from its present mode (R328). -/
def State.movable (s : State) (sl : Nat) : Bool :=
  let m := s.mode sl
  decide (m = COMMISSION) || decide (m = RUN) || decide (m = REST) || (decide (m = HANDOVER) && decide (s.under sl ≠ HOLD))

/-- A package-wide command has taken effect in this tick (R326). -/
def State.commanded (s : State) (sl : Nat) : Option Bool :=
  match (s.panel sl).commandAt with
  | some (t, b) => if t = s.ticks then some b else none
  | none => none

/-- A protective cause arises in a slice (R328). With a protective transition, a command of the same tick counts as
refused (R326). -/
def State.protect (s : State) (sl cause : Nat) : State :=
  let pk := modePage sl
  let m := s.mode sl
  if m = PRIME then s
  else
    let last := s.fld pk MODE_STATE.LAST_CAUSE
    let pn := s.panel sl
    let code := if pn.causeAt = some s.ticks ∧ last < cause then last else cause
    let moves := s.movable sl || decide (s.commanded sl = some true)
    let s0 := ((s.setFld pk MODE_STATE.LAST_CAUSE code).setPanel sl { pn with
      causeAt := some s.ticks
      movedAt := if moves then some s.ticks else pn.movedAt }).raise pk 2
    let s1 := if moves && (s.commanded sl).isSome then s0.refuseCommand sl (refusedBy code) else s0
    if m = COMMISSION ∨ m = RUN then (s1.abandonRest sl).setMode sl HOLD HOLD
    else if m = HOLD then s1.abandonRest sl
    else if m = REST then s1.wake sl HOLD
    else s1.setMode sl HANDOVER HOLD

end Sys2Proof.Machine
end

