-- ==== Sys2Proof/Machine/Trip.lean ====
section
/-! DEFINITION. The trip network (R106 to R122): sources, masks and blanking, latches, package trip lines, clears,
the safe state, and the canvas-clock override. -/

namespace Sys2Proof.Machine

open Sys2Proof

/-! ### Sources (R106) -/

/-- How the network takes a comparator's outputs (R75, R80): 0 its own, 1 its own or the twin's, 2 the twin's. -/
def State.cmpPhase (s : State) (sec c : Nat) : Nat :=
  let w := s.sweep sec
  match (s.cmp sec c).check with
  | some ch => if ch.step = 0 ∨ ch.step = 6 then 1 else 2
  | none =>
    let back := if w.back.any (fun x => decide (x.1 = c)) then 1 else 0
    if w.target = c then
      match w.phase with
      | .idle => back
      | .driving => 2
      | .handover | .returning => 1
    else back

/-- The outputs that the network takes for a comparator: above, below. -/
def State.cmpOutputs (s : State) (sec c : Nat) : Bool × Bool :=
  let own := s.cmp sec c
  let twin := s.cmp sec (c ^^^ 1)
  let ph := s.cmpPhase sec c
  if ph = 0 then (own.above, own.below)
  else if ph = 1 then (own.above || twin.above, own.below || twin.below)
  else (twin.above, twin.below)

/-- The comparator sources of a sector, bits 0 to 63. -/
def State.cmpSources (s : State) (sec : Nat) : Nat :=
  if s.cmps = [] then 0
  else (List.range 32).foldl (fun m c =>
    let o := s.cmpOutputs sec c
    m + o.1.toNat * 2 ^ c + o.2.toNat * 2 ^ (32 + c)) 0

/-- The package trip lines that some latch drives (R118). -/
def State.lines (s : State) : Nat :=
  s.slices.foldl (fun m sl =>
    let v := (s.trip sl).vote.toNat
    if v = 0 then m
    else (List.range 4).foldl (fun k n =>
      if v &&& s.fld (tripPage sl) (TRIP_BCAST.PAIRS.at (8 * n)) ≠ 0 then k ||| 2 ^ n else k) m) 0

/-- The external pins that are active sources. -/
def State.pinSources (s : State) (sec : Nat) : Nat :=
  (s.trip sec).pinsLow.toNat &&& s.fld (tripPage sec) TRIP_EXT_CFG.EN

/-- Every source of a sector that is active now. -/
def State.sources (s : State) (sec : Nat) : BitVec 76 :=
  BitVec.ofNat 76 (s.cmpSources sec + s.pinSources sec * 2 ^ 64 + s.lines * 2 ^ 72)

/-! ### Masks and blanking (R107) -/

/-- A mask of a pair, from its two registers. -/
def State.mask (s : State) (sec p : Nat) (cmp other : Nat) : BitVec 76 :=
  let pk := tripPage sec
  BitVec.ofNat 76 ((s.reg pk (cmp + 0x40 * p)).toNat + bits (s.reg pk (other + 0x40 * p)) 7 0 * 2 ^ 64
    + bits (s.reg pk (other + 0x40 * p)) 11 8 * 2 ^ 72)

def State.cbcMask (s : State) (sec p : Nat) : BitVec 76 := s.mask sec p 0x208 0x210
def State.latMask (s : State) (sec p : Nat) : BitVec 76 := s.mask sec p 0x218 0x220

/-- Sources that no window blanks. -/
def State.unblankable (s : State) (sec : Nat) : BitVec 76 :=
  let pk := tripPage sec
  BitVec.ofNat 76 ((s.reg pk 0x108).toNat + s.fld pk TRIP_EXT_CFG.NOBLANK * 2 ^ 64 + 0xF * 2 ^ 72)

/-- The tick at which a pair's blanking window closes, 0 when none has opened. -/
def State.windowClose (s : State) (sec p : Nat) : Nat := Store.read 0 (s.trip sec).blankUntil p

/-- The sources that act on a pair in the present tick: a window that is open blanks the blankable ones. -/
def State.acting (s : State) (sec p : Nat) : BitVec 76 :=
  let a := (s.trip sec).active
  if s.ticks < s.windowClose sec p then a &&& s.unblankable sec else a

/-- The sources that act on a pair at an instant of the present tick: an edge of that very instant blanks none, since the
trip wins (R110). -/
def State.actingAt (s : State) (sec p sub : Nat) : BitVec 76 :=
  if s.ticks * 64 + sub ≤ Store.read 0 (s.trip sec).blankFrom p then (s.trip sec).active else s.acting sec p

/-- An edge of the dead-time unit has reached a pin at an instant: a blanking window opens, or one that is open runs on
(R107). -/
def State.openWindow (s : State) (sec p x : Nat) : State :=
  let b := s.fld (tripPage sec) (TRIP_PAIR_CFG.BLANK.at (0x40 * p))
  let tr := s.trip sec
  if b = 0 then s
  else s.setTrip sec { tr with
    blankUntil := Store.write 0 tr.blankUntil p (s.ticks + b),
    blankFrom := if s.ticks < s.windowClose sec p then tr.blankFrom else Store.write 0 tr.blankFrom p x }

/-! ### What governs the pins (R113) -/

def bankOf (sec p : Nat) : Nat := 2 * sec + p / 8

/-- Order 1: high impedance, in `PRIME` until the underpainting is restored (R348). -/
def State.orderOne (s : State) (sec p : Nat) : Bool :=
  s.supply.banksDown.getLsbD (bankOf sec p) || (decide (s.mode sec = PRIME) && !s.restored)

/-- The conditions of order 2 that hold now; the rest of `PRIME` after the restore is one (R348). -/
def State.orderTwoCause (s : State) (sec p : Nat) : Bool :=
  s.latched sec p || decide (s.mode sec = PRIME) || decide (s.sectorMode sec = COMMISSION) || decide (s.sectorMode sec = HOLD)
    || s.flag (tripPage sec) TRIP_OVERRIDE.CLOCK_LOST || s.halted (s.holder (pwmpPage sec p))

/-- Order 2: the safe state. -/
def State.orderTwo (s : State) (sec p : Nat) : Bool :=
  s.orderTwoCause sec p || !(s.trip sec).released.getLsbD p

def State.pairSafe (s : State) (sec p : Nat) : Bool := s.orderOne sec p || s.orderTwo sec p

/-- A level of a PWM pin. -/
inductive Level where
  | low | high | z
  deriving DecidableEq, Repr

/-- A safe state's level (R112). -/
def safeLevel : Nat → Level
  | 0 => .low
  | 1 => .high
  | _ => .z

/-- The level of a PWM pin (R112, R113). -/
def State.pin (s : State) (sec p : Nat) (out : Out) : Level :=
  let pk := tripPage sec
  let (safe, inv, on) := match out with
    | .a => (s.fld pk (TRIP_PAIR_CFG.SAFE_A.at (0x40 * p)), bit (s.pair sec p).cfg PWMP_CFG.INV_A.lo, (s.pair sec p).a)
    | .b => (s.fld pk (TRIP_PAIR_CFG.SAFE_B.at (0x40 * p)), bit (s.pair sec p).cfg PWMP_CFG.INV_B.lo, (s.pair sec p).b)
  if s.orderOne sec p then .z
  else if s.orderTwo sec p then safeLevel safe
  else
    let active := on && !(s.trip sec).cbc.getLsbD p
    if active != inv then .high else .low

/-! ### Trips (R108, R109, R119) -/

/-- The lowest index of a nonempty set of sources. -/
def lowestSource (m : BitVec 76) : Nat := ((List.range 76).find? (fun i => m.getLsbD i)).getD 127

/-- Canvas time at the next tick (R35). -/
def State.nextCanvas (s : State) : Nat := s.canvasNext.getD (s.canvas + 1)

/-- The latch of a pair sets, in every copy (R109, R115, R118, R119). -/
def State.setLatch (s : State) (sec p : Nat) (by_ : BitVec 76) (sub : Nat) : State :=
  let pk := tripPage sec
  let one : BitVec 16 := 1#16 <<< p
  let tr := s.trip sec
  let s1 := s.setTrip sec { tr.setLatches (fun l => l ||| one) with released := tr.released &&& ~~~one }
  let s2 := ((s1.setFld pk (TRIP_PAIR_CAUSE.SOURCE.at (0x40 * p)) (lowestSource by_)).setFld
    pk (TRIP_PAIR_CAUSE.TICK.at (0x40 * p)) ((if sub = 0 then s.canvas else s.nextCanvas) % 2 ^ 48)).count
    pk (TRIP_PAIR_COUNTS.LATCH_COUNT.at (0x40 * p)) 1
  let s3 := (s2.raise pk p).triggerAt ⟨sec, 2, p, s.ticks + (if sub = 0 then 0 else 1)⟩
  let drives := (List.range 4).any (fun n => bit (s.fld pk (TRIP_BCAST.PAIRS.at (8 * n))) p)
  let s4 := s3.raiseIf drives pk 50
  if s.flag pk (TRIP_PAIR_CFG.FATAL.at (0x40 * p)) then (s4.protect sec causeFatal).raiseIf
    (decide (s.mode sec ≠ PRIME)) pk 49 else s4

/-- A cycle-by-cycle trip begins or goes on (R108). -/
def State.cycleTrip (s : State) (sec p : Nat) : State :=
  let pk := tripPage sec
  let tr := s.trip sec
  ((s.setTrip sec (tr.setCbc (fun c => c ||| (1#16 <<< p)))).count
    pk (TRIP_PAIR_COUNTS.CBC_COUNT.at (0x40 * p)) 1).raise pk (32 + p)

/-- A trip holds the pair: its latch is set, or a cycle-by-cycle trip is in force. -/
def State.tripped (s : State) (sec p : Nat) : Bool := s.latched sec p || (s.trip sec).cbc.getLsbD p

/-- A trip has ended the intervals in progress: they count nothing more (R110; assumption 68). -/
def State.cutIntervals (s : State) (sec p : Nat) : State :=
  let v := s.pair sec p
  let cut (i : Interval) : Interval := { i with counted := true }
  s.setPair sec p { v with intA := v.intA.map cut, intB := v.intB.map cut }

/-- The sources that act on a pair take effect, a cycle-by-cycle trip while order 2 does not hold the pair in safe state
(R108, R109; assumption 25). -/
def State.tripPair (s : State) (sec p sub : Nat) : State :=
  let a := s.actingAt sec p sub
  let lat := a &&& s.latMask sec p
  let s1 := if lat ≠ 0 ∧ s.latched sec p = false then (s.setLatch sec p lat sub).cutIntervals sec p else s
  if a &&& s1.cbcMask sec p ≠ 0 ∧ (s1.trip sec).cbc.getLsbD p = false ∧ s1.orderTwo sec p = false then
    (s1.cycleTrip sec p).cutIntervals sec p
  else s1

/-- A pending clear is refused by a source that becomes active (R116). -/
def State.refuseClear (s : State) (sec p : Nat) : State :=
  let pk := tripPage sec
  ((s.setFld pk (TRIP_PAIR_STATE.CLEAR_PENDING.at (0x40 * p)) 0).setFld
    pk (TRIP_PAIR_STATE.STILL_ACTIVE.at (0x40 * p)) 1).raise pk (16 + p)

/-- A sector's sources are taken as they stand: new ones act, ended ones begin to be quiet at `quiet`. -/
def State.refresh (s : State) (sec sub quiet : Nat) : State :=
  let now := s.sources sec
  let tr := s.trip sec
  let rise := now &&& ~~~tr.active
  let fall := tr.active &&& ~~~now
  let q := if fall = 0 then tr.quietFrom
    else (List.range 76).foldl (fun m i => if fall.getLsbD i then Store.write 0 m i quiet else m) tr.quietFrom
  let s1 := s.setTrip sec { tr with active := now, quietFrom := q }
  let s2 := if rise = 0 then s1
    else (List.range 16).foldl (fun t p =>
      if t.flag (tripPage sec) (TRIP_PAIR_STATE.CLEAR_PENDING.at (0x40 * p)) ∧ rise &&& t.latMask sec p ≠ 0
      then t.refuseClear sec p else t) s1
  if now = 0 then s2 else (List.range 16).foldl (fun t p => t.tripPair sec p sub) s2

/-- Package trip lines that have changed act in every sector, until no line changes (R118). -/
def State.spreadLines (sub quiet : Nat) : Nat → State → State
  | 0, s => s
  | n + 1, s =>
    let t := s.slices.foldl (fun u sl => u.refresh sl sub quiet) s
    if t.lines = s.lines then t else State.spreadLines sub quiet n t

/-- The sources of a sector have changed. -/
def State.settleTrips (s : State) (sec sub : Nat) : State :=
  let quiet := s.ticks + (if sub = 0 then 0 else 1)
  let s1 := s.refresh sec sub quiet
  if s1.lines * 2 ^ 72 = (s.trip sec).active.toNat / 2 ^ 72 * 2 ^ 72 then s1 else State.spreadLines sub quiet 5 s1

/-- A tick edge registers the pins and the package lines of every sector (R121). -/
def State.registerSources (s : State) : State :=
  let lines := s.lines
  s.slices.foldl (fun u sec =>
    let now := BitVec.ofNat 12 (u.pinSources sec + lines * 2 ^ 8)
    if (u.trip sec).registered = now then u else u.setTrip sec { u.trip sec with registered := now }) s

/-- `TRIP_SOURCE_ACTIVE` (R106): a pin falls, or another source acts as it stands. -/
def execTripSourceActive (sec : Slice) (src : Fin 76) (sub : Fin 64) (s : State) :
    Host.Outcome State Fault Refusal :=
  if s.present sec = false then .next s
  else if 64 ≤ src.val ∧ src.val < 72 then
    let tr := s.trip sec
    .next ((s.setTrip sec { tr with pinsLow := tr.pinsLow ||| (1#8 <<< (src.val - 64)) }).settleTrips sec sub)
  else .next (s.settleTrips sec sub)

/-- `TRIP_PIN_INACTIVE` (R106): a trip pin returns high. -/
def execTripPinInactive (sec : Slice) (pin : Fin 8) (s : State) : Host.Outcome State Fault Refusal :=
  let tr := s.trip sec
  .next ((s.setTrip sec { tr with pinsLow := tr.pinsLow &&& ~~~(1#8 <<< pin.val) }).settleTrips sec 0)

/-- `BLANKING_CLOSE` (R107): a source still active when the window closes takes effect. -/
def execBlankingClose (sec : Slice) (p : Fin 16) (s : State) : Host.Outcome State Fault Refusal :=
  if s.windowClose sec p = s.ticks ∧ s.ticks ≠ 0 then
    let s1 := s.tripPair sec p 0
    .next (if s1.lines = s.lines then s1 else State.spreadLines 0 s.ticks 5 s1)
  else .next s

/-! ### Clears (R116) -/

/-- Whether every source of a mask has been inactive for 16 consecutive ticks. -/
def State.quiet (s : State) (sec : Nat) (m : BitVec 76) : Bool :=
  let tr := s.trip sec
  decide (tr.active &&& m = 0) &&
    tr.quietFrom.all (fun e => !m.getLsbD e.1 || decide (e.2 + 16 ≤ s.ticks))

/-- The latch of a pair clears, in all three copies (R115, R116). -/
def State.clearLatch (s : State) (sec p : Nat) : State :=
  let pk := tripPage sec
  let s1 := ((s.setTrip sec ((s.trip sec).setLatches (fun l => l &&& ~~~(1#16 <<< p)))).setFld
    pk (TRIP_PAIR_STATE.CLEAR_PENDING.at (0x40 * p)) 0).setFld pk (TRIP_PAIR_STATE.STILL_ACTIVE.at (0x40 * p)) 0
  if s1.lines = s.lines then s1 else State.spreadLines 0 s.ticks 5 s1

/-- A clear of a pair's latch is requested (R116). -/
def State.requestClear (s : State) (sec p : Nat) : State :=
  let pk := tripPage sec
  let m := s.latMask sec p
  if s.latched sec p = false then s
  else if (s.trip sec).active &&& m ≠ 0 then s.refuseClear sec p
  else if s.quiet sec m then s.clearLatch sec p
  else (s.setFld pk (TRIP_PAIR_STATE.CLEAR_PENDING.at (0x40 * p)) 1).setFld
    pk (TRIP_PAIR_STATE.STILL_ACTIVE.at (0x40 * p)) 0

/-- `TRIP_CLEAR_PAIR` (R116). -/
def execTripClearPair (sec : Slice) (p : Fin 16) (s : State) : Host.Outcome State Fault Refusal :=
  .next (s.requestClear sec p)

/-- `CLEAR_PENDING_COMPLETE` (R116). -/
def execClearPendingComplete (sec : Slice) (p : Fin 16) (s : State) : Host.Outcome State Fault Refusal :=
  if s.flag (tripPage sec) (TRIP_PAIR_STATE.CLEAR_PENDING.at (0x40 * p.val)) ∧ s.quiet sec (s.latMask sec p) then
    .next (s.clearLatch sec p)
  else .next s

/-- The latches and cycle-by-cycle trips of one copy are as given. -/
def Trip.setCopy (t : Trip) (copy : Nat) (latches cbc : BitVec 16) : Trip :=
  { t with latches := oneCopy copy latches t.latches, cbcs := oneCopy copy cbc t.cbcs }

/-- Some output of a copy differs from the other two copies'. -/
def Trip.differs (t : Trip) (copy : Nat) : Bool :=
  decide (copyOf copy t.latches ≠ t.vote) || decide (copyOf copy t.cbcs ≠ t.cbc)

/-- `VOTE_DISAGREE` (R115): a copy of the network has come to hold other latches or cycle-by-cycle trips, and has
differed for two ticks (assumption 101). -/
def execVoteDisagree (sec : Slice) (copy : Fin 3) (s : State) (latches : BitVec 16 := 0) (cbc : BitVec 16 := 0) :
    Host.Outcome State Fault Refusal :=
  let pk := tripPage sec
  let s1 := s.setTrip sec ((s.trip sec).setCopy copy latches cbc)
  .next (if (s1.trip sec).differs copy then
      ((s1.setFld pk TRIP_VOTE.COPY (putBit (s.fld pk TRIP_VOTE.COPY) copy true)).count pk TRIP_VOTE.DISAGREE 1).raise
        pk 48
    else s1)

/-- `VOTE_CLR` (R121). -/
def execVoteClr (ag : Agent) (sec : Slice) (s : State) : Host.Outcome State Fault Refusal :=
  .next (s.writeBy ag (tripPage sec) 0x148 (fun t => t.setReg (tripPage sec) 0x138 0))

/-- The trip counts of every pair are cleared. -/
def State.clearTripCounts (s : State) (sec : Nat) : State :=
  (List.range 16).foldl (fun t p => t.setReg (tripPage sec) (0x238 + 0x40 * p) 0) s

/-- `COUNT_CLR` (R121). -/
def execCountClr (ag : Agent) (sec : Slice) (s : State) : Host.Outcome State Fault Refusal :=
  .next (s.writeBy ag (tripPage sec) 0x148 (fun t => t.clearTripCounts sec))

/-! ### The canvas clock (R119) -/

/-- `CANVAS_CLOCK_LOSS` (R119): a tick edge is missing in a sector's tree. -/
def execCanvasClockLoss (sec : Slice) (s : State) : Host.Outcome State Fault Refusal :=
  if s.present sec = false ∨ (s.trip sec).clockMissing then .next s
  else
    let s1 := s.setTrip sec { s.trip sec with clockMissing := true }
    .next (s.slices.foldl (fun t sl =>
      let t1 := ((t.setFld (tripPage sl) TRIP_OVERRIDE.CLOCK_LOST 1).unrelease sl 0xFFFF).raiseIf
        (!t.flag (tripPage sl) TRIP_OVERRIDE.CLOCK_LOST) (tripPage sl) 49
      t1.protect sl causeClock) s1)

/-- `CANVAS_CLOCK_RETURN` (R119): every count resumes from the value it held. -/
def execCanvasClockReturn (sec : Slice) (s : State) : Host.Outcome State Fault Refusal :=
  .next (s.setTrip sec { s.trip sec with clockMissing := false })

/-! ### Release (R117) -/

/-- The conditions of a release other than the wrap. -/
def State.mayRelease (s : State) (sec p : Nat) : Bool :=
  let lead := (s.pair sec p).leader
  !s.latched sec p && decide (s.sectorMode sec = RUN) && !s.flag (tripPage sec) TRIP_OVERRIDE.CLOCK_LOST
    && !s.halted (s.holder (pwmpPage sec p)) && decide (s.acting sec p &&& s.cbcMask sec p = 0)
    && (decide (16 ≤ lead) || (!s.orderTwo sec lead && decide ((s.pair sec lead).relTick < s.ticks)))

/-- `TRIP_PAIR_STATE` as a read returns it (R121). -/
def State.pairStateWord (s : State) (sec p : Nat) : Word :=
  let kept := s.reg (tripPage sec) (0x228 + 0x40 * p)
  let cbc := (s.trip sec).cbc.getLsbD p
  let waits := s.mayRelease sec p && (!(s.trip sec).released.getLsbD p || cbc)
  (kept &&& 0x30) ||| BitVec.ofNat 64 (waits.toNat * 64 + (s.halted (s.holder (pwmpPage sec p))).toNat * 8
    + (s.pairSafe sec p).toNat * 4 + cbc.toNat * 2 + (s.latched sec p).toNat)

end Sys2Proof.Machine
end

