-- ==== Sys2Proof/Machine/Wcmp.lean ====
section
/-! DEFINITION. Window comparators, their checks, and the sweep DAC (R70 to R82). -/

namespace Sys2Proof.Machine

open Sys2Proof

/-! ### Thresholds and outputs (R70, R71, R73, R78). Voltages are in nanovolts. -/

def thresholdLevel (sel code : Nat) : Int :=
  if sel = 1 then ((code : Int) - 512) * 1562500 else (code : Int) * 1562500

/-- Hysteresis in nanovolts. -/
def hysteresis : Nat → Int
  | 0 => 0
  | 1 => 5000000
  | 2 => 10000000
  | _ => 20000000

/-- The check levels high, low and mid. -/
def tieLevel (sel tie : Nat) : Int :=
  if sel = 1 then (if tie = 1 then 600000000 else if tie = 2 then -600000000 else 0)
  else (if tie = 1 then 1400000000 else if tie = 2 then 200000000 else 800000000)

/-- Bits of resolution of a sweep. -/
def State.sweepBits (s : State) (sec : Nat) : Nat := 6 + 2 * s.fld (sweepPage sec) SWEEP_CFG.BITS

/-- The level of a sweep code. -/
def sweepLevel (sel width code : Nat) : Int :=
  (code : Int) * 1600000000 / 2 ^ width - (if sel = 1 then 800000000 else 0)

/-- The sweep drives a comparator's high threshold. -/
def State.swept (s : State) (sec c : Nat) : Bool :=
  let w := s.sweep sec
  decide (w.phase = .driving) && decide (w.target = c)

/-- What the comparator's core sees for a voltage at its input. -/
def State.coreInput (s : State) (sec c : Nat) (v : Int) : Int :=
  let pk := wcmpPage sec c
  let sel := s.fld pk WCMP_CFG.SEL
  let tie := s.fld pk WCMP_CFG.TIE
  let u := if tie = 0 then v else tieLevel sel tie
  if s.flag pk WCMP_CFG.SWAP then (if sel = 1 then -u else 1600000000 - u) else u

/-- The threshold codes that a comparator uses, high and low: those from before a check until its pin is tied (R76). -/
def State.thresholds (s : State) (sec c : Nat) : Nat × Nat :=
  let pk := wcmpPage sec c
  match (s.cmp sec c).check with
  | some ch => if ch.step = 0 then (ch.hi, ch.lo) else (s.fld pk WCMP_THRESH.HI, s.fld pk WCMP_THRESH.LO)
  | none => (s.fld pk WCMP_THRESH.HI, s.fld pk WCMP_THRESH.LO)

/-- The outputs for a core input, from the outputs held before it (R71, R78; assumption 26). -/
def State.compare (s : State) (sec c : Nat) (v : Int) (above below : Bool) : Bool × Bool :=
  let pk := wcmpPage sec c
  let sel := s.fld pk WCMP_CFG.SEL
  let u := s.coreInput sec c v
  let hy := hysteresis (s.fld pk WCMP_CFG.HYST)
  let hi := if s.swept sec c then sweepLevel sel (s.sweepBits sec) (s.sweep sec).code
    else thresholdLevel sel (s.thresholds sec c).1
  let hyHi := if s.swept sec c then 0 else hy
  let lo := thresholdLevel sel (s.thresholds sec c).2
  if sel = 0 then (false, false)
  else (if hi < u then true else if u < hi - hyHi then false else above,
        if u < lo then true else if lo + hy < u then false else below)

/-- The pin is disconnected by the check. -/
def Comparator.tied (v : Comparator) : Bool :=
  match v.check with
  | some ch => decide (1 ≤ ch.step) && decide (ch.step < 5)
  | none => false

/-- A comparator's outputs are set; a change to 1 sets its event latch (R74). -/
def State.setOutputs (s : State) (sec c : Nat) (v : Int) (o : Bool × Bool) (latch : Bool) : State :=
  let k := s.cmp sec c
  let seen := latch && !k.hidden
  ((s.setCmp sec c { k with input := v, above := o.1, below := o.2 }).raiseIf (o.1 && !k.above && seen)
    (wcmpPage sec c) 0).raiseIf (o.2 && !k.below && seen) (wcmpPage sec c) 1

/-- A comparator takes its input, its thresholds and its settings as they stand. -/
def State.evaluate (s : State) (sec c : Nat) (v : Int) (latch : Bool) (sub : Nat) : State :=
  let k := s.cmp sec c
  if k.tied then s.setCmp sec c { k with input := v }
  else (s.setOutputs sec c v (s.compare sec c v k.above k.below) latch).settleTrips sec sub

/-- `COMPARATOR_CROSSING` (R71, R74): the input now stands at `nanovolts`; `held` says that a change of an output
lasts 0.5 ns or more. -/
def execComparatorCrossing (sec : Slice) (c : Fin 32) (nanovolts : Int) (held : Bool) (sub : Fin 64) (s : State) :
    Host.Outcome State Fault Refusal :=
  if s.present sec then .next (s.evaluate sec c nanovolts held sub) else .next s

/-- The settings or thresholds of a comparator have been written (R72; assumption 27). -/
def State.reevaluate (s : State) (sec c : Nat) : State := s.evaluate sec c (s.cmp sec c).input true 0

/-- `WCMP_STATE` as a read returns it (R73, R74, R76). -/
def State.cmpStateWord (s : State) (sec c : Nat) : Word :=
  let k := s.cmp sec c
  (s.reg (wcmpPage sec c) 0x110 &&& 0x100) ||| BitVec.ofNat 64 ((s.swept sec c).toNat * 128
    + k.check.isSome.toNat * 64 + (s.cmpPhase sec c = 2 : Bool).toNat * 32
    + (s.cmpPhase sec (c ^^^ 1) = 2 : Bool).toNat * 16 + k.wasBelow.toNat * 2 + k.wasAbove.toNat)

/-! ### Checks (R75, R76) -/

/-- A comparator is free for a check or a sweep: not checking, swept or standing in, untied, unswapped. -/
def State.cmpFree (s : State) (sec c : Nat) : Bool :=
  let pk := wcmpPage sec c
  (s.cmp sec c).check.isNone && !s.swept sec c && decide (s.cmpPhase sec (c ^^^ 1) ≠ 2)
    && decide (s.fld pk WCMP_CFG.TIE = 0) && decide (s.fld pk WCMP_CFG.SWAP = 0)

/-- The conditions of R75. -/
def State.mayCheck (s : State) (sec c : Nat) : Bool :=
  let pk := wcmpPage sec c
  let tw := wcmpPage sec (c ^^^ 1)
  let sel := s.fld pk WCMP_CFG.SEL
  (decide (sel = 1) || decide (sel = 2)) && s.cmpFree sec c && s.cmpFree sec (c ^^^ 1)
    && decide (s.fld tw WCMP_CFG.SEL = sel) && decide (s.fld tw WCMP_CFG.HYST = s.fld pk WCMP_CFG.HYST)
    && decide (s.fld tw WCMP_THRESH.HI = s.fld pk WCMP_THRESH.HI)
    && decide (s.fld tw WCMP_THRESH.LO = s.fld pk WCMP_THRESH.LO)

/-- A `GO` accepted in this tick for a comparator or its twin gives way to a check, and is refused (R80). -/
def State.withdrawGo (s : State) (sec c : Nat) : State :=
  let pk := sweepPage sec
  let w := s.sweep sec
  if w.phase = .handover ∧ w.start = s.ticks ∧ w.target / 2 = c / 2 then
    (((s.setReg pk 0x118 w.before).setFld pk SWEEP_RESULT.REFUSED 1).setSweep sec { w with phase := .idle }).raise pk 2
  else s

/-- A check is requested (R75, R80). DESIGN CHOICE: in the 15 ticks after an accepted `GO` of the comparator or its twin, in
which `SWEPT` is still 0, the check is accepted, and both hand-overs run (assumption 122). -/
def State.requestCheck (s : State) (sec c : Nat) : State :=
  let pk := wcmpPage sec c
  if s.mayCheck sec c then
    let s1 := s.withdrawGo sec c
    (s1.setCmp sec c { s1.cmp sec c with
      check := some ⟨s.ticks, 0, 0, s.fld pk WCMP_THRESH.HI, s.fld pk WCMP_THRESH.LO⟩ }).settleTrips sec 0
  else (s.setFld pk WCMP_CHECK.RESULT 0).raise pk 3

/-- `WCMP_CHECK_START` (R75). -/
def execWcmpCheckStart (ag : Agent) (sec : Slice) (c : Fin 32) (s : State) : Host.Outcome State Fault Refusal :=
  .next (s.writeBy ag (wcmpPage sec c) 0x118 (fun t => t.requestCheck sec c))

/-- Whether the outputs read at the end of a test step are the expected ones. -/
def expected (step : Nat) (above below : Bool) : Bool :=
  if step = 1 then above && !below
  else if step = 2 then !above && below
  else if step = 3 then !above && !below
  else !above && below

/-- `CHECK_STEP` (R75, R76): the next row of the check sequence; `above` and `below` are the core's outputs. -/
def execCheckStep (sec : Slice) (c : Fin 32) (above below : Bool) (s : State) :
    Host.Outcome State Fault Refusal :=
  let k := s.cmp sec c
  match k.check with
  | none => .next s
  | some ch =>
    if ch.step < 6 ∧ s.ticks = ch.start + 16 * (ch.step + 1) then
      let read := decide (1 ≤ ch.step) && decide (ch.step ≤ 4) && expected ch.step above below
      let ch1 : Check := { ch with
        step := ch.step + 1, results := ch.results + (if read then 2 ^ (ch.step - 1) else 0) }
      if ch.step = 0 then .next ((s.setCmp sec c { k with check := some ch1 }).settleTrips sec 0)
      else if ch.step = 4 then
        let s1 := s.setCmp sec c { k with check := some ch1, above := false, below := false }
        let o := s1.compare sec c k.input false false
        .next ((s1.setCmp sec c { k with check := some ch1, above := o.1, below := o.2 }).settleTrips sec 0)
      else if ch.step = 5 then
        let s1 := s.setCmp sec c { k with
          check := some ch1
          wasAbove := k.above
          wasBelow := k.below
          lastAbove := k.above
          lastBelow := k.below }
        let s2 := ((s1.raiseIf k.above (wcmpPage sec c) 0).raiseIf k.below (wcmpPage sec c) 1).settleTrips sec 0
        .next (if k.above || k.below then s2.triggerSource sec 1 c else s2)
      else .next (s.setCmp sec c { k with check := some ch1 })
    else .next s

/-- `CHECK_DONE` (R75): 112 ticks after the start. -/
def execCheckDone (sec : Slice) (c : Fin 32) (s : State) : Host.Outcome State Fault Refusal :=
  let pk := wcmpPage sec c
  let k := s.cmp sec c
  match k.check with
  | none => .next s
  | some ch =>
    if ch.step = 6 ∧ s.ticks = ch.start + 112 then
      let bad := decide (ch.results ≠ 15)
      let s1 := ((s.setCmp sec c { k with check := none }).setFld pk WCMP_CHECK.RESULT ch.results).setFld
        pk WCMP_STATE.FAILED bad.toNat
      .next (((s1.raise pk 2).raiseIf bad pk 3).settleTrips sec 0)
    else .next s

/-! ### The sweep DAC (R78 to R81) -/

/-- A sweep setting that the spec calls a host error (R79). -/
def State.sweepIllegal (s : State) (sec : Nat) : Bool :=
  let pk := sweepPage sec
  let b := s.sweepBits sec
  decide (s.fld pk SWEEP_CFG.DWELL < 8 * 2 ^ s.fld pk SWEEP_CFG.BITS)
    || decide (2 ^ b ≤ s.fld pk SWEEP_RAMP.FROM) || decide (s.fld pk SWEEP_RAMP.STEP = 0)

/-- A `GO` takes effect (R80). `BUSY` is set at once, and `CROSS` of the last ramp falls with the `GO` of any sweep
(assumptions 98 and 99). -/
def State.goSweep (s : State) (sec : Nat) : State :=
  let pk := sweepPage sec
  let c := s.fld pk SWEEP_CFG.TARGET
  if s.flag pk SWEEP_RESULT.BUSY ∨ s.mayCheck sec c = false then
    (s.setFld pk SWEEP_RESULT.REFUSED 1).raise pk 2
  else if s.fld pk SWEEP_CFG.MODE = 0 then s.setFld pk SWEEP_RESULT.REFUSED 0
  else if s.sweepIllegal sec then s.err pk
  else
    let s1 := (((s.setFld pk SWEEP_RESULT.REFUSED 0).setFld pk SWEEP_RESULT.BUSY 1).setFld
      pk SWEEP_RESULT.DONE 0).setFld pk SWEEP_RESULT.CROSS 0
    let w := s.sweep sec
    (s1.setSweep sec { w with
      before := s.reg pk 0x118, back := w.back ++ (if w.phase = .returning then [(w.target, w.endAt)] else []),
      phase := .handover, target := c, mode := s.fld pk SWEEP_CFG.MODE, start := s.ticks, first := none,
      stop := false }).settleTrips sec 0

/-- `SWEEP_GO` (R80). -/
def execSweepGo (sec : Slice) (s : State) : Host.Outcome State Fault Refusal := .next (s.goSweep sec)

/-- `SWEEP_STOP` (R79): the sweep ends at the next tick. -/
def execSweepStop (ag : Agent) (sec : Slice) (s : State) : Host.Outcome State Fault Refusal :=
  .next (s.writeBy ag (sweepPage sec) 0x110 (fun t =>
    if t.flag (sweepPage sec) SWEEP_RESULT.BUSY then
      t.setSweep sec { t.sweep sec with stop := true, endAt := t.ticks + 1 } else t))

/-- A code is applied to the target. -/
def State.applyCode (s : State) (sec : Nat) (w : Sweep) : State :=
  (s.setSweep sec w).reevaluate sec w.target

/-- A ramp's next code: toward `TO` by `STEP`, never beyond it (R81). -/
def rampNext (code last step : Nat) : Nat :=
  if code < last then (if code + step < last then code + step else last)
  else (if last + step < code then code - step else last)

/-- The search's decision on the bit under test. -/
def searchCode (code bitAt : Nat) (above : Bool) : Nat := if above then code else code - 2 ^ bitAt

/-- Targets of earlier sweeps whose 16 ticks are over are taken alone again (R80). -/
def State.clearBack (s : State) (sec : Nat) : State :=
  let w := s.sweep sec
  let l := w.back.filter (fun x => decide (s.ticks < x.2 + 16))
  if l = w.back then s else (s.setSweep sec { w with back := l }).settleTrips sec 0

/-- `SWEEP_STEP` (R80, R81): the sweep's next step at its tick. DESIGN CHOICE: `MODE` and `TARGET` are those of the `GO`,
the first code is `FROM` as it stands when it is applied, and `DWELL`, `BITS`, `STEP` and `TO` are those of the registers
at each step (assumption 121). -/
def execSweepStep (sec : Slice) (s0 : State) : Host.Outcome State Fault Refusal :=
  let s := s0.clearBack sec
  let pk := sweepPage sec
  let w := s.sweep sec
  let dwell := s.fld pk SWEEP_CFG.DWELL
  match w.phase with
  | .idle => .next s
  | .handover =>
    if s.ticks = w.start + 16 then
      let b := s.sweepBits sec
      let code := if w.mode = 3 then 2 ^ (b - 1) else s.fld pk SWEEP_RAMP.FROM
      let s1 := s.applyCode sec { w with phase := .driving, stepAt := s.ticks, code := code, bit := b - 1 }
      .next (s1.setSweep sec { s1.sweep sec with first := some (s1.cmp sec w.target).above })
    else .next s
  | .driving =>
    if s.ticks ≠ w.stepAt + dwell then .next s
    else if w.mode = 2 ∧ w.code ≠ s.fld pk SWEEP_RAMP.TO then
      .next (s.applyCode sec { w with
        stepAt := s.ticks, code := rampNext w.code (s.fld pk SWEEP_RAMP.TO) (s.fld pk SWEEP_RAMP.STEP) })
    else if w.mode = 3 ∧ 0 < w.bit then
      let kept := searchCode w.code w.bit (s.cmp sec w.target).wasAbove
      .next (s.applyCode sec { w with
        stepAt := s.ticks, code := kept + 2 ^ (w.bit - 1), bit := w.bit - 1 })
    else .next s
  | .returning =>
    if s.ticks = w.endAt + 16 then .next ((s.setSweep sec { w with phase := .idle }).settleTrips sec 0)
    else .next s

/-- The sweep ends: the target's own threshold returns, and the result stands (R80, R81). -/
def State.endSweep (s : State) (sec : Nat) (result : Option (Nat × Bool)) : State :=
  let pk := sweepPage sec
  let w := s.sweep sec
  let s1 := (s.setFld pk SWEEP_RESULT.DONE 1).setFld pk SWEEP_RESULT.BUSY 0
  let s2 := match result with
    | some (code, cross) =>
      (((s1.setFld pk SWEEP_RESULT.CODE code).setFld pk SWEEP_RESULT.CROSS cross.toNat).setFld
        pk SWEEP_RESULT.TICK (s.canvas % 2 ^ 32)).raiseIf cross pk 1
    | none => s1
  let phase := match w.phase with | .driving => .returning | .handover => .returning | other => other
  ((s2.raise pk 0).setSweep sec { w with phase := phase, endAt := s.ticks, stop := false }).reevaluate sec w.target

/-- `SWEEP_END` (R81): a stop, a crossing, the end of a ramp or of a search. -/
def execSweepEnd (sec : Slice) (s : State) : Host.Outcome State Fault Refusal :=
  let pk := sweepPage sec
  let w := s.sweep sec
  let k := s.cmp sec w.target
  let crossed := decide (w.start + 18 ≤ s.ticks) && decide (some k.wasAbove ≠ w.first)
  let dwelt := decide (s.ticks = w.stepAt + s.fld pk SWEEP_CFG.DWELL)
  if s.flag pk SWEEP_RESULT.BUSY = false then .next s
  else if w.stop ∧ w.endAt ≤ s.ticks then .next (s.endSweep sec none)
  else if w.phase ≠ .driving then .next s
  else if w.mode = 2 ∧ w.first.isSome ∧ crossed then .next (s.endSweep sec (some (w.code, true)))
  else if w.mode = 2 ∧ w.code = s.fld pk SWEEP_RAMP.TO ∧ dwelt then .next (s.endSweep sec (some (w.code, false)))
  else if w.mode = 3 ∧ w.bit = 0 ∧ dwelt then
    .next (s.endSweep sec (some (searchCode w.code 0 k.wasAbove, false)))
  else .next s

/-- A tick edge registers a comparator's outputs; what the edge before registered is shown. A comparator that comes to
stand outside its window is seen as a trigger then (R66, R74). -/
def State.tickComparator (s : State) (sec c : Nat) : State :=
  let v := s.cmp sec c
  if v.hidden then s
  else
    let s1 := s.setCmp sec c { v with
      wasAbove := v.lastAbove, wasBelow := v.lastBelow, lastAbove := v.above, lastBelow := v.below }
    if (v.lastAbove && !v.wasAbove) || (v.lastBelow && !v.wasBelow) then s1.triggerSource sec 1 c else s1

/-- What a tick edge does to every comparator. -/
def State.tickComparators (s : State) : State :=
  (s.cmps.map Prod.fst).foldl (fun t k => t.tickComparator (k / 32) (k % 32)) s

end Sys2Proof.Machine
end

