-- ==== Sys2Proof/Machine/Pwm.lean ====
section
/-! DEFINITION. Pulse generation (R83 to R105): counters, the raw signals, dead time, narrow pulses, sync chains,
live values, stipple lines. Instants are counted in stipple steps: 64 for each tick. -/

namespace Sys2Proof.Machine

open Sys2Proof

/-! ### Periods and wraps (R83, R94, R95) -/

def State.prescOf (s : State) (sec p : Nat) : Nat := 2 ^ s.fld (pwmpPage sec p) PWMP_CFG.PRESC

/-- A period value as it is used (R83). -/
def usedPeriod (v : Nat) : Nat := if v < 4 then 4 else v

/-- The period in force, in steps: a follower has taken its leader's at its own wrap (R94; assumption 30). -/
def State.periodNow (s : State) (sec p : Nat) : Nat := (s.pair sec p).period

/-- The step in force, in ticks. -/
def State.stepNow (s : State) (sec p : Nat) : Nat := (s.pair sec p).presc

/-- The wrap that began the present period of a pair, or at which its counter stopped. -/
def Pair.lastWrap (v : Pair) : Wrap := ⟨v.wrapTick, v.period, v.presc⟩

/-- The tick part of a follower's phase after a wrap of its leader, in ticks: reduced by whole periods of the leader
(R94). -/
def State.phaseAfter (s : State) (sec p : Nat) (w : Wrap) : Nat :=
  s.fld (pwmpPage sec p) PWMP_PHASE.VALUE / 64 % w.period * w.presc

/-- Ticks at which a follower's own wrap falls after the wraps that its immediate leader has had; one that is stopped
starts only after its leader has (R94). -/
def State.phasedWraps (s : State) (sec p : Nat) : List Nat :=
  let v := s.pair sec p
  let l := s.pair sec v.leader
  ((l.lastWrap :: l.past).filter (fun w => v.running || (l.running && decide (l.started ≤ w.tick)))).map
    (fun w => w.tick + s.phaseAfter sec p w)

/-- A follower wraps at this tick: its phase after a wrap of its leader, or a wrap kept over a new phase. -/
def State.followerDue (s : State) (sec p : Nat) : Bool :=
  let v := s.pair sec p
  decide (v.forced = some s.ticks) || (decide (v.since ≤ s.ticks) && (s.phasedWraps sec p).contains s.ticks)

/-- The earliest of some ticks, from one on. -/
def firstFrom (from_ : Nat) (l : List Nat) : Option Nat :=
  (l.filter (fun t => decide (from_ ≤ t))).foldl (fun m t => some (min t (m.getD t))) none

/-- The period that follows the present one: its steps, and the ticks of a step. -/
def State.nextPeriod (s : State) (sec : Nat) : Nat → Nat → Nat × Nat
  | 0, p => (s.periodNow sec p, s.stepNow sec p)
  | n + 1, p =>
    let v := s.pair sec p
    if 16 ≤ v.leader then (usedPeriod (s.fld (pwmpPage sec p) PWMP_PERIOD.VALUE), s.prescOf sec p)
    else
      let l := s.pair sec v.leader
      match firstFrom (max (s.ticks + 1) v.since) (s.phasedWraps sec p) with
      | some _ => (l.period, l.presc)
      | none => State.nextPeriod s sec n v.leader

/-- The tick of a pair's next wrap under the values in force, for predictions (R90). -/
def State.nextWrap (s : State) (sec : Nat) : Nat → Nat → Nat
  | 0, p => (s.pair sec p).endTick
  | n + 1, p =>
    let v := s.pair sec p
    if 16 ≤ v.leader then v.endTick
    else
      match firstFrom (max (s.ticks + 1) v.since) (s.phasedWraps sec p) with
      | some t => t
      | none =>
        let w := State.nextWrap s sec n v.leader
        let k := s.nextPeriod sec n v.leader
        w + s.phaseAfter sec p ⟨w, k.1, k.2⟩

/-- The stipple phase that the next wrap takes (R95). -/
def State.nextPhase (s : State) (sec p : Nat) : Nat :=
  if (s.pair sec p).leader < 16 then s.fld (pwmpPage sec p) PWMP_PHASE.VALUE % 64 else 0

/-- The instant of a position in the next period, under the values in force. -/
def State.nextPlace (s : State) (sec p value : Nat) : Option Nat :=
  let n := s.nextPeriod sec 16 p
  if n.1 ≤ value / 64 then none
  else some ((s.nextWrap sec 16 p + value / 64 * n.2) * 64 + value % 64 + s.nextPhase sec p)

/-! ### Positions (R86, R96) -/

/-- A compare value in force. -/
def State.cmpVal (s : State) (sec p i : Nat) : Nat := s.fld (pwmpPage sec p) (PWMP_CMP.VALUE.at (8 * i))

/-- The instant of a position in a period that begins at a tick, if it lies within the period. -/
def place (wrap steps step phase value : Nat) : Option Nat :=
  if steps ≤ value / 64 then none else some ((wrap + value / 64 * step) * 64 + value % 64 + phase)

/-- The instant of an edge in the present period: `i` is the compare register. -/
def State.position (s : State) (sec p i : Nat) : Option Nat :=
  let v := s.pair sec p
  let moved := match i with
    | 0 => v.riseAtA
    | 1 => v.fallAtA
    | 2 => v.riseAtB
    | _ => v.fallAtB
  match moved with
  | some x => some x
  | none => place v.wrapTick (s.periodNow sec p) (s.stepNow sec p) v.phase (s.cmpVal sec p i)

/-- An instant of the present tick. -/
def State.isNow (s : State) (x : Option Nat) : Bool :=
  match x with
  | some i => decide (i / 64 = s.ticks)
  | none => false

/-- The scheduled rise of S (or of S_B) in the present period, if it is still to come. -/
def State.riseDue (s : State) (sec p : Nat) (second : Bool) : Option Nat :=
  let v := s.pair sec p
  let i := if second then 2 else 0
  let done := if second then v.roseB else v.roseA
  if done ∨ s.cmpVal sec p (i + 1) ≤ s.cmpVal sec p i then none else s.position sec p i

/-- The scheduled fall of S (or of S_B) in the present period, if it is still to come. -/
def State.fallDue (s : State) (sec p : Nat) (second : Bool) : Option Nat :=
  let v := s.pair sec p
  let i := if second then 3 else 1
  let done := if second then v.fellB else v.fellA
  if done then none else s.position sec p i

/-- S would rise at the very start of a period (R86). -/
def State.risesAtWrap (s : State) (sec p : Nat) (second : Bool) : Bool :=
  let i := if second then 2 else 0
  decide (s.cmpVal sec p i = 0) && decide (0 < s.cmpVal sec p (i + 1))

/-- The instant of the next wrap. -/
def State.wrapInstant (s : State) (sec p : Nat) : Nat := s.nextWrap sec 16 p * 64 + s.nextPhase sec p

/-- The next fall of a high signal after an instant, within this period or the next (R90). -/
def State.nextFall (s : State) (sec p : Nat) (second : Bool) (x : Nat) : Option Nat :=
  let w := s.wrapInstant sec p
  match s.fallDue sec p second with
  | some f => if x < f ∧ f < w then some f else rest w
  | none => rest w
where
  rest (w : Nat) : Option Nat :=
    if s.risesAtWrap sec p second then s.nextPlace sec p (s.cmpVal sec p (if second then 3 else 1)) else some w

/-- The next rise of a low signal after an instant, within this period or the next (R90). DESIGN CHOICE: the counter is
taken to run on, whatever `STOP` or `ONE_SHOT` will do at the wrap (assumption 124). -/
def State.nextRise (s : State) (sec p : Nat) (second : Bool) (x : Nat) : Option Nat :=
  let w := s.wrapInstant sec p
  match s.riseDue sec p second with
  | some r => if x < r ∧ r < w then some r else rest
  | none => rest
where
  rest : Option Nat :=
    let i := if second then 2 else 0
    if s.cmpVal sec p (i + 1) ≤ s.cmpVal sec p i then none
    else s.nextPlace sec p (s.cmpVal sec p i)

/-! ### Outputs, intervals and counts (R88 to R92, R107) -/

/-- The outputs of the dead-time unit from an instant on; an edge that reaches a pin opens a blanking window (R107). -/
def State.setOuts (s : State) (sec p x : Nat) (a b : Bool) : State :=
  let v := s.pair sec p
  let s1 := s.setPair sec p { v with a := a, b := b }
  if (a != v.a || b != v.b) && !s.pairSafe sec p && !(s.trip sec).cbc.getLsbD p then s1.openWindow sec p x else s1

/-- A narrow interval is dropped: counted and raised, unless a trip holds the pair (R91, R110; assumption 68). -/
def State.noteDropped (s : State) (sec p : Nat) : State :=
  if s.tripped sec p then s else (s.count (pwmpPage sec p) PWMP_NARROW.DROPPED 1).raise (pwmpPage sec p) 1

/-- A narrow interval is stretched. -/
def State.noteStretched (s : State) (sec p : Nat) : State :=
  if s.tripped sec p then s else (s.count (pwmpPage sec p) PWMP_NARROW.STRETCHED 1).raise (pwmpPage sec p) 2

/-- An interval is held beyond its end (R92). -/
def State.noteHeld (s : State) (sec p : Nat) : State :=
  if s.tripped sec p then s else (s.count (pwmpPage sec p) PWMP_NARROW.STRETCHED 1).raise (pwmpPage sec p) 3

/-- An interval from its start to an end is narrower than the minimum width (R90). -/
def narrow (start m : Nat) (finish : Option Nat) : Bool :=
  match finish with
  | some e => decide (e < start + m)
  | none => false

/-- The policy in use: STRETCH, not DROP (R91, R98). -/
def State.stretches (s : State) (sec p : Nat) : Bool := bit (s.pair sec p).cfg PWMP_CFG.NARROW.lo

/-- The interval still has to last at an instant. -/
def lasting (i : Option Interval) (x : Nat) : Bool :=
  match i with
  | some v => decide (x < v.start + v.width)
  | none => false

/-- S calls for the end of an interval that must last: a hold is counted once, unless the interval was predicted
narrow (R92). -/
def State.holdA (s : State) (sec p : Nat) : State :=
  let v := s.pair sec p
  match v.intA with
  | some i => if i.narrow ∨ i.counted then s
      else (s.setPair sec p { v with intA := some { i with counted := true } }).noteHeld sec p
  | none => s

def State.holdB (s : State) (sec p : Nat) : State :=
  let v := s.pair sec p
  match v.intB with
  | some i => if i.narrow ∨ i.counted then s
      else (s.setPair sec p { v with intB := some { i with counted := true } }).noteHeld sec p
  | none => s

/-! #### Complementary mode (R88, R90, R91) -/

/-- A turns off at an instant: B's interval is tested, and B follows after `DT_FALL`. -/
def State.endA (s : State) (sec p x : Nat) : State :=
  let v := s.pair sec p
  let start := x + v.dtFall
  let thin := narrow start v.minWidth (s.nextRise sec p false x)
  if thin && !s.stretches sec p then (s.setPair sec p { v with skipRise := true }).noteDropped sec p
  else
    let s1 := (s.setOuts sec p x false v.b)
    let s2 := s1.setPair sec p { s1.pair sec p with
      intA := none, onA := none, onB := some start, intB := some ⟨start, v.minWidth, thin, false⟩ }
    if thin then s2.noteStretched sec p else s2

/-- S is high and B may end at an instant: A's interval is tested, B turns off, A follows after `DT_RISE`. -/
def State.startA (s : State) (sec p x : Nat) : State :=
  let v := s.pair sec p
  let start := x + v.dtRise
  let thin := narrow start v.minWidth (s.nextFall sec p false x)
  if thin && !s.stretches sec p then (s.setPair sec p { v with skipFall := true }).noteDropped sec p
  else
    let s1 := s.setOuts sec p x v.a false
    let s2 := s1.setPair sec p { s1.pair sec p with
      intB := none, onB := none, onA := some start, intA := some ⟨start, v.minWidth, thin, false⟩ }
    if thin then s2.noteStretched sec p else s2

/-- S has risen. -/
def State.compRise (s : State) (sec p x : Nat) : State :=
  let v := s.pair sec p
  if v.skipRise then s.setPair sec p { v with skipRise := false }
  else if v.intA.isSome then s
  else if lasting v.intB x then s.holdB sec p
  else s.startA sec p x

/-- S has fallen. -/
def State.compFall (s : State) (sec p x : Nat) : State :=
  let v := s.pair sec p
  if v.skipFall then s.setPair sec p { v with skipFall := false }
  else if v.intA.isNone then s
  else if lasting v.intA x then s.holdA sec p
  else s.endA sec p x

/-! #### Independent and A-only modes (R87, R90, R91) -/

/-- The level an output has to follow has become `want` at an instant. -/
def State.followA (s : State) (sec p x : Nat) (want : Bool) : State :=
  let v := s.pair sec p
  if want = v.a then s
  else if lasting v.intA x then s.holdA sec p
  else
    let thin := narrow x v.minWidth (if want then s.nextFall sec p false x else s.nextRise sec p false x)
    if thin && !s.stretches sec p then (s.setPair sec p { v with intA := none }).noteDropped sec p
    else
      let s1 := s.setOuts sec p x want v.b
      let s2 := s1.setPair sec p { s1.pair sec p with intA := some ⟨x, v.minWidth, thin, false⟩ }
      if thin then s2.noteStretched sec p else s2

def State.followB (s : State) (sec p x : Nat) (want : Bool) : State :=
  let v := s.pair sec p
  if want = v.b then s
  else if lasting v.intB x then s.holdB sec p
  else
    let thin := narrow x v.minWidth (if want then s.nextFall sec p true x else s.nextRise sec p true x)
    if thin && !s.stretches sec p then (s.setPair sec p { v with intB := none }).noteDropped sec p
    else
      let s1 := s.setOuts sec p x v.a want
      let s2 := s1.setPair sec p { s1.pair sec p with intB := some ⟨x, v.minWidth, thin, false⟩ }
      if thin then s2.noteStretched sec p else s2

/-- S has taken a level at an instant. -/
def State.moveS (s : State) (sec p x : Nat) (level : Bool) : State :=
  let s1 := s.setPair sec p { s.pair sec p with s := level }
  if (s.pair sec p).outMode = 0 then (if level then s1.compRise sec p x else s1.compFall sec p x)
  else s1.followA sec p x level

/-- S_B has taken a level at an instant: it acts in independent mode only. -/
def State.moveSB (s : State) (sec p x : Nat) (level : Bool) : State :=
  let s1 := s.setPair sec p { s.pair sec p with sB := level }
  if (s.pair sec p).outMode = 1 then s1.followB sec p x level else s1

/-- A rise of S or S_B that falls at an instant is taken there, so that a restart at that instant finds the level it
has then. -/
def State.riseFirst (s : State) (sec p x : Nat) : State :=
  let v := s.pair sec p
  let a := decide (v.s = false) && decide (s.riseDue sec p false = some x)
  let b := decide (v.sB = false) && decide (s.riseDue sec p true = some x)
  s.setPair sec p { v with s := v.s || a, roseA := v.roseA || a, sB := v.sB || b, roseB := v.roseB || b }

/-- The dead-time unit restarts: both outputs off, and the present level of S taken as an edge (R88, R98,
R117; assumption 28). -/
def State.restartUnit (s : State) (sec p x : Nat) : State :=
  let s1 := (s.riseFirst sec p x).setOuts sec p x false false
  let v := s1.pair sec p
  let s2 := s1.setPair sec p { v with
    intA := none, intB := none, onA := none, onB := none, skipFall := false, skipRise := false }
  if v.outMode = 0 then
    (if v.s then s2.startA sec p x
     else s2.setPair sec p { s2.pair sec p with
       onB := some (x + v.dtFall), intB := some ⟨x + v.dtFall, v.minWidth, false, false⟩ })
  else
    let s3 := s2.followA sec p x v.s
    if v.outMode = 1 then s3.followB sec p x v.sB else s3

/-- The fields of `PWMP_CFG` that a wrap, or a write to a stopped pair, takes (R98). -/
def State.takeConfig (s : State) (sec p : Nat) : State :=
  s.setPair sec p { s.pair sec p with
    outMode := s.fld (pwmpPage sec p) PWMP_CFG.OUT_MODE, cfg := (s.reg (pwmpPage sec p) 0x100).toNat }

/-- Both outputs off, and no interval in progress: the counter is stopped (R84, R94). -/
def State.stopPair (s : State) (sec p : Nat) : State :=
  let s1 := (s.setOuts sec p (s.ticks * 64) false false).takeConfig sec p
  let v := s1.pair sec p
  s1.setPair sec p { v with
    running := false, s := false, sB := false, intA := none, intB := none, onA := none, onB := none,
    skipFall := false, skipRise := false, stopAsked := false, early := false,
    wrapTick := s.ticks, stopped := some s.ticks, since := s.ticks + 1, forced := none }

/-! ### Wraps (R83 to R98, R108, R117) -/

/-- A cycle-by-cycle trip ends or goes on at a wrap, and a pair whose conditions hold is released (R108, R117;
assumption 29). The change of a pin at its release opens no window (R107). The outputs of a counter that stops at this
wrap stay off (R84). -/
def State.tripWrap (s : State) (sec p x : Nat) : State :=
  let tr := s.trip sec
  let one : BitVec 16 := 1#16 <<< p
  let live := decide (s.acting sec p &&& s.cbcMask sec p ≠ 0)
  if tr.cbc.getLsbD p && live then s.cycleTrip sec p
  else
    let held := !tr.released.getLsbD p
    let waits := tr.cbc.getLsbD p || held
    let s1 := s.setTrip sec (tr.setCbc (fun c => c &&& ~~~one))
    if waits = false then s1
    else if s1.mayRelease sec p then
      let s2 := s1.setTrip sec { s1.trip sec with released := tr.released ||| one }
      let s3 := if held then s2.setPair sec p { s2.pair sec p with relTick := s2.ticks } else s2
      let s4 := if (s3.pair sec p).running then s3.restartUnit sec p x else s3
      s4.setTrip sec { s4.trip sec with blankUntil := tr.blankUntil, blankFrom := tr.blankFrom }
    else s1.unrelease sec one

/-- What every wrap takes: dead times, minimum width, phase, output mode, and a new stipple map (R88, R95, R98,
R99, R101). Answers whether the output mode is new. -/
def State.takeWrap (s : State) (sec p : Nat) : Bool × State :=
  let pk := pwmpPage sec p
  let v := s.pair sec p
  let mode := s.fld pk PWMP_CFG.OUT_MODE
  let m := s.fld pk PWMP_MIN_PULSE.VALUE
  let s1 := s.setPair sec p { v with
    dtRise := s.fld pk PWMP_DEADTIME.DT_RISE, dtFall := s.fld pk PWMP_DEADTIME.DT_FALL,
    minWidth := if m < 64 then 64 else m,
    phase := if v.leader < 16 then s.fld pk PWMP_PHASE.VALUE % 64 else 0,
    outMode := mode, cfg := (s.reg pk 0x100).toNat, lockNext := false,
    tapsA := v.nextA.getD v.tapsA, tapsB := v.nextB.getD v.tapsB, nextA := none, nextB := none,
    past := (v.lastWrap :: v.past).filter (fun w => decide (s.ticks < w.tick + w.period * w.presc)),
    wrapTick := s.ticks, since := s.ticks + 1, forced := none,
    riseAtA := none, fallAtA := none, riseAtB := none, fallAtB := none, fellA := false, fellB := false }
  let relock := v.lockNext && !s.flag pk PWMP_STIPPLE.LOCKED
  let s2 := if relock then (s1.setFld pk PWMP_STIPPLE.LOCKED 1).raise pk 7 else s1
  (decide (mode ≠ v.outMode), s2.setFld pk PWMP_WRAP.TICK s.canvas)

/-- A leader takes its period and step from its registers, a follower takes its immediate leader's (R83, R94,
R97). -/
def State.takePeriod (s : State) (sec p : Nat) : State :=
  let pk := pwmpPage sec p
  let v := s.pair sec p
  let reg := s.fld pk PWMP_PERIOD.VALUE
  let per := usedPeriod reg
  let presc := s.prescOf sec p
  if v.leader < 16 then
    let l := s.pair sec v.leader
    s.setPair sec p { v with period := l.period, presc := l.presc }
  else if 2 ^ 20 < reg then s.err pk
  else
    (s.setPair sec p { v with period := per, presc := presc, endTick := s.ticks + per * presc, early := false }).raiseIf
      (decide (reg < 4)) pk 5

/-- The wrap's number and its event (R103, R104). -/
def State.numberWrap (s : State) (sec p n : Nat) : State :=
  let div := s.fld (pwmpPage sec p) PWMP_CFG.WRAP_DIV
  (s.setPair sec p { s.pair sec p with wraps := n }).raiseIf (decide (div ≠ 0) && decide (n % div = 0))
    (pwmpPage sec p) 0

/-- The counter starts, and this tick is a wrap (R84, R94). -/
def State.startPair (s : State) (sec p : Nat) : State :=
  let s1 := (s.takeWrap sec p).2.takePeriod sec p
  let a := s1.risesAtWrap sec p false
  let b := s1.risesAtWrap sec p true
  let v := s1.pair sec p
  let s2 := s1.setPair sec p { v with
    running := true, s := a, sB := b, roseA := a, roseB := b, started := s.ticks,
    stopAsked := decide (v.stopAt = some s.ticks) }
  let x := s.ticks * 64 + v.phase
  ((s2.numberWrap sec p 1).restartUnit sec p x).tripWrap sec p x

/-- A running counter wraps and runs on (R83, R86). -/
def State.wrapOn (s : State) (sec p : Nat) : State :=
  let cut := (s.pair sec p).early
  let (fresh, s1) := s.takeWrap sec p
  let s2 := (s1.takePeriod sec p).raiseIf cut (pwmpPage sec p) 4
  let v := s2.pair sec p
  let x := s.ticks * 64 + v.phase
  let keepA := v.s && s2.risesAtWrap sec p false
  let keepB := v.sB && s2.risesAtWrap sec p true
  let s3 := (s2.setPair sec p { v with roseA := keepA, roseB := keepB }).numberWrap sec p (v.wraps + 1)
  if fresh then
    ((s3.setPair sec p { s3.pair sec p with s := keepA, sB := keepB }).restartUnit sec p x).tripWrap sec p x
  else
    let s4 := if v.s && !keepA then s3.moveS sec p x false else s3
    let s5 := if v.sB && !keepB then s4.moveSB sec p x false else s4
    s5.tripWrap sec p x

/-- The counter stops at this wrap (R84); a follower's, if its leader has stopped since its last wrap, though it may
have started again (R94). -/
def State.wrapStops (s : State) (sec p : Nat) : Bool :=
  let v := s.pair sec p
  let l := s.pair sec v.leader
  if v.leader < 16 then !l.running || l.stopped.any (fun t => decide (v.wrapTick ≤ t))
  else v.stopAsked || (s.flag (pwmpPage sec p) PWMP_CFG.ONE_SHOT && decide (v.wraps = 1))

/-- A running counter wraps and stops (R84). -/
def State.wrapOff (s : State) (sec p : Nat) : State :=
  let v := s.pair sec p
  let s1 := (s.takeWrap sec p).2.raiseIf v.early (pwmpPage sec p) 4
  let s2 := if v.running then s1.numberWrap sec p (v.wraps + 1) else s1
  s2.stopPair sec p

/-- A stopped pair follows or leads as `SYNC` says. It wraps after this tick if its new leader runs, and otherwise from
that leader's start on (R94). -/
def State.joinLeader (s : State) (sec p : Nat) : State :=
  let n := s.fld (pwmpPage sec p) PWMP_CFG.SYNC
  let l := s.pair sec n
  s.setPair sec p { s.pair sec p with
    leader := n,
    since := if l.running ∧ l.started < s.ticks then s.ticks + 1 else 0 }

/-- A change of `SYNC` is taken (R94): the pair stops, and follows or leads from then on. -/
def State.takeSync (s : State) (sec p : Nat) : State := (s.wrapOff sec p).joinLeader sec p

/-- `PWMP_WRAP` (R83): the count of a running pair becomes 0, or a follower wraps for the first time. -/
def execPwmpWrap (sec : Slice) (p : Fin 16) (s : State) : Host.Outcome State Fault Refusal :=
  let v := s.pair sec p
  let due := if v.leader < 16 then s.followerDue sec p else v.running && decide (s.ticks = v.endTick)
  if due = false ∨ s.present sec = false ∨ s.mode sec = PRIME then .next s
  else if s.fld (pwmpPage sec p) PWMP_CFG.SYNC ≠ v.leader then
    .next ((s.takeSync sec p).tripWrap sec p (s.ticks * 64))
  else if v.running = false then .next (s.startPair sec p)
  else if s.wrapStops sec p then
    .next ((s.wrapOff sec p).tripWrap sec p (s.ticks * 64))
  else .next (s.wrapOn sec p)

/-- A write of 1 to `START` takes effect (R84). -/
def State.startLeader (s : State) (sec p : Nat) : State :=
  let v := s.pair sec p
  if v.leader < 16 ∨ v.running ∨ s.present sec = false ∨ s.mode sec = PRIME then s else s.startPair sec p

/-- `PWM_START` (R84). -/
def execPwmStart (sec : Slice) (p : Fin 16) (s : State) : Host.Outcome State Fault Refusal :=
  .next (s.startLeader sec p)

/-- A write of 1 to `STOP` takes effect (R84). -/
def State.stopLeader (s : State) (sec p : Nat) : State :=
  let v := s.pair sec p
  if v.leader < 16 then s else s.setPair sec p { v with stopAsked := v.running, stopAt := some s.ticks }

/-- `PWM_STOP` (R84). -/
def execPwmStop (sec : Slice) (p : Fin 16) (s : State) : Host.Outcome State Fault Refusal :=
  .next (s.stopLeader sec p)

/-! ### Edges within a tick -/

/-- When an interval's minimum ends, if S calls for its end. -/
def State.expiry (s : State) (sec p : Nat) (out : Out) : Option Nat :=
  let v := s.pair sec p
  match out with
  | .a =>
    match v.intA with
    | some i => if (v.outMode = 0 ∧ v.s = false ∧ v.skipFall = false ∧ v.skipRise = false) ∨ (v.outMode ≠ 0 ∧ v.s ≠ v.a)
        then some (i.start + i.width) else none
    | none => none
  | .b =>
    match v.intB with
    | some i => if (v.outMode = 0 ∧ v.s = true ∧ v.skipRise = false ∧ v.intA = none ∧ v.skipFall = false)
          ∨ (v.outMode = 1 ∧ v.sB ≠ v.b)
        then some (i.start + i.width) else none
    | none => none

/-- Every instant of this tick at which something of a pair is still to happen. -/
def State.instants (s : State) (sec p : Nat) : List Nat :=
  let v := s.pair sec p
  let low := if v.s then none else s.riseDue sec p false
  let high := if v.s then s.fallDue sec p false else none
  let lowB := if v.sB then none else s.riseDue sec p true
  let highB := if v.sB then s.fallDue sec p true else none
  ([low, high, lowB, highB, v.onA, v.onB, s.expiry sec p .a, s.expiry sec p .b].filterMap id).filter
    (fun i => decide (i / 64 = s.ticks))

/-- The instant lies in this tick, and nothing of the pair comes before it there. -/
def State.isNext (s : State) (sec p : Nat) (x : Option Nat) : Bool :=
  match x with
  | some i => decide (i / 64 = s.ticks) && (s.instants sec p).all (fun j => decide (i ≤ j))
  | none => false

/-- `RAW_EDGE` (R86): S, or S_B, rises or falls at its position; a rise and a fall at one instant cancel. -/
def execRawEdge (sec : Slice) (p : Fin 16) (second rise : Bool) (s : State) : Host.Outcome State Fault Refusal :=
  let v := s.pair sec p
  let high := if second then v.sB else v.s
  if v.running = false ∨ high = rise then .next s
  else
    let x := if rise then s.riseDue sec p second else s.fallDue sec p second
    if s.isNext sec p x then
      let i := x.getD 0
      let v1 := match second, rise with
        | false, true => { v with roseA := true }
        | false, false => { v with fellA := true }
        | true, true => { v with roseB := true }
        | true, false => { v with fellB := true }
      let s1 := s.setPair sec p v1
      if rise ∧ s.fallDue sec p second = x then
        .next (s1.setPair sec p (if second then { v1 with fellB := true } else { v1 with fellA := true }))
      else .next (if second then s1.moveSB sec p i rise else s1.moveS sec p i rise)
    else .next s

/-- `DEAD_TIME_EXPIRY` (R88): an output turns on at the instant the dead-time unit has set. -/
def execDeadTimeExpiry (sec : Slice) (p : Fin 16) (out : Out) (s : State) : Host.Outcome State Fault Refusal :=
  let v := s.pair sec p
  match out with
  | .a => if s.isNext sec p v.onA then
      .next ((s.setPair sec p { v with onA := none }).setOuts sec p (v.onA.getD 0) true v.b) else .next s
  | .b => if s.isNext sec p v.onB then
      .next ((s.setPair sec p { v with onB := none }).setOuts sec p (v.onB.getD 0) v.a true) else .next s

/-- `MIN_PULSE_EXPIRY` (R92): a held interval ends as the level of S then has it. -/
def execMinPulseExpiry (sec : Slice) (p : Fin 16) (out : Out) (s : State) : Host.Outcome State Fault Refusal :=
  let v := s.pair sec p
  let x := s.expiry sec p out
  if s.isNext sec p x then
    let i := x.getD 0
    .next (match out with
      | .a => if v.outMode = 0 then s.endA sec p i else s.followA sec p i v.s
      | .b => if v.outMode = 0 then s.startA sec p i else s.followB sec p i v.sB)
  else .next s

/-! ### Live values (R95 to R97) -/

/-- A compare value takes effect now (R96). -/
def State.liveCompare (s : State) (sec p i v : Nat) : State :=
  let pk := pwmpPage sec p
  let s1 := s.setFld pk (PWMP_CMP.VALUE.at (8 * i)) v
  let k := s1.pair sec p
  let done : Bool := match i with
    | 0 => k.roseA
    | 1 => k.fellA
    | 2 => k.roseB
    | _ => k.fellB
  let c := s.ticks - k.wrapTick
  let moved := if k.running = false ∨ done = true ∨ s1.periodNow sec p ≤ v / 64 ∨ c ≤ v / 64 * s1.stepNow sec p then none
    else some ((s.ticks + 1) * 64 + k.phase)
  s1.setPair sec p (match i with
    | 0 => { k with riseAtA := moved }
    | 1 => { k with fallAtA := moved }
    | 2 => { k with riseAtB := moved }
    | _ => { k with fallAtB := moved })

/-- A phase takes effect now (R95; assumption 30). DESIGN CHOICE: a follower that is stopped may have its first wrap at this
very tick (assumption 125). -/
def State.livePhase (s : State) (sec p v : Nat) : State :=
  let pk := pwmpPage sec p
  let k := s.pair sec p
  let s1 := s.setFld pk PWMP_PHASE.VALUE v
  if k.leader < 16 ∧ k.running ∧ k.wrapTick ≠ s.ticks then
    s1.setPair sec p { k with since := s.ticks + 1, forced := if s.followerDue sec p then some s.ticks else none }
  else s1

/-- A leader's present period has changed: so has that of each follower that has wrapped since the leader did, down
the chains (R94, R97; assumption 30). -/
def State.spreadPeriod (sec per : Nat) : Nat → Nat → State → State
  | 0, _, s => s
  | n + 1, p, s =>
    (List.range 16).foldl (fun t q =>
      let v := t.pair sec q
      if v.leader = p ∧ v.running ∧ (t.pair sec p).wrapTick ≤ v.wrapTick then
        State.spreadPeriod sec per n q (t.setPair sec q { v with period := per })
      else t) s

/-- A period takes effect now (R97). DESIGN CHOICE: of two in one period, the second is held against the end that the first
has set (assumption 126). -/
def State.livePeriod (s : State) (sec p v : Nat) : State :=
  let pk := pwmpPage sec p
  let s1 := s.setFld pk PWMP_PERIOD.VALUE v
  let k := s.pair sec p
  if 2 ^ 20 < v then s1.err pk
  else if k.running ∧ 16 ≤ k.leader ∧ bit k.cfg PWMP_CFG.IMM_PERIOD.lo ∧ s.ticks < k.endTick ∧ k.wrapTick < s.ticks then
    let per := usedPeriod v
    let count := (s.ticks - k.wrapTick) / k.presc
    let last := if per ≤ count then s.ticks + 1 else k.wrapTick + per * k.presc
    let s2 := s1.setPair sec p { k with
      period := per, endTick := last,
      early := if last < k.endTick then true else if k.endTick < last then false else k.early }
    (State.spreadPeriod sec per 16 p s2).raiseIf (decide (v < 4)) pk 5
  else s1

/-! ### Counts, stipple lines, and what reads return -/

/-- `PWMP_CLR_COUNTS` (R103). -/
def execPwmpClrCounts (ag : Agent) (sec : Slice) (p : Fin 16) (s : State) : Host.Outcome State Fault Refusal :=
  .next (s.writeBy ag (pwmpPage sec p) 0x148 (fun t => t.setReg (pwmpPage sec p) 0x160 0))

/-- A measured span may be used: in range, and within 4 taps of the last (R101). -/
def spanGood (last now : Nat) : Bool :=
  decide (72 ≤ now) && decide (now ≤ 123) && decide (now ≤ last + 4) && decide (last ≤ now + 4)

/-- The measurement of one pair's two lines (R99, R101): each line keeps its last map if its span cannot be used, and
otherwise adopts the new one at the pair's next wrap. DESIGN CHOICE: bit [6] is raised as `LOCKED` falls, and by no further
failure while it is 0 (assumption 127). -/
def State.calibratePair (s : State) (sec p : Nat) (taps : Nat × Nat) : State :=
  let pk := pwmpPage sec p
  let v := s.pair sec p
  let goodA := spanGood (s.fld pk PWMP_STIPPLE.TAPS_A) taps.1
  let goodB := spanGood (s.fld pk PWMP_STIPPLE.TAPS_B) taps.2
  let good := goodA && goodB
  let s1 := ((s.setFld pk PWMP_STIPPLE.TAPS_A taps.1).setFld pk PWMP_STIPPLE.TAPS_B taps.2).setPair sec p { v with
    nextA := if goodA then some taps.1 else none,
    nextB := if goodB then some taps.2 else none,
    lockNext := good }
  if good then s1
  else (s1.setFld pk PWMP_STIPPLE.LOCKED 0).raiseIf (s.flag pk PWMP_STIPPLE.LOCKED) pk 6

/-- The measurement of a converter's sampling line: a new map waits for its next reference tick (R99, R101). -/
def State.calibrateLine (s : State) (sec c taps : Nat) : State :=
  let v := s.conv sec c
  s.setConv sec c { v with span := taps, nextMap := if spanGood v.span taps then some taps else none }

/-- `STIPPLE_CALIBRATION` (R99): the sector's calibrator has measured every line, every 4096 ticks (assumption 100). -/
def execStippleCalibration (sec : Slice) (taps : List (Nat × Nat)) (s : State) (lines : List Nat := []) :
    Host.Outcome State Fault Refusal :=
  if s.present sec = false ∨ s.ticks % 4096 ≠ 0 then .next s
  else
    let s1 := taps.zipIdx.foldl (fun t e => if e.2 < 16 then t.calibratePair sec e.2 e.1 else t) s
    .next (lines.zipIdx.foldl (fun t e => if e.2 < 16 then t.calibrateLine sec e.2 e.1 else t) s1)

/-- `PWMP_COUNT` as a read returns it (R103). DESIGN CHOICE: `PERIOD_NOW` of a stopped counter is 0 (assumption 123). -/
def State.countWord (s : State) (sec p : Nat) : Word :=
  let v := s.pair sec p
  let count := if v.running then (s.ticks - v.wrapTick) / s.stepNow sec p else 0
  BitVec.ofNat 64 (v.running.toNat * 2 ^ 63 + (if v.running then s.periodNow sec p else 0) % 2 ^ 21 * 2 ^ 32
    + count % 2 ^ 20)

/-- The configuration of a pair has been written: a stopped pair takes it at once (R94, R98). -/
def State.pairConfigured (s : State) (sec p : Nat) : State :=
  let v := s.pair sec p
  if v.running then s
  else
    let s1 := s.takeConfig sec p
    if v.leader = s.fld (pwmpPage sec p) PWMP_CFG.SYNC then s1 else s1.joinLeader sec p

end Sys2Proof.Machine
end

