-- ==== Sys2Proof/Machine/Loop.lean ====
section
/-! DEFINITION. Samples and loop slots (R56, R123 to R146): what a reference tick reads, engine grants, the control
law, misses and mismatches, opening and closing. -/

namespace Sys2Proof.Machine

open Sys2Proof

/-! ### The law (R126 to R128) -/

/-- A compensator value within its 44 bits. -/
def held44 (v : Int) : Int := clampInt v (-2 ^ 43) (2 ^ 43 - 1)

/-- A product brought from 45 to 40 fraction bits. -/
def rnd5 (x : Int) : Int := (x + 16) / 32

/-- The accumulator without feedforward. -/
def accC (k : Coeffs) (h : History) (e : Int) : Int :=
  (k.b0 * e + k.b1 * h.e1 + k.b2 * h.e2 + k.b3 * h.e3) * 2 ^ (40 - k.bshift)
    - (rnd5 (k.a1 * h.c1) + rnd5 (k.a2 * h.c2) + rnd5 (k.a3 * h.c3))

/-- What an evaluation computes: the output, 0 or the side at which it was clamped, the new history. -/
structure LawResult where
  u : Int
  sat : Nat
  hist : History
  deriving DecidableEq, Repr

/-- One evaluation of the law. -/
def law (k : Coeffs) (h : History) (i : EvalInput) (aw : Bool) : LawResult :=
  let e := i.ref - 16 * i.code
  let acc := accC k h e
  let ff := i.ffFw + i.ffInt
  let v := (acc + ff * 2 ^ 32 + 2 ^ 39) / 2 ^ 40
  let u := clampInt v i.lo i.hi
  let sat := if v < i.lo then 1 else if i.hi < v then 2 else 0
  let c := held44 (if aw = true ∧ sat ≠ 0 then u * 2 ^ 16 - ff * 2 ^ 8 else (acc + 2 ^ 23) / 2 ^ 24)
  { u := u, sat := sat, hist := { e1 := e, e2 := h.e1, e3 := h.e2, c1 := c, c2 := h.c1, c3 := h.c2 } }

/-! ### The staged and the live set (R134) -/

/-- The staged set in force. -/
def State.staged (s : State) (sec n : Nat) : Coeffs :=
  let pk := loopPage sec n
  { b0 := s.sfld pk LOOP_B.VALUE, b1 := s.sfld pk (LOOP_B.VALUE.at 8), b2 := s.sfld pk (LOOP_B.VALUE.at 16),
    b3 := s.sfld pk (LOOP_B.VALUE.at 24), a1 := s.sfld pk LOOP_A.VALUE, a2 := s.sfld pk (LOOP_A.VALUE.at 8),
    a3 := s.sfld pk (LOOP_A.VALUE.at 16), bshift := s.fld pk LOOP_BSHIFT.VALUE }

/-- `LOOP_HIST` follows the live history (R143). -/
def State.setHistory (s : State) (sec n : Nat) (h : History) : State :=
  let pk := loopPage sec n
  ((s.setSlot sec n { s.slot sec n with hist := h, mirror := h }).setSfld pk LOOP_HIST.E h.e1).setSfld
    pk LOOP_HIST.C h.c1

/-- The history that a close presets (R135). -/
def State.presetHistory (s : State) (sec n : Nat) (ff : Int) : History :=
  let pk := loopPage sec n
  if s.flag pk LOOP_PRESET.AUTO then
    let c := held44 ((s.fld pk LOOP_OUT.VALUE : Int) * 2 ^ 16 - ff * 2 ^ 8)
    { c1 := c, c2 := c, c3 := c }
  else
    let c := s.sfld pk LOOP_PRESET.C
    let e := s.sfld pk LOOP_PRE_E.VALUE
    { e1 := e, e2 := e, e3 := e, c1 := c, c2 := c, c3 := c }

/-! ### What a reference tick reads (R124, R130, R131, R135, R136) -/

/-- The slot is frozen (R125). -/
def State.frozenSlot (s : State) (sec : Nat) : Bool := decide (s.sectorMode sec = HOLD)

/-- Whether a slot takes the reference tick its converter has now (R124, R125). -/
def State.slotTakes (s : State) (sec n c : Nat) : Bool :=
  let pk := loopPage sec n
  let k := s.referenceIndex sec c
  let pick : Int := s.fld pk LOOP_CFG.PICK
  let decim : Int := s.fld pk LOOP_CFG.DECIM
  s.flag pk LOOP_CFG.EN && decide (s.fld pk LOOP_CFG.SRC = c) && !s.frozenSlot sec
    && decide (s.mode sec ≠ PRIME) && decide (pick ≤ k) && (decide (decim = 0) || decide ((k - pick) % decim = 0))

/-- The decay of the intent feedforward (R130). -/
def decayed (ff : Int) (shift : Nat) : Int :=
  let q := ff.tdiv (2 ^ shift)
  if ff = 0 then 0 else ff - (if q = 0 then ff.sign else q)

/-- The decay step of a slot at a reference tick it takes (R130). -/
def State.decaySlot (s : State) (sec n : Nat) : State :=
  let pk := loopPage sec n
  if s.flag pk LOOP_FF_DECAY.ACTIVE then
    let v := decayed (s.sfld pk LOOP_FF_INTENT.VALUE) (s.fld pk LOOP_CFG.DECAY_SHIFT)
    let s1 := s.setSfld pk LOOP_FF_INTENT.VALUE v
    if v = 0 then s1.setFld pk LOOP_FF_DECAY.ACTIVE 0 else s1
  else s

/-- The recursion of a set has a pole outside the unit circle (R3): one of Jury's conditions for `A_1` to `A_3`, in units
of 2^-29, is broken. A pole on the circle is an integrator's. -/
def unstable (k : Coeffs) : Bool :=
  let one : Int := 2 ^ 29
  decide (one + k.a1 + k.a2 + k.a3 < 0) || decide (one - k.a1 + k.a2 - k.a3 < 0)
    || decide (one < k.a3) || decide (k.a3 < -one)
    || decide (one * one - k.a3 * k.a3 < (one * k.a2 - k.a1 * k.a3).natAbs)

/-- A close takes place at its reference tick (R134, R135). A set that the device cannot stably run is a host error (R3;
assumption 8). -/
def State.closeSlot (s : State) (sec n : Nat) (ff : Int) : State :=
  let k := s.staged sec n
  let s1 := s.setHistory sec n (s.presetHistory sec n ff)
  let s2 := s1.setSlot sec n { s1.slot sec n with live := k, closed := true }
  if 24 ≤ k.bshift ∧ k.bshift ≤ 40 ∧ unstable k = false then s2 else s2.err (loopPage sec n)

/-- Comparators masked into a pair, for one of its masks. -/
def State.inMask (s : State) (sec p off c : Nat) : Bool :=
  let m := s.reg (tripPage sec) (off + 0x40 * p)
  m.getLsbD c || m.getLsbD (32 + c)

/-- The pages that a slot's page refers to: its converter, its pair, the comparators masked into that pair (R14). -/
def State.slotSet (s : State) (sec n : Nat) : List Nat :=
  let pk := loopPage sec n
  let p := s.fld pk LOOP_CFG.PAIR
  [fadcPage sec (s.fld pk LOOP_CFG.SRC), pwmpPage sec p] ++
    ((List.range 32).filter (fun c => s.inMask sec p 0x208 c || s.inMask sec p 0x218 c)).map (fun c => wcmpPage sec c)

/-- The set of a slot that runs has more than one owner (R14): a host error once the slice has left `COMMISSION`, in which
firmware sets the owners one after another (assumption 8). -/
def State.split (s : State) (sec n : Nat) : Bool :=
  decide (s.mode sec ≠ COMMISSION) && (s.slotSet sec n).any (fun k => decide (s.owner k ≠ s.owner (loopPage sec n)))

/-- A slot takes a reference tick: the decay step, a close or an open, and the inputs of R131. -/
def State.takeReference (s : State) (sec n : Nat) (code : Int) : State :=
  let pk := loopPage sec n
  let s1 := s.decaySlot sec n
  let fw := s1.sfld pk LOOP_FF_FW.VALUE
  let int := s1.sfld pk LOOP_FF_INTENT.VALUE
  let v := s1.slot sec n
  let closing := decide (v.request = some true)
  let opening := decide (v.request = some false) && v.closed
  let s2 := if closing then s1.closeSlot sec n (fw + int) else s1
  let v2 := s2.slot sec n
  let closed := v2.closed && !opening
  let i : EvalInput :=
    { tick := s.ticks, code := code, ref := s2.sfld pk LOOP_REF.VALUE, ffFw := fw, ffInt := int,
      lo := s2.fld pk LOOP_LIMIT.LO, hi := s2.fld pk LOOP_LIMIT.HI, manual := s2.fld pk LOOP_MANUAL.VALUE,
      engine := s2.fld pk LOOP_ENGINE.ENGINE, closed := closed, grant := if closed then 3 else 0,
      closing := closing, opening := opening, live := v2.live, hist := v2.hist, mirror := v2.mirror }
  let s3 := s2.setSlot sec n { v2 with request := none, closed := closed, evals := v2.evals ++ [i] }
  if s.fld pk LOOP_CFG.DECIM = 0 ∨ s.split sec n = true then s3.err pk else s3

/-- `FADC_SAMPLE` (R53 to R56): the sampling instant of a reference tick, and the slots that take it. -/
def execFadcSample (sec : Slice) (c : Fin 16) (nanovolts : Int) (s : State) : Host.Outcome State Fault Refusal :=
  if s.referenceTick sec c then
    let s1 := (List.range 16).foldl (fun t n =>
      if s.slotTakes sec n c then t.takeReference sec n (fastCode nanovolts).1 else t) s
    .next (s1.setConv sec c { s1.conv sec c with
      handed := (s1.conv sec c).handed ++ [(s.ticks, s.resultWord (fadcPage sec c) nanovolts)], lastRef := some s.ticks,
      map := (s1.conv sec c).nextMap.getD (s1.conv sec c).map, nextMap := none })
  else .next s

/-! ### Engine grants (R138) -/

/-- The decision for one closed slot's reference tick of the tick before. -/
def State.grantEval (s : State) (sec n : Nat) : State :=
  let v := s.slot sec n
  match v.evals.find? (fun i => decide (i.tick + 1 = s.ticks) && decide (i.grant = 3)) with
  | none => s
  | some i =>
    let g := Store.read 0 s.engines (sec * 4 + i.engine)
    let prep := match v.lastGrant with
      | some t => decide (i.tick < t + 7)
      | none => false
    let busy := decide (g ≠ 0) && (decide (g = i.tick) || decide (g = i.tick + 1))
    let grant := if prep then 2 else if busy then 1 else 0
    let s1 := s.setSlot sec n { v with
      lastGrant := if grant = 0 then some i.tick else v.lastGrant,
      evals := v.evals.map (fun j => if j.tick = i.tick then { j with grant := grant } else j) }
    if grant = 0 then
      { s1 with engines := Store.write 0 s1.engines (sec * 4 + i.engine) (i.tick + 1) }.count
        (lengPage sec i.engine) LENG_GRANTED.GRANTED 1
    else s1

/-! ### Outputs (R129, R132, R133) -/

/-- An output waits for the next tick, at which it takes effect. -/
def State.putOutput (s : State) (sec n : Nat) (u : Int) : State :=
  let pk := loopPage sec n
  let t := s.fld pk LOOP_CFG.TARGET
  let s1 := s.setSlot sec n { s.slot sec n with
    out := some (s.ticks + 1, s.fld pk LOOP_CFG.PAIR, t, unsign 26 u) }
  if t = 3 ∨ (t = 2 ∧ (s.fld pk LOOP_LIMIT.LO < 4 ∨ 2 ^ 20 < s.fld pk LOOP_LIMIT.HI)) then s1.err pk else s1

/-- A lower-numbered slot's output takes effect at the same register at the same tick (R133). -/
def State.outdone (s : State) (sec n p target : Nat) : Bool :=
  (List.range n).any (fun m =>
    match (s.slot sec m).out with
    | some (t, q, g, _) => decide (t = s.ticks) && decide (q = p) && decide (g = target)
    | none => false)

/-- An output takes effect at its pair, if no lower-numbered slot's does there (R133). -/
def State.landOutput (s : State) (sec n : Nat) : State :=
  match (s.slot sec n).out with
  | none => s
  | some (t, p, target, u) =>
    if t = s.ticks then
      let pk := loopPage sec n
      let s1 := (s.setFld pk LOOP_OUT.VALUE u).setFld pk LOOP_OUT.TICK (s.canvas % 2 ^ 32)
      if s.outdone sec n p target then s1
      else if target = 0 then s1.liveCompare sec p 1 u
      else if target = 1 then s1.livePhase sec p u
      else s1.livePeriod sec p u
    else s

/-- A slot's output took effect in this tick at a register of a pair: it stands over a write (R38, R133). -/
def State.slotDrives (s : State) (sec p target : Nat) : Bool :=
  (List.range 16).any (fun n =>
    match (s.slot sec n).out with
    | some (t, q, g, _) => decide (t = s.ticks) && decide (q = p) && decide (g = target)
    | none => false)

/-- Evaluations whose deadline has passed are over. -/
def State.dropEvals (s : State) (sec n : Nat) : State :=
  let v := s.slot sec n
  if v.evals.any (fun i => decide (i.tick + 4 < s.ticks)) then
    s.setSlot sec n { v with evals := v.evals.filter (fun i => decide (s.ticks ≤ i.tick + 4)) }
  else s

/-- What a canvas tick does for the slots: grants of the tick before, then outputs. -/
def State.tickLoops (s : State) : State :=
  let keys := s.slots.map Prod.fst
  let s1 := keys.foldl (fun t k => (t.grantEval (k / 16) (k % 16)).dropEvals (k / 16) (k % 16)) s
  keys.reverse.foldl (fun t k => t.landOutput (k / 16) (k % 16)) s1

/-! ### The evaluation (R132, R136, R139 to R141, R144, R145) -/

/-- Values that `LO` above `HI` makes unpredictable are free: the output, `SAT`, and the history stored (R143;
assumption 31). -/
def State.freeResult (s : State) : LawResult × State :=
  let (a, s1) := s.fresh
  let (b, s2) := s1.fresh
  let (c, s3) := s2.fresh
  let (d, s4) := s3.fresh
  let (e, s5) := s4.fresh
  ({ u := a.toNat % 2 ^ 26, sat := (a.toNat / 2 ^ 26) % 3,
     hist := { e1 := signed 18 (b.toNat % 2 ^ 18), e2 := signed 18 (b.toNat / 2 ^ 18 % 2 ^ 18),
               e3 := signed 18 (b.toNat / 2 ^ 36 % 2 ^ 18), c1 := signed 44 c.toNat, c2 := signed 44 d.toNat,
               c3 := signed 44 e.toNat } }, s5)

/-- `MANUAL` within the limits, or a free value where they are crossed (R136, R143; assumption 31). -/
def State.manualOutput (s : State) (i : EvalInput) : Int × State :=
  if i.hi < i.lo then
    let (a, s1) := s.fresh
    ((a.toNat % 2 ^ 26 : Nat), s1)
  else (clampInt i.manual i.lo i.hi, s)

/-- An open slot writes `MANUAL`. -/
def State.evalOpen (s : State) (sec n : Nat) (i : EvalInput) : State :=
  let s1 := s.setFld (loopPage sec n) LOOP_STATUS.CLOSED 0
  let (u, s2) := s1.manualOutput i
  s2.putOutput sec n u

/-- `CLOSED`, `FORCED_OPEN` and `MM_RUN` after a close (R135, R144). -/
def State.showClosed (s : State) (sec n : Nat) (i : EvalInput) : State :=
  let pk := loopPage sec n
  if i.closing then
    ((((s.setSlot sec n { s.slot sec n with mmRun := 0 }).setFld pk LOOP_STATUS.CLOSED 1).setFld
      pk LOOP_STATUS.FORCED_OPEN 0)).setFld pk LOOP_STATUS.MM_RUN 0
  else s

/-- A miss (R139). -/
def State.evalMiss (s : State) (sec n : Nat) (i : EvalInput) : State :=
  let pk := loopPage sec n
  let s1 := ((s.showClosed sec n i).setFld pk LOOP_STATUS.MISS 1).setFld pk LOOP_STATUS.CAUSE i.grant
  let s2 := (s1.count pk LOOP_COUNTS.MISSES 1).raise pk 0
  let s3 := if i.grant = 1 then s2.count (lengPage sec i.engine) LENG_BUSY.COUNT 1 else s2
  s3.triggerSource sec 3 n

/-- A slot that hardware opens shows no close that took effect before (R141; assumption 128). -/
def unclosed (evals : List EvalInput) : List EvalInput := evals.map (fun i => { i with closing := false })

/-- A mismatch (R140, R141); it sets `MISS`, which a ring may have as its trigger source (R66; assumption 32). DESIGN
CHOICE: the third in succession opens the slot though a close has taken effect since its reference tick
(assumption 128). -/
def State.evalMismatch (s : State) (sec n : Nat) (i : EvalInput) : State :=
  let pk := loopPage sec n
  let s1 := ((s.showClosed sec n i).setFld pk LOOP_STATUS.MISS 1).setFld pk LOOP_STATUS.CAUSE 3
  let s2 := ((s1.count pk LOOP_MISMATCHES.COUNT 1).count (lengPage sec i.engine) LENG_MISMATCH.COUNT 1).raise pk 2
    |>.triggerSource sec 3 n
  let run := (s1.slot sec n).mmRun + 1
  if run < 3 then (s2.setFld pk LOOP_STATUS.MM_RUN run).setSlot sec n { s2.slot sec n with mmRun := run }
  else
    let s3 := s2.setSlot sec n { s2.slot sec n with
      mmRun := 0, closed := false, evals := unclosed (s2.slot sec n).evals }
    let s4 := ((s3.setFld pk LOOP_STATUS.MM_RUN 0).setFld pk LOOP_STATUS.FORCED_OPEN 1).setFld pk LOOP_STATUS.CLOSED 0
    let (u, s5) := (s4.raise pk 3).manualOutput i
    s5.putOutput sec n u

/-- A granted evaluation without a mismatch. -/
def State.evalGood (s : State) (sec n : Nat) (i : EvalInput) (r : LawResult) : State :=
  let pk := loopPage sec n
  let s1 := (((s.showClosed sec n i).setFld pk LOOP_STATUS.MISS 0).setFld pk LOOP_STATUS.MM_RUN 0).setFld
    pk LOOP_STATUS.SAT r.sat
  let s2 := (s1.setSlot sec n { s1.slot sec n with mmRun := 0 }).setHistory sec n r.hist
  let s3 := if r.sat = 0 then s2 else (s2.count pk LOOP_COUNTS.SATURATIONS 1).raise pk 1
  (s3.count pk LOOP_EVALS.COUNT 1).putOutput sec n r.u

/-- One copy's result: the output from its prepared sum, and its history, shifted as it stands at the deadline (R128,
R131, R132; assumption 32). -/
def copyResult (k : Coeffs) (h now : History) (i : EvalInput) (aw : Bool) : LawResult :=
  let r := law k h i aw
  { r with hist := { e1 := r.hist.e1, e2 := now.e1, e3 := now.e2, c1 := r.hist.c1, c2 := now.c1, c3 := now.c2 } }

/-- A granted evaluation: both copies compute, and are compared (R140). -/
def State.evalGranted (s : State) (sec n : Nat) (i : EvalInput) (upset : Bool) : State :=
  let v := s.slot sec n
  let aw := s.flag (loopPage sec n) LOOP_CFG.AW
  let r := copyResult i.live i.hist v.hist i aw
  if upset = true ∨ r ≠ copyResult i.live i.mirror v.mirror i aw then s.evalMismatch sec n i
  else if i.hi < i.lo then
    let (f, s1) := s.freeResult
    let (w, s2) := s1.fresh
    (s2.evalGood sec n i f).setFld (loopPage sec n) LOOP_COUNTS.SATURATIONS (w.toNat % 2 ^ 32)
  else s.evalGood sec n i r

/-- `LOOP_EVALUATION` (R132): the deadline tick of a reference tick the slot has taken; the output takes effect at
the tick after it. -/
def execLoopEvaluation (sec : Slice) (n : Fin 16) (upset : Bool) (s : State) : Host.Outcome State Fault Refusal :=
  let v := s.slot sec n
  match v.evals.find? (fun i => decide (i.tick + 4 = s.ticks)) with
  | none => .next s
  | some i =>
    let s1 := s.setSlot sec n { v with evals := v.evals.filter (fun j => decide (j.tick ≠ i.tick)) }
    .next (if i.closed = false then s1.evalOpen sec n i
      else if i.grant = 0 then s1.evalGranted sec n i upset
      else s1.evalMiss sec n i)

/-! ### Commands (R135, R136, R143, R146) -/

/-- A close or an open takes effect and waits for the slot's reference tick. -/
def State.requestLoop (s : State) (sec n : Nat) (close : Bool) : State :=
  s.setSlot sec n { s.slot sec n with request := some close }

/-- `LOOP_CLOSE` (R135). -/
def execLoopClose (sec : Slice) (n : Fin 16) (s : State) : Host.Outcome State Fault Refusal :=
  .next (s.requestLoop sec n true)

/-- `LOOP_OPEN` (R136). -/
def execLoopOpen (sec : Slice) (n : Fin 16) (s : State) : Host.Outcome State Fault Refusal :=
  .next (s.requestLoop sec n false)

/-- The counts of a slot are cleared. -/
def State.clearLoop (s : State) (sec n : Nat) : State :=
  let pk := loopPage sec n
  ((s.setReg pk 0x1A0 0).setReg pk 0x1A8 0).setReg pk 0x1B0 0

/-- `LOOP_CLR_COUNTS` (R143). -/
def execLoopClrCounts (ag : Agent) (sec : Slice) (n : Fin 16) (s : State) : Host.Outcome State Fault Refusal :=
  .next (s.writeBy ag (loopPage sec n) 0x190 (fun t => t.clearLoop sec n))

/-- The counts of an engine are cleared. -/
def State.clearEngine (s : State) (sec g : Nat) : State :=
  let pk := lengPage sec g
  ((s.setReg pk 0x108 0).setReg pk 0x110 0).setReg pk 0x118 0

/-- `LENG_CLR` (R146). -/
def execLengClr (ag : Agent) (sec : Slice) (g : Fin 4) (s : State) : Host.Outcome State Fault Refusal :=
  .next (s.writeBy ag (lengPage sec g) 0x120 (fun t => t.clearEngine sec g))

/-- `LOOP_STATUS` as a read returns it (R144). -/
def State.loopStatusWord (s : State) (sec n : Nat) : Word :=
  let pk := loopPage sec n
  let differs := decide (s.staged sec n ≠ (s.slot sec n).live)
  putBits (putBits (s.reg pk 0x018) 6 6 (s.frozenSlot sec).toNat) 2 2 differs.toNat

/-- `LENG_SLOTS` as a read returns it (R146). -/
def State.engineSlots (s : State) (sec g : Nat) : Word :=
  BitVec.ofNat 64 (((List.range 16).filter (fun n =>
    s.flag (loopPage sec n) LOOP_CFG.EN && decide (s.fld (loopPage sec n) LOOP_ENGINE.ENGINE = g))).map
      (fun n => 2 ^ n)).sum

end Sys2Proof.Machine
end

