-- ==== Sys2Proof/Machine/Failure.lean ====
section
/-! DEFINITION. Resets of threads and panels, and the failure of a panel: what each reset reaches (R331 to R335,
R215, R292), start records (R332), the handover check and adoption (R309 to R311), third faults and the replay guard
(R203, R204), and the end of mirroring (R308). -/

namespace Sys2Proof.Machine

open Sys2Proof

/-! ### Fields by Restore code (R9) -/

/-- A register's value with the fields of some Restore codes at their reset values. -/
def resetWord (pk off : Nat) (hit : Restore → Bool) (w : Word) : Word :=
  (fieldsAt pk off).foldl
    (fun x f => if hit f.rest then putBits x f.fld.hi f.fld.lo (f.reset.number pk off) else x) w

/-- The state with fields of some registers reset. -/
def State.resetRegs (s : State) (sel : Nat → Nat → Bool) (hit : Restore → Bool) : State :=
  s.regs.foldl (fun t e =>
    let pk := e.1 / 4096
    let off := e.1 % 4096
    if sel pk off then t.setReg pk off (resetWord pk off hit e.2) else t) s

def Restore.isZ : Restore → Bool
  | .z => true
  | _ => false

/-- Registers of a panel's pages whose reset values `PRIME` sets, and the DRAM controller, which a panel warm reset
does not reach (R231, R235; assumption 35). -/
def keptByPanelReset (pk off : Nat) : Bool :=
  decide (pk % 4096 = 1) ||
    (decide (pk % 4096 = 0) && (decide (off = 0x108) || decide (off = 0x130) || decide (off = 0x138)
      || decide (off = 0x140)))

/-! ### Threads (R215, R332) -/

/-- A claim that has left its stack: its source leaves service, unless another claim of the panel names it too
(assumption 44). -/
def State.leaveService (s : State) (p value : Nat) : State :=
  if (List.range 4).any (fun c => (s.core p c).prio.any (fun x => decide (x.value = value))) then s
  else { s with evServ := Store.write false s.evServ (evKey p (value / 1024) (value % 1024)) false }

/-- `STACK_FULL` of a core clears when its priority stack holds fewer than 16 entries (R210). -/
def State.unfill (s : State) (p c : Nat) : State :=
  if (s.core p c).prio.length < 16 then
    s.setFld (evcPage p 0) EVC_STATE.STACK_FULL (putBit (s.fld (evcPage p 0) EVC_STATE.STACK_FULL) c false)
  else s

/-- The removed claims' sources that are still active pend again, and end the waits of the threads they are routed to
(R208, R215). -/
def State.resample (s : State) (p : Nat) (l : List Claim) : State :=
  l.foldl (fun u x => u.wakeWaiter p (x.value / 1024) (x.value % 1024)) s

/-- A thread reset: its special registers take their reset values, its claims are removed, it is stopped. Its core and
event-controller special registers are kept (R335). -/
def State.resetThread (s : State) (p t : Nat) : State :=
  let c := s.core p (t / 4)
  let s1 := (s.setCore p (t / 4) { c with prio := c.prio.filter (fun x => decide (x.thread ≠ t)) }).unfill p (t / 4)
  let s2 := (c.prio.filter (fun x => decide (x.thread = t))).foldl (fun u x => u.leaveService p x.value) s1
  let th := s.thread p t
  let pn := s2.panel p
  let s3 := s2.setPanel p { pn with starts := pn.starts.filter (fun x => decide (x ≠ t)) }
  let s4 := s3.setThread p t {
    retired := th.retired
    parked := th.parked
    hasParked := th.hasParked
    specIssue := th.specIssue
    mispredict := th.mispredict
    misses := th.misses
    imprecise := th.imprecise
    double := th.double
    traced := th.traced
    traceGap := th.traceGap
    traceAt := th.traceAt }
  (s4.unstall p t).resample p (c.prio.filter (fun x => decide (x.thread = t)))

/-- The implemented bits of the status word (R174). -/
def statusMask : Word := 0x1F1F

/-- The implemented bits of an address register (R174). -/
def addressMask : Word := 0x0000FFFFFFFFFFF8

/-- Word `i` of a thread's start record. -/
def State.startWord (s : State) (p t i : Nat) : TWord :=
  s.word p (s.fld (modePage p) MODE_START.ADDR * 128 + 128 * t + 8 * i)

/-- A thread's start record lies where it cannot be read yet: in DRAM that is being initialised (R235). -/
def State.startWaits (s : State) (p t : Nat) : Bool :=
  match regionOf p (s.fld (modePage p) MODE_START.ADDR * 128 + 128 * t) with
  | .dram _ => (s.panel p).dramInit
  | _ => false

/-- The words of a start record are read: single-bit errors are corrected, and the first uncorrectable one is recorded
(R226, R228). -/
def State.readStart (s : State) (p t : Nat) : State :=
  let a := s.fld (modePage p) MODE_START.ADDR * 128 + 128 * t
  let array := if a < dramBase then 0 else 1
  let s1 := s.correct p array 0 (1 + t / 4) (wordKeys p a 16)
  let s2 := if dramBase ≤ a ∧ s.inL2 p (a / 128) = true then
      (s1.correct p 4 0 (1 + t / 4) (s1.tagKeys p (a / 128))).useL2 p (a / 128) false
    else s1
  match (List.range 16).find? (fun i => s.bad p (a + 8 * i)) with
  | some i => s2.noteEcc p array (1 + t / 4) (a + 8 * i) true
  | none => s2

/-- Whether a thread's start record can be loaded (R332). -/
def State.startGood (s : State) (p t : Nat) : Bool :=
  let a := s.fld (modePage p) MODE_START.ADDR * 128 + 128 * t
  let there := match regionOf p a with
    | .scratch b => decide (b < 7) && s.bankOn p b
    | .dram d => s.dramThere p d
    | _ => false
  there && decide (tagOf (s.startWord p t 0) = 0xA0) && (List.range 16).all (fun i => !s.bad p (a + 8 * i))

/-- A thread loads its start record and begins to fetch, or its start fails (R332). -/
def State.loadRecord (s : State) (p t : Nat) : State :=
  let pk := modePage p
  let u := s.readStart p t
  if s.startGood p t then
    let w (i : Nat) : Word := payload (s.startWord p t i)
    u.setThread p t { u.thread p t with
      run := .running, pc := (w 0).toNat % 2 ^ 48, status := w 1 &&& statusMask, osp := w 2 &&& addressMask,
      osLo := w 3 &&& addressMask, osHi := w 4 &&& addressMask, csp := w 5 &&& addressMask,
      csLo := w 6 &&& addressMask, csHi := w 7 &&& addressMask, vbase := w 8 &&& addressMask,
      fsp := w 9 &&& addressMask }
  else
    (u.markBit pk MODE_THREAD_STATE.BAD_START t).raise pk 3

/-- A thread starts, once its record can be read (R235, R332); a lookup that meets a lost tag fails the panel (R229). -/
def State.startThread (s : State) (p t : Nat) : State :=
  let a := s.fld (modePage p) MODE_START.ADDR * 128 + 128 * t
  if s.startWaits p t then
    let pn := s.panel p
    s.setPanel p { pn with starts := if pn.starts.contains t then pn.starts else pn.starts ++ [t] }
  else if dramBase ≤ a ∧ a < 2 * dramBase ∧ s.tagLost p (a / 128) = true then s.hitTag p (a / 128) (1 + t / 4)
  else s.loadRecord p t

/-- `OP` 2: reset, then start (R332). -/
def State.restartThread (s : State) (p t : Nat) : State := (s.resetThread p t).startThread p t

/-- The threads of a mask. -/
def maskThreads (m : Nat) : List Nat := (List.range 16).filter (fun t => bit m t)

/-! ### Mirroring stops (R308) -/

/-- Threads that a planned handover or a return stopped run on. -/
def State.runOn (s : State) (q : Nat) (threads : List Nat) : State :=
  threads.foldl (fun u t => u.setThread q t { u.thread q t with run := .running }) s

/-- A planned handover or a return is refused for a reason, and its threads continue (R317, R318). -/
def State.refusePlan (s : State) (sl q reason state : Nat) : State :=
  let pk := hovrPage sl
  let h := s.handover sl
  let s1 := (s.runOn q h.stopped).setHandover sl
    { h with plannedAt := none, planning := false, returnAt := none, stopped := [] }
  ((s1.setFld pk HOVR_STATE.REFUSE reason).setFld pk HOVR_STATE.STATE state).raise pk 2

/-- Mirroring of a panel stops, or does not start; a planned handover whose checkpoint is still open cannot go on
(R308). -/
def State.stopMirror (s : State) (p : Nat) : State :=
  let pk := jrnlPage p
  if s.flag pk JRNL_STATUS.ACTIVE = true ∨ (s.journal p).starting = true then
    let s1 := ((s.setFld pk JRNL_STATUS.ACTIVE 0).setFld pk JRNL_STATUS.LINK_DOWN 1).raise pk 2
    let s2 := ((s1.setJournal p { s1.journal p with
      openAt := none
      openCkpt := []
      starting := false
      stalls := []
      late := [] }).setFld pk JRNL_STATUS.CLOSING 0).setFld pk JRNL_STATUS.STALLED 0
    if (s2.handover p).planning then s2.refusePlan p p 5 0 else s2
  else s

/-! ### The panel warm reset (R333, R335) -/

/-- Keys of a store outside a range. -/
def outside {α : Type} (m : Store α) (first size : Nat) : Store α :=
  m.filter (fun e => decide (e.1 < first) || decide (first + size ≤ e.1))

/-- A reset ends a planned handover that has not begun. -/
def State.dropPlan (s : State) (p : Nat) : State :=
  let h := s.handover p
  if h.planning = true ∨ h.plannedAt.isSome = true then
    (s.setHandover p { h with plannedAt := none, planning := false, stopped := [] }).setFld (hovrPage p)
      HOVR_STATE.STATE 0
  else s

/-- A thread in a reset of its panel: its core and event-controller registers are reset as well (R335). -/
def State.emptyThread (s : State) (p t : Nat) : State :=
  let s1 := s.resetThread p t
  let th := s1.thread p t
  s1.setThread p t {
    traced := th.traced
    traceGap := th.traceGap
    traceAt := th.traceAt }

/-- A panel warm reset, with its cause in the coding of `MODE_PANEL_RESET` (R343). The intent partners become absent
and keep the tokens they have spent (R292; assumption 81). What has not left the panel is withheld (R165). A panel that Easel
has halted stays halted (R335). -/
def State.resetPanel (s : State) (p cause : Nat) : State :=
  let s1 := (List.range 16).foldl (fun t i => t.emptyThread p i) (s.emptyCaches p)
  let s2 := s1.resetRegs (fun pk off => decide (windowOf pk = 8 + p) && !keptByPanelReset pk off) Restore.isZ
  let s3 := { s2 with
    evPend := outside s2.evPend (p * 2048) 2048, evServ := outside s2.evServ (p * 2048) 2048,
    dmas := outside s2.dmas (p * 32) 32, timers := outside s2.timers (p * 16) 16,
    intents := outside s2.intents p 1,
    budgets := (s2.budgets.map (fun (e : Nat × Budget) =>
      if e.1 / 64 = p then (e.1, { e.2 with lastDue := none }) else e)).filter
        (fun (e : Nat × Budget) => decide (e.2 ≠ ({} : Budget))),
    ports := outside s2.ports (p * 2) 2,
    flight := s2.flight.filter (fun x => !(decide (agentPanel x.agent = some p) && decide (s.ticks < x.sent))),
    upset := s2.upset.filter (fun pk => decide (windowOf pk ≠ 8 + p)) }
  let s4 := (List.range 4).foldl (fun t c => t.setCore p c {}) s3
  let pn := s4.panel p
  let s5 := s4.setPanel p { pn with
    l2lock := 0, island := false, restFrom := none, watched := [], tagHit := false, starts := [], flits := [] }
  let s6 := (s5.setJournal p { s5.journal p with
    openAt := none
    openCkpt := []
    stalls := []
    late := []
    emptied := true
    starting := false }).dropPlan p
  let s7 := (s6.count (modePage p) MODE_PANEL_RESET.COUNT 1).setFld (modePage p) MODE_PANEL_RESET.LAST cause
  s7.stopMirror (partner p)

/-! ### Pages that change hands (R310, R311) -/

/-- Page numbers of a sector window and of the package window that the page index assigns (R379). -/
def sectorPageNumbers : List Nat :=
  List.range 17 ++ (List.range 17).map (· + 32) ++ (List.range 33).map (· + 64) ++ (List.range 20).map (· + 128)
    ++ [160] ++ (List.range 9).map (· + 176)

def packagePageNumbers : List Nat :=
  [0] ++ (List.range 9).map (· + 16) ++ [32, 33] ++ (List.range 8).map (· + 48) ++ [64]

/-- The ground sector pages and package pages whose `PANEL` is a slice's. -/
def State.ownedPages (s : State) (sl : Nat) : List Nat :=
  ((s.slices.flatMap (fun k => sectorPageNumbers.map (sectorPage k))) ++ packagePageNumbers.map packagePage).filter
    (fun pk => s.pageThere pk && decide (s.owner pk = sl))

/-- A pair whose page passes from or to a halted panel has yet to be released (R113). -/
def State.passPair (s : State) (pk giver : Nat) : State :=
  match blockOf pk with
  | some (.pwmp, k) =>
    if s.halted giver || s.halted (s.holder pk) then s.unrelease (windowOf pk) (1#16 <<< k) else s
  | _ => s

/-- A page's owner state. -/
def State.setOwnerState (s : State) (pk : Nat) (adopted orphaned : Bool) : State :=
  ((s.setFld pk HEAD.ADOPTED adopted.toNat).setFld pk HEAD.ORPHANED orphaned.toNat).passPair pk (s.holder pk)

/-- The event bits already set on a page become active sources where its events now go (R311). -/
def State.resignal (s : State) (pk : Nat) : State :=
  let live := (s.reg pk 0x020 &&& s.reg pk 0x028).toNat
  if live = 0 ∨ s.orphaned pk then s
  else
    let p := s.holder pk
    let table := if s.adopted pk then 1 else 0
    (List.range 64).foldl (fun t b =>
      match sourceOf pk b with
      | some src => if bit live b then t.arrive p table src else t
      | none => t) s

/-- A slice's pages are orphaned: the handover is refused for a reason (R310). -/
def State.orphanSlice (s : State) (sl reason : Nat) : State :=
  let pk := hovrPage sl
  let s1 := (s.ownedPages sl).foldl (fun t k => t.setOwnerState k false true) s
  ((s1.setFld pk HOVR_STATE.REFUSE reason).setFld pk HOVR_STATE.STATE 3).raise pk 2

/-- The journaled threads of a panel (R299). -/
def State.journaledThreads (s : State) (p : Nat) : List Nat := maskThreads (s.journal p).threads

/-- The map entry of a thread: valid, target (R322). -/
def State.mapEntry (s : State) (sl u : Nat) : Bool × Nat :=
  let b := bits (s.reg (hovrPage sl) (0x108 + 8 * (u / 8))) (8 * (u % 8) + 7) (8 * (u % 8))
  (bit b 7, b % 16)

/-- A thread is free: stopped in thread reset (R310). -/
def State.freeThread (s : State) (p t : Nat) : Bool := decide ((s.thread p t).run = .stopped)

/-- A panel cannot take part in mirroring or adoption (R308, R310). -/
def State.unavailable (s : State) (p : Nat) : Bool :=
  !s.present p || (s.panel p).held || (s.panel p).resetting.isSome || decide (s.mode p = REST)
    || decide (s.mode p = HANDOVER)

/-- The check of R310: 0, or the reason of the first condition that fails. -/
def State.handoverCheck (s : State) (sl : Nat) : Nat :=
  let q := partner sl
  let js := s.journaledThreads sl
  let targets := js.map (fun u => (s.mapEntry sl u).2)
  let used := ((List.range 16).filter (fun t => !s.freeThread q t)).length
  if s.unavailable q then 4
  else if (s.journal sl).closed = none ∨ s.flag (jrnlPage sl) JRNL_STATUS.LINK_DOWN then 5
  else if js.any (fun u => !(s.mapEntry sl u).1) then 3
  else if 16 < used + js.length then 1
  else if targets.any (fun t => !s.freeThread q t) ∨ ¬ targets.Nodup then 2
  else 0

/-- Writes that have left a panel for its pages are delivered though the pages are adopted (R302). -/
def State.entitle (s : State) (sl : Nat) (pages : List Nat) : State :=
  { s with flight := s.flight.map (fun t =>
      if agentPanel t.agent = some sl ∧ pages.contains t.page ∧ s.verdict t.agent t.page t.off = .accept then
        { t with entitled := true }
      else t) }

/-- Adoption of a slice's pages (R311). -/
def State.adoptSlice (s : State) (sl : Nat) : State :=
  let pk := hovrPage sl
  let pages := s.ownedPages sl
  let s1 := pages.foldl (fun t k => t.setOwnerState k true false) (s.entitle sl pages)
  let s2 := pages.foldl (fun t k =>
    match blockOf k with
    | some (.fadc, _) => (t.resignal k).freezeAdopted k
    | _ => t.resignal k) s1
  let s3 := s2.setJournal sl { s2.journal sl with held := [] }
  let s4 := s3.setHandover sl { s3.handover sl with restoring := true, held := [] }
  (((s4.setFld pk HOVR_STATE.COUNT (s.journaledThreads sl).length).setFld pk HOVR_STATE.REFUSE 0).setFld
    pk HOVR_STATE.STATE 1).raise pk 1

/-- The handover is checked, and proceeds or is refused (R310, R311). -/
def State.tryHandover (s : State) (sl : Nat) : State :=
  if s.handoverCheck sl = 0 then s.adoptSlice sl else s.orphanSlice sl (s.handoverCheck sl)

/-- Causes of a failure (R322). -/
def failLockstep : Nat := 1
def failThird : Nat := 2
def failWatchdog : Nat := 3
def failTag : Nat := 4

/-- The code of `MODE_PANEL_RESET.LAST` for a failure (R343). -/
def resetCode (cause : Nat) : Nat :=
  if cause = failLockstep then 4 else if cause = failThird then 2 else if cause = failWatchdog then 3 else 5

/-- Pages that a failing panel holds as adopter run orphaned from then on (R319; assumption 34). -/
def State.loseAdopted (s : State) (p : Nat) : State :=
  let f := partner p
  if s.mode f = HANDOVER ∧ (s.fld (hovrPage f) HOVR_STATE.STATE ≠ 3) then
    let s1 := ((s.ownedPages f).foldl (fun t k => t.setOwnerState k false true) s).setFld (hovrPage f) HOVR_STATE.STATE 3
    s1.setHandover f { s1.handover f with restoring := false, returnAt := none, stopped := [], held := [] }
  else s

/-- The reset and hold of a failed panel end its halt, and the pairs it holds wait for a release (R113, R366). -/
def State.endHalt (s : State) (p : Nat) : State :=
  let u := if s.halted p then s.unreleaseHeld p else s
  (u.setPanel p { u.panel p with
    halting := false
    halted := false }).setFld easlPage EASL_STATUS.HALTED (putBit (s.fld easlPage EASL_STATUS.HALTED) p false)

/-- A panel fails (R309). -/
def State.failPanel (s : State) (p cause : Nat) : State :=
  let pk := hovrPage p
  if s.present p = false ∨ s.mode p = PRIME ∨ (s.panel p).held then s
  else
    let again := decide (s.mode p = HANDOVER)
    let s1 := ((s.resetPanel p (resetCode cause)).endHalt p).loseAdopted p
    let s2 := s1.setPanel p { s1.panel p with held := true, resetting := none }
    let s3 := ((s2.setFld pk HOVR_STATE.CAUSE cause).setFld pk HOVR_DETECT.TICK (s.canvas % 2 ^ 62)).setFld
      (modePage p) MODE_STATE.REST_PENDING 0
    if again then s3 else (s3.setMode p HANDOVER (s.shownMode p)).tryHandover p

/-- A lookup of the L2 meets an uncorrectable tag or state entry: it is recorded, and the panel fails (R229, R231). -/
def State.tagFails (s : State) (p line port : Nat) : State := (s.noteTag p line port).failPanel p failTag

/-- Panels whose L2 a write has found to have lost a tag fail (R229). -/
def State.tickTags (s : State) : State :=
  s.slices.foldl (fun u p => if (u.panel p).tagHit then
    (u.setPanel p { u.panel p with tagHit := false }).failPanel p failTag else u) s

/-! ### Replay and third faults (R203, R204, R312) -/

/-- The entries that an adopted thread has still to consume. -/
def State.replayEntries (s : State) (p t : Nat) : List Entry :=
  match (s.thread p t).adopted with
  | none => []
  | some u => (s.journal (partner p)).entries.filter
      (fun e => decide (e.thread = u) && decide (e.kind ≠ EPOCH) && decide (e.kind ≠ CKPT))

/-- The thread is replayed and has not consumed its last entry. -/
def State.replaying (s : State) (p t : Nat) : Bool := !(s.replayEntries p t).isEmpty

/-- The two copies of a core differ in an output: nothing of it leaves, and the panel fails (R165). -/
def State.mismatch (s : State) (p core thread output : Nat) : State :=
  let w := BitVec.ofNat 64 (2 ^ 63 + core * 64 + thread * 16 + output)
  ((s.setPanel p { s.panel p with lockstep := w }).noteSpecial p 0 0x4A (1 <<< 63)).failPanel p failLockstep

/-- A detect-only difference has been detected (R368). -/
def State.detectInjected (s : State) (p core : Nat) : State :=
  ((s.setCore p core { s.core p core with inject := none }).mark easlPage EASL_INJECT.SEEN).raise easlPage 4


/-- A third fault of a thread: the panel fails, or the replay guard stops the adopted threads (R203, R204). -/
def State.thirdFault (s : State) (p t : Nat) : State :=
  if s.replaying p t then
    let s1 := (List.range 16).foldl (fun u i =>
      if (u.thread p i).adopted.isSome then u.setThread p i { u.thread p i with run := .stopped } else u) s
    s1.raise (hovrPage (partner p)) 0
  else
    ((s.mark (evcPage p 0) EVC_STATE.THIRD_VALID).setFld (evcPage p 0) EVC_STATE.THIRD_THREAD t).failPanel
      p failThird

end Sys2Proof.Machine
end

