-- ==== Sys2Proof/Machine/Reach.lean ====
section
/-! DEFINITION. What a thread's accesses reach (R154, R155, R179 to R184, R221, R226 to R228, R303, R312, R313): the
checks of an address, one word read or written, check codes, collisions, parking, and the record of a fault. -/

namespace Sys2Proof.Machine

open Sys2Proof

/-- Why an instruction stops without completing: what becomes of the state it met (R187). -/
abbrev Stop := State → State

/-- A fault of the instruction in progress (R187, R196). -/
def faultStop (p t code : Nat) : Stop := fun s => s.setFault p t code (s.thread p t).pc

/-- The thread parks (R154): its time parked begins (R167). -/
def State.parkThread (s : State) (p t : Nat) (why : Park) : State :=
  s.setThread p t { s.thread p t with
    park := some why
    hasParked := true }

def parkStop (p t : Nat) (why : Park) : Stop := fun s => s.parkThread p t why

/-- The instruction waits, and nothing changes. -/
def waitStop : Stop := fun s => s

/-- A word is found uncorrectable, and stays so until it is written whole (R228). -/
def State.loseWord (s : State) (p addr : Nat) : State :=
  if s.badWords.contains (memKey p addr) then s else { s with badWords := memKey p addr :: s.badWords }

/-! ### Where an address leads (R179, R313, R375) -/

/-- How a word of memory is reached: in a scratch bank, in the panel's own DRAM through its caches, or over the window of
a panel, which no cache serves (R154, R380). -/
inductive Path where
  | bank | cached | far
  deriving DecidableEq, Repr

/-- What answers at an address. -/
inductive Spot where
  /-- a word of a panel's memory: panel, its address there, and how it is reached -/
  | mem (panel addr : Nat) (path : Path)
  | page (pk off : Nat)
  /-- nothing answers -/
  | dead
  /-- memory or pages of the failed panel, which an adopted thread reaches no more (R313) -/
  | gone
  /-- the access waits for a wipe or for the initialisation of DRAM (R225, R235) -/
  | busy
  deriving DecidableEq, Repr

/-- What answers at an address of a panel's own view. -/
def State.spotOf (s : State) (p : Nat) : Region → Spot
  | .scratch b => .mem p b .bank
  | .dram a => if (s.panel p).dramInit then .busy else if s.dramThere p a then .mem p a .cached else .dead
  | .remote q a =>
    if s.present q && !(s.panel q).island && s.dramThere q a then .mem q a .far else .dead
  | .page pk off => .page pk off
  | .unmapped => .dead

/-- What answers at a scratch address. -/
def State.bankSpot (s : State) (p addr : Nat) : Spot :=
  if addr / 0x40000 = 7 ∧ (s.panel p).wipeBank7 then .busy
  else if s.bankOn p (addr / 0x40000) then .mem p addr .bank else .dead

/-- What answers at an address of a panel's view. -/
def State.panelSpot (s : State) (p addr : Nat) : Spot :=
  match regionOf p addr with
  | .scratch _ => s.bankSpot p addr
  | r => s.spotOf p r

/-- What answers a thread: an adopted thread sees its regions at their mirrors, and neither the partner's own memory
nor its own block pages (R313). -/
def State.spot (s : State) (p t addr : Nat) : Spot :=
  if (s.thread p t).adopted = none then s.panelSpot p addr
  else
    match s.region (partner p) addr with
    | some (i, off) => s.panelSpot p (s.mirrorAddr (partner p) i off)
    | none =>
      match regionOf p addr with
      | .scratch _ | .dram _ => .gone
      | .unmapped => .dead
      | .page pk off => if isPanelPage pk then .gone else .page pk off
      | .remote q a => s.spotOf p (.remote q a)

/-- An error response from the DRAM of panel `q`, where that is another one, is reported on the fabric page (R382). -/
def State.noteFar (s : State) (p q : Nat) : State := if q = p then s else s.raise (fabPage p) 4

/-- An error response from another panel's DRAM window is reported on the fabric page (R382). -/
def State.noteRemote (s : State) (p a : Nat) : State :=
  match regionOf p a with
  | .remote q _ => s.noteFar p q
  | _ => s

/-- A bus error; one at another panel's DRAM is reported on the panel's fabric page (R180, R382). -/
def busStop (p t addr : Nat) : Stop := fun s => faultStop p t BE (s.noteRemote p addr)

/-! ### Checks (R179 to R181, R184, R187) -/

/-- How an instruction accesses memory. -/
structure AccessKind where
  bytes : Nat
  tagged : Bool
  write : Bool
  /-- `LD.R`, `ST.R` and `STT` may reach device space -/
  device : Bool
  deriving DecidableEq, Repr

/-- The checks of an address: the code of the first that fails, in the order of R187, or the address (R179 to R181). An
access reaches device space if its first or its last byte lies there. -/
def State.checkAccess (s : State) (p t : Nat) (k : AccessKind) (ptr : TWord) (addr : Int) : Except Nat Nat :=
  let a := addr.toNat
  let dev := decide (0 ≤ addr) && (deviceSpace a || deviceSpace (a + k.bytes - 1))
  if (k.tagged ∨ (k.device = true ∧ dev = true)) ∧ addr % 8 ≠ 0 then .error AL
  else if addr < 0 ∨ 2 ^ 48 < addr + k.bytes then .error AC
  else if k.write = true ∧ bit (tagOf ptr) 4 = false then .error AC
  else if dev = true ∧ (bit (tagOf ptr) 3 = false ∨ k.device = false) then .error AC
  else if a < 0x200000 ∧ 0x1C0000 < a + k.bytes ∧ s.threadSecure p t = false then .error AC
  else if dev = true ∧ regionOf p a = .unmapped then .error BE
  else .ok a

/-- Of two faults of one instruction the first in the order of R187, which is the order of their codes. -/
def firstCode : Except Nat Nat → Except Nat Nat → Option Nat
  | .error x, .error y => some (min x y)
  | .error x, .ok _ => some x
  | .ok _, .error y => some y
  | .ok _, .ok _ => none

/-! ### One word read -/

/-- The array that holds a word (R231). -/
def arrayOf (path : Path) : Nat := if path = .bank then 0 else 1

/-- A miss of a cache is counted (R167). -/
def State.countMiss (s : State) (p t : Nat) (l2 : Bool) : State :=
  let th := s.thread p t
  let low := th.misses.toNat % 2 ^ 32
  let high := th.misses.toNat / 2 ^ 32
  s.setThread p t { th with
    misses := if l2 then BitVec.ofNat 64 (satAdd 32 high 1 * 2 ^ 32 + low)
      else BitVec.ofNat 64 (high * 2 ^ 32 + satAdd 32 low 1) }

/-- The thread's access has missed the L2 (R154). -/
def State.missL2 (s : State) (p t a : Nat) (code : Bool) : State :=
  let u := ((s.noteOutput p (t / 4) 0).countMiss p t true).parkThread p t (if code then .fetchMiss else .dataMiss)
  u.setThread p t { u.thread p t with missing := some (a, code) }

/-- A 64-byte line is read from the L2 that holds it, and enters an L1 cache (R156, R226). -/
def State.readL2 (s : State) (p port line : Nat) : State :=
  ((s.correct p 4 0 port (s.tagKeys p (line / 2))).useL2 p (line / 2) false).correct p 1 0 port (wordKeys p (64 * line) 8)

/-- A word of the panel's DRAM read by a core: from the L1 data cache, else from the L2, else the thread parks (R154,
R156, R228, R229). Words that a fill has brought and no cache took are at hand. -/
def State.readCached (s : State) (p t a : Nat) : Except Stop State :=
  let c := t / 4
  let l1 (u : State) := u.readL1 p c false (a / 64) [memKey p a]
  if (s.thread p t).arrived.contains (memKey p a) then
    (if s.bad p a then .error (fun u => faultStop p t BE (u.noteEcc p 1 (1 + c) a true)) else .ok s)
  else if (l1 s).1 then .ok (l1 s).2
  else if s.tagLost p (a / 128) then .error (fun u => u.tagFails p (a / 128) (1 + c))
  else if s.inL2 p (a / 128) = false then
    .error (fun u => ((l1 u).2.countMiss p t false).missL2 p t a false)
  else if s.bad p a then
    .error (fun u => faultStop p t BE (((l1 u).2.countMiss p t false).noteEcc p 1 (1 + c) a true))
  else .ok (((((l1 s).2.noteOutput p c 0).countMiss p t false).readL2 p (1 + c) (a / 64)).fillL1 p c false (a / 64))

/-- A word read over a panel's window: it parks the thread until its data is there (R154, R380). -/
def State.readFar (s : State) (p t q a : Nat) : Except Stop State :=
  let key := memKey q a
  if (s.thread p t).arrived.contains key = false then
    .error (fun u => (u.setThread p t { u.thread p t with arrived := key :: (u.thread p t).arrived }).parkThread
      p t .remoteLoad)
  else if s.tagLost q (a / 128) then .error (fun u => faultStop p t BE ((u.tagFails q (a / 128) 6).noteFar p q))
  else if s.bad q a then
    .error (fun u => faultStop p t BE ((u.noteEcc q 1 6 a true).noteFar p q))
  else .ok (((s.noteOutput p (t / 4) 0).noteCross p q).correct q 1 0 6 [key])

/-- What an adopted thread reads where nothing answers it any more (R313). -/
def adoptedVoid : TWord := tword 0xE1 0

/-- A word of memory read by a core (R226, R228). -/
def State.readMem (s : State) (p t q a : Nat) : Path → Except Stop State
  | .bank =>
    if s.bad q a then .error (fun u => faultStop p t BE (u.noteEcc q 0 (1 + t / 4) a true))
    else .ok ((s.noteOutput p (t / 4) 1).correct q 0 0 (1 + t / 4) [memKey q a])
  | .cached => s.readCached p t a
  | .far => s.readFar p t q a

/-- A tagged word read at an address that answers. -/
def State.readSpot (s : State) (p t : Nat) (sp : Spot) (dead : Except Stop (TWord × State)) :
    Except Stop (TWord × State) :=
  match sp with
  | .busy => .error waitStop
  | .gone => .ok (adoptedVoid, s)
  | .dead | .page _ _ => dead
  | .mem q a path =>
    match s.readMem p t q a path with
    | .ok s1 => .ok (s1.word q a, s1)
    | .error e => .error e

/-- A word read by a thread, a bus error where nothing answers. -/
def State.readWord (s : State) (p t addr : Nat) : Except Stop (TWord × State) :=
  s.readSpot p t (s.spot p t addr) (.error (busStop p t addr))

/-- The word that a thread would read, if it answers and is not lost: no access is made. -/
def State.wordSeen (s : State) (p t addr : Nat) : Option TWord :=
  match s.spot p t addr with
  | .mem q a _ => if s.bad q a then none else some (s.word q a)
  | .gone => some adoptedVoid
  | _ => none

/-! ### One word written -/

/-- The port that beats a thread's write at a bank (R218, R221). -/
def State.beatenBy (s : State) (p t : Nat) (rival : Option (Fin 7)) : Option Nat :=
  match rival with
  | some w => if w.val < 1 + t / 4 ∧ s.replaying p t = false then some w.val else none
  | none => none

/-- The write is one that was lost in the run that is replayed (R312). -/
def State.lostBefore (s : State) (p t : Nat) : Bool :=
  (s.replayEntries p t).any (fun e => decide (e.kind = COLL) &&
    (match e.payload with
      | w :: _ => decide ((payload w).toNat % 2 ^ 48 = (s.thread p t).retired.toNat % 2 ^ 48)
      | [] => false))

/-- A collision between two ports on a word (R221, R231). -/
def State.noteCollision (s : State) (p winner loser addr : Nat) : State :=
  let pk := scrPage p
  ((((s.count pk SCR_COLL.COUNT 1).setFld pk SCR_COLL.WINNER winner).setFld pk SCR_COLL.LOSER loser).setFld
    pk SCR_COLL.ADDR (addr / 8 * 8)).raise pk 5

/-- A thread's `COLL` flag is set, and its event raised where `COLL_EV` asks for it (R205, R221). -/
def State.setColl (s : State) (p t : Nat) : State :=
  let th := s.thread p t
  let was := s.sourceActive p 0 (496 + t)
  let s1 := (s.setThread p t { th with flags := th.flags ||| 4 }).noteSpecial p t 0x09 4
  if s1.sourceActive p 0 (496 + t) && !was then s1.arrive p 0 (496 + t) else s1

/-- A thread's write loses a collision (R221): its journal entry is keyed to the count at which `COLL` becomes visible
(R299, R300), and without room for it the store does not retire (R308). -/
def State.loseWrite (s : State) (p t winner a : Nat) : Except Stop State :=
  let n := (s.thread p t).retired
  let u := (s.noteCollision p winner (1 + t / 4) a).setColl p t
  if s.journaled p t = false then .ok u
  else if s.ringRoom p 2 then .ok (u.enterInput p ⟨COLL, t, n.toNat + 1, [raw n]⟩)
  else .error (fun v => v.stall p t (.ring 2))

/-- A write has been performed at a port of a bank. -/
def State.noteBank (s : State) (q port a : Nat) : State := { s with bankWrites := (q, port, a) :: s.bankWrites }

/-- The port whose write in this tick beats a push on a stack at its word: whether the two meet in one bank cycle is free
(R221; assumption 131). -/
def State.rivalAt (s : State) (p t addr : Nat) : Option (Fin 7) × State :=
  match s.spot p t addr with
  | .mem q a .bank =>
    (match s.bankWrites.find? (fun x => decide (x.1 = q) && decide (x.2.1 < 1 + t / 4) && decide (x.2.2 = a)) with
     | some x =>
       let (w, u) := s.fresh
       (if bit w.toNat 0 then some (Fin.ofNat 7 x.2.1) else none, u)
     | none => (none, s))
  | _ => (none, s)

/-- A whole word is written by a thread (R156, R303, R308), with its copy for the partner. -/
def State.putWord (s : State) (p t addr q a : Nat) (path : Path) (w : TWord) : Except Stop State :=
  if s.lostBefore p t then .ok s
  else if path = .cached ∧ s.tagLost q (a / 128) = true then .error (fun u => u.tagFails q (a / 128) (1 + t / 4))
  else if path = .far ∧ s.tagLost q (a / 128) = true then
    .error (fun u => faultStop p t BE ((u.tagFails q (a / 128) 6).noteFar p q))
  else if s.holdRoom p t addr = false then .error (fun u => u.stall p t (.lines [addr]))
  else
    let u := match path with
      | .bank => (s.noteOutput p (t / 4) 1).noteBank q (1 + t / 4) a
      | .cached => s
      | .far => (s.noteOutput p (t / 4) 0).noteCross p q
    .ok (((u.throughL2 q a (if path = .cached then some (t / 4) else none)).setWord q a w).holdWrite p t addr)

/-- A word written where the address leads; `rival` is the port of another write to it (R221). -/
def State.writeWord (s : State) (p t addr : Nat) (rival : Option (Fin 7)) (w : TWord) : Except Stop State :=
  match s.spot p t addr with
  | .busy => .error waitStop
  | .dead | .gone | .page _ _ => .error (busStop p t addr)
  | .mem q a path =>
    match (if path = .bank ∧ s.lostBefore p t = false then s.beatenBy p t rival else none) with
    | some x => s.loseWrite p t x a
    | none => s.putWord p t addr q a path w

/-- A word pushed on a stack in memory. -/
def State.pushWord (s : State) (p t addr : Nat) (w : TWord) : Except Stop State :=
  let (rival, u) := s.rivalAt p t addr
  u.writeWord p t addr rival w

/-! ### Bytes (R180, R227) -/

/-- `n` bytes of a word from a byte position. -/
def getBytes (w : TWord) (pos n : Nat) : Nat := (payload w).toNat / 2 ^ (8 * pos) % 2 ^ (8 * n)

/-- A word with `n` bytes from a byte position replaced, tagged `RAW`. -/
def mergeBytes (w : TWord) (pos n v : Nat) : TWord :=
  let m := 2 ^ (8 * n) - 1
  raw (BitVec.ofNat 64 ((payload w).toNat - getBytes w pos n * 2 ^ (8 * pos) + v % (m + 1) * 2 ^ (8 * pos)))

/-- The two parts of an access that crosses an 8-byte boundary (R180): address, bytes. -/
def parts (addr n : Nat) : List (Nat × Nat) :=
  let first := 8 - addr % 8
  if n ≤ first then [(addr, n)] else [(addr, first), (addr + first, n - first)]

/-- Bytes read across the parts of an access; the least significant come first. -/
def State.readParts (s : State) (p t : Nat) (dead : Except Stop (TWord × State)) :
    List (Nat × Nat) → Except Stop (Nat × State)
  | [] => .ok (0, s)
  | (a, n) :: rest =>
    match s.readSpot p t (s.spot p t (a / 8 * 8)) dead with
    | .error e => .error e
    | .ok (w, s1) =>
      match State.readParts s1 p t dead rest with
      | .error e => .error e
      | .ok (v, s2) => .ok (getBytes w (a % 8) n + v * 2 ^ (8 * n), s2)

/-- The word that a write of fewer than 8 bytes reads and merges into (R227). -/
def State.mergeRead (s : State) (p t base n : Nat) : Except Stop (TWord × State) :=
  match s.spot p t base with
  | .busy => .error waitStop
  | .dead | .gone | .page _ _ => .error (busStop p t base)
  | .mem q b path =>
    if 8 ≤ n then .ok (s.word q b, s)
    else if s.bad q b then
      .error (fun u => faultStop p t BE
        ((u.noteEcc q (arrayOf path) (if path = .far then 6 else 1 + t / 4) b true).noteRemote p base))
    else .ok (s.word q b, (s.noteOutput p (t / 4) (if path = .bank then 1 else 0)).correct q (arrayOf path) 0
      (if path = .far then 6 else 1 + t / 4) [memKey q b])

/-- Every word of a narrow access is read before one of them is written. -/
def State.mergeReads (s : State) (p t : Nat) : List (Nat × Nat) → Except Stop State
  | [] => .ok s
  | (a, n) :: rest =>
    match s.mergeRead p t (a / 8 * 8) n with
    | .error e => .error e
    | .ok (_, s1) => State.mergeReads s1 p t rest

/-- Bytes written across the parts of an access, each with the port of another write to its word; a whole word is written
as it is, a narrower part is merged (R227). -/
def State.writeEach (s : State) (p t : Nat) (v : Nat) : List (Nat × Nat) → List (Option (Fin 7)) → Except Stop State
  | [], _ => .ok s
  | (a, n) :: rest, rivals =>
    let base := a / 8 * 8
    match s.mergeRead p t base n with
    | .error e => .error e
    | .ok (w, s0) =>
      match s0.writeWord p t base (rivals.headD none) (mergeBytes w (a % 8) n (v % 2 ^ (8 * n))) with
      | .error e => .error e
      | .ok s1 => State.writeEach s1 p t (v / 2 ^ (8 * n)) rest (rivals.drop 1)

/-- The one request of a core's access whose two words lie in one bank (R220). -/
def State.oneRequest (s : State) (p t : Nat) : List (Nat × Nat) → Option (Nat × Nat)
  | [(a, _), (b, _)] =>
    match s.spot p t (a / 8 * 8), s.spot p t (b / 8 * 8) with
    | .mem _ x .bank, .mem _ y .bank => if x / 0x40000 = y / 0x40000 then some (x, y) else none
    | _, _ => none
  | _ => none

/-- Bytes written by a thread. An access whose two words lie in one bank is one request, which wins or loses as a whole
and loses once; over two banks it is two (R220, R221). -/
def State.writeParts (s : State) (p t : Nat) (env : MemEnv) (v : Nat) (l : List (Nat × Nat)) : Except Stop State :=
  match s.mergeReads p t l with
  | .error e => .error e
  | .ok s1 =>
    match (if s.lostBefore p t then none else s.oneRequest p t l) with
    | none => s1.writeEach p t v l [env.winner, env.second]
    | some (x, y) =>
      match s.beatenBy p t env.winner, s.beatenBy p t env.second with
      | some w, _ => s1.loseWrite p t w x
      | none, some w => s1.loseWrite p t w y
      | none, none => s1.writeEach p t v l []

/-! ### Agents that are no core (R218, R228) -/

/-- What became of one access: it waits, it fails with a cause of `DMA_STATUS.ERROR`, or it is done. -/
inductive Got where
  | waits
  | fails (cause : Nat) (s : State)
  | word (w : TWord) (s : State)

/-- The cause of a halt where nothing answers: a bank that is not on, or a bus error (R223, R252). -/
def deadCause (a : Nat) : Nat := if a < 0x200000 then 1 else 3

/-- The port at which an agent that is no core reaches a word (R218, R231): its own, or the fabric's over a window. -/
def portOver (port : Nat) (path : Path) : Nat := if path = .far then 6 else port

/-- A word is found uncorrectable by a reader that is no core (R228, R382). -/
def State.noteLostWord (s : State) (p port q b a : Nat) (path : Path) : State :=
  (s.noteEcc q (arrayOf path) (portOver port path) b true).noteRemote p a

/-- A word is read by an agent that is no core: its single-bit error is corrected, and the L2 counts it as a use (R226). -/
def State.readThrough (s : State) (port q b : Nat) (path : Path) : State :=
  let s1 := s.correct q (arrayOf path) 0 (portOver port path) [memKey q b]
  if path = .bank then s1 else (s1.correct q 4 0 (portOver port path) (s1.tagKeys q (b / 128))).useL2 q (b / 128) false

/-- One word of memory read by an agent of panel `p` that is no core, at a port (R218, R228). -/
def State.wordBy (s : State) (p port a : Nat) : Got :=
  match s.panelSpot p a with
  | .busy => .waits
  | .dead | .gone | .page _ _ => .fails (deadCause a) (s.noteRemote p a)
  | .mem q b path =>
    if path = .cached ∧ s.tagLost q (b / 128) = true then .fails 4 (s.tagFails q (b / 128) port)
    else if path = .far ∧ s.tagLost q (b / 128) = true then .fails 3 ((s.tagFails q (b / 128) 6).noteRemote p a)
    else if s.bad q b then .fails 4 (s.noteLostWord p port q b a path)
    else .word (s.word q b) ((if path = .far then s.noteCross p q else s).readThrough port q b path)

end Sys2Proof.Machine
end

