-- ==== Sys2Proof/Machine/Operands.lean ====
section
/-! DEFINITION. Operands (R151, R169 to R178): tags, the renamed operand stack with its spills and fills, the control
stack, and how an instruction runs and retires (R148, R154, R168, R187, R369). -/

namespace Sys2Proof.Machine

open Sys2Proof

/-! ### Tags (R169, R170) -/

def classOf (w : TWord) : Nat := tagOf w / 32
def clsRaw : Nat := 0
def clsInt : Nat := 1
def clsFix : Nat := 2
def clsFlt : Nat := 3
def clsPtr : Nat := 4
def clsCode : Nat := 5
def clsFrame : Nat := 6
def clsVoid : Nat := 7

/-- The tag bytes of the table of R169. -/
def tagListed (t : Nat) : Bool :=
  [0x00, 0x20, 0x21, 0x60, 0x80, 0x88, 0x90, 0x98, 0xA0, 0xC0, 0xC1, 0xC2, 0xC3, 0xC4, 0xC5, 0xE0, 0xE1, 0xE2].contains t
    || (decide (0x40 ≤ t) && decide (t ≤ 0x5F))

/-- A word is malformed (R170). -/
def malformed (w : TWord) : Bool :=
  !tagListed (tagOf w) ||
    ((decide (classOf w = clsPtr) || decide (classOf w = clsCode)) && decide (2 ^ 48 ≤ (payload w).toNat))

/-- A word that an instruction may use as an operand of a class (R170, R171). -/
def isClass (c : Nat) (w : TWord) : Bool := decide (classOf w = c) && !malformed w

def sint (v : Word) : TWord := tword 0x20 v
def uint (v : Word) : TWord := tword 0x21 v
def truth (b : Bool) : TWord := uint (BitVec.ofNat 64 b.toNat)

/-- Privileged (R174). -/
def Thread.priv (th : Thread) : Bool := bit th.status.toNat 8

/-- A `FRAME` word may not be loaded, stored or moved by unprivileged code (R173). -/
def frameRefused (th : Thread) (w : TWord) : Bool := decide (classOf w = clsFrame) && !th.priv

/-! ### The operand stack (R151, R175) -/

/-- Words of the operand stack in memory. -/
def Thread.inMemory (th : Thread) : Nat := (th.osp.toNat - th.osLo.toNat) / 8

/-- The depth (R175). -/
def Thread.depth (th : Thread) : Nat := th.inMemory + th.stack.length

/-- An address that a stack access may use: no device space, bank 7 by a secure access only. -/
def State.stackAddr (s : State) (p t a : Nat) : Bool :=
  !deviceSpace a && !(decide (a < 0x200000) && decide (0x1C0000 ≤ a) && !s.threadSecure p t)

/-- A fill: the entry below the renamed ones is loaded. -/
def State.fillOne (s : State) (p t : Nat) : Except Stop State :=
  let th := s.thread p t
  let a := th.osp.toNat - 8
  if s.stackAddr p t a = false then .error (faultStop p t AC)
  else
    match s.readWord p t a with
    | .error e => .error e
    | .ok (w, s1) =>
      if frameRefused th w then .error (faultStop p t TY)
      else
        let th1 := s1.thread p t
        .ok (s1.setThread p t { th1 with osp := BitVec.ofNat 64 a, stack := th1.stack ++ [.word w] })

/-- Fills until `n` entries are renamed. -/
def State.fillTo (s : State) (p t n : Nat) : Nat → Except Stop State
  | 0 => .ok s
  | k + 1 =>
    if n ≤ (s.thread p t).stack.length then .ok s
    else
      match s.fillOne p t with
      | .error e => .error e
      | .ok s1 => State.fillTo s1 p t n k

/-- An instruction that needs `n` operands (R175). -/
def State.need (s : State) (p t n : Nat) : Except Stop State :=
  if (s.thread p t).depth < n then .error (faultStop p t SB) else s.fillTo p t n n

/-- The thread parks until a pending entry is filled (R154). -/
def pendingStop (p t id : Nat) : Stop := fun s =>
  let u := s.parkThread p t .pendingEntry
  u.setThread p t { u.thread p t with waitsFor := id }

/-- A spill: the deepest renamed entry is stored. -/
def State.spillOne (s : State) (p t : Nat) : Except Stop State :=
  let th := s.thread p t
  match th.stack.getLast? with
  | none => .ok s
  | some (.pending id) => .error (pendingStop p t id)
  | some (.word w) =>
    let a := th.osp.toNat
    if th.osHi.toNat < a + 8 then .error (faultStop p t SB)
    else if frameRefused th w then .error (faultStop p t TY)
    else if s.stackAddr p t a = false then .error (faultStop p t AC)
    else
      match s.pushWord p t a w with
      | .error e => .error e
      | .ok s1 =>
        let th1 := s1.thread p t
        .ok (s1.setThread p t { th1 with osp := BitVec.ofNat 64 (a + 8), stack := th1.stack.dropLast })

/-- Spills until at most `n` entries are renamed. -/
def State.spillTo (s : State) (p t n : Nat) : Nat → Except Stop State
  | 0 => .ok s
  | k + 1 =>
    if (s.thread p t).stack.length ≤ n then .ok s
    else
      match s.spillOne p t with
      | .error e => .error e
      | .ok s1 => State.spillTo s1 p t n k

/-- The state with a thread's renamed entries replaced, spilled down to 16. -/
def State.setStack (s : State) (p t : Nat) (l : List Slot) : Except Stop State :=
  (s.setThread p t { s.thread p t with stack := l }).spillTo p t 16 (l.length - 16)

/-- The words of renamed entries, if none is pending. -/
def wordsOf : List Slot → Option (List TWord)
  | [] => some []
  | .pending _ :: _ => none
  | .word w :: rest =>
    match wordsOf rest with
    | none => none
    | some l => some (w :: l)

/-- The first pending one of some entries. -/
def firstPending : List Slot → Nat
  | [] => 0
  | .pending id :: _ => id
  | .word _ :: rest => firstPending rest

/-- The top `n` words, top first, without them popped; a pending one parks the thread (R154). -/
def State.peek (s : State) (p t n : Nat) : Except Stop (List TWord × State) :=
  match s.need p t n with
  | .error e => .error e
  | .ok s1 =>
    match wordsOf ((s1.thread p t).stack.take n) with
    | none => .error (pendingStop p t (firstPending ((s1.thread p t).stack.take n)))
    | some l => .ok (l, s1)

/-! #### Which fault comes first (R187) -/

/-- What an access of a thread's stack to a word meets: it is done, it waits, or it gives a fault. -/
inductive Meeting where
  | done | waits
  | fault (code : Nat)
  deriving DecidableEq, Repr

/-- What a read of a word of a stack meets now. -/
def State.meets (s : State) (p t a : Nat) : Meeting :=
  let c := t / 4
  let at_ (q b : Nat) := (s.thread p t).arrived.contains (memKey q b)
  if s.stackAddr p t a = false then .fault AC
  else match s.spot p t a with
    | .busy => .waits
    | .gone => .done
    | .dead | .page _ _ => .fault BE
    | .mem q b .bank => if s.bad q b then .fault BE else .done
    | .mem q b .far => if at_ q b = false then .waits else if s.bad q b then .fault BE else .done
    | .mem q b .cached =>
      if ((s.l1Set p c false (b / 64)).way (b / 64)).isSome then .done
      else if at_ q b = false ∧ s.inL2 p (b / 128) = false then .waits
      else if s.bad q b then .fault BE else .done

/-- The fault of an instruction that reads some words of a stack, of which one has given `e`: a type fault that is certain
ranks first, then an access fault of any of them. -/
def State.ranked (s : State) (p t : Nat) (addrs : List Nat) (wrong : Bool) (e : Stop) : Stop :=
  match (addrs.map (s.meets p t)).find? (fun m => decide (m ≠ .done)) with
  | some (.fault _) =>
    if wrong then faultStop p t TY
    else if addrs.any (fun a => decide (s.meets p t a = .fault AC)) then faultStop p t AC else e
  | _ => e

/-- One word of each class that an operand may be, and one of each tag among some words. -/
def sampleWords (l : List (Option TWord)) : List TWord :=
  [0x00, 0x20, 0x21, 0x40, 0x60, 0x98, 0xA0, 0xC0, 0xE0].map (fun k => tword k 0)
    ++ (l.filterMap id).map (fun w => tword (tagOf w) 0)

/-- Every choice of sample words for the operands that are not known. -/
def choices (samples : List TWord) : List (Option TWord) → List (List TWord)
  | [] => [[]]
  | some w :: rest => (choices samples rest).map (fun l => w :: l)
  | none :: rest => (choices samples rest).flatMap (fun l => samples.map (fun w => w :: l))

/-- The addresses of the operands among the top `n` that are not renamed. -/
def Thread.fillAddrs (th : Thread) (n : Nat) : List Nat :=
  (List.range (n - th.stack.length)).map (fun k => th.osp.toNat - 8 * (k + 1))

/-- The top `n` operands as far as they can be read. -/
def State.operandsSeen (s : State) (p t n : Nat) : List (Option TWord) :=
  let th := s.thread p t
  (th.stack.take n).map (fun x => match x with
      | .word w => some w
      | .pending _ => none)
    ++ (th.fillAddrs n).map (fun a => if s.stackAddr p t a then s.wordSeen p t a else none)

/-- The top `n` words of an instruction that accepts some of them by type, without them popped. Where a fill faults, a type
fault that the words at hand make certain ranks first (R187). -/
def State.peekAs (s : State) (p t n : Nat) (accepts : List TWord → Bool) : Except Stop (List TWord × State) :=
  match s.peek p t n with
  | .ok r => .ok r
  | .error e =>
    if (s.thread p t).depth < n ∨ n ≤ (s.thread p t).stack.length then .error e
    else
      let l := s.operandsSeen p t n
      .error (s.ranked p t ((s.thread p t).fillAddrs n) ((choices (sampleWords l) l).all (fun ws => !accepts ws)) e)

/-- The top `n` words replaced by others, given top first. -/
def State.replace (s : State) (p t n : Nat) (l : List TWord) : Except Stop State :=
  s.setStack p t (l.map Slot.word ++ (s.thread p t).stack.drop n)

/-! ### The control stack (R177) -/

/-- A push on the control stack. -/
def State.pushControl (s : State) (p t : Nat) (w : TWord) : Except Stop State :=
  let th := s.thread p t
  let a := th.csp.toNat - 8
  if th.csp.toNat < 8 ∨ a < th.csLo.toNat then .error (faultStop p t SB)
  else if s.stackAddr p t a = false then .error (faultStop p t AC)
  else
    match s.pushWord p t a w with
    | .error e => .error e
    | .ok s1 => .ok (s1.setThread p t { s1.thread p t with csp := BitVec.ofNat 64 a })

/-- Words of a stack in memory are read one after another. -/
def State.readEach (s : State) (p t : Nat) : List Nat → Except Stop (List TWord × State)
  | [] => .ok ([], s)
  | a :: rest =>
    if s.stackAddr p t a = false then .error (faultStop p t AC)
    else
      match s.readWord p t a with
      | .error e => .error e
      | .ok (w, s1) =>
        match State.readEach s1 p t rest with
        | .error e => .error e
        | .ok (ws, s2) => .ok (w :: ws, s2)

/-- The words from an address on, which are to have some tags: where one of them faults, a wrong tag ranks first (R187). -/
def State.popWords (s : State) (p t a : Nat) (tags : List Nat) : Except Stop (List TWord × State) :=
  let addrs := (List.range tags.length).map (fun k => a + 8 * k)
  match s.readEach p t addrs with
  | .ok r => .ok r
  | .error e => .error (s.ranked p t addrs
      ((addrs.zip tags).any (fun x => s.stackAddr p t x.1 && (s.wordSeen p t x.1).any (fun w => decide (tagOf w ≠ x.2)))) e)

/-! ### Trace (R369) -/

def traceKey (p t : Nat) : Nat := 16 * (16 * p + t)

/-- A trace entry is written, or dropped where its ring has no room; the next entry counts from either (assumption 61). -/
def State.traceEntry (s : State) (p t kind pc : Nat) : State :=
  let pk := easlPage
  let base := s.fld pk (EASL_TRACE_BASE.ADDR.at (traceKey p t)) * 128
  let size := s.fld pk (EASL_TRACE_SIZE.SIZE.at (traceKey p t)) * 128
  let th := s.thread p t
  let a := base + th.traceAt
  if size = 0 ∨ a < dramBase ∨ 2 * dramBase ≤ a ∨ s.dramThere p a = false then
    ((s.setThread p t { th with traceGap := true, traced := 0 }).count pk (EASL_TRACE_SIZE.DROPS.at (traceKey p t)) 1).raise pk 3
  else
    let k := if th.traceGap then 8 else kind
    let w := BitVec.ofNat 64 (k * 2 ^ 56 + th.traced % 256 * 2 ^ 48 + pc % 2 ^ 48)
    (s.putMem p a (raw w)).setThread p t { th with
      traced := 0, traceGap := false, traceAt := if th.traceAt + 8 < size then th.traceAt + 8 else 0 }

def State.tracing (s : State) (p t : Nat) : Bool := s.flag easlPage (EASL_TRACE_BASE.EN.at (traceKey p t))

/-- An instruction has retired: it counts toward the trace, as a transfer of a kind or as none (kind 0). -/
def State.traceRetire (s : State) (p t kind pc : Nat) : State :=
  if s.tracing p t = false then s
  else
    let th := s.thread p t
    let s1 := s.setThread p t { th with traced := th.traced + 1 }
    if kind ≠ 0 then s1.traceEntry p t kind pc
    else if 255 ≤ th.traced + 1 then s1.traceEntry p t 7 pc
    else s1

/-! ### Replay (R312) -/

/-- An entry of a replayed thread is consumed. -/
def State.consume (s : State) (p : Nat) (e : Entry) : State :=
  let j := s.journal (partner p)
  s.setJournal (partner p) { j with entries := j.entries.erase e }

/-- The words of a `DATA` entry are written to the mirror of their region. -/
def State.replayData (s : State) (p : Nat) (e : Entry) : State :=
  match e.payload with
  | [] => s
  | h :: ws =>
    let addr := (payload h).toNat % 2 ^ 48
    (ws.zipIdx).foldl (fun u x =>
      match u.region (partner p) (addr + 8 * x.2) with
      | some (i, off) => u.putMem p (u.mirrorAddr (partner p) i off) x.1
      | none => u) s

/-- Entries that no instruction waits for take effect at their keys: completions, frames, their data, collisions. -/
def State.replayNotes (s : State) (p t : Nat) : Nat → State
  | 0 => s
  | k + 1 =>
    match (s.replayEntries p t).find? (fun e => decide (e.key ≤ (s.thread p t).retired.toNat % 2 ^ 48)
        && (decide (e.kind = COLL) || decide (e.kind = DONE) || decide (e.kind = FRAME) || decide (e.kind = DATA))) with
    | none => s
    | some e =>
      let s1 := if e.kind = COLL then s.setColl p t else if e.kind = DATA then s.replayData p e else s
      State.replayNotes (s1.consume p e) p t k

/-- The entry of a replayed thread that is of a kind and at the thread's present key, wherever it lies. -/
def State.nextEntry (s : State) (p t kind : Nat) : Option Entry :=
  (s.replayEntries p t).find? (fun e => decide (e.kind = kind)
    && decide (e.key = (s.thread p t).retired.toNat % 2 ^ 48))

/-! ### Running and retiring -/

/-- Other threads of a core, by panel thread number. -/
def coreMates (t : Nat) : List Nat := ((List.range 4).map (fun i => t / 4 * 4 + i)).filter (fun u => decide (u ≠ t))

/-- A thread that takes fetch turns: running and not parked, a wait for events being over while one is pending
(R148, R208). -/
def State.fetching (s : State) (p t : Nat) : Bool :=
  decide ((s.thread p t).run = .running) &&
    ((s.thread p t).park.isNone || (decide ((s.thread p t).park = some .wfe) && !(s.candidates p t).isEmpty))

/-- An Easel step runs the thread (R365). -/
def State.stepping (s : State) (p t : Nat) : Bool :=
  s.present p && (s.panel p).halted && decide (s.boot = .done) &&
    (match (s.thread p t).stepEnd with
     | some n => decide ((s.thread p t).retired.toNat < n)
     | none => false)

/-- The next instruction of a thread may run now. A stepped thread runs alone, and `YIELD` waits for no other (R365). -/
def State.canRun (s : State) (p t : Nat) : Bool :=
  let th := s.thread p t
  s.fetching p t && th.fault.isNone && (s.panelLive p || s.stepping p t)
    && (s.stepping p t || th.yielded.all (fun u => !s.fetching p u)) && (s.nextEntry p t ENTRY).isNone
    && (s.journal p).late.all (fun e => decide (e.thread ≠ t))

/-! ### Fetch (R148, R149, R154, R228) -/

/-- The line after the one in use is read ahead into the other entry of the line buffer, from the L1 instruction cache. -/
def State.readAhead (s : State) (p c line : Nat) : State :=
  let (hit, s1) := s.readL1 p c true (line + 1) (wordKeys p (64 * (line + 1)) 8)
  if hit then (s1.bufferLine p c (line + 1)).bufferLine p c line else s1

/-- A line of the panel's DRAM comes to the line buffer: from the L1 instruction cache, else from the L2, else the thread
parks. A line of which a word reads uncorrectable is not kept there. -/
def State.fetchLine (s : State) (p t line : Nat) : Except Stop State :=
  let c := t / 4
  let l1 (u : State) := u.readL1 p c true line (wordKeys p (64 * line) 8)
  if (s.core p c).lineBuf.contains line ∨ (s.thread p t).entryLine = some line then .ok (s.bufferLine p c line)
  else if (l1 s).1 then .ok ((l1 s).2.bufferLine p c line)
  else if s.tagLost p (line / 2) then .error (fun u => u.tagFails p (line / 2) (1 + c))
  else if s.inL2 p (line / 2) = false then .error (fun u => (l1 u).2.missL2 p t (64 * line) true)
  else
    let s1 := (((l1 s).2.noteOutput p c 0).readL2 p (1 + c) line).fillL1 p c true line
    .ok (if (s1.l1Set p c true line).way line = none then s1 else s1.bufferLine p c line)

/-- A word of an instruction is fetched, or the fault that its fetch gives (R223, R225, R228, R313); one over a window
parks the thread and gets the bus error of R380. -/
def State.fetchWord (s : State) (p t a : Nat) : Except Stop State :=
  let c := t / 4
  if a < 0x200000 ∧ 0x1C0000 ≤ a ∧ s.threadSecure p t = false then .error (faultStop p t AC)
  else
    match s.spot p t a with
    | .busy => .error waitStop
    | .dead | .gone | .page _ _ => .error (busStop p t a)
    | .mem q b .bank =>
      if s.bad q b then .error (fun u => faultStop p t FE (u.noteEcc q 0 (1 + c) b true))
      else .ok ((s.noteOutput p c 1).correct q 0 0 (1 + c) [memKey q b])
    | .mem q b .far => s.readFar p t q b
    | .mem q b .cached =>
      match s.fetchLine p t (b / 64) with
      | .error e => .error e
      | .ok s1 =>
        if (s1.core p c).lineBuf.contains (b / 64) then
          .ok (if 48 ≤ b % 64 then s1.readAhead p c (b / 64) else s1)
        else if s1.bad q b then .error (fun u => faultStop p t FE (u.noteEcc q 1 (1 + c) b true))
        else .ok s1

/-- The `len` bytes of a thread's next instruction are fetched. -/
def State.fetch (s : State) (p t len : Nat) : Except Stop State :=
  let pc := (s.thread p t).pc
  match s.fetchWord p t (pc / 8 * 8) with
  | .error e => .error e
  | .ok s1 => if (pc + len - 1) / 8 = pc / 8 then .ok s1 else s1.fetchWord p t ((pc + len - 1) / 8 * 8)

/-- The fetch that delivers a thread's next instruction of `len` bytes, and the instruction's place in it (R148). -/
def Thread.fetchOf (th : Thread) (len : Nat) : Nat × Nat :=
  match th.group with
  | some (a, n) => if n < 4 ∧ th.pc + len ≤ a + 16 then (a, n + 1) else (th.pc, 1)
  | none => (th.pc, 1)

/-! ### The lockstep comparator (R164, R165, R368; assumption 135) -/

/-- Whether a thread's core has used a compared output between two states, in the coding of `CORE_LOCKSTEP.OUTPUT`. -/
def State.used (before after : State) (p t output : Nat) : Bool :=
  let c := t / 4
  let old := before.thread p t
  let new := after.thread p t
  match output with
  | 0 | 1 => after.outputs.contains (p, c, output)
  | 2 => decide (old.loads ≠ new.loads) || decide (old.stores ≠ new.stores)
  | 3 => decide (before.evServ ≠ after.evServ) || decide ((before.core p c).prio ≠ (after.core p c).prio)
  | 4 => decide ((before.panel p).halting ≠ (after.panel p).halting)
      || (before.tracing p t && decide (old.retired ≠ new.retired))
  | 5 => decide ((before.journal p).entries ≠ (after.journal p).entries)
  | _ => decide (old.retired ≠ new.retired)

/-- What a thread has done is compared with the checker copy, into which a difference may have been injected for one output:
at its first use it is only detected, or it is a mismatch, and nothing done leaves the core. -/
def State.compared (after before : State) (inject : Option (Nat × Bool)) (p t : Nat) : State :=
  match inject with
  | none => after
  | some (output, detect) =>
    if before.used after p t output = false then { after with outputs := [] }
    else if detect then { after with outputs := [] }.detectInjected p (t / 4)
    else { before with outputs := [] }.mismatch p (t / 4) (t % 4) output

/-- A thread's instruction, if it may run: its effect, or what stops it. -/
def State.instr (s : State) (p t len : Nat) (act : State → Except Stop State) : State :=
  if s.canRun p t then
    match s.fetch p t len with
    | .error e => (e s).compared s (s.core p (t / 4)).inject p t
    | .ok s1 =>
      (match act s1 with
       | .ok s2 => s2
       | .error e => e s1).compared s (s1.core p (t / 4)).inject p t
  else s

/-- A thread has fetched: the others of its core that skip fetch no longer wait for it (R186). -/
def State.fetched (s : State) (p t : Nat) : State :=
  (coreMates t).foldl (fun u i =>
    if (u.thread p i).yielded.contains t then
      u.setThread p i { u.thread p i with yielded := (u.thread p i).yielded.filter (fun x => decide (x ≠ t)) }
    else u) s

/-- An instruction retires and the thread goes on at an address; `kind` is its trace kind, 0 for no transfer. -/
def State.retire (s : State) (p t next kind : Nat) : State :=
  let th := s.thread p t
  let s1 := s.setThread p t { th with
    pc := next % 2 ^ 48
    retired := th.retired + 1
    yielded := []
    park := none
    arrived := []
    entryLine := none
    group := if kind = 0 then some (th.fetchOf (next - th.pc)) else none }
  let s3 := (s1.fetched p t).traceRetire p t kind (next % 2 ^ 48)
  s3.replayNotes p t (s3.replayEntries p t).length

/-- The address after an instruction. -/
def State.after (s : State) (p t len : Nat) : Nat := (s.thread p t).pc + len

/-- `THR_FLAGS` bits set by an instruction (R174). -/
def State.orFlags (s : State) (p t fl : Nat) : State :=
  if fl = 0 then s
  else s.setThread p t { s.thread p t with flags := (s.thread p t).flags ||| BitVec.ofNat 64 fl }

/-- An instruction's result is no type fault. -/
def typed {α : Type} : Except Nat α → Bool
  | .error c => decide (c ≠ TY)
  | .ok _ => true

/-- An instruction that computes words from the top `n`, with a flag to set, or a fault code. -/
def State.calc (s : State) (t : Tid) (len n : Nat)
    (f : Thread → List TWord → Except Nat (List TWord × Nat)) : State :=
  let p := t.panel.val
  let i := t.index.val
  s.instr p i len (fun s0 =>
    match s0.peekAs p i n (fun ws => typed (f (s0.thread p i) ws)) with
    | .error e => .error e
    | .ok (ws, s1) =>
      match f (s0.thread p i) ws with
      | .error c => .error (faultStop p i c)
      | .ok (out, fl) =>
        match (s1.orFlags p i fl).replace p i n out with
        | .error e => .error e
        | .ok s2 => .ok (s2.retire p i (s0.after p i len) 0))

/-- An instruction that rearranges the top `n` entries without reading them (R151; assumption 33). -/
def State.rearrange (s : State) (t : Tid) (len n : Nat) (g : List Slot → List Slot) : State :=
  let p := t.panel.val
  let i := t.index.val
  s.instr p i len (fun s0 =>
    match s0.need p i n with
    | .error e => .error e
    | .ok s1 =>
      match s1.setStack p i (g (s1.thread p i).stack) with
      | .error e => .error e
      | .ok s2 => .ok (s2.retire p i (s0.after p i len) 0))

end Sys2Proof.Machine
end

