-- ==== Sys2Proof/Machine/Flags.lean ====
section
/-! DEFINITION. Results and flags of the computing instructions (R170 to R172, R178, R186, R188 to R191): each is a
function of the thread and of its operand words, top first; it answers the words to leave, top first, with the
`THR_FLAGS` bits to set, or a fault code. -/

namespace Sys2Proof.Machine

open Sys2Proof

abbrev Calc := Except Nat (List TWord × Nat)

def Thread.ovEn (th : Thread) : Bool := bit th.status.toNat 10
def Thread.dzEn (th : Thread) : Bool := bit th.status.toNat 9

/-- The value of an `INT` by its subfield. -/
def intVal (w : TWord) : Int := if tagOf w = 0x21 then ((payload w).toNat : Int) else (payload w).toInt

/-- The value of a `FIX` payload. -/
def fixVal (w : TWord) : Int := (payload w).toInt

def fracOf (w : TWord) : Nat := tagOf w % 32

def isInt (w : TWord) : Bool := isClass clsInt w
def isFix (w : TWord) : Bool := isClass clsFix w
def isRaw (w : TWord) : Bool := isClass clsRaw w
def isPtr (w : TWord) : Bool := isClass clsPtr w
def isFlt (w : TWord) : Bool := isClass clsFlt w

/-- Two `INT` of one subfield; two `FIX` of one fraction count (R172). -/
def sameInt (a b : TWord) : Bool := isInt a && isInt b && decide (tagOf a = tagOf b)
def sameFix (a b : TWord) : Bool := isFix a && isFix b && decide (tagOf a = tagOf b)

/-- A word any instruction but the moves may use (R170, R171). -/
def usable (w : TWord) : Bool := !malformed w && decide (classOf w ≠ clsVoid)

/-- One word left, no flag. -/
def one (w : TWord) : Calc := .ok ([w], 0)

def wordOfInt (v : Int) : Word := BitVec.ofInt 64 v

/-- An exact `INT` result in a subfield (R188). -/
def intResult (th : Thread) (tag : Nat) (v : Int) : Calc :=
  let inside := if tag = 0x21 then decide (0 ≤ v) && decide (v < 2 ^ 64) else decide (-2 ^ 63 ≤ v) && decide (v < 2 ^ 63)
  if inside then one (tword tag (wordOfInt v))
  else if th.ovEn then .error OV
  else .ok ([tword tag (wordOfInt v)], 1)

/-- An exact `FIX` result (R189). -/
def fixResult (th : Thread) (tag : Nat) (v : Int) : Calc :=
  if -2 ^ 63 ≤ v ∧ v < 2 ^ 63 then one (tword tag (wordOfInt v))
  else if th.ovEn then .error OV
  else .ok ([tword tag (wordOfInt (clampInt v (-2 ^ 63) (2 ^ 63 - 1)))], 1)

/-- A value with `f` fraction bits dropped, to nearest with ties toward plus infinity (R189). -/
def roundShift (v : Int) (f : Nat) : Int := if f = 0 then v else (v + 2 ^ (f - 1)) / 2 ^ f

/-! ### Arithmetic -/

/-- A pointer moved by a number of bytes (R178). -/
def movePtr (ptr : TWord) (d : Int) : Calc :=
  let a := ((payload ptr).toNat : Int) + d
  if a < 0 ∨ 2 ^ 48 ≤ a then .error AC else one (tword (tagOf ptr) (wordOfInt a))

def calcAdd (th : Thread) : List TWord → Calc
  | [b, a] =>
    if sameInt a b then intResult th (tagOf a) (intVal a + intVal b)
    else if sameFix a b then fixResult th (tagOf a) (fixVal a + fixVal b)
    else if isPtr a ∧ isInt b then movePtr a (intVal b)
    else .error TY
  | _ => .error SB

def calcSub (th : Thread) : List TWord → Calc
  | [b, a] =>
    if sameInt a b then intResult th (tagOf a) (intVal a - intVal b)
    else if sameFix a b then fixResult th (tagOf a) (fixVal a - fixVal b)
    else if isPtr a ∧ isInt b then movePtr a (-intVal b)
    else if isPtr a ∧ isPtr b then one (sint (wordOfInt (((payload a).toNat : Int) - (payload b).toNat)))
    else .error TY
  | _ => .error SB

/-- A signed result of one signed `INT` or `FIX` operand. -/
def signedUnary (g : Int → Int) (th : Thread) : List TWord → Calc
  | [a] =>
    if isInt a ∧ tagOf a = 0x20 then intResult th 0x20 (g (intVal a))
    else if isFix a then fixResult th (tagOf a) (g (fixVal a))
    else .error TY
  | _ => .error SB

def calcNeg : Thread → List TWord → Calc := signedUnary (fun v => -v)
def calcAbs : Thread → List TWord → Calc := signedUnary (fun v => (v.natAbs : Int))

/-- One of two operands, chosen by their order. -/
def choose (first : Int → Int → Bool) (_ : Thread) : List TWord → Calc
  | [b, a] =>
    if sameInt a b then one (if first (intVal a) (intVal b) then a else b)
    else if sameFix a b then one (if first (fixVal a) (fixVal b) then a else b)
    else .error TY
  | _ => .error SB

def calcMin : Thread → List TWord → Calc := choose (fun a b => decide (a ≤ b))
def calcMax : Thread → List TWord → Calc := choose (fun a b => decide (b ≤ a))

def calcMul (th : Thread) : List TWord → Calc
  | [b, a] =>
    if sameInt a b then intResult th (tagOf a) (intVal a * intVal b)
    else if sameFix a b then fixResult th (tagOf a) (roundShift (fixVal a * fixVal b) (fracOf a))
    else .error TY
  | _ => .error SB

def calcMulh (_ : Thread) : List TWord → Calc
  | [b, a] =>
    if sameInt a b then one (tword (tagOf a) (wordOfInt (intVal a * intVal b / 2 ^ 64))) else .error TY
  | _ => .error SB

/-- What a division by zero delivers (R191). -/
def divByZero (a : TWord) : Word :=
  if tagOf a = 0x21 then -1 else if (payload a).toInt < 0 then 0x8000000000000000 else 0x7FFFFFFFFFFFFFFF

def calcDiv (th : Thread) : List TWord → Calc
  | [b, a] =>
    if sameInt a b = false ∧ sameFix a b = false then .error TY
    else if payload b = 0 then
      (if th.dzEn then .error DZ else .ok ([tword (tagOf a) (divByZero a)], 2))
    else if isInt a then intResult th (tagOf a) ((intVal a).tdiv (intVal b))
    else fixResult th (tagOf a) ((fixVal a * 2 ^ fracOf a).tdiv (fixVal b))
  | _ => .error SB

def calcRem (th : Thread) : List TWord → Calc
  | [b, a] =>
    if sameInt a b = false then .error TY
    else if payload b = 0 then (if th.dzEn then .error DZ else .ok ([a], 2))
    else one (tword (tagOf a) (wordOfInt ((intVal a).tmod (intVal b))))
  | _ => .error SB

/-! ### Logic, shifts, comparisons -/

/-- `INT` or `RAW`. -/
def isBits (w : TWord) : Bool := isInt w || isRaw w

def calcLogic (g : Word → Word → Word) (_ : Thread) : List TWord → Calc
  | [b, a] =>
    if isBits a ∧ isBits b ∧ tagOf a = tagOf b then one (tword (tagOf a) (g (payload a) (payload b))) else .error TY
  | _ => .error SB

def calcNot (_ : Thread) : List TWord → Calc
  | [a] => if isBits a then one (tword (tagOf a) (~~~(payload a))) else .error TY
  | _ => .error SB

def calcShift (g : Word → Nat → Word) (_ : Thread) : List TWord → Calc
  | [n, a] =>
    if isBits a ∧ isInt n then one (tword (tagOf a) (g (payload a) ((payload n).toNat % 64))) else .error TY
  | _ => .error SB

def calcShiftImm (g : Word → Nat → Word) (n : Nat) (_ : Thread) : List TWord → Calc
  | [a] => if isBits a then one (tword (tagOf a) (g (payload a) n)) else .error TY
  | _ => .error SB

def shl (v : Word) (n : Nat) : Word := v <<< n
def shr (v : Word) (n : Nat) : Word := v >>> n
def sar (v : Word) (n : Nat) : Word := v.sshiftRight n

def calcEq (want : Bool) (_ : Thread) : List TWord → Calc
  | [b, a] => if usable a ∧ usable b then one (truth (decide (a = b) == want)) else .error TY
  | _ => .error SB

def calcOrder (g : Int → Int → Bool) (_ : Thread) : List TWord → Calc
  | [b, a] =>
    if sameInt a b then one (truth (g (intVal a) (intVal b)))
    else if sameFix a b then one (truth (g (fixVal a) (fixVal b)))
    else if isPtr a ∧ isPtr b then one (truth (g (payload a).toNat (payload b).toNat))
    else .error TY
  | _ => .error SB

def calcEqz (_ : Thread) : List TWord → Calc
  | [a] => if isInt a ∨ isRaw a ∨ isFix a then one (truth (decide (payload a = 0))) else .error TY
  | _ => .error SB

/-! ### Binary64 (R191) -/

def fword (v : Word) : TWord := tword 0x60 v

def calcFloat2 (g : Word → Word → Word) (_ : Thread) : List TWord → Calc
  | [b, a] => if isFlt a ∧ isFlt b then one (fword (g (payload a) (payload b))) else .error TY
  | _ => .error SB

/-- A zero divisor sets `DZ` (R191; assumption 37). -/
def calcFdiv (_ : Thread) : List TWord → Calc
  | [b, a] =>
    if isFlt a ∧ isFlt b then
      .ok ([fword (fdiv (payload a) (payload b))], if isZero (payload b) then 2 else 0)
    else .error TY
  | _ => .error SB

def calcFloat1 (g : Word → Word) (_ : Thread) : List TWord → Calc
  | [a] => if isFlt a then one (fword (g (payload a))) else .error TY
  | _ => .error SB

def calcFloatTest (g : Word → Word → Bool) (_ : Thread) : List TWord → Calc
  | [b, a] => if isFlt a ∧ isFlt b then one (truth (g (payload a) (payload b))) else .error TY
  | _ => .error SB

def calcCvtIf (_ : Thread) : List TWord → Calc
  | [a] => if isInt a then one (fword (roundInt (intVal a) 0 false)) else .error TY
  | _ => .error SB

/-- Truncated; a value beyond the range saturates as an overflow (R186, R189). -/
def calcCvtFi (th : Thread) : List TWord → Calc
  | [a] =>
    if isFlt a = false then .error TY
    else
      let x := payload a
      if isNan x then one (sint 0)
      else fixResult th 0x20 (if isInf x then (if fSign x then -2 ^ 64 else 2 ^ 64) else ftrunc x)
  | _ => .error SB

def calcCvtXf (_ : Thread) : List TWord → Calc
  | [a] => if isFix a then one (fword (roundInt (fixVal a) (-(fracOf a : Int)) false)) else .error TY
  | _ => .error SB

/-! ### Tags and formats (R171, R178, R189, R190) -/

/-- `AS` (R186). -/
def calcRetag (tag : Nat) (_ : Thread) : List TWord → Calc
  | [a] =>
    let c := classOf a
    if usable a = false then .error TY
    else if c ≤ 3 then (if tag / 32 ≤ 3 then one (tword tag (payload a)) else .error TY)
    else if tag = 0 then one (raw (payload a)) else .error TY
  | _ => .error SB

def calcSat (n : Nat) (_ : Thread) : List TWord → Calc
  | [a] =>
    if isInt a ∧ tagOf a = 0x21 then one (uint (wordOfInt (clampInt (intVal a) 0 (2 ^ n - 1))))
    else if isInt a ∨ isFix a then
      one (tword (tagOf a) (wordOfInt (clampInt (fixVal a) (-2 ^ (n - 1)) (2 ^ (n - 1) - 1))))
    else .error TY
  | _ => .error SB

def calcAlign (f : Nat) (th : Thread) : List TWord → Calc
  | [a] =>
    if isFix a then
      let g := fracOf a
      fixResult th (0x40 + f) (if g < f then fixVal a * 2 ^ (f - g) else roundShift (fixVal a) (g - f))
    else .error TY
  | _ => .error SB

/-- `TAG`: the word stays, its tag byte is pushed. -/
def calcTag (_ : Thread) : List TWord → Calc
  | [a] => .ok ([uint (BitVec.ofNat 64 (tagOf a)), a], 0)
  | _ => .error SB

def calcTagset (tag : Nat) (_ : Thread) : List TWord → Calc
  | [a] => if usable a then one (tword tag (payload a)) else .error TY
  | _ => .error SB

def calcPtrr (mask : Nat) (_ : Thread) : List TWord → Calc
  | [a] => if isPtr a then one (tword (tagOf a &&& (0xFF ^^^ mask)) (payload a)) else .error TY
  | _ => .error SB

end Sys2Proof.Machine
end

