-- ==== Sys2Proof/Machine/Stack.lean ====
section
/-! DEFINITION. Stack rearrangement and literals (R151, R186). -/

namespace Sys2Proof.Machine

open Sys2Proof

/-- An opcode or immediate that the opcode map does not list (R185). -/
def State.undefinedOpcode (s : State) (t : Tid) (len : Nat) : State :=
  s.instr t.panel t.index len (fun _ => .error (faultStop t.panel t.index UD))

/-- `NOP` (R186). -/
def execNop (t : Tid) (s : State) : Host.Outcome State Fault Refusal := .next (s.rearrange t 1 0 id)

def dupSlots : List Slot → List Slot
  | a :: r => a :: a :: r
  | l => l

/-- `DUP` (R186). -/
def execDup (t : Tid) (s : State) : Host.Outcome State Fault Refusal := .next (s.rearrange t 1 1 dupSlots)

/-- `DROP` (R186). -/
def execDrop (t : Tid) (s : State) : Host.Outcome State Fault Refusal := .next (s.rearrange t 1 1 (List.drop 1))

def swapSlots : List Slot → List Slot
  | b :: a :: r => a :: b :: r
  | l => l

/-- `SWAP` (R186). -/
def execSwap (t : Tid) (s : State) : Host.Outcome State Fault Refusal := .next (s.rearrange t 1 2 swapSlots)

def overSlots : List Slot → List Slot
  | b :: a :: r => a :: b :: a :: r
  | l => l

/-- `OVER` (R186). -/
def execOver (t : Tid) (s : State) : Host.Outcome State Fault Refusal := .next (s.rearrange t 1 2 overSlots)

def rotSlots : List Slot → List Slot
  | c :: b :: a :: r => a :: c :: b :: r
  | l => l

/-- `ROT` (R186). -/
def execRot (t : Tid) (s : State) : Host.Outcome State Fault Refusal := .next (s.rearrange t 1 3 rotSlots)

/-- A copy of entry `n` on top. -/
def pickSlots (n : Nat) (l : List Slot) : List Slot :=
  match l[n]? with
  | some x => x :: l
  | none => l

/-- `PICK` (R186): entries 0 to 15. -/
def execPick (t : Tid) (n : Byte) (s : State) : Host.Outcome State Fault Refusal :=
  .next (if n.toNat < 16 then s.rearrange t 2 (n.toNat + 1) (pickSlots n.toNat) else s.undefinedOpcode t 2)

/-- Entry `n` moved to the top. -/
def rollSlots (n : Nat) (l : List Slot) : List Slot :=
  match l[n]? with
  | some x => x :: l.eraseIdx n
  | none => l

/-- `ROLL` (R186): entries 0 to 15. -/
def execRoll (t : Tid) (n : Byte) (s : State) : Host.Outcome State Fault Refusal :=
  .next (if n.toNat < 16 then s.rearrange t 2 (n.toNat + 1) (rollSlots n.toNat) else s.undefinedOpcode t 2)

/-- `DROPN` (R186): 1 to 16 words. -/
def execDropn (t : Tid) (n : Byte) (s : State) : Host.Outcome State Fault Refusal :=
  .next (if 1 ≤ n.toNat ∧ n.toNat ≤ 16 then s.rearrange t 2 n.toNat (List.drop n.toNat) else s.undefinedOpcode t 2)

/-- `DEPTH` (R186): the depth before the push. -/
def execDepth (t : Tid) (s : State) : Host.Outcome State Fault Refusal :=
  .next (s.calc t 1 0 (fun th _ => one (uint (BitVec.ofNat 64 th.depth))))

/-! ### Literals (R185) -/

/-- Bytes of a literal instruction. -/
def litLength : Lit → Nat
  | .i8 _ => 2
  | .i16 _ => 3
  | .i32 _ => 5
  | .i64 _ => 9

def litSigned : Lit → Word
  | .i8 v => v.signExtend 64
  | .i16 v => v.signExtend 64
  | .i32 v => v.signExtend 64
  | .i64 v => v

def litUnsigned : Lit → Word
  | .i8 v => v.setWidth 64
  | .i16 v => v.setWidth 64
  | .i32 v => v.setWidth 64
  | .i64 v => v

/-- `LIT.S` (R186). -/
def execLitS (t : Tid) (imm : Lit) (s : State) : Host.Outcome State Fault Refusal :=
  .next (s.calc t (litLength imm) 0 (fun _ _ => one (sint (litSigned imm))))

/-- `LIT.U` (R186). -/
def execLitU (t : Tid) (imm : Lit) (s : State) : Host.Outcome State Fault Refusal :=
  .next (s.calc t (litLength imm) 0 (fun _ _ => one (uint (litUnsigned imm))))

/-- `LIT.R` (R186). -/
def execLitR (t : Tid) (imm : Word) (s : State) : Host.Outcome State Fault Refusal :=
  .next (s.calc t 9 0 (fun _ _ => one (raw imm)))

/-- `LIT.F` (R186). -/
def execLitF (t : Tid) (imm : Word) (s : State) : Host.Outcome State Fault Refusal :=
  .next (s.calc t 9 0 (fun _ _ => one (fword imm)))

/-- A code address computed from another, within 48 bits (assumption 39). -/
def codeAddr (a : Int) : Nat := unsign 48 a

/-- `LIT.C` (R186): the next address plus a displacement. -/
def execLitC (t : Tid) (disp : BitVec 32) (s : State) : Host.Outcome State Fault Refusal :=
  .next (s.calc t 5 0 (fun th _ => one (tword 0xA0 (BitVec.ofNat 64 (codeAddr (th.pc + 5 + disp.toInt))))))

/-- `LIT.V` (R186). -/
def execLitV (t : Tid) (s : State) : Host.Outcome State Fault Refusal :=
  .next (s.calc t 1 0 (fun _ _ => one voidWord))

end Sys2Proof.Machine
end

