-- ==== Sys2Proof/Machine/Compute.lean ====
section
/-! DEFINITION. The computing instructions (R186): each is the shared run of an instruction over its function of
`Flags.lean`. -/

namespace Sys2Proof.Machine

open Sys2Proof

/-- `ADD` (R178, R188, R189). -/
def execAdd (t : Tid) (s : State) : Host.Outcome State Fault Refusal := .next (s.calc t 1 2 calcAdd)

/-- `SUB` (R178, R188, R189). -/
def execSub (t : Tid) (s : State) : Host.Outcome State Fault Refusal := .next (s.calc t 1 2 calcSub)

/-- `NEG` (R188, R189). -/
def execNeg (t : Tid) (s : State) : Host.Outcome State Fault Refusal := .next (s.calc t 1 1 calcNeg)

/-- `ABS` (R188, R189). -/
def execAbs (t : Tid) (s : State) : Host.Outcome State Fault Refusal := .next (s.calc t 1 1 calcAbs)

/-- `MIN` (R186). -/
def execMin (t : Tid) (s : State) : Host.Outcome State Fault Refusal := .next (s.calc t 1 2 calcMin)

/-- `MAX` (R186). -/
def execMax (t : Tid) (s : State) : Host.Outcome State Fault Refusal := .next (s.calc t 1 2 calcMax)

/-- `MUL` (R188, R189). -/
def execMul (t : Tid) (s : State) : Host.Outcome State Fault Refusal := .next (s.calc t 1 2 calcMul)

/-- `MULH` (R186). -/
def execMulh (t : Tid) (s : State) : Host.Outcome State Fault Refusal := .next (s.calc t 1 2 calcMulh)

/-- `DIV` (R188, R189, R191). -/
def execDiv (t : Tid) (s : State) : Host.Outcome State Fault Refusal := .next (s.calc t 1 2 calcDiv)

/-- `REM` (R191). -/
def execRem (t : Tid) (s : State) : Host.Outcome State Fault Refusal := .next (s.calc t 1 2 calcRem)

/-- `AND` (R186). -/
def execAnd (t : Tid) (s : State) : Host.Outcome State Fault Refusal := .next (s.calc t 1 2 (calcLogic (· &&& ·)))

/-- `OR` (R186). -/
def execOr (t : Tid) (s : State) : Host.Outcome State Fault Refusal := .next (s.calc t 1 2 (calcLogic (· ||| ·)))

/-- `XOR` (R186). -/
def execXor (t : Tid) (s : State) : Host.Outcome State Fault Refusal := .next (s.calc t 1 2 (calcLogic (· ^^^ ·)))

/-- `NOT` (R186). -/
def execNot (t : Tid) (s : State) : Host.Outcome State Fault Refusal := .next (s.calc t 1 1 calcNot)

/-- `SHL` (R186). -/
def execShl (t : Tid) (s : State) : Host.Outcome State Fault Refusal := .next (s.calc t 1 2 (calcShift shl))

/-- `SHR` (R186). -/
def execShr (t : Tid) (s : State) : Host.Outcome State Fault Refusal := .next (s.calc t 1 2 (calcShift shr))

/-- `SAR` (R186). -/
def execSar (t : Tid) (s : State) : Host.Outcome State Fault Refusal := .next (s.calc t 1 2 (calcShift sar))

/-- `SHLI` (R186): counts 0 to 63. -/
def execShli (t : Tid) (n : Byte) (s : State) : Host.Outcome State Fault Refusal :=
  .next (if n.toNat < 64 then s.calc t 2 1 (calcShiftImm shl n.toNat) else s.undefinedOpcode t 2)

/-- `SHRI` (R186): counts 0 to 63. -/
def execShri (t : Tid) (n : Byte) (s : State) : Host.Outcome State Fault Refusal :=
  .next (if n.toNat < 64 then s.calc t 2 1 (calcShiftImm shr n.toNat) else s.undefinedOpcode t 2)

/-- `SARI` (R186): counts 0 to 63. -/
def execSari (t : Tid) (n : Byte) (s : State) : Host.Outcome State Fault Refusal :=
  .next (if n.toNat < 64 then s.calc t 2 1 (calcShiftImm sar n.toNat) else s.undefinedOpcode t 2)

/-- `EQ` (R186). -/
def execEq (t : Tid) (s : State) : Host.Outcome State Fault Refusal := .next (s.calc t 1 2 (calcEq true))

/-- `NE` (R186). -/
def execNe (t : Tid) (s : State) : Host.Outcome State Fault Refusal := .next (s.calc t 1 2 (calcEq false))

/-- `LT` (R186). -/
def execLt (t : Tid) (s : State) : Host.Outcome State Fault Refusal := .next (s.calc t 1 2 (calcOrder (fun a b => decide (a < b))))

/-- `LE` (R186). -/
def execLe (t : Tid) (s : State) : Host.Outcome State Fault Refusal := .next (s.calc t 1 2 (calcOrder (fun a b => decide (a ≤ b))))

/-- `EQZ` (R186). -/
def execEqz (t : Tid) (s : State) : Host.Outcome State Fault Refusal := .next (s.calc t 1 1 calcEqz)

/-- `FADD` (R191). -/
def execFadd (t : Tid) (s : State) : Host.Outcome State Fault Refusal := .next (s.calc t 1 2 (calcFloat2 fadd))

/-- `FSUB` (R191). -/
def execFsub (t : Tid) (s : State) : Host.Outcome State Fault Refusal := .next (s.calc t 1 2 (calcFloat2 fsub))

/-- `FMUL` (R191). -/
def execFmul (t : Tid) (s : State) : Host.Outcome State Fault Refusal := .next (s.calc t 1 2 (calcFloat2 fmul))

/-- `FDIV` (R191). -/
def execFdiv (t : Tid) (s : State) : Host.Outcome State Fault Refusal := .next (s.calc t 1 2 calcFdiv)

/-- `FSQRT` (R191). -/
def execFsqrt (t : Tid) (s : State) : Host.Outcome State Fault Refusal := .next (s.calc t 1 1 (calcFloat1 fsqrt))

/-- `FNEG` (R186). -/
def execFneg (t : Tid) (s : State) : Host.Outcome State Fault Refusal := .next (s.calc t 1 1 (calcFloat1 fneg))

/-- `FABS` (R186). -/
def execFabs (t : Tid) (s : State) : Host.Outcome State Fault Refusal := .next (s.calc t 1 1 (calcFloat1 fabs))

/-- `FEQ` (R186). -/
def execFeq (t : Tid) (s : State) : Host.Outcome State Fault Refusal := .next (s.calc t 1 2 (calcFloatTest feq))

/-- `FLT` (R186). -/
def execFlt (t : Tid) (s : State) : Host.Outcome State Fault Refusal := .next (s.calc t 1 2 (calcFloatTest flt))

/-- `FLE` (R186). -/
def execFle (t : Tid) (s : State) : Host.Outcome State Fault Refusal := .next (s.calc t 1 2 (calcFloatTest fle))

/-- `CVT.IF` (R186). -/
def execCvtIf (t : Tid) (s : State) : Host.Outcome State Fault Refusal := .next (s.calc t 1 1 calcCvtIf)

/-- `CVT.FI` (R186, R189). -/
def execCvtFi (t : Tid) (s : State) : Host.Outcome State Fault Refusal := .next (s.calc t 1 1 calcCvtFi)

/-- `CVT.XF` (R186). -/
def execCvtXf (t : Tid) (s : State) : Host.Outcome State Fault Refusal := .next (s.calc t 1 1 calcCvtXf)

/-- `AS` (R186): the tag is one of R169 (assumption 36). -/
def execRetag (t : Tid) (tag : Byte) (s : State) : Host.Outcome State Fault Refusal :=
  .next (if tagListed tag.toNat then s.calc t 2 1 (calcRetag tag.toNat) else s.undefinedOpcode t 2)

/-- `SAT` (R190): 1 to 64 bits. -/
def execSat (t : Tid) (n : Byte) (s : State) : Host.Outcome State Fault Refusal :=
  .next (if 1 ≤ n.toNat ∧ n.toNat ≤ 64 then s.calc t 2 1 (calcSat n.toNat) else s.undefinedOpcode t 2)

/-- `ALIGN` (R189): 0 to 31 fraction bits. -/
def execAlign (t : Tid) (f : Byte) (s : State) : Host.Outcome State Fault Refusal :=
  .next (if f.toNat < 32 then s.calc t 2 1 (calcAlign f.toNat) else s.undefinedOpcode t 2)

/-- `TAG` (R171, R186). -/
def execTag (t : Tid) (s : State) : Host.Outcome State Fault Refusal := .next (s.calc t 1 1 calcTag)

/-- `TAGSET` (R170, R178, R186): privileged; it takes any tag byte (assumption 36). -/
def execTagset (t : Tid) (tag : Byte) (s : State) : Host.Outcome State Fault Refusal :=
  .next (if (s.thread t.panel t.index).priv then s.calc t 2 1 (calcTagset tag.toNat)
    else s.instr t.panel t.index 2 (fun _ => .error (faultStop t.panel t.index PV)))

/-- `PTRR` (R178, R186): bits [4:3] of the immediate only. -/
def execPtrr (t : Tid) (mask : Byte) (s : State) : Host.Outcome State Fault Refusal :=
  .next (if mask &&& 0xE7 = 0 then s.calc t 2 1 (calcPtrr mask.toNat) else s.undefinedOpcode t 2)

end Sys2Proof.Machine
end

