-- ==== Sys2Proof/Machine/Control.lean ====
section
/-! DEFINITION. Control flow (R157, R158, R177, R186, R198): branches, jumps, calls, returns. -/

namespace Sys2Proof.Machine

open Sys2Proof

/-! ### Prediction (R157, R158) -/

/-- The thread predicts. -/
def Thread.predicts (th : Thread) : Bool := !bit th.status.toNat 11

/-- Instructions issued on a path later discarded: a free count (assumption 41). -/
def State.spendSpec (s : State) (p t : Nat) : State :=
  let (v, s1) := s.fresh
  let th := s1.thread p t
  s1.setThread p t { th with specIssue := th.specIssue + (v &&& 63) }

/-- A transfer resolves against its prediction, and fetch restarts (R157). -/
def State.mispredict (s : State) (p t : Nat) : State :=
  let th := s.thread p t
  (s.setThread p t { th with mispredict := th.mispredict + 1 }).spendSpec p t

/-- The direction counter of a branch at an address. -/
def counterKey (p t : Nat) (pc : Nat) (history : BitVec 12) : Nat :=
  (p * 4 + t / 4) * 8192 + ((pc % 8192) ^^^ (history.toNat * 2))

/-- A conditional branch resolves: its counter, the history, and the count of wrong predictions. -/
def State.resolveBranch (s : State) (p t : Nat) (taken : Bool) : State :=
  let th := s.thread p t
  if th.predicts = false then s
  else
    let k := counterKey p t th.pc th.history
    let c := Store.read 0 s.counters k
    let next := if taken then (if c < 3 then c + 1 else 3) else c - 1
    let s1 := { s with counters := Store.write 0 s.counters k next }
    let s2 := s1.setThread p t { th with history := (th.history <<< 1) ||| BitVec.ofNat 12 taken.toNat }
    if decide (2 ≤ c) != taken then s2.mispredict p t else s2

/-- A call pushes its return address on the predictor's return stack. -/
def State.pushReturn (s : State) (p t ret : Nat) : State :=
  let th := s.thread p t
  if th.predicts then s.setThread p t { th with returns := (ret :: th.returns).take 15 } else s

/-- A return resolves against the top of the return stack. -/
def State.resolveReturn (s : State) (p t target : Nat) : State :=
  let th := s.thread p t
  if th.predicts = false then s
  else
    match th.returns with
    | [] => s
    | top :: rest =>
      let s1 := s.setThread p t { th with returns := rest }
      if top = target then s1 else s1.mispredict p t

/-- The target that the branch target buffer of a core holds for a fetch at an address (R157). -/
def State.targetHeld (s : State) (p c a : Nat) : Option Nat :=
  let x := s.core p c
  ((Store.read {} x.btb (a / 16 % 512)).way (a / 8192)).map (fun w => Store.read 0 x.targets (a / 16 % 512 * 4 + w))

/-- A taken transfer retires: the target buffer holds its target for its fetch (R157; assumption 41). -/
def State.learnTarget (s : State) (p c a target : Nat) : State :=
  let x := s.core p c
  let set := a / 16 % 512
  let e := Store.read {} x.btb set
  let (w, e1) := match e.way (a / 8192) with
    | some w => (w, e.use 2 w false)
    | none =>
      let w := (e.victim 2 (fun _ => true)).getD 0
      (w, e.put 2 w (a / 8192))
  s.setCore p c { x with
    btb := Store.write {} x.btb set e1
    targets := Store.write 0 x.targets (set * 4 + w) target }

/-- A jump or call to an operand, of `len` bytes: a target that the buffer holds for its fetch is its prediction. -/
def State.resolveJump (s : State) (p t len target : Nat) : State :=
  let th := s.thread p t
  if th.predicts = false then s
  else
    match s.targetHeld p (t / 4) (th.fetchOf len).1 with
    | some x => if x = target then s else s.mispredict p t
    | none => s

/-- A taken transfer of `len` bytes retires: the thread goes on at its target. -/
def State.leap (s : State) (p t len target kind : Nat) : State :=
  let th := s.thread p t
  (if th.predicts then s.learnTarget p (t / 4) (th.fetchOf len).1 target else s).retire p t target kind

/-- Fetch restarts after a branch that was wrongly predicted as taken. -/
def State.refetch (s : State) (p t : Nat) : State := s.setThread p t { s.thread p t with group := none }

/-! ### Branches (R186) -/

def dispLength : Disp → Nat
  | .s8 _ => 2
  | .s16 _ => 3
  | .s32 _ => 5

def dispValue : Disp → Int
  | .s8 v => v.toInt
  | .s16 v => v.toInt
  | .s32 v => v.toInt

/-- The address a displacement names from the next instruction. -/
def State.target (s : State) (p t len : Nat) (d : Int) : Nat := codeAddr ((s.after p t len : Nat) + d)

/-- `BR` (R186). -/
def execBr (t : Tid) (disp : Disp) (s : State) : Host.Outcome State Fault Refusal :=
  let p := t.panel.val
  let i := t.index.val
  let len := dispLength disp
  .next (s.instr p i len (fun u => .ok (u.leap p i len (u.target p i len (dispValue disp)) 1)))

/-- A conditional branch. -/
def State.branchIf (s : State) (t : Tid) (disp : Disp) (want : Bool) : State :=
  let p := t.panel.val
  let i := t.index.val
  let len := dispLength disp
  s.instr p i len (fun u =>
    match u.peek p i 1 with
    | .error e => .error e
    | .ok (ws, s1) =>
      match ws with
      | [n] =>
        if isInt n then
          match s1.replace p i 1 [] with
          | .error e => .error e
          | .ok s2 =>
            let taken := decide (payload n = 0) == want
            let s3 := s2.resolveBranch p i taken
            let wrong := decide ((s3.thread p i).mispredict ≠ (s2.thread p i).mispredict)
            if taken then .ok (s3.leap p i len (u.target p i len (dispValue disp)) 1)
            else
              let s4 := s3.retire p i (u.after p i len) 0
              .ok (if wrong then s4.refetch p i else s4)
        else .error (faultStop p i TY)
      | _ => .error (faultStop p i SB))

/-- `BZ` (R186). -/
def execBz (t : Tid) (disp : Disp) (s : State) : Host.Outcome State Fault Refusal := .next (s.branchIf t disp true)

/-- `BNZ` (R186). -/
def execBnz (t : Tid) (disp : Disp) (s : State) : Host.Outcome State Fault Refusal := .next (s.branchIf t disp false)

/-- A `CODE` operand is popped. -/
def State.popCode (s : State) (p t : Nat) : Except Stop (Nat × State) :=
  match s.peek p t 1 with
  | .error e => .error e
  | .ok (ws, s1) =>
    match ws with
    | [c] =>
      if isClass clsCode c then
        match s1.replace p t 1 [] with
        | .error e => .error e
        | .ok s2 => .ok ((payload c).toNat % 2 ^ 48, s2)
      else .error (faultStop p t TY)
    | _ => .error (faultStop p t SB)

/-- `JMP` (R186). -/
def execJmp (t : Tid) (s : State) : Host.Outcome State Fault Refusal :=
  let p := t.panel.val
  let i := t.index.val
  .next (s.instr p i 1 (fun u =>
    match u.popCode p i with
    | .error e => .error e
    | .ok (a, s1) => .ok ((s1.resolveJump p i 1 a).leap p i 1 a 4)))

/-! ### Calls and returns (R177) -/

/-- A call's two words do not fit the control stack. -/
def Thread.recordFull (th : Thread) : Bool := decide (th.csp.toNat < 16) || decide (th.csp.toNat - 16 < th.csLo.toNat)

/-- `n` words cannot be popped from the control stack. -/
def Thread.controlShort (th : Thread) (n : Nat) : Bool := decide (th.csHi.toNat < th.csp.toNat + 8 * n)

/-- The call record is pushed: expected depth, then return address. An access fault of either ranks before a bus error
(R187). -/
def State.pushRecord (s : State) (p t a r ret : Nat) : Except Stop State :=
  let th := s.thread p t
  let d := th.depth
  if d < a ∨ th.recordFull = true then .error (faultStop p t SB)
  else if (s.stackAddr p t (th.csp.toNat - 8) && s.stackAddr p t (th.csp.toNat - 16)) = false then
    .error (faultStop p t AC)
  else
    match s.pushControl p t (tword 0xC5 (BitVec.ofNat 64 (d - a + r))) with
    | .error e => .error e
    | .ok s1 => s1.pushControl p t (tword 0xC4 (BitVec.ofNat 64 (ret % 2 ^ 48)))

/-- `CALL` (R177). -/
def execCall (t : Tid) (disp : BitVec 24) (a r : Fin 16) (s : State) : Host.Outcome State Fault Refusal :=
  let p := t.panel.val
  let i := t.index.val
  .next (s.instr p i 5 (fun u =>
    match u.pushRecord p i a r (u.after p i 5) with
    | .error e => .error e
    | .ok s1 => .ok ((s1.pushReturn p i (u.after p i 5 % 2 ^ 48)).leap p i 5 (u.target p i 5 disp.toInt) 2)))

/-- `CALLI` (R177): the bounds of both stacks rank before the operand's type (R187). -/
def execCalli (t : Tid) (a r : Fin 16) (s : State) : Host.Outcome State Fault Refusal :=
  let p := t.panel.val
  let i := t.index.val
  .next (s.instr p i 2 (fun u =>
    if (u.thread p i).depth < a.val + 1 ∨ (u.thread p i).recordFull = true then .error (faultStop p i SB)
    else
    match u.popCode p i with
    | .error e => .error e
    | .ok (c, s1) =>
      match s1.pushRecord p i a r (u.after p i 2) with
      | .error e => .error e
      | .ok s2 => .ok (((s2.pushReturn p i (u.after p i 2 % 2 ^ 48)).resolveJump p i 2 c).leap p i 2 c 2)))

/-- `RET` (R177). -/
def execRet (t : Tid) (s : State) : Host.Outcome State Fault Refusal :=
  let p := t.panel.val
  let i := t.index.val
  .next (s.instr p i 1 (fun u =>
    if (u.thread p i).controlShort 2 then .error (faultStop p i SB)
    else
    match u.popWords p i (u.thread p i).csp.toNat [0xC4, 0xC5] with
    | .error e => .error e
    | .ok (ws, s1) =>
      match ws with
      | [ra, d] =>
        if tagOf ra ≠ 0xC4 ∨ tagOf d ≠ 0xC5 then .error (faultStop p i TY)
        else if (payload d).toNat ≠ (u.thread p i).depth then .error (faultStop p i SI)
        else
          let a := (payload ra).toNat % 2 ^ 48
          let s2 := s1.setThread p i { s1.thread p i with csp := BitVec.ofNat 64 ((u.thread p i).csp.toNat + 16) }
          .ok ((s2.resolveReturn p i a).retire p i a 3)
      | _ => .error (faultStop p i SB)))

/-- The four words of a frame, popped from the control stack, or read at the fault stack in a double-fault handler
(R198). -/
def State.popFrame (s : State) (p t : Nat) : Except Stop (List TWord × State) :=
  let th := s.thread p t
  let tags := [0xC3, 0xC2, 0xC1, 0xC0]
  if th.double then
    match s.popWords p t th.fsp.toNat tags with
    | .error e => .error e
    | .ok (ws, s1) => .ok (ws, s1.setThread p t { s1.thread p t with
        fsp := BitVec.ofNat 64 (th.fsp.toNat + 32)
        double := false })
  else if th.controlShort 4 then .error (faultStop p t SB)
  else
    match s.popWords p t th.csp.toNat tags with
    | .error e => .error e
    | .ok (ws, s1) => .ok (ws, s1.setThread p t { s1.thread p t with csp := BitVec.ofNat 64 (th.csp.toNat + 32) })

/-- `RETI` (R198). -/
def execReti (t : Tid) (s : State) : Host.Outcome State Fault Refusal :=
  let p := t.panel.val
  let i := t.index.val
  .next (s.instr p i 1 (fun u =>
    if (u.thread p i).priv = false then .error (faultStop p i PV)
    else
      match u.popFrame p i with
      | .error e => .error e
      | .ok (ws, s1) =>
        match ws with
        | [d, st, ra, h] =>
          if tagOf d ≠ 0xC3 ∨ tagOf st ≠ 0xC2 ∨ tagOf ra ≠ 0xC1 ∨ tagOf h ≠ 0xC0 then .error (faultStop p i TY)
          else if (payload d).toNat ≠ (u.thread p i).depth then .error (faultStop p i SI)
          else
            let s2 := s1.setThread p i { s1.thread p i with status := payload st &&& statusMask }
            .ok (s2.retire p i ((payload ra).toNat % 2 ^ 48) 6)
        | _ => .error (faultStop p i SB)))

end Sys2Proof.Machine
end

