-- ==== Sys2Proof/Machine/Memory.lean ====
section
/-! DEFINITION. Loads, stores, atomics, timed stores and the long instructions (R155, R171 to R173, R179 to R184,
R189, R192, R193, R299, R302, R312 to R314). -/

namespace Sys2Proof.Machine

open Sys2Proof

/-! ### Loads (R180) -/

/-- What a load delivers. -/
inductive LoadKind where
  | tagged | raw | signed | unsigned
  deriving DecidableEq, Repr

/-- The word that a load of fewer than 8 bytes, or of 8 untagged ones, delivers. -/
def loadedWord (k : LoadKind) (bytes v : Nat) : TWord :=
  match k with
  | .tagged | .raw => raw (BitVec.ofNat 64 v)
  | .signed => sint (BitVec.ofInt 64 (signed (8 * bytes) v))
  | .unsigned => uint (BitVec.ofNat 64 v)

/-- The result of a load from memory. -/
def State.loadMemory (s : State) (p t : Nat) (k : LoadKind) (bytes a : Nat) : Except Stop (TWord × State) :=
  if (parts a bytes).any (fun x => decide (s.spot p t (x.1 / 8 * 8) = .gone)) then .ok (adoptedVoid, s)
  else if k = .tagged then
    match s.readWord p t a with
    | .error e => .error e
    | .ok (w, s1) => if frameRefused (s.thread p t) w then .error (faultStop p t TY) else .ok (w, s1)
  else
    match s.readParts p t (.error (busStop p t a)) (parts a bytes) with
    | .error e => .error e
    | .ok (v, s1) => .ok (loadedWord k bytes v, s1)

/-- A device-space load retires with its entry pending and parks the thread (R155). -/
def State.issueLoad (s : State) (p t len a : Nat) : Except Stop State :=
  let th := s.thread p t
  let id := th.retired.toNat
  let sec := s.threadSecure p t
  match s.setStack p t (.pending id :: th.stack.drop 1) with
  | .error e => .error e
  | .ok s1 =>
    let s2 := (s1.retire p t (s.after p t len) 0).parkThread p t .deviceLoad
    let (sent, s3) := if a < 0x80000000 then (s2.ticks, s2) else s2.leavePort p s2.ticks
    let th3 := s3.thread p t
    .ok (s3.setThread p t { th3 with
      waitsFor := id
      loads := th3.loads ++ [⟨id, a, sent, sent + (if a < 0x80000000 then 12 else 2 * backOf p a), sec⟩] })

/-- A device-space load (R155): a replayed one takes its value from the journal where that holds one (R312; assumption
54), and an adopted one finds no own page (R313). -/
def State.loadDevice (s : State) (p t len a : Nat) : Except Stop State :=
  let give (u : State) (w : TWord) : Except Stop State :=
    match u.replace p t 1 [w] with
    | .error e => .error e
    | .ok s1 => .ok (s1.retire p t (s.after p t len) 0)
  match (if s.replaying p t then s.nextEntry p t LOAD else none) with
  | some e => give (s.consume p e) (e.payload.headD adoptedVoid)
  | none =>
    if s.spot p t a = .gone then give s adoptedVoid
    else s.issueLoad p t len a

/-- A load instruction. -/
def State.load (s : State) (t : Tid) (disp : Disp) (env : MemEnv) (k : LoadKind) (bytes : Nat) : State :=
  let p := t.panel.val
  let i := t.index.val
  let len := dispLength disp
  (s.strike p env.upsets).instr p i len (fun u =>
    match u.peek p i 1 with
    | .error e => .error e
    | .ok (ws, s1) =>
      match ws with
      | [ptr] =>
        if isPtr ptr = false then .error (faultStop p i TY)
        else
          match s1.checkAccess p i ⟨bytes, decide (k = .tagged), false, decide (k = .raw)⟩ ptr
              ((payload ptr).toNat + dispValue disp) with
          | .error c => .error (faultStop p i c)
          | .ok a =>
            if deviceSpace a then s1.loadDevice p i len a
            else
              match s1.loadMemory p i k bytes a with
              | .error e => .error e
              | .ok (w, s2) =>
                match s2.replace p i 1 [w] with
                | .error e => .error e
                | .ok s3 => .ok (s3.retire p i (u.after p i len) 0)
      | _ => .error (faultStop p i SB))

/-- `LD.T` (R180). -/
def execLdT (t : Tid) (disp : Disp) (env : MemEnv) (s : State) : Host.Outcome State Fault Refusal :=
  .next (s.load t disp env .tagged 8)

/-- `LD.R` (R180). -/
def execLdR (t : Tid) (disp : Disp) (env : MemEnv) (s : State) : Host.Outcome State Fault Refusal :=
  .next (s.load t disp env .raw 8)

/-- `LD.S32` (R180). -/
def execLdS32 (t : Tid) (disp : Disp) (env : MemEnv) (s : State) : Host.Outcome State Fault Refusal :=
  .next (s.load t disp env .signed 4)

/-- `LD.U32` (R180). -/
def execLdU32 (t : Tid) (disp : Disp) (env : MemEnv) (s : State) : Host.Outcome State Fault Refusal :=
  .next (s.load t disp env .unsigned 4)

/-- `LD.S16` (R180). -/
def execLdS16 (t : Tid) (disp : Disp) (env : MemEnv) (s : State) : Host.Outcome State Fault Refusal :=
  .next (s.load t disp env .signed 2)

/-- `LD.U16` (R180). -/
def execLdU16 (t : Tid) (disp : Disp) (env : MemEnv) (s : State) : Host.Outcome State Fault Refusal :=
  .next (s.load t disp env .unsigned 2)

/-- `LD.S8` (R180). -/
def execLdS8 (t : Tid) (disp : Disp) (env : MemEnv) (s : State) : Host.Outcome State Fault Refusal :=
  .next (s.load t disp env .signed 1)

/-- `LD.U8` (R180). -/
def execLdU8 (t : Tid) (disp : Disp) (env : MemEnv) (s : State) : Host.Outcome State Fault Refusal :=
  .next (s.load t disp env .unsigned 1)

/-! ### Device-space stores (R182, R193, R302, R312, R314) -/

/-- A fault after an instruction that has completed (R182). -/
def State.setFaultAfter (s : State) (p t code : Nat) : State :=
  let th := s.thread p t
  match th.fault with
  | some _ => s
  | none => s.setThread p t { th with fault := some (code, th.pc, false) }

/-- A page key at which no page answers. -/
def nowhere : Nat := 17 * 4096

/-- The page register at a device address, in a thread's view. -/
def State.deviceReg (s : State) (p t a : Nat) : Nat × Nat :=
  match s.spot p t a with
  | .page pk off => (pk, off)
  | _ => (nowhere, a % 4096)

/-- The writes of an adopted thread are held until the panel is caught up (R312, R314). -/
def State.holdsWrites (s : State) (p t : Nat) : Bool :=
  (s.thread p t).adopted.isSome && decide (s.fld (hovrPage (partner p)) HOVR_STATE.STATE = 1)

/-- A held device-space write (R314). -/
def State.holdDevice (s : State) (p t a : Nat) (v : Word) (due : Option Nat) : State :=
  let f := partner p
  let (pk, off) := match regionOf p a with
    | .page pk off => (pk, off)
    | _ => (nowhere, a % 4096)
  s.setHandover f { s.handover f with
    held := (s.handover f).held ++
      [⟨s.originOf (.thread ⟨Fin.ofNat 8 p, Fin.ofNat 16 t⟩), pk, off, v, due, isPanelPage pk⟩] }

/-- A suppressed store takes its response from the journal (R312). -/
def State.suppressStore (s : State) (p t len : Nat) (x : Entry) : State :=
  let f := partner p
  let s1 := (s.consume p x).count (hovrPage f) HOVR_COUNTS.SUPPRESSED 1
  match s1.nextEntry p t RESP with
  | some e =>
    let err := decide (payload (e.payload.headD 0) = 1)
    let s2 := (s1.consume p e).retire p t (s.after p t len) 0
    if err then s2.setFaultAfter p t BE else s2
  | none => s1.retire p t (s.after p t len) 0

/-- Device-space stores of a core's threads that have not left: they hold entries of its store buffer, of which the
threads share 16 (R147, R153). -/
def State.storesWaiting (s : State) (p core : Nat) : Nat :=
  (s.flight.filter (fun x => decide (s.ticks < x.sent) &&
    (match x.agent with
      | .thread t => decide (t.panel.val = p) && decide (t.index.val / 4 = core)
      | _ => false))).length

/-- A store leaves for its page (R182, R302), once the store buffer has an entry for it. -/
def State.issueStore (s : State) (p t len a : Nat) (v : Word) (due : Option Nat) : Except Stop State :=
  if s.journaled p t ∧ s.ringRoom p 1 = false then .error (fun u => u.stall p t (.ring 1))
  else if 16 ≤ s.storesWaiting p (t / 4) then .error waitStop
  else
    let th := s.thread p t
    let native := !bit th.status.toNat 12
    let (pk, off) := s.deviceReg p t a
    let s1 := if s.journaled p t then s.enterInput p ⟨ISSUE, t, th.retired.toNat, []⟩ else s
    let s2 := (s1.issue p (.thread ⟨Fin.ofNat 8 p, Fin.ofNat 16 t⟩) pk off v due a).retire p t (s.after p t len) 0
    let s3 := if native then s2.parkThread p t .store else s2
    .ok (s3.setThread p t { s3.thread p t with stores := (s3.thread p t).stores ++ [⟨a, native, none, 0⟩] })

/-- A device-space store or timed store whose operands have been popped. -/
def State.storeDevice (s : State) (p t len a : Nat) (v : Word) (due : Option Nat) : Except Stop State :=
  if s.replaying p t then
    match s.nextEntry p t ISSUE with
    | some x => .ok (s.suppressStore p t len x)
    | none => .ok ((s.holdDevice p t a v due).retire p t (s.after p t len) 0)
  else if s.holdsWrites p t then .ok ((s.holdDevice p t a v due).retire p t (s.after p t len) 0)
  else s.issueStore p t len a v due

/-! ### Stores (R180) -/

/-- A store instruction: tagged, or `bytes` untagged ones. -/
def State.store (s : State) (t : Tid) (disp : Disp) (env : MemEnv) (tagged : Bool) (bytes : Nat) : State :=
  let p := t.panel.val
  let i := t.index.val
  let len := dispLength disp
  (s.strike p env.upsets).instr p i len (fun u =>
    let accepts (ws : List TWord) : Bool :=
      match ws with
      | [ptr, v] => isPtr ptr && (tagged || isBits v) && !(tagged && frameRefused (u.thread p i) v)
      | _ => false
    match u.peekAs p i 2 accepts with
    | .error e => .error e
    | .ok (ws, s1) =>
      match ws with
      | [ptr, v] =>
        if accepts ws = false then .error (faultStop p i TY)
        else
          match s1.checkAccess p i ⟨bytes, tagged, true, decide (tagged = false) && decide (bytes = 8)⟩ ptr
              ((payload ptr).toNat + dispValue disp) with
          | .error c => .error (faultStop p i c)
          | .ok a =>
            match s1.replace p i 2 [] with
            | .error e => .error e
            | .ok s2 =>
              if deviceSpace a then s2.storeDevice p i len a (payload v) none
              else
                match (if tagged then s2.writeWord p i a env.winner v
                    else s2.writeParts p i env (payload v).toNat (parts a bytes)) with
                | .error e => .error e
                | .ok s3 => .ok (s3.retire p i (u.after p i len) 0)
      | _ => .error (faultStop p i SB))

/-- `ST.T` (R180). -/
def execStT (t : Tid) (disp : Disp) (env : MemEnv) (s : State) : Host.Outcome State Fault Refusal :=
  .next (s.store t disp env true 8)

/-- `ST.R` (R180). -/
def execStR (t : Tid) (disp : Disp) (env : MemEnv) (s : State) : Host.Outcome State Fault Refusal :=
  .next (s.store t disp env false 8)

/-- `ST.32` (R180). -/
def execSt32 (t : Tid) (disp : Disp) (env : MemEnv) (s : State) : Host.Outcome State Fault Refusal :=
  .next (s.store t disp env false 4)

/-- `ST.16` (R180). -/
def execSt16 (t : Tid) (disp : Disp) (env : MemEnv) (s : State) : Host.Outcome State Fault Refusal :=
  .next (s.store t disp env false 2)

/-- `ST.8` (R180). -/
def execSt8 (t : Tid) (disp : Disp) (env : MemEnv) (s : State) : Host.Outcome State Fault Refusal :=
  .next (s.store t disp env false 1)

/-- An address in a ground sector window or a package page (R183). -/
def timedTarget (a : Nat) : Bool :=
  (decide (0x80000000 ≤ a) && decide (a < 0x88000000)) || (decide (0xF0000000 ≤ a) && decide (a < 0xF1000000))

/-- `STT` (R183). -/
def execStt (t : Tid) (disp : Disp) (s : State) : Host.Outcome State Fault Refusal :=
  let p := t.panel.val
  let i := t.index.val
  let len := dispLength disp
  .next (s.instr p i len (fun u =>
    let accepts (ws : List TWord) : Bool :=
      match ws with
      | [ptr, d, v] => isPtr ptr && isInt d && isBits v
      | _ => false
    match u.peekAs p i 3 accepts with
    | .error e => .error e
    | .ok (ws, s1) =>
      match ws with
      | [ptr, d, v] =>
        if accepts ws = false then .error (faultStop p i TY)
        else
          let to_ : Int := (payload ptr).toNat + dispValue disp
          if to_ % 8 ≠ 0 then .error (faultStop p i AL)
          else if 2 ^ 62 ≤ (payload d).toNat ∨ timedTarget to_.toNat = false then .error (faultStop p i AC)
          else
          match s1.checkAccess p i ⟨8, false, true, true⟩ ptr to_ with
          | .error c => .error (faultStop p i c)
          | .ok a =>
              match s1.replace p i 3 [] with
              | .error e => .error e
              | .ok s2 => s2.storeDevice p i len a (payload v) (some (payload d).toNat)
      | _ => .error (faultStop p i SB)))

/-! ### Atomics (R184, R222) -/

/-- An atomic instruction: `f` answers the word to store for the operand and the stored word, or a type fault. -/
def State.atomic (s : State) (t : Tid) (disp : Byte) (env : MemEnv) (f : Thread → TWord → TWord → Option TWord)
    (accepts : Thread → TWord → Bool) : State :=
  let p := t.panel.val
  let i := t.index.val
  (s.strike p env.upsets).instr p i 2 (fun u =>
    let fit (ws : List TWord) : Bool :=
      match ws with
      | [ptr, v] => isPtr ptr && accepts (u.thread p i) v
      | _ => false
    match u.peekAs p i 2 fit with
    | .error e => .error e
    | .ok (ws, s1) =>
      match ws with
      | [ptr, v] =>
        if fit ws = false then .error (faultStop p i TY)
        else
          match s1.checkAccess p i ⟨8, true, true, false⟩ ptr ((payload ptr).toNat + disp.toInt) with
          | .error c => .error (faultStop p i c)
          | .ok a =>
            if 0x200000 ≤ a then .error (faultStop p i AC)
            else
              match s1.readWord p i a with
              | .error e => .error e
              | .ok (old, s2) =>
                match f (u.thread p i) v old with
                | none => .error (faultStop p i TY)
                | some w =>
                  match s2.writeWord p i a none w with
                  | .error e => .error e
                  | .ok s3 =>
                    match s3.replace p i 2 [old] with
                    | .error e => .error e
                    | .ok s4 => .ok (s4.retire p i (u.after p i 2) 0)
      | _ => .error (faultStop p i SB))

/-- `AADD` (R184). -/
def execAadd (t : Tid) (disp : Byte) (env : MemEnv) (s : State) : Host.Outcome State Fault Refusal :=
  .next (s.atomic t disp env
    (fun _ v old => if sameInt v old then some (tword (tagOf v) (payload v + payload old)) else none)
    (fun _ v => isInt v))

/-- `ASWAP` (R184, R173). -/
def execAswap (t : Tid) (disp : Byte) (env : MemEnv) (s : State) : Host.Outcome State Fault Refusal :=
  .next (s.atomic t disp env
    (fun th v old => if frameRefused th old then none else some v)
    (fun th v => !frameRefused th v))

/-! ### Long instructions (R168, R192, R200): one element for each command (assumption 42) -/

/-- After an element: the operands hold the progress, and the last element completes the instruction, unless an Easel step
ends with it (R365). -/
def State.elementDone (s : State) (p t n : Nat) (ops : List TWord) : Except Stop State :=
  match s.replace p t ops.length ops with
  | .error e => .error e
  | .ok s1 =>
    let th := s1.thread p t
    let s2 := s1.setThread p t { th with
      retired := th.retired + 1
      arrived := [] }
    let s3 := s2.replayNotes p t (s2.replayEntries p t).length
    if n = 1 ∧ th.stepEnd.all (fun m => decide (th.retired.toNat + 1 < m)) = true then
      .ok (s3.retire p t (s.after p t 2) 0)
    else .ok s3

/-- A long instruction over `k` operands, the count on top: with count 0 it completes, otherwise `step` performs one
element. -/
def State.long (s : State) (t : Tid) (k : Nat) (typed : List TWord → Bool)
    (step : State → List TWord → Except Stop (State × List TWord)) : State :=
  let p := t.panel.val
  let i := t.index.val
  s.instr p i 2 (fun u =>
    let fit (ws : List TWord) : Bool :=
      match ws with
      | n :: rest => isInt n && decide (tagOf n = 0x21) && typed rest
      | [] => false
    match u.peekAs p i k fit with
    | .error e => .error e
    | .ok (ws, s1) =>
      match ws with
      | n :: rest =>
        if fit ws = false then .error (faultStop p i TY)
        else if payload n = 0 then
          match s1.replace p i k ws with
          | .error e => .error e
          | .ok s2 => .ok (s2.retire p i (u.after p i 2) 0)
        else
          match step s1 rest with
          | .error e => .error e
          | .ok (s2, out) => s2.elementDone p i (payload n).toNat (uint (payload n - 1) :: out)
      | [] => .error (faultStop p i SB))

/-- A pointer advanced past an element. -/
def advancePtr (ptr : TWord) (d : Nat) : TWord := tword (tagOf ptr) (payload ptr + BitVec.ofNat 64 d)

/-- The next element's address: no device space (R181). -/
def State.elementAddr (s : State) (p t : Nat) (ptr : TWord) (tagged write : Bool) (bytes : Nat) : Except Nat Nat :=
  s.checkAccess p t ⟨bytes, tagged, write, false⟩ ptr (payload ptr).toNat

/-- An address that has passed its checks holds, as far as it can be read, a word that satisfies a condition. -/
def State.seenAll (s : State) (p t : Nat) (good : TWord → Bool) : Except Nat Nat → Bool
  | .error _ => true
  | .ok a => match s.wordSeen p t a with
    | some w => good w
    | none => true

/-- `BMOVE` (R192). A `FRAME` word that may not be moved ranks before the fault of the destination (R187). -/
def execBmove (t : Tid) (env : MemEnv) (s : State) : Host.Outcome State Fault Refusal :=
  let p := t.panel.val
  let i := t.index.val
  .next ((s.strike p env.upsets).long t 3 (fun l => l.all isPtr) (fun u ops =>
    match ops with
    | [d, a] =>
      let src := u.elementAddr p i a true false 8
      let dst := u.elementAddr p i d true true 8
      if u.seenAll p i (fun w => !frameRefused (u.thread p i) w) src = false then .error (faultStop p i TY)
      else
      match firstCode src dst with
      | some c => .error (faultStop p i c)
      | none =>
      match u.loadMemory p i .tagged 8 (payload a).toNat with
      | .error e => .error e
      | .ok (w, s1) =>
      match s1.writeWord p i (payload d).toNat env.winner w with
      | .error e => .error e
      | .ok s2 => .ok (s2, [advancePtr d 8, advancePtr a 8])
    | _ => .error (faultStop p i SB)))

/-- `BFILL` (R192). -/
def execBfill (t : Tid) (env : MemEnv) (s : State) : Host.Outcome State Fault Refusal :=
  let p := t.panel.val
  let i := t.index.val
  .next ((s.strike p env.upsets).long t 3 (fun l => match l with | [d, _] => isPtr d | _ => false) (fun u ops =>
    match ops with
    | [d, v] =>
      if frameRefused (u.thread p i) v then .error (faultStop p i TY)
      else
      match u.elementAddr p i d true true 8 with
      | .error c => .error (faultStop p i c)
      | .ok dst =>
      match u.writeWord p i dst env.winner v with
      | .error e => .error e
      | .ok s2 => .ok (s2, [advancePtr d 8, v])
    | _ => .error (faultStop p i SB)))

/-- `DOTX` (R192). A word of the wrong type ranks before a fault of either address (R187). -/
def execDotx (t : Tid) (env : MemEnv) (s : State) : Host.Outcome State Fault Refusal :=
  let p := t.panel.val
  let i := t.index.val
  .next ((s.strike p env.upsets).long t 4
    (fun l => match l with | [b, a, acc] => isPtr b && isPtr a && isFix acc | _ => false)
    (fun u ops =>
    match ops with
    | [b, a, acc] =>
      let pa := u.elementAddr p i a true false 8
      let pb := u.elementAddr p i b true false 8
      if u.seenAll p i (fun x => sameFix x acc) pa = false ∨ u.seenAll p i isFix pb = false then
        .error (faultStop p i TY)
      else
      match firstCode pa pb with
      | some c => .error (faultStop p i c)
      | none =>
      match u.loadMemory p i .tagged 8 (payload a).toNat with
      | .error e => .error e
      | .ok (x, s1) =>
      match s1.loadMemory p i .tagged 8 (payload b).toNat with
      | .error e => .error e
      | .ok (y, s2) =>
        match fixResult (u.thread p i) (tagOf acc)
            (fixVal acc + roundShift (fixVal x * fixVal y) (fracOf y)) with
        | .error c => .error (faultStop p i c)
        | .ok (out, fl) => .ok (s2.orFlags p i fl, [advancePtr b 8, advancePtr a 8, out.headD acc])
    | _ => .error (faultStop p i SB)))

/-- One bit of the reflected CRC-32 (R192). -/
def crc32Bit (c : BitVec 32) : BitVec 32 := if c.getLsbD 0 then (c >>> 1) ^^^ 0xEDB88320#32 else c >>> 1

/-- One byte of CRC-32. -/
def crc32Byte (c : BitVec 32) (b : Byte) : BitVec 32 :=
  (List.range 8).foldl (fun x _ => crc32Bit x) (c ^^^ b.setWidth 32)

/-- `CRC32` (R192). -/
def execCrc32 (t : Tid) (env : MemEnv) (s : State) : Host.Outcome State Fault Refusal :=
  let p := t.panel.val
  let i := t.index.val
  .next ((s.strike p env.upsets).long t 3
    (fun l => match l with | [a, c] => isPtr a && isInt c && decide (tagOf c = 0x21) | _ => false) (fun u ops =>
    match ops with
    | [a, c] =>
      match u.elementAddr p i a false false 1 with
      | .error c => .error (faultStop p i c)
      | .ok src =>
      match u.loadMemory p i .unsigned 1 src with
      | .error e => .error e
      | .ok (w, s1) =>
        if w = adoptedVoid then .error (faultStop p i TY)
        else
          let r := crc32Byte ((payload c).setWidth 32) ((payload w).setWidth 8)
          .ok (s1, [advancePtr a 1, uint (r.setWidth 64)])
    | _ => .error (faultStop p i SB)))

end Sys2Proof.Machine
end

