-- ==== Sys2Proof/Machine/Evc.lean ====
section
/-! DEFINITION. Entries and the event controller (R194 to R217): frames, faults, interrupts, claims and completions,
imprecise store errors, double and third faults, the watcher, event pins, and the lockstep comparator (R165). -/

namespace Sys2Proof.Machine

open Sys2Proof

/-! ### Frames and entries (R194, R195, R197, R202, R203) -/

/-- The header word of a frame (R197). -/
def frameHeader (kind code source prev orig : Nat) : Word :=
  BitVec.ofNat 64 (kind * 2 ^ 60 + code % 256 * 2 ^ 52 + source % 2048 * 2 ^ 40 + prev % 32 * 2 ^ 32 + orig % 16)

/-- Addresses of the four words of a frame whose last word lies at `base`, in the order pushed. -/
def frameAddrs (base : Nat) : List Nat := [base + 24, base + 16, base + 8, base]

/-- The four words below a stack pointer lie in the panel's banks or its own DRAM (R202). Bank 7 serves the frame of a
thread only where an access of its present instruction would be secure (R225; assumption 130). -/
def State.frameFits (s : State) (p t base : Nat) : Bool :=
  (frameAddrs base).all (fun a =>
    match s.spot p t a with
    | .mem q b path => decide (q = p) && decide (path ≠ .far)
        && (decide (path ≠ .bank) || decide (b / 0x40000 ≠ 7) || s.threadSecure p t)
    | .busy => decide (0x200000 ≤ a) || s.threadSecure p t
    | _ => false)

/-- The room that a frame lacks for the copies of its words, and for the entries of collisions that they may lose
(R221, R308). -/
def State.frameStall (s : State) (p t base : Nat) : Option Room :=
  if s.holdRooms p t (frameAddrs base) = false then some (.lines (frameAddrs base))
  else if s.bankWrites ≠ [] ∧ s.journaled p t = true ∧ s.ringRoom p 8 = false then some (.ring 8)
  else none

/-- An entry that waits for room stalls its thread (R308). -/
def State.stallEntry (s : State) (p t base : Nat) : State :=
  match s.frameStall p t base with
  | some need => s.stall p t need
  | none => s

/-- A frame word has to wait: its place is being wiped, or its copy finds no room (R225, R235, R308). -/
def State.frameWaits (s : State) (p t base : Nat) : Bool :=
  (frameAddrs base).any (fun a => decide (s.spot p t a = .busy)) || (s.frameStall p t base).isSome

/-- The words of a frame, in the order pushed (R197). -/
def Thread.frame (th : Thread) (header : Word) (ret : Nat) : List TWord :=
  [tword 0xC0 header, tword 0xC1 (BitVec.ofNat 64 (ret % 2 ^ 48)), tword 0xC2 th.status,
    tword 0xC3 (BitVec.ofNat 64 th.depth)]

/-- The frame is written, as long as the panel has not failed (R197, R229). -/
def State.writeFrame (s : State) (p t base : Nat) (words : List TWord) : State :=
  ((frameAddrs base).zip words).foldl (fun u x =>
    if (u.thread p t).run ≠ .running then u
    else
      match u.pushWord p t x.1 x.2 with
      | .ok v => v
      | .error e => e u) s

/-- A word of the panel's own DRAM lies in the L1 instruction cache of a thread's core or in the L2 (R162). -/
def State.entryCached (s : State) (p t addr : Nat) : Bool :=
  match s.spot p t (addr / 8 * 8) with
  | .mem _ a .cached => ((s.l1Set p (t / 4) true (a / 64)).way (a / 64)).isSome || s.inL2 p (a / 128)
  | _ => false

/-- The entry line is asked for as the handler begins, before any word of the frame is written (R161): once found, it is
at hand for the first instruction (R162); where it misses the L2 the thread parks (R154). -/
def State.entryFetch (s : State) (p t : Nat) : State :=
  match s.spot p t ((s.thread p t).pc / 8 * 8) with
  | .mem _ a .cached =>
    (match s.fetchLine p t (a / 64) with
     | .ok u => u.setThread p t { u.thread p t with entryLine := some (a / 64) }
     | .error e => e s)
  | _ => s

/-- The address of a vector (R194). -/
def State.vectorAddr (s : State) (p t vector : Nat) : Nat :=
  let v := (s.thread p t).vbase.toNat
  (v - v / 8 % 8 * 8 + 64 * vector) % 2 ^ 48

/-- The handler begins: status, address, and an end to whatever the thread was doing (R161, R194, R195). -/
def State.beginHandler (s : State) (p t vector : Nat) (prio : Option Nat) : State :=
  let th := s.thread p t
  let st := putBits th.status 8 8 1
  ((s.setThread p t { th with
    status := (match prio with
      | some v => putBits st 4 0 v
      | none => st)
    pc := s.vectorAddr p t vector
    park := none
    fault := none
    arrived := []
    missing := none
    entryLine := none
    yielded := []
    group := none }).fetched p t).entryFetch p t

/-- An entry fails: a double fault (R202), or a third one (R203). -/
def State.doubleFault (s : State) (p t kind code ret : Nat) : State :=
  let th := s.thread p t
  let base := th.fsp.toNat - 32
  if th.double = true ∨ th.fsp.toNat < 32 ∨ s.frameFits p t base = false then s.thirdFault p t
  else if s.frameWaits p t base then s.stallEntry p t base
  else
    ((s.setThread p t { th with fsp := BitVec.ofNat 64 base, double := true }).beginHandler p t 13 (some 31)).writeFrame
      p t base (th.frame (frameHeader 4 code 0 (bits th.status 4 0) kind) ret)

/-- The bounds check of an entry passes (R161, R162, R202). -/
def State.entryFits (s : State) (p t : Nat) : Bool :=
  let th := s.thread p t
  let base := th.csp.toNat - 32
  decide (32 ≤ th.csp.toNat) && decide (th.csLo.toNat ≤ base) && s.frameFits p t base

/-- An entry of a kind at a vector (R194 to R197). -/
def State.enter (s : State) (p t kind code source ret vector : Nat) (prio : Option Nat) : State :=
  let th := s.thread p t
  let base := th.csp.toNat - 32
  if s.entryFits p t = false then s.doubleFault p t kind code ret
  else
    ((s.setThread p t { th with csp := BitVec.ofNat 64 base }).beginHandler p t vector prio).writeFrame
      p t base (th.frame (frameHeader kind code source (bits th.status 4 0) 0) ret)

/-- An entry has to wait for the place of its frame. -/
def State.entryWaits (s : State) (p t : Nat) : Bool :=
  s.entryFits p t && s.frameWaits p t ((s.thread p t).csp.toNat - 32)

/-- The thread is one whose entries can be taken now. -/
def State.mayEnter (s : State) (p t : Nat) : Bool :=
  decide ((s.thread p t).run = .running) && (s.panelLive p || s.stepping p t)

/-- A faulting instruction has become oldest: the entry at the vector of its code (R196, R199, R203), after the errors
that have struck the arrays by then (R226). -/
def execFaultEntry (t : Tid) (upsets : List Upset) (s0 : State) : Host.Outcome State Fault Refusal :=
  let p := t.panel.val
  let s := s0.strike p upsets
  let i := t.index.val
  let th := s.thread p i
  .next ((match th.fault with
    | none => s
    | some (code, ret, _) =>
      if s.mayEnter p i = false ∨ (s.nextEntry p i ENTRY).isSome then s
      else if th.double then s.thirdFault p i
      else if s.entryWaits p i then s.stallEntry p i (th.csp.toNat - 32)
      else
        let s1 := if code = SO then s.count (evcPage p 0) EVC_ORDER.COUNT 1 else s
        s1.enter p i 1 code 0 ret code none).compared s (s.core p (i / 4)).inject p i)

/-! ### Presentation (R207, R199, R312) -/

/-- Of two pending sources, the one presented first (R207). -/
def State.before (s : State) (p : Nat) (x y : Nat × Nat) : Bool :=
  let a := s.srcPrio p x.1 x.2
  let b := s.srcPrio p y.1 y.2
  decide (b < a) || (decide (a = b) && (decide (x.2 < y.2) || (decide (x.2 = y.2) && decide (x.1 < y.1))))

/-- The first of some pending sources, in the order of R207. -/
def State.firstOf (s : State) (p : Nat) (l : List (Nat × Nat)) : Option (Nat × Nat) :=
  l.foldl (fun b x =>
    match b with
    | none => some x
    | some y => if s.before p x y then some x else some y) none

/-- The pending source of a thread above a priority. -/
def State.best (s : State) (p t floor : Nat) : Option (Nat × Nat) :=
  s.firstOf p ((s.candidates p t).filter (fun x => decide (floor < s.srcPrio p x.1 x.2)))

def claimValue (x : Nat × Nat) : Nat := x.1 * 1024 + x.2

/-- The thread takes an interrupt now: no fault of a retired store, no native store unanswered (R182; assumption 43),
an Easel step that admits interrupts, and room on the priority stack. -/
def State.mayPresent (s : State) (p t : Nat) : Bool :=
  let th := s.thread p t
  s.mayEnter p t && (!s.stepping p t || s.flag easlPage EASL_STEP.STEP_IRQ)
    && decide (th.park ≠ some .store) && decide ((s.core p (t / 4)).prio.length < 16)
    && (match th.fault with
        | some (_, _, again) => again
        | none => true)

/-- An interrupt entry with its header (R161, R195); an entry whose line is in neither cache is counted (R162), and the
trace sees it (R369). An entry that fails is neither (R202). -/
def State.interrupt (s : State) (p t prio source : Nat) : State :=
  let s1 := s.spendSpec p t
  let ret := (s.thread p t).pc
  if s1.entryFits p t = false then s1.doubleFault p t 0 prio ret
  else
    let c := s1.core p (t / 4)
    let s2 := if s1.entryCached p t (s1.vectorAddr p t (32 + prio)) then s1
      else s1.setCore p (t / 4) { c with entrySlow := BitVec.ofNat 64 (satAdd 32 c.entrySlow.toNat 1) }
    let s3 := s2.enter p t 0 prio source ret (32 + prio) (some prio)
    if s3.tracing p t then s3.traceEntry p t 5 (s3.thread p t).pc else s3

/-- The controller presents a source to a thread, or a replayed thread takes a recorded entry (R207, R312), after the
errors that have struck the arrays by then (R226). -/
def execInterruptPresentation (t : Tid) (upsets : List Upset) (s0 : State) : Host.Outcome State Fault Refusal :=
  let p := t.panel.val
  let s := s0.strike p upsets
  let i := t.index.val
  .next ((if s.mayPresent p i = false then s
    else if s.replaying p i then
      match s.nextEntry p i ENTRY with
      | none => s
      | some e =>
        if s.entryWaits p i then s
        else
        let h := (payload (e.payload.headD 0)).toNat
        (s.consume p e).interrupt p i (h / 2 ^ 52 % 32) (h / 2 ^ 40 % 2048)
    else
      match s.best p i (bits (s.thread p i).status 4 0) with
      | none => s
      | some x =>
        if s.entryWaits p i then s.stallEntry p i ((s.thread p i).csp.toNat - 32)
        else
        let prio := s.srcPrio p x.1 x.2
        let h := frameHeader 0 prio (claimValue x) (bits (s.thread p i).status 4 0) 0
        s.withEntry p i ENTRY [raw h] (fun u => u.interrupt p i prio (claimValue x))).compared s
      (s.core p (i / 4)).inject p i)

/-! ### Claim and completion (R209 to R211) -/

/-- The most recent uncompleted claim of a thread. -/
def State.lastClaim (s : State) (p t : Nat) : Option Claim :=
  (s.core p (t / 4)).prio.find? (fun x => decide (x.thread = t))

/-- A claim that finds nothing (R210). -/
def State.spurious (s : State) (p t : Nat) : State :=
  let pk := evcPage p 0
  let s1 := s.count pk EVC_SPURIOUS.COUNT 1
  if (s.core p (t / 4)).prio.length < 16 then s1
  else s1.setFld pk EVC_STATE.STACK_FULL (putBit (s1.fld pk EVC_STATE.STACK_FULL) (t / 4) true)

/-- What a claim would take. -/
def State.claimable (s : State) (p t : Nat) : Option (Nat × Nat) :=
  if (s.core p (t / 4)).prio.length < 16 then
    s.best p t (match s.lastClaim p t with
      | some c => c.prio
      | none => 0)
  else none

/-- The word that a claim returns. -/
def State.claimWord (s : State) (p t : Nat) : Word :=
  match s.claimable p t with
  | none => 0x3FF
  | some x => BitVec.ofNat 64 (s.srcPrio p x.1 x.2 * 2 ^ 16 + claimValue x)

/-- A claim takes its source into service. -/
def State.takeClaim (s : State) (p t : Nat) : State :=
  match s.claimable p t with
  | none => s.spurious p t
  | some x =>
    let k := evKey p x.1 x.2
    let c := s.core p (t / 4)
    let s1 := { s with
      evServ := Store.write false s.evServ k true,
      evPend := if s.srcEdge p x.1 x.2 then Store.write false s.evPend k false else s.evPend }
    s1.setCore p (t / 4) { c with prio := ⟨t, claimValue x, s.srcPrio p x.1 x.2⟩ :: c.prio }

/-- A replayed claim: the recorded value, its claim pushed again (R312). -/
def State.replayClaim (s : State) (p t : Nat) (w : Word) : State :=
  let v := w.toNat % 2048
  let c := s.core p (t / 4)
  if v = 0x3FF then s
  else s.setCore p (t / 4) { c with prio := ⟨t, v, bits w 20 16⟩ :: c.prio }

/-- The entry of a journaled input, captured as its value is consumed; without room the thread stalls (R299, R308). -/
def State.capture (s : State) (p t kind : Nat) (payload : List TWord) : Except Stop State :=
  if s.journaled p t then
    if s.ringRoom p (1 + payload.length) then .ok (s.enterInput p ⟨kind, t, (s.thread p t).retired.toNat, payload⟩)
    else .error (fun u => u.stall p t (.ring (1 + payload.length)))
  else .ok s

/-- A read of `EVC_CLAIM`: the word returned, and the claim made (R209, R299, R312). -/
def State.readClaim (s : State) (p t : Nat) : Except Stop (Word × State) :=
  if s.replaying p t then
    match s.nextEntry p t CLAIM with
    | none => .error waitStop
    | some e =>
      let w := payload (e.payload.headD 0)
      .ok (w, (s.consume p e).replayClaim p t w)
  else
    let w := s.claimWord p t
    match s.capture p t CLAIM [raw w] with
    | .error e => .error e
    | .ok s1 => .ok (w, s1.takeClaim p t)

/-- A write to `EVC_COMPLETE` (R211); the stack-order fault is counted as it is taken (R199). -/
def State.complete (s : State) (p t v : Nat) : Except Stop State :=
  if v = 0x3FF then .ok s
  else
    let c := s.core p (t / 4)
    match s.lastClaim p t with
    | none => .error (faultStop p t SO)
    | some x =>
      if x.value = v then
        let s1 := (s.setCore p (t / 4) { c with prio := c.prio.erase x }).unfill p (t / 4)
        .ok ((s1.leaveService p v).wakeWaiter p (v / 1024) (v % 1024))
      else .error (faultStop p t SO)

/-- An `SRR` of `EVC_CLAIM` (R209). -/
def execEvcClaim (t : Tid) (s : State) : Host.Outcome State Fault Refusal :=
  let p := t.panel.val
  let i := t.index.val
  .next (s.instr p i 3 (fun u =>
    match u.readClaim p i with
    | .error e => .error e
    | .ok (w, s1) =>
      match s1.setStack p i (.word (uint w) :: (s1.thread p i).stack) with
      | .error e => .error e
      | .ok s2 => .ok (s2.retire p i (u.after p i 3) 0)))

/-- The operand of a special-register write: privilege, then the operand, then its class (R186, R187). -/
def State.writeOperand (s : State) (p t : Nat) (open_ : Bool) : Except Stop (Word × State) :=
  if (s.thread p t).priv = false ∧ open_ = false then .error (faultStop p t PV)
  else
    match s.peek p t 1 with
    | .error e => .error e
    | .ok (ws, s1) =>
      match ws with
      | [v] =>
        if isBits v = false then .error (faultStop p t TY)
        else
          match s1.replace p t 1 [] with
          | .error e => .error e
          | .ok s2 => .ok (payload v, s2)
      | _ => .error (faultStop p t SB)

/-- An `SRW` to `EVC_COMPLETE` (R211). -/
def execEvcComplete (t : Tid) (s : State) : Host.Outcome State Fault Refusal :=
  let p := t.panel.val
  let i := t.index.val
  .next (s.instr p i 3 (fun u =>
    match u.writeOperand p i false with
    | .error e => .error e
    | .ok (v, s1) =>
      match s1.complete p i (v.toNat % 2048) with
      | .error e => .error e
      | .ok s2 => .ok (s2.retire p i (u.after p i 3) 0)))

/-- A write of 1 to `EVC_CLR.CLR` (R213). -/
def State.clearEvc (s : State) (p : Nat) : State :=
  (s.setFld (evcPage p 0) EVC_SPURIOUS.COUNT 0).setFld (evcPage p 0) EVC_ORDER.COUNT 0

def execEvcClr (ag : Agent) (p : Slice) (s : State) : Host.Outcome State Fault Refusal :=
  .next (s.writeBy ag (evcPage p 0) 0x220 (fun u => u.clearEvc p))

/-! ### Arrivals (R22, R206, R386) -/

/-- An event transfer is presented to its controller, having crossed the panel's port (R20, R22); one of a pin that is high
again ends its source there (R386). -/
def State.presentEvent (s : State) (e : EventTransfer) : State :=
  let s1 := s.noteFlit e.panel
  let table := if e.adopted then 1 else 0
  if e.gone then { s1 with evArrived := Store.write false s1.evArrived (evKey e.panel table e.source) false }
  else s1.arrive e.panel table e.source

/-- An event transfer reaches its due time at the receiving controller (R22). -/
def execEventArrival (n : Nat) (s : State) : Host.Outcome State Fault Refusal :=
  .next (match s.events[n]? with
    | none => s
    | some e => if s.ticks < e.due then s else { s with events := s.events.eraseIdx n }.presentEvent e)

/-- Events due are presented at their due time (R22). -/
def State.tickEvents (s : State) : State :=
  let due (e : EventTransfer) : Bool := decide (e.due ≤ s.ticks)
  (s.events.filter due).foldl (fun u e => u.presentEvent e) { s with events := s.events.filter (fun e => !due e) }

/-- An event pin is counted as changed, either way: a transfer to every panel's controller (R386). -/
def execEventPinChange (pin : Fin 16) (low : Bool) (s : State) : Host.Outcome State Fault Refusal :=
  let s1 := { s with evtLow := BitVec.ofNat 16 (putBit s.evtLow.toNat pin.val low) }
  .next (if low = s.evtLow.getLsbD pin.val then s
    else { s1 with events := s1.events ++ s.slices.map (fun p => ⟨p, false, 576 + pin.val, s.ticks + 30, !low⟩) })

/-! ### The watcher (R216) -/

/-- The watched source of a resting panel that the watcher sees: of several the one that R207 would present first
(assumption 46). -/
def State.watchSees (s : State) (p : Nat) : Option (Nat × Nat) :=
  if (s.panel p).island = false then none
  else s.firstOf p (((s.panel p).watched.map (fun v => (v / 1024, v % 1024))).filter (fun x => s.srcPending p x.1 x.2))

/-- The watcher sees a watched source that is pending, and wakes the panel (R216). -/
def State.watcherWakes (s : State) (p : Nat) : State :=
  let pk := evcPage p 0
  match s.watchSees p with
  | none => s
  | some x =>
    (((s.mark pk EVC_WAKE.VALID).setFld pk EVC_WAKE.SOURCE (claimValue x)).setFld
      pk EVC_WAKE.TICK (s.canvas % 2 ^ 48)).wake p (s.under p)

def execWatcherWake (p : Slice) (s : State) : Host.Outcome State Fault Refusal := .next (s.watcherWakes p)

/-- A period of the slow clock in whole ticks. -/
def slowPeriod : Nat := 38146

/-- A watched source reaches the watcher within one period of the slow clock (R17). -/
def State.tickWatcher (s : State) (p : Nat) : State :=
  let pn := s.panel p
  if pn.island = false then (if pn.watchFrom = none then s else s.setPanel p { pn with watchFrom := none })
  else match s.watchSees p, pn.watchFrom with
    | none, none => s
    | none, some _ => s.setPanel p { pn with watchFrom := none }
    | some _, none => s.setPanel p { pn with watchFrom := some s.ticks }
    | some _, some t => if t + slowPeriod ≤ s.ticks then s.watcherWakes p else s

/-! ### Responses (R154, R182, R193, R201) -/

/-- The line of a miss of the L2 arrives (R154, R156): in the L2 where a way may take it, and with it in the L1 cache and
the line buffer, or at the instruction that waits. -/
def State.fillMiss (s : State) (p t : Nat) : State :=
  let th := s.thread p t
  match th.missing with
  | none => s
  | some (a, code) =>
    let c := t / 4
    let s1 := ((s.fillL2 p c (a / 128)).readL2 p (1 + c) (a / 64)).fillL1 p c code (a / 64)
    let bad := (List.range 8).find? (fun i => s1.bad p (a / 64 * 64 + 8 * i))
    let s2 := if s1.inL2 p (a / 128) then (if code ∧ bad = none then s1.bufferLine p c (a / 64) else s1)
      else if code then
        match bad with
        | some i => (s1.noteEcc p 1 (1 + c) (a / 64 * 64 + 8 * i) true).setFault p t FE th.pc
        | none => s1.bufferLine p c (a / 64)
      else s1.setThread p t { s1.thread p t with arrived := memKey p a :: (s1.thread p t).arrived }
    s2.setThread p t { s2.thread p t with
      park := none
      missing := none }

/-- The data or the instruction line of a miss has arrived (R154). -/
def execCacheFillComplete (t : Tid) (s : State) : Host.Outcome State Fault Refusal :=
  let th := s.thread t.panel t.index
  .next (if th.park = some .dataMiss ∨ th.park = some .fetchMiss then s.fillMiss t.panel t.index else s)

/-- The data of another panel's DRAM has arrived, or the access has failed (R154, R180). -/
def execRemoteDramResponse (t : Tid) (failed : Bool) (s : State) : Host.Outcome State Fault Refusal :=
  let p := t.panel.val
  let i := t.index.val
  let th := s.thread p i
  .next (if th.park ≠ some .remoteLoad then s
    else if failed then
      ((s.setThread p i { th with
        park := none
        arrived := [] }).noteFar p (th.arrived.headD 0 / 2 ^ 45)).setFault p i BE th.pc
    else s.setThread p i { th with park := none })

/-- An error response of buffered-store mode (R201). -/
def State.impreciseError (s : State) (p t addr : Nat) : State :=
  let th := s.thread p t
  let was := s.sourceActive p 0 (480 + t)
  let more := bit th.imprecise.toNat 63
  let w : Word := if more then putBits th.imprecise 62 62 1
    else putBits (putBits th.imprecise 63 63 1) 47 0 addr
  let s1 := (s.setThread p t { th with imprecise := w }).noteSpecial p t 0x53 (if more then 1 <<< 62 else 1 <<< 63)
  if was then s1 else s1.arrive p 0 (480 + t)

/-- The response to an instruction that has retired: its entry is keyed to that instruction (R300). -/
def State.answered (s : State) (p t kind key : Nat) (w : TWord) (act : State → State) : State :=
  if s.journaled p t then
    if s.ringRoom p 2 then act (s.enterInput p ⟨kind, t, key, [w]⟩) else s.stall p t (.ring 2)
  else act s

/-- An answered store's response returns to its thread (R182, R193, R299). -/
def State.answerStored (s : State) (p i : Nat) (x : StoreInFlight) : State :=
  let th := s.thread p i
  let err := decide (x.answer = some true)
  if x.native then
    s.answered p i RESP (th.retired.toNat - 1) (raw (BitVec.ofNat 64 err.toNat)) (fun u =>
      let v := u.thread p i
      let park := if v.park = some .store then none else v.park
      let u1 := u.setThread p i { v with stores := v.stores.erase x, park := park }
      if err then u1.setFaultAfter p i BE else u1)
  else
    let s1 := s.setThread p i { th with stores := th.stores.erase x }
    if err then s1.impreciseError p i x.addr else s1

/-- The response to a device-space store returns to its thread. -/
def execStoreResponse (t : Tid) (s : State) : Host.Outcome State Fault Refusal :=
  .next (match (s.thread t.panel t.index).stores.find? (fun x => x.answer.isSome) with
    | none => s
    | some x => s.answerStored t.panel t.index x)

/-! ### The lockstep comparator (R165, R368) -/

/-- The two copies of a core differ in an output (R165); a detect-only injection is only seen (R368). -/
def execLockstepMismatch (p : Slice) (core thread : Fin 4) (output : Fin 7) (s : State) :
    Host.Outcome State Fault Refusal :=
  let pn := s.panel p
  let c := s.core p core
  .next (if s.present p = false ∨ pn.held = true ∨ pn.resetting.isSome = true ∨ pn.island = true then s
    else if c.inject = some (output.val, true) then s.detectInjected p core
    else s.mismatch p core thread output)

end Sys2Proof.Machine
end

