-- ==== Sys2Proof/Machine/System.lean ====
section
/-! DEFINITION. Special registers (R167, R174, R176, R186, R214), waiting instructions (R208, R186), system calls and
traps (R194), and `BRK` (R196, R364). -/

namespace Sys2Proof.Machine

open Sys2Proof

/-! ### Reads (R167, R174, R214) -/

/-- `CORE_ID` as a thread reads it. -/
def coreId (p t : Nat) : Word := BitVec.ofNat 64 (p * 256 + t / 4 * 16 + t % 4)

/-- `EVC_TOP` as a thread reads it. -/
def State.topWord (s : State) (p t : Nat) : Word :=
  let l := (s.core p (t / 4)).prio
  let (prio, value) := match s.lastClaim p t with
    | some c => (c.prio, c.value)
    | none => (0, 0x3FF)
  BitVec.ofNat 64 (l.length * 2 ^ 32 + (l.filter (fun c => decide (c.thread = t))).length * 2 ^ 24 + prio * 2 ^ 16 + value)

/-- The value of a special register, other than `EVC_CLAIM`; `CORE_CYCLES` grows by a free amount, and
so does `CORE_PARKED` where the thread has parked since its last read (R167; assumption 48). -/
def State.special (s : State) (p t num : Nat) : Option (Word × State) :=
  let th := s.thread p t
  let c := s.core p (t / 4)
  match num with
  | 0x00 => some (th.status, s)
  | 0x01 => some (th.osp, s)
  | 0x02 => some (th.osLo, s)
  | 0x03 => some (th.osHi, s)
  | 0x04 => some (th.csp, s)
  | 0x05 => some (th.csLo, s)
  | 0x06 => some (th.csHi, s)
  | 0x07 => some (th.vbase, s)
  | 0x08 => some (th.fsp, s)
  | 0x09 => some (th.flags, s)
  | 0x40 => some (coreId p t, s)
  | 0x41 =>
    let (d, s1) := s.fresh
    some (c.cycles + d, s1.setCore p (t / 4) { c with cycles := c.cycles + d })
  | 0x42 => some (th.retired, s)
  | 0x43 =>
    let (d, s1) := if th.hasParked then s.fresh else (0, s)
    some (th.parked + d, s1.setThread p t { th with parked := th.parked + d, hasParked := th.park.isSome })
  | 0x44 => some (th.specIssue, s)
  | 0x45 => some (th.mispredict, s)
  | 0x46 => some (th.misses, s)
  | 0x47 => some (c.entrySlow, s)
  | 0x48 => some ((s.panel p).l2lock, s)
  | 0x49 => some (c.l2fill, s)
  | 0x4A => some ((s.panel p).lockstep, s)
  | 0x4B => some (0, s)
  | 0x51 => some (0, s)
  | 0x52 => some (s.topWord p t, s)
  | 0x53 => some (th.imprecise, s)
  | 0x54 => some (BitVec.ofNat 64 th.double.toNat, s)
  | _ => none

/-- Registers whose reads are journaled (R299). -/
def journaledSpecial (num : Nat) : Bool :=
  (decide (0x40 ≤ num) && decide (num ≤ 0x4A)) || (decide (0x52 ≤ num) && decide (num ≤ 0x54))

/-- A read of a special register: the word, and the read's effect (R186, R209, R312). -/
def State.readSpecial (s : State) (p t num : Nat) : Except Stop (Word × State) :=
  if num = 0x50 then s.readClaim p t
  else
    match s.special p t num with
    | none => .error (faultStop p t UD)
    | some (w, s1) =>
      if journaledSpecial num = false then .ok (w, s1)
      else if s.replaying p t then
        match s.nextEntry p t SPECIAL with
        | none => .error waitStop
        | some e => .ok (payload (e.payload.headD 0), s.consume p e)
      else
        match s1.capture p t SPECIAL [raw w] with
        | .error e => .error e
        | .ok s2 => .ok (w, s2)

/-- `SRR` (R186). -/
def execSrr (t : Tid) (num : BitVec 16) (s : State) : Host.Outcome State Fault Refusal :=
  let p := t.panel.val
  let i := t.index.val
  .next (s.instr p i 3 (fun u =>
    match u.readSpecial p i num.toNat with
    | .error e => .error e
    | .ok (w, s1) =>
      match s1.setStack p i (.word (uint w) :: (s1.thread p i).stack) with
      | .error e => .error e
      | .ok s2 => .ok (s2.retire p i (u.after p i 3) 0)))

/-! ### Writes -/

/-- A write of `OSP`, `OS_LO` or `OS_HI` spills every renamed entry first (R176). -/
def State.writeOperandStack (s : State) (p t : Nat) (f : Thread → Thread) : Except Stop State :=
  match s.spillTo p t 0 (s.thread p t).stack.length with
  | .error e => .error e
  | .ok s1 => .ok (s1.setThread p t (f (s1.thread p t)))

/-- A write of `THR_FLAGS`: `COLL_EV` stored, the three flags cleared by 1 (R174, R205). -/
def State.writeFlags (s : State) (p t : Nat) (v : Word) : State :=
  let th := s.thread p t
  let was := s.sourceActive p 0 (496 + t)
  let (k, u) := s.clearing p t 0x09 (v &&& 7)
  let s1 := u.setThread p t { th with flags := (th.flags &&& ~~~k &&& 7) ||| (v &&& 0x100) }
  if s1.sourceActive p 0 (496 + t) && !was then s1.arrive p 0 (496 + t) else s1

/-- `CORE_CLR` (R167). -/
def State.clearCore (s : State) (p t : Nat) : State :=
  s.setCore p (t / 4) { s.core p (t / 4) with entrySlow := 0 }

def State.clearThread (s : State) (p t : Nat) : State :=
  let th := s.thread p t
  s.setThread p t { th with specIssue := 0, mispredict := 0, misses := 0, parked := 0, hasParked := false }

/-- The effect of a special-register write. -/
def State.writeSpecial (s : State) (p t num : Nat) (v : Word) : Except Stop State :=
  let th := s.thread p t
  let c := s.core p (t / 4)
  let a := v &&& addressMask
  match num with
  | 0x00 => .ok (s.setThread p t { th with status := v &&& statusMask })
  | 0x01 => s.writeOperandStack p t (fun x => { x with osp := a })
  | 0x02 => s.writeOperandStack p t (fun x => { x with osLo := a })
  | 0x03 => s.writeOperandStack p t (fun x => { x with osHi := a })
  | 0x04 => .ok (s.setThread p t { th with csp := a })
  | 0x05 => .ok (s.setThread p t { th with csLo := a })
  | 0x06 => .ok (s.setThread p t { th with csHi := a })
  | 0x07 => .ok (s.setThread p t { th with vbase := a })
  | 0x08 => .ok (s.setThread p t { th with fsp := a })
  | 0x09 => .ok (s.writeFlags p t v)
  | 0x48 =>
    if v &&& 0xFFFF = 0xFFFF then
      let (x, u) := s.fresh
      .ok (u.setPanel p { u.panel p with l2lock := x &&& 0xFFFF })
    else .ok (s.setPanel p { s.panel p with l2lock := v &&& 0xFFFF })
  | 0x49 => .ok (s.setCore p (t / 4) { c with l2fill := v &&& 0xFFFF })
  | 0x4A =>
    let (k, u) := s.clearing p 0 0x4A (v &&& 0x8000000000000000)
    .ok (u.setPanel p { u.panel p with lockstep := (u.panel p).lockstep &&& ~~~k })
  | 0x4B =>
    let s1 := if bit v.toNat 1 then s.clearCore p t else s
    .ok (if bit v.toNat 0 then s1.clearThread p t else s1)
  | 0x51 => s.complete p t (v.toNat % 2048)
  | 0x53 =>
    let (k, u) := s.clearing p t 0x53 (v &&& 0xC000000000000000)
    .ok (u.setThread p t { th with imprecise := th.imprecise &&& ~~~k })
  | _ => .ok s

/-- Numbers of the special registers (R186). -/
def specialAssigned (num : Nat) : Bool :=
  decide (num < 0x0A) || (decide (0x40 ≤ num) && decide (num < 0x4C)) || (decide (0x50 ≤ num) && decide (num < 0x55))

/-- The spill that a write of `OSP`, `OS_LO` or `OS_HI` makes, once its operand is popped, would pass `OS_HI`: a
stack-bounds fault, which ranks before the operand's type (R175, R176, R187). -/
def spillShort (th : Thread) (num : Nat) : Bool :=
  th.priv && decide (1 ≤ num) && decide (num ≤ 3) && decide (2 ≤ th.stack.length)
    && decide (th.osHi.toNat < th.osp.toNat + 8 * (th.stack.length - 1))

/-- An `SRW` whose write takes effect when a condition on its operand holds. -/
def State.srw (s : State) (t : Tid) (num : Nat) (want : Word → Bool) : State :=
  let p := t.panel.val
  let i := t.index.val
  s.instr p i 3 (fun u =>
    if specialAssigned num = false then .error (faultStop p i UD)
    else if spillShort (u.thread p i) num then .error (faultStop p i SB)
    else
      match u.writeOperand p i (decide (num = 0x09)) with
      | .error e => .error e
      | .ok (v, s1) =>
        if want v = false then .error waitStop
        else
          match s1.writeSpecial p i num v with
          | .error e => .error e
          | .ok s2 => .ok (s2.retire p i (u.after p i 3) 0))

/-- `SRW` (R186). -/
def execSrw (t : Tid) (num : BitVec 16) (s : State) : Host.Outcome State Fault Refusal :=
  .next (s.srw t num.toNat (fun _ => true))

/-- An `SRW` of `CORE_CLR` with `CORE` 1 (R167). -/
def execCoreClrCore (t : Tid) (s : State) : Host.Outcome State Fault Refusal :=
  .next (s.srw t 0x4B (fun v => bit v.toNat 1))

/-- An `SRW` of `CORE_CLR` with `THREAD` 1 (R167). -/
def execCoreClrThread (t : Tid) (s : State) : Host.Outcome State Fault Refusal :=
  .next (s.srw t 0x4B (fun v => bit v.toNat 0))

/-! ### Waiting -/

/-- `WFE` (R154, R208, R312): with an event already pending, or in replay, it goes on at once (assumption 40). -/
def execWfe (t : Tid) (s : State) : Host.Outcome State Fault Refusal :=
  let p := t.panel.val
  let i := t.index.val
  .next (s.instr p i 1 (fun u =>
    let s1 := u.retire p i (u.after p i 1) 0
    .ok (if u.replaying p i = true ∨ (u.candidates p i).isEmpty = false then s1
      else s1.parkThread p i .wfe)))

/-- `FENCE` (R186, R193). -/
def execFence (t : Tid) (s : State) : Host.Outcome State Fault Refusal :=
  let p := t.panel.val
  let i := t.index.val
  .next (s.instr p i 1 (fun u =>
    if (u.thread p i).stores = [] then .ok (u.retire p i (u.after p i 1) 0) else .error waitStop))

/-- `YIELD` (R186). -/
def execYield (t : Tid) (s : State) : Host.Outcome State Fault Refusal :=
  let p := t.panel.val
  let i := t.index.val
  .next (s.instr p i 1 (fun u =>
    let s1 := u.retire p i (u.after p i 1) 0
    .ok (s1.setThread p i { s1.thread p i with yielded := (coreMates i).filter (fun x => u.fetching p x) })))

/-! ### Calls into the system (R194, R196) -/

/-- An instruction that enters a vector (R194). -/
def State.callSystem (s : State) (t : Tid) (kind n vector : Nat) : State :=
  let p := t.panel.val
  let i := t.index.val
  s.instr p i 2 (fun u =>
    if u.entryWaits p i then .error (fun v => v.stallEntry p i ((u.thread p i).csp.toNat - 32))
    else
      let ret := u.after p i 2
      .ok ((u.retire p i ret 0).enter p i kind n 0 ret vector none))

/-- `SYSCALL` (R194). -/
def execSyscall (t : Tid) (n : Byte) (s : State) : Host.Outcome State Fault Refusal :=
  .next (s.callSystem t 2 n.toNat (64 + n.toNat))

/-- `TRAP` (R194). -/
def execTrap (t : Tid) (n : Byte) (s : State) : Host.Outcome State Fault Refusal :=
  .next (s.callSystem t 3 n.toNat (320 + n.toNat))

/-! ### Halts (R119, R364) -/

/-- A debug halt of a panel takes effect: its pairs lose their release, which is an override of R119 in each of their
sectors (R122), its slice enters `HOLD` unless it is in `PRIME` (R328), its cores stop. -/
def State.orderHalt (s : State) (p : Nat) : State :=
  if s.present p = false ∨ s.halted p = true then s
  else
    let s1 := s.protect p causeHalt
    let s2 := s1.setPanel p { s1.panel p with halting := true }
    s2.slices.foldl (fun u sec =>
      let mask := u.heldPairs p sec
      if mask = 0 then u else (u.unrelease sec mask).raise (tripPage sec) 49) s2

/-- `BRK` (R196, R364). -/
def execBrk (t : Tid) (s : State) : Host.Outcome State Fault Refusal :=
  let p := t.panel.val
  let i := t.index.val
  .next (s.instr p i 1 (fun u =>
    if u.flag easlPage EASL_CMD.BRK_HALT then .ok ((u.retire p i (u.after p i 1) 0).orderHalt p)
    else .error (fun v => v.setFault p i BP (v.after p i 1))))

end Sys2Proof.Machine
end

