-- ==== Sys2Proof/Machine/Scratch.lean ====
section
/-! DEFINITION. Scratch bank power (R223, R224), the wipe of bank 7 (R225), and the counts of the `SCR` page (R231). -/

namespace Sys2Proof.Machine

open Sys2Proof

/-- State commanded for a bank, and in force. -/
def State.bankCmd (s : State) (p b : Nat) : Nat := s.fld (scrPage p) ⟨0x100, 2 * b + 1, 2 * b⟩
def State.bankState (s : State) (p b : Nat) : Nat := s.fld (scrPage p) ⟨0x108, 2 * b + 1, 2 * b⟩

/-- `BUSY` of a bank. -/
def bankBusy (b : Nat) : Fld := ⟨0x108, 16 + b, 16 + b⟩

/-- The clear of R223: every word empty. -/
def State.clearBank (s : State) (p b : Nat) : State := s.wipe p (b * 0x40000) 0x40000

/-- Bank 7 is wiped (R225). -/
def State.wipeBank7 (s : State) (p : Nat) : State :=
  let s1 := s.clearBank p 7
  (s1.setPanel p { s1.panel p with wipeBank7 := true }).setFld (scrPage p) (bankBusy 7) 1

/-- A bank is commanded to a state (R223, R225). -/
def State.commandBank (s : State) (p b v : Nat) : State :=
  let was := s.bankCmd p b
  let s1 := s.setFld (scrPage p) ⟨0x100, 2 * b + 1, 2 * b⟩ v
  let s2 := if v = 3 then s1.err (scrPage p) else s1
  let s3 := if v ≠ s.bankState p b then s2.setFld (scrPage p) (bankBusy b) 1 else s2
  if b = 7 ∧ v = 2 ∧ was ≠ 2 then s3.wipeBank7 p else s3

/-- A write of `SCR_POWER`: bank 7's field by a secure access only (R6, R225). -/
def State.writePower (s : State) (sec : Bool) (p : Nat) (data : Word) : State :=
  let field (b : Nat) := data.toNat / 4 ^ b % 4
  let s1 := (List.range 7).foldl (fun u b => u.commandBank p b (field b)) s
  if sec then s1.commandBank p 7 (field 7) else s1

/-- A write of `SCR_POWER` (R223). -/
def execScrPowerWrite (ag : Agent) (p : Slice) (data : Word) (s : State) : Host.Outcome State Fault Refusal :=
  .next (s.writeBy ag (scrPage p) 0x100 (fun u => u.writePower (u.secure ag) p data))

/-- A bank power change completes; a bank that has been off holds nothing (R223). -/
def execBankPowerDone (p : Slice) (b : Fin 8) (s : State) : Host.Outcome State Fault Refusal :=
  let pk := scrPage p
  let v := s.bankCmd p b
  .next (if s.flag pk (bankBusy b) = false ∨ (b.val = 7 ∧ (s.panel p).wipeBank7 = true) then s
    else
      let s1 := if v = 2 ∨ s.bankState p b = 2 then s.clearBank p b else s
      ((s1.setFld pk ⟨0x108, 2 * b.val + 1, 2 * b.val⟩ v).setFld pk (bankBusy b) 0).raise pk 6)

/-- A secure write of 1 to `SCR_CMD.WIPE` (R225). -/
def execScrWipe (ag : Agent) (p : Slice) (s : State) : Host.Outcome State Fault Refusal :=
  .next (s.writeBy ag (scrPage p) 0x148 (fun u => if u.secure ag then u.wipeBank7 p else u))

/-- A write of 1 to `SCR_CMD.CLR` (R231). -/
def State.clearScratchCounts (s : State) (p : Nat) : State :=
  (((s.setReg (scrPage p) 0x110 0).setReg (scrPage p) 0x118 0)).setFld (scrPage p) SCR_COLL.COUNT 0

def execScrClr (ag : Agent) (p : Slice) (s : State) : Host.Outcome State Fault Refusal :=
  .next (s.writeBy ag (scrPage p) 0x148 (fun u => u.clearScratchCounts p))

end Sys2Proof.Machine
end

