-- ==== Sys2Proof/Machine/Ddr.lean ====
section
/-! DEFINITION. The DDR5 channel (R233 to R244): decoding of lines, logs and marks, poison, scrub, refresh, repair. -/

namespace Sys2Proof.Machine

open Sys2Proof

/-! ### Symbols, lanes and devices (R236 to R238) -/

/-- A product in GF(2^8) with the field polynomial x^8 + x^4 + x^3 + x^2 + 1 (R236): `b` is taken bit by bit from the
highest. -/
def gfMul (a b : Byte) : Byte :=
  (List.range 8).foldl (fun r i =>
    let twice := (r <<< 1) ^^^ (if r.getLsbD 7 then 0x1D#8 else 0#8)
    if b.getLsbD (7 - i) then twice ^^^ a else twice) 0#8

/-- The powers of the field's α, which is 0x02. -/
def gfPower : Nat → Byte
  | 0 => 1#8
  | n + 1 => gfMul (gfPower n) 2#8

/-- A polynomial, highest power first, times one with the root α^`n`. -/
def timesRoot (g : List Byte) (n : Nat) : List Byte :=
  List.zipWith (fun a b => a ^^^ b) (g ++ [0#8]) (0#8 :: g.map (gfMul (gfPower n)))

/-- The generator polynomial of RS(160,144), of roots α^0 to α^15. -/
def generator : List Byte := (List.range 16).foldl timesRoot [1#8]

/-- The 16 check symbols of some data symbols (R236): the remainder by the generator. -/
def checkSymbols (data : List Byte) : List Byte :=
  data.foldl (fun r x =>
    let top := x ^^^ r.headD 0#8
    List.zipWith (fun a b => a ^^^ gfMul top b) (r.drop 1 ++ [0#8]) (generator.drop 1)) (List.replicate 16 0#8)

/-- The 144 data symbols of the 16 words of a line (R236): the payload bytes of each word, and then the tag bytes. -/
def dataSymbols (words : List TWord) : List Byte :=
  (words.map (fun w => (List.range 8).map (fun i => BitVec.ofNat 8 ((payload w).toNat / 2 ^ (8 * i))))).flatten
    ++ words.map (fun w => BitVec.ofNat 8 (tagOf w))

/-- The 160 symbols that stand in DRAM for a line (R236), and for one written poisoned (R240). -/
def lineSymbols (words : List TWord) (poisoned : Bool) : List Byte :=
  dataSymbols words ++ (checkSymbols (dataSymbols words)).map (fun c => if poisoned then c ^^^ 0x5A#8 else c)

/-- The lane of bit `k` of symbol `s` (R237). -/
def laneOf (s k : Nat) : Nat := 4 * (s % 20) + k % 4

/-- The beat of bit `k` of symbol `s` (R237). -/
def beatOf (s k : Nat) : Nat := 2 * (s / 20) + k / 4

/-- The device that holds a symbol, for a module width of `DDRC_MODULE`: a device has four lanes or eight (R237). -/
def deviceOf (width s : Nat) : Nat := laneOf s 0 / (if width = 1 then 8 else 4)

/-- Symbols that one device holds in a line. -/
def deviceSymbols (width : Nat) : Nat := if width = 1 then 16 else 8

/-- The marked device of a rank. -/
def State.marked (s : State) (p rank : Nat) : Option Nat :=
  let pk := ddrcPage p
  if rank = 0 then (if s.flag pk DDRC_MARK.VALID0 then some (s.fld pk DDRC_MARK.DEV0) else none)
  else (if s.flag pk DDRC_MARK.VALID1 then some (s.fld pk DDRC_MARK.DEV1) else none)

/-- Symbols of a list that one device holds. -/
def heldBy (width d : Nat) (l : List (Fin 160)) : Nat := (l.filter (fun x => decide (deviceOf width x = d))).length

/-- The device that holds the most symbols of a list, the lowest of several (assumption 47). -/
def mostDevice (width : Nat) (l : List (Fin 160)) : Nat :=
  (List.range 20).foldl (fun b d => if heldBy width b l < heldBy width d l then d else b) 0

/-- Symbols in error outside the marked device, and erased symbols. -/
def State.lineErrors (s : State) (p : Nat) (errs : LineErrors) : Nat × Nat :=
  let width := s.fld (ddrcPage p) DDRC_MODULE.WIDTH
  let l := errs.symbols.dedup
  match s.marked p errs.rank with
  | none => (l.length, 0)
  | some d => (l.length - heldBy width d l, deviceSymbols width)

/-- A line decodes (R238). -/
def State.decodes (s : State) (p : Nat) (errs : LineErrors) : Bool :=
  let (e, f) := s.lineErrors p errs
  decide (2 * e + f ≤ 16)

/-! ### Logs (R239, R244) -/

/-- The coordinate fields of the logs. -/
def coordOf (errs : LineErrors) : Nat :=
  errs.rank.val * 2 ^ 23 + errs.bg.val * 2 ^ 20 + errs.bank.val * 2 ^ 18 + errs.row.toNat

/-- A device is marked automatically when its count reaches the threshold (R239). -/
def State.autoMark (s : State) (p rank d count : Nat) : State :=
  let pk := ddrcPage p
  let t := s.fld pk DDRC_CFG.MARK_THRESH
  if t = 0 ∨ (s.marked p rank).isSome ∨ count < t then s
  else if rank = 0 then
    (((s.setFld pk DDRC_MARK.VALID0 1).setFld pk DDRC_MARK.AUTO0 1).setFld pk DDRC_MARK.DEV0 d).raise pk 2
  else (((s.setFld pk DDRC_MARK.VALID1 1).setFld pk DDRC_MARK.AUTO1 1).setFld pk DDRC_MARK.DEV1 d).raise pk 2

/-- A device's count of corrected lines. -/
def deviceCount (rank d : Nat) : Fld := ⟨0x150 + 8 * (5 * rank + d / 4), 16 * (d % 4) + 15, 16 * (d % 4)⟩

/-- A line has been corrected (R239, R244). -/
def State.noteCorrected (s : State) (p line : Nat) (errs : LineErrors) : State :=
  let pk := ddrcPage p
  let width := s.fld pk DDRC_MODULE.WIDTH
  let l := errs.symbols.dedup
  let d := mostDevice width l
  let (e, f) := s.lineErrors p errs
  let spread := decide (heldBy width d l < l.length)
  let w := BitVec.ofNat 64 (2 ^ 63 + spread.toNat * 2 ^ 62 + d * 2 ^ 57 + (e + f) * 2 ^ 52 + coordOf errs * 2 ^ 28)
  let s1 := (((s.setReg pk 0x118 w).mark pk DDRC_CE_LOG.VALID).setFld pk DDRC_CE_ADDR.ADDR (dramBase / 128 + line)).count pk DDRC_COUNTS.CE 1
  let s2 := (s1.count pk (deviceCount errs.rank d) 1).raise pk 0
  s2.autoMark p errs.rank d (s2.fld pk (deviceCount errs.rank d))

/-- A line has been found uncorrectable: 0 by a demand read, 1 by the scrub, 2 poisoned (R240, R244). -/
def State.noteLostLine (s : State) (p line source : Nat) (errs : LineErrors) : State :=
  let pk := ddrcPage p
  let s1 := (s.count pk DDRC_COUNTS.UE 1).raise pk 1
  if s.flag pk DDRC_UE_LOG.VALID then s1.mark pk DDRC_UE_LOG.OVERRUN
  else
    ((((s1.mark pk DDRC_UE_LOG.VALID).setFld pk DDRC_UE_LOG.SOURCE source).setFld
      pk DDRC_UE_LOG.COORD (coordOf errs))).setFld pk DDRC_UE_ADDR.ADDR (dramBase / 128 + line)

/-- Key of a DRAM line among the poisoned ones. -/
def lineKey (p line : Nat) : Nat := memKey p (dramBase + 128 * line) / 16

/-- The words of a line read uncorrectable from then on (R240). -/
def State.loseLine (s : State) (p line : Nat) : State :=
  (List.range 16).foldl (fun u i => u.loseWord p (dramBase + 128 * line + 8 * i)) s

/-- A line of which an uncorrectable read left no copy in the L2 reads as it decodes now. -/
def State.regainLine (s : State) (p line : Nat) : State :=
  if s.inL2 p (dramBase / 128 + line) then s
  else { s with badWords := s.badWords.filter (fun k => decide (k / 16 ≠ lineKey p line)) }

/-- A line has been read, by a demand read or the scrub (R238 to R240, R242). A poisoned one fails to decode: without
the pattern it decodes without error, or it is an uncorrectable line. -/
def State.readLine (s : State) (p line : Nat) (scrub : Bool) (errs : LineErrors) : State :=
  let known := s.poisoned.contains (lineKey p line)
  if known || errs.poisoned then
    let s1 := s.noteLostLine p line (if (s.lineErrors p errs).1 = 0 then 2 else scrub.toNat) errs
    if known then s1 else { s1 with poisoned := lineKey p line :: s1.poisoned }
  else if s.decodes p errs = false then
    let s1 := s.noteLostLine p line scrub.toNat errs
    if scrub || s.inL2 p (dramBase / 128 + line) then s1 else s1.loseLine p line
  else if errs.symbols = [] then s.regainLine p line
  else (s.noteCorrected p line errs).regainLine p line

/-- Lines of a panel's module. -/
def State.dramLines (s : State) (p : Nat) : Nat := s.dramBytes p / 128

/-- A demand read of a line completes (R238). -/
def execDramReadComplete (p : Slice) (line : Nat) (errs : LineErrors) (s : State) :
    Host.Outcome State Fault Refusal :=
  .next (if s.dramThere p (dramBase + 128 * line) then s.readLine p line false errs else s)

/-- An L2 line, by its number in the module, is dirty and holds an uncorrectable word. -/
def State.spoiled (s : State) (p line : Nat) : Bool :=
  let l := dramBase / 128 + line
  (match (s.l2Set p l).way l with
   | some w => bit (s.l2Set p l).dirty w
   | none => false) && (wordKeys p (128 * l) 16).any (fun k => s.bad p (keyAddr k))

/-- An L2 line lies in a locked way, which it does not leave (R166). -/
def State.lineLocked (s : State) (p line : Nat) : Bool :=
  match (s.l2Set p line).way line with
  | some w => bit (s.panel p).l2lock.toNat w
  | none => false

/-- A dirty L2 line with an uncorrectable word is evicted: it is written poisoned (R228, R240). -/
def execPoisonedEviction (p : Slice) (line : Nat) (s : State) : Host.Outcome State Fault Refusal :=
  .next (if s.spoiled p line = true ∧ s.lineLocked p (dramBase / 128 + line) = false then s.evict p (dramBase / 128 + line) else s)

/-! ### Initialisation, refresh, scrub, timing -/

/-- Every line of the module has been written (R235). -/
def execDramInitDone (p : Slice) (s : State) : Host.Outcome State Fault Refusal :=
  .next (if (s.panel p).dramInit = false then s
    else
      let s1 := s.wipe p dramBase dramBase
      let s2 := (s1.setPanel p { s1.panel p with dramInit := false, starts := [] }).setFld (ddrcPage p) DDRC_STATE.TRAINED 1
      (s1.panel p).starts.foldl (fun u t => u.startThread p t) s2)

/-- The refresh interval expires; the module asks for the doubled interval or not (R241). The controller refreshes from
the end of training, through the initialisation of R235. -/
def execDramRefresh (p : Slice) (doubled : Bool) (s : State) : Host.Outcome State Fault Refusal :=
  let pk := ddrcPage p
  .next (if (s.flag pk DDRC_STATE.TRAINED = false ∧ (s.panel p).dramInit = false)
      ∨ s.flag pk DDRC_STATE.SELF_REFRESH = true then s
    else (s.setFld pk DDRC_STATE.REFRESH_2X doubled.toNat).raiseIf (s.flag pk DDRC_STATE.REFRESH_2X != doubled) pk 7)

/-- The scrub reads the next line (R242). -/
def execPatrolScrubRead (p : Slice) (errs : LineErrors) (s : State) : Host.Outcome State Fault Refusal :=
  let pk := ddrcPage p
  let line := (s.panel p).scrubAt
  .next (if s.fld pk DDRC_CFG.SCRUB_HOURS = 0 ∨ s.flag pk DDRC_STATE.TRAINED = false
      ∨ s.flag pk DDRC_STATE.SELF_REFRESH = true then s
    else
      let s1 := s.readLine p line true errs
      if line + 1 < s.dramLines p then s1.setPanel p { s1.panel p with scrubAt := line + 1 }
      else ((s1.setPanel p { s1.panel p with scrubAt := 0 }).count pk DDRC_STATE.PASSES 1).raise pk 3)

/-- The write timing is adjusted, every 64 ms (R234). -/
def execWriteTimingAdjust (p : Slice) (outOfRange : Bool) (s : State) : Host.Outcome State Fault Refusal :=
  let pk := ddrcPage p
  .next (s.raiseIf (outOfRange && s.flag pk DDRC_STATE.TRAINED && !s.flag pk DDRC_STATE.SELF_REFRESH) pk 4)

/-! ### Repair (R243) -/

/-- A row coordinate, laid out as in the logs, that the module has (R243, R244). -/
def State.rowThere (s : State) (p coord : Nat) : Bool :=
  let pn := s.panel p
  decide (coord / 2 ^ 23 < s.fld (ddrcPage p) DDRC_MODULE.RANKS) && decide (coord / 2 ^ 20 % 8 < pn.dramGroups)
    && decide (coord / 2 ^ 18 % 4 < pn.dramBanks) && decide (coord % 2 ^ 18 < pn.dramRows)

/-- A repair is started; a row coordinate that the module does not have is a host error. -/
def State.startRepair (s : State) (p : Nat) : State :=
  let pk := ddrcPage p
  if s.flag pk DDRC_PPR.BUSY then s
  else if s.rowThere p (s.fld pk DDRC_PPR.COORD) = false then s.err pk
  else s.setFld pk DDRC_PPR.BUSY 1

/-- A write of 1 to `DDRC_PPR.GO` (R243). -/
def execDdrcPprGo (ag : Agent) (p : Slice) (s : State) : Host.Outcome State Fault Refusal :=
  .next (s.writeBy ag (ddrcPage p) 0x148 (fun u => u.startRepair p))

/-- A repair ends (R243). -/
def execPprDone (p : Slice) (ok : Bool) (s : State) : Host.Outcome State Fault Refusal :=
  let pk := ddrcPage p
  .next (if s.flag pk DDRC_PPR.BUSY = false then s
    else if ok then ((s.setFld pk DDRC_PPR.BUSY 0).mark pk DDRC_PPR.DONE).raise pk 5
    else ((s.setFld pk DDRC_PPR.BUSY 0).mark pk DDRC_PPR.FAIL).raise pk 6)

/-! ### Clears (R244) -/

def State.clearDevices (s : State) (p : Nat) : State :=
  (List.range 10).foldl (fun u i => u.setReg (ddrcPage p) (0x150 + 8 * i) 0) s

/-- A write of 1 to `DDRC_CLR.DEV`. -/
def execDdrcClrDev (ag : Agent) (p : Slice) (s : State) : Host.Outcome State Fault Refusal :=
  .next (s.writeBy ag (ddrcPage p) 0x1A0 (fun u => u.clearDevices p))

/-- A write of 1 to `DDRC_CLR.COUNTS`. -/
def execDdrcClrCounts (ag : Agent) (p : Slice) (s : State) : Host.Outcome State Fault Refusal :=
  .next (s.writeBy ag (ddrcPage p) 0x1A0 (fun u => u.setReg (ddrcPage p) 0x138 0))

end Sys2Proof.Machine
end

