-- ==== Sys2Proof/Machine/Dma.lean ====
section
/-! DEFINITION. DMA channels apart from their elements: start, pause, resume, the allocator, the counts (R250, R251,
R254 to R258). -/

namespace Sys2Proof.Machine

open Sys2Proof

/-- The thread whose store starts a channel (R299). -/
def starterOf (p : Nat) : Agent → Option Nat
  | .thread t => if t.panel.val = p then some t.index.val else none
  | _ => none

/-- A write of 1 to `DMA_CMD.START` (R250, R251, R254). -/
def State.startDma (s : State) (ag : Agent) (p c : Nat) : State :=
  let pk := dmaPage p c
  let st := s.fld pk DMA_STATUS.STATE
  if st = 1 ∨ st = 2 ∨ st = 3 then (s.mark pk DMA_STATUS.START_REFUSED).raise pk 3
  else if 4 < s.fld pk DMA_CFG.SIZE ∨ s.fld pk DMA_CFG.IDX = 3 then s.err pk
  else
    let s1 := s.setDma p c { inFlight := 0, restPaused := false, starter := starterOf p ag }
    if s.flag pk DMA_CMD.PAUSE then s1.setFld pk DMA_STATUS.STATE 3
    else if s.fld pk DMA_COUNT.COUNT = 0 then s1.completeDma p c
    else if (s.panel p).restFrom.isSome then
      ((s1.setDma p c { s1.dma p c with restPaused := true }).setFld pk DMA_STATUS.STATE 3).raise pk 4
    else s1.setFld pk DMA_STATUS.STATE 1

/-- A write of 1 to `DMA_CMD.START` (R254). -/
def execDmaStart (ag : Agent) (p : Slice) (c : Fin 32) (s : State) : Host.Outcome State Fault Refusal :=
  .next (s.writeBy ag (dmaPage p c) 0x128 (fun u => u.startDma ag p c))

/-- A running channel stops reading, with so many elements in flight (R251). -/
def State.drainDma (s : State) (p c inFlight : Nat) : State :=
  let pk := dmaPage p c
  if s.fld pk DMA_STATUS.STATE ≠ 1 then s
  else
    let n := min inFlight (s.fld pk DMA_COUNT.COUNT)
    let s1 := s.setDma p c { s.dma p c with inFlight := n }
    if n = 0 then (s1.setFld pk DMA_STATUS.STATE 3).raise pk 4 else s1.setFld pk DMA_STATUS.STATE 2

/-- A write of 1 to `DMA_CMD.PAUSE` (R251). -/
def State.pauseDma (s : State) (p c inFlight : Nat) : State :=
  (s.setFld (dmaPage p c) DMA_CMD.PAUSE 1).drainDma p c inFlight

def execDmaPause (ag : Agent) (p : Slice) (c : Fin 32) (inFlight : Fin 17) (s : State) :
    Host.Outcome State Fault Refusal :=
  .next (s.writeBy ag (dmaPage p c) 0x128 (fun u => u.pauseDma p c inFlight))

/-- A write of 0 to `DMA_CMD.PAUSE` (R251): a channel paused by a rest stays paused until the wake. -/
def State.unpauseDma (s : State) (p c : Nat) : State :=
  let s1 := s.setFld (dmaPage p c) DMA_CMD.PAUSE 0
  if (s.dma p c).restPaused then s1
  else
    let s2 := s1.resumeDma p c
    if (s.panel p).restFrom.isSome then
      (s2.setDma p c { s2.dma p c with restPaused := true }).drainDma p c (s.dma p c).inFlight
    else s2

def execDmaResume (ag : Agent) (p : Slice) (c : Fin 32) (s : State) : Host.Outcome State Fault Refusal :=
  .next (s.writeBy ag (dmaPage p c) 0x128 (fun u => u.unpauseDma p c))

/-! ### The allocator (R255, R257) -/

/-- What a read of `DMA_ALLOC` returns: the lowest free channel, or 0x3F. -/
def State.freeChannel (s : State) (p : Nat) : Nat :=
  ((List.range 32).find? (fun c => !bit (s.fld (dmaPage p 32) DMA_ALLOCATED.MASK) c)).getD 0x3F

/-- A read of `DMA_ALLOC` allocates, or is counted as refused. -/
def State.allocate (s : State) (p : Nat) : State :=
  let pk := dmaPage p 32
  let c := s.freeChannel p
  if c = 0x3F then s.count pk DMA_ALLOC_REFUSED.COUNT 1
  else s.setFld pk DMA_ALLOCATED.MASK (putBit (s.fld pk DMA_ALLOCATED.MASK) c true)

/-- An agent whose reads of a panel's own pages reach them with their side effects (R363, R375). -/
def readsOwn (ag : Agent) (p : Nat) : Bool := decide (agentPanel ag = some p)

/-- A read of `DMA_ALLOC` (R255); Easel's allocates nothing (R363). -/
def execDmaAlloc (ag : Agent) (p : Slice) (s : State) : Host.Outcome State Fault Refusal :=
  .next (if readsOwn ag p ∧ s.present p then s.allocate p else s)

/-- A write to `DMA_FREE` (R255). -/
def State.freeDma (s : State) (p c : Nat) : State :=
  s.setFld (dmaPage p 32) DMA_ALLOCATED.MASK (putBit (s.fld (dmaPage p 32) DMA_ALLOCATED.MASK) c false)

def execDmaFree (ag : Agent) (p : Slice) (c : Fin 32) (s : State) : Host.Outcome State Fault Refusal :=
  .next (s.writeBy ag (dmaPage p 32) 0x110 (fun u => u.freeDma p c))

/-- A write of 1 to `DMA_ALLOC_REFUSED.CLR` (R257). -/
def execDmaAllocRefusedClr (ag : Agent) (p : Slice) (s : State) : Host.Outcome State Fault Refusal :=
  .next (s.writeBy ag (dmaPage p 32) 0x118 (fun u => u.setFld (dmaPage p 32) DMA_ALLOC_REFUSED.COUNT 0))

/-- A write of 1 to `DMA_COLL.CLR` (R256). -/
def execDmaCollClr (ag : Agent) (p : Slice) (c : Fin 32) (s : State) : Host.Outcome State Fault Refusal :=
  .next (s.writeBy ag (dmaPage p c) 0x138 (fun u => u.setFld (dmaPage p c) DMA_COLL.COUNT 0))

end Sys2Proof.Machine
end

