-- ==== Sys2Proof/Machine/Crypto.lean ====
section
/-! DEFINITION. The two cryptographic functions that the spec takes from other standards: SHA-384, of FIPS 180-4, and the
verification of ECDSA signatures on the curve P-384, of FIPS 186-5 (R350, R351, R356; assumption 17). -/

namespace Sys2Proof.Machine

open Sys2Proof

/-! ### SHA-384 -/

/-- The 80 round constants, in five lists. -/
def shaK0 : List Word := [
  0x428A2F98D728AE22, 0x7137449123EF65CD, 0xB5C0FBCFEC4D3B2F, 0xE9B5DBA58189DBBC,
  0x3956C25BF348B538, 0x59F111F1B605D019, 0x923F82A4AF194F9B, 0xAB1C5ED5DA6D8118,
  0xD807AA98A3030242, 0x12835B0145706FBE, 0x243185BE4EE4B28C, 0x550C7DC3D5FFB4E2,
  0x72BE5D74F27B896F, 0x80DEB1FE3B1696B1, 0x9BDC06A725C71235, 0xC19BF174CF692694]

def shaK1 : List Word := [
  0xE49B69C19EF14AD2, 0xEFBE4786384F25E3, 0x0FC19DC68B8CD5B5, 0x240CA1CC77AC9C65,
  0x2DE92C6F592B0275, 0x4A7484AA6EA6E483, 0x5CB0A9DCBD41FBD4, 0x76F988DA831153B5,
  0x983E5152EE66DFAB, 0xA831C66D2DB43210, 0xB00327C898FB213F, 0xBF597FC7BEEF0EE4,
  0xC6E00BF33DA88FC2, 0xD5A79147930AA725, 0x06CA6351E003826F, 0x142929670A0E6E70]

def shaK2 : List Word := [
  0x27B70A8546D22FFC, 0x2E1B21385C26C926, 0x4D2C6DFC5AC42AED, 0x53380D139D95B3DF,
  0x650A73548BAF63DE, 0x766A0ABB3C77B2A8, 0x81C2C92E47EDAEE6, 0x92722C851482353B,
  0xA2BFE8A14CF10364, 0xA81A664BBC423001, 0xC24B8B70D0F89791, 0xC76C51A30654BE30,
  0xD192E819D6EF5218, 0xD69906245565A910, 0xF40E35855771202A, 0x106AA07032BBD1B8]

def shaK3 : List Word := [
  0x19A4C116B8D2D0C8, 0x1E376C085141AB53, 0x2748774CDF8EEB99, 0x34B0BCB5E19B48A8,
  0x391C0CB3C5C95A63, 0x4ED8AA4AE3418ACB, 0x5B9CCA4F7763E373, 0x682E6FF3D6B2B8A3,
  0x748F82EE5DEFB2FC, 0x78A5636F43172F60, 0x84C87814A1F0AB72, 0x8CC702081A6439EC,
  0x90BEFFFA23631E28, 0xA4506CEBDE82BDE9, 0xBEF9A3F7B2C67915, 0xC67178F2E372532B]

def shaK4 : List Word := [
  0xCA273ECEEA26619C, 0xD186B8C721C0C207, 0xEADA7DD6CDE0EB1E, 0xF57D4F7FEE6ED178,
  0x06F067AA72176FBA, 0x0A637DC5A2C898A6, 0x113F9804BEF90DAE, 0x1B710B35131C471B,
  0x28DB77F523047D84, 0x32CAAB7B40C72493, 0x3C9EBE0A15C9BEBC, 0x431D67C49C100D4C,
  0x4CC5D4BECB3E42B6, 0x597F299CFC657E2A, 0x5FCB6FAB3AD6FAEC, 0x6C44198C4A475817]

def shaRounds : List Word := shaK0 ++ shaK1 ++ shaK2 ++ shaK3 ++ shaK4

/-- The eight working variables. -/
structure Sha where
  a : Word
  b : Word
  c : Word
  d : Word
  e : Word
  f : Word
  g : Word
  h : Word
  deriving DecidableEq, Repr

/-- The initial hash value of SHA-384. -/
def shaStart : Sha :=
  ⟨0xCBBB9D5DC1059ED8, 0x629A292A367CD507, 0x9159015A3070DD17, 0x152FECD8F70E5939,
    0x67332667FFC00B31, 0x8EB44A8768581511, 0xDB0C2E0D64F98FA7, 0x47B5481DBEFA4FA4⟩

/-- The functions of the message schedule and of a round. -/
def shaSmall0 (x : Word) : Word := x.rotateRight 1 ^^^ x.rotateRight 8 ^^^ (x >>> 7)
def shaSmall1 (x : Word) : Word := x.rotateRight 19 ^^^ x.rotateRight 61 ^^^ (x >>> 6)
def shaBig0 (x : Word) : Word := x.rotateRight 28 ^^^ x.rotateRight 34 ^^^ x.rotateRight 39
def shaBig1 (x : Word) : Word := x.rotateRight 14 ^^^ x.rotateRight 18 ^^^ x.rotateRight 41
def shaChoose (x y z : Word) : Word := (x &&& y) ^^^ (~~~x &&& z)
def shaMajority (x y z : Word) : Word := (x &&& y) ^^^ (x &&& z) ^^^ (y &&& z)

/-- A big-endian number of some bytes. -/
def beNat (l : List Byte) : Nat := l.foldl (fun v b => v * 256 + b.toNat) 0

/-- The message schedule, newest word first, from the 16 words of a block, each word made from earlier ones. -/
def shaSchedule : Nat → List Word → List Word
  | 0, w => w
  | n + 1, w => shaSchedule n
      ((shaSmall1 (w.getD 1 0) + w.getD 6 0 + shaSmall0 (w.getD 14 0) + w.getD 15 0) :: w)

/-- A round, with its constant and its word of the schedule. -/
def Sha.round (s : Sha) (k w : Word) : Sha :=
  let t := s.h + shaBig1 s.e + shaChoose s.e s.f s.g + k + w
  ⟨t + shaBig0 s.a + shaMajority s.a s.b s.c, s.a, s.b, s.c, s.d + t, s.e, s.f, s.g⟩

/-- A block of 128 bytes. -/
def Sha.block (s : Sha) (bytes : List Byte) : Sha :=
  let first := (List.range 16).map (fun i => BitVec.ofNat 64 (beNat ((bytes.drop (8 * i)).take 8)))
  let r := (shaRounds.zip (shaSchedule 64 first.reverse).reverse).foldl (fun u x => u.round x.1 x.2) s
  ⟨s.a + r.a, s.b + r.b, s.c + r.c, s.d + r.d, s.e + r.e, s.f + r.f, s.g + r.g, s.h + r.h⟩

/-- The first blocks of a message, as many as it is told. -/
def Sha.blocks (s : Sha) : Nat → List Byte → Sha
  | 0, _ => s
  | n + 1, l => Sha.blocks (s.block (l.take 128)) n (l.drop 128)

/-- A number in big-endian bytes. -/
def beBytes (v n : Nat) : List Byte := (List.range n).map (fun i => BitVec.ofNat 8 (v / 256 ^ (n - 1 - i)))

/-- The message with its padding. -/
def shaPad (m : List Byte) : List Byte :=
  m ++ 0x80 :: List.replicate ((239 - m.length % 128) % 128) 0 ++ beBytes (8 * m.length) 16

/-- SHA-384 of a message. -/
def sha384 (m : List Byte) : BitVec 384 :=
  let p := shaPad m
  let r := shaStart.blocks (p.length / 128) p
  r.a ++ r.b ++ r.c ++ r.d ++ r.e ++ r.f

/-! ### ECDSA on P-384 -/

/-- The curve y² = x³ - 3x + b over the integers modulo p, and its base point of order n. -/
def p384 : Nat := 2 ^ 384 - 2 ^ 128 - 2 ^ 96 + 2 ^ 32 - 1
def p384b : Nat := 0xB3312FA7E23EE7E4988E056BE3F82D19181D9C6EFE8141120314088F5013875AC656398D8A2ED19D2A85C8EDD3EC2AEF
def p384n : Nat := 0xFFFFFFFFFFFFFFFFFFFFFFFFFFFFFFFFFFFFFFFFFFFFFFFFC7634D81F4372DDF581A0DB248B0A77AECEC196ACCC52973
def p384x : Nat := 0xAA87CA22BE8B05378EB1C71EF320AD746E1D3B628BA79B9859F741E082542A385502F25DBF55296C3A545E3872760AB7
def p384y : Nat := 0x3617DE4A96262C6F5D9E98BF9292DC29F8F41DBD289A147CE9DA3113B5F0B8C00A60B1CE1D7E819D7A431D7C90EA0E5F

/-- A power modulo m, by the low bits of the exponent that it is told. -/
def powMod (m : Nat) : Nat → Nat → Nat → Nat
  | 0, _, _ => 1 % m
  | n + 1, b, e => (if e % 2 = 1 then b else 1) * powMod m n (b * b % m) (e / 2) % m

/-- The inverse modulo a prime. -/
def invMod (m a : Nat) : Nat := powMod m 384 (a % m) (m - 2)

/-- A difference modulo m. -/
def subMod (m a b : Nat) : Nat := (a % m + m - b % m) % m

/-- A point of the curve; `none` is the point at infinity. -/
abbrev CurvePoint := Option (Nat × Nat)

/-- The point with a slope through another. -/
def curveThird (slope x1 y1 x2 : Nat) : CurvePoint :=
  let x := subMod p384 (slope * slope) (x1 + x2)
  some (x, subMod p384 (slope * subMod p384 x1 x) y1)

/-- The sum of two points. -/
def curveAdd : CurvePoint → CurvePoint → CurvePoint
  | none, q => q
  | q, none => q
  | some (x1, y1), some (x2, y2) =>
    if x1 = x2 then
      (if (y1 + y2) % p384 = 0 then none
       else curveThird (subMod p384 (3 * x1 * x1) 3 * invMod p384 (2 * y1)) x1 y1 x2)
    else curveThird (subMod p384 y2 y1 * invMod p384 (subMod p384 x2 x1)) x1 y1 x2

/-- A multiple of a point, by the low bits of the factor that it is told. -/
def curveMul : Nat → Nat → CurvePoint → CurvePoint
  | 0, _, _ => none
  | n + 1, k, q => curveAdd (if k % 2 = 1 then q else none) (curveMul n (k / 2) (curveAdd q q))

/-- A public key is a point of the curve. -/
def keyGood (x y : Nat) : Bool :=
  decide (x < p384) && decide (y < p384) && decide (y * y % p384 = subMod p384 (x * x * x + p384b) (3 * x))

/-- The signature of a digest verifies with a key: x then y, and r then s. -/
def ecdsaVerify (key : BitVec 768) (digest : BitVec 384) (signature : BitVec 768) : Bool :=
  let x := key.toNat / 2 ^ 384
  let y := key.toNat % 2 ^ 384
  let r := signature.toNat / 2 ^ 384
  let v := signature.toNat % 2 ^ 384
  let w := invMod p384n v
  keyGood x y && decide (0 < r) && decide (r < p384n) && decide (0 < v) && decide (v < p384n) &&
    match curveAdd (curveMul 384 (digest.toNat * w % p384n) (some (p384x, p384y))) (curveMul 384 (r * w % p384n) (some (x, y))) with
    | some q => decide (q.1 % p384n = r)
    | none => false

end Sys2Proof.Machine
end

