-- ==== Sys2Proof/Machine/Tmr.lean ====
section
/-! DEFINITION. General timers (R259 to R266): steps, starts and stops, capture. -/

namespace Sys2Proof.Machine

open Sys2Proof

/-- The panel island's clock runs (R264). -/
def State.islandRuns (s : State) (p : Nat) : Bool := s.present p && !(s.panel p).island

/-- A reload or a start takes the values of the registers (R259 to R261). -/
def State.reloadTimer (s : State) (p n : Nat) : State :=
  let pk := tmrPage p n
  let s1 := (s.setFld pk TMR_COUNT.COUNT (s.fld pk TMR_RELOAD.VALUE)).setFld pk TMR_CMP_NOW.VALUE
    (s.fld pk TMR_CMP.VALUE)
  s1.setTimer p n { s1.timer p n with presc := s.fld pk TMR_CFG.PRESC, oneShot := s.flag pk TMR_CFG.ONE_SHOT }

/-- A step has brought `COUNT` to a value (R259, R260). -/
def State.timerEvents (s : State) (p n : Nat) : State :=
  let pk := tmrPage p n
  (s.raiseIf (decide (s.fld pk TMR_COUNT.COUNT = 0)) pk 0).raiseIf
    (decide (s.fld pk TMR_COUNT.COUNT = s.fld pk TMR_CMP_NOW.VALUE)) pk 1

/-- A step of a running timer (R259). -/
def execTmrStep (p : Slice) (n : Fin 16) (s : State) : Host.Outcome State Fault Refusal :=
  let pk := tmrPage p n
  let c := s.fld pk TMR_COUNT.COUNT
  .next (if s.flag pk TMR_STATUS.RUNNING = false ∨ s.islandRuns p = false then s
    else if 0 < c then (s.setFld pk TMR_COUNT.COUNT (c - 1)).timerEvents p n
    else if (s.timer p n).oneShot then s.setFld pk TMR_STATUS.RUNNING 0
    else (s.reloadTimer p n).timerEvents p n)

/-- A timer starts or restarts (R261). -/
def State.startTimer (s : State) (p n : Nat) : State :=
  let s1 := (s.reloadTimer p n).setFld (tmrPage p n) TMR_STATUS.RUNNING 1
  s1.setTimer p n { s1.timer p n with startAt := some s.ticks }

/-- A timer stops; a start that has reached it in the same timer clock governs (R261; assumption 71). -/
def State.stopTimer (s : State) (p n : Nat) : State :=
  if (s.timer p n).startAt = some s.ticks then s else s.setFld (tmrPage p n) TMR_STATUS.RUNNING 0

/-- A write of 1 to `TMR_CMD.START` (R261). -/
def execTmrStart (ag : Agent) (p : Slice) (n : Fin 16) (s : State) : Host.Outcome State Fault Refusal :=
  .next (s.writeBy ag (tmrPage p n) 0x130 (fun u => u.startTimer p n))

/-- A write of 1 to `TMR_CMD.STOP` (R261). -/
def execTmrStop (ag : Agent) (p : Slice) (n : Fin 16) (s : State) : Host.Outcome State Fault Refusal :=
  .next (s.writeBy ag (tmrPage p n) 0x130 (fun u => u.stopTimer p n))

/-- Every timer of a mask starts, or stops. -/
def State.startTimers (s : State) (p mask : Nat) : State := (maskThreads mask).foldl (fun u n => u.startTimer p n) s
def State.haltTimers (s : State) (p mask : Nat) : State := (maskThreads mask).foldl (fun u n => u.stopTimer p n) s

/-- A write to `TMR_GSTART` (R261, R266). -/
def execTmrGstart (ag : Agent) (p : Slice) (mask : BitVec 16) (s : State) : Host.Outcome State Fault Refusal :=
  .next (s.writeBy ag (tmrPage p 16) 0x100 (fun u => u.startTimers p mask.toNat))

/-- A write to `TMR_GSTOP` (R261, R266). -/
def execTmrGstop (ag : Agent) (p : Slice) (mask : BitVec 16) (s : State) : Host.Outcome State Fault Refusal :=
  .next (s.writeBy ag (tmrPage p 16) 0x108 (fun u => u.haltTimers p mask.toNat))

/-! ### Capture (R262, R263) -/

/-- What the device drives on a stencil pin (R269): an output push-pull, or open-drain while it is 0; nothing where no
output names the pin, before the underpainting is restored, or while the pins' bank rail counts as below its reset
level (R341, R348). -/
def State.padDrive (s : State) (sec pin : Nat) : Option Bool :=
  let fld (e o hi lo : Nat) : Nat := s.fld (stenPage sec e) ⟨0x110, 8 * o + hi, 8 * o + lo⟩
  if (s.boot ≠ .done ∧ s.restored = false) ∨ s.supply.banksDown.getLsbD (2 * sec + 1) = true then none
  else
    match (List.range 64).find? (fun n => decide (fld (n / 8) (n % 8) 4 0 = pin)) with
    | none => none
    | some n =>
      let b := (s.stencil sec (n / 8)).outs.getLsbD (n % 8)
      if fld (n / 8) (n % 8) 5 5 = 1 ∧ b = true then none else some b

/-- The level of a timer's capture input where the device itself gives it: an engine's output, or a pin that one drives;
the board gives any other pin's (R262). -/
def State.captureLevel (s : State) (p n : Nat) : Option Bool :=
  let sel := s.fld (tmrPage p n) TMR_CFG.CAP_SEL
  if sel < 16 then s.padDrive p sel
  else some ((s.stencil p ((sel - 16) / 8)).outs.getLsbD ((sel - 16) % 8))

/-- An accepted edge of the capture input at this tick is counted, and may become a capture edge (R262). -/
def State.acceptEdge (s : State) (p n : Nat) (rise : Bool) : State :=
  let pk := tmrPage p n
  let kind := s.fld pk TMR_CFG.CAP_EDGE
  let v := { s.timer p n with
    level := some rise
    since := none
    accepted := s.ticks }
  if ¬ (kind = 3 ∨ (kind = 1 ∧ rise = true) ∨ (kind = 2 ∧ rise = false)) then s.setTimer p n v
  else if v.edges < s.fld pk TMR_CFG.CAP_DIV then s.setTimer p n { v with edges := v.edges + 1 }
  else s.setTimer p n { v with edges := 0, captures := v.captures ++ [(s.ticks, s.canvas)] }

/-- A level has held long enough for the filter (R262). -/
def State.filtered (s : State) (p n since : Nat) : Bool :=
  let f := s.fld (tmrPage p n) TMR_CFG.FILT
  decide (f = 0) || decide (since + 2 ^ f ≤ s.ticks)

/-- The ground samples a capture input whose level the device gives; a pin that the device lets go begins no level (R262). -/
def State.sampleCapture (s : State) (p n : Nat) : State :=
  let v := s.timer p n
  match s.captureLevel p n with
  | none => s.setTimer p n { v with since := none }
  | some x =>
    if v.level = some x then s.setTimer p n { v with since := none }
    else if v.level = none then s.setTimer p n { v with level := some x }
    else if s.filtered p n (v.since.getD s.ticks) then s.acceptEdge p n x
    else s.setTimer p n { v with since := some (v.since.getD s.ticks) }

/-- Every watched capture input is sampled at a tick. -/
def State.tickCaptures (s : State) : State :=
  s.timers.foldl (fun u x => if x.2.watch then u.sampleCapture (x.1 / 16) (x.1 % 16) else u) s

/-- A write of `TMR_CFG` (R262): the count of edges is zero, and the input chosen is watched from its present level
(assumption 112). -/
def State.chooseCapture (s : State) (p n : Nat) : State :=
  s.setTimer p n { s.timer p n with
    edges := 0
    watch := decide (s.fld (tmrPage p n) TMR_CFG.CAP_EDGE ≠ 0)
    level := s.captureLevel p n
    since := none
    accepted := s.ticks
    chosen := s.ticks }

/-- The board has changed the level of the pin that a timer watches, and the level has held as `FILT` asks: the edge is
accepted at this tick (R262). A level that the device gives is sampled by the tick alone. -/
def execCaptureEdge (p : Slice) (n : Fin 16) (rise : Bool) (s : State) : Host.Outcome State Fault Refusal :=
  let v := s.timer p n
  .next (if s.present p = false ∨ v.watch = false ∨ s.captureLevel p n ≠ none ∨ v.level = some rise
      ∨ s.filtered p n v.accepted = false then s
    else s.acceptEdge p n rise)

/-- A capture edge whose timer clock falls in a rest is not captured and not counted: the next counted edge takes its
place, where no write of `TMR_CFG` has begun the count again (R262; DEDUCED). -/
def State.uncountEdge (s : State) (p n t : Nat) : State :=
  let v := s.timer p n
  if t < v.chosen then s else s.setTimer p n { v with edges := s.fld (tmrPage p n) TMR_CFG.CAP_DIV }

/-- A capture takes effect (R262). Whether it replaces one that nobody reads is known when its timer clock, here its
tick, is over (R263). -/
def State.takeCapture (s : State) (p n edge : Nat) : State :=
  let pk := tmrPage p n
  let s1 := s.setTimer p n { s.timer p n with took := some s.ticks, overran := s.flag pk TMR_STATUS.CAPTURED }
  let w := BitVec.ofNat 64 (s.fld pk TMR_COUNT.COUNT * 2 ^ 32 + edge % 2 ^ 32)
  ((s1.setReg pk 0x128 w).setFld pk TMR_STATUS.CAPTURED 1).raise pk 2

/-- The oldest capture edge that is due takes effect; in a rest it is lost (R262, R263). -/
def execTimerCapture (p : Slice) (n : Fin 16) (s : State) : Host.Outcome State Fault Refusal :=
  let v := s.timer p n
  .next (match v.captures with
    | [] => s
    | (t, edge) :: rest =>
      if s.ticks < t + 10 then s
      else
        let s1 := s.setTimer p n { v with captures := rest }
        if s.islandRuns p = false then s1.uncountEdge p n t else s1.takeCapture p n edge)

/-- The tick of a capture ends: the earlier capture, which no read took, is overrun (R263). -/
def State.noteOverrun (s : State) (p n : Nat) : State :=
  let pk := tmrPage p n
  ((s.setTimer p n { s.timer p n with overran := false }).mark pk TMR_STATUS.OVERRUN).raise pk 3

/-- Every overrun of the tick that ends. -/
def State.tickOverruns (s : State) : State :=
  s.timers.foldl (fun u x => if x.2.overran then u.noteOverrun (x.1 / 16) (x.1 % 16) else u) s

/-- A read of `TMR_CAP` (R263): one that falls in the tick of a capture takes the earlier values, and `CAPTURED` stays 1
for the new ones; Easel's read changes nothing (R363). -/
def State.readCapture (s : State) (p n : Nat) : State :=
  let v := s.timer p n
  if v.took = some s.ticks then s.setTimer p n { v with overran := false }
  else s.setFld (tmrPage p n) TMR_STATUS.CAPTURED 0

def execTmrCapRead (ag : Agent) (p : Slice) (n : Fin 16) (s : State) : Host.Outcome State Fault Refusal :=
  .next (if readsOwn ag p ∧ s.present p then s.readCapture p n else s)

/-- The ratio is measured every 2^15 slow periods of an awake panel (R264). -/
def execRatioMeasurement (p : Slice) (ratio : BitVec 32) (s : State) : Host.Outcome State Fault Refusal :=
  .next (if s.islandRuns p then s.setFld (tmrPage p 16) TMR_RATIO.RATIO ratio.toNat else s)

end Sys2Proof.Machine
end

