-- ==== Sys2Proof/Machine/Sten.lean ====
section
/-! DEFINITION. Stencil engines (R268 to R276): rows, the shift register and the FIFOs, starts and stops, program
changes. Stencil-clock edges fall at every fourth tick counted from tick 0 of `PRIME` (assumption 49). -/

namespace Sys2Proof.Machine

open Sys2Proof

/-! ### Rows (R270) -/

def rowBits (w : Word) (hi lo : Nat) : Nat := bits w hi lo

/-- The program row in force. -/
def State.stenRow (s : State) (sec e r : Nat) : Word := s.reg (stenPage sec e) (0x200 + 8 * r)

/-- Ticks of one engine clock (R268). -/
def State.engineClock (s : State) (sec e : Nat) : Nat := 4 * (s.fld (stenPage sec e) STEN_CFG.DIV + 1)

/-- The out-end bit (R271). -/
def State.outEnd (s : State) (sec e : Nat) : Bool :=
  let v := s.stencil sec e
  if s.flag (stenPage sec e) STEN_CFG.DIR then v.sr.getLsbD 0 else v.sr.getLsbD 31

/-- Outputs set at an edge, at this tick; what they were before stays visible to the other engines (R269). -/
def Stencil.putOuts (v : Stencil) (now : Nat) (o : BitVec 8) : Stencil :=
  if v.outsAt = now then { v with outs := o } else { v with wasOuts := v.outs, outs := o, outsAt := now }

/-- An output as it stood after the previous stencil-clock edge (R269). -/
def Stencil.seen (v : Stencil) (now o : Nat) : Bool :=
  if v.outsAt = now then v.wasOuts.getLsbD o else v.outs.getLsbD o

/-- A byte with the bits of a mask set to those of a value. -/
def masked (old : BitVec 8) (mask value : Nat) : BitVec 8 :=
  let m := BitVec.ofNat 8 mask
  (old &&& ~~~m) ||| (BitVec.ofNat 8 value &&& m)

/-- A row is entered at this tick (R268, R271). -/
def State.enterRow (s : State) (sec e r : Nat) : State :=
  let w := s.stenRow sec e r
  let v := s.stencil sec e
  let op := rowBits w 2 0
  let o := masked v.outs (rowBits w 47 40) (rowBits w 39 32)
  let o1 := if op = 1 ∨ op = 3 then
      BitVec.ofNat 8 (putBit o.toNat (s.fld (stenPage sec e) STEN_CFG.SOUT) (s.outEnd sec e))
    else o
  let v1 := { v.putOuts s.ticks o1 with
    st := masked v.st (rowBits w 31 24) (rowBits w 23 16), row := r, entry := s.ticks, stalled := false,
    next := s.ticks + s.engineClock sec e, left := rowBits w 15 8 + 1 }
  (s.setStencil sec e v1).raiseIf (bit w.toNat 7) (stenPage sec e) 0

/-! ### The end of a row (R269 to R271, R273) -/

/-- A pin through its two-stage synchroniser (R269): as it stood two stencil clocks before, at the level that an output
drove then, else at the board's. -/
def State.stenPin (s : State) (sec i : Nat) (board : BitVec 16) : Bool :=
  let x := ((Store.read [] s.pads sec)[2]?).getD ⟨0, 0⟩
  if x.drives.getLsbD i then x.levels.getLsbD i else board.getLsbD i

/-- Input `i` at an edge: a pin through its synchroniser, an output, a constant. -/
def State.stenInput (s : State) (sec e i : Nat) (pins : BitVec 16) : Bool :=
  let sel := s.fld (stenPage sec e) ⟨0x108, 8 * i + 6, 8 * i⟩
  if sel < 16 then s.stenPin sec sel pins
  else if sel < 80 then (s.stencil sec ((sel - 16) / 8)).seen s.ticks ((sel - 16) % 8)
  else decide (sel = 81)

/-- A condition (R270). -/
def State.stenCond (s : State) (sec e c : Nat) (pins : BitVec 16) : Bool :=
  let v := s.stencil sec e
  if c = 0 then true
  else if c ≤ 8 then s.stenInput sec e (c - 1) pins
  else if c ≤ 16 then v.st.getLsbD (c - 9)
  else if c = 17 then decide (v.scnt = 0)
  else if c = 18 then decide (v.tx ≠ [])
  else if c = 19 then decide (v.rx.length < 8)
  else s.outEnd sec e

/-- SHIFT (R271). -/
def State.stenShift (s : State) (sec e : Nat) (pins : BitVec 16) : State :=
  let v := s.stencil sec e
  let x := s.stenInput sec e (s.fld (stenPage sec e) STEN_CFG.SIN) pins
  let sr := if s.flag (stenPage sec e) STEN_CFG.DIR then (v.sr >>> 1) ||| (if x then 0x80000000#32 else 0#32)
    else (v.sr <<< 1) ||| (if x then 1#32 else 0#32)
  s.setStencil sec e { v with sr := sr, scnt := v.scnt - 1 }

def State.stenLen (s : State) (sec e : Nat) : Nat := s.fld (stenPage sec e) STEN_CFG.LEN

/-- PULL that does not stall (R271). -/
def State.stenPull (s : State) (sec e : Nat) : State :=
  let v := s.stencil sec e
  let pk := stenPage sec e
  match v.tx with
  | [] => ((s.setStencil sec e { v with sr := 0, scnt := s.stenLen sec e }).mark pk STEN_FLAGS.TX_UNDER).raise pk 3
  | w :: rest =>
    (s.setStencil sec e { v with sr := w, scnt := s.stenLen sec e, tx := rest }).raiseIf (decide (rest = [])) pk 1

/-- PUSH that does not stall (R271). -/
def State.stenPush (s : State) (sec e : Nat) : State :=
  let v := s.stencil sec e
  let pk := stenPage sec e
  if v.rx.length < 8 then
    (s.setStencil sec e { v with rx := v.rx ++ [v.sr] }).raiseIf (decide (v.rx = [])) pk 2
  else (s.mark pk STEN_FLAGS.RX_OVER).raise pk 3

/-- The end part of a row's operation. -/
def State.stenEnd (s : State) (sec e op : Nat) (pins : BitVec 16) : State :=
  if op = 2 ∨ op = 3 then s.stenShift sec e pins
  else if op = 4 then s.stenPull sec e
  else if op = 5 then s.stenPush sec e
  else if op = 6 then s.setStencil sec e { s.stencil sec e with scnt := s.stenLen sec e }
  else s

/-- A row cannot end now (R271). -/
def State.stenStalls (s : State) (sec e op : Nat) : Bool :=
  let v := s.stencil sec e
  s.flag (stenPage sec e) STEN_CFG.STALL &&
    ((decide (op = 4) && decide (v.tx = [])) || (decide (op = 5) && decide (8 ≤ v.rx.length)))

/-- Pending row writes are applied (R273). -/
def State.takeRows (s : State) (sec e : Nat) : State :=
  let v := s.stencil sec e
  v.rows.foldl (fun u x => u.setReg (stenPage sec e) (0x200 + 8 * x.1) x.2) (s.setStencil sec e { v with rows := [] })

/-- A row ends at this tick, or stalls (R268, R271, R273). -/
def State.endRow (s : State) (sec e : Nat) (pins : BitVec 16) : State :=
  let w := s.stenRow sec e (s.stencil sec e).row
  let op := rowBits w 2 0
  if s.stenStalls sec e op then
    s.setStencil sec e { s.stencil sec e with stalled := true, next := s.ticks + s.engineClock sec e, left := 1 }
  else
    let s1 := s.stenEnd sec e op pins
    let taken := s1.stenCond sec e (rowBits w 52 48) pins != bit w.toNat 53
    let r := if taken then rowBits w 63 59 else rowBits w 58 54
    let s2 := if (s1.stencil sec e).scnt = 0 then s1.takeRows sec e else s1
    s2.enterRow sec e r

/-- The tick of the end of the row in progress. -/
def State.rowEndAt (s : State) (sec e : Nat) : Nat :=
  let v := s.stencil sec e
  v.next + (v.left - 1) * s.engineClock sec e

/-- The end edge of a row, with the levels that the board had put on the pins two stencil clocks before (R268, R269). -/
def execStencilRowEnd (sec : Slice) (e : Fin 8) (pins : BitVec 16) (s : State) : Host.Outcome State Fault Refusal :=
  let v := s.stencil sec e
  .next (if v.running = true ∧ v.stopAt = none ∧ s.rowEndAt sec e = s.ticks then s.endRow sec e pins else s)

/-! ### Starts, stops and divider restarts (R272, R274) -/

/-- The `INIT` levels. -/
def State.initOuts (s : State) (sec e : Nat) : BitVec 8 :=
  BitVec.ofNat 8 (((List.range 8).map (fun o => s.fld (stenPage sec e) ⟨0x110, 8 * o + 6, 8 * o + 6⟩ * 2 ^ o)).sum)

/-- A stopped engine starts at an edge (R272). -/
def State.startEngine (s : State) (sec e : Nat) : State :=
  let v := (s.stencil sec e).putOuts s.ticks (s.initOuts sec e)
  (s.setStencil sec e { v with running := true, sr := 0, scnt := 0, st := 0 }).enterRow sec e 0

/-- A running engine stops at an edge (R272, R273). -/
def State.stopEngine (s : State) (sec e : Nat) : State :=
  (s.setStencil sec e { s.stencil sec e with running := false, stalled := false }).takeRows sec e

/-- What has been asked of an engine takes effect at the stencil-clock edge of this tick. -/
def State.stenEdge (s : State) (sec e : Nat) : State :=
  let v := s.stencil sec e
  let s1 := s.setStencil sec e { v with startAt := none, stopAt := none }
  let s2 := if v.stopAt.isSome ∧ v.running then s1.stopEngine sec e else s1
  let wanted := match v.startAt, v.stopAt with
    | some a, some b => decide (b ≤ a)
    | some _, none => !v.running
    | none, _ => false
  if wanted then s2.startEngine sec e else s2

/-- Engine-clock edges that have passed before this tick leave the row's count; this tick's edge is one (R274). A row
entered at this very tick has had that edge. -/
def State.restartDivider (s : State) (sec e : Nat) : State :=
  let v := s.stencil sec e
  let k := if v.next < s.ticks then (s.ticks - 1 - v.next) / s.engineClock sec e + 1 else 0
  if v.running = true ∧ v.entry = s.ticks then
    s.setStencil sec e { v with restart := false, next := s.ticks + s.engineClock sec e }
  else s.setStencil sec e { v with restart := false, next := s.ticks, left := max 1 (v.left - k) }

/-- Before a new `DIV` is in force: the interval in progress keeps its length, and a row that ends at this tick, whose end
has not been taken yet, still ends at it (R268; assumption 50). -/
def State.settleDivider (s : State) (sec e : Nat) : State :=
  let v := s.stencil sec e
  let past := if v.next ≤ s.ticks then (s.ticks - v.next) / s.engineClock sec e + 1 else 0
  let k := min past (v.left - 1)
  s.setStencil sec e { v with next := v.next + k * s.engineClock sec e, left := v.left - k }

/-- Engines that run in a sector: in every mode except `PRIME` (R272). -/
def State.stenLive (s : State) (sec : Nat) : Bool := s.present sec && decide (s.mode sec ≠ PRIME)

/-- A start, or a stop, takes effect at this tick (R272). -/
def State.askStart (s : State) (sec e : Nat) : State :=
  if s.stenLive sec then s.setStencil sec e { s.stencil sec e with startAt := some s.ticks } else s

def State.askStop (s : State) (sec e : Nat) : State :=
  if s.stenLive sec then s.setStencil sec e { s.stencil sec e with stopAt := some s.ticks } else s

/-- A divider restart takes effect at this tick, and acts at once when this tick has an edge. -/
def State.askClock (s : State) (sec e : Nat) : State :=
  if s.stenLive sec = false then s
  else if s.ticks % 4 = 0 then s.restartDivider sec e
  else s.setStencil sec e { s.stencil sec e with restart := true }

/-- `STEN_CMD.START` takes effect (R272). -/
def execStenStart (sec : Slice) (e : Fin 8) (s : State) : Host.Outcome State Fault Refusal := .next (s.askStart sec e)

/-- `STEN_CMD.STOP` takes effect (R272). -/
def execStenStop (sec : Slice) (e : Fin 8) (s : State) : Host.Outcome State Fault Refusal := .next (s.askStop sec e)

/-- The engines of a mask that the group page's owner owns (R274). -/
def State.group (s : State) (sec mask : Nat) : List Nat :=
  (List.range 8).filter (fun e => bit mask e && decide (s.owner (stenPage sec e) = s.owner (stenPage sec 8)))

def State.groupStart (s : State) (sec mask : Nat) : State := (s.group sec mask).foldl (fun u e => u.askStart sec e) s
def State.groupStop (s : State) (sec mask : Nat) : State := (s.group sec mask).foldl (fun u e => u.askStop sec e) s
def State.groupClock (s : State) (sec mask : Nat) : State := (s.group sec mask).foldl (fun u e => u.askClock sec e) s

/-- `STEN_GSTART` takes effect (R274). -/
def execStenGstart (sec : Slice) (mask : Byte) (s : State) : Host.Outcome State Fault Refusal :=
  .next (s.groupStart sec mask.toNat)

/-- `STEN_GSTOP` takes effect (R274). -/
def execStenGstop (sec : Slice) (mask : Byte) (s : State) : Host.Outcome State Fault Refusal :=
  .next (s.groupStop sec mask.toNat)

/-- `STEN_GCLK` takes effect (R274). -/
def execStenGclk (sec : Slice) (mask : Byte) (s : State) : Host.Outcome State Fault Refusal :=
  .next (s.groupClock sec mask.toNat)

/-- The tick is over: its stencil-clock edge starts and stops engines. -/
def State.tickStencilsOut (s : State) : State :=
  s.stencils.foldl (fun u x =>
    if s.ticks % 4 = 0 ∧ (x.2.startAt.isSome ∨ x.2.stopAt.isSome) then u.stenEdge (x.1 / 8) (x.1 % 8) else u) s

/-- A tick begins: its stencil-clock edge restarts dividers. -/
def State.tickStencilsIn (s : State) : State :=
  s.stencils.foldl (fun u x =>
    if s.ticks % 4 = 0 ∧ x.2.restart = true then u.restartDivider (x.1 / 8) (x.1 % 8) else u) s

/-! ### FIFOs and program writes (R271 to R273) -/

/-- Both FIFOs are emptied (R272). -/
def State.clearFifos (s : State) (sec e : Nat) : State :=
  let v := s.stencil sec e
  (s.setStencil sec e { v with tx := [], rx := [] }).raiseIf (decide (v.tx ≠ [])) (stenPage sec e) 1

/-- A write of 1 to `STEN_CMD.CLR_FIFO` (R272). -/
def execStenClrFifo (ag : Agent) (sec : Slice) (e : Fin 8) (s : State) : Host.Outcome State Fault Refusal :=
  .next (s.writeBy ag (stenPage sec e) 0x118 (fun u => u.clearFifos sec e))

/-- A word is pushed onto the TX FIFO, or dropped (R271). -/
def State.pushTx (s : State) (sec e : Nat) (w : BitVec 32) : State :=
  let v := s.stencil sec e
  if v.tx.length < 8 then s.setStencil sec e { v with tx := v.tx ++ [w] }
  else (s.mark (stenPage sec e) STEN_FLAGS.TX_OVER).raise (stenPage sec e) 3

/-- A write to `STEN_TXF` takes effect (R271). -/
def execStenTxfWrite (sec : Slice) (e : Fin 8) (word : BitVec 32) (s : State) : Host.Outcome State Fault Refusal :=
  .next (if s.present sec then s.pushTx sec e word else s)

/-- A read of `STEN_RXF`: the word returned, `WORD` being free when the FIFO is empty (R275; assumption 51). -/
def State.rxWord (s : State) (sec e : Nat) : Word × State :=
  match (s.stencil sec e).rx with
  | [] => ((s.fresh).1 &&& 0xFFFFFFFF, (s.fresh).2)
  | w :: _ => (BitVec.ofNat 64 (2 ^ 32 + w.toNat), s)

/-- A read of `STEN_RXF` pops (R271). -/
def State.popRx (s : State) (sec e : Nat) : State :=
  let v := s.stencil sec e
  match v.rx with
  | [] => (s.mark (stenPage sec e) STEN_FLAGS.RX_UNDER).raise (stenPage sec e) 3
  | _ :: rest => s.setStencil sec e { v with rx := rest }

/-- A read of `STEN_RXF`; Easel's pops nothing (R363). -/
def execStenRxfRead (ag : Agent) (sec : Slice) (e : Fin 8) (s : State) : Host.Outcome State Fault Refusal :=
  .next (if agentPanel ag ≠ none ∧ s.present sec then s.popRx sec e else s)

/-- A write to a row takes effect: at once on a stopped engine, pending on a running one (R273). -/
def State.putRow (s : State) (sec e r : Nat) (w : Word) : State :=
  let v := s.stencil sec e
  if v.running then s.setStencil sec e { v with rows := v.rows ++ [(r, w)] }
  else s.setReg (stenPage sec e) (0x200 + 8 * r) w

/-- A row holds a condition or an operation that is a host error (R270). -/
def rowIllegal (w : Word) : Bool := decide (20 < rowBits w 52 48) || decide (rowBits w 2 0 = 7)

/-- A write of a row takes effect. -/
def execStenRowWrite (sec : Slice) (e : Fin 8) (r : Fin 32) (data : Word) (s : State) :
    Host.Outcome State Fault Refusal :=
  let s1 := s.putRow sec e r data
  .next (if s.present sec = false then s else if rowIllegal data then s1.err (stenPage sec e) else s1)

/-- `STEN_STATE` as a read returns it (R275). -/
def State.stenStateWord (s : State) (sec e : Nat) : Word :=
  let v := s.stencil sec e
  BitVec.ofNat 64 (v.outs.toNat * 2 ^ 56 + v.st.toNat * 2 ^ 48 + v.row % 32 * 2 ^ 40 + v.scnt % 64 * 2 ^ 32
    + (decide (v.rows ≠ [])).toNat * 2 ^ 22 + v.stalled.toNat * 2 ^ 21 + v.running.toNat * 2 ^ 20
    + v.tx.length % 16 * 2 ^ 12 + v.rx.length % 16 * 2 ^ 8)

/-- The stencil pins as the engines drive them for the next edge (R269). -/
def State.padsNow (s : State) (sec : Nat) : Pads :=
  (List.range 16).foldl (fun x i =>
    match s.padDrive sec i with
    | none => x
    | some b => ⟨BitVec.ofNat 16 (putBit x.drives.toNat i true), BitVec.ofNat 16 (putBit x.levels.toNat i b)⟩) ⟨0, 0⟩

/-- A tick ends before a stencil-clock edge: the synchronisers have sampled the pins (R269). -/
def State.tickPads (s : State) : State :=
  if s.ticks % 4 ≠ 3 then s
  else (s.stencils.map (fun x => x.1 / 8)).dedup.foldl (fun u sec =>
    let l := (u.padsNow sec :: Store.read [] u.pads sec).take 3
    { u with pads := Store.write [] u.pads sec (if l.all (fun x => decide (x = ⟨0, 0⟩)) then [] else l) }) s

/-- The engine's page is at an update point (R42, R272). -/
def State.stenPoint (s : State) (sec e : Nat) : Bool :=
  let v := s.stencil sec e
  !v.running || decide (v.entry = s.ticks)

end Sys2Proof.Machine
end

