-- ==== Sys2Proof/Machine/Intent.lean ====
section
/-! DEFINITION. The intent block (R282 to R292): the port stage, the block stage, the writes to loop slots, silence and
quarantine. -/

namespace Sys2Proof.Machine

open Sys2Proof

/-! ### Partner entries (R293) -/

/-- A field of partner `i`: configuration, and status. -/
def State.pcfg (s : State) (p i : Nat) (f : Fld) : Nat := s.fld (intnPage p) (f.at (32 * i))
def State.pstat (s : State) (p i : Nat) (f : Fld) : Nat := s.fld (intnPage p) (f.at (16 * i))
def State.setPstat (s : State) (p i : Nat) (f : Fld) (v : Nat) : State := s.setFld (intnPage p) (f.at (16 * i)) v

def State.partnerValid (s : State) (p i : Nat) : Bool := s.pcfg p i INTN_PCFG.VALID != 0
def State.absent (s : State) (p i : Nat) : Bool := s.pstat p i INTN_PSTAT.ABSENT != 0
def State.contribution (s : State) (p i : Nat) : Int := signed 32 (s.pstat p i INTN_PCONTRIB.AMP)

/-- The valid entry that holds an SCI. -/
def State.partnerOf (s : State) (p : Nat) (sci : Word) : Option Nat :=
  (List.range 64).find? (fun i => s.partnerValid p i && decide (s.reg (intnPage p) (0x400 + 32 * i) = sci))

/-- The partners of a channel. -/
def State.partners (s : State) (p c : Nat) : List Nat :=
  (List.range 64).filter (fun i => s.partnerValid p i && decide (s.pcfg p i INTN_PCFG.CHANNEL = c))

/-! ### Channels (R287, R294) -/

def State.chan (s : State) (p c : Nat) (f : Fld) : Nat := s.fld (intnChannelPage p) (f.at (8 * c))
def State.setChan (s : State) (p c : Nat) (f : Fld) (v : Nat) : State :=
  s.setFld (intnChannelPage p) (f.at (8 * c)) v

/-- A channel's sum is formed again (R287). -/
def State.formSum (s : State) (p c : Nat) : State :=
  s.setChan p c INTN_CSUM.SUM (unsign 64 (((s.partners p c).map (s.contribution p)).sum))

/-- The value of a target: the sum times its gain, rounded and clamped (R287). -/
def targetValue (sum gain : Int) : Int := clampInt ((sum * gain + 128) / 256) (-2 ^ 31) (2 ^ 31 - 1)

/-- Targets of a channel: slot page and gain. -/
def State.targets (s : State) (p c : Nat) : List (Nat × Int) :=
  (List.range (min 8 (s.chan p c INTN_CCFG.TARGETS))).map (fun k =>
    let f (x : Fld) := s.fld (intnChannelPage p) (x.at (64 * c + 8 * k))
    (loopPage (f INTN_TGT.SECTOR) (f INTN_TGT.SLOT), signed 32 (f INTN_TGT.GAIN)))

/-- The channel as a writer. -/
def intentAgent (p c : Nat) : Agent := .intent (Fin.ofNat 8 p) (Fin.ofNat 32 c)

/-- The block will issue these writes (R287, R289). -/
def State.queueWrites (s : State) (p : Nat) (l : List IntentWrite) : State :=
  s.setIntent p { s.intent p with out := (s.intent p).out ++ l }

/-- The writes whose tick has come are issued, in their order. -/
def State.issueWrites (s : State) (p : Nat) : State :=
  let now (x : IntentWrite) : Bool := decide (x.tick ≤ s.ticks)
  let l := (s.intent p).out
  if l.any now = false then s
  else
    (l.filter now).foldl (fun u x => u.issue p (intentAgent p x.channel) x.page x.off x.data (some x.due) 0)
      (s.setIntent p { s.intent p with out := l.filter (fun x => !now x) })

/-- One timed write of the feedforward for each target, issued at a tick (R287). -/
def State.issueSum (s : State) (p c due tick : Nat) : State :=
  let sum := signed 64 (s.chan p c INTN_CSUM.SUM)
  (s.queueWrites p ((s.targets p c).map (fun x =>
    ⟨tick, c, x.1, 0x120, BitVec.ofNat 64 (unsign 32 (targetValue sum x.2)), due⟩))).issueWrites p

/-- One timed write that starts decay for each target (R289). -/
def State.issueDecay (s : State) (p c due : Nat) : State :=
  (s.queueWrites p ((s.targets p c).map (fun x => ⟨s.ticks, c, x.1, 0x128, 1, due⟩))).issueWrites p

/-! ### Absence and quarantine (R288 to R290) -/

/-- A partner becomes absent now (R289). -/
def State.makeAbsent (s : State) (p i : Nat) : State :=
  if s.absent p i then s
  else
    let c := s.pcfg p i INTN_PCFG.CHANNEL
    let due := s.canvas + 64
    let s1 := (s.setPstat p i INTN_PCONTRIB.AMP 0).setPstat p i INTN_PSTAT.ABSENT 1
    let s2 := s1.setBudget p i { s1.budget p i with lastDue := none }
    let s3 := ((s2.formSum p c).setChan p c INTN_CDUE.LAST_DUE due).raise (intnPage p) 1
    if s3.chan p c INTN_CCFG.DECAY = 1 ∧ (s3.partners p c).all (fun j => s3.absent p j) = true then
      s3.issueDecay p c due
    else s3.issueSum p c due s3.ticks

/-- A partner is quarantined (R290). -/
def State.quarantine (s : State) (p i : Nat) : State :=
  ((s.mark (intnPage p) (INTN_PSTAT.QUAR.at (16 * i))).makeAbsent p i).raise (intnPage p) 0

/-! ### The port stage (R285) -/

/-- A count of dropped frames. -/
def State.dropIntent (s : State) (p : Nat) (f : Fld) : State := (s.count (intnPage p) f 1).raise (intnPage p) 4

/-- A frame with an SCI that no valid entry holds. -/
def State.dropUnknown (s : State) (p : Nat) (sci : Word) : State :=
  (s.setReg (intnPage p) 0x110 sci).dropIntent p INTN_DROP.UNKNOWN

/-- The intent block and the ports of a panel work: its island runs and it is in no reset (R292). -/
def State.portsRun (s : State) (p : Nat) : Bool :=
  s.islandRuns p && !(s.panel p).held && (s.panel p).resetting.isNone && decide (s.boot = .done)

/-- A token is taken, the last check is made, and the message is queued. -/
def State.queueIntent (s : State) (p i : Nat) (m : IntentMessage) : State :=
  let b := s.budget p i
  let s1 := s.setBudget p i { b with spent := b.spent + 1, since := if b.spent = 0 then s.ticks else b.since }
  let q := s1.intent p
  if 8 ≤ q.queue.length then s1.dropIntent p INTN_DROP.BACKLOG
  else s1.setIntent p { q with queue := q.queue ++ [m] }

/-- The port stage of an intent frame (R282, R285). -/
def State.portStage (s : State) (p port : Nat) (sci : Option Word) (body : List Byte) : State :=
  match sci with
  | none => s.dropIntent p INTN_DROP.UNSECURED
  | some x =>
    let s0 := s.count (ethPage p port) ETH_RX_FRAMES.COUNT 1
    match s.partnerOf p x with
    | none => s0.dropUnknown p x
    | some i =>
      if s.pstat p i INTN_PSTAT.QUAR = 1 then s0.dropIntent p INTN_DROP.QUARANTINED
      else if s.pcfg p i INTN_PCFG.BURST ≤ (s.budget p i).spent then
        ((s0.count (intnPage p) (INTN_PCONTRIB.REJECTS.at (16 * i)) 1).setPstat p i INTN_PSTAT.LAST_REJECT 1).quarantine
          p i
      else s0.queueIntent p i ⟨x, body, s.canvas, s.ticks⟩

/-- An intent frame completes on a port (R285): one of port 1 comes after any of port 0 that completes at the same
tick, so it waits for the end of the tick. -/
def State.intentArrives (s : State) (p port : Nat) (sci : Option Word) (body : List Byte) : State :=
  if port = 0 then s.portStage p 0 sci body
  else s.setIntent p { s.intent p with later := (s.intent p).later ++ [(sci, body)] }

/-- A rate budget gains a token (R285). -/
def execTokenRefill (p : Slice) (i : Fin 64) (s : State) : Host.Outcome State Fault Refusal :=
  let b := s.budget p i
  let rate := s.pcfg p i INTN_PCFG.RATE
  .next (if b.spent = 0 ∨ s.ticks < b.since + rate then s
    else s.setBudget p i { b with spent := b.spent - 1, since := b.since + rate })

/-! ### The block stage (R283, R284, R286, R287) -/

/-- A big-endian field of a message. -/
def bigEndian (l : List Byte) : Nat := l.foldl (fun a b => a * 256 + b.toNat) 0

def fieldOf (l : List Byte) (first n : Nat) : Nat := bigEndian ((l.drop first).take n)

/-- The due time in canvas ticks (R284). -/
def State.intentDue (s : State) (p i : Nat) (body : List Byte) : Int :=
  let d := fieldOf body 6 8
  if s.pcfg p i INTN_PCFG.TIME = 0 then (d : Int)
  else ((d * 5 / 4 : Nat) : Int) - s.sfld canvPage CANV_PTP_OFFSET.OFFSET

/-- The amplitude of a message. -/
def amplitude (body : List Byte) : Int := signed 32 (fieldOf body 14 4)

/-- The format check (R286). -/
def State.badFormat (s : State) (p i : Nat) (body : List Byte) : Bool :=
  let flags := fieldOf body 1 1
  decide (body.length < 20) || decide (fieldOf body 0 1 ≠ 1) || decide (2 ≤ flags) || decide (fieldOf body 18 2 ≠ 0)
    || (decide (flags = 1) && decide (amplitude body ≠ 0))
    || (decide (s.pcfg p i INTN_PCFG.TIME = 0) && decide (2 ^ 62 ≤ fieldOf body 6 8))

/-- The step of a sequence number past the last accepted one. -/
def State.sequenceStep (s : State) (p i : Nat) (body : List Byte) : Nat :=
  (fieldOf body 2 4 + 2 ^ 32 - s.pstat p i INTN_PSTAT.SEQ) % 2 ^ 32

/-- The envelope check (R286). -/
def State.outsideEnvelope (s : State) (p i : Nat) (body : List Byte) : Bool :=
  let a := amplitude body
  decide (fieldOf body 1 1 % 2 = 0) &&
    (decide (a < signed 32 (s.pcfg p i INTN_PENV.AMP_MIN)) || decide (signed 32 (s.pcfg p i INTN_PENV.AMP_MAX) < a)
      || decide (s.pcfg p i INTN_PLIM.STEP_MAX < (a - s.contribution p i).natAbs))

/-- The block checks in order: 0, or the code of the first that fails (R286). -/
def State.intentCode (s : State) (p i : Nat) (m : IntentMessage) : Nat :=
  let d := s.intentDue p i m.body
  let step := s.sequenceStep p i m.body
  if s.badFormat p i m.body then 2
  else if s.pcfg p i INTN_PCFG.TIME = 1 ∧ s.fld canvPage CANV_DISC.SOURCE ≠ 2 then 8
  else if d < m.arrival then 3
  else if ((m.arrival + 16 * s.pcfg p i INTN_PCFG.FRESH_MAX : Nat) : Int) < d then 4
  else if s.pstat p i INTN_PSTAT.SEEN = 1 ∧ (step = 0 ∨ 2 ^ 31 ≤ step) then 5
  else if s.outsideEnvelope p i m.body then 6
  else if d < s.chan p (s.pcfg p i INTN_PCFG.CHANNEL) INTN_CDUE.LAST_DUE then 7
  else 0

/-- A message is rejected (R286, R290). -/
def State.rejectIntent (s : State) (p i code : Nat) : State :=
  let s1 := (s.count (intnPage p) (INTN_PCONTRIB.REJECTS.at (16 * i)) 1).count (intnPage p)
    (INTN_PSTAT.FAULTS.at (16 * i)) 1
  let s2 := (s1.setPstat p i INTN_PSTAT.LAST_REJECT code).raise (intnPage p) 3
  let limit := s.pcfg p i INTN_PCFG.FAULT_LIMIT
  if limit ≠ 0 ∧ limit ≤ s2.pstat p i INTN_PSTAT.FAULTS then s2.quarantine p i else s2

/-- A message is accepted (R286, R287, R289); its writes go out 320 ticks after the frame's last byte, so that one due
earlier than their arrival is late whenever it was taken (R23; assumption 84). -/
def State.acceptIntent (s : State) (p i : Nat) (m : IntentMessage) : State :=
  let c := s.pcfg p i INTN_PCFG.CHANNEL
  let d := (s.intentDue p i m.body).toNat
  let skip := decide (s.pstat p i INTN_PSTAT.SEEN = 1) && decide (s.sequenceStep p i m.body ≠ 1)
  let amp := if fieldOf m.body 1 1 % 2 = 1 then 0 else amplitude m.body
  let s1 := if skip then (s.count (intnPage p) (INTN_PSTAT.GAPS.at (16 * i)) 1).raise (intnPage p) 5 else s
  let s2 := (((s1.setPstat p i INTN_PSTAT.FAULTS 0).setPstat p i INTN_PCONTRIB.AMP (unsign 32 amp)).setPstat
    p i INTN_PSTAT.SEQ (fieldOf m.body 2 4)).setPstat p i INTN_PSTAT.SEEN 1
  let s3 := if s.absent p i then (s2.setPstat p i INTN_PSTAT.ABSENT 0).raise (intnPage p) 2 else s2
  let s4 := s3.setBudget p i { s3.budget p i with lastDue := some d }
  ((s4.formSum p c).setChan p c INTN_CDUE.LAST_DUE d).issueSum p c d (m.ready + 320)

/-- A queued message is taken: the checks on the entries as they now stand (R286, R291). -/
def State.takeIntent (s : State) (p : Nat) (m : IntentMessage) : State :=
  match s.partnerOf p m.sci with
  | none => s.dropIntent p INTN_DROP.UNKNOWN
  | some i =>
    if s.pstat p i INTN_PSTAT.QUAR = 1 then s.dropIntent p INTN_DROP.QUARANTINED
    else if s.intentCode p i m = 0 then s.acceptIntent p i m
    else s.rejectIntent p i (s.intentCode p i m)

/-- The message that the block may take now: one every 32 ticks (R286). -/
def State.nextIntent (s : State) (p : Nat) : Option IntentMessage :=
  let q := s.intent p
  let ready := match q.taken with
    | none => true
    | some t => decide (t + 32 ≤ s.ticks)
  if ready = false ∨ s.portsRun p = false then none else q.queue.head?

/-- The block takes the message at the head of its queue. -/
def State.takeNext (s : State) (p : Nat) (m : IntentMessage) : State :=
  (s.setIntent p { s.intent p with queue := (s.intent p).queue.tail, taken := some s.ticks }).takeIntent p m

/-- The block takes a queued message (R286). -/
def execIntentMessageTaken (p : Slice) (s : State) : Host.Outcome State Fault Refusal :=
  .next (match s.nextIntent p with
    | none => s
    | some m => s.takeNext p m)

/-- The frames that port 1 has completed in this tick pass the port stage (R285). -/
def State.laterFrames (s : State) (p : Nat) : State :=
  (s.intent p).later.foldl (fun u x => u.portStage p 1 x.1 x.2) (s.setIntent p { s.intent p with later := [] })

/-- A message that has waited 32 ticks and may be taken is taken with the tick: eight wait at most, so that every one is
taken within the bound of R23 (assumption 84). -/
def State.tickIntent (s : State) (p : Nat) : State :=
  let s0 := s.issueWrites p
  let s1 := if (s0.intent p).later = [] then s0 else s0.laterFrames p
  match s1.nextIntent p with
  | some m => if m.ready + 32 ≤ s1.ticks then s1.takeNext p m else s1
  | none => s1

/-- A partner's silence tick (R288): a message of it that the block may take at that tick counts first. -/
def execPartnerSilence (p : Slice) (i : Fin 64) (s : State) : Host.Outcome State Fault Refusal :=
  let n := s.pcfg p i INTN_PLIM.SILENCE
  let s1 := match s.nextIntent p with
    | some m => if s.partnerOf p m.sci = some i.val then s.takeNext p m else s
    | none => s
  .next (match (s.budget p i).lastDue with
    | none => s
    | some d =>
      if n = 0 ∨ s.canvas < d + 64 * n ∨ s.portsRun p = false then s
      else match (s1.budget p i).lastDue with
        | none => s1
        | some d1 => if s1.canvas < d1 + 64 * n then s1 else s1.makeAbsent p i)

/-! ### Writes of the partner page (R290, R291, R293) -/

/-- A write of 1 to `QUAR` (R290). -/
def State.clearQuar (s : State) (p i : Nat) : State :=
  if s.pstat p i INTN_PSTAT.QUAR = 0 ∨ s.markedNow (intnPage p) (INTN_PSTAT.QUAR.at (16 * i)) = true then s
  else
    ((s.setPstat p i INTN_PSTAT.QUAR 0).setPstat p i INTN_PSTAT.FAULTS 0).setBudget p i
      { s.budget p i with spent := 0 }

def execQuarClear (ag : Agent) (p : Slice) (i : Fin 64) (s : State) : Host.Outcome State Fault Refusal :=
  .next (s.writeBy ag (intnPage p) (0xC00 + 16 * i.val) (fun u => u.clearQuar p i))

/-- `VALID` of a partner entry changes (R291). -/
def State.setValid (s : State) (p i : Nat) (valid : Bool) : State :=
  let was := s.partnerValid p i
  let s1 := s.setFld (intnPage p) (INTN_PCFG.VALID.at (32 * i)) valid.toNat
  if was = true ∧ valid = false then s1.makeAbsent p i
  else if was = false ∧ valid = true then
    (((s1.setPstat p i INTN_PSTAT.ABSENT 1).setPstat p i INTN_PSTAT.SEEN 0).setPstat
      p i INTN_PCONTRIB.AMP 0).setBudget p i {}
  else s1

def execPartnerValidChange (ag : Agent) (p : Slice) (i : Fin 64) (valid : Bool) (s : State) :
    Host.Outcome State Fault Refusal :=
  .next (s.writeBy ag (intnPage p) (0x408 + 32 * i.val) (fun u => u.setValid p i valid))

/-- A write of 1 to `INTN_CLR.CLR` (R293). -/
def State.clearIntent (s : State) (p : Nat) : State :=
  (List.range 64).foldl (fun u i =>
    (u.setPstat p i INTN_PCONTRIB.REJECTS 0).setPstat p i INTN_PSTAT.GAPS 0) (s.setReg (intnPage p) 0x108 0)

def execIntnClr (ag : Agent) (p : Slice) (s : State) : Host.Outcome State Fault Refusal :=
  .next (s.writeBy ag (intnPage p) 0x118 (fun u => u.clearIntent p))

end Sys2Proof.Machine
end

