-- ==== Sys2Proof/Machine/Eth.lean ====
section
/-! DEFINITION. The Ethernet ports (R278 to R281, R296, R297): links, the receive and transmit rings, gates,
preemption, security associations, the 802.1AS instance, and the fabric page (R381). -/

namespace Sys2Proof.Machine

open Sys2Proof

/-! ### The 802.1AS instance (R279, R297) -/

/-- The instance after a write of `ETH_PTP` or a change of the link: a master runs while the link is up, a slave has to
be synchronised anew, and its intervals begin. -/
def State.settlePtp (s : State) (p n : Nat) (newRole : Bool) : State :=
  let pk := ethPage p n
  let up := s.flag pk ETH_STATUS.LINK
  let role := s.fld pk ETH_PTP.ROLE
  (s.setPort p n { s.port p n with syncAt := s.ticks, pdelayAt := s.ticks }).setPtpSync p n (up && (decide (role = 1) ||
    (decide (role = 2) && !newRole && s.flag pk ETH_STATUS.PTP_SYNC)))

/-- The link delay that a port allows for, with its asymmetry, in 64ths of a tick (R296; assumption 107). -/
def State.linkDelay (s : State) (pk : Nat) : Int :=
  ((s.fld pk ETH_PTP_DELAY.MEAN : Int) + s.sfld pk ETH_PTP.ASYM) * 2 / 25

/-- The instance that `CANV_DISC` selects (R31, R34). -/
def State.disciplines (s : State) (p n : Nat) : Bool :=
  decide (s.fld canvPage CANV_DISC.SOURCE = 2) && decide (s.fld canvPage CANV_DISC.PTP_PANEL = p)
    && decide (s.fld canvPage CANV_DISC.PTP_PORT = n)

/-- A sync message is received on a port (R31, R279): a slave is synchronised, and the instance that `CANV_DISC`
selects gives a measurement. `ns` is the time at which the message was sent, by the master's clock. -/
def execPtpSyncMessage (p : Slice) (port : Fin 2) (ns : Word) (sub : Fin 64) (s : State) :
    Host.Outcome State Fault Refusal :=
  let pk := ethPage p port
  .next (if s.portsRun p = false ∨ s.flag pk ETH_STATUS.LINK = false ∨ s.fld pk ETH_PTP.ROLE ≠ 2 then s
    else
      let s1 := (s.setPtpSync p port true).setPort p port { s.port p port with clock := ns.toNat, missed := 0, syncAt := s.ticks }
      if s.disciplines p port then
        s1.measure (((s.canvas * 64 + sub.val : Nat) : Int)
          - ((ns.toNat * 80 : Nat) + s.linkDelay pk - 64 * s.sfld canvPage CANV_PTP_OFFSET.OFFSET))
      else s1)

/-- Ticks of 2^`k` seconds, for `k` from −7 to 3. -/
def intervalTicks (k : Int) : Nat := 9765625 * 2 ^ (max (-7) (min k 3) + 7).toNat

/-- A sync interval of a slave has passed without a message; after three the source is lost (R34; assumption 107). -/
def State.missSync (s : State) (p n : Nat) : State :=
  let v := s.port p n
  let s1 := s.setPort p n { v with missed := v.missed + 1 }
  if v.missed + 1 < 3 then s1
  else (if s.disciplines p n then s1.loseSource else s1).setPtpSync p n false

/-- An interval of the instance expires, `LOG_SYNC` or `LOG_PDELAY` long: a master sends Sync, and either role a
Pdelay_Req (R296). -/
def execPtpIntervalExpiry (p : Slice) (n : Fin 2) (pdelay : Bool) (s : State) : Host.Outcome State Fault Refusal :=
  let pk := ethPage p n
  let role := s.fld pk ETH_PTP.ROLE
  let v := s.port p n
  let due := if pdelay then v.pdelayAt + intervalTicks (s.sfld pk ETH_PTP.LOG_PDELAY)
    else v.syncAt + intervalTicks (s.sfld pk ETH_PTP.LOG_SYNC)
  .next (if s.portsRun p = false ∨ s.flag pk ETH_STATUS.LINK = false ∨ s.ticks < due then s
    else if pdelay then
      (if role = 0 then s else s.setPort p n { v with pdelays := v.pdelays + 1, pdelayAt := s.ticks })
    else if role = 1 then s.setPort p n { v with syncs := v.syncs + 1, syncAt := s.ticks }
    else if role = 2 then (s.setPort p n { v with syncAt := s.ticks }).missSync p n
    else s)

/-- A Pdelay response completes a measurement of the link delay, in ps (R296). -/
def execPdelayResponse (p : Slice) (n : Fin 2) (ps : BitVec 64) (s : State) : Host.Outcome State Fault Refusal :=
  let pk := ethPage p n
  .next (if s.portsRun p = false ∨ s.flag pk ETH_STATUS.LINK = false ∨ s.fld pk ETH_PTP.ROLE = 0 then s
    else s.setFld pk ETH_PTP_DELAY.MEAN (min ps.toNat (2 ^ 32 - 1)))

/-! ### What is sent next (R280) -/

/-- The gate of a class is open. -/
def State.gateOpen (s : State) (p n cls : Nat) : Bool :=
  let pk := ethPage p n
  !s.flag pk ETH_GCL_CFG.GATE_EN || decide (s.fld pk ETH_GCL_CFG.OPER_LEN = 0)
    || bit (s.fld pk (ETH_GCL_OPER.GATES.at (8 * (s.port p n).gatePos))) cls

/-- A class is express: preemption is not in force, or the class is not preemptable (R280). -/
def State.express (s : State) (p n cls : Nat) : Bool :=
  let pk := ethPage p n
  !s.flag pk ETH_PREEMPT.ACTIVE || !bit (s.fld pk ETH_PREEMPT.PREEMPTABLE) cls

/-- The oldest of the queued frames of the highest class whose gate is open, of the express or of the preemptable ones
(assumption 53). -/
def State.firstFrame (s : State) (p n : Nat) (express : Bool) : Option TxFrame :=
  (s.port p n).txq.foldl (fun b f =>
    if s.gateOpen p n f.cls = false ∨ s.express p n f.cls ≠ express then b
    else match b with
      | none => some f
      | some g => if g.cls < f.cls then some f else some g) none

/-- What is sent next: an express frame, else the rest of a preempted one, else a preemptable frame (R280). -/
def State.pickFrame (s : State) (p n : Nat) : Option (TxFrame × Option Sent) :=
  match s.firstFrame p n true, (s.port p n).cut with
  | some f, _ => some (f, none)
  | none, some x => if s.gateOpen p n x.frame.cls then some (x.frame, some x) else none
  | none, none => (s.firstFrame p n false).map (fun f => (f, none))

/-- The frame that the port takes next (R280). -/
def State.nextUp (s : State) (p n : Nat) : Option TxFrame := (s.pickFrame p n).map Prod.fst

/-- An idle port begins to send the frame that is next. -/
def State.takeWire (s : State) (p n : Nat) : State :=
  let v := s.port p n
  if v.onWire.isSome ∨ s.portsRun p = false ∨ s.flag (ethPage p n) ETH_STATUS.LINK = false then s
  else s.setPort p n { v with onWire := s.nextUp p n }

/-! ### Links and preemption (R278, R280, R297) -/

/-- Preemption after a change of its configuration or of the link (R280): verification runs first where it is
enabled. -/
def State.settlePreempt (s : State) (p n : Nat) : State :=
  let pk := ethPage p n
  if s.flag pk ETH_PREEMPT.EN = false ∨ s.flag pk ETH_STATUS.LINK = false then
    (s.setFld pk ETH_PREEMPT.VERIFY 0).setFld pk ETH_PREEMPT.ACTIVE 0
  else if s.flag pk ETH_PREEMPT.VERIFY_EN = false then
    (s.setFld pk ETH_PREEMPT.VERIFY 0).setFld pk ETH_PREEMPT.ACTIVE 1
  else if s.fld pk ETH_PREEMPT.VERIFY = 0 then (s.setFld pk ETH_PREEMPT.VERIFY 1).setFld pk ETH_PREEMPT.ACTIVE 0
  else s

/-- Preemption verification ends (R280). -/
def execPreemptVerifyDone (p : Slice) (n : Fin 2) (ok : Bool) (s : State) : Host.Outcome State Fault Refusal :=
  let pk := ethPage p n
  .next (if s.fld pk ETH_PREEMPT.VERIFY ≠ 1 then s
    else (s.setFld pk ETH_PREEMPT.VERIFY (if ok then 2 else 3)).setFld pk ETH_PREEMPT.ACTIVE ok.toNat)

/-- What the port shows of its link, with the events of its changes. -/
def State.showLink (s : State) (p n : Nat) (up anDone : Bool) (speed fec : Nat) : State :=
  let pk := ethPage p n
  let was := s.flag pk ETH_STATUS.LINK
  let wasDone := s.flag pk ETH_STATUS.AN_DONE
  let s1 := (((s.setFld pk ETH_STATUS.LINK up.toNat).setFld pk ETH_STATUS.AN_DONE anDone.toNat).setFld
    pk ETH_STATUS.SPEED_NOW speed).setFld pk ETH_STATUS.FEC_NOW fec
  let s2 := s1.raiseIf (was != up || (anDone && !wasDone)) pk 0
  let s3 := if up then s2 else s2.setPort p n { s2.port p n with
      cut := none
      onWire := none }
  ((s3.settlePtp p n false).settlePreempt p n).takeWire p n

/-- A change of the link's configuration takes it down (R297). -/
def State.linkDown (s : State) (p n : Nat) : State :=
  s.showLink p n false false (s.fld (ethPage p n) ETH_STATUS.SPEED_NOW) (s.fld (ethPage p n) ETH_STATUS.FEC_NOW)

/-- The speed that autonegotiation chooses (R278, R296): the highest that both ends advertise. -/
def State.agreedSpeed (s : State) (pk : Nat) (link : LinkState) : Option Nat :=
  let own := s.fld pk ETH_CFG.SPEED_ADV
  if bit own 1 && link.speeds.getLsbD 1 then some 1
  else if bit own 0 && link.speeds.getLsbD 0 then some 0
  else none

/-- The FEC that autonegotiation chooses at a speed (R278, R296; assumption 108): at 25 Gbit/s what either end requests,
clause 108 before clause 74; at 10 Gbit/s clause 74 where both ends offer it. -/
def State.agreedFec (s : State) (pk speed : Nat) (link : LinkState) : Nat :=
  let own := s.fld pk ETH_CFG.FEC_ADV
  if speed = 1 then (if bit own 1 || link.fecRs then 2 else (bit own 0 || link.fec74).toNat)
  else (bit own 0 && link.fec74).toNat

/-- A link comes up or goes down, or autonegotiation completes (R297). -/
def execLinkStateChange (p : Slice) (n : Fin 2) (link : LinkState) (s : State) : Host.Outcome State Fault Refusal :=
  let pk := ethPage p n
  let on := s.flag pk ETH_CFG.EN
  .next (if s.portsRun p = false then s
    else if s.flag pk ETH_CFG.AN_EN = false then
      s.showLink p n (on && link.up) false (s.fld pk ETH_CFG.FORCE_SPEED) (s.fld pk ETH_CFG.FORCE_FEC)
    else
      match s.agreedSpeed pk link with
      | none => s.showLink p n false false (s.fld pk ETH_STATUS.SPEED_NOW) (s.fld pk ETH_STATUS.FEC_NOW)
      | some v => s.showLink p n (on && link.up) (on && link.anDone) v (s.agreedFec pk v link))

/-- A FEC block ends on a port whose link runs with FEC: whether it was corrected, and whether it was lost, is free
(R296, R298; assumption 82). -/
def State.fecBlock (s : State) (p n : Nat) : State :=
  let pk := ethPage p n
  if s.flag pk ETH_STATUS.LINK = false ∨ s.fld pk ETH_STATUS.FEC_NOW = 0 then s
  else
    let (x, s1) := s.fresh
    let s2 := if x.getLsbD 0 then s1.count pk ETH_FEC.CORR 1 else s1
    if x.getLsbD 1 then (s2.count pk ETH_FEC.UNCORR 1).raise pk 1 else s2

/-- FEC blocks that end in a tick. -/
def State.tickFec (s : State) : State := s.slices.foldl (fun u p => (u.fecBlock p 0).fecBlock p 1) s

/-! ### Rings (R297) -/

/-- Eight bytes, least significant first, as a number; bytes beyond the end are zero. -/
def leBytes (l : List Byte) : Nat := (l.take 8).foldr (fun b n => b.toNat + 256 * n) 0

/-- Bytes packed little-endian into words, padded with zero bytes. -/
def packBytes (l : List Byte) : List TWord :=
  (List.range ((l.length + 7) / 8)).map (fun i => raw (BitVec.ofNat 64 (leBytes (l.drop (8 * i)))))

/-- The fabric's port at a scratch bank (R218). -/
def fabricPort : Nat := 6

/-- A memory word of a ring, where its address leads to one, and how it is reached. -/
def State.ringWord (s : State) (p addr : Nat) : Option (Nat × Path) :=
  match s.panelSpot p addr with
  | .mem q a path => if q = p ∧ ¬ (0x1C0000 ≤ addr ∧ addr < 0x200000) then some (a, path) else none
  | _ => none

/-- Words of a record, with their addresses in the ring. -/
def ringPlaces (base size head : Nat) (words : List TWord) : List (Nat × TWord) :=
  words.zipIdx.map (fun x => (base + (head + 8 * x.2) % size, x.1))

/-- Length of a frame on the wire: FCS, and with a SecTAG the tag, its SCI and the ICV (assumption 52). -/
def wireLength (f : RxFrame) : Nat :=
  f.bytes.length + 4 + (match f.tag with
    | some t => if t.carried then 32 else 24
    | none => 0)

/-- The octet at which the EtherType of a frame begins, after any VLAN tag, and the priority that the tag gives (R278,
R282). -/
def typeAt (l : List Byte) : Nat × Nat := if fieldOf l 12 2 = 0x8100 then (16, fieldOf l 14 1 / 32) else (12, 0)

def etherType (l : List Byte) : Nat := fieldOf l (typeAt l).1 2

/-- The traffic class of a frame (R296). -/
def State.classOfFrame (s : State) (pk : Nat) (l : List Byte) : Nat := s.fld pk (let k := 4 * (typeAt l).2; ⟨0x118, k + 2, k⟩)

/-- The record of a frame (R297). -/
def recordOf (bytes : List Byte) (cls : Nat) (channel : Option Nat) (arrival : Nat) : List TWord :=
  let chan := match channel with
    | some c => 2 ^ 19 + c * 2 ^ 20
    | none => 0
  raw (BitVec.ofNat 64 (bytes.length % 2 ^ 14 + cls * 2 ^ 16 + chan)) :: raw (BitVec.ofNat 64 arrival) :: packBytes bytes

/-- The thread to which frames of a port are keyed. -/
def State.frameThread (s : State) (p n : Nat) : Nat :=
  s.fld (jrnlPage p) (if n = 0 then JRNL_CFG.RX_THREAD0 else JRNL_CFG.RX_THREAD1)

/-- A frame for firmware finds room in the journal, if it needs any (R308). -/
def State.frameRoom (s : State) (p n words : Nat) : Bool :=
  !s.journaled p (s.frameThread p n) || (decide ((s.journal p).late = []) && s.ringRoom p words)

/-- Words that the entries of a frame take in the journal: `FRAME`, and a `DATA` entry for each run of words written
into the regions (R299, R304). -/
def State.frameWords (s : State) (p : Nat) (written : List (Nat × TWord)) : Nat :=
  2 + ((runs (written.filter (fun x => (s.region p x.1).isSome))).map (fun r => 2 + r.2.length)).sum

/-- Words written to a ring through the fabric port, each with the port of another write to it; a lost one is a
collision (R221). The state after, and the words written. -/
def State.putRing (s : State) (p : Nat) : List (Nat × TWord) → List (Option (Fin 7)) → State × List (Nat × TWord)
  | [], _ => (s, [])
  | (a, w) :: rest, rivals =>
    let rival := match rivals.headD none with
      | some x => if x.val < fabricPort then some x.val else none
      | none => none
    match s.ringWord p a, rival with
    | some (b, .bank), some x => State.putRing (s.noteCollision p x fabricPort b) p rest (rivals.drop 1)
    | some (b, _), _ =>
      let r := State.putRing (s.putMem p b w) p rest (rivals.drop 1)
      (r.1, (a, w) :: r.2)
    | none, _ => State.putRing s p rest (rivals.drop 1)

/-- The record is written and the head passes it (R297, R299, R304). -/
def State.putRecord (s : State) (p n len : Nat) (places : List (Nat × TWord)) (rivals : List (Option (Fin 7)))
    (head : Nat) : State :=
  let pk := ethPage p n
  let r := s.putRing p places rivals
  let s2 := ((r.1.setFld pk ETH_RX_HEAD.OFFSET head).count pk ETH_RX_FRAMES.COUNT 1).raise pk 6
  let t := s.frameThread p n
  let s3 := s2.noteEntry p t FRAME [raw (BitVec.ofNat 64 (n * 2 ^ 63 + len % 2 ^ 14))]
  s3.noteData p t r.2

/-- A frame that passes the checks goes to the receive ring, or is dropped for want of space (R297, R308). -/
def State.fileFrame (s : State) (p n : Nat) (f : RxFrame) (channel : Option Nat) (arrival : Nat) : State :=
  let pk := ethPage p n
  let size := s.fld pk ETH_RX_SIZE.SIZE * 128
  let head := s.fld pk ETH_RX_HEAD.OFFSET
  let tail := s.fld pk ETH_RX_TAIL.OFFSET
  let words := recordOf f.bytes (s.classOfFrame pk f.bytes) channel arrival
  let free := (if head < tail then tail - head else size - (head - tail)) - 8
  let places := ringPlaces (s.fld pk ETH_RX_BASE.ADDR * 128) size head words
  if s.flag pk ETH_RX_BASE.EN = false ∨ free < 8 * words.length
      ∨ places.all (fun x => (s.ringWord p x.1).isSome) = false then s.count pk ETH_RX_DROPS.NOBUF 1
  else
    let need := s.frameWords p (s.putRing p places f.rivals).2
    if s.frameRoom p n need = false then (s.count pk ETH_RX_DROPS.NOBUF 1).stall p (16 + n) (.ring need)
    else (s.unstall p (16 + n)).putRecord p n f.bytes.length places f.rivals ((head + 8 * words.length) % size)

/-- The receive ring lies in DRAM that is being initialised: its writes wait (R235). -/
def State.ringWaits (s : State) (p n : Nat) : Bool :=
  let pk := ethPage p n
  let size := s.fld pk ETH_RX_SIZE.SIZE * 128
  s.flag pk ETH_RX_BASE.EN && decide (size ≠ 0)
    && decide (s.panelSpot p (s.fld pk ETH_RX_BASE.ADDR * 128 + s.fld pk ETH_RX_HEAD.OFFSET % size) = .busy)

/-- A frame for firmware has arrived: it waits behind those that wait for the ring. -/
def State.deliverFrame (s : State) (p n : Nat) (f : RxFrame) (channel : Option Nat) : State :=
  let v := s.port p n
  if s.ringWaits p n ∨ v.held ≠ [] then s.setPort p n { v with held := v.held ++ [(f, channel, s.canvas)] }
  else s.fileFrame p n f channel s.canvas

/-- Frames that have waited are written once their ring answers. -/
def State.tickHeld (s : State) (p n : Nat) : State :=
  let v := s.port p n
  if v.held = [] ∨ s.ringWaits p n = true then s
  else v.held.foldl (fun u x => u.fileFrame p n x.1 x.2.1 x.2.2) (s.setPort p n { v with held := [] })

/-! ### The SecY on receipt (R281, R296, R298; assumption 106) -/

/-- The packet-number limit of the cipher suite. -/
def State.pnLimit (s : State) (p n : Nat) : Nat :=
  if s.flag (ethPage p n) ETH_SECY_CFG.XPN then 2 ^ 64 else 2 ^ 32

/-- The receive channel in use that holds an SCI. -/
def State.rxChannel (s : State) (p n : Nat) (sci : Word) : Option Nat :=
  let pk := ethPage p n
  (List.range 64).find? (fun j => s.flag pk (ETH_RXSC_CFG.EN.at (16 * j)) && decide (s.reg pk (0xC00 + 16 * j) = sci))

/-- The receive association that a frame names, where its channel accepts frames under it. -/
def State.rxSa (s : State) (p n j an : Nat) : Option Association :=
  if bit (s.fld (ethPage p n) (ETH_RXSC_CFG.SA_EN.at (16 * j))) an then
    (s.port p n).associations.find? (fun a => !a.transmit && decide (a.channel = j) && decide (a.an = an))
  else none

/-- The packet number of a frame: with extended numbering, its high half is recovered from the lowest acceptable one. -/
def fullPn (extended : Bool) (lowest : Word) (pn : BitVec 32) : Nat :=
  let high := lowest.toNat / 2 ^ 32
  if extended then (high + (lowest.getLsbD 31 && !pn.getLsbD 31).toNat) * 2 ^ 32 + pn.toNat else pn.toNat

/-- A verified packet number moves the window of its association. -/
def Association.verified (a : Association) (pn window : Nat) : Association :=
  let next := max a.next.toNat (min (pn + 1) (2 ^ 64 - 1))
  { a with
    next := BitVec.ofNat 64 next
    pn := BitVec.ofNat 64 (max a.pn.toNat (next - window)) }

/-- A frame fails a check of the SecY. -/
def State.dropSecy (s : State) (p n : Nat) (f : Fld) : State := (s.count (ethPage p n) f 1).raise (ethPage p n) 3

/-- What the SecY makes of a frame: dropped, or delivered by a verifying channel or by none. -/
inductive Secy where
  | drops (s : State)
  | passes (channel : Option Nat) (s : State)

/-- A failed check drops the frame if frames are validated strictly or it cannot be read; else it passes unverified. -/
def secyFails (strict : Bool) (s : State) : Secy := if strict then .drops s else .passes none s

/-- A frame under an association: replay, integrity, and the window (R281, R298). -/
def State.verifyFrame (s : State) (p n j : Nat) (t : RxTag) (a : Association) (strict : Bool) : Secy :=
  let pk := ethPage p n
  let pn := fullPn (s.flag pk ETH_SECY_CFG.XPN) a.pn t.pn
  if s.flag pk ETH_SECY_CFG.REPLAY = true ∧ pn < a.pn.toNat then .drops (s.dropSecy p n ETH_SECY_DROPS.REPLAY)
  else if t.icv = false then secyFails strict (s.dropSecy p n ETH_SECY_DROPS.ICV)
  else
    let b := a.verified pn (s.fld pk ETH_SECY_CFG.WINDOW)
    let v := s.port p n
    let near := s.pnLimit p n - 2 ^ 30
    .passes (some j) ((s.setPort p n { v with
      associations := v.associations.map (fun x => if x = a then b else x) }).raiseIf
        (decide (a.next.toNat < near) && decide (near ≤ b.next.toNat)) pk 4)

/-- The checks of the SecY. -/
def State.secy (s : State) (p n : Nat) (f : RxFrame) : Secy :=
  let mode := s.fld (ethPage p n) ETH_SECY_CFG.VALIDATE
  match f.tag with
  | none => .passes none s
  | some t =>
    let strict := decide (mode = 2) || t.encrypted
    if t.wellFormed = false then .drops (s.dropSecy p n ETH_SECY_DROPS.OTHER)
    else if mode = 0 then (if t.encrypted then .drops (s.dropSecy p n ETH_SECY_DROPS.OTHER) else .passes none s)
    else match s.rxChannel p n t.sci with
      | none => secyFails strict (s.dropSecy p n ETH_SECY_DROPS.NOSCI)
      | some j =>
        match s.rxSa p n j t.an with
        | none => secyFails strict (s.dropSecy p n ETH_SECY_DROPS.OTHER)
        | some a => s.verifyFrame p n j t a strict

/-- A frame is an intent frame (R282). -/
def State.isIntent (s : State) (p n : Nat) (f : RxFrame) : Bool :=
  decide (etherType f.bytes = s.fld (intnPage p) INTN_CFG.ETHERTYPE) && bit (s.fld (intnPage p) INTN_CFG.PORT_EN) n

/-- A frame that the SecY has let through goes to the intent path or to the ring (R282, R297). -/
def State.passFrame (s : State) (p n : Nat) (f : RxFrame) (channel : Option Nat) : State :=
  if s.isIntent p n f then
    s.intentArrives p n (channel.bind (fun _ => f.tag.map (fun t => t.sci))) (f.bytes.drop ((typeAt f.bytes).1 + 2))
  else s.deliverFrame p n f channel

/-- A received frame (R278, R281, R282, R297). -/
def State.receive (s : State) (p n : Nat) (f : RxFrame) : State :=
  let pk := ethPage p n
  if s.portsRun p = false ∨ s.flag pk ETH_STATUS.LINK = false then s
  else if f.fcs = false then s.count pk ETH_RX_DROPS.FCS 1
  else if wireLength f < 64 ∨ 9216 < wireLength f then s.count pk ETH_RX_DROPS.LENGTH 1
  else if f.tag = none ∧ etherType f.bytes = 0x8808 then (s.count pk ETH_RX_DROPS.CONTROL 1).raise pk 7
  else match s.secy p n f with
    | .drops u => u
    | .passes channel u => u.passFrame p n f channel

/-- A received frame (R297). -/
def execRxFrame (p : Slice) (n : Fin 2) (frame : RxFrame) (s : State) : Host.Outcome State Fault Refusal :=
  .next (s.receive p n frame)

/-- The last byte of an intent frame with a good FCS has arrived (R282, R285): whether it is one is for its bytes to
say. -/
def execIntentFrameReceived (p : Slice) (port : Fin 2) (tag : Option RxTag) (bytes : List Byte) (s : State) :
    Host.Outcome State Fault Refusal :=
  .next (s.receive p port ⟨bytes, true, tag, []⟩)

/-! ### The transmit ring (R297) -/

/-- The address of an offset in the transmit ring. -/
def State.txAddr (s : State) (p n off : Nat) : Nat :=
  let pk := ethPage p n
  s.fld pk ETH_TX_BASE.ADDR * 128 + off % (s.fld pk ETH_TX_SIZE.SIZE * 128)

/-- A word's bytes, least significant first. -/
def bytesOf (w : Word) : List Byte := (List.range 8).map (fun i => BitVec.ofNat 8 (w.toNat / 256 ^ i))

/-- Words of the transmit ring, read through the fabric port (R218): `none` is one that answers with an error (R223,
R225, R228). -/
def State.txWords (s : State) (p n : Nat) : List Nat → List (Option Word) × State
  | [] => ([], s)
  | off :: rest =>
    match (if 0x1C0000 ≤ s.txAddr p n off ∧ s.txAddr p n off < 0x200000 then .fails 1 s
      else s.wordBy p fabricPort (s.txAddr p n off)) with
    | .word w u => let r := State.txWords u p n rest; (some (payload w) :: r.1, r.2)
    | .fails _ u => let r := State.txWords u p n rest; (none :: r.1, r.2)
    | .waits => let r := State.txWords s p n rest; (none :: r.1, r.2)

/-- Offsets of the words of a record whose header lies at one. -/
def recordOffsets (head words : Nat) : List Nat := (List.range words).map (fun i => head + 8 + 8 * i)

/-- The port has read the header of the next transmit record (R297); one that has answered with an error has a free
length. A record of which a word cannot be read is skipped as one whose length lies outside its range (assumption 109). -/
def State.readRecord (s : State) (p n : Nat) (h : Option Word) : State :=
  let pk := ethPage p n
  let size := s.fld pk ETH_TX_SIZE.SIZE * 128
  let head := s.fld pk ETH_TX_HEAD.OFFSET
  let (w, s0) := match h with
    | some w => (w, s)
    | none => s.fresh
  let len := bits w 13 0
  let words := (len + 7) / 8
  let s1 := s0.setFld pk ETH_TX_HEAD.OFFSET ((head + 8 + 8 * words) % size)
  if h = none ∨ len < 60 ∨ 9180 < len then s1.count pk ETH_TX_BAD.COUNT 1
  else
    let r := s1.txWords p n (recordOffsets head words)
    if r.1.contains none then r.2.count pk ETH_TX_BAD.COUNT 1
    else
      let v := r.2.port p n
      r.2.setPort p n { v with
        txq := v.txq ++ [⟨bits w 18 16, bit w.toNat 20, ((r.1.map (fun x => bytesOf (x.getD 0))).flatten).take len⟩] }

/-- A record waits while a word of it is being wiped or initialised (R225, R235). -/
def State.recordWaits (s : State) (p n : Nat) : Bool :=
  let head := s.fld (ethPage p n) ETH_TX_HEAD.OFFSET
  decide (s.panelSpot p (s.txAddr p n head) = .busy) ||
    (match (s.txWords p n [head]).1 with
     | [some w] => (recordOffsets head ((bits w 13 0 + 7) / 8)).any (fun o => decide (s.panelSpot p (s.txAddr p n o) = .busy))
     | _ => false)

/-- The next transmit record is read (R297). -/
def execTxRecord (p : Slice) (n : Fin 2) (s : State) : Host.Outcome State Fault Refusal :=
  let pk := ethPage p n
  .next (if s.portsRun p = true ∧ s.flag pk ETH_TX_BASE.EN = true ∧ s.flag pk ETH_CFG.EN = true
      ∧ s.flag pk ETH_STATUS.LINK = true ∧ 0 < s.fld pk ETH_TX_SIZE.SIZE
      ∧ s.fld pk ETH_TX_HEAD.OFFSET ≠ s.fld pk ETH_TX_TAIL.OFFSET ∧ s.recordWaits p n = false then
      let r := s.txWords p n [s.fld pk ETH_TX_HEAD.OFFSET]
      (r.2.readRecord p n (r.1.headD none)).takeWire p n
    else s)

/-! ### Transmission: gates, classes, protection (R280, R281, R297) -/

/-- What the port is sending, or begins to send. -/
def State.nextFrame (s : State) (p n : Nat) : Option (TxFrame × Option Sent) :=
  let v := s.port p n
  match v.onWire with
  | none => s.pickFrame p n
  | some f => some (f, v.cut.filter (fun x => decide (x.frame = f)))

/-- The transmit association in use. -/
def State.txSa (s : State) (p n : Nat) : Option Association :=
  let pk := ethPage p n
  if s.flag pk ETH_SECY_CFG.TX_EN then
    (s.port p n).associations.find? (fun a => a.transmit && decide (a.an = s.fld pk ETH_SECY_CFG.TX_AN))
  else none

/-- Octets of a frame on the wire, from its destination address: SecTAG, SCI and ICV of a protected one, and FCS. -/
def frameOctets (f : TxFrame) (tag : Option TxTag) : Nat := f.bytes.length + 4 + (if tag.isSome then 32 else 0)

/-- A frame begins to leave the port, protected under an association or as it is: its SecTAG, and the association's next
packet number (R297, R298). -/
def State.tagFrame (s : State) (p n : Nat) (sa : Option Association) : Option TxTag × State :=
  let pk := ethPage p n
  match sa with
  | none => (none, s)
  | some a =>
    let v := s.port p n
    (some ⟨s.reg pk 0x150, a.an, a.pn⟩, (s.setPort p n { v with
      associations := v.associations.map (fun x => if x = a then { x with pn := x.pn + 1 } else x) }).raiseIf
        (decide (a.pn.toNat + 1 = s.pnLimit p n - 2 ^ 30)) pk 4)

/-- Where a preemptable frame is cut for an express one that waits (R280; assumption 110): each fragment carries at least
64 octets for each unit of `ADD_FRAG` and one more, its own check value among them, and the last at least 64. -/
def State.mayCut (s : State) (p n : Nat) (f : TxFrame) (total first at_ : Nat) : Bool :=
  !s.express p n f.cls && (s.firstFrame p n true).isSome && decide (first < at_)
    && decide (64 * (1 + s.fld (ethPage p n) ETH_PREEMPT.ADD_FRAG) ≤ at_ - first + 4) && decide (at_ + 64 ≤ total)

/-- A frame leaves the port, whole, as the rest of one that was preempted, or up to an octet where it is preempted. -/
def State.sendFrame (s : State) (p n : Nat) (f : TxFrame) (tag : Option TxTag) (first cut : Nat) : State :=
  let pk := ethPage p n
  let v := s.port p n
  let total := frameOctets f tag
  let queue := if first = 0 then v.txq.erase f else v.txq
  if s.mayCut p n f total first cut then
    s.setPort p n { v with
      txq := queue
      onWire := none
      sent := some ⟨f, tag, first, cut⟩
      cut := some ⟨f, tag, first, cut⟩ }
  else
    (s.setPort p n { v with
      txq := queue
      onWire := none
      sent := some ⟨f, tag, first, total⟩
      cut := if first = 0 then v.cut else none }).count pk ETH_TX_FRAMES.COUNT 1

/-- A queued frame is transmitted, or the part of a preemptable one before an octet at which an express frame preempts
it. The port has begun it when it last fell idle, so that an express frame may have come since; one that needs protection
waits for an association with a packet number left (R280, R297). -/
def execTxFrameSent (p : Slice) (n : Fin 2) (s : State) (cut : Nat := 0) : Host.Outcome State Fault Refusal :=
  let pk := ethPage p n
  .next (if s.portsRun p = false ∨ s.flag pk ETH_STATUS.LINK = false then s
    else
      match s.nextFrame p n with
      | none => s
      | some (f, some x) => (s.sendFrame p n f x.tag x.upto cut).takeWire p n
      | some (f, none) =>
        if s.flag pk ETH_SECY_CFG.PROTECT = false ∨ f.clear = true then (s.sendFrame p n f none 0 cut).takeWire p n
        else
          match s.txSa p n with
          | none => s
          | some a =>
            if s.pnLimit p n ≤ a.pn.toNat + 1 then s
            else
              let r := s.tagFrame p n (some a)
              (r.2.sendFrame p n f r.1 0 cut).takeWire p n)

/-- A write of 1 to `ETH_GCL_CFG.CHANGE` (R297). -/
def State.requestGates (s : State) (p n : Nat) : State :=
  let pk := ethPage p n
  let len := s.fld pk ETH_GCL_CFG.ADMIN_LEN
  let cycle := s.fld pk ETH_GCL_CYCLE.ADMIN
  if len = 0 ∨ 128 < len ∨ cycle < 1000 ∨ 1000000000 < cycle then s.err pk
  else s.setFld pk ETH_GCL_CFG.PENDING 1

def execGclChange (ag : Agent) (p : Slice) (n : Fin 2) (s : State) : Host.Outcome State Fault Refusal :=
  .next (s.writeBy ag (ethPage p n) 0x120 (fun u => u.requestGates p n))

/-- The administrative list becomes operational at an instant of the instance's gPTP time (R297). -/
def State.applyGates (s : State) (p n gptp : Nat) : State :=
  let pk := ethPage p n
  let len := s.fld pk ETH_GCL_CFG.ADMIN_LEN
  let s1 := (List.range len).foldl (fun u i => u.setReg pk (0x800 + 8 * i) (u.reg pk (0x400 + 8 * i))) s
  let s2 := ((s1.setFld pk ETH_GCL_CFG.OPER_LEN len).setFld pk ETH_GCL_CYCLE.OPER
    (s.fld pk ETH_GCL_CYCLE.ADMIN)).setReg pk 0x138 (s.reg pk 0x130)
  let s3 := s2.setPort p n { s2.port p n with
    gatePos := 0
    cycleStart := gptp
    clock := gptp }
  ((s3.setFld pk ETH_GCL_CFG.PENDING 0).raise pk 5).takeWire p n

/-- An instant is that of a change (R297): a whole number of administrative cycles from the base, not before it, and the
first such at or after the end of the operational cycle in progress (assumption 111). -/
def State.changeInstant (s : State) (p n gptp : Nat) : Bool :=
  let pk := ethPage p n
  let v := s.port p n
  let base := (s.reg pk 0x130).toNat
  let cycle := s.fld pk ETH_GCL_CYCLE.ADMIN
  let running := decide (s.fld pk ETH_GCL_CFG.OPER_LEN ≠ 0)
  let from_ := max v.clock (if running then v.cycleStart + s.fld pk ETH_GCL_CYCLE.OPER else 0)
  decide (base ≤ gptp) && decide ((gptp - base) % cycle = 0) && decide (from_ ≤ gptp)
    && (!running || decide (gptp < from_ + cycle) || decide (gptp = base))

/-- A change takes place (R297). -/
def execGclChangeApplied (p : Slice) (n : Fin 2) (gptp : Word) (s : State) : Host.Outcome State Fault Refusal :=
  .next (if s.portsRun p = true ∧ s.flag (ethPage p n) ETH_GCL_CFG.PENDING = true ∧ s.changeInstant p n gptp.toNat = true then
      s.applyGates p n gptp.toNat
    else s)

/-- Nanoseconds of the operational cycle up to the end of an entry: the list is cut at the end of the cycle, or its last
entry extended to it (R297). -/
def State.gateSpan (s : State) (p n pos : Nat) : Nat :=
  let pk := ethPage p n
  let spent := ((List.range (pos + 1)).map (fun i => s.fld pk (ETH_GCL_OPER.INTERVAL.at (8 * i)))).sum
  if s.fld pk ETH_GCL_CFG.OPER_LEN ≤ pos + 1 then s.fld pk ETH_GCL_CYCLE.OPER else min spent (s.fld pk ETH_GCL_CYCLE.OPER)

/-- The entry in force ends at a gPTP time, and the next begins; after the last a new cycle does. -/
def State.nextGate (s : State) (p n gptp : Nat) : State :=
  let cycle := s.fld (ethPage p n) ETH_GCL_CYCLE.OPER
  let v := s.port p n
  let wraps := decide (s.gateSpan p n v.gatePos = cycle)
  s.setPort p n { v with
    clock := gptp
    gatePos := if wraps then 0 else v.gatePos + 1
    cycleStart := if wraps then v.cycleStart + cycle else v.cycleStart }

/-- A gate-list entry's interval expires, at its end in the instance's gPTP time (R280). -/
def execGateEntryExpiry (p : Slice) (n : Fin 2) (s : State) (gptp : Word := 0) : Host.Outcome State Fault Refusal :=
  let v := s.port p n
  .next (if s.portsRun p = true ∧ s.fld (ethPage p n) ETH_GCL_CFG.OPER_LEN ≠ 0
      ∧ gptp.toNat = v.cycleStart + s.gateSpan p n v.gatePos then (s.nextGate p n gptp.toNat).takeWire p n
    else s)

/-! ### Security associations (R281, R297) -/

/-- A secure write of 1 to `ETH_SA_LOAD.GO` (R297). -/
def execSaLoadGo (ag : Agent) (p : Slice) (n : Fin 2) (s : State) : Host.Outcome State Fault Refusal :=
  .next (s.writeBy ag (ethPage p n) 0x158 (fun u =>
    if u.secure ag then u.setFld (ethPage p n) ETH_SA_LOAD.BUSY 1 else u))

/-- A word with its bytes in reverse order. -/
def reverseBytes (w : Word) : Word := BitVec.ofNat 64 (bigEndian (bytesOf w))

/-- A load completes: the record is installed, or `ERROR` is set (R297). -/
def State.loadSa (s : State) (p n : Nat) : State :=
  let pk := ethPage p n
  let a := 0x1C0000 + s.fld pk ETH_SA_LOAD.RECORD * 64
  let s1 := s.setFld pk ETH_SA_LOAD.BUSY 0
  if s.bankOn p 7 = false then s1.mark pk ETH_SA_LOAD.ERROR
  else match (List.range 8).find? (fun i => s.bad p (a + 8 * i)) with
  | some i => (s1.noteLostWord p fabricPort p (a + 8 * i) (a + 8 * i) .bank).mark pk ETH_SA_LOAD.ERROR
  | none =>
    let record := (List.range 8).map (fun i => payload (s.word p (a + 8 * i)))
    let tx := s.flag pk ETH_SA_LOAD.DIR
    let ch := if tx then 0 else s.fld pk ETH_SA_LOAD.CHANNEL
    let an := s.fld pk ETH_SA_LOAD.AN
    let s2 := s1.correct p 0 0 fabricPort (wordKeys p a 8)
    let v := s2.port p n
    let first := reverseBytes (record.getD 6 0)
    let others := v.associations.filter (fun x => !(x.transmit == tx && decide (x.channel = ch) && decide (x.an = an)))
    s2.setPort p n { v with associations := ⟨tx, ch, an, record, first, first⟩ :: others }

/-- An SA load completes; it waits while bank 7 is being wiped (R225, R297). -/
def execSaLoadDone (p : Slice) (n : Fin 2) (s : State) : Host.Outcome State Fault Refusal :=
  .next (if s.flag (ethPage p n) ETH_SA_LOAD.BUSY = false ∨ (s.panel p).wipeBank7 = true then s else s.loadSa p n)

/-- `ETH_TX_PN` as a read returns it (R296). -/
def State.txPn (s : State) (p n : Nat) : Word :=
  match s.txSa p n with
  | some a => a.pn
  | none => 0

/-- A write of 1 to `ETH_CLR.CLR` (R296). -/
def State.clearEth (s : State) (p n : Nat) : State :=
  ([0x168, 0x170, 0x178, 0x180, 0x188, 0x1D8] : List Nat).foldl (fun u off => u.setReg (ethPage p n) off 0) s

def execEthClr (ag : Agent) (p : Slice) (n : Fin 2) (s : State) : Host.Outcome State Fault Refusal :=
  .next (s.writeBy ag (ethPage p n) 0x1D0 (fun u => u.clearEth p n))

/-! ### The fabric page (R381, R382) -/

/-- A write of 1 to `FAB_CLR.CLR` (R381). -/
def State.clearFabric (s : State) (p : Nat) : State :=
  ([0x100, 0x110, 0x118] : List Nat).foldl (fun u off => u.setReg (fabPage p) off 0) s

def execFabClr (ag : Agent) (p : Slice) (s : State) : Host.Outcome State Fault Refusal :=
  .next (s.writeBy ag (fabPage p) 0x120 (fun u => u.clearFabric p))

/-- A flit still fails after its resend: 0 the vertical, 1 the partner, 2 the package link (R308, R381). -/
def execFabricLinkError (p : Slice) (link : Fin 3) (s : State) : Host.Outcome State Fault Refusal :=
  let pk := fabPage p
  let s1 := (s.markBit pk ⟨0x108, 2, 0⟩ link.val).raise pk (1 + link.val)
  .next (if s.present p = false then s else if link.val = 1 then s1.stopMirror p else s1)

end Sys2Proof.Machine
end

