-- ==== Sys2Proof/Machine/Jrnl.lean ====
section
/-! DEFINITION. Epochs and checkpoints of the pentimento journal (R303 to R308, R321): boundaries, what a checkpoint
holds, its close, and the start of journaling. -/

namespace Sys2Proof.Machine

open Sys2Proof

/-! ### Checkpoints (R306) -/

/-- The run state of word 13. -/
def runCode (th : Thread) : Nat :=
  if th.run = .stopped then 2 else if th.park = some .wfe then 1 else 0

/-- A renamed entry in a checkpoint; what the word of a pending one holds is free. -/
def slotWord (free : Nat) : Slot → TWord
  | .word w => w
  | .pending _ => tword (Config.freeValue free).toNat (Config.freeValue (free + 1))

def Slot.isPending : Slot → Bool
  | .word _ => false
  | .pending _ => true

/-- A list held to a length, filled with a word. -/
def filled (n : Nat) (w : TWord) (l : List TWord) : List TWord := (l ++ List.replicate n w).take n

/-- Word 13 of a checkpoint. -/
def runWord (c : Checkpoint) : Word :=
  let pend := (c.state.stack.zipIdx.map (fun x => if x.1.isPending then 2 ^ x.2 else 0)).sum
  BitVec.ofNat 64 (runCode c.state * 2 ^ 56 + c.state.stack.length % 32 * 2 ^ 48 + c.prio.length % 32 * 2 ^ 40
    + pend % 2 ^ 16)

/-- The 47 payload words of a `CKPT` entry (R306). -/
def ckptWords (free : Nat) (c : Checkpoint) : List TWord :=
  let th := c.state
  [raw th.retired, raw (BitVec.ofNat 64 (th.pc % 2 ^ 48)), raw th.status, raw th.osp, raw th.osLo, raw th.osHi,
    raw th.csp, raw th.csLo, raw th.csHi, raw th.vbase, raw th.fsp, raw th.flags, raw (runWord c)]
  ++ filled 16 voidWord (th.stack.zipIdx.map (fun x => slotWord (free + 2 * x.2) x.1))
  ++ filled 16 (raw 0) (c.prio.reverse.map (fun x => raw (BitVec.ofNat 64 (x.prio * 2 ^ 16 + x.value % 2048))))
  ++ [raw th.imprecise, raw (BitVec.ofNat 64 th.double.toNat)]

/-- A thread's checkpoint. -/
def State.checkpoint (s : State) (p t : Nat) : Checkpoint :=
  ⟨t, s.thread p t, (s.core p (t / 4)).prio.filter (fun x => decide (x.thread = t))⟩

/-- The `CKPT` entry of a checkpoint. -/
def State.putCheckpoint (s : State) (p : Nat) (c : Checkpoint) : State :=
  { s.addEntry p ⟨CKPT, c.thread, c.state.retired.toNat, ckptWords s.free c⟩ with free := s.free + 32 }

/-! ### Boundaries (R305) -/

/-- A boundary that is not taken, or a checkpoint that closes late (R305, R307). -/
def State.countLate (s : State) (p : Nat) : State :=
  let pk := jrnlPage p
  ((s.mark pk JRNL_STATUS.CLOSE_LATE).count pk JRNL_COUNTS.LATE 1).raise pk 0

/-- A planned handover meets its boundary: the check, and the journaled threads stop (R317). Where the check passes but the
panel's journaling is off, so that no checkpoint is taken that could close, the handover waits for a boundary with one
(assumption 132). -/
def State.planBoundary (s : State) (p : Nat) : State :=
  let h := s.handover p
  match h.plannedAt with
  | none => s
  | some t =>
    if s.canvas < t then s
    else
      let reason := s.handoverCheck p
      if reason = 0 ∧ s.flag (jrnlPage p) JRNL_STATUS.ACTIVE = false then s
      else if reason = 0 then
        let go := (s.journaledThreads p).filter (fun u => decide ((s.thread p u).run = .running))
        let s1 := go.foldl (fun u i => u.setThread p i { u.thread p i with run := .stopped }) s
        s1.setHandover p { h with plannedAt := none, planning := true, stopped := go }
      else s.refusePlan p p reason 0

/-- A boundary is taken: the `EPOCH` entry, then a checkpoint of each journaled thread, and the next epoch is open
(R305, R306). Its entries wait for room in the rings (R308). -/
def State.takeBoundary (s : State) (p : Nat) : State :=
  let pk := jrnlPage p
  let j := s.journal p
  let mask := s.fld pk JRNL_CFG.THREADS
  let threads := maskThreads mask
  let words := 2 + 48 * threads.length
  let s0 := if j.starting then
    s.setJournal p { j with
      entries := []
      held := []
      stalls := []
      late := []
      emptied := false
      starting := false }
    else s
  if s.unavailable (partner p) then (s.stopMirror p).planBoundary p
  else if s0.ringRoom p words = false then s.stall p 18 (.ring words)
  else
    let next := j.epoch + 1
    let s1 := ((s0.unstall p 18).setJournal p { (s0.unstall p 18).journal p with
      epoch := next, threads := mask, epochLen := s.fld pk JRNL_CFG.EPOCH }).setFld pk JRNL_STATUS.ACTIVE 1
    let s2 := s1.addEntry p ⟨EPOCH, 0, next, [raw (BitVec.ofNat 64 (s.canvas % 2 ^ 62))]⟩
    let ckpts := threads.map (s.checkpoint p)
    let s3 := ckpts.foldl (fun u c => u.putCheckpoint p c) s2
    let s4 := s3.setJournal p { s3.journal p with openAt := some s.canvas, openCkpt := ckpts }
    ((s4.setFld pk JRNL_STATUS.EPOCH (next % 2 ^ 32)).setFld pk JRNL_STATUS.CLOSING 1).planBoundary p

/-- A boundary falls (R305): it is not taken while a checkpoint is open. -/
def State.boundary (s : State) (p : Nat) : State :=
  if (s.journal p).openAt.isSome then s.countLate p else s.takeBoundary p

/-- The tick lies on the grid of boundaries: the epoch length is the one in use since the last boundary. -/
def State.onGrid (s : State) (p : Nat) : Bool :=
  let j := s.journal p
  let len := if j.starting ∨ j.epochLen = 0 ∨ s.flag (jrnlPage p) JRNL_STATUS.ACTIVE = false then s.fld (jrnlPage p) JRNL_CFG.EPOCH else j.epochLen
  decide (0 < len) && decide (s.canvas % (len * 1250) = 0)

/-- The open epoch is to close early: the holding buffer or the ring is 7/8 full. -/
def State.closesEarly (s : State) (p : Nat) : Bool :=
  let j := s.journal p
  decide (s.fld (jrnlPage p) JRNL_HOLD_SIZE.SIZE * 128 * 7 ≤ 128 * heldLines j.held j.epoch * 8) ||
    decide (s.ringSize p * 7 ≤ entryBytes j.entries * 8)

/-- The adopted threads of a slice, as partner threads. -/
def State.adoptedThreads (s : State) (sl : Nat) : List Nat :=
  (List.range 16).filter (fun t => (s.thread (partner sl) t).adopted.isSome)

/-- The grid boundary at which a slice begins to return: the adopted threads stop (R318). -/
def State.beginReturn (s : State) (sl : Nat) : State :=
  let q := partner sl
  let go := (s.adoptedThreads sl).filter (fun t => decide ((s.thread q t).run = .running))
  let s1 := go.foldl (fun u t => u.setThread q t { u.thread q t with run := .stopped }) s
  (s1.setHandover sl { s.handover sl with returnAt := none, stopped := go }).setFld (hovrPage sl) HOVR_STATE.STATE 5

/-- An epoch boundary of a panel (R305, R317), or the grid boundary at which its slice begins to return (R318). -/
def execEpochBoundary (p : Slice) (s : State) : Host.Outcome State Fault Refusal :=
  let j := s.journal p
  let on := s.flag (jrnlPage p) JRNL_STATUS.ACTIVE
  .next (if s.mode p = HANDOVER then
      (match (s.handover p).returnAt with
       | some t => if s.onGrid p = true ∧ t ≤ s.canvas then s.beginReturn p else s
       | none => s)
    else if s.mode p = REST ∨ (s.panel p).resetting.isSome = true then s
    else if s.onGrid p = true ∧ (on = true ∨ j.starting = true) then s.boundary p
    else if on = true ∧ s.closesEarly p = true then
      let s1 := s.boundary p
      if (s1.journal p).epoch = j.epoch then s1
      else (s1.count (jrnlPage p) JRNL_COUNTS.EARLY 1).raise (jrnlPage p) 1
    else if on = false ∧ s.onGrid p = true then s.planBoundary p
    else s)

/-! ### Closes (R304, R307) -/

/-- Entries from a boundary's `EPOCH` entry's checkpoints on: what a replay from it consumes. -/
def afterBoundary (epoch : Nat) : List Entry → List Entry
  | [] => []
  | e :: rest =>
    if e.kind = EPOCH ∧ e.key = epoch % 2 ^ 48 then rest.dropWhile (fun x => decide (x.kind = CKPT))
    else afterBoundary epoch rest

/-- The writes of the closing epoch reach the mirror, in order (R304). -/
def State.applyHeld (s : State) (p : Nat) (l : List HeldWrite) : State :=
  l.foldl (fun u h =>
    match u.region p h.addr with
    | some (i, off) => u.putMem (partner p) (u.mirrorAddr p i off) h.word
    | none => u) s

/-- A planned handover whose checkpoint has closed: adoption, and the panel is reset and held (R317). -/
def State.planClosed (s : State) (p : Nat) : State :=
  if (s.handover p).planning then
    let under := s.shownMode p
    let s1 := (s.setFld (hovrPage p) HOVR_STATE.CAUSE 5).setMode p HANDOVER under
    let s2 := (s1.adoptSlice p).setHandover p
      { (s1.adoptSlice p).handover p with planning := false, stopped := [] }
    let s3 := s2.resetPanel p 1
    s3.setPanel p { s3.panel p with held := true, resetting := none }
  else s

/-- A checkpoint closes at the partner (R307). -/
def execCheckpointClose (p : Slice) (s : State) : Host.Outcome State Fault Refusal :=
  let pk := jrnlPage p
  let j := s.journal p
  .next (match j.openAt with
    | none => s
    | some b =>
      if s.flag pk JRNL_STATUS.ACTIVE = false ∨ s.unavailable (partner p) = true then s
      else
        let s1 := s.applyHeld p (j.held.filter (fun h => decide (h.epoch < j.epoch)))
        let s2 := s1.setJournal p { s1.journal p with
          held := j.held.filter (fun h => decide (j.epoch ≤ h.epoch)),
          entries := afterBoundary j.epoch j.entries,
          openAt := none, openCkpt := [], closed := some b, closedCkpt := j.openCkpt }
        let s3 := (s2.setFld pk JRNL_CLOSED.TICK b).setFld pk JRNL_STATUS.CLOSING 0
        let s4 := if b + j.epochLen * 1250 < s.canvas then s3.countLate p else s3
        ((s4.captureLate p (s4.journal p).late.length).settleStalls p).planClosed p)

/-! ### The page (R305, R321) -/

/-- A region's base and size as set, in bytes. -/
def State.regionRange (s : State) (p i : Nat) : Nat × Nat :=
  (s.fld (jrnlPage p) (JRNL_REGION_BASE.LOCAL.at (32 * i)) * 4096,
    s.fld (jrnlPage p) (JRNL_REGION_SIZE.SIZE.at (32 * i)) * 4096)

/-- Regions in use. -/
def State.regionsUsed (s : State) (p : Nat) : List Nat :=
  (List.range 16).filter (fun i => s.flag (jrnlPage p) (JRNL_REGION_BASE.EN.at (32 * i)))

/-- The settings of a journal that are host errors (R321): sizes, regions outside banks 0 to 6 and the own DRAM
window, overlaps. -/
def State.journalBad (s : State) (p : Nat) : Bool :=
  let pk := jrnlPage p
  let used := s.regionsUsed p
  let outsideRange (i : Nat) : Bool :=
    let r := s.regionRange p i
    !(decide (r.1 + r.2 ≤ 0x1C0000) || (decide (dramBase ≤ r.1) && decide (r.1 + r.2 ≤ 2 * dramBase)))
  let overlap (i k : Nat) : Bool :=
    let a := s.regionRange p i
    let b := s.regionRange p k
    decide (i < k) && decide (a.1 < b.1 + b.2) && decide (b.1 < a.1 + a.2)
  decide (s.fld pk JRNL_RING_SIZE.SIZE * 128 < 2 ^ 20) || decide (s.fld pk JRNL_HOLD_SIZE.SIZE * 128 < 2 ^ 20)
    || used.any outsideRange || used.any (fun i => used.any (overlap i))

/-- `JRNL_CFG.EN` is written (R305, R308, R310). -/
def State.setJournalEn (s : State) (p : Nat) (en : Bool) : State :=
  let pk := jrnlPage p
  let was := s.flag pk JRNL_CFG.EN
  let s1 := s.setFld pk JRNL_CFG.EN en.toNat
  if en = was then s1
  else if en then
    let s2 := (s1.setFld pk JRNL_STATUS.LINK_DOWN 0).setJournal p
      { s1.journal p with starting := true, closed := none, closedCkpt := [] }
    if s2.journalBad p then s2.err pk else s2
  else
    (((s1.setFld pk JRNL_STATUS.ACTIVE 0).setFld pk JRNL_STATUS.CLOSING 0).setFld pk JRNL_STATUS.STALLED 0).setJournal p
      { s1.journal p with
        starting := false
        openAt := none
        openCkpt := []
        stalls := []
        late := [] }

/-- A write that changes `JRNL_CFG.EN` (R305). -/
def execJrnlEnable (ag : Agent) (p : Slice) (en : Bool) (s : State) : Host.Outcome State Fault Refusal :=
  .next (s.writeBy ag (jrnlPage p) 0x100 (fun u => u.setJournalEn p en))

/-- `JRNL_CLR` (R321). -/
def State.clearJournal (s : State) (p : Nat) : State :=
  (s.setFld (jrnlPage p) JRNL_COUNTS.EARLY 0).setFld (jrnlPage p) JRNL_COUNTS.LATE 0

def execJrnlClr (ag : Agent) (p : Slice) (s : State) : Host.Outcome State Fault Refusal :=
  .next (s.writeBy ag (jrnlPage p) 0x150 (fun u => u.clearJournal p))

end Sys2Proof.Machine
end

