-- ==== Sys2Proof/Machine/Hovr.lean ====
section
/-! DEFINITION. Handover and replay (R309 to R319, R322): the watchdog, the restore of adopted threads, catching up
and the reissue of held writes, planned handover, release and return. -/

namespace Sys2Proof.Machine

open Sys2Proof

/-! ### The watchdog (R309) -/

/-- A write of 1 to `HOVR_KICK`. -/
def State.kick (s : State) (sl : Nat) : State := s.setHandover sl { s.handover sl with wdogFrom := s.ticks }

def execHovrKick (ag : Agent) (sl : Slice) (s : State) : Host.Outcome State Fault Refusal :=
  .next (s.writeBy ag (hovrPage sl) 0x118 (fun u => u.kick sl))

/-- The watchdog expires: it counts while the slice is neither in `PRIME` nor in `REST` and the panel is not halted. -/
def execWatchdogExpiry (sl : Slice) (s : State) : Host.Outcome State Fault Refusal :=
  let wdog := s.fld (hovrPage sl) HOVR_CFG.WDOG
  .next (if wdog = 0 ∨ s.present sl = false ∨ s.mode sl = PRIME ∨ s.mode sl = REST ∨ s.halted sl = true
      ∨ s.ticks < (s.handover sl).wdogFrom + wdog * 1250 then s
    else s.failPanel sl failWatchdog)

/-! ### Restore (R312) -/

/-- A pending entry is filled from its `LOAD` entry, wherever that lies; without one it stays pending. -/
def State.fillSlot (s : State) (q t : Nat) (x : Slot) : Slot × State :=
  match x with
  | .word w => (.word w, s)
  | .pending id =>
    match (s.replayEntries q t).find? (fun e => decide (e.kind = LOAD) && decide (e.key = id % 2 ^ 48)) with
    | some e => (.word (e.payload.headD voidWord), s.consume q e)
    | none => (.pending id, s)

/-- The renamed entries of a restored thread. -/
def State.fillStack (s : State) (q t : Nat) : List Slot → List Slot × State
  | [] => ([], s)
  | x :: rest =>
    let (y, s1) := s.fillSlot q t x
    let (ys, s2) := State.fillStack s1 q t rest
    (y :: ys, s2)

/-- Whether an entry list still awaits a load. -/
def stillPending (l : List Slot) (id : Nat) : Bool := l.any (fun x => decide (x = .pending id))

/-- A native store that was unanswered at the checkpoint takes its response from the journal. -/
def State.restoreStore (s : State) (q t : Nat) : State :=
  let th := s.thread q t
  if th.stores.any (fun x => x.native) then
    match (s.replayEntries q t).find? (fun e => decide (e.kind = RESP)
        && decide (e.key + 1 = th.retired.toNat % 2 ^ 48)) with
    | some e =>
      let s1 := (s.consume q e).setThread q t { th with stores := [], park := none }
      if payload (e.payload.headD 0) = 1 then s1.setFaultAfter q t BE else s1
    | none => s.setThread q t { th with stores := [], park := none }
  else s.setThread q t { th with stores := [] }

/-- A thread number goes on with the retired state of another; its counts, its predictor and its trace stay its own. -/
def Thread.carry (own th : Thread) : Thread :=
  { own with
    pc := th.pc
    run := th.run
    park := th.park
    hasParked := own.hasParked || th.park.isSome
    fault := th.fault
    yielded := []
    stack := th.stack
    loads := th.loads
    arrived := []
    missing := none
    waitsFor := th.waitsFor
    stores := th.stores
    status := th.status
    osp := th.osp
    osLo := th.osLo
    osHi := th.osHi
    csp := th.csp
    csLo := th.csLo
    csHi := th.csHi
    vbase := th.vbase
    fsp := th.fsp
    flags := th.flags
    imprecise := th.imprecise
    double := th.double
    retired := th.retired
    entryLine := none
    group := none
    stepEnd := none }

/-- Sources that a thread's registers make active reach the controller as they are loaded (R205, R206): those of
`EVC_IMPRECISE` and of `COLL`. -/
def State.resource (s : State) (q t : Nat) (before : State) : State :=
  [480 + t, 496 + t].foldl (fun u x =>
    if u.sourceActive q 0 x && !before.sourceActive q 0 x then u.arrive q 0 x else u) s

/-- One adopted thread is loaded into its mapped thread and begins to replay. One that waited in `WFE` at its checkpoint
goes on if it has entries to consume, and still waits if it has none. -/
def State.restoreThread (s : State) (sl : Nat) (c : Checkpoint) : State :=
  let q := partner sl
  let t := (s.mapEntry sl c.thread).2
  let old := s.thread q t
  let fault := match c.state.fault with
    | some (code, ret, false) => some (code, ret, false)
    | _ => none
  let s1 := s.setThread q t { old.carry c.state with
    park := none
    fault := fault
    adopted := some c.thread
    through := false }
  let (st, s2) := (s1.resource q t s).fillStack q t c.state.stack
  let th := s2.thread q t
  let loads := c.state.loads.filter (fun x => stillPending st x.id)
  let park := if loads.any (fun x => decide (x.id = th.waitsFor)) then some .deviceLoad else none
  let s3 := s2.setThread q t { th with
    stack := st
    loads := loads
    park := park }
  let core := s3.core q (t / 4)
  let s4 := s3.setCore q (t / 4) { core with prio := c.prio.map (fun x => { x with thread := t }) ++ core.prio }
  let s5 := s4.restoreStore q t
  let s6 := s5.replayNotes q t (s5.replayEntries q t).length
  if runCode c.state = 1 ∧ s6.replaying q t = false then s6.parkThread q t .wfe else s6

/-- Each adopted thread is loaded from the last closed checkpoint, and replay begins (R312). -/
def execThreadRestore (sl : Slice) (s : State) : Host.Outcome State Fault Refusal :=
  let h := s.handover sl
  .next (if h.restoring = false ∨ s.unavailable (partner sl) = true then s
    else
      let s1 := (s.journal sl).closedCkpt.foldl (fun u c => u.restoreThread sl c) s
      s1.setHandover sl { s1.handover sl with restoring := false })

/-! ### Catching up (R314) -/

/-- A register whose every held write is kept: it has a WO, W1S or W1C field, or is `STEN_TXF`. -/
def keepsAll (pk off : Nat) : Bool :=
  (fieldsAt pk off).any (fun f => decide (f.acc = .wo) || decide (f.acc = .w1s) || decide (f.acc = .w1c)) ||
    (match blockOf pk with
     | some (.sten, _) => decide (off = STEN_TXF.WORD.off)
     | _ => false)

/-- A register has an RWT field. -/
def timedReg (pk off : Nat) : Bool := (fieldsAt pk off).any (fun f => decide (f.acc = .rwt))

/-- `DUE` of a panel on a page (R40, R41): the due time it gives the next RWT write, and the state after it. -/
def State.dueOf (s : State) (panel pk : Nat) : Option Nat × State :=
  let k := pk * 8 + panel
  let w := Store.read 0 s.dues k
  let tick := bits w 61 0
  if bits w 63 62 = 1 then (some tick, { s with dues := Store.write 0 s.dues k (putBits w 63 62 0) })
  else if bits w 63 62 = 2 then (some tick, s)
  else (none, s)

/-- The due times of held writes, in the order held; a held write of `DUE` arms the failed panel's copy. -/
def State.heldDues (s : State) (sl : Nat) : List HeldDevice → List (HeldDevice × Option Nat) × State
  | [] => ([], s)
  | h :: rest =>
    let (d, s1) := if h.own then (none, s)
      else if h.off = 0x040 then (none, { s with dues := Store.write 0 s.dues (h.page * 8 + sl) h.data })
      else match h.due with
        | some t => (some t, s)
        | none => if timedReg h.page h.off then s.dueOf sl h.page else (none, s)
    let (l, s2) := State.heldDues s1 sl rest
    ((h, d) :: l, s2)

/-- A due time at or after K + 32. -/
def isLater (k : Nat) (d : Option Nat) : Bool :=
  match d with
  | some t => decide (k + 32 ≤ t)
  | none => false

/-- Held writes that are kept: for each register the last of those that keep their due time and the last of the
others, and every one of a register that keeps all (assumption 57). -/
def keptWrites (k : Nat) : List (HeldDevice × Option Nat) → List (HeldDevice × Option Nat)
  | [] => []
  | x :: rest =>
    let later := rest.any (fun y => decide (y.1.page = x.1.page) && decide (y.1.off = x.1.off)
      && (isLater k y.2 == isLater k x.2))
    if later && !keepsAll x.1.page x.1.off then keptWrites k rest else x :: keptWrites k rest

/-- A kept write is issued: with its due time, or without one. -/
def State.reissue (s : State) (sl k : Nat) (x : HeldDevice × Option Nat) : State :=
  let pk := hovrPage sl
  let h := x.1
  let q := partner sl
  let ag : Agent := .thread ⟨Fin.ofNat 8 q, Fin.ofNat 16 (s.mapEntry sl (h.origin % 16)).2⟩
  let put (u : State) (due : Option Nat) : State :=
    let (leaves, v) := u.leavePort q u.ticks
    { v with seq := v.seq + 1,
             flight := v.flight ++
               [⟨ag, h.origin, v.seq, h.page, h.off, h.data, due, leaves, true, 0, due.isNone, false, u.ticks, false⟩] }
  if isLater k x.2 then (put s x.2).count pk HOVR_COUNTS.REISSUED 1
  else
    let s1 := if h.off = 0x040 then s else put s none
    let s2 := s1.count pk HOVR_COUNTS.COALESCED 1
    match x.2 with
    | some _ =>
      let qn := queueOf h.page
      (s2.count (queuePage qn) (qfld qn TWQ_APPLIED_LATE.APPLIED_LATE) 1).raise (queuePage qn) 1
    | none => s2

/-- The last adopted thread is through (R314, R317). -/
def State.caughtUp (s : State) (sl : Nat) : State :=
  let pk := hovrPage sl
  let k := s.canvas
  let s1 := ((s.setFld pk HOVR_CAUGHT_UP.TICK (k % 2 ^ 62)).setFld pk HOVR_STATE.STATE 2).raise pk 3
  let all := (s.handover sl).held
  let own := (all.filter (fun h => h.own)).length
  let s2 := s1.count pk HOVR_COUNTS.DROPPED own
  let (dues, s3) := s2.heldDues sl (all.filter (fun h => !h.own))
  let s4 := (keptWrites k dues).foldl (fun u x => u.reissue sl k x) s3
  let s5 := s4.setHandover sl { s4.handover sl with held := [] }
  s5.raiseIf (decide (s.fld pk HOVR_STATE.CAUSE = 5)) pk 4

/-- The partner thread that carries a thread of a slice. -/
def State.carrier (s : State) (sl u : Nat) : Option Nat :=
  (s.adoptedThreads sl).find? (fun t => decide ((s.thread (partner sl) t).adopted = some u))

/-- An adopted thread has consumed its last entry and runs live; the last one of them catches the panel up (R314). -/
def execThreadThrough (sl : Slice) (u : Fin 16) (s : State) : Host.Outcome State Fault Refusal :=
  let q := partner sl
  .next (match s.carrier sl u with
    | none => s
    | some t =>
      let th := s.thread q t
      if s.fld (hovrPage sl) HOVR_STATE.STATE ≠ 1 ∨ (s.handover sl).restoring = true ∨ th.through = true
          ∨ s.replaying q t = true then s
      else
        let s1 := s.setThread q t { th with through := true }
        if (s1.adoptedThreads sl).all (fun i => (s1.thread q i).through) then s1.caughtUp sl else s1)

/-! ### Commands (R310, R317, R318) -/

/-- `HOVR_CMD.ADOPT` takes effect (R310). -/
def State.retryHandover (s : State) (sl : Nat) : State :=
  if s.mode sl = HANDOVER ∧ s.fld (hovrPage sl) HOVR_STATE.STATE = 3 then s.tryHandover sl else s

def execHovrAdopt (sl : Slice) (s : State) : Host.Outcome State Fault Refusal := .next (s.retryHandover sl)

/-- `HOVR_CMD.PLANNED` takes effect (R317). -/
def State.planHandover (s : State) (sl : Nat) : State :=
  let pk := hovrPage sl
  let m := s.mode sl
  if s.present sl = false ∨ m = PRIME ∨ m = HANDOVER ∨ s.fld pk HOVR_STATE.STATE ≠ 0 then s
  else (s.setHandover sl { s.handover sl with plannedAt := some s.canvas }).setFld pk HOVR_STATE.STATE 4

def execHovrPlanned (sl : Slice) (s : State) : Host.Outcome State Fault Refusal := .next (s.planHandover sl)

/-- `HOVR_CMD.RELEASE`: a held panel leaves reset as after a commanded warm reset (R318). -/
def State.releasePanel (s : State) (sl : Nat) : State :=
  let pn := s.panel sl
  if s.mode sl = HANDOVER ∧ pn.held = true then
    (s.setPanel sl { pn with held := false, resetting := some true }).setHandover sl
      { s.handover sl with released := true, wdogFrom := s.ticks }
  else s

def execHovrRelease (ag : Agent) (sl : Slice) (s : State) : Host.Outcome State Fault Refusal :=
  .next (s.writeBy ag (hovrPage sl) 0x120 (fun u => u.releasePanel sl))

/-- `HOVR_CMD.RETURN` takes effect: the adopted threads will stop at the next grid boundary (R318). -/
def State.returnSlice (s : State) (sl : Nat) : State :=
  let h := s.handover sl
  if s.fld (hovrPage sl) HOVR_STATE.STATE = 2 ∧ h.released = true ∧ (s.panel sl).held = false
      ∧ (s.panel sl).resetting = none then
    s.setHandover sl { h with returnAt := some s.canvas }
  else s

def execHovrReturn (sl : Slice) (s : State) : Host.Outcome State Fault Refusal := .next (s.returnSlice sl)

/-! ### The end of a return (R318, R324) -/

/-- The words of a panel's memory copied to a range of another's, uncorrectable ones staying so. -/
def State.copyMemory (s : State) (q src p dst size : Nat) : State :=
  let lo := memKey q src
  let n := size / 8
  let s1 := s.wipe p dst size
  let s2 := (s.mem.filter (fun e => decide (lo ≤ e.1) && decide (e.1 < lo + n))).foldl
    (fun u e => u.putMem p (dst + 8 * (e.1 - lo)) e.2) s1
  let bad := (s.badWords.filter (fun k => decide (lo ≤ k) && decide (k < lo + n))).map
    (fun k => memKey p dst + (k - lo))
  { s2 with badWords := bad ++ s2.badWords }

/-- One adopted thread goes back to its own number. -/
def State.returnThread (s : State) (sl t : Nat) (run : Bool) : State :=
  let q := partner sl
  let th := s.thread q t
  match th.adopted with
  | none => s
  | some u =>
    let claims := (s.core q (t / 4)).prio.filter (fun x => decide (x.thread = t))
    let own := s.thread sl u
    let s1 := s.setThread sl u { own.carry th with
      adopted := none
      through := false
      run := if run then .running else th.run }
    let c := s1.core sl (u / 4)
    let s2 := (s1.resource sl u s).setCore sl (u / 4) { c with prio := claims.map (fun x => { x with thread := u }) ++ c.prio }
    s2.resetThread q t

/-- The copy of regions and thread state ends; a number that is not free refuses the return (R318). -/
def execReturnComplete (sl : Slice) (s : State) : Host.Outcome State Fault Refusal :=
  let pk := hovrPage sl
  let q := partner sl
  let h := s.handover sl
  let adopted := s.adoptedThreads sl
  .next (if s.fld pk HOVR_STATE.STATE ≠ 5 ∨ s.mode sl ≠ HANDOVER then s
    else if adopted.any (fun t =>
        match (s.thread q t).adopted with
        | some u => !s.freeThread sl u
        | none => false) then s.refusePlan sl q 2 2
    else
      let s1 := (s.regionsUsed sl).foldl (fun u i =>
        let r := u.regionRange sl i
        u.copyMemory q (u.mirrorAddr sl i 0) sl r.1 r.2) s
      let s2 := adopted.foldl (fun u t => u.returnThread sl t (h.stopped.contains t)) s1
      let pages := s2.ownedPages sl
      let s3 := pages.foldl (fun u k => u.setOwnerState k false false) s2
      let s4 := pages.foldl (fun u k => u.resignal k) s3
      let s5 := s4.setHandover sl { s4.handover sl with released := false, stopped := [], returnAt := none }
      let s6 := (s5.setFld pk HOVR_STATE.STATE 0).setJournal sl
        { s5.journal sl with starting := s5.flag (jrnlPage sl) JRNL_CFG.EN, held := [], entries := [] }
      ((s6.setMode sl (s6.under sl) (s6.under sl))).raise pk 4)

end Sys2Proof.Machine
end

