-- ==== Sys2Proof/Machine/Mode.lean ====
section
/-! DEFINITION. Mode commands (R325, R326, R328), entry into `REST` (R329), and the commanded resets of panels and
threads (R331 to R333). -/

namespace Sys2Proof.Machine

open Sys2Proof

/-! ### What keeps a slice in `HOLD` (R328, R343) -/

/-- A pair with `FATAL` 1 has its latch set. -/
def State.fatalLatched (s : State) (sl : Nat) : Bool :=
  (List.range 16).any (fun p => s.latched sl p && s.flag (tripPage sl) (TRIP_PAIR_CFG.FATAL.at (0x40 * p)))

/-- The live causes, as `HOLD_CAUSE` shows them. -/
def State.holdCauses (s : State) (sl : Nat) : List Bool :=
  [s.flag (tripPage sl) TRIP_OVERRIDE.THERMAL, (s.trip sl).clockMissing, s.halted sl, s.fatalLatched sl]

/-- The code with which a command out of `HOLD` is refused, or 0. -/
def State.blocked (s : State) (sl : Nat) : Nat :=
  match (s.holdCauses sl).findIdx? (fun b => b) with
  | some i => i + 2
  | none => 0

/-! ### Entry into `REST` (R329) -/

/-- The steps begin: cores stop fetching, and running channels read no more; how many elements a channel has in
flight then is free. -/
def State.beginRest (s : State) (sl : Nat) : State :=
  if s.flag (modePage sl) MODE_STATE.REST_PENDING then s
  else
    let s1 := (s.setFld (modePage sl) MODE_STATE.REST_PENDING 1).setPanel sl
      { s.panel sl with restFrom := some s.ticks }
    (List.range 32).foldl (fun u c =>
      if u.fld (dmaPage sl c) DMA_STATUS.STATE = 1 then
        let (w, u1) := u.fresh
        let u2 := u1.setDma sl c { u1.dma sl c with restPaused := true }
        u2.drainDma sl c (w.toNat % 17)
      else u) s1

/-- Retired stores and issued loads are answered, and no channel has an element in flight. -/
def State.restReady (s : State) (sl : Nat) : Bool :=
  (List.range 16).all (fun t => (s.thread sl t).stores.isEmpty && (s.thread sl t).loads.isEmpty) &&
    (List.range 32).all (fun c =>
      decide (s.fld (dmaPage sl c) DMA_STATUS.STATE ≠ 1) && decide (s.fld (dmaPage sl c) DMA_STATUS.STATE ≠ 2))

/-- The sources with `WATCH` 1 in either table, as claim values (R216). -/
def State.watchedSet (s : State) (p : Nat) : List Nat :=
  [0, 1].flatMap (fun table => ((List.range 592).filter (fun n => s.srcWatch p table n)).map (fun n => table * 1024 + n))

/-- The last step: the boundary, the watcher's copy, self-refresh, the ports, the island clock (R329). -/
def State.enterRest (s : State) (sl : Nat) : State :=
  let s1 := if s.flag (jrnlPage sl) JRNL_STATUS.ACTIVE then s.boundary sl else s
  let under := s.mode sl
  let s2 := (s1.setFld (ddrcPage sl) DDRC_STATE.SELF_REFRESH 1).stopTimers sl
  let s3 := (s2.linkDown sl 0).linkDown sl 1
  let s4 := s3.setPanel sl { s3.panel sl with
    island := true, restFrom := none, restTick := s.ticks, watched := s.watchedSet sl }
  ((s4.setFld (modePage sl) MODE_STATE.REST_PENDING 0).setMode sl REST under).stopMirror (partner sl)

/-- The entry into `REST` completes (R329). -/
def execRestEntryComplete (sl : Slice) (s : State) : Host.Outcome State Fault Refusal :=
  .next (if s.flag (modePage sl) MODE_STATE.REST_PENDING = false ∨ s.restReady sl = false then s
    else s.enterRest sl)

/-! ### Commands (R325, R326) -/

/-- The outcome of a command by the slice's mode; `target` is the mode's code. -/
def State.obey (s : State) (sl target : Nat) : State :=
  let m := s.mode sl
  let leavesHold := decide (target = COMMISSION) || decide (target = RUN)
  let stop := s.blocked sl
  if m = PRIME then s.refuseCommand sl 1
  else if m = HANDOVER then
    (if target = REST then s.refuseCommand sl 6
     else if s.under sl = HOLD ∧ leavesHold = true ∧ stop ≠ 0 then s.refuseCommand sl stop
     else s.setMode sl HANDOVER target)
  else if m = REST then
    (if target = REST then s
     else if s.under sl = HOLD ∧ leavesHold = true ∧ stop ≠ 0 then s.refuseCommand sl stop
     else s.wake sl target)
  else if target = REST then s.beginRest sl
  else if m = target then s
  else if m = HOLD ∧ stop ≠ 0 then s.refuseCommand sl stop
  else s.setMode sl target target

/-- A command takes effect at a slice now, unless a protective transition of the same tick refuses it (R326). -/
def State.commandNow (s : State) (sl target : Nat) : State :=
  if (s.panel sl).movedAt = some s.ticks then
    s.refuseCommand sl (refusedBy (s.fld (modePage sl) MODE_STATE.LAST_CAUSE))
  else s.obey sl target

/-- Commands of a slice's own page take effect one after the other. -/
def State.obeyAll (s : State) (sl : Nat) (orders : List Nat) : State :=
  orders.foldl (fun u target => u.commandNow sl target) (s.setPanel sl { s.panel sl with
    orders := []
    soon := none })

/-- A command takes effect at a slice (R326). A package-wide one stands against the slice's own of the same tick, so the
mode page changes by the slice's own as the tick ends; the sector's units follow it at once (R37, R125; assumption
114). -/
def State.command (s : State) (sl target : Nat) (wide : Bool) : State :=
  let pn := s.panel sl
  if s.present sl = false then s
  else if wide then
    (s.setPanel sl { pn with
      orders := []
      soon := none
      commandAt := some (s.ticks, s.movable sl) }).commandNow sl target
  else if (s.commanded sl).isSome then s
  else if s.timeStands then s.commandNow sl target
  else
    let orders := pn.orders ++ [target]
    s.setPanel sl { pn with
      orders := orders
      soon := some ((s.obeyAll sl orders).shownMode sl) }

/-- Commands of a slice's own page take effect with the end of their tick. -/
def State.tickOrders (s : State) (sl : Nat) : State := s.obeyAll sl (s.panel sl).orders

/-- A command takes effect at the slices it names. -/
def State.commandAll (s : State) (tgt : ModeCmd) (target : Nat) : State :=
  match tgt with
  | .slice sl => s.command sl target false
  | .package mask => (List.range 8).foldl (fun u sl => if mask.getLsbD sl then u.command sl target true else u) s

/-- `MODE_COMMISSION` (R325). -/
def execModeCommission (tgt : ModeCmd) (s : State) : Host.Outcome State Fault Refusal :=
  .next (s.commandAll tgt COMMISSION)

/-- `MODE_RUN` (R325). -/
def execModeRun (tgt : ModeCmd) (s : State) : Host.Outcome State Fault Refusal := .next (s.commandAll tgt RUN)

/-- `MODE_HOLD` (R325). -/
def execModeHold (tgt : ModeCmd) (s : State) : Host.Outcome State Fault Refusal := .next (s.commandAll tgt HOLD)

/-- `MODE_REST` (R325, R329). -/
def execModeRest (tgt : ModeCmd) (s : State) : Host.Outcome State Fault Refusal := .next (s.commandAll tgt REST)

/-! ### Resets on command (R332, R333) -/

/-- `MODE_CMD.WARM` (R333): a resting panel's island stays stopped (assumption 58). -/
def State.warmReset (s : State) (sl : Nat) : State :=
  let pn := s.panel sl
  if s.present sl = false ∨ s.mode sl = PRIME ∨ pn.held = true then s
  else
    let s1 := (s.abandonRest sl).resetPanel sl 1
    s1.setPanel sl { s1.panel sl with resetting := some true, island := pn.island, watched := pn.watched }

/-- A write of 1 to `MODE_CMD.WARM` (R333). -/
def execModeWarm (ag : Agent) (sl : Slice) (s : State) : Host.Outcome State Fault Refusal :=
  .next (s.writeBy ag (modePage sl) 0x100 (fun u => u.warmReset sl))

/-- A warm reset sequence ends: the `AUTORUN` threads start, but for journaled ones in `HANDOVER`, and journaling
begins again (R318, R333, R335). -/
def execPanelWarmResetDone (p : Slice) (s : State) : Host.Outcome State Fault Refusal :=
  .next (if (s.panel p).resetting.isNone then s
    else
      let s1 := s.setPanel p { s.panel p with resetting := none }
      let away := decide (s.mode p = HANDOVER)
      let skip := if away then s.fld (jrnlPage p) JRNL_CFG.THREADS else 0
      let go := (maskThreads (s.fld (modePage p) MODE_AUTORUN.MASK)).filter (fun t => !bit skip t)
      let s2 := go.foldl (fun u t => u.startThread p t) s1
      let begins := !away && s.flag (jrnlPage p) JRNL_CFG.EN && !s.flag (jrnlPage p) JRNL_STATUS.LINK_DOWN
      s2.setJournal p { s2.journal p with starting := begins })

/-- The threads of a panel can be reset and started by `MODE_THREAD`. -/
def State.threadsReset (s : State) (p : Nat) : Bool :=
  s.present p && !(s.panel p).held && (s.panel p).resetting.isNone

/-- `MODE_THREAD` with `OP` 1 (R332). -/
def State.stopThreads (s : State) (p mask : Nat) : State :=
  if s.threadsReset p then (maskThreads mask).foldl (fun u t => u.resetThread p t) s else s

/-- `MODE_THREAD` with `OP` 2 (R332). -/
def State.startThreads (s : State) (p mask : Nat) : State :=
  if s.threadsReset p then (maskThreads mask).foldl (fun u t => u.restartThread p t) s else s

/-- A write of `MODE_THREAD` with `OP` 1. -/
def execThreadResetStop (ag : Agent) (sl : Slice) (mask : BitVec 16) (s : State) : Host.Outcome State Fault Refusal :=
  .next (s.writeBy ag (modePage sl) 0x128 (fun u => u.stopThreads sl mask.toNat))

/-- A write of `MODE_THREAD` with `OP` 2. -/
def execThreadResetStart (ag : Agent) (sl : Slice) (mask : BitVec 16) (s : State) : Host.Outcome State Fault Refusal :=
  .next (s.writeBy ag (modePage sl) 0x128 (fun u => u.startThreads sl mask.toNat))

end Sys2Proof.Machine
end

