-- ==== Sys2Proof/Machine/Reset.lean ====
section
/-! DEFINITION. Cold and package resets (R25, R331, R335, R387): what they leave, and how `PRIME` begins. -/

namespace Sys2Proof.Machine

open Sys2Proof

/-- The older of two generations modulo 2^32 comes first (R336). -/
def newerGen (a b : Nat) : Bool :=
  let d := (a + 2 ^ 32 - b % 2 ^ 32) % 2 ^ 32
  decide (0 < d) && decide (d < 2 ^ 31)

/-- Bytes of a number, least significant first. -/
def lowBytes (n v : Nat) : List Byte := (List.range n).map (fun i => BitVec.ofNat 8 (v / 256 ^ i))

/-- The bytes of a slot but for its CRC word, in an order that is the model's (R336; assumption 113). -/
def Painting.bytes (x : Painting) : List Byte :=
  lowBytes 2 x.marker.toNat ++ lowBytes 2 x.variant.slices ++ lowBytes 4 x.gen ++ lowBytes 8 x.tick
    ++ (x.fields.map (fun e => lowBytes 8 e.1 ++ lowBytes 8 e.2.toNat)).flatten
    ++ (x.secure.map (fun e => lowBytes 8 e.1 ++ lowBytes 9 e.2.toNat)).flatten

/-- The CRC-32 of a slot, as in IEEE 802.3 (R336). -/
def Painting.sum (x : Painting) : BitVec 32 := ~~~(x.bytes.foldl crc32Byte 0xFFFFFFFF#32)

/-- A slot with its own CRC, or with a wrong one. -/
def Painting.sealed (x : Painting) : Painting := { x with crc := x.sum }
def Painting.spoiled (x : Painting) : Painting := { x with crc := ~~~x.sum }

/-- The marker of R336. -/
def slotMarker : BitVec 16 := 0xA3D5

/-- A slot is valid in a package of a variant (R336): marker, variant and CRC. -/
def Painting.valid (v : Variant) (x : Painting) : Bool :=
  decide (x.marker = slotMarker) && decide (x.variant = v) && decide (x.crc = x.sum)

/-- A slot that is valid. -/
def validSlot (v : Variant) (x : Option Painting) : Option Painting := x.filter (Painting.valid v)

/-- Which slot is the newest valid one (R336): `true` is slot B. -/
def State.newestSlot (s : State) : Option (Bool × Painting) :=
  match validSlot s.variant s.slotA, validSlot s.variant s.slotB with
  | some a, some b => if newerGen b.gen a.gen then some (true, b) else some (false, a)
  | some a, none => some (false, a)
  | none, some b => some (true, b)
  | none, none => none

/-- A slot whose writing was cut off is invalid (R337). -/
def State.loseCommit (s : State) : State :=
  match s.commit with
  | none => s
  | some c =>
    let bad (x : Option Painting) : Option Painting := some (x.getD c.data).spoiled
    if c.slotB then { s with slotB := bad s.slotB, commit := none } else { s with slotA := bad s.slotA, commit := none }

/-- The `UPNT` status of the two slots (R345). -/
def State.showSlots (s : State) : State :=
  let pk := upntPage
  let s1 := (s.setFld pk UPNT_STATUS.A_VALID (validSlot s.variant s.slotA).isSome.toNat).setFld pk UPNT_STATUS.B_VALID
    (validSlot s.variant s.slotB).isSome.toNat
  match s.newestSlot with
  | none => s1.setFld pk UPNT_STATUS.NEWEST 2
  | some (b, p) => ((s1.setFld pk UPNT_STATUS.NEWEST b.toNat).setFld pk UPNT_STATUS.GEN p.gen).setFld
      pk UPNT_COMMITTED.TICK p.tick

/-- Registers that `PRIME` reads from the fuses (R347, R355, R358). -/
def State.showFuses (s : State) : State :=
  let pk := lifePage
  let f := s.fuses
  let s1 := ((s.setFld pk LIFE_STATE.STATE f.state).setFld pk LIFE_STATE.KEY_FUSED f.keyHash.isSome.toNat).setFld
    pk LIFE_BOOT.FLOOR f.floor
  let s2 := s1.setReg pk LIFE_ID.ID.off f.id
  if f.state = 3 then
    s2.slices.foldl (fun u p => (u.setFld (scrPage p) SCR_POWER.BANK7 2).setFld (scrPage p) ⟨0x108, 15, 14⟩ 2) s2
  else s2

/-- The dip record and its state are in the MRAM, and outlive every reset (R335, R341). -/
def State.keptDip (s : State) : Bool × Bool :=
  (s.flag upntPage UPNT_STATUS.DIP_VALID, s.flag upntPage UPNT_STATUS.DIP_OVERRUN)

/-- Event pins that count as low are active at every controller (R386). -/
def State.evtSources (s : State) : Store Bool :=
  (s.slices.flatMap (fun p => ((List.range 16).filter (fun n => s.evtLow.getLsbD n)).map (fun n => evKey p 0 (576 + n)))).foldl
    (fun m k => Store.write false m k true) []

/-- A reset through `PRIME` of the whole package, with its cause and rail (R331, R344); the levels of pins, the
banks that are down, the underpainting, the dip record, the fuses, JTAG and the queue of commands are not the reset's. -/
def State.resetPackage (s : State) (boot : Boot) (cause rail : Nat) : State :=
  let kept := s.loseCommit
  let dip := s.keptDip
  let s1 : State := { State.reset with
    boot := boot, variant := s.variant, slotA := kept.slotA, slotB := kept.slotB,
    supply := { record := s.supply.record, banksDown := s.supply.banksDown }, fuses := s.fuses, evtLow := s.evtLow,
    trips := (s.trips.map (fun e => (e.1, ({ pinsLow := e.2.pinsLow } : Trip)))).filter (fun e => decide (e.2 ≠ {})),
    evArrived := s.evtSources,
    jtag := s.jtag, resetPinLow := s.resetPinLow, free := s.free, pending := s.pending }
  let s2 := (s1.setFld modePkgPage MODE_RESET_CAUSE.CAUSE cause).setFld modePkgPage MODE_RESET_CAUSE.RAIL rail
  let s3 := (s2.setFld upntPage UPNT_STATUS.DIP_VALID dip.1.toNat).setFld upntPage UPNT_STATUS.DIP_OVERRUN dip.2.toNat
  let s4 := s3.showSlots.showFuses
  s4.showNow

/-- A package reset (R331). -/
def State.packageReset (s : State) (cause : Nat) : State := s.resetPackage .priming cause 0

/-- A cold reset by a core rail (R341): it lasts until the rails are up (R387). -/
def State.coldReset (s : State) (rail : Nat) : State := s.resetPackage .cold 4 rail

/-- `MODE_PKG_CMD.PKG_RESET` (R344). -/
def State.commandReset (s : State) (code : Nat) : State := if code = 0xC01D then s.packageReset 3 else s

/-- A write of `MODE_PKG_CMD.PKG_RESET` (R331). -/
def execPkgResetCmd (ag : Agent) (code : BitVec 16) (s : State) : Host.Outcome State Fault Refusal :=
  .next (s.writeBy ag modePkgPage 0x100 (fun u => u.commandReset code.toNat))

/-- `PKG_RESET_N` has been low for 100 ns (R331): in cold reset it adds nothing. -/
def execPkgResetPin (s : State) : Host.Outcome State Fault Refusal :=
  let s1 := { s with resetPinLow := true }
  .next (if s.boot = .cold then s1 else s1.packageReset 2)

/-- `PKG_RESET_N` returns high (R371). -/
def execPkgResetNRelease (s : State) : Host.Outcome State Fault Refusal := .next { s with resetPinLow := false }

/-- The rails are up and the reference has run (R387): tick 0 of `PRIME`. -/
def execPowerOn (s : State) : Host.Outcome State Fault Refusal :=
  .next (if s.boot = .cold then { s with boot := .priming, ticks := 0, canvas := 0 } else s)

end Sys2Proof.Machine
end

