-- ==== Sys2Proof/Machine/Supply.lean ====
section
/-! DEFINITION. Supplies and temperature (R61, R339 to R342, R402): dips, the dip record, rails at their reset levels,
and the junction sensors. -/

namespace Sys2Proof.Machine

open Sys2Proof

/-! ### Levels (R339, R344) -/

/-- Warning and reset levels of the core rails, in millivolts. -/
def coreLevels : List (Nat × Nat) :=
  [(715, 690), (765, 740), (765, 740), (1710, 1650), (860, 830), (1060, 1030), (860, 830)]

/-- The 3.3 V levels apply to a bank: as `MODE_BANKV` declares, and to every bank until the underpainting is restored. -/
def State.bank33 (s : State) (b : Nat) : Bool :=
  (decide (s.boot ≠ .done) && !s.restored) || bit (s.fld modePkgPage MODE_BANKV.V33) b

/-- Warning and reset level of a rail, and the margin of its recovery, in millivolts. -/
def State.railLevels (s : State) : Rail → Nat × Nat × Nat
  | .core r => let l := coreLevels.getD r (0, 0); (l.1, l.2, 10)
  | .bank b => if s.bank33 b then (3130, 2970, 20) else (1710, 1620, 10)

/-- A rail has been below its warning level, or its reset level, for 64 ticks. -/
def State.underWarning (s : State) (rail : Rail) (r : RailReading) : Bool :=
  decide (r.millivolts < (s.railLevels rail).1) && decide (64 ≤ r.ticks)

def State.underReset (s : State) (rail : Rail) (r : RailReading) : Bool :=
  decide (r.millivolts < (s.railLevels rail).2.1) && decide (64 ≤ r.ticks)

/-- A rail has been at or above its warning level and the margin for 1250 ticks. -/
def State.railBack (s : State) (rail : Rail) (r : RailReading) : Bool :=
  decide ((s.railLevels rail).1 + (s.railLevels rail).2.2 ≤ r.millivolts) && decide (1250 ≤ r.ticks)

/-! ### Dips (R61, R340) -/

/-- The rail exists in the variant. -/
def State.railThere (s : State) : Rail → Bool
  | .core _ => true
  | .bank b => decide (b.val < 2 * s.variant.slices)

/-- The rail counts as below its warning level now. -/
def State.railBelow (s : State) : Rail → Bool
  | .core r => bit (s.fld modePkgPage MODE_SUPPLY.BELOW) r
  | .bank b => s.supply.banksBelow.getLsbD b

/-- Every converter of the variant. -/
def State.converters (s : State) : List (Nat × Nat) := s.slices.flatMap (fun sl => (List.range 16).map (fun c => (sl, c)))

/-- A dip begins: every converter that is not in `MODE` 0 notes its tick, and rings with that source fire (R66). -/
def State.beginDip (s : State) : State :=
  if s.supply.dip then s
  else
    let s1 := s.converters.foldl (fun u x =>
      let pk := fadcPage x.1 x.2
      if u.fld pk FADC_SCHED.MODE = 0 then u
      else ((u.setFld pk FADC_DIP_START.START (u.canvas % 2 ^ 62)).setFld pk FADC_DIP_END.OPEN 1).raise pk 2)
      { s with supply := { s.supply with dip := true } }
    s1.slices.foldl (fun u sl => u.triggerSource sl 6 0) s1

/-- A dip ends: every converter that noted its start notes its end. -/
def State.endDip (s : State) : State :=
  s.converters.foldl (fun u x =>
    let pk := fadcPage x.1 x.2
    if u.flag pk FADC_DIP_END.OPEN then
      (u.setFld pk FADC_DIP_END.END (u.canvas % 2 ^ 62)).setFld pk FADC_DIP_END.OPEN 0
    else u) { s with supply := { s.supply with dip := false } }

/-- `MODE_STATE` as a read returns it (R343). -/
def State.modeStateWord (s : State) (sl : Nat) : Word :=
  let live := ((s.holdCauses sl).zipIdx.map (fun x => if x.1 then 2 ^ x.2 else 0)).sum
  putBits (s.reg (modePage sl) 0x108) 23 20 live

/-- The dip record of the state in force (R340). -/
def State.dipWords (s : State) : Store Word :=
  let head : List (Nat × Word) := [(0, BitVec.ofNat 64 s.canvas),
    (1, BitVec.ofNat 64 (s.fld modePkgPage MODE_SUPPLY.BELOW + s.supply.banksBelow.toNat * 2 ^ 16))]
  let per (base : Nat) (f : Nat → Nat → Word) : List (Nat × Word) :=
    s.slices.flatMap (fun sl => (List.range 16).map (fun n => (base + 16 * sl + n, f sl n)))
  let all := head ++ per 2 (fun sl n => s.reg (loopPage sl n) 0x1B8) ++ per 130 (fun sl n => s.reg (loopPage sl n) 0x198)
    ++ per 258 s.countWord ++ per 386 s.pairStateWord ++ s.slices.map (fun sl => (514 + sl, s.modeStateWord sl))
  all.foldl (fun m x => Store.write 0 m x.1 x.2) []

/-- The dip record is taken, unless one is held. -/
def State.takeRecord (s : State) : State :=
  if s.flag upntPage UPNT_STATUS.DIP_VALID ∨ s.supply.taken.isSome then s.setFld upntPage UPNT_STATUS.DIP_OVERRUN 1
  else { s with supply := { s.supply with taken := some s.dipWords } }

/-- A rail counts as below its warning level, if its monitor has seen it so (R339, R340, R402). -/
def execRailBelowWarning (rail : Rail) (s : State) (reading : RailReading := ⟨0, 64⟩) :
    Host.Outcome State Fault Refusal :=
  .next (if s.boot = .cold ∨ s.railThere rail = false ∨ s.railBelow rail = true
      ∨ s.underWarning rail reading = false then s
    else
      let s1 := match rail with
        | .core r => s.setFld modePkgPage MODE_SUPPLY.BELOW (putBit (s.fld modePkgPage MODE_SUPPLY.BELOW) r true)
        | .bank b => ({ s with supply := { s.supply with
              banksBelow := BitVec.ofNat 16 (putBit s.supply.banksBelow.toNat b true) } }).markBit
            modePkgPage MODE_SUPPLY.BANK_DIP b
      (s1.raise modePkgPage 0).beginDip.takeRecord)

/-- The dip record has been written to the MRAM (R340). -/
def execDipRecordWritten (s : State) : Host.Outcome State Fault Refusal :=
  .next (match s.supply.taken with
    | none => s
    | some r => ({ s with supply := { s.supply with taken := none, record := r } }).setFld upntPage
        UPNT_STATUS.DIP_VALID 1)

/-- No rail counts as below its warning level. -/
def State.allRecovered (s : State) : Bool :=
  decide (s.fld modePkgPage MODE_SUPPLY.BELOW = 0) && decide (s.supply.banksBelow = 0)

/-- A rail counts as recovered, if its monitor has seen it so (R339, R341). -/
def execRailRecovered (rail : Rail) (s : State) (reading : RailReading := ⟨5000, 1250⟩) :
    Host.Outcome State Fault Refusal :=
  let pk := modePkgPage
  let was := s.railBelow rail
  let s1 := match rail with
    | .core r => if was then
        (s.setFld pk MODE_SUPPLY.BELOW (putBit (s.fld pk MODE_SUPPLY.BELOW) r false)).markBit pk MODE_SUPPLY.DIP_SEEN r
        else s
    | .bank b => ({ s with supply := { s.supply with
          banksBelow := BitVec.ofNat 16 (putBit s.supply.banksBelow.toNat b false),
          banksDown := BitVec.ofNat 16 (putBit s.supply.banksDown.toNat b false) } }).setFld
        pk MODE_SUPPLY.BANK_LOW (putBit (s.fld pk MODE_SUPPLY.BANK_LOW) b false)
  .next (if s.railBack rail reading = false then s
    else if was = false then s1
    else
      let s2 := s1.raise pk 1
      if s2.allRecovered then s2.endDip else s2)

/-- A rail counts as below its reset level, if its monitor has seen it so (R339, R341, R402). In cold reset a bank's fall
is remembered, and nothing is recorded (R387). -/
def execRailBelowReset (rail : Rail) (s : State) (reading : RailReading := ⟨0, 64⟩) :
    Host.Outcome State Fault Refusal :=
  let pk := modePkgPage
  .next (if s.railThere rail = false ∨ s.underReset rail reading = false then s
    else match rail with
      | .core r => if s.boot = .cold then s else s.coldReset r
      | .bank b =>
        if s.supply.banksDown.getLsbD b then s
        else
          let s1 : State := { s with supply := { s.supply with
            banksDown := BitVec.ofNat 16 (putBit s.supply.banksDown.toNat b true) } }
          if s.boot = .cold then s1
          else (s1.setFld pk MODE_SUPPLY.BANK_LOW (putBit (s.fld pk MODE_SUPPLY.BANK_LOW) b true)).raise pk 2)

/-! ### The junction sensors (R59, R60, R342) -/

/-- `CAL_DUE` of a sector's converters follows a reading (R59). -/
def State.markDue (s : State) (sl : Nat) (celsius : Int) : State :=
  (List.range 16).foldl (fun u c =>
    let pk := fadcPage sl c
    let d := celsius - (u.conv sl c).calJunction
    if u.flag pk FADC_CAL.CAL_DUE = false ∧ (20 < d ∨ d < -20) then (u.setFld pk FADC_CAL.CAL_DUE 1).raise pk 5 else u) s

/-- A reading of a sector's junction sensor (R342). -/
def execJunctionReading (sl : Slice) (celsius : Int) (s : State) : Host.Outcome State Fault Refusal :=
  let pk := modePage sl
  let pn := s.panel sl
  .next (if s.boot = .cold ∨ s.present sl = false then s
    else
      let warn : Int := s.fld pk MODE_THERMAL.WARN
      let hot := decide (warn ≤ celsius)
      let warned := if hot then true else if celsius ≤ warn - 5 then false else pn.warned
      let s1 := (s.setSfld pk MODE_THERMAL.NOW celsius).setPanel sl { pn with warned := warned }
      let s2 := (s1.raiseIf (hot && !pn.warned) pk 4).markDue sl celsius
      let was := s2.flag (tripPage sl) TRIP_OVERRIDE.THERMAL
      if 135 < celsius ∧ was = false then
        ((s2.setFld (tripPage sl) TRIP_OVERRIDE.THERMAL 1).raiseIf (decide (s2.mode sl ≠ PRIME)) (tripPage sl) 49).protect
          sl causeThermal
      else if celsius < 130 then s2.setFld (tripPage sl) TRIP_OVERRIDE.THERMAL 0
      else s2)

end Sys2Proof.Machine
end

