-- ==== Sys2Proof/Machine/Upnt.lean ====
section
/-! DEFINITION. The underpainting (R336, R337, R345): what a commit captures, its end, and the wipe of the secure
sub-slots (R355, R357). -/

namespace Sys2Proof.Machine

open Sys2Proof

def Restore.isU : Restore → Bool
  | .u => true
  | _ => false

/-- A register's U fields, every other field at its reset value. -/
def keepU (pk off : Nat) (w : Word) : Word :=
  (fieldsAt pk off).foldl
    (fun x f => if f.rest.isU then putBits x f.fld.hi f.fld.lo (bits w f.fld.hi f.fld.lo) else x) (defaultWord pk off)

/-- Some U field of the register at an offset of a page. -/
def hasU (pk off : Nat) : Bool := (fieldsAt pk off).any (fun f => f.rest.isU)

/-- The U fields of the registers that a selection names, as differences from their factory values. -/
def State.captureU (s : State) (sel : Nat → Bool) : Store Word :=
  (s.regs.map (fun e => (e.1, keepU (e.1 / 4096) (e.1 % 4096) e.2))).filter
    (fun e => sel (e.1 / 4096) && hasU (e.1 / 4096) (e.1 % 4096)
      && decide (e.2 ≠ defaultWord (e.1 / 4096) (e.1 % 4096)))

/-- The panels whose own U fields a commit carries over (R337). -/
def State.carriedPanels (s : State) : List Nat :=
  s.slices.filter (fun p => decide (s.mode p = REST) || (s.panel p).resetting.isSome || (s.panel p).held)

/-- Two stores of registers joined in key order. -/
def joinStores (a b : Store Word) : Store Word := b.foldl (fun m e => Store.place e.1 e.2 m) a

/-- The first 8 KiB of bank 7 of each panel. -/
def State.captureKeys (s : State) : Store TWord :=
  let words := s.slices.flatMap (fun p => (s.mem.filter
    (fun e => decide (memKey p 0x1C0000 ≤ e.1) && decide (e.1 < memKey p 0x1C0000 + 1024))).map
      (fun e => (p * 1024 + (e.1 - memKey p 0x1C0000), e.2)))
  words

/-- A commit starts (R337). -/
def State.startCommit (s : State) (keys : Bool) : State :=
  if s.flag upntPage UPNT_STATUS.BUSY then s
  else
    let newest := s.newestSlot
    let carried := s.carriedPanels
    let old := match newest with
      | some (_, p) => p.fields
      | none => []
    let isCarried (pk : Nat) : Bool := isPanelPage pk && carried.contains (windowOf pk - 8)
    let fields := joinStores (s.captureU (fun pk => !isCarried pk))
      (old.filter (fun e => isCarried (e.1 / 4096)))
    let secure := if keys then s.captureKeys else match newest with
      | some (_, p) => p.secure
      | none => []
    let gen := match newest with
      | some (_, p) => (p.gen + 1) % 2 ^ 32
      | none => 1
    let intoB := match newest with
      | some (b, _) => !b
      | none => false
    let data := Painting.sealed ⟨slotMarker, s.variant, gen, s.canvas % 2 ^ 62, 0, fields, secure⟩
    let hollow : Option Painting := some data.spoiled
    let s1 := if intoB then { s with slotB := hollow, commit := some ⟨intoB, data⟩ }
      else { s with slotA := hollow, commit := some ⟨intoB, data⟩ }
    let mask := (carried.map (fun p => 2 ^ p)).sum
    ((s1.setFld upntPage UPNT_STATUS.BUSY 1).setFld upntPage UPNT_STATUS.CARRIED mask).showSlots

/-- A write of 1 to `UPNT_CMD.COMMIT` (R337). -/
def execUpntCommit (ag : Agent) (s : State) : Host.Outcome State Fault Refusal :=
  .next (s.writeBy ag upntPage 0x100 (fun u => u.startCommit false))

/-- A secure write of 1 to `UPNT_CMD.COMMIT_KEYS` (R337). -/
def execUpntCommitKeys (ag : Agent) (s : State) : Host.Outcome State Fault Refusal :=
  .next (s.writeBy ag upntPage 0x100 (fun u => if u.secure ag then u.startCommit true else u))

/-- A commit ends: its write-back check passed, or failed (R337, R345). -/
def execCommitDone (ok : Bool) (s : State) : Host.Outcome State Fault Refusal :=
  let pk := upntPage
  .next (match s.commit with
    | none => s
    | some c =>
      let s1 := (if ok = false then s
        else if c.slotB then { s with slotB := some c.data } else { s with slotA := some c.data })
      let s2 := { s1 with commit := none }
      ((((s2.setFld pk UPNT_STATUS.BUSY 0).setFld pk UPNT_STATUS.FAILED (!ok).toNat).showSlots).raise pk
        (if ok then 0 else 1)))

/-- `UPNT_CMD.DIP_CLR` (R345). -/
def State.clearDip (s : State) : State :=
  (s.setFld upntPage UPNT_STATUS.DIP_VALID 0).setFld upntPage UPNT_STATUS.DIP_OVERRUN 0

def execUpntDipClr (ag : Agent) (s : State) : Host.Outcome State Fault Refusal :=
  .next (s.writeBy ag upntPage 0x100 (fun u => u.clearDip))

/-- The keys are wiped: bank 7 of every panel, and the secure sub-slot of both slots, which get a new CRC where they
were valid (R336, R355, R357; assumption 113); a commit in progress leaves its slot invalid. -/
def State.wipeKeys (s : State) : State :=
  let s0 := if s.commit.isSome then
    ((s.loseCommit.setFld upntPage UPNT_STATUS.BUSY 0).setFld upntPage UPNT_STATUS.FAILED 1).raise upntPage 1 else s
  let s1 := s.slices.foldl (fun u p => u.wipeBank7 p) s0
  let bare (x : Option Painting) : Option Painting := x.map (fun p =>
    let q := { p with secure := [] }
    if p.valid s.variant then q.sealed else q.spoiled)
  ({ s1 with slotA := bare s1.slotA, slotB := bare s1.slotB }).showSlots

end Sys2Proof.Machine
end

