-- ==== Sys2Proof/Machine/Life.lean ====
section
/-! DEFINITION. Lifecycle, unlock and tamper (R353 to R359), and the end of a wipe of bank 7 (R225). -/

namespace Sys2Proof.Machine

open Sys2Proof

/-! ### Lifecycle (R354, R355) -/

/-- The fuses after a transition, if the table of R354 has the row and what it requires holds. -/
def State.transition (s : State) (target : Nat) : Option Fuses :=
  let f := s.fuses
  match f.state, target with
  | 0, 1 => s.image.map (fun x => { f with state := 1, keyHash := some x.2.1, debugHash := some x.2.2 })
  | 1, 2 => some { f with state := 2 }
  | 1, 3 => some { f with state := 3 }
  | 2, 3 => if s.unlock = 2 then some { f with state := 3 } else none
  | from_, 4 => if from_ = 4 then none else some { f with state := 4 }
  | _, _ => none

/-- A request of `LIFE_CMD.TARGET` with `CONFIRM` (R354): an accepted transition wipes the keys first (R355). While one
runs, another request does nothing (assumption 134). -/
def State.requestTransition (s : State) (confirm target : Nat) : State :=
  if confirm ≠ 0x5C4A ∨ s.burn.isSome = true then s
  else
    match s.transition target with
    | none => s.raise lifePage 4
    | some f => { s.wipeKeys with burn := some f }

/-- The keys of a transition are wiped: the fuses are burnt, and a package reset follows (R355); which of its codes
`MODE_RESET_CAUSE.CAUSE` then holds is free (assumption 59). -/
def State.endTransition (s : State) : State :=
  match s.burn with
  | none => s
  | some f =>
    let (w, s1) := s.fresh
    { s1 with fuses := { f with floor := max s.fuses.floor f.floor } }.packageReset (1 + w.toNat % 5)

/-- A secure write of `LIFE_CMD` with `CONFIRM` (R354). -/
def execLifeTransition (ag : Agent) (confirm : BitVec 16) (target : Fin 8) (s : State) :
    Host.Outcome State Fault Refusal :=
  .next (s.writeBy ag lifePage 0x168 (fun u =>
    if u.secure ag then u.requestTransition confirm.toNat target else u))

/-- `ADVANCE_FLOOR` (R355). -/
def State.advanceFloor (s : State) : State :=
  match s.image with
  | some (version, _, _) =>
    if s.lifecycle = 2 then
      let n := max s.fuses.floor (min version 64)
      { s with fuses := { s.fuses with floor := n } }.setFld lifePage LIFE_BOOT.FLOOR n
    else s
  | none => s

/-- A secure write of 1 to `ADVANCE_FLOOR` (R355). -/
def execAdvanceFloor (ag : Agent) (s : State) : Host.Outcome State Fault Refusal :=
  .next (s.writeBy ag lifePage 0x168 (fun u => if u.secure ag then u.advanceFloor else u))

/-- `RELOCK` (R356, R358). -/
def State.relock (s : State) : State := s.setFld lifePage LIFE_STATE.UNLOCK 0

/-- A write of 1 to `RELOCK`. -/
def execRelock (ag : Agent) (s : State) : Host.Outcome State Fault Refusal :=
  .next (s.writeBy ag lifePage 0x168 (fun u => u.relock))

/-! ### Unlocking Easel (R356) -/

def State.tries (s : State) : Nat := s.fld lifePage LIFE_STATE.TRIES

/-- Big-endian words of a value of `n` words, word 0 first. -/
def beWord (v n w : Nat) : Word := BitVec.ofNat 64 (v / 2 ^ (64 * (n - 1 - w)))

/-- A fresh challenge (R356). -/
def State.drawChallenge (s : State) (challenge : BitVec 384) : State :=
  if s.tries = 3 then s
  else
    (List.range 6).foldl (fun u w =>
      u.setReg lifePage (LIFE_CHALLENGE.WORD.off + 8 * w) (beWord challenge.toNat 6 w)) { s with challenge := true }

/-- An Easel write of 1 to `LIFE_UNLOCK.REQ` (R356). -/
def execUnlockReq (challenge : BitVec 384) (s : State) : Host.Outcome State Fault Refusal :=
  .next (s.writeBy .easel lifePage 0x280 (fun u => u.drawChallenge challenge))

/-- `n` words of `LIFE_RESPONSE`, the first one most significant. -/
def State.response (s : State) (first n : Nat) : Nat :=
  (List.range n).foldl (fun a w => a * 2 ^ 64 + (s.reg lifePage (LIFE_RESPONSE.WORD.off + 8 * (first + w))).toNat) 0

/-- The digest that an unlock signs: challenge, `LIFE_ID`, scope byte. -/
def State.unlockDigest (s : State) (scope : Nat) : BitVec 384 :=
  let words := (List.range 6).flatMap (fun w => beBytes (s.reg lifePage (LIFE_CHALLENGE.WORD.off + 8 * w)).toNat 8)
  sha384 (words ++ beBytes s.fuses.id.toNat 8 ++ [BitVec.ofNat 8 scope])

/-- The checks of an unlock response (R356). -/
def State.unlockGood (s : State) (scope : Nat) : Bool :=
  let key := s.response 0 12
  s.challenge && decide (scope < 2) && decide (s.fuses.debugHash = some (sha384 (beBytes key 96)))
    && ecdsaVerify (BitVec.ofNat 768 key) (s.unlockDigest scope) (BitVec.ofNat 768 (s.response 12 12))

/-- `SUBMIT` (R356). -/
def State.submitUnlock (s : State) : State :=
  let scope := s.fld lifePage LIFE_UNLOCK.SCOPE
  let s1 := { s with challenge := false }
  if s.tries = 3 then s1.raise lifePage 3
  else if s.unlockGood scope then (s1.setFld lifePage LIFE_STATE.UNLOCK (scope + 1)).raise lifePage 2
  else (s1.setFld lifePage LIFE_STATE.TRIES (s.tries + 1)).raise lifePage 3

/-- An Easel write of 1 to `LIFE_UNLOCK.SUBMIT` (R356). -/
def execUnlockSubmit (s : State) : Host.Outcome State Fault Refusal :=
  .next (s.writeBy .easel lifePage 0x280 (fun u => u.submitUnlock))

/-! ### Tamper (R357) -/

/-- The action of a sensor, as it acts in the lifecycle state. -/
def State.tamperAction (s : State) (i : Nat) : Nat :=
  let a := s.fld lifePage ⟨0x158, 2 * i + 1, 2 * i⟩
  if a = 0 ∧ s.lifecycle = 2 then 1 else a

/-- A response is running: some bank 7 is being wiped. -/
def State.wiping (s : State) : Bool := s.slices.any (fun p => (s.panel p).wipeBank7)

/-- A sensor senses (R357). -/
def State.sense (s : State) (i : Nat) : State :=
  let pk := lifePage
  let s1 := ((s.markBit pk LIFE_TAMPER_STATUS.SEEN i).setFld
    pk LIFE_TAMPER_STATUS.NOW (putBit (s.fld pk LIFE_TAMPER_STATUS.NOW) i true)).count pk LIFE_TAMPER_STATUS.COUNT 1
  let (action, s1) := if s.tamperAction i = 3 then s1.freeWithin 0 2 else (s.tamperAction i, s1)
  if action = 0 then s1.raise pk 5
  else if s.wiping ∧ s.tamperBusy.getLsbD i then s1
  else
    let busy := putBit (if s.wiping then s.tamperBusy.toNat else 0) i true
    let s2 := ({ s1.wipeKeys with tamperBusy := BitVec.ofNat 6 busy }).raise pk 1
    if action = 2 then s2.packageReset 5 else s2

/-- The last wipe of the package's banks 7 ends a tamper response, and lets a lifecycle transition go on (R355, R357). -/
def State.endWipes (s : State) : State :=
  if s.wiping then s else { s with tamperBusy := 0 }.endTransition

/-- A wipe of bank 7 completes (R225). -/
def execBank7WipeDone (p : Slice) (s : State) : Host.Outcome State Fault Refusal :=
  let pk := scrPage p
  .next (if (s.panel p).wipeBank7 = false then s
    else
      let s1 := s.setPanel p { s.panel p with wipeBank7 := false }
      let s2 := if s1.bankCmd p 7 = s1.bankState p 7 then s1.setFld pk (bankBusy 7) 0 else s1
      (s2.raise pk 7).endWipes)

/-- A tamper sensor senses (R357). -/
def execTamperSense (i : Fin 6) (s : State) : Host.Outcome State Fault Refusal :=
  .next (if s.boot = .cold then s else s.sense i)

/-- A tamper sensor senses no longer (R358). -/
def execTamperSenseEnd (i : Fin 6) (s : State) : Host.Outcome State Fault Refusal :=
  .next (s.setFld lifePage LIFE_TAMPER_STATUS.NOW (putBit (s.fld lifePage LIFE_TAMPER_STATUS.NOW) i false))

end Sys2Proof.Machine
end

