-- ==== Sys2Proof/Machine/Prime.lean ====
section
/-! DEFINITION. The end of `PRIME` (R338, R347 to R352): what the restore, gesso, the memory controller and the boot
ROM have found and set, the modes the slices enter, and the first threads. -/

namespace Sys2Proof

/-! ### The header of an image slot (R350) -/

/-- Bytes of a slot; those that the flash does not give read as zero. -/
def Image.bytes (x : Image) (first n : Nat) : List Byte := (List.range n).map (fun i => x.flash.getD (first + i) 0)

/-- A little-endian number of bytes of a slot. -/
def Image.number (x : Image) (first n : Nat) : Nat :=
  (x.bytes first n).foldr (fun b v => v * 256 + b.toNat) 0

def Image.magic (x : Image) : Nat := x.number 0x000 4
def Image.version (x : Image) : BitVec 32 := BitVec.ofNat 32 (x.number 0x004 4)
def Image.words (x : Image) : Nat := x.number 0x008 4
def Image.entry (x : Image) : Nat := x.number 0x00C 4
def Image.clock (x : Image) : Nat := x.number 0x010 4
def Image.secureBase (x : Image) : Nat := x.number 0x014 4
def Image.secureSize (x : Image) : Nat := x.number 0x018 4
def Image.vectors (x : Image) : Nat := x.number 0x01C 4
def Image.zeros (x : Image) : Bool := (x.bytes 0x020 16).all (fun b => decide (b = 0))
def Image.debugKeyHash (x : Image) : BitVec 384 := BitVec.ofNat 384 (Machine.beNat (x.bytes 0x030 48))
def Image.key (x : Image) : BitVec 768 := BitVec.ofNat 768 (Machine.beNat (x.bytes 0x060 96))
def Image.signature (x : Image) : BitVec 768 := BitVec.ofNat 768 (Machine.beNat (x.bytes 0x0C0 96))

/-- A payload word: the tag byte, then the payload bytes, little-endian. -/
def Image.word (x : Image) (i : Nat) : TWord :=
  Machine.tword (x.number (0x200 + 9 * i) 1) (BitVec.ofNat 64 (x.number (0x201 + 9 * i) 8))

def Image.payload (x : Image) : List TWord := (List.range x.words).map x.word

/-- The image digest. -/
def Image.digest (x : Image) : BitVec 384 := Machine.sha384 (x.bytes 0 0xC0 ++ x.bytes 0x200 (9 * x.words))

/-- The SHA-384 of the image key. -/
def Image.keyHash (x : Image) : BitVec 384 := Machine.sha384 (x.bytes 0x060 96)

end Sys2Proof

namespace Sys2Proof.Machine

open Sys2Proof

/-! ### Restore (R336, R338) -/

/-- The U fields of one register take their values from a slot. -/
def State.restoreReg (s : State) (key : Nat) (w : Word) : State :=
  let pk := key / 4096
  let off := key % 4096
  s.setReg pk off ((fieldsAt pk off).foldl
    (fun x f => if f.rest.isU then putBits x f.fld.hi f.fld.lo (bits w f.fld.hi f.fld.lo) else x) (s.reg pk off))

/-- The newest valid slot is restored, or factory values stand; a source that a restored `EVENT_EN` makes active reaches
its controller as any other (R205, R206). -/
def State.restore (s : State) : State :=
  let s1 := s.showSlots
  match s.newestSlot with
  | some (b, p) =>
    let s2 := p.fields.foldl (fun u e => u.restoreReg e.1 e.2) s1
    let s3 := (p.fields.filter (fun e => decide (e.1 % 4096 = 0x028))).foldl
      (fun u e => u.signalEnabled s1 (e.1 / 4096)) s2
    s3.setFld upntPage UPNT_STATUS.RESTORED b.toNat
  | none =>
    if s.slotA.isNone ∧ s.slotB.isNone then s1.setFld upntPage UPNT_STATUS.RESTORED 2
    else (s1.setFld upntPage UPNT_STATUS.RESTORED 3).raise upntPage 2

/-- Banks take the power state restored, and bank 7 its keys (R224, R338, R355). -/
def State.powerBanks (s : State) (p : Nat) : State :=
  let pk := scrPage p
  let s0 := if s.lifecycle = 3 then s.setFld pk SCR_POWER.BANK7 2 else s
  let s1 := (s0.setFld pk SCR_POWER_STATUS.STATE ((s0.reg pk 0x100).toNat % 2 ^ 16)).setFld pk SCR_POWER_STATUS.BUSY 0
  if s1.bankState p 7 = 2 then s1
  else
    match s1.newestSlot with
    | none => s1
    | some (_, x) => (x.secure.filter (fun e => decide (e.1 / 1024 = p))).foldl
        (fun u e => u.setWord p (0x1C0000 + 8 * (e.1 % 1024)) e.2) s1

/-- The stencil outputs of a sector stand at their `INIT` levels (R269, R275). -/
def State.initStencils (s : State) (sl : Nat) : State :=
  (List.range 8).foldl (fun u e =>
    let o := u.initOuts sl e
    u.setStencil sl e { u.stencil sl e with outs := o, wasOuts := o }) s

/-- Step 3 of `PRIME` ends (R347, R348): the underpainting is restored, the banks have their power state, and the stencil
outputs their first levels. -/
def State.endRestore (s : State) : State :=
  let s1 := s.restore
  let s2 := s1.slices.foldl (fun u p => (u.powerBanks p).initStencils p) s1
  { s2 with restored := true }

/-- The latest tick at which step 3 ends: 12 ms. -/
def restoreTick : Nat := 15000000

/-- The tick at which step 3 ends, if `PRIME` itself has not ended before (assumption 133). -/
def State.tickPrime (s : State) : State :=
  if s.boot = .priming ∧ s.restored = false ∧ restoreTick ≤ s.ticks then s.endRestore else s

/-! ### Gesso (R347, R349) -/

/-- A comparator's steps. -/
def gessoSteps (g : GessoSlice) (c : Nat) : Nat := g.steps.toNat / 16 ^ c % 16

/-- The comparators of a sector (R77). -/
def State.gessoComparators (s : State) (sl : Nat) (g : GessoSlice) : State :=
  (List.range 32).foldl (fun u c =>
    let pk := wcmpPage sl c
    (u.setFld pk WCMP_CHECK.RESULT (gessoSteps g c)).setFld pk WCMP_STATE.FAILED (decide (gessoSteps g c ≠ 15)).toNat) s

/-- A measured span of gesso. -/
def tapsGood (t : Nat × Nat) : Bool :=
  decide (72 ≤ t.1) && decide (t.1 ≤ 123) && decide (72 ≤ t.2) && decide (t.2 ≤ 123)

/-- The delay lines of a sector: both lines of each pair, and the sampling line of each converter (R99, R101). -/
def State.gessoLines (s : State) (sl : Nat) (g : GessoSlice) : State :=
  (List.range 16).foldl (fun u p =>
    let pk := pwmpPage sl p
    let t := g.taps.getD p (0, 0)
    let u1 := ((u.setFld pk PWMP_STIPPLE.TAPS_A t.1).setFld pk PWMP_STIPPLE.TAPS_B t.2).setFld
      pk PWMP_STIPPLE.LOCKED (tapsGood t).toNat
    let u2 := u1.setPair sl p { u1.pair sl p with tapsA := t.1, tapsB := t.2 }
    u2.setConv sl p { u2.conv sl p with span := g.lines.getD p 0, map := g.lines.getD p 0 }) s

/-- The converters of a sector (R60). -/
def State.gessoConverters (s : State) (sl : Nat) (g : GessoSlice) : State :=
  (List.range 16).foldl (fun u c =>
    let pk := fadcPage sl c
    let t := g.trims.getD c (0, 0, false)
    let u1 := (u.setFld pk FADC_CAL_RESULT.GAIN t.1.toNat).setFld pk FADC_CAL_RESULT.OFFSET t.2.1.toNat
    ((u1.setFld pk FADC_CAL.CAL_DUE 0).setConv sl c
      { u1.conv sl c with calJunction := u1.sfld (modePage sl) MODE_THERMAL.NOW }).raise pk 3) s

/-- A sector fails under R349. -/
def sectorFails (g : GessoSlice) : Bool :=
  (List.range 32).any (fun c => decide (gessoSteps g c ≠ 15)) || (List.range 16).any (fun p => !tapsGood (g.taps.getD p (0, 0)))
    || (List.range 16).any (fun c => !tapsGood (g.lines.getD c 0, g.lines.getD c 0))
    || (List.range 16).any (fun c => !(g.trims.getD c (0, 0, false)).2.2)

/-- A panel fails under R349. -/
def panelFails (g : GessoSlice) : Bool := decide (g.checkers ≠ 0xFFFFF) || !g.lockstepDetected

/-- The checkers and spares of a panel (R230). -/
def State.gessoArrays (s : State) (p : Nat) (g : GessoSlice) : State :=
  let pk := scrPage p
  (((s.setFld pk SCR_CHECK.PASS g.checkers.toNat).setFld pk SCR_REPAIR.BANKS g.repair.toNat).setFld
    pk SCR_REPAIR_L2.COLS (g.repairL2.toNat / 256)).setFld pk SCR_REPAIR_L2.ROWS (g.repairL2.toNat % 256)

/-- The module lies within the table of R233. -/
def moduleListed (g : GessoSlice) : Bool :=
  g.registered && decide (1 ≤ g.ranks.val) && decide (g.ranks.val ≤ 2) && decide (g.width.val ≤ 1)
    && decide (16 ≤ g.capacity.toNat) && decide (g.capacity.toNat ≤ 128) && decide (g.maxSpeed.val ≤ 4)

/-- The module of a panel and its training (R233 to R235, R243), and what grade B allows of its rate (R400); initialisation goes on after `PRIME`. -/
def State.primeDram (s : State) (p : Nat) (g : GessoSlice) : State :=
  let pk := ddrcPage p
  let rate := if s.fuses.gradeB then min 2 g.maxSpeed.val else g.maxSpeed.val
  let s1 := ((((((s.setFld pk DDRC_MODULE.PRESENT g.present.toNat).setFld pk DDRC_MODULE.SUPPORTED
    (g.present && moduleListed g).toNat).setFld pk DDRC_MODULE.CAPACITY g.capacity.toNat).setFld pk DDRC_MODULE.MAX_SPEED
    rate).setFld pk DDRC_MODULE.WIDTH g.width).setFld pk DDRC_MODULE.RANKS g.ranks).setFld pk DDRC_STATE.SPEED_NOW
    (min (s.fld pk DDRC_CFG.SPEED) rate)
  let s2 := s1.setPanel p { s1.panel p with
    dramGroups := g.groups, dramBanks := g.banks, dramRows := g.rows.toNat }
  if g.present && moduleListed g then
    if g.trained then s2.setPanel p { s2.panel p with dramInit := true } else s2.setFld pk DDRC_STATE.TRAIN_FAIL 1
  else s2

/-- What gesso and training have found in a slice. -/
def State.primeSlice (s : State) (sl : Nat) (g : GessoSlice) : State :=
  let s1 := (((s.gessoComparators sl g).gessoLines sl g).gessoConverters sl g).gessoArrays sl g
  let s2 := s1.primeDram sl g
  let s3 := s2.setFld lifePage LIFE_GESSO.SECTOR
    (putBit (s2.fld lifePage LIFE_GESSO.SECTOR) sl (sectorFails g))
  s3.setFld lifePage LIFE_GESSO.PANEL (putBit (s3.fld lifePage LIFE_GESSO.PANEL) sl (panelFails g))

/-- A panel that fails gesso is held, and its pages are orphaned (R349). -/
def State.holdFailed (s : State) (p : Nat) : State :=
  let s1 := s.setPanel p { s.panel p with held := true }
  (s1.ownedPages p).foldl (fun u k => u.setOwnerState k false true) s1

/-! ### The boot image (R350 to R352) -/

/-- The magic number of R350. -/
def imageMagic : Nat := 0x4B564931

/-- The zero fields and ranges of R350 hold. -/
def rangesGood (x : Image) : Bool :=
  x.zeros && decide (0 < x.words) && decide (x.words ≤ 131072) && decide (x.entry < x.words) && decide (x.clock ≤ 2)
    && decide (x.secureBase % 512 = 0) && decide (x.secureSize ≤ 256) && decide (x.vectors % 8 = 0)

/-- An image hash of the underpainting. -/
def State.imageHash (s : State) (h : Nat) : BitVec 384 :=
  BitVec.ofNat 384 ((List.range 6).foldl (fun a w => a * 2 ^ 64 + (s.reg upntPage (0x140 + 8 * (6 * h + w))).toNat) 0)

/-- The nonzero image hashes. -/
def State.imageHashes (s : State) : List (BitVec 384) :=
  ((List.range 4).map s.imageHash).filter (fun h => decide (h ≠ 0))

/-- The checks of R351: 0, or the code of the first that fails; 1 is the magic number (assumption 133). -/
def State.checkImage (s : State) (x : Image) : Nat :=
  let st := s.lifecycle
  let hashes := s.imageHashes
  if x.answers = false then 7
  else if x.magic ≠ imageMagic then 1
  else if rangesGood x = false then 2
  else if st = 2 ∧ x.version.toNat < s.fuses.floor then 6
  else if (st = 1 ∨ st = 2) ∧ hashes ≠ [] ∧ hashes.contains x.digest = false then 3
  else if st = 0 then 0
  else if s.fuses.keyHash ≠ some x.keyHash then 4
  else if ecdsaVerify x.key x.digest x.signature = false then 5
  else 0

/-- The payload in the banks of a panel (R351). -/
def State.loadPayload (s : State) (p : Nat) (x : Image) : State :=
  x.payload.zipIdx.foldl (fun u e =>
    if u.bankOn p (8 * e.2 / 0x40000) then u.setWord p (8 * e.2) e.1 else u) s

/-- Thread 0 of a panel starts (R352). -/
def State.startFirst (s : State) (p : Nat) (x : Image) : State :=
  s.setThread p 0 { s.thread p 0 with
    run := .running, pc := 8 * x.entry, status := 0x100, vbase := BitVec.ofNat 64 (8 * x.vectors),
    osLo := 0x180000, osp := 0x180000, osHi := 0x1A0000, csLo := 0x1A1000, fsp := 0x1A1000, csp := 0x1C0000,
    csHi := 0x1C0000 }

/-- An image boots (R351, R352). -/
def State.bootImage (s : State) (x : Image) (slotB : Bool) : State :=
  let status := if s.lifecycle = 0 then 2 else slotB.toNat
  let s1 := ((s.setFld lifePage LIFE_BOOT.STATUS status).setFld lifePage LIFE_BOOT.VERSION x.version.toNat).raiseIf
    (decide (status ≠ 0)) lifePage 0
  let s2 := s1.slices.foldl (fun u p =>
    let u1 := (u.setFld lifePage (LIFE_SECURE.BASE.at (8 * p)) (x.secureBase / 512)).setFld
      lifePage (LIFE_SECURE.SIZE.at (8 * p)) x.secureSize
    let u2 := u1.loadPayload p x
    if (u2.panel p).held then u2 else u2.startFirst p x) s1
  { s2 with image := some (x.version.toNat, x.keyHash, x.debugKeyHash) }

/-- The ROM tries slot A, then slot B (R351). -/
def State.boots (s : State) (a b : Image) : State :=
  if s.lifecycle = 4 then s.setFld lifePage LIFE_BOOT.STATUS 4
  else
    let ca := s.checkImage a
    let s1 := s.setFld lifePage LIFE_BOOT.FAIL_A ca
    if ca = 0 then s1.bootImage a false
    else
      let cb := s.checkImage b
      let s2 := s1.setFld lifePage LIFE_BOOT.FAIL_B cb
      if cb = 0 then s2.bootImage b true else s2.setFld lifePage LIFE_BOOT.STATUS 3

/-! ### The modes, and what starts with them -/

/-- The mode a slice enters (R338, R349). -/
def State.firstMode (s : State) (sl : Nat) : Nat :=
  let failed := bit (s.fld lifePage LIFE_GESSO.SECTOR) sl || bit (s.fld lifePage LIFE_GESSO.PANEL) sl
    || !(s.panel sl).dramInit || decide (s.fld upntPage UPNT_STATUS.RESTORED = 3)
    || decide (3 ≤ s.fld lifePage LIFE_BOOT.STATUS) || s.flag (tripPage sl) TRIP_OVERRIDE.THERMAL
  let resume := s.fld (modePage sl) MODE_RESUME.RESUME
  if failed ∨ resume = 0 then HOLD else resume

/-- Everything of a sector that starts at the anchor tick (R55, R62, R84, R134, R143, R272). -/
def State.startSector (s : State) (sl : Nat) : State :=
  let s1 := (List.range 16).foldl (fun u p => u.pairConfigured sl p) s
  let s2 := (List.range 16).foldl (fun u p =>
    if u.flag (pwmpPage sl p) PWMP_CFG.AUTOSTART then u.startLeader sl p else u) s1
  let s3 := (List.range 16).foldl (fun u n => (u.setSlot sl n { u.slot sl n with live := u.staged sl n }).setFld
    (loopPage sl n) LOOP_OUT.VALUE (u.fld (loopPage sl n) LOOP_MANUAL.VALUE)) s2
  let s4 := (List.range 8).foldl (fun u e =>
    if u.flag (stenPage sl e) STEN_CFG.AUTOSTART then u.askStart sl e else u) s3
  let s5 := (List.range 32).foldl (fun u c => u.reevaluate sl c) s4
  (s5.startMonitor sl).settleTrips sl 0

/-- A slice leaves `PRIME` (R55, R309, R335). -/
def State.leavePrime (s : State) (sl : Nat) : State :=
  let m := s.firstMode sl
  let s1 := { s.setMode sl m m with anchors := Store.write 0 s.anchors sl s.ticks }
  let s2 := (s1.startSector sl).setHandover sl { s1.handover sl with wdogFrom := s.ticks }
  let begins := s2.flag (jrnlPage sl) JRNL_CFG.EN && !(s2.panel sl).held
  s2.setJournal sl { s2.journal sl with starting := begins }

/-- `PRIME` ends (R347 to R352). -/
def State.endPrime (s : State) (gesso : List GessoSlice) (a b : Image) : State :=
  let found := s.slices.filterMap (fun sl => (gesso[sl]?).map (fun g => (sl, g)))
  let s2 := if s.restored then s else s.endRestore
  let s3 := found.foldl (fun u x => u.primeSlice x.1 x.2) s2
  let s4 := found.foldl (fun u x => if panelFails x.2 then u.holdFailed x.1 else u) s3
  let s5 := { s4.boots a b with boot := .done }
  s5.slices.foldl (fun u sl => u.leavePrime sl) s5

/-- `PRIME_END`: gesso has a result for each slice. -/
def execPrimeEnd (gesso : List GessoSlice) (slotA slotB : Image) (s : State) : Host.Outcome State Fault Refusal :=
  .next (if s.boot ≠ .priming ∨ gesso.length < s.variant.slices then s else s.endPrime gesso slotA slotB)

end Sys2Proof.Machine
end

