-- ==== Sys2Proof/Machine/Easl.lean ====
section
/-! DEFINITION. Easel (R360, R364 to R368, R371): halts, steps, resumption, debug reset, thread registers, injection,
and the instructions of the JTAG port. -/

namespace Sys2Proof.Machine

open Sys2Proof

/-- A debug action: done where the lifecycle state permits it, refused with source 573 elsewhere (R362, R372). -/
def State.easel (s : State) (act : State → State) : State := if s.easelOpen then act s else s.refusePort

/-- `HALTED` of a panel. -/
def State.showHalted (s : State) (p : Nat) (v : Bool) : State :=
  s.setFld easlPage EASL_STATUS.HALTED (putBit (s.fld easlPage EASL_STATUS.HALTED) p v)

/-! ### Halt and resume (R364, R366) -/

/-- Threads of a panel that a step runs. -/
def State.steppers (s : State) (p : Nat) : List Nat :=
  (List.range 16).filter (fun t => (s.thread p t).stepEnd.isSome)

/-- `HALT` takes effect: a running step of a halted panel ends at its next boundary (R364, R365). -/
def State.haltPanel (s : State) (p : Nat) : State :=
  if (s.panel p).halted then
    (s.steppers p).foldl (fun u t =>
      u.setThread p t { u.thread p t with stepEnd := some (u.thread p t).retired.toNat }) s
  else s.orderHalt p

/-- An Easel write of 1 to `EASL_CMD.HALT` (R364). -/
def execEaslHalt (p : Slice) (s : State) : Host.Outcome State Fault Refusal := .next (s.easel (fun u => (u.setFld easlPage EASL_CMD.PANEL p).haltPanel p))

/-- The panel has stopped: its issued device-space loads are answered (R364). -/
def execHaltComplete (p : Slice) (s : State) : Host.Outcome State Fault Refusal :=
  let pn := s.panel p
  .next (if pn.halting = false ∨ (List.range 16).any (fun t => !(s.thread p t).loads.isEmpty) = true then s
    else ((s.setPanel p { pn with halting := false, halted := true }).showHalted p true).raise easlPage 0)

/-- `RESUME` takes effect (R309, R366). -/
def State.resumePanel (s : State) (p : Nat) : State :=
  let pn := s.panel p
  if pn.halted = false then s
  else
    let s1 := (s.steppers p).foldl (fun u t => u.setThread p t { u.thread p t with stepEnd := none }) s
    let s2 := ((s1.setPanel p { pn with halted := false }).showHalted p false).setFld easlPage EASL_STEP.COUNT 0
    let s3 := s2.unreleaseHeld p
    (s3.setHandover p { s3.handover p with wdogFrom := s.ticks }).raise easlPage 2

/-- An Easel write of 1 to `EASL_CMD.RESUME` (R366). -/
def execEaslResume (p : Slice) (s : State) : Host.Outcome State Fault Refusal :=
  .next (s.easel (fun u => (u.setFld easlPage EASL_CMD.PANEL p).resumePanel p))

/-- A debug reset (R334): every thread restarts, and stays halted before its first instruction. -/
def State.debugReset (s : State) (p : Nat) : State :=
  let s1 := if s.halted p then s else s.orderHalt p
  if s1.halted p then (List.range 16).foldl (fun u t => u.restartThread p t) s1 else s1

/-- An Easel write of 1 to `EASL_CMD.DRESET` (R334, R366). -/
def execEaslDreset (p : Slice) (s : State) : Host.Outcome State Fault Refusal :=
  .next (s.easel (fun u => (u.setFld easlPage EASL_CMD.PANEL p).debugReset p))

/-! ### Steps (R365) -/

/-- A write of `EASL_STEP`. -/
def State.stepThread (s : State) (thread : Nat) (irq : Bool) (count : Nat) : State :=
  let p := s.fld easlPage EASL_CMD.PANEL
  let go := (s.panel p).halted && decide (count ≠ 0)
  let s1 := ((s.setFld easlPage EASL_STEP.THREAD thread).setFld easlPage EASL_STEP.STEP_IRQ irq.toNat).setFld
    easlPage EASL_STEP.COUNT (if go then count else 0)
  if go then
    let s2 := (s1.steppers p).foldl (fun u t => u.setThread p t { u.thread p t with stepEnd := none }) s1
    let th := s2.thread p thread
    s2.setThread p thread { th with stepEnd := some (th.retired.toNat + count) }
  else s1

/-- An Easel write of `EASL_STEP` (R365). -/
def execEaslStep (thread : Fin 16) (irq : Bool) (count : BitVec 30) (s : State) : Host.Outcome State Fault Refusal :=
  .next (s.easel (fun u => u.stepThread thread irq count.toNat))

/-- A step has run to its end (R365). -/
def execStepEnd (p : Slice) (s : State) : Host.Outcome State Fault Refusal :=
  let ended := (s.steppers p).find? (fun t =>
    match (s.thread p t).stepEnd with
    | some n => decide (n ≤ (s.thread p t).retired.toNat)
    | none => false)
  .next (match ended with
    | none => s
    | some t => ((s.setThread p t { s.thread p t with stepEnd := none }).setFld easlPage EASL_STEP.COUNT 0).raise
        easlPage 1)

/-- `EASL_STEP` as a read returns it: the steps left (R373). -/
def State.stepWord (s : State) : Word :=
  let p := s.fld easlPage EASL_CMD.PANEL
  let t := s.fld easlPage EASL_STEP.THREAD
  let left := match (s.thread p t).stepEnd with
    | some n => n - (s.thread p t).retired.toNat
    | none => 0
  putBits (s.reg easlPage 0x110) 63 34 left

/-! ### Thread state (R367) -/

/-- A renamed entry replaced. -/
def putSlot (i : Nat) (w : TWord) : List Slot → List Slot
  | [] => []
  | x :: rest => match i with
    | 0 => .word w :: rest
    | j + 1 => x :: putSlot j w rest

/-- A selection of `EASL_TREG.SEL` that names something (R373). -/
def tregThere (sel : Nat) : Bool := specialAssigned sel || (decide (0x100 ≤ sel) && decide (sel < 0x110)) || decide (sel = 0x200)

/-- A panel's state after an act that its journal does not record (R363). -/
def State.unrecorded (s : State) (p : Nat) (act : State → Except Stop State) : Except Stop State :=
  let j := s.journal p
  match act (s.setJournal p { j with threads := 0 }) with
  | .ok u => .ok (u.setJournal p { u.journal p with threads := j.threads })
  | .error e => .error e

/-- The selected item of a thread is written, outside the journal; `none` where that is refused. An entry that is not
renamed holds nothing to write. -/
def State.putTreg (s : State) (p t sel tag : Nat) (data : Word) : Option State :=
  let th := s.thread p t
  if tregThere sel = false then none
  else if sel < 0x60 then
    match s.unrecorded p (fun u => u.writeSpecial p t sel data) with
    | .ok s1 => some s1
    | .error _ => none
  else if sel = 0x200 then some (s.setThread p t { th with pc := data.toNat % 2 ^ 48 })
  else some (s.setThread p t { th with stack := putSlot (sel - 0x100) (tword tag data) th.stack })

/-- The panel that `EASL_TREG` reaches is halted, and the selection names something (R367, R373). -/
def State.tregOpen (s : State) : Bool :=
  (s.panel (s.fld easlPage EASL_CMD.PANEL)).halted && tregThere (s.fld easlPage EASL_TREG.SEL)

/-- A write of `EASL_TDATA`: refused unless the panel is halted. -/
def State.writeTreg (s : State) (data : Word) : State :=
  if s.tregOpen = false then s.refusePort
  else
    (s.putTreg (s.fld easlPage EASL_CMD.PANEL) (s.fld easlPage EASL_TREG.THREAD) (s.fld easlPage EASL_TREG.SEL)
      (s.fld easlPage EASL_TTAG.TAG) data).getD s.refusePort

/-- A write of `EASL_TDATA` by Easel (R367). -/
def execEaslTregWrite (data : Word) (s : State) : Host.Outcome State Fault Refusal :=
  .next (s.easel (fun u => u.writeTreg data))

/-- `EASL_TDATA` and `EASL_TTAG` as a read returns them: the payload and the tag of the selected item. `EVC_CLAIM` shows what
it would claim (R363). -/
def State.tregWord (s : State) : TWord :=
  let p := s.fld easlPage EASL_CMD.PANEL
  let t := s.fld easlPage EASL_TREG.THREAD
  let sel := s.fld easlPage EASL_TREG.SEL
  let th := s.thread p t
  let tag := s.fld easlPage EASL_TTAG.TAG
  if s.tregOpen = false then 0
  else if sel = 0x50 then tword tag (s.claimWord p t)
  else if sel < 0x60 then
    (match s.special p t sel with
     | some (w, _) => tword tag w
     | none => 0)
  else if sel = 0x200 then tword tag (BitVec.ofNat 64 th.pc)
  else match th.stack[sel - 0x100]? with
    | some (.word w) => w
    | _ => 0

/-! ### Injection (R368) -/

/-- A write of `EASL_INJECT`: refused outside `DEVELOP`, and for an output that does not exist. -/
def State.injectDifference (s : State) (data : Word) : State :=
  let pk := easlPage
  if s.lifecycle ≠ 1 ∨ bits data 2 0 = 7 then s.refusePort
  else
    let s1 := if bit data.toNat 63 then s.setFld pk EASL_INJECT.SEEN 0 else s
    let s2 := (((s1.setFld pk EASL_INJECT.DETECT (bits data 9 9)).setFld pk EASL_INJECT.PANEL (bits data 7 5)).setFld
      pk EASL_INJECT.CORE (bits data 4 3)).setFld pk EASL_INJECT.OUTPUT (bits data 2 0)
    if bit data.toNat 8 then
      let p := bits data 7 5
      let c := bits data 4 3
      s2.setCore p c { s2.core p c with inject := some (bits data 2 0, bit data.toNat 9) }
    else s2

/-- An Easel write of `EASL_INJECT` (R368). -/
def execEaslInject (data : Word) (s : State) : Host.Outcome State Fault Refusal :=
  .next (s.easel (fun u => u.injectDifference data))

/-! ### The port (R360, R370, R371) -/

/-- An instruction is shifted into the port, whose register has captured 0b0000_0001 before (R360). -/
def State.loadTap (s : State) (ir : BitVec 8) : State := { s with jtag := { s.jtag with ir := ir, irCaptured := 0x01 } }

/-- The balls are under the control of boundary scan: only while `PKG_RESET_N` is held low. -/
def State.scanControls (s : State) : Bool :=
  s.resetPinLow && (decide (s.jtag.ir = 0x00) || decide (s.jtag.ir = 0x03) || decide (s.jtag.ir = 0x04))

/-- Balls of the package that have boundary cells, numbered for every variant (R370, R385; assumption 77): the signal balls
but for DDR5, Ethernet and analog ones. -/
inductive Ball where
  /-- `PWM{s}_A{pp}` and `PWM{s}_B{pp}`, trip inputs, stencil pins -/
  | pwm (sec pair : Nat) (out : Out)
  | trip (sec t : Nat)
  | stencil (sec pin : Nat)
  /-- clocks, control and boot-flash balls in the order of R385, event pins -/
  | clock (i : Nat)
  | control (i : Nat)
  | flash (i : Nat)
  | event (i : Nat)
  deriving DecidableEq, Repr

/-- The ball of a number. -/
def ballOf (n : Nat) : Ball :=
  if n < 256 then .pwm (n / 32) (n % 32 / 2) (if n % 2 = 0 then .a else .b)
  else if n < 320 then .trip ((n - 256) / 8) (n % 8)
  else if n < 448 then .stencil ((n - 320) / 16) (n % 16)
  else if n < 456 then .clock (n - 448)
  else if n < 464 then .control (n - 456)
  else if n < 476 then .flash (n - 464)
  else .event (n - 476)

/-- The variant has the ball. -/
def State.hasBall (s : State) (b : Ball) : Bool :=
  match b with
  | .pwm sec _ _ | .trip sec _ | .stencil sec _ => s.present sec
  | .clock _ | .control _ | .flash _ | .event _ => true

/-- The ball is an output, or may be one. -/
def Ball.drives (b : Ball) : Bool :=
  match b with
  | .pwm _ _ _ | .stencil _ _ | .flash _ => true
  | .clock i => decide (i = 3) || decide (6 ≤ i)
  | .control i => decide (i = 4)
  | .trip _ _ | .event _ => false

/-- What the device itself drives on a ball: the PWM pins of R113, the stencil pins of R269 and `CANVAS_SYNC_OUT` of R33;
of the other outputs the spec gives no level. -/
def State.ownDrive (s : State) (b : Ball) : Option Bool :=
  match b with
  | .pwm sec pair out =>
    (match s.pin sec pair out with
     | .low => some false
     | .high => some true
     | .z => none)
  | .stencil sec pin => s.padDrive sec pin
  | .clock 6 => some s.syncOutHigh
  | .clock 7 => some (!s.syncOutHigh)
  | _ => none

/-- What drives ball `n` from within the package: the boundary cells while they have control (R371), else the device. -/
def State.ballDrive (s : State) (n : Nat) : Option Bool :=
  let b := ballOf n
  if s.hasBall b = false ∨ b.drives = false then none
  else if s.scanControls = false then s.ownDrive b
  else if s.jtag.ir = 0x04 ∨ s.jtag.outputs.getLsbD n = false then none
  else some (s.jtag.levels.getLsbD n)

/-- The levels of the balls at Capture-DR: what the package drives, and elsewhere the board's. -/
def State.ballLevels (s : State) (board : BitVec 492) : BitVec 492 :=
  BitVec.ofNat 492 ((List.range 492).foldl (fun w n =>
    if s.hasBall (ballOf n) && (s.ballDrive n).getD (board.getLsbD n) then w + 2 ^ n else w) 0)

/-- A pass of the boundary-scan register: its cells capture the balls, and take what is shifted in. -/
def State.scanBalls (s : State) (x : Scan) : State :=
  { s with jtag := { s.jtag with
    caught := s.ballLevels x.board
    levels := x.levels
    outputs := x.outputs } }

/-- The cells capture the balls where an instruction does not have control of them (R371). -/
def State.catchBalls (s : State) (board : BitVec 492) : State :=
  if s.scanControls then s else { s with jtag := { s.jtag with caught := s.ballLevels board } }

/-- `TRST_N` resets the port and no other part (R360). -/
def execTapReset (s : State) : Host.Outcome State Fault Refusal := .next { s with jtag := {} }

/-- `EXTEST` (R370, R371). -/
def execExtest (s : State) (scan : Scan := ⟨0, 0, 0⟩) : Host.Outcome State Fault Refusal :=
  .next ((s.loadTap 0x00).scanBalls scan)

/-- `IDCODE`. -/
def execIdcode (s : State) : Host.Outcome State Fault Refusal := .next (s.loadTap 0x01)

/-- `SAMPLE/PRELOAD` (R370). -/
def execSamplePreload (s : State) (scan : Scan := ⟨0, 0, 0⟩) : Host.Outcome State Fault Refusal :=
  .next ((s.loadTap 0x02).scanBalls scan)

/-- `CLAMP`, with the levels that the board gives the balls (R371). -/
def execClamp (s : State) (board : BitVec 492 := 0) : Host.Outcome State Fault Refusal :=
  .next ((s.loadTap 0x03).catchBalls board)

/-- `HIGHZ`, with the levels that the board gives the balls (R371). -/
def execHighz (s : State) (board : BitVec 492 := 0) : Host.Outcome State Fault Refusal :=
  .next ((s.loadTap 0x04).catchBalls board)

/-- `BYPASS`. -/
def execBypass (s : State) : Host.Outcome State Fault Refusal := .next (s.loadTap 0xFF)

/-- The word that `IDCODE` shifts out; the silicon revision is free (R360; assumption 2). -/
def State.idcode (s : State) : BitVec 32 :=
  let part : Nat := match s.variant with
    | .kv2 => 0x7202
    | .kv4 => 0x7204
    | .kv8 => 0x7208
  BitVec.ofNat 32 ((Config.siliconRevision.toNat % 16) * 2 ^ 28 + part * 2 ^ 12 + 0x4E3 * 2 + 1)

end Sys2Proof.Machine
end

