-- ==== Sys2Proof/Machine/RegRead.lean ====
section
/-! DEFINITION. What a read of a page register returns (R5, R6, R11, R40, R377, and each block's register tables), and
what a read by a thread or a channel does besides (R255, R265, R271, R363). -/

namespace Sys2Proof.Machine

open Sys2Proof

/-- `IDENT` (R377). -/
def identWord (pk : Nat) : Word :=
  match blockOf pk with
  | none => 0
  | some (b, i) =>
    let window := if windowOf pk < 16 then windowOf pk % 8 else 0
    BitVec.ofNat 64 ((typeCode b).1 * 2 ^ 48 + window * 2 ^ 40 + i * 2 ^ 32 + 0x10000)

/-- `CAPS` (R377): on package pages the instances that the page index gives for the variant. -/
def State.capsWord (s : State) (pk : Nat) : Word :=
  match blockOf pk with
  | none => 0
  | some (b, _) =>
    let n := match b with
      | .modeSlice | .modePkg => s.variant.slices + 1
      | .hovr => s.variant.slices
      | other => (typeCode other).2
    BitVec.ofNat 64 (s.variant.slices * 2 ^ 40 + n * 2 ^ 32)

/-- `OWNER` (R11). -/
def State.ownerWord (s : State) (pk : Nat) : Word :=
  let p := if isPanelPage pk then windowOf pk - 8 else s.owner pk
  let kept := if isPanelPage pk then 0 else (s.reg pk 0x038).toNat / 0x400 % 4
  BitVec.ofNat 64 (kept * 0x400 + (p ^^^ 1) * 16 + p)

/-- Bits of 64 sources of a table. -/
def sourceBits (f : Nat → Bool) (i : Nat) : Word :=
  BitVec.ofNat 64 (((List.range 64).filter (fun b => f (64 * i + b))).map (fun b => 2 ^ b)).sum

/-- Sources of both tables with `WATCH` 1 (R213, R217). -/
def State.watchCount (s : State) (p : Nat) : Nat := (s.watchedSet p).length

/-- Registers of the event controller that show its state (R213). -/
def State.evcWord (s : State) (p table off : Nat) : Option Word :=
  if 0x100 ≤ off ∧ off < 0x160 then some (sourceBits (s.srcPending p table) ((off - 0x100) / 8))
  else if 0x180 ≤ off ∧ off < 0x1E0 then some (sourceBits (s.inService p table) ((off - 0x180) / 8))
  else if off = 0x200 then some (putBits (s.reg (evcPage p table) off) 14 8 (s.watchCount p))
  else none

/-- `JRNL_FILL` (R321). -/
def State.fillWord (s : State) (p : Nat) : Word :=
  let j := s.journal p
  if j.emptied then 0
  else BitVec.ofNat 64 (heldLines j.held j.epoch * 2 ^ 32 + (entryBytes j.entries + 127) / 128)

/-- `FAB_BULK` has grown by a free amount since it was last read, if bulk flits have left (assumption 48). -/
def State.bulkWord (s : State) (p : Nat) : Word × State :=
  let k := s.reg (fabPage p) 0x118
  if (s.panel p).hasBulk = false then (k, s)
  else
    let (d, s1) := s.fresh
    (k + d, (s1.setReg (fabPage p) 0x118 (k + d)).setPanel p { s1.panel p with hasBulk := false })

/-- `LIFE_TAMPER_CFG`: an action acts and reads as it does in the lifecycle state (R357). -/
def State.tamperWord (s : State) : Word :=
  (List.range 6).foldl (fun w i => putBits w (2 * i + 1) (2 * i) (s.tamperAction i)) (s.reg lifePage 0x158)

/-- Registers of a block that show live state rather than a stored value. -/
def State.liveWord (s : State) (pk off : Nat) : Option Word :=
  let w := windowOf pk
  match blockOf pk with
  | none => none
  | some (b, i) =>
    match b with
    | .pwmp => if off = 0x150 then some (s.countWord w i) else none
    | .trip =>
      if off = 0x130 then some ((s.trip w).registered.setWidth 64)
      else if off = 0x140 then
        some (putBits (s.reg pk off) 0 0
          (decide (s.mode w = PRIME) || decide (s.mode w = COMMISSION) || decide (s.mode w = HOLD)).toNat)
      else if 0x228 ≤ off ∧ (off - 0x228) % 0x40 = 0 then some (s.pairStateWord w ((off - 0x228) / 0x40))
      else none
    | .wcmp => if off = 0x110 then some (s.cmpStateWord w i) else none
    | .loop => if off = 0x018 then some (s.loopStatusWord w i) else none
    | .leng => if off = 0x100 then some (s.engineSlots w i) else none
    | .twq => if off = 0x100 then some (putBits (s.reg pk off) 8 0 (s.occupancy w)) else none
    | .canv =>
      if off = 0x100 then some (BitVec.ofNat 64 s.canvas)
      else if off = 0x110 ∧ s.fld pk CANV_DISC.SOURCE = 0 then
        some (putBits (s.reg pk off) CANV_DISC_STATUS.OFFSET.hi CANV_DISC_STATUS.OFFSET.lo 0)
      else if off = 0x200 then some (putBits (s.reg pk off) 8 0 (s.occupancy 8))
      else none
    | .sten =>
      if off = 0x130 then some (s.stenStateWord w i)
      else if off = 0x138 then some ((s.stencil w i).sr.setWidth 64)
      else none
    | .evc => s.evcWord (w - 8) i off
    | .jrnl => if off = 0x148 then some (s.fillWord (w - 8)) else none
    | .eth => if off = 0x160 then some (s.txPn (w - 8) i) else none
    | .modeSlice =>
      if off = 0x108 then some (s.modeStateWord i)
      else if off = 0x130 then
        let run := ((List.range 16).filter (fun t => decide ((s.thread i t).run ≠ .stopped))).map (fun t => 2 ^ t)
        some (putBits (s.reg pk off) 15 0 run.sum)
      else none
    | .upnt =>
      if 0x800 ≤ off then
        some (Store.read 0 s.supply.record (256 * s.fld upntPage UPNT_DIP_SEL.QUARTER + (off - 0x800) / 8))
      else none
    | .life => if off = 0x158 then some s.tamperWord else none
    | _ => none

/-- Registers whose read is itself what changes them (R255, R271, R381), and those by which Easel sees a stopped thread (R367). -/
def State.ownWord (s : State) (pk off : Nat) : Option (Word × State) :=
  let w := windowOf pk
  match blockOf pk with
  | none => none
  | some (b, i) =>
    match b with
    | .sten => if off = 0x128 then some (s.rxWord w i) else none
    | .fab => if off = 0x118 then some (s.bulkWord (w - 8)) else none
    | .dmaAlloc => if off = 0x100 then some (BitVec.ofNat 64 (s.freeChannel (w - 8)), s) else none
    | .easl =>
      if off = 0x110 then some (s.stepWord, s)
      else if off = 0x120 then some (payload s.tregWord, s)
      else if off = 0x128 then some (BitVec.ofNat 64 (tagOf s.tregWord), s)
      else none
    | _ => none

/-- A field reads as the value held, unless its access code makes it read zero for this access (R6). -/
def readsBack (secure : Bool) (a : Access) : Bool :=
  match a with
  | .wo | .w1s => false
  | .rws => secure
  | _ => true

/-- The word that the fields of a register show to an access (R5, R6). -/
def shownWord (secure : Bool) (pk off : Nat) (w : Word) : Word :=
  (fieldsAt pk off).foldl (fun x f =>
    if readsBack secure f.acc then putBits x f.fld.hi f.fld.lo (bits w f.fld.hi f.fld.lo) else x) 0

/-- The word that a register holds now. -/
def State.viewWord (s : State) (pk off : Nat) : Word := (s.liveWord pk off).getD (s.reg pk off)

/-- A register as a read finds it: an RO field that changes in this tick still shows what it held before (R8). While no
tick passes, it shows what it holds. -/
def State.heldWord (s : State) (pk off : Nat) : Word :=
  if s.timeStands then s.viewWord pk off
  else
    let before := s.asShown.viewWord pk off
    (fieldsAt pk off).foldl (fun x f =>
      if f.acc = .ro then putBits x f.fld.hi f.fld.lo (bits before f.fld.hi f.fld.lo) else x) (s.viewWord pk off)

/-- `DUE` as a panel reads it (R40, R41); the adopted threads of a panel read the failed panel's copy (R311). -/
def State.dueWord (s : State) (panel pk : Nat) : Word :=
  if isPanelPage pk then 0 else Store.read 0 s.dues (pk * 8 + panel)

/-- The panel whose copy of `DUE` an agent uses (R41, R311). -/
def State.duePanel (s : State) (ag : Agent) : Nat :=
  match ag with
  | .thread t => if (s.thread t.panel t.index).adopted.isSome then partner t.panel else t.panel
  | .dma p _ | .manager p _ | .intent p _ => p
  | .easel =>
    match s.jtag.access with
    | some x => x.panel
    | none => 0

/-- In `RETURN`, `SCR_POWER.BANK7` reads 2 to every access, though none of them is secure (R353, R355). -/
def State.bank7Shown (s : State) (pk off : Nat) (w : Word) : Word :=
  match blockOf pk with
  | some (.scr, _) => if off = 0x100 ∧ s.lifecycle = 3 then putBits w 15 14 2 else w
  | _ => w

/-- What a read of a page register returns; whether the access is secure is its issuer's (R353). -/
def State.readAs (s : State) (ag : Agent) (sec : Bool) (pk off : Nat) : Word × State :=
  if off = 0x000 then (identWord pk, s)
  else if off = 0x008 then (s.capsWord pk, s)
  else if off = 0x038 then (s.ownerWord pk, s)
  else if off = 0x040 then (s.dueWord (s.duePanel ag) pk, s)
  else match s.ownWord pk off with
    | some (w, s1) => (shownWord sec pk off w, s1)
    | none => (s.bank7Shown pk off (shownWord sec pk off (s.heldWord pk off)), s)

/-- What a read of a page register by an agent returns. -/
def State.readReg (s : State) (ag : Agent) (pk off : Nat) : Word × State := s.readAs ag (s.secure ag) pk off

/-- What a read by a thread or a channel does besides (R255, R265, R271). -/
def State.readEffect (s : State) (pk off : Nat) : State :=
  match blockOf pk with
  | some (.sten, e) => if off = 0x128 then s.popRx (windowOf pk) e else s
  | some (.tmr, n) => if off = TMR_CAP.COUNT.off then s.readCapture (windowOf pk - 8) n else s
  | some (.dmaAlloc, _) => if off = 0x100 then s.allocate (windowOf pk - 8) else s
  | _ => s

/-- A read by a thread or a channel: the word, and its effect. -/
def State.takeReg (s : State) (ag : Agent) (sec : Bool) (pk off : Nat) : Word × State :=
  let (w, s1) := s.readAs ag sec pk off
  (w, s1.readEffect pk off)

end Sys2Proof.Machine
end

