-- ==== Sys2Proof/Machine/RegLegal.lean ====
section
/-! DEFINITION. The register values that the spec calls host errors (R3, and the register tables of each block), and the
fields that a write does not store. -/

namespace Sys2Proof.Machine

open Sys2Proof

/-- The fields that a write orders something by, or that the block keeps by an operation of its own: the write stores
none of them. -/
def ordersOnly (b : Block) (f : Fld) : Bool :=
  match b with
  | .pwmp => decide (f.off = 0x148)
  | .trip => decide (f.off = 0x148)
  | .fadc => decide (f.off = 0x148)
  | .sweep => decide (f.off = 0x110)
  | .loop => decide (f.off = 0x190)
  | .sten => decide (f.off = 0x118) || decide (f.off = 0x120) || decide (0x200 ≤ f.off)
  | .stenGroup => decide (0x100 ≤ f.off)
  | .scr => decide (f.off = 0x100) || decide (f.off = 0x148)
  | .canv => decide (f.off = 0x118)
  | .modeSlice => decide (f.off = 0x100)
  | .modePkg => decide (f.off = 0x100)
  | .upnt => decide (f.off = 0x100)
  | .life => decide (f.off = 0x168)
  | .hovr => decide (f.off = 0x120)
  | .eth => decide (f = ETH_SA_LOAD.GO)
  | .dma => decide (f.off = 0x128)
  | .jrnl => decide (f = JRNL_CFG.EN)
  | .intnPartner => decide (f = INTN_PCFG.VALID.at (f.off - 0x408)) && decide (0x408 ≤ f.off) && decide (f.off < 0xC00)
      || decide (0xC00 ≤ f.off)
  | .evc => decide (0x400 ≤ f.off)
  | .easl => decide (f.off = 0x110) || decide (f.off = 0x120) || decide (f.off = 0x130)
  | _ => false

/-- A pair's chain of leaders comes back to it (R94). -/
def State.syncLoops (s : State) (w p : Nat) : Nat → Nat → Bool
  | 0, _ => false
  | n + 1, q =>
    let l := s.fld (pwmpPage w q) PWMP_CFG.SYNC
    if l = p then true else if 16 ≤ l then false else State.syncLoops s w p n l

/-- A range that leaves an own DRAM window. -/
def outsideDram (addr size : Nat) : Bool := decide (addr < dramBase) || decide (2 * dramBase < addr + size)

/-- A range that leaves both banks 0 to 6 and the own DRAM window. -/
def outsideRings (addr size : Nat) : Bool := outsideDram addr size && decide (0x1C0000 < addr + size)

/-- Whether two ranges share an address. -/
def rangesMeet (a n b m : Nat) : Bool := decide (a < b + m) && decide (b < a + n)

/-- An output of an engine names a pin that another output of the sector names (R269). -/
def State.pinShared (s : State) (w e : Nat) : Bool :=
  let pin (i k : Nat) : Nat := s.fld (stenPage w i) ⟨0x110, 8 * k + 4, 8 * k⟩
  (List.range 8).any (fun k => decide (pin e k < 16) && (List.range 64).any (fun n =>
    decide (n ≠ 8 * e + k) && decide (pin (n / 8) (n % 8) = pin e k)))

/-- A partner entry in use holds the SCI of another one in use (R291). -/
def State.sciShared (s : State) (p i : Nat) : Bool :=
  s.partnerValid p i && (List.range 64).any (fun j => decide (j ≠ i) && s.partnerValid p j
    && decide (s.reg (intnPage p) (0x400 + 32 * j) = s.reg (intnPage p) (0x400 + 32 * i)))

/-- A ground sector register holds a value that is a host error. DESIGN CHOICE: a ring that is off may hold `ADDR` 0 or
`SIZE` 0, their factory values (assumption 116); the codes of a sweep are judged by `BITS` when it runs, not when they are
written (assumption 120). -/
def State.sectorIllegal (s : State) (b : Block) (w i pk off : Nat) : Bool :=
  match b with
  | .pwmp =>
    if off = 0x100 then decide (16 < s.fld pk PWMP_CFG.SYNC) || decide (s.fld pk PWMP_CFG.OUT_MODE = 3)
      || s.syncLoops w i 16 i
    else off = 0x108 && decide (2 ^ 20 < s.fld pk PWMP_PERIOD.VALUE)
  | .trip =>
    if 0x200 ≤ off ∧ off < 0x600 ∧ off % 0x40 = 0 then
      decide (s.fld pk (TRIP_PAIR_CFG.SAFE_A.at (off - 0x200)) = 3)
        || decide (s.fld pk (TRIP_PAIR_CFG.SAFE_B.at (off - 0x200)) = 3)
    else false
  | .fadc =>
    if off = 0x100 then decide (s.fld pk FADC_SCHED.MODE = 3) || decide (s.fld pk FADC_SCHED.PERIOD < 3)
    else if off = 0x110 then decide (s.sfld pk FADC_RANGE.HI < s.sfld pk FADC_RANGE.LO)
    else if off = 0x128 ∨ off = 0x130 then
      let a := s.fld pk FADC_RING_BASE.ADDR * 128
      let n := s.fld pk FADC_RING_SIZE.SIZE * 128
      let on := s.flag pk FADC_RING_BASE.EN
      ((on || (decide (off = 0x128) && decide (a ≠ 0)))
          && (outsideDram a 0 || decide (dramBase + s.dramBytes (s.holder pk) ≤ a)))
        || ((on || (decide (off = 0x130) && decide (n ≠ 0))) && decide (n < 4096))
    else if off = 0x140 then
      let src := s.fld pk FADC_TRIG.SOURCE
      decide (6 < src) || ((decide (src = 2) || decide (src = 3)) && decide (15 < s.fld pk FADC_TRIG.INDEX))
    else false
  | .madc =>
    if off = 0x100 then decide (16 < s.fld pk MADC_SCHED.LEN)
    else if 0x180 ≤ off ∧ off < 0x200 then
      decide (4 < s.fld pk (MADC_ENTRY.AVG.at (off - 0x180))) || decide (s.fld pk (MADC_ENTRY.ACQ.at (off - 0x180)) < 125)
    else false
  | .wcmp => off = 0x100 && decide (s.fld pk WCMP_CFG.SEL = 3)
  | .sweep =>
    if s.flag pk SWEEP_RESULT.BUSY then (decide (off = 0x100) || decide (off = 0x108)) && s.sweepIllegal w
    else if off = 0x100 then decide (s.fld pk SWEEP_CFG.DWELL < 8 * 2 ^ s.fld pk SWEEP_CFG.BITS)
    else off = 0x108 && decide (s.fld pk SWEEP_RAMP.STEP = 0)
  | .loop =>
    if off = 0x100 then decide (s.fld pk LOOP_CFG.DECIM = 0) || decide (s.fld pk LOOP_CFG.TARGET = 3)
    else off = 0x178 && (decide (s.fld pk LOOP_BSHIFT.VALUE < 24) || decide (40 < s.fld pk LOOP_BSHIFT.VALUE))
  | .twq => off = 0x128 && decide (256 < s.fld pk TWQ_WARN.WARN_LEVEL)
  | .sten =>
    if off = 0x100 then decide (s.fld pk STEN_CFG.LEN = 0) || decide (32 < s.fld pk STEN_CFG.LEN)
    else if off = 0x108 then (List.range 8).any (fun k => decide (82 ≤ s.fld pk ⟨0x108, 8 * k + 6, 8 * k⟩))
    else if off = 0x110 then (List.range 8).any (fun k =>
      let pin := s.fld pk ⟨0x110, 8 * k + 4, 8 * k⟩
      decide (16 ≤ pin) && decide (pin < 31)) || s.pinShared w i
    else if 0x200 ≤ off ∧ off < 0x300 then
      decide (20 < s.fld pk ⟨off, 52, 48⟩) || decide (s.fld pk ⟨off, 2, 0⟩ = 7)
    else false
  | _ => false

/-- A trace ring that overlaps a continuity region (R369). -/
def State.traceIllegal (s : State) (k : Nat) : Bool :=
  let p := k / 16
  s.flag easlPage (EASL_TRACE_BASE.EN.at (16 * k)) && (s.regionsUsed p).any (fun i =>
    rangesMeet (s.regionRange p i).1 (s.regionRange p i).2 (s.fld easlPage (EASL_TRACE_BASE.ADDR.at (16 * k)) * 128)
      (s.fld easlPage (EASL_TRACE_SIZE.SIZE.at (16 * k)) * 128))

/-- An own panel page register holds a value that is a host error. -/
def State.panelIllegal (s : State) (b : Block) (p pk off : Nat) : Bool :=
  match b with
  | .ddrc =>
    let devices := if s.fld pk DDRC_MODULE.WIDTH = 1 then 10 else 20
    if off = 0x100 then decide (4 < s.fld pk DDRC_CFG.SPEED)
    else off = 0x140 && (decide (devices ≤ s.fld pk DDRC_MARK.DEV0) || decide (devices ≤ s.fld pk DDRC_MARK.DEV1))
  | .jrnl =>
    if off = 0x100 then decide (s.fld pk JRNL_CFG.EPOCH < 10) || decide (10000 < s.fld pk JRNL_CFG.EPOCH)
    else (decide (0x108 ≤ off) && s.flag pk JRNL_CFG.EN && s.journalBad p)
      || (decide (0x200 ≤ off) && (List.range 16).any (fun t => s.traceIllegal (16 * p + t)))
  | .dma => off = DMA_CFG.SIZE.off && (decide (4 < s.fld pk DMA_CFG.SIZE) || decide (s.fld pk DMA_CFG.IDX = 3))
  | .scr => off = 0x100 && (List.range 8).any (fun i => decide (s.fld pk ⟨0x100, 2 * i + 1, 2 * i⟩ = 3))
  | .tmr => off = 0x100 && decide (80 ≤ s.fld pk TMR_CFG.CAP_SEL)
  | .intnPartner =>
    if 0x400 ≤ off ∧ off < 0xC00 ∧ off % 32 = 0 then s.sciShared p ((off - 0x400) / 32)
    else if 0x400 ≤ off ∧ off < 0xC00 ∧ off % 32 = 8 then
      s.sciShared p ((off - 0x408) / 32) || decide (s.fld pk (INTN_PCFG.BURST.at (off - 0x408)) = 0)
        || decide (s.fld pk (INTN_PCFG.RATE.at (off - 0x408)) = 0)
    else if 0x400 ≤ off ∧ off < 0xC00 ∧ off % 32 = 16 then
      decide (s.sfld pk (INTN_PENV.AMP_MAX.at (off - 0x410)) < s.sfld pk (INTN_PENV.AMP_MIN.at (off - 0x410)))
    else false
  | .intnChannel =>
    if 0x100 ≤ off ∧ off < 0x200 then decide (8 < s.fld pk (INTN_CCFG.TARGETS.at (off - 0x100)))
    else decide (0x400 ≤ off) && decide (s.variant.slices ≤ s.fld pk (INTN_TGT.SECTOR.at (off - 0x400)))
  | .eth =>
    if off = 0x100 then
      (s.flag pk ETH_CFG.AN_EN && decide (s.fld pk ETH_CFG.SPEED_ADV = 0)) || decide (s.fld pk ETH_CFG.FORCE_FEC = 3)
        || (decide (s.fld pk ETH_CFG.FORCE_FEC = 2) && decide (s.fld pk ETH_CFG.FORCE_SPEED = 0))
        || (s.flag pk ETH_CFG.EN && decide (s.fld pk ETH_CFG.MAC = 0))
    else if off = 0x108 then
      let pd := s.sfld pk ETH_PTP.LOG_PDELAY
      let sy := s.sfld pk ETH_PTP.LOG_SYNC
      decide (pd < -3) || decide (3 < pd) || decide (sy < -7) || decide (0 < sy) || decide (s.fld pk ETH_PTP.ROLE = 3)
    else if off = 0x148 then
      decide (s.fld pk ETH_SECY_CFG.VALIDATE = 3) || decide (2 ^ 30 < s.fld pk ETH_SECY_CFG.WINDOW)
    else if off = 0x190 ∨ off = 0x198 then
      let size := s.fld pk ETH_RX_SIZE.SIZE * 128
      s.flag pk ETH_RX_BASE.EN && (decide (size < 16384) || outsideRings (s.fld pk ETH_RX_BASE.ADDR * 128) size)
    else if off = 0x1B0 ∨ off = 0x1B8 then
      let size := s.fld pk ETH_TX_SIZE.SIZE * 128
      s.flag pk ETH_TX_BASE.EN && (decide (size < 16384) || outsideRings (s.fld pk ETH_TX_BASE.ADDR * 128) size)
    else false
  | _ => false

/-- A package page register holds a value that is a host error. -/
def State.packageIllegal (s : State) (b : Block) (pk off : Nat) : Bool :=
  match b with
  | .canv =>
    if off = 0x108 then
      decide (5 < s.fld pk CANV_DISC.SLEW_LIMIT) || decide (s.fld pk CANV_DISC.SOURCE = 3)
        || decide (s.variant.slices ≤ s.fld pk CANV_DISC.PTP_PANEL)
    else off = 0x228 && decide (256 < s.fld pk CANV_Q_WARN.WARN_LEVEL)
  | .modeSlice =>
    if off = 0x110 then decide (s.fld pk MODE_RESUME.RESUME = 3)
    else off = 0x140 && decide (135 < s.fld pk MODE_THERMAL.WARN)
  | .life => off = 0x158 && (List.range 6).any (fun i => decide (s.fld pk ⟨0x158, 2 * i + 1, 2 * i⟩ = 3))
  | .easl => decide (0x400 ≤ off) && s.traceIllegal ((off - 0x400) / 16)
  | _ => false

/-- Fields of a register whose table lists only some encodings, and the listed ones. A pair of fields that contradict
each other is listed whole. -/
def State.listed (s : State) (b : Block) (pk off : Nat) : List (Fld × Nat × Nat) :=
  let devices := if s.fld pk DDRC_MODULE.WIDTH = 1 then 10 else 20
  match b with
  | .trip => if 0x200 ≤ off ∧ off < 0x600 ∧ off % 0x40 = 0 then
      [(TRIP_PAIR_CFG.SAFE_A.at (off - 0x200), 0, 2), (TRIP_PAIR_CFG.SAFE_B.at (off - 0x200), 0, 2)] else []
  | .ddrc => if off = 0x100 then [(DDRC_CFG.SPEED, 0, 4)]
      else if off = 0x140 then [(DDRC_MARK.DEV0, 0, devices - 1), (DDRC_MARK.DEV1, 0, devices - 1)] else []
  | .scr => if off = 0x100 then (List.range 8).map (fun i => (⟨0x100, 2 * i + 1, 2 * i⟩, 0, 2)) else []
  | .dma => if off = DMA_CFG.SIZE.off then [(DMA_CFG.SIZE, 0, 4), (DMA_CFG.IDX, 0, 2)] else []
  | .intnChannel => if 0x100 ≤ off ∧ off < 0x200 then [(INTN_CCFG.TARGETS.at (off - 0x100), 0, 8)] else []
  | .eth =>
    if off = 0x100 then [(ETH_CFG.FORCE_FEC, 0, 2)]
    else if off = 0x108 then [(ETH_PTP.ROLE, 0, 2)]
    else if off = 0x148 then [(ETH_SECY_CFG.VALIDATE, 0, 2), (ETH_SECY_CFG.WINDOW, 0, 2 ^ 30)]
    else []
  | .canv =>
    if off = 0x108 then
      [(CANV_DISC.SLEW_LIMIT, 0, 5), (CANV_DISC.SOURCE, 0, 2), (CANV_DISC.PTP_PANEL, 0, s.variant.slices - 1)]
    else if off = 0x228 then [(CANV_Q_WARN.WARN_LEVEL, 0, 256)] else []
  | .modeSlice =>
    if off = 0x110 then [(MODE_RESUME.RESUME, 0, 2)] else if off = 0x140 then [(MODE_THERMAL.WARN, 0, 135)] else []
  | .life => if off = 0x158 then (List.range 6).map (fun i => (⟨0x158, 2 * i + 1, 2 * i⟩, 0, 2)) else []
  | _ => []

/-- Each field of a register that holds an unlisted encoding counts as a listed one, which is free (assumption 8). -/
def State.relist (s : State) (pk off : Nat) : State :=
  let fields := match blockOf pk with
    | some (b, _) => if off = 0x038 then [(HEAD.PANEL, 0, s.variant.slices - 1)] else s.listed b pk off
    | none => []
  fields.foldl (fun u x =>
    if x.2.1 ≤ u.fld pk x.1 ∧ u.fld pk x.1 ≤ x.2.2 then u
    else
      let (n, v) := u.freeWithin x.2.1 x.2.2
      v.setFld pk x.1 n) s

/-- A page register holds a value that is a host error. -/
def State.illegal (s : State) (pk off : Nat) : Bool :=
  let w := windowOf pk
  match blockOf pk with
  | none => false
  | some (b, i) =>
    if off = 0x038 ∧ isPanelPage pk = false then decide (s.variant.slices ≤ s.owner pk)
    else if w < 8 then s.sectorIllegal b w i pk off
    else if w < 16 then s.panelIllegal b (w - 8) pk off
    else s.packageIllegal b pk off

/-- The state after a write has left an encoding that is a host error in a register (R3). -/
def State.checkWrite (s : State) (pk off : Nat) : State :=
  if s.illegal pk off then (s.relist pk off).err pk else s

end Sys2Proof.Machine
end

