-- ==== Sys2Proof/Machine/RegWrite.lean ====
section
/-! DEFINITION. What a write of a page register does (R5, R6, R7, R11, R12, R37 to R46, R182, R217, R314, R377, R378,
R403, and each block's register tables): on arrival, when its RWT fields take effect, and at an update point. -/

namespace Sys2Proof.Machine

open Sys2Proof

/-! ### Fields that act on arrival (R6, R378, R403) -/

/-- An RWC field of the page may change (R6, R7, R378). -/
def State.rwcOpen (s : State) (pk : Nat) : Bool := !s.flag pk HEAD.LOCK && s.commissioned pk

/-- A register after one field of a write, secure or not, has acted on arrival. -/
def State.arriveField (s : State) (sec : Bool) (pk : Nat) (data old w : Word) (f : FieldRow) : Word :=
  let h := f.fld.hi
  let l := f.fld.lo
  let v := bits data h l
  match f.acc with
  | .rw => putBits w h l v
  | .rwc => if s.rwcOpen pk then putBits w h l v else w
  | .rws => if sec then putBits w h l v else w
  | .w1c => putBits w h l (bits (old &&& ~~~(data &&& ~~~Store.read 0 s.setNow (regKey pk f.fld.off))) h l)
  | .w1l => putBits w h l (bits (old ||| data) h l)
  | .ro | .wo | .w1s | .rwt => w

/-- A field is one that a write stores. -/
def stored (pk : Nat) (f : FieldRow) : Bool :=
  match blockOf pk with
  | some (b, _) => !ordersOnly b f.fld
  | none => false

/-- The register after every stored field of a write but RWT ones has acted. -/
def State.arriveWord (s : State) (sec : Bool) (pk off : Nat) (data : Word) : Word :=
  let old := s.reg pk off
  ((fieldsAt pk off).filter (stored pk)).foldl (fun w f => s.arriveField sec pk data old w f) old

/-- The lock drops a field of the write (R378). -/
def State.lockDrops (s : State) (pk off : Nat) (data : Word) : Bool :=
  s.flag pk HEAD.LOCK && (fieldsAt pk off).any (fun f =>
    decide (f.acc = .rwc) && decide (bits data f.fld.hi f.fld.lo ≠ bits (s.reg pk off) f.fld.hi f.fld.lo))

/-! ### The common head (R11, R377, R404) -/

/-- What a write of a head register does besides. -/
def State.headEffect (s before : State) (pk off : Nat) (data : Word) : State :=
  if off = 0x028 then s.signalEnabled before pk
  else if off = 0x030 then s.raiseMask pk data
  else if off = 0x010 ∧ bit data.toNat 0 = true then
    (match blockOf pk with
     | some (.twq, _) => s.clearQueue (windowOf pk)
     | some (.canv, _) => s.clearQueue 8
     | _ => s)
  else if off = 0x038 ∧ s.owner pk ≠ before.owner pk then s.resignal pk
  else s

/-! ### Ground sectors -/

/-- What a write to a ground sector page does besides, on arrival. -/
def State.sectorArrival (s before : State) (b : Block) (w i pk off : Nat) (data : Word) : State :=
  let on (n : Nat) : Bool := bit data.toNat n
  match b with
  | .pwmp =>
    if off = 0x100 then s.pairConfigured w i
    else if off = 0x148 ∧ on 2 = true then s.setReg pk 0x160 0
    else s
  | .trip =>
    if off = 0x148 then
      let s1 := if on 17 then s.setReg pk 0x138 0 else s
      if on 16 then s1.clearTripCounts w else s1
    else
      let drives := decide (0x110 ≤ off) && decide (off < 0x130)
        && decide ((s.reg pk off &&& ~~~(before.reg pk off)).toNat &&& (s.trip w).vote.toNat ≠ 0)
      (s.raiseIf drives pk 50).settleTrips w 0
  | .fadc =>
    if off = 0x100 then
      (if s.reg pk off = before.reg pk off then s else s.setConv w i { s.conv w i with schedAt := s.ticks })
    else if off = 0x118 ∧ on 0 = true then s.requestCal w i
    else if off = 0x128 then
      let was := before.flag pk FADC_RING_BASE.EN
      if s.flag pk FADC_RING_BASE.EN = true ∧ was = false then s.startRing w i
      else if was = true ∧ s.fld pk FADC_RING_BASE.ADDR ≠ before.fld pk FADC_RING_BASE.ADDR then s.err pk
      else s
    else if off = 0x140 ∧ on 31 = true then s.armRing w i
    else if off = 0x170 ∧ on 63 = true then s.setFld pk FADC_RING_DROPPED.DROPPED 0
    else s
  | .madc =>
    if (off = 0x100 ∨ (0x180 ≤ off ∧ off < 0x200)) ∧ s.reg pk off ≠ before.reg pk off then s.changeMonitor w else s
  | .wcmp =>
    if off = 0x100 then s.reevaluate w i
    else if off = 0x118 ∧ on 0 = true then s.requestCheck w i
    else s
  | .sweep =>
    if off = 0x110 ∧ on 1 = true ∧ s.flag pk SWEEP_RESULT.BUSY = true then
      s.setSweep w { s.sweep w with stop := true, endAt := s.ticks + 1 }
    else s
  | .loop => if off = 0x190 ∧ on 2 = true then s.clearLoop w i else s
  | .leng => if off = 0x120 ∧ on 0 = true then s.clearEngine w i else s
  | .sten => if off = 0x118 ∧ on 2 = true then s.clearFifos w i else s
  | _ => s

/-! ### Own panel pages -/

/-- A source of priority 0 is never pending (R206). -/
def State.withdraw (s : State) (p table src : Nat) : State :=
  if s.srcPrio p table src = 0 then { s with evPend := Store.write false s.evPend (evKey p table src) false } else s

/-- A write of `EVC_SRC`: a `WATCH` bit beyond the 64 of R217 is stored as 0, the lower source's first; a priority of 0
withdraws its source (R206), and a pending source goes to its new destination (R207). -/
def State.writeSources (s : State) (p table off : Nat) (data : Word) : State :=
  let pk := evcPage p table
  let old := s.reg pk off
  let fields := (data &&& 0x000003FF000003FF)
  let s1 := s.setReg pk off fields
  let n := s1.watchCount p
  let w0 := bit data.toNat 10
  let w1 := bit data.toNat 42
  let drop0 := decide (64 < n + w0.toNat + w1.toNat) && w0 && !bit old.toNat 10
  let drop1 := decide (64 < n + (w0 && !drop0).toNat + w1.toNat) && w1 && !bit old.toNat 42
  let s2 := s1.setReg pk off (putBits (putBits fields 10 10 (w0 && !drop0).toNat) 42 42 (w1 && !drop1).toNat)
  let s3 := if drop0 || drop1 then s2.mark (evcPage p 0) EVC_STATE.WATCH_REFUSED else s2
  let src := 2 * ((off - 0x400) / 8)
  let s4 := (s3.withdraw p table src).withdraw p table (src + 1)
  (s4.wakeWaiter p table src).wakeWaiter p table (src + 1)

/-- A write of `DMA_CMD`: `PAUSE`, and then `START` (R250, R251); how many elements are in flight is free. -/
def State.writeDmaCmd (s : State) (ag : Agent) (p c : Nat) (data : Word) : State :=
  let pause := bits data DMA_CMD.PAUSE.hi DMA_CMD.PAUSE.lo = 1
  let s1 := if pause then
      let (n, u) := s.fresh
      u.pauseDma p c (n.toNat % 17)
    else s.unpauseDma p c
  if bits data DMA_CMD.START.hi DMA_CMD.START.lo = 1 then s1.startDma ag p c else s1

/-- What a write to a port's page does besides (R296, R297). -/
def State.ethArrival (s before : State) (sec : Bool) (p n pk off : Nat) (data : Word) : State :=
  let on (k : Nat) : Bool := bit data.toNat k
  if off = 0x100 then
    (if s.reg pk off >>> 48 = before.reg pk off >>> 48 then s else s.linkDown p n)
  else if off = 0x108 then s.settlePtp p n (decide (s.fld pk ETH_PTP.ROLE ≠ before.fld pk ETH_PTP.ROLE))
  else if off = 0x120 ∧ on 62 = true then s.requestGates p n
  else if off = 0x140 then s.settlePreempt p n
  else if off = 0x158 ∧ on 63 = true ∧ sec = true then s.setFld pk ETH_SA_LOAD.BUSY 1
  else if off = 0x1D0 ∧ on 0 = true then s.clearEth p n
  else s

/-- A write of `INTN_PCFG`: a partner that it ends leaves the channel that it was in (R289, R291). -/
def State.writePartner (s before : State) (p i off : Nat) (valid : Bool) : State :=
  if valid then s.setValid p i true
  else (((before.setValid p i false).setReg (intnPage p) off (s.reg (intnPage p) off)).setFld (intnPage p)
    (INTN_PCFG.VALID.at (32 * i)) 0)

/-- What a write to an own panel page does besides. `DMA_FREE` frees the channel of its number, 0 too (R255; assumption
87). -/
def State.panelArrival (s before : State) (ag : Agent) (sec : Bool) (b : Block) (p i pk off : Nat) (data : Word) : State :=
  let on (n : Nat) : Bool := bit data.toNat n
  match b with
  | .scr =>
    if off = 0x100 then s.writePower sec p data
    else if off = 0x148 then
      let s1 := if on 1 && sec then s.wipeBank7 p else s
      if on 0 then s1.clearScratchCounts p else s1
    else s
  | .ddrc =>
    if off = 0x140 then (s.setFld pk DDRC_MARK.AUTO0 0).setFld pk DDRC_MARK.AUTO1 0
    else if off = 0x148 ∧ on 63 = true then s.startRepair p
    else if off = 0x1A0 then
      let s1 := if on 1 then s.clearDevices p else s
      if on 0 then s1.setReg pk 0x138 0 else s1
    else s
  | .evc =>
    if i = 0 ∧ off = 0x220 ∧ on 0 = true then s.clearEvc p
    else if 0x400 ≤ off ∧ off < 0xD40 then s.writeSources p i off data
    else s
  | .jrnl =>
    if off = 0x100 then s.setJournalEn p (bits data JRNL_CFG.EN.hi JRNL_CFG.EN.lo = 1)
    else if off = 0x150 ∧ on 0 = true then s.clearJournal p
    else s
  | .fab => if off = 0x120 ∧ on 0 = true then s.clearFabric p else s
  | .intnPartner =>
    if off = 0x118 ∧ on 0 = true then s.clearIntent p
    else if 0x400 ≤ off ∧ off < 0xC00 ∧ off % 32 = 8 then
      s.writePartner before p ((off - 0x400) / 32) off (bits data INTN_PCFG.VALID.hi INTN_PCFG.VALID.lo = 1)
    else if 0xC00 ≤ off ∧ off % 16 = 0 ∧ bits data INTN_PSTAT.QUAR.hi INTN_PSTAT.QUAR.lo = 1 then
      s.clearQuar p ((off - 0xC00) / 16)
    else s
  | .eth => s.ethArrival before sec p i pk off data
  | .dma =>
    let st := before.fld pk DMA_STATUS.STATE
    if 0x100 ≤ off ∧ off ≤ 0x120 ∧ (st = 1 ∨ st = 2) then s.err pk
    else if off = 0x128 then s.writeDmaCmd ag p i data
    else if off = 0x138 ∧ on 63 = true then s.setFld pk DMA_COLL.COUNT 0
    else s
  | .dmaAlloc =>
    if off = 0x110 then s.freeDma p (bits data 4 0)
    else if off = 0x118 ∧ on 63 = true then s.setFld pk DMA_ALLOC_REFUSED.COUNT 0
    else s
  | .tmr =>
    if off = 0x100 then s.chooseCapture p i
    else if off = 0x130 ∧ on 0 = true then s.startTimer p i
    else if off = 0x130 ∧ on 1 = true then s.stopTimer p i
    else s
  | .tmrGlobal =>
    if off = 0x100 then s.startTimers p (bits data 15 0)
    else if off = 0x108 then s.haltTimers p (bits data 15 0)
    else s
  | _ => s

/-! ### Package pages -/

/-- A free challenge (R356). -/
def State.freeChallenge (s : State) : BitVec 384 × State :=
  (List.range 6).foldl (fun (x : BitVec 384 × State) _ =>
    let (w, u) := x.2.fresh
    ((x.1 <<< 64) ||| w.setWidth 384, u)) (0, s)

/-- What a write of a `LIFE` register does besides (R354 to R358). A word of the response is stored whatever it is, 0 too
(R356; assumption 87). -/
def State.lifeArrival (s : State) (sec : Bool) (off : Nat) (data : Word) : State :=
  let on (n : Nat) : Bool := bit data.toNat n
  if off = 0x168 then
    let s1 := if on 9 then s.relock else s
    let s2 := if on 8 && sec then s1.advanceFloor else s1
    if sec then s2.requestTransition (bits data 63 48) (bits data 2 0) else s2
  else if 0x1C0 ≤ off ∧ off < 0x280 then s.setReg lifePage off data
  else if off = 0x280 then
    let s1 := if on 0 then
        let (c, u) := s.freeChallenge
        u.drawChallenge c
      else s
    if on 1 then s1.submitUnlock else s1
  else s

/-- A trace ring that is switched on starts at its base (R369; assumption 61). -/
def State.startTrace (s : State) (k : Nat) : State :=
  s.setThread (k / 16) (k % 16) { s.thread (k / 16) (k % 16) with traced := 0, traceGap := false, traceAt := 0 }

/-- What a write of an `EASL` register does besides (R364 to R369). -/
def State.easlArrival (s before : State) (off : Nat) (data : Word) : State :=
  let on (n : Nat) : Bool := bit data.toNat n
  let p := s.fld easlPage EASL_CMD.PANEL
  if off = 0x100 then
    let s1 := if on 0 then s.haltPanel p else s
    let s2 := if on 1 then s1.resumePanel p else s1
    if on 2 then s2.debugReset p else s2
  else if off = 0x110 then s.stepThread (bits data 3 0) (on 33) (bits data 63 34)
  else if off = 0x120 then s.writeTreg data
  else if off = 0x130 then s.injectDifference data
  else if 0x400 ≤ off ∧ off % 16 = 0 ∧ on 63 = true ∧ bit (before.reg easlPage off).toNat 63 = false then
    s.startTrace ((off - 0x400) / 16)
  else s

/-- What a write to a package page does besides. A new `SOURCE` leaves the discipline's status as it is until a
measurement (assumption 93). -/
def State.packageArrival (s before : State) (sec : Bool) (b : Block) (i pk off : Nat) (data : Word) : State :=
  let on (n : Nat) : Bool := bit data.toNat n
  match b with
  | .canv =>
    if off = 0x108 then s.limitSlew
    else if 0x130 ≤ off ∧ off < 0x150 then { s with alarms := Store.write 0 s.alarms ((off - 0x130) / 8) s.ticks } else s
  | .modeSlice =>
    if off = 0x100 ∧ on 8 = true then s.warmReset i
    else if off = 0x128 then
      let op := bits data 17 16
      let (op, s) := if op = 3 then s.freeWithin 0 2 else (op, s)
      if op = 1 then s.stopThreads i (bits data 15 0)
      else if op = 2 then s.startThreads i (bits data 15 0)
      else s
    else s
  | .modePkg => if off = 0x100 then s.commandReset (bits data 63 48) else s
  | .upnt =>
    if off = 0x100 then
      let s1 := if on 2 then s.clearDip else s
      if on 1 && sec then s1.startCommit true else if on 0 then s1.startCommit false else s1
    else s
  | .life => s.lifeArrival sec off data
  | .hovr =>
    if off = 0x100 then
      (if before.fld pk HOVR_CFG.WDOG = 0 ∧ s.fld pk HOVR_CFG.WDOG ≠ 0 then s.kick i else s)
    else if off = 0x118 ∧ on 0 = true then s.kick i
    else if off = 0x120 ∧ on 2 = true then s.releasePanel i
    else s
  | .easl => s.easlArrival before off data
  | _ => s

/-- What a write does besides storing fields, on arrival. -/
def State.arrivalEffect (s before : State) (ag : Agent) (sec : Bool) (pk off : Nat) (data : Word) : State :=
  let w := windowOf pk
  match blockOf pk with
  | none => s
  | some (b, i) =>
    if off < 0x100 then s.headEffect before pk off data
    else if w < 8 then s.sectorArrival before b w i pk off data
    else if w < 16 then s.panelArrival before ag sec b (w - 8) i pk off data
    else s.packageArrival before sec b i pk off data

/-- Whether a write reaches a field of the page. -/
def assigned (pk off : Nat) : Bool := !(fieldsAt pk off).isEmpty

/-- A register with the RWC fields of another word. -/
def withRwc (pk off : Nat) (w old : Word) : Word :=
  (fieldsAt pk off).foldl
    (fun x f => if f.acc = .rwc then putBits x f.fld.hi f.fld.lo (bits old f.fld.hi f.fld.lo) else x) w

/-- A write that changes RWC fields is remembered for the tick (R378). -/
def State.noteRwc (s before : State) (ag : Agent) (sec : Bool) (pk off : Nat) : State :=
  let old := before.reg pk off
  if withRwc pk off (s.reg pk off) old = s.reg pk off then s
  else { s with rwcNow := ⟨pk, off, old, ag, pageAddr pk off, sec⟩ :: s.rwcNow }

/-- A write of this tick that changed RWC fields is dropped for them after all. -/
def State.undoRwc (s : State) (x : RwcWrite) : State :=
  let w := withRwc x.page x.off (s.reg x.page x.off) x.before
  ((s.setReg x.page x.off w).arrivalEffect s x.agent x.secure x.page x.off w).answerDropped x.agent x.addr

/-- A page's `LOCK.CFG` becomes 1: it governs the RWC writes of the same tick, newest first (R378). -/
def State.lockFirst (s : State) (pk : Nat) : State :=
  (s.rwcNow.filter (fun x => decide (x.page = pk))).foldl (fun u x => u.undoRwc x)
    { s with rwcNow := s.rwcNow.filter (fun x => decide (x.page ≠ pk)) }

/-- A write's fields but its RWT ones act (R403); whether it is secure is its issuer's (R353). -/
def State.arriveWrite (s : State) (ag : Agent) (sec : Bool) (pk off : Nat) (data : Word) : State :=
  if assigned pk off then
    let s1 := (s.setReg pk off (s.arriveWord sec pk off data)).arrivalEffect s ag sec pk off data
    let s2 := (s1.checkWrite pk off).noteRwc s ag sec pk off
    if off = 0x048 ∧ s.flag pk HEAD.LOCK = false ∧ s2.flag pk HEAD.LOCK = true then s2.lockFirst pk else s2
  else s

/-! ### RWT fields take effect (R37, R38, R42) -/

/-- The register after the stored RWT fields of a write have taken effect. -/
def State.timedWord (s : State) (pk off : Nat) (data : Word) : Word :=
  ((fieldsAt pk off).filter (fun f => decide (f.acc = .rwt) && stored pk f)).foldl
    (fun w f => putBits w f.fld.hi f.fld.lo (bits data f.fld.hi f.fld.lo)) (s.reg pk off)

/-- The RWT fields of a ground sector register take effect. -/
def State.sectorTimed (s : State) (b : Block) (w i pk off : Nat) (data : Word) : State :=
  let on (n : Nat) : Bool := bit data.toNat n
  let put (u : State) : State := u.setReg pk off (u.timedWord pk off data)
  match b with
  | .pwmp =>
    if off = 0x108 then s.livePeriod w i (bits data 20 0)
    else if 0x110 ≤ off ∧ off < 0x130 then s.liveCompare w i ((off - 0x110) / 8) (bits data 25 0)
    else if off = 0x130 then s.livePhase w i (bits data 25 0)
    else if off = 0x148 then
      let s1 := if on 1 then s.stopLeader w i else s
      if on 0 then s1.startLeader w i else s1
    else put s
  | .trip => if off = 0x148 then (maskThreads (bits data 15 0)).foldl (fun u p => u.requestClear w p) s else put s
  | .fadc => if off = 0x148 then (if on 0 then s.triggerSource w 0 i else s) else put s
  | .wcmp => (put s).reevaluate w i
  | .sweep => if off = 0x110 then (if on 0 then s.goSweep w else s) else put s
  | .loop =>
    if off = 0x120 then (put s).setFld pk LOOP_FF_DECAY.ACTIVE 0
    else if off = 0x190 then
      (if on 0 && on 1 then s.err pk
       else if on 0 then s.requestLoop w i true else if on 1 then s.requestLoop w i false else s)
    else put s
  | .sten =>
    if off = 0x100 then put (s.settleDivider w i)
    else if off = 0x118 then
      let s1 := if on 1 then s.askStop w i else s
      if on 0 then s1.askStart w i else s1
    else if off = 0x120 then s.pushTx w i (data.setWidth 32)
    else if 0x200 ≤ off ∧ off < 0x300 then (let s1 := s.putRow w i ((off - 0x200) / 8) data
      if rowIllegal data then s1.err pk else s1)
    else put s
  | .stenGroup =>
    if off = 0x100 then s.groupStart w (bits data 7 0)
    else if off = 0x108 then s.groupStop w (bits data 7 0)
    else s.groupClock w (bits data 7 0)
  | _ => put s

/-- A commanded mode: 0 does nothing, 5 to 7 are host errors (R325), which count as a free one of the others. -/
def State.timedMode (s : State) (tgt : ModeCmd) (target : Nat) : State :=
  let (n, u) := if 4 < target then s.freeWithin 0 4 else (target, s)
  if n = 0 then u else u.commandAll tgt n

/-- The RWT fields of a package register take effect. -/
def State.packageTimed (s : State) (b : Block) (i pk off : Nat) (data : Word) : State :=
  let on (n : Nat) : Bool := bit data.toNat n
  match b with
  | .canv => s.stepCanvas data
  | .modeSlice => s.timedMode (.slice (Fin.ofNat 8 i)) (bits data 2 0)
  | .modePkg => s.timedMode (.package (BitVec.ofNat 8 (bits data 15 8))) (bits data 2 0)
  | .hovr =>
    let s1 := if on 3 then s.retryHandover i else s
    let s2 := if on 1 then s1.returnSlice i else s1
    if on 0 then s2.planHandover i else s2
  | _ => s.setReg pk off (s.timedWord pk off data)

/-- The RWT fields of a write take effect now. -/
def State.timedEffect (s : State) (pk off : Nat) (data : Word) : State :=
  let w := windowOf pk
  match blockOf pk with
  | none => s
  | some (b, i) =>
    let s1 := if w < 8 then s.sectorTimed b w i pk off data else s.packageTimed b i pk off data
    s1.checkWrite pk off

/-- A register that a slot's output drove in this tick keeps the output (R38). -/
def State.drivenNow (s : State) (pk off : Nat) : Bool :=
  match blockOf pk with
  | some (.pwmp, p) =>
    (off = 0x118 && s.slotDrives (windowOf pk) p 0) || (off = 0x130 && s.slotDrives (windowOf pk) p 1)
      || (off = 0x108 && s.slotDrives (windowOf pk) p 2)
  | _ => false

/-- One write of a group of R38 takes effect. -/
def State.applyTimed (s : State) (e : Queued) : State :=
  if s.drivenNow e.page e.off then s else s.timedEffect e.page e.off e.data

/-- An entry in its place by origin and, within one origin, by issue (R19, R38). -/
def placeEntry (e : Queued) : List Queued → List Queued
  | [] => [e]
  | x :: rest => if e.origin < x.origin ∨ (e.origin = x.origin ∧ e.seq < x.seq) then e :: x :: rest
      else x :: placeEntry e rest

/-- The order in which a register takes the writes of one group (R38). -/
def inOrder (l : List Queued) : List Queued := l.foldl (fun m e => placeEntry e m) []

/-- A write that starts a pair's counter. -/
def Queued.starts (e : Queued) : Bool :=
  decide (e.off = 0x148) && bit e.data.toNat 0 && (match blockOf e.page with
    | some (.pwmp, _) => true
    | _ => false)

/-- The writes of one tick take effect together: a counter that one of them starts takes at that wrap the values of all
the others, in whatever order they stand (R37, R96, R97). -/
def startsLast (l : List Queued) : List Queued := l.filter (fun e => !e.starts) ++ l.filter Queued.starts

/-- The entries of a queue due now take effect; each is free from the tick after (R37, R43). -/
def State.applyDue (s : State) (q : Nat) : State :=
  let due (e : Queued) : Bool := decide (queueOf e.page = q) && decide (e.due = s.canvas) && !e.done
  (startsLast (inOrder (s.twq.filter due))).foldl (fun u e => u.applyTimed e)
    { s with twq := s.twq.map (fun e => if due e then { e with done := true } else e) }

/-- `TIMED_WRITE_DUE` (R37, R38, R43). -/
def execTimedWriteDue (queue : Fin 9) (s : State) : Host.Outcome State Fault Refusal :=
  .next (if s.queueThere queue && s.queueRuns queue then s.applyDue queue else s)

/-- What is still due in this tick takes effect with it, for every queue (R37). -/
def State.tickDue (s : State) : State :=
  (List.range 9).foldl (fun u q =>
    if u.queueRuns q && u.twq.any (fun e => decide (queueOf e.page = q) && decide (e.due = u.canvas) && !e.done) then
      u.applyDue q
    else u) s

/-! ### Update points (R42) -/

/-- A pair's counter wraps at this tick, or is stopped. -/
def State.pairPoint (s : State) (w p : Nat) : Bool :=
  let v := s.pair w p
  !v.running || (if v.leader < 16 then s.followerDue w p else decide (v.endTick = s.ticks))

/-- A slot takes a reference tick now, or takes none. -/
def State.loopPoint (s : State) (w n : Nat) : Bool :=
  let pk := loopPage w n
  let c := s.fld pk LOOP_CFG.SRC
  !s.flag pk LOOP_CFG.EN || decide (s.fld (fadcPage w c) FADC_SCHED.MODE = 0) || s.frozenSlot w
    || (s.referenceTick w c && s.slotTakes w n c)

/-- This tick is an update point of a page (R42, R84, R272, R274). -/
def State.updatePoint (s : State) (pk : Nat) : Bool :=
  let w := windowOf pk
  match blockOf pk with
  | none => false
  | some (b, i) =>
    match b with
    | .pwmp => s.pairPoint w i
    | .loop => s.loopPoint w i
    | .fadc => s.referenceTick w i
    | .madc => (s.monitor w).running && decide ((s.monitor w).began + (s.monitor w).acq + 500 = s.ticks)
    | .sten => s.stenPoint w i || decide (s.rowEndAt w i = s.ticks)
    | _ => if w < 8 then true else decide (w = 16) && decide (s.canvas % 4 = 0)

/-- The writes that wait for an update point of a page take effect at it (R38, R42, R45). -/
def State.applyWaiting (s : State) (pk : Nat) : State :=
  (startsLast (inOrder (s.waiting.filter (fun e => decide (e.page = pk))))).foldl (fun u e => u.applyTimed e)
    { s with waiting := s.waiting.filter (fun e => decide (e.page ≠ pk)) }

/-- `UPDATE_POINT_APPLY` (R42). -/
def execUpdatePointApply (page : Page) (s : State) : Host.Outcome State Fault Refusal :=
  let pk := pageKey page
  if s.pageThere pk ∧ s.updatePoint pk then .next (s.applyWaiting pk) else .next s

/-! ### A write is ready at its page (R12, R17, R21, R40, R41) -/

/-- A write of `DUE` (R40). -/
def State.writeDue (s : State) (ag : Agent) (pk : Nat) (data : Word) : State :=
  let (arm, u) := if bits data 63 62 = 3 then s.freeWithin 0 2 else (bits data 63 62, s)
  { u with dues := Store.write 0 u.dues (pk * 8 + u.duePanel ag) (putBits data 63 62 arm) }

/-- The response to a write; one that a handover reissued is answered to nobody (R314). One that its sender makes ready has
not crossed its port before. -/
def State.reply (s : State) (t : Transfer) (err : Bool) : State :=
  if t.addr = 0 then (if err then s.count (hovrPage (t.origin / 256)) HOVR_COUNTS.DROPPED 1 else s)
  else if t.ported then s.answer t.agent t.addr err
  else s.respond t.agent t.addr err

/-- Longest transit of a write of panel `p` (R17): 16 core cycles, 12 whole ticks, to a page of the panel's own, 10 ticks to
its own sector, 30 to any other page, and 2 more into the queue of an RWT register. -/
def transitOf (p pk off : Nat) : Nat :=
  if isPanelPage pk then 12
  else (if windowOf pk = p then 10 else 30) + (if timedReg pk off then 2 else 0)

/-- A write that waited in its panel's port past its due time is counted (R21). Of one whose sender made it ready, the
wait is free (assumption 62). -/
def State.notePort (s : State) (t : Transfer) (due : Option Nat) : State :=
  match agentPanel t.agent, due with
  | some p, some d =>
    if s.canvas ≤ d ∨ isPanelPage t.page = true then s
    else
      let (waited, s1) := if t.ported then (decide (t.issued < t.sent) && decide (d + (s.ticks - t.sent) < s.canvas), s)
        else
          let (w, u) := s.fresh
          (w.getLsbD 0, u)
      if waited then (s1.count (fabPage p) FAB_OVERFLOW.COUNT 1).raise (fabPage p) 0 else s1
  | _, _ => s

/-- The due time that a write carries: its own, or the one that `DUE` gives it (R40, R41, R314). -/
def State.transferDue (s : State) (t : Transfer) : Option Nat × State :=
  match t.due with
  | some d => (some d, s)
  | none => if t.untimed then (none, s) else s.dueOf (s.duePanel t.agent) t.page

/-- A write is ready at its page. -/
def State.deliver (s : State) (t : Transfer) : State :=
  match (if t.entitled then .accept else s.verdict t.agent t.page t.off) with
  | .refuse => s.turnAway t.agent t.page t.off (s.reply t true)
  | .drop => s.reply t t.due.isSome
  | .accept =>
    if t.off = 0x040 then
      (if isPanelPage t.page then s.reply t t.due.isSome else (s.writeDue t.agent t.page t.data).reply t t.due.isSome)
    else
      let locked := s.lockDrops t.page t.off t.data
      let s1 := s.arriveWrite t.agent t.secure t.page t.off t.data
      if s1.boot ≠ s.boot then s1
      else if timedReg t.page t.off then
        let (due, s2) := s1.transferDue t
        ((s2.notePort t due).acceptTimed t.page t.off t.data due t.origin t.seq).reply t locked
      else (s1.notePort t t.due).reply t (locked || t.due.isSome)

/-- The tick by which a write is ready at its page (R17, R20). -/
def Transfer.latest (t : Transfer) : Nat := t.sent + transitOf ((agentPanel t.agent).getD 16) t.page t.off

/-- A write may be ready now: it has left its port; one of an intent channel takes its whole transit (R23). -/
def State.mayArrive (s : State) (t : Transfer) : Bool :=
  match t.agent with
  | .intent _ _ => decide (t.latest ≤ s.ticks)
  | _ => decide (t.sent ≤ s.ticks)

/-- `TRANSFER_READY` (R17): the n-th write in flight. -/
def execTransferReady (n : Nat) (s : State) : Host.Outcome State Fault Refusal :=
  match s.flight[n]? with
  | none => .next s
  | some t => .next (if s.mayArrive t then { s with flight := s.flight.eraseIdx n }.deliver t else s)

/-- The writes whose longest transit ends with this tick are ready in it, in the order of their issue (R17). -/
def State.tickFlight (s : State) : State :=
  let last (t : Transfer) : Bool := decide (t.latest ≤ s.ticks)
  (s.flight.filter last).foldl (fun u t => u.deliver t) { s with flight := s.flight.filter (fun t => !last t) }

/-- A write by an agent that is ready at its page now. -/
def State.writeNow (s : State) (ag : Agent) (pk off : Nat) (data : Word) : State :=
  { s with seq := s.seq + 1 }.deliver
    ⟨ag, s.originOf ag, s.seq, pk, off, data, none, s.ticks, false, pageAddr pk off, false, false, s.ticks, s.secure ag⟩

/-- `REGISTER_WRITE` (R6, R403): the register is the one of that number, 8 bytes apart. -/
def execRegisterWrite (ag : Agent) (page : Page) (off : Fin 512) (data : Word) (s : State) :
    Host.Outcome State Fault Refusal :=
  .next (s.writeNow ag (pageKey page) (8 * off.val) data)

/-- `EVENT_SET` (R377). -/
def execEventSet (ag : Agent) (page : Page) (mask : Word) (s : State) : Host.Outcome State Fault Refusal :=
  .next (s.writeBy ag (pageKey page) 0x030 (fun u => u.raiseMask (pageKey page) mask))

/-- `LOCK_CFG` (R377, R378): a write of 1 to `LOCK.CFG`. -/
def execLockCfg (ag : Agent) (page : Page) (s : State) : Host.Outcome State Fault Refusal :=
  .next (s.writeBy ag (pageKey page) 0x048 (fun u =>
    let v := u.setFld (pageKey page) HEAD.LOCK 1
    if u.flag (pageKey page) HEAD.LOCK then v else v.lockFirst (pageKey page)))

end Sys2Proof.Machine
end

