-- ==== Sys2Proof/Machine/Late.lean ====
section
/-! DEFINITION. Accesses whose far end may be a page: the elements of a DMA channel (R246 to R253), responses to
device-space loads (R155), and Easel's accesses (R361 to R363). -/

namespace Sys2Proof.Machine

open Sys2Proof

/-! ### DMA elements (R246 to R253) -/

/-- The port of the DMA channels at a scratch bank (R218). -/
def dmaPort : Nat := 5

/-- The element size in bytes (R256). -/
def State.dmaBytes (s : State) (p c : Nat) : Nat :=
  let n := s.fld (dmaPage p c) DMA_CFG.SIZE
  if n = 4 then 8 else 2 ^ n

/-- The checks of a channel's access (R247), in the order of R187: the cause of the halt, if one fails. -/
def dmaCheck (bytes : Nat) (tagged element : Bool) (addr : Int) : Option Nat :=
  let a := addr.toNat
  let dev := decide (0 ≤ addr) && (deviceSpace a || deviceSpace (a + bytes - 1))
  let wide := element && !tagged && decide (bytes = 8)
  if (tagged = true ∨ (wide = true ∧ dev = true)) ∧ addr % 8 ≠ 0 then some 2
  else if addr < 0 ∨ 2 ^ 48 < addr + bytes then some 1
  else if dev = true ∧ wide = false then some 1
  else if a < 0x200000 ∧ 0x1C0000 < a + bytes then some 1
  else none

/-- One word read by a channel from memory. -/
def State.dmaWord (s : State) (p a : Nat) : Got := s.wordBy p dmaPort a

/-- Bytes read by a channel, across the parts of the access. -/
def State.dmaBytesAt (s : State) (p : Nat) : List (Nat × Nat) → Got
  | [] => .word 0 s
  | (a, n) :: rest =>
    match s.dmaWord p (a / 8 * 8) with
    | .waits => .waits
    | .fails k u => .fails k u
    | .word w s1 =>
      match State.dmaBytesAt s1 p rest with
      | .waits => .waits
      | .fails k u => .fails k u
      | .word v s2 => .word (raw (BitVec.ofNat 64 (getBytes w (a % 8) n + (payload v).toNat * 2 ^ (8 * n)))) s2

/-- A channel's read of an element or an index entry. -/
def State.dmaRead (s : State) (p c : Nat) (bytes : Nat) (tagged element : Bool) (addr : Int) : Got :=
  match dmaCheck bytes tagged element addr with
  | some cause => .fails cause s
  | none =>
    let a := addr.toNat
    match s.panelSpot p a with
    | .page pk off =>
      if s.pageThere pk then
        let ag : Agent := .dma (Fin.ofNat 8 p) (Fin.ofNat 32 c)
        let (w, s1) := s.takeReg ag false pk off
        .word (raw w) (s1.noteAccess ag a)
      else .word 0 s
    | _ => if tagged then s.dmaWord p a else s.dmaBytesAt p (parts a bytes)

/-- A write of a channel that loses a collision (R221, R253). -/
def State.dmaCollides (s : State) (p c winner a : Nat) : State :=
  let pk := dmaPage p c
  (((s.noteCollision p winner dmaPort a).mark pk DMA_STATUS.COLL).count pk DMA_COLL.COUNT 1).raise pk 2

/-- A word that a channel writes into a continuity region is kept for its `DATA` entry (R304). -/
def State.dmaKeeps (s : State) (p c a : Nat) (w : TWord) : State :=
  if (s.dma p c).starter.isSome ∧ (s.region p a).isSome then
    s.setDma p c { s.dma p c with wrote := (s.dma p c).wrote ++ [(a, w)] }
  else s

/-- Bytes written by a channel, across the parts of the access, each with the port of another write to its word: for every
port but a core's these are two requests (R220, R221). -/
def State.dmaPut (s : State) (p c : Nat) (tagged : Bool) (w : TWord) :
    List (Nat × Nat) → List (Option (Fin 7)) → Nat → State
  | [], _, _ => s
  | (a, n) :: rest, rivals, v =>
    let base := a / 8 * 8
    let s1 := match s.panelSpot p base with
      | .mem q b path =>
        let new := if tagged then w else mergeBytes (s.word q b) (a % 8) n (v % 2 ^ (8 * n))
        let won (u : State) := ((if path = .far then u.noteCross p q else u).putMem q b new).dmaKeeps p c base new
        (match rivals.headD none with
         | some x => if path = .bank ∧ x.val < dmaPort then s.dmaCollides p c x b else won s
         | none => won s)
      | _ => s
    State.dmaPut s1 p c tagged w rest (rivals.drop 1) (v / 2 ^ (8 * n))

/-- Every word of a channel's write answers, and one that is to be merged is read, before any is written (R227, R252). -/
def State.dmaMerge (s : State) (p : Nat) : List (Nat × Nat) → Got
  | [] => .word 0 s
  | (a, n) :: rest =>
    let base := a / 8 * 8
    match s.panelSpot p base with
    | .busy => .waits
    | .dead | .gone | .page _ _ => .fails (deadCause base) (s.noteRemote p base)
    | .mem q b path =>
      if path = .cached ∧ s.tagLost q (b / 128) = true then .fails 4 (s.tagFails q (b / 128) dmaPort)
      else if path = .far ∧ s.tagLost q (b / 128) = true then .fails 3 ((s.tagFails q (b / 128) 6).noteRemote p base)
      else if n < 8 ∧ s.bad q b = true then .fails 4 (s.noteLostWord p dmaPort q b base path)
      else State.dmaMerge (if n < 8 then s.readThrough dmaPort q b path else s) p rest

/-- A channel's write of an element; a page's error response halts the channel (R252). -/
def State.dmaWrite (s : State) (p c : Nat) (env : MemEnv) (bytes : Nat) (tagged : Bool) (addr : Int) (w : TWord) : Got :=
  match dmaCheck bytes tagged true addr with
  | some cause => .fails cause s
  | none =>
    let a := addr.toNat
    match s.panelSpot p a with
    | .page pk off =>
      let ag : Agent := .dma (Fin.ofNat 8 p) (Fin.ofNat 32 c)
      let u := s.writeNow ag pk off (payload w)
      if s.fld (dmaPage p c) DMA_STATUS.STATE ≠ 4 ∧ u.fld (dmaPage p c) DMA_STATUS.STATE = 4 then
        .fails 1 (s.noteAccess ag a)
      else .word 0 u
    | _ =>
      match s.dmaMerge p (parts a bytes) with
      | .word _ s1 =>
        .word 0 (s1.dmaPut p c tagged w (parts a bytes) [env.winner, env.second] (payload w).toNat)
      | g => g

/-- What became of an element: the access that failed, with its cause and address. -/
inductive Element where
  | waits
  | fails (which cause addr : Nat) (s : State)
  | done (s : State)

/-- The element that lies `k` after the one the registers describe (R246). -/
def State.dmaElement (s : State) (p c k : Nat) (env : MemEnv) : Element :=
  let pk := dmaPage p c
  let e := s.dmaBytes p c
  let idx := s.fld pk DMA_CFG.IDX
  let tagged := decide (s.fld pk DMA_CFG.SIZE = 4)
  let table := s.fld pk DMA_INDEX.ADDR * 4 + 4 * k
  let src : Int := (s.fld pk DMA_SRC.ADDR : Int) + (if idx = 1 ∨ s.flag pk DMA_CFG.SRC_FIX then 0 else (k * e : Nat))
  let dst : Int := (s.fld pk DMA_DST.ADDR : Int) + (if idx = 2 ∨ s.flag pk DMA_CFG.DST_FIX then 0 else (k * e : Nat))
  match (if idx = 0 then .word 0 s else s.dmaRead p c 4 false false table) with
  | .waits => .waits
  | .fails cause u => .fails 2 cause table u
  | .word x s1 =>
    let step : Int := signed 32 (payload x).toNat * e
    let from_ := src + (if idx = 1 then step else 0)
    let into := dst + (if idx = 2 then step else 0)
    match s1.dmaRead p c e tagged true from_ with
    | .waits => .waits
    | .fails cause u => .fails 0 cause (unsign 48 from_) u
    | .word w s2 =>
      match s2.dmaWrite p c env e tagged into w with
      | .waits => .waits
      | .fails cause u => .fails 1 cause (unsign 48 into) u
      | .word _ s3 => .done s3

/-- Later elements whose writes were performed before the failure of the first was known, and their number (R252). -/
def State.dmaBeyond (s : State) (p c : Nat) (env : MemEnv) : List Nat → Nat × State
  | [] => (0, s)
  | k :: rest =>
    match s.dmaElement p c k env with
    | .done s1 =>
      let (n, s2) := State.dmaBeyond s1 p c env rest
      (n + 1, s2)
    | _ => State.dmaBeyond s p c env rest

/-- The registers after an element (R246). -/
def State.dmaAdvance (s : State) (p c : Nat) : State :=
  let pk := dmaPage p c
  let e := s.dmaBytes p c
  let idx := s.fld pk DMA_CFG.IDX
  let s1 := if idx = 1 ∨ s.flag pk DMA_CFG.SRC_FIX then s else s.setFld pk DMA_SRC.ADDR (s.fld pk DMA_SRC.ADDR + e)
  let s2 := if idx = 2 ∨ s.flag pk DMA_CFG.DST_FIX then s1
    else s1.setFld pk DMA_DST.ADDR (s.fld pk DMA_DST.ADDR + e)
  let s3 := if idx = 0 then s2 else s2.setFld pk DMA_INDEX.ADDR (s.fld pk DMA_INDEX.ADDR + 1)
  s3.setFld pk DMA_COUNT.COUNT (s.fld pk DMA_COUNT.COUNT - 1)

/-- A channel after an element: it completes, goes on, or has drained (R250, R251). -/
def State.dmaAfter (s : State) (p c : Nat) : State :=
  let pk := dmaPage p c
  if s.fld pk DMA_COUNT.COUNT = 0 then s.completeDma p c
  else if s.fld pk DMA_STATUS.STATE = 2 then
    let left := (s.dma p c).inFlight - 1
    let s1 := s.setDma p c { s.dma p c with inFlight := left }
    if left = 0 then (s1.setFld pk DMA_STATUS.STATE 3).raise pk 4 else s1
  else s

/-- The channel halts at this element, with the writes of later ones that were performed: no more than were in flight
(R249, R252). -/
def State.dmaFails (s : State) (p c which cause addr beyond : Nat) (env : MemEnv) : State :=
  let pk := dmaPage p c
  let ahead := min beyond (s.fld pk DMA_COUNT.COUNT - 1)
  let room := if s.fld pk DMA_STATUS.STATE = 2 then min ahead ((s.dma p c).inFlight - 1) else ahead
  let (n, s1) := s.dmaBeyond p c env ((List.range room).map (fun k => k + 1))
  (s1.setFld pk DMA_STATUS.BEYOND n).dmaHalt p c cause which addr

/-- `DMA_ELEMENT_DONE` (R246 to R253): an element is read, written and answered. An element may write the channel's own
`PAUSE`; it counts as done all the same. -/
def execDmaElementDone (p : Slice) (c : Fin 32) (env : MemEnv) (beyond : Fin 16) (s : State) :
    Host.Outcome State Fault Refusal :=
  let pk := dmaPage p c
  let v := s.strike p env.upsets
  let st := s.fld pk DMA_STATUS.STATE
  if s.present p = false ∨ (st ≠ 1 ∧ st ≠ 2) ∨ s.fld pk DMA_COUNT.COUNT = 0 then .next v
  else
    .next (match v.dmaElement p c 0 env with
      | .waits => v
      | .fails which cause addr u => if u.fld pk DMA_STATUS.STATE = st then u.dmaFails p c which cause addr beyond env else u
      | .done u =>
        if u.fld pk DMA_STATUS.STATE = 0 ∨ u.fld pk DMA_STATUS.STATE = 4 then u else (u.dmaAdvance p c).dmaAfter p c)

/-! ### Device-space loads (R155) -/

/-- What a device-space load delivers, and the state in which the read has had its effect; whether it is secure is its
instruction's (R353). -/
def State.loadValue (s : State) (t : Tid) (sec : Bool) (addr : Nat) (noData : Bool) : TWord × State :=
  if noData then (tword 0xE2 0, s)
  else match s.spot t.panel t.index addr with
    | .page pk off =>
      if s.pageThere pk then
        let (w, s1) := s.takeReg (.thread t) sec pk off
        (raw w, s1)
      else (0, s)
    | _ => (adoptedVoid, s)

/-- A pending entry filled. -/
def fillPending (id : Nat) (w : TWord) (l : List Slot) : List Slot :=
  l.map (fun x => if x = .pending id then .word w else x)

/-- A thread after the data of its load has come. -/
def Thread.filled (th : Thread) (id : Nat) (w : TWord) : Thread :=
  let rest := th.loads.filter (fun x => decide (x.id ≠ id))
  let free := decide (th.waitsFor = id) && (decide (th.park = some .deviceLoad) || decide (th.park = some .pendingEntry))
  { th with stack := fillPending id w th.stack, loads := rest, park := if free then none else th.park }

/-- The data of a load comes to its thread, and is recorded (R155, R299, R300). -/
def State.answerLoad (s : State) (t : Tid) (x : LoadInFlight) (noData : Bool) : State :=
  let p := t.panel.val
  let i := t.index.val
  let w := (s.loadValue t x.secure x.addr noData).1
  s.answered p i LOAD x.id w (fun u =>
    let v := (u.loadValue t x.secure x.addr noData).2
    v.setThread p i ((v.thread p i).filled x.id w))

/-- `DEVICE_LOAD_RESPONSE` (R155): the oldest load of a thread is answered, once it has left its port. -/
def execDeviceLoadResponse (t : Tid) (noData : Bool) (s : State) : Host.Outcome State Fault Refusal :=
  .next (match (s.thread t.panel t.index).loads with
    | [] => s
    | x :: _ => if s.ticks < x.sent then s else s.answerLoad t x noData)

/-- The answers to the loads and stores of a thread whose longest transits end with this tick come to it (R17). -/
def State.tickAnswers (s : State) (t : Tid) : State :=
  let p := t.panel.val
  let i := t.index.val
  let s1 := (((s.thread p i).loads.filter (fun x => decide (x.latest ≤ s.ticks))).foldl
    (fun u x => if (u.thread p i).loads.contains x then u.answerLoad t x false else u) s)
  ((s1.thread p i).stores.filter (fun x => x.answer.isSome && decide (x.latest ≤ s1.ticks))).foldl
    (fun u x => if (u.thread p i).stores.contains x then u.answerStored p i x else u) s1

/-- The answers of every thread that waits for one. -/
def State.tickResponses (s : State) : State :=
  s.threads.foldl (fun u e =>
    if e.2.loads = [] ∧ e.2.stores = [] then u
    else u.tickAnswers ⟨Fin.ofNat 8 (e.1 / 16), Fin.ofNat 16 e.1⟩) s

/-! ### Easel's accesses (R361 to R363, R372) -/

/-- `EASEL_ACCESS` (R361): a shift of the register starts an access, unless one is running. -/
def execEaselAccess (dr : BitVec 128) (s : State) : Host.Outcome State Fault Refusal :=
  let op := (dr.extractLsb' 126 2).toNat
  let j := { s.jtag with ir := 0x10 }
  let x : EaselAccess :=
    ⟨op, dr.getLsbD 125, (dr.extractLsb' 122 3).toNat, (dr.extractLsb' 72 48).toNat, dr.extractLsb' 0 72⟩
  .next (if s.jtag.access.isSome ∨ op = 0 ∨ op = 3 then { s with jtag := j }
    else { s with jtag := { j with access := some x } })

/-- The access ends with a result code of R361. -/
def State.endAccess (s : State) (result : Nat) : State :=
  { s with jtag := { s.jtag with access := none, result := result, collided := false } }

/-- The access ends with a word read. -/
def State.endRead (s : State) (tagged : Bool) (w : TWord) : State :=
  { s.endAccess 0 with jtag := { (s.endAccess 0).jtag with word := if tagged then w else raw (payload w) } }

/-- The state does not permit the access (R362). -/
def State.refuseAccess (s : State) : State := (s.endAccess 0).refusePort

/-- A panel's own memory and pages answer Easel with an error (R362). -/
def State.panelAway (s : State) (p : Nat) : Bool :=
  let pn := s.panel p
  !s.present p || pn.island || pn.held || pn.resetting.isSome

/-- An access to a page. A page that is not there reads zero (R24, R376), and what `EASL_TREG` does not reach is refused
(R367). -/
def State.easelPage (s : State) (x : EaselAccess) (pk off : Nat) : State :=
  if s.easelMay pk off = false then s.refuseAccess
  else if x.op = 1 ∧ s.pageThere pk = false then s.endRead true 0
  else if x.op = 1 ∧ pk = easlPage ∧ (off = 0x120 ∨ off = 0x128) ∧ s.tregOpen = false then s.refuseAccess
  else if isPanelPage pk = true ∧ s.panelAway x.panel = true then s.endAccess 2
  else if x.op = 1 then
    let (w, s1) := s.readReg .easel pk off
    s1.endRead true (raw w)
  else
    let s1 := { s with jtag := { s.jtag with result := 0 } }.writeNow .easel pk off (payload x.word)
    s1.endAccess s1.jtag.result

/-- The panel whose memory an address of a panel's view reaches. -/
def memoryOf (p addr : Nat) : Nat :=
  match regionOf p addr with
  | .remote q _ => q
  | _ => p

/-- An access to memory; that of a panel whose island rests, or which is in reset or held, answers with an error (R362). -/
def State.easelMemory (s : State) (x : EaselAccess) : State :=
  if s.easelOpen = false then s.refuseAccess
  else if s.panelAway (memoryOf x.panel x.addr) = true then (s.noteRemote x.panel x.addr).endAccess 2
  else match s.panelSpot x.panel x.addr with
    | .busy => s
    | .dead | .gone | .page _ _ => (s.noteRemote x.panel x.addr).endAccess 2
    | .mem q a path =>
      let guarded := decide (path = .bank) && decide (a / 0x40000 = 7) && !s.easelSecure
      if guarded = true ∧ x.op = 1 then s.endRead true 0
      else if guarded = true then s.refuseAccess
      else if path ≠ .bank ∧ s.tagLost q (a / 128) = true then
        ((s.tagFails q (a / 128) (portOver 0 path)).noteRemote x.panel x.addr).endAccess 2
      else if x.op = 1 then
        (if s.bad q a then (s.noteLostWord x.panel 0 q a x.addr path).endAccess 2
         else (s.readThrough 0 q a path).endRead x.tagged (s.word q a))
      else
        let u := if path = .bank then s.noteBank q 0 a else s
        (u.putMem q a (if x.tagged then x.word else raw (payload x.word))).endAccess 0

/-- `EASEL_ACCESS_DONE` (R361, R362). -/
def execEaselAccessDone (s : State) : Host.Outcome State Fault Refusal :=
  match s.jtag.access with
  | none => .next s
  | some x =>
    if x.addr % 8 ≠ 0 then .next (s.endAccess 2)
    else match regionOf x.panel x.addr with
      | .page pk off => .next (s.easelPage x pk off)
      | _ => .next (s.easelMemory x)

/-- The register as a capture shows it (R361): result, collision, word read. -/
def State.accessWord (s : State) : BitVec 128 :=
  let result := if s.jtag.access.isSome then 1 else s.jtag.result
  BitVec.ofNat 128 (result % 4 * 2 ^ 126 + s.jtag.collided.toNat * 2 ^ 125 + s.jtag.word.toNat)

end Sys2Proof.Machine
end

