-- ==== Sys2Proof/Machine/Dispatch.lean ====
section
/-! DEFINITION. One arm for each command: the meaning it calls. -/

namespace Sys2Proof.Machine

open Sys2Proof

def exec (i : Instr) (s : State) : Host.Outcome State Fault Refusal :=
  match i with
  | .registerWrite ag page off data => Sys2Proof.Machine.execRegisterWrite ag page off data s
  | .eventSet ag page mask => Sys2Proof.Machine.execEventSet ag page mask s
  | .lockCfg ag page => Sys2Proof.Machine.execLockCfg ag page s
  | .transferReady n => Sys2Proof.Machine.execTransferReady n s
  | .timedWriteDue queue => Sys2Proof.Machine.execTimedWriteDue queue s
  | .updatePointApply page => Sys2Proof.Machine.execUpdatePointApply page s
  | .twqClr ag queue => Sys2Proof.Machine.execTwqClr ag queue s
  | .canvStep delta => Sys2Proof.Machine.execCanvStep delta s
  | .canvAlarmFire ix => Sys2Proof.Machine.execCanvAlarmFire ix s
  | .syncFrameReceived frame sub => Sys2Proof.Machine.execSyncFrameReceived frame sub s
  | .ptpSyncMessage p port ns sub => Sys2Proof.Machine.execPtpSyncMessage p port ns sub s
  | .syncSourceLost => Sys2Proof.Machine.execSyncSourceLost s
  | .syncSourceReturn => Sys2Proof.Machine.execSyncSourceReturn s
  | .fadcSample sl c nanovolts => Sys2Proof.Machine.execFadcSample sl c nanovolts s
  | .fadcCalStart ag sl c => Sys2Proof.Machine.execFadcCalStart ag sl c s
  | .fadcCalDone sl c gain offset => Sys2Proof.Machine.execFadcCalDone sl c gain offset s
  | .fadcTrigFire sl c => Sys2Proof.Machine.execFadcTrigFire sl c s
  | .streamPayload sl c accepted => Sys2Proof.Machine.execStreamPayload sl c accepted s
  | .fadcRingDroppedClr ag sl c => Sys2Proof.Machine.execFadcRingDroppedClr ag sl c s
  | .madcConversionEnd sl nanovolts => Sys2Proof.Machine.execMadcConversionEnd sl nanovolts s
  | .comparatorCrossing sl c nanovolts held sub => Sys2Proof.Machine.execComparatorCrossing sl c nanovolts held sub s
  | .wcmpCheckStart ag sl c => Sys2Proof.Machine.execWcmpCheckStart ag sl c s
  | .checkStep sl c above below => Sys2Proof.Machine.execCheckStep sl c above below s
  | .checkDone sl c => Sys2Proof.Machine.execCheckDone sl c s
  | .sweepGo sl => Sys2Proof.Machine.execSweepGo sl s
  | .sweepStep sl => Sys2Proof.Machine.execSweepStep sl s
  | .sweepEnd sl => Sys2Proof.Machine.execSweepEnd sl s
  | .sweepStop ag sl => Sys2Proof.Machine.execSweepStop ag sl s
  | .pwmStart sl p => Sys2Proof.Machine.execPwmStart sl p s
  | .pwmStop sl p => Sys2Proof.Machine.execPwmStop sl p s
  | .pwmpWrap sl p => Sys2Proof.Machine.execPwmpWrap sl p s
  | .rawEdge sl p second rise => Sys2Proof.Machine.execRawEdge sl p second rise s
  | .deadTimeExpiry sl p out => Sys2Proof.Machine.execDeadTimeExpiry sl p out s
  | .minPulseExpiry sl p out => Sys2Proof.Machine.execMinPulseExpiry sl p out s
  | .pwmpClrCounts ag sl p => Sys2Proof.Machine.execPwmpClrCounts ag sl p s
  | .stippleCalibration sl taps lines => Sys2Proof.Machine.execStippleCalibration sl taps s lines
  | .tripSourceActive sl src sub => Sys2Proof.Machine.execTripSourceActive sl src sub s
  | .blankingClose sl p => Sys2Proof.Machine.execBlankingClose sl p s
  | .tripClearPair sl p => Sys2Proof.Machine.execTripClearPair sl p s
  | .clearPendingComplete sl p => Sys2Proof.Machine.execClearPendingComplete sl p s
  | .voteDisagree sl copy latches cbc => Sys2Proof.Machine.execVoteDisagree sl copy s latches cbc
  | .voteClr ag sl => Sys2Proof.Machine.execVoteClr ag sl s
  | .countClr ag sl => Sys2Proof.Machine.execCountClr ag sl s
  | .canvasClockLoss sl => Sys2Proof.Machine.execCanvasClockLoss sl s
  | .canvasClockReturn sl => Sys2Proof.Machine.execCanvasClockReturn sl s
  | .loopEvaluation sl n upset => Sys2Proof.Machine.execLoopEvaluation sl n upset s
  | .loopClose sl n => Sys2Proof.Machine.execLoopClose sl n s
  | .loopOpen sl n => Sys2Proof.Machine.execLoopOpen sl n s
  | .loopClrCounts ag sl n => Sys2Proof.Machine.execLoopClrCounts ag sl n s
  | .lengClr ag sl g => Sys2Proof.Machine.execLengClr ag sl g s
  | .nop t => Sys2Proof.Machine.execNop t s
  | .dup t => Sys2Proof.Machine.execDup t s
  | .drop t => Sys2Proof.Machine.execDrop t s
  | .swap t => Sys2Proof.Machine.execSwap t s
  | .over t => Sys2Proof.Machine.execOver t s
  | .rot t => Sys2Proof.Machine.execRot t s
  | .pick t n => Sys2Proof.Machine.execPick t n s
  | .roll t n => Sys2Proof.Machine.execRoll t n s
  | .dropn t n => Sys2Proof.Machine.execDropn t n s
  | .depth t => Sys2Proof.Machine.execDepth t s
  | .litS t imm => Sys2Proof.Machine.execLitS t imm s
  | .litU t imm => Sys2Proof.Machine.execLitU t imm s
  | .litR t imm => Sys2Proof.Machine.execLitR t imm s
  | .litF t imm => Sys2Proof.Machine.execLitF t imm s
  | .litC t disp => Sys2Proof.Machine.execLitC t disp s
  | .litV t => Sys2Proof.Machine.execLitV t s
  | .add t => Sys2Proof.Machine.execAdd t s
  | .sub t => Sys2Proof.Machine.execSub t s
  | .neg t => Sys2Proof.Machine.execNeg t s
  | .abs t => Sys2Proof.Machine.execAbs t s
  | .min t => Sys2Proof.Machine.execMin t s
  | .max t => Sys2Proof.Machine.execMax t s
  | .mul t => Sys2Proof.Machine.execMul t s
  | .mulh t => Sys2Proof.Machine.execMulh t s
  | .div t => Sys2Proof.Machine.execDiv t s
  | .rem t => Sys2Proof.Machine.execRem t s
  | .and t => Sys2Proof.Machine.execAnd t s
  | .or t => Sys2Proof.Machine.execOr t s
  | .xor t => Sys2Proof.Machine.execXor t s
  | .not t => Sys2Proof.Machine.execNot t s
  | .shl t => Sys2Proof.Machine.execShl t s
  | .shr t => Sys2Proof.Machine.execShr t s
  | .sar t => Sys2Proof.Machine.execSar t s
  | .shli t n => Sys2Proof.Machine.execShli t n s
  | .shri t n => Sys2Proof.Machine.execShri t n s
  | .sari t n => Sys2Proof.Machine.execSari t n s
  | .eq t => Sys2Proof.Machine.execEq t s
  | .ne t => Sys2Proof.Machine.execNe t s
  | .lt t => Sys2Proof.Machine.execLt t s
  | .le t => Sys2Proof.Machine.execLe t s
  | .eqz t => Sys2Proof.Machine.execEqz t s
  | .fadd t => Sys2Proof.Machine.execFadd t s
  | .fsub t => Sys2Proof.Machine.execFsub t s
  | .fmul t => Sys2Proof.Machine.execFmul t s
  | .fdiv t => Sys2Proof.Machine.execFdiv t s
  | .fsqrt t => Sys2Proof.Machine.execFsqrt t s
  | .fneg t => Sys2Proof.Machine.execFneg t s
  | .fabs t => Sys2Proof.Machine.execFabs t s
  | .feq t => Sys2Proof.Machine.execFeq t s
  | .flt t => Sys2Proof.Machine.execFlt t s
  | .fle t => Sys2Proof.Machine.execFle t s
  | .cvtIf t => Sys2Proof.Machine.execCvtIf t s
  | .cvtFi t => Sys2Proof.Machine.execCvtFi t s
  | .cvtXf t => Sys2Proof.Machine.execCvtXf t s
  | .retag t tag => Sys2Proof.Machine.execRetag t tag s
  | .sat t n => Sys2Proof.Machine.execSat t n s
  | .align t f => Sys2Proof.Machine.execAlign t f s
  | .br t disp => Sys2Proof.Machine.execBr t disp s
  | .bz t disp => Sys2Proof.Machine.execBz t disp s
  | .bnz t disp => Sys2Proof.Machine.execBnz t disp s
  | .jmp t => Sys2Proof.Machine.execJmp t s
  | .call t disp a r => Sys2Proof.Machine.execCall t disp a r s
  | .calli t a r => Sys2Proof.Machine.execCalli t a r s
  | .ret t => Sys2Proof.Machine.execRet t s
  | .reti t => Sys2Proof.Machine.execReti t s
  | .ldT t disp env => Sys2Proof.Machine.execLdT t disp env s
  | .ldR t disp env => Sys2Proof.Machine.execLdR t disp env s
  | .ldS32 t disp env => Sys2Proof.Machine.execLdS32 t disp env s
  | .ldU32 t disp env => Sys2Proof.Machine.execLdU32 t disp env s
  | .ldS16 t disp env => Sys2Proof.Machine.execLdS16 t disp env s
  | .ldU16 t disp env => Sys2Proof.Machine.execLdU16 t disp env s
  | .ldS8 t disp env => Sys2Proof.Machine.execLdS8 t disp env s
  | .ldU8 t disp env => Sys2Proof.Machine.execLdU8 t disp env s
  | .stT t disp env => Sys2Proof.Machine.execStT t disp env s
  | .stR t disp env => Sys2Proof.Machine.execStR t disp env s
  | .st32 t disp env => Sys2Proof.Machine.execSt32 t disp env s
  | .st16 t disp env => Sys2Proof.Machine.execSt16 t disp env s
  | .st8 t disp env => Sys2Proof.Machine.execSt8 t disp env s
  | .stt t disp => Sys2Proof.Machine.execStt t disp s
  | .aadd t disp env => Sys2Proof.Machine.execAadd t disp env s
  | .aswap t disp env => Sys2Proof.Machine.execAswap t disp env s
  | .srr t num => Sys2Proof.Machine.execSrr t num s
  | .srw t num => Sys2Proof.Machine.execSrw t num s
  | .tag t => Sys2Proof.Machine.execTag t s
  | .tagset t tag => Sys2Proof.Machine.execTagset t tag s
  | .ptrr t mask => Sys2Proof.Machine.execPtrr t mask s
  | .wfe t => Sys2Proof.Machine.execWfe t s
  | .fence t => Sys2Proof.Machine.execFence t s
  | .yield t => Sys2Proof.Machine.execYield t s
  | .syscall t n => Sys2Proof.Machine.execSyscall t n s
  | .trap t n => Sys2Proof.Machine.execTrap t n s
  | .brk t => Sys2Proof.Machine.execBrk t s
  | .bmove t env => Sys2Proof.Machine.execBmove t env s
  | .bfill t env => Sys2Proof.Machine.execBfill t env s
  | .dotx t env => Sys2Proof.Machine.execDotx t env s
  | .crc32 t env => Sys2Proof.Machine.execCrc32 t env s
  | .cacheFillComplete t => Sys2Proof.Machine.execCacheFillComplete t s
  | .deviceLoadResponse t noData => Sys2Proof.Machine.execDeviceLoadResponse t noData s
  | .storeResponse t => Sys2Proof.Machine.execStoreResponse t s
  | .faultEntry t upsets => Sys2Proof.Machine.execFaultEntry t upsets s
  | .lockstepMismatch p core thread output => Sys2Proof.Machine.execLockstepMismatch p core thread output s
  | .eventArrival n => Sys2Proof.Machine.execEventArrival n s
  | .interruptPresentation t upsets => Sys2Proof.Machine.execInterruptPresentation t upsets s
  | .evcClaim t => Sys2Proof.Machine.execEvcClaim t s
  | .evcComplete t => Sys2Proof.Machine.execEvcComplete t s
  | .evcClr ag p => Sys2Proof.Machine.execEvcClr ag p s
  | .watcherWake p => Sys2Proof.Machine.execWatcherWake p s
  | .eventPinChange pin low => Sys2Proof.Machine.execEventPinChange pin low s
  | .coreClrCore t => Sys2Proof.Machine.execCoreClrCore t s
  | .coreClrThread t => Sys2Proof.Machine.execCoreClrThread t s
  | .scrPowerWrite ag p data => Sys2Proof.Machine.execScrPowerWrite ag p data s
  | .bankPowerDone p b => Sys2Proof.Machine.execBankPowerDone p b s
  | .scrWipe ag p => Sys2Proof.Machine.execScrWipe ag p s
  | .bank7WipeDone p => Sys2Proof.Machine.execBank7WipeDone p s
  | .scrClr ag p => Sys2Proof.Machine.execScrClr ag p s
  | .dramReadComplete p line errs => Sys2Proof.Machine.execDramReadComplete p line errs s
  | .poisonedEviction p line => Sys2Proof.Machine.execPoisonedEviction p line s
  | .dramInitDone p => Sys2Proof.Machine.execDramInitDone p s
  | .dramRefresh p doubled => Sys2Proof.Machine.execDramRefresh p doubled s
  | .patrolScrubRead p errs => Sys2Proof.Machine.execPatrolScrubRead p errs s
  | .writeTimingAdjust p outOfRange => Sys2Proof.Machine.execWriteTimingAdjust p outOfRange s
  | .ddrcPprGo ag p => Sys2Proof.Machine.execDdrcPprGo ag p s
  | .pprDone p ok => Sys2Proof.Machine.execPprDone p ok s
  | .ddrcClrDev ag p => Sys2Proof.Machine.execDdrcClrDev ag p s
  | .ddrcClrCounts ag p => Sys2Proof.Machine.execDdrcClrCounts ag p s
  | .dmaStart ag p c => Sys2Proof.Machine.execDmaStart ag p c s
  | .dmaPause ag p c inFlight => Sys2Proof.Machine.execDmaPause ag p c inFlight s
  | .dmaResume ag p c => Sys2Proof.Machine.execDmaResume ag p c s
  | .dmaElementDone p c env beyond => Sys2Proof.Machine.execDmaElementDone p c env beyond s
  | .dmaAlloc ag p => Sys2Proof.Machine.execDmaAlloc ag p s
  | .dmaFree ag p c => Sys2Proof.Machine.execDmaFree ag p c s
  | .dmaAllocRefusedClr ag p => Sys2Proof.Machine.execDmaAllocRefusedClr ag p s
  | .dmaCollClr ag p c => Sys2Proof.Machine.execDmaCollClr ag p c s
  | .tmrStep p n => Sys2Proof.Machine.execTmrStep p n s
  | .tmrStart ag p n => Sys2Proof.Machine.execTmrStart ag p n s
  | .tmrStop ag p n => Sys2Proof.Machine.execTmrStop ag p n s
  | .tmrGstart ag p mask => Sys2Proof.Machine.execTmrGstart ag p mask s
  | .tmrGstop ag p mask => Sys2Proof.Machine.execTmrGstop ag p mask s
  | .captureEdge p n rise => Sys2Proof.Machine.execCaptureEdge p n rise s
  | .timerCapture p n => Sys2Proof.Machine.execTimerCapture p n s
  | .tmrCapRead ag p n => Sys2Proof.Machine.execTmrCapRead ag p n s
  | .ratioMeasurement p ratio => Sys2Proof.Machine.execRatioMeasurement p ratio s
  | .stencilRowEnd sl e pins => Sys2Proof.Machine.execStencilRowEnd sl e pins s
  | .stenStart sl e => Sys2Proof.Machine.execStenStart sl e s
  | .stenStop sl e => Sys2Proof.Machine.execStenStop sl e s
  | .stenClrFifo ag sl e => Sys2Proof.Machine.execStenClrFifo ag sl e s
  | .stenTxfWrite sl e word => Sys2Proof.Machine.execStenTxfWrite sl e word s
  | .stenRxfRead ag sl e => Sys2Proof.Machine.execStenRxfRead ag sl e s
  | .stenRowWrite sl e r data => Sys2Proof.Machine.execStenRowWrite sl e r data s
  | .stenGstart sl mask => Sys2Proof.Machine.execStenGstart sl mask s
  | .stenGstop sl mask => Sys2Proof.Machine.execStenGstop sl mask s
  | .stenGclk sl mask => Sys2Proof.Machine.execStenGclk sl mask s
  | .intentFrameReceived p port tag bytes => Sys2Proof.Machine.execIntentFrameReceived p port tag bytes s
  | .tokenRefill p ix => Sys2Proof.Machine.execTokenRefill p ix s
  | .intentMessageTaken p => Sys2Proof.Machine.execIntentMessageTaken p s
  | .partnerSilence p ix => Sys2Proof.Machine.execPartnerSilence p ix s
  | .quarClear ag p ix => Sys2Proof.Machine.execQuarClear ag p ix s
  | .partnerValidChange ag p ix valid => Sys2Proof.Machine.execPartnerValidChange ag p ix valid s
  | .intnClr ag p => Sys2Proof.Machine.execIntnClr ag p s
  | .linkStateChange p n link => Sys2Proof.Machine.execLinkStateChange p n link s
  | .rxFrame p n frame => Sys2Proof.Machine.execRxFrame p n frame s
  | .txRecord p n => Sys2Proof.Machine.execTxRecord p n s
  | .txFrameSent p n cut => Sys2Proof.Machine.execTxFrameSent p n s cut
  | .gclChange ag p n => Sys2Proof.Machine.execGclChange ag p n s
  | .gclChangeApplied p n gptp => Sys2Proof.Machine.execGclChangeApplied p n gptp s
  | .gateEntryExpiry p n gptp => Sys2Proof.Machine.execGateEntryExpiry p n s gptp
  | .preemptVerifyDone p n ok => Sys2Proof.Machine.execPreemptVerifyDone p n ok s
  | .saLoadGo ag p n => Sys2Proof.Machine.execSaLoadGo ag p n s
  | .saLoadDone p n => Sys2Proof.Machine.execSaLoadDone p n s
  | .ethClr ag p n => Sys2Proof.Machine.execEthClr ag p n s
  | .fabClr ag p => Sys2Proof.Machine.execFabClr ag p s
  | .fabricLinkError p link => Sys2Proof.Machine.execFabricLinkError p link s
  | .epochBoundary p => Sys2Proof.Machine.execEpochBoundary p s
  | .checkpointClose p => Sys2Proof.Machine.execCheckpointClose p s
  | .jrnlEnable ag p en => Sys2Proof.Machine.execJrnlEnable ag p en s
  | .jrnlClr ag p => Sys2Proof.Machine.execJrnlClr ag p s
  | .hovrKick ag sl => Sys2Proof.Machine.execHovrKick ag sl s
  | .watchdogExpiry sl => Sys2Proof.Machine.execWatchdogExpiry sl s
  | .threadRestore sl => Sys2Proof.Machine.execThreadRestore sl s
  | .threadThrough sl u => Sys2Proof.Machine.execThreadThrough sl u s
  | .hovrAdopt sl => Sys2Proof.Machine.execHovrAdopt sl s
  | .hovrPlanned sl => Sys2Proof.Machine.execHovrPlanned sl s
  | .hovrRelease ag sl => Sys2Proof.Machine.execHovrRelease ag sl s
  | .hovrReturn sl => Sys2Proof.Machine.execHovrReturn sl s
  | .returnComplete sl => Sys2Proof.Machine.execReturnComplete sl s
  | .modeCommission tgt => Sys2Proof.Machine.execModeCommission tgt s
  | .modeRun tgt => Sys2Proof.Machine.execModeRun tgt s
  | .modeHold tgt => Sys2Proof.Machine.execModeHold tgt s
  | .modeRest tgt => Sys2Proof.Machine.execModeRest tgt s
  | .modeWarm ag sl => Sys2Proof.Machine.execModeWarm ag sl s
  | .panelWarmResetDone p => Sys2Proof.Machine.execPanelWarmResetDone p s
  | .threadResetStop ag sl mask => Sys2Proof.Machine.execThreadResetStop ag sl mask s
  | .threadResetStart ag sl mask => Sys2Proof.Machine.execThreadResetStart ag sl mask s
  | .pkgResetCmd ag code => Sys2Proof.Machine.execPkgResetCmd ag code s
  | .pkgResetPin => Sys2Proof.Machine.execPkgResetPin s
  | .powerOn => Sys2Proof.Machine.execPowerOn s
  | .primeEnd gesso slotA slotB => Sys2Proof.Machine.execPrimeEnd gesso slotA slotB s
  | .railBelowWarning rail reading => Sys2Proof.Machine.execRailBelowWarning rail s reading
  | .dipRecordWritten => Sys2Proof.Machine.execDipRecordWritten s
  | .railRecovered rail reading => Sys2Proof.Machine.execRailRecovered rail s reading
  | .railBelowReset rail reading => Sys2Proof.Machine.execRailBelowReset rail s reading
  | .junctionReading sl celsius => Sys2Proof.Machine.execJunctionReading sl celsius s
  | .upntCommit ag => Sys2Proof.Machine.execUpntCommit ag s
  | .upntCommitKeys ag => Sys2Proof.Machine.execUpntCommitKeys ag s
  | .commitDone ok => Sys2Proof.Machine.execCommitDone ok s
  | .upntDipClr ag => Sys2Proof.Machine.execUpntDipClr ag s
  | .lifeTransition ag confirm target => Sys2Proof.Machine.execLifeTransition ag confirm target s
  | .advanceFloor ag => Sys2Proof.Machine.execAdvanceFloor ag s
  | .relock ag => Sys2Proof.Machine.execRelock ag s
  | .unlockReq challenge => Sys2Proof.Machine.execUnlockReq challenge s
  | .unlockSubmit => Sys2Proof.Machine.execUnlockSubmit s
  | .tamperSense ix => Sys2Proof.Machine.execTamperSense ix s
  | .tapReset => Sys2Proof.Machine.execTapReset s
  | .extest scan => Sys2Proof.Machine.execExtest s scan
  | .idcode => Sys2Proof.Machine.execIdcode s
  | .samplePreload scan => Sys2Proof.Machine.execSamplePreload s scan
  | .clamp board => Sys2Proof.Machine.execClamp s board
  | .highz board => Sys2Proof.Machine.execHighz s board
  | .bypass => Sys2Proof.Machine.execBypass s
  | .easelAccess dr => Sys2Proof.Machine.execEaselAccess dr s
  | .easlHalt p => Sys2Proof.Machine.execEaslHalt p s
  | .haltComplete p => Sys2Proof.Machine.execHaltComplete p s
  | .easlStep thread irq count => Sys2Proof.Machine.execEaslStep thread irq count s
  | .stepEnd p => Sys2Proof.Machine.execStepEnd p s
  | .easlResume p => Sys2Proof.Machine.execEaslResume p s
  | .easlDreset p => Sys2Proof.Machine.execEaslDreset p s
  | .easlTregWrite data => Sys2Proof.Machine.execEaslTregWrite data s
  | .easlInject data => Sys2Proof.Machine.execEaslInject data s
  | .restEntryComplete sl => Sys2Proof.Machine.execRestEntryComplete sl s
  | .remoteDramResponse t failed => Sys2Proof.Machine.execRemoteDramResponse t failed s
  | .tripPinInactive sl pin => Sys2Proof.Machine.execTripPinInactive sl pin s
  | .tamperSenseEnd ix => Sys2Proof.Machine.execTamperSenseEnd ix s
  | .pkgResetNRelease => Sys2Proof.Machine.execPkgResetNRelease s
  | .easelAccessDone => Sys2Proof.Machine.execEaselAccessDone s
  | .ptpIntervalExpiry p n pdelay => Sys2Proof.Machine.execPtpIntervalExpiry p n pdelay s
  | .pdelayResponse p n ps => Sys2Proof.Machine.execPdelayResponse p n ps s

end Sys2Proof.Machine
end

