-- ==== Sys2Proof/Machine/Tick.lean ====
section
/-! DEFINITION. One canvas tick: what time alone does (R25, R43, R56, R71, R74, R133, R268, R272; assumption 3). -/

namespace Sys2Proof.Machine

open Sys2Proof

/-- What the present tick still owes before it ends: writes whose transit ends, timed writes due, alarms whose time has
come, captures overrun, answers to threads, events due, intent messages that have waited long enough, and commands of slices (R17, R22, R23, R29, R37, R326;
assumption 84). -/
def State.oweTick (s : State) : State :=
  let s1 := s.tickPrime.tickTags.tickOverruns.tickFlight.tickDue.tickResponses
  let s2 := (List.range 4).foldl (fun u i => u.fireAlarm i) s1
  let s3 := (s2.slices.foldl (fun u p => u.tickIntent p) s2).tickEvents
  s3.slices.foldl (fun u sl => (if (u.panel sl).orders = [] then u else u.tickOrders sl).tickWatcher sl |>.tickPort sl |>.tickHeld sl 0 |>.tickHeld sl 1) s3

/-- The present tick ends and the next one begins. -/
def State.tick (s : State) : State :=
  if s.timeStands then s
  else
    let s1 := s.oweTick.tickStencilsOut.tickPads.tickCanvas
    let s2 := s1.tickStencilsIn.tickCaptures.tickSamples.tickLoops.tickComparators.tickDiscipline.tickSyncOut.tickFec.tickUpset
    { s2 with setNow := [], rwcNow := [], bankWrites := [] }.showNow.registerSources

end Sys2Proof.Machine
end

