-- ==== Sys2Proof/WellFormed.lean ====
section
/-! DEFINITION. What the types of the commands leave open: a command that the hardware could not be given is
ill-formed. -/

namespace Sys2Proof

/-- A branch has the 8-bit and the 16-bit displacement only (R185, R186). -/
def Disp.branch : Disp → Bool
  | .s8 _ | .s16 _ => true
  | .s32 _ => false

/-- A taps measurement gives a pair of lines for each of the 16 pairs, each a 7-bit count (R99, R103). -/
def tapsFit (l : List (Nat × Nat)) : Bool :=
  decide (l.length = 16) && l.all (fun x => decide (x.1 < 128) && decide (x.2 < 128))

/-- And a 7-bit count for each of the 16 sampling lines. -/
def linesFit (l : List Nat) : Bool := decide (l.length = 16) && l.all (fun x => decide (x < 128))

/-- What `PRIME` finds in one slice names every converter and every pair. -/
def GessoSlice.fits (g : GessoSlice) : Bool := tapsFit g.taps && linesFit g.lines && decide (g.trims.length = 16)

/-- Well-formed commands. -/
def WellFormed : Instr → Bool
  | .br _ d | .bz _ d | .bnz _ d => d.branch
  | .stippleCalibration _ t l => tapsFit t && linesFit l
  | .primeEnd g _ _ => decide (g.length = 8) && g.all GessoSlice.fits
  | _ => true

end Sys2Proof
end

