-- ==== Sys2Proof/Safety.lean ====
section
/-! DEFINITION. What claims are stated in: the ways a command ends, what holds in every state that a run keeps, and
what a thread needs for its next instruction to complete. -/

namespace Sys2Proof.Machine

open Sys2Proof

/-- A tick passes, and nothing that it still owes moves canvas time (R25, R35): no step takes effect in it, and no reset. -/
def Quiet (s : State) : Prop :=
  s.timeStands = false ∧ s.oweTick.timeStands = false ∧ s.oweTick.ticks = s.ticks ∧ s.oweTick.canvas = s.canvas
    ∧ s.oweTick.canvasNext = s.canvasNext

/-- The registers that do nothing but hold what is written to them, with every value allowed: `EVENT`, `LOCK`, flags of
the write-1-to-clear kind, and configuration that other commands use. -/
def plainRegister (pk off : Nat) : Bool :=
  match blockOf pk with
  | none => false
  | some (b, _) => decide (off = 0x020) || decide (off = 0x048) || (match b with
    | .madc => decide (0x280 ≤ off) && decide (off < 0x300)
    | .sweep => decide (off = 0x100) || decide (off = 0x108)
    | .loop => decide (0x140 ≤ off) && decide (off < 0x178) || decide (off = 0x180) || decide (off = 0x188)
    | .sten => decide (off = 0x140)
    | .scr => decide (off = 0x120)
    | .ddrc => decide (off = 0x118) || decide (off = 0x128)
    | .evc => decide (off = 0x208)
    | .fab => decide (off = 0x108)
    | .intnPartner => decide (off = 0x100)
    | .eth => decide (off = 0x118) || decide (off = 0x130) || decide (off = 0x150) || decide (0xC00 ≤ off)
    | .dma => decide (off = 0x018)
    | .tmr => decide (off = 0x018) || decide (off = 0x110) || decide (off = 0x118)
    | .canv => decide (off = 0x120) || decide (off = 0x128)
    | .modeSlice => decide (off = 0x118) || decide (off = 0x120)
    | .modePkg => decide (off = 0x118)
    | .upnt => decide (off = 0x118) || decide (0x140 ≤ off) && decide (off < 0x200)
    | .hovr => decide (off = 0x108) || decide (off = 0x110)
    | _ => false)

/-- What a field holds after an accepted write of its register (R6, R7, R8, R378, R403), by its access code. -/
def State.fieldAfter (s : State) (ag : Agent) (pk : Nat) (data : Word) (f : FieldRow) : Nat :=
  let new := bits data f.fld.hi f.fld.lo
  let old := s.fld pk f.fld
  match f.acc with
  | .rw => new
  | .rwc => if s.flag pk HEAD.LOCK = false ∧ s.commissioned pk = true then new else old
  | .rws => if s.secure ag = true then new else old
  | .w1c => bits (s.reg pk f.fld.off &&& ~~~(data &&& ~~~Store.read 0 s.setNow (regKey pk f.fld.off))) f.fld.hi f.fld.lo
  | .w1l => old ||| new
  | .ro | .wo | .w1s | .rwt => old

/-- The command completes: it answers a next state. -/
def Completes (c : Instr) (s : State) : Prop := ∃ t, exec c s = .next t

/-- A lifecycle state that R353 names, and a rollback floor that the fuses of R355 can hold; what a transition in progress
will burn is as legal, and no step back. -/
def State.legal (s : State) : Prop :=
  s.fuses.state ≤ 4 ∧ s.fuses.floor ≤ 64
    ∧ ∀ f : Fuses, s.burn = some f → s.fuses.state ≤ f.state ∧ f.state ≤ 4 ∧ f.floor ≤ 64

/-- Fuses only ever go forward: no lifecycle state returns, no floor falls (R354, R355). -/
def Fuses.reaches (f g : Fuses) : Prop := f.state ≤ g.state ∧ f.floor ≤ g.floor

/-- The thread of a number. -/
def State.at (s : State) (t : Tid) : Thread := s.thread t.panel t.index

/-- The next instruction of a thread may run, and its `len` bytes are fetched, which leaves the state `u`: only caches and
what they count can differ. No difference that Easel has injected awaits an output of its core (R368). -/
def Ready (s : State) (t : Tid) (len : Nat) (u : State) : Prop :=
  s.canRun t.panel t.index = true ∧ s.fetch t.panel t.index len = .ok u
    ∧ (u.core t.panel (t.index.val / 4)).inject = none

/-- The renamed entries of a thread: the operands, top first, then the rest (R151, R175). -/
def Operands (s : State) (t : Tid) (ws : List TWord) (rest : List Slot) : Prop :=
  (s.at t).stack = ws.map Slot.word ++ rest ∧ ws.length + rest.length ≤ 16

/-- The thread's renamed entries replaced, and `THR_FLAGS` bits set. -/
def State.leave (s : State) (t : Tid) (stack : List Slot) (fl : Nat) : State :=
  s.setThread t.panel t.index { s.at t with stack := stack, flags := (s.at t).flags ||| BitVec.ofNat 64 fl }

/-- The instruction retires, and the thread goes on after its `len` bytes. -/
def State.goOn (s : State) (t : Tid) (len : Nat) (stack : List Slot) (fl : Nat) : State :=
  (s.leave t stack fl).retire t.panel t.index ((s.at t).pc + len) 0

/-- The instruction takes a fault: it waits with its own address for the entry (R187, R196). -/
def State.faults (s : State) (t : Tid) (code : Nat) : State := s.setFault t.panel t.index code (s.at t).pc

/-- A word of a scratch bank that is on: nothing is being journaled, replayed or adopted, no error stands in it, and no
port has written it in this tick (R221). -/
def PlainWord (s : State) (t : Tid) (a : Nat) : Prop :=
  s.panelSpot t.panel a = .mem t.panel a .bank ∧ s.bad t.panel a = false
    ∧ s.errorsIn 0 0 [memKey t.panel a] = []
    ∧ (∀ x ∈ s.bankWrites, (x.1, x.2.2) ≠ (t.panel.val, a))
    ∧ s.journaled t.panel t.index = false ∧ (s.at t).adopted = none

/-- No error strikes an array, and no other port writes the word. -/
def clearEnv : MemEnv := ⟨[], none, none⟩

/-- An access that passes the checks of R181 and R187, outside device space. -/
def Allowed (a bytes : Nat) : Prop :=
  a + bytes ≤ 2 ^ 48 ∧ deviceSpace a = false ∧ deviceSpace (a + bytes - 1) = false ∧ ¬ (a < 0x200000 ∧ 0x1C0000 < a + bytes)

/-- A byte of a panel's memory. -/
def State.byteAt (s : State) (p a : Nat) : Nat := (payload (s.word p (a / 8 * 8))).toNat / 2 ^ (8 * (a % 8)) % 256

/-- The state with its register store replaced. -/
def State.withRegs (s : State) (r : Store Word) : State := { s with regs := r }

/-- A register of a store of registers. -/
def regOf (r : Store Word) (pk off : Nat) : Word := Store.read (defaultWord pk off) r (regKey pk off)

/-- A write that acts at a register `off` of a page, when it is accepted: the command completes in `t`, but for the
response that its writer gets (R12). -/
def Accepts (c : Instr) (s : State) (ag : Agent) (pk off : Nat) (t : State) : Prop :=
  s.verdict ag pk off = .accept → exec c s = .next (t.respond ag (pageAddr pk off) false)

/-- A clear, when it is accepted: the command completes; the listed bits of the page's registers are 0, and every other
register, field and unit stands. -/
def Clears (c : Instr) (s : State) (ag : Agent) (pk off : Nat) (zeroed : List (Nat × Word)) : Prop :=
  s.verdict ag pk off = .accept → ∃ r : Store Word,
    exec c s = .next ((s.withRegs r).respond ag (pageAddr pk off) false)
    ∧ ∀ k o, o < 4096 →
      regOf r k o = if k = pk then s.reg k o &&& ~~~((zeroed.lookup o).getD 0) else s.reg k o

/-- A write that its page does not accept: dropped, the writer has the response of a write that arrived; refused, it
has an error, and Easel where the lifecycle state does not permit its access has a refusal with its event (R12, R362).
Nothing else happens. -/
def Declines (c : Instr) (s : State) (ag : Agent) (pk off : Nat) : Prop :=
  (s.verdict ag pk off = .drop → exec c s = .next (s.respond ag (pageAddr pk off) false))
  ∧ (s.verdict ag pk off = .refuse → exec c s = .next (
      if ag = .easel ∧ s.easelMay pk off = false then s.refusePort else s.respond ag (pageAddr pk off) true))

/-- The instruction takes these entries of the operand stack, top first, leaves others in their place, sets these
`THR_FLAGS` bits and goes on: for every thread that may run it with `when` true of it. The entries fit the 16 that are
renamed, so that nothing is spilled or filled (R151). -/
def Replaces (c : Tid → Instr) (len : Nat) (takes leaves : List Slot) (fl : Nat) (when : Thread → Prop) : Prop :=
  ∀ (s u : State) (t : Tid) (rest : List Slot), Ready s t len u → when (u.at t) →
    (u.at t).stack = takes ++ rest → takes.length + rest.length ≤ 16 → leaves.length + rest.length ≤ 16 →
    exec (c t) s = .next (u.goOn t len (leaves ++ rest) fl)

/-- The same for words that have arrived. -/
def Computes (c : Tid → Instr) (len : Nat) (takes leaves : List TWord) (fl : Nat) (when : Thread → Prop) : Prop :=
  Replaces c len (takes.map Slot.word) (leaves.map Slot.word) fl when

/-- Every thread. -/
def anyThread : Thread → Prop := fun _ => True

/-- The instruction faults on these words, and changes nothing (R187). -/
def FaultsOn (c : Tid → Instr) (len : Nat) (takes : List TWord) (code : Nat) (when : Thread → Prop) : Prop :=
  ∀ (s u : State) (t : Tid) (rest : List Slot), Ready s t len u → when (u.at t) → Operands u t takes rest →
    exec (c t) s = .next (u.faults t code)

/-- A thread whose instructions neither journal, nor replay, nor trace (R299, R312, R369). -/
def Plain (s : State) (t : Tid) : Prop :=
  s.journaled t.panel t.index = false ∧ (s.at t).adopted = none ∧ s.tracing t.panel t.index = false

/-- The thread has retired an instruction: it goes on at an address with these entries on its operand stack. Its other
registers are as `th` says; of the other threads only a wait to fetch can have ended (R186), and besides the threads
only the predictors of the cores and the model's count of free values differ (R157). -/
def Goes (s u : State) (t : Tid) (pc : Nat) (stack : List Slot) (th : Thread → Thread) : Prop :=
  (∃ (h : BitVec 12) (r : List Nat) (g : Option (Nat × Nat)) (i m : Word),
    u.at t = th { s.at t with
      history := h
      returns := r
      group := g
      specIssue := i
      mispredict := m
      pc := pc
      stack := stack
      retired := (s.at t).retired + 1
      park := none
      arrived := []
      entryLine := none
      yielded := [] })
  ∧ (∀ p i : Nat, p < 8 → i < 16 → (p, i) ≠ (t.panel.val, t.index.val) →
      { u.thread p i with yielded := [] } = { s.thread p i with yielded := [] })
  ∧ (∀ p c : Nat, p < 8 → c < 4 →
      { u.core p c with
        btb := []
        targets := [] } = { s.core p c with
        btb := []
        targets := [] })
  ∧ u = { s with threads := u.threads, counters := u.counters, cores := u.cores, free := u.free }

/-- `n` bytes of a panel's memory as a little-endian number (R169, R180). -/
def State.bytesAt (s : State) (p a n : Nat) : Nat := ((List.range n).map (fun i => s.byteAt p (a + i) * 256 ^ i)).sum

/-- An element of a long instruction is committed: the operands show it, and it counts as retired (R168, R192). -/
def State.progress (s : State) (t : Tid) (stack : List Slot) : State :=
  s.setThread t.panel t.index { s.at t with stack := stack, retired := (s.at t).retired + 1, arrived := [] }

/-- Nothing but memory and the list of this tick's writes to the banks differs, and of memory no word but those of the
listed addresses of a panel. -/
def OnlyWords (s u : State) (p : Nat) (addrs : List Nat) : Prop :=
  u = { s with
    mem := u.mem
    badWords := u.badWords
    poisoned := u.poisoned
    flips := u.flips
    bankWrites := u.bankWrites }
  ∧ ∀ q b : Nat, memKey q b ∉ addrs.map (memKey p) → u.word q b = s.word q b

/-- A transfer of the timed class has come to a panel's fabric port, ready at `first`, and leaves at `leaves` (R20): no
earlier, at once where a reserved flit is free, and at the latest in the next one. Nothing but the port, its count of
flits and the model's count of free values differs. Assumption 62. -/
def LeavesPort (s u : State) (p first leaves : Nat) : Prop :=
  u = { s with
    panels := u.panels
    regs := u.regs
    free := u.free }
  ∧ first ≤ leaves ∧ (s.panel p).flitNext ≤ leaves
  ∧ leaves ≤ max (max first (s.panel p).flitNext) (s.panel p).flitFrom
  ∧ (∀ q : Nat, q < 8 → { u.panel q with
      flitFrom := 0
      flitNext := 0
      flits := [] } = { s.panel q with
      flitFrom := 0
      flitNext := 0
      flits := [] })
  ∧ ∀ q o : Nat, o < 4096 → (q, o) ≠ (fabPage p, 0x110) → u.reg q o = s.reg q o

/-- An event of a page has occurred and not been cleared (R377). -/
def Raised (u : State) (pk b : Nat) : Prop := (u.reg pk 0x020).getLsbD b = true

/-- The command completes, and nothing happens: its condition does not hold. -/
def Idles (c : Instr) (s : State) : Prop := exec c s = .next s

/-- The command completes in a state of which this holds. -/
def Gives (c : Instr) (s : State) (post : State → Prop) : Prop := ∃ u, exec c s = .next u ∧ post u

/-- A write that acts at a register of a page, when it is accepted: it completes, but for the response to its writer, in
a state of which this holds. -/
def AcceptsTo (c : Instr) (s : State) (ag : Agent) (pk off : Nat) (post : State → Prop) : Prop :=
  s.verdict ag pk off = .accept → ∃ u, exec c s = .next (u.respond ag (pageAddr pk off) false) ∧ post u

/-- The one of the two that a rule chooses. -/
def oneIf (b : Prop) [Decidable b] : Nat := if b then 1 else 0

end Sys2Proof.Machine
end

