-- ==== Sys2Proof/Certificates/Slice0/Obligations.lean ====
section
/-! DEFINITION. What is claimed of the block, one proposition for each claim. An assumption named in a docstring is the
model's own choice (notes/assumptions); a rule R<n> is the spec's. -/

open Sys2Proof Sys2Proof.Machine

/-! ### The machine as a whole -/

/-- What a step is: the command at the front of the queue, or a canvas tick when none waits (assumption 3). -/
def Obligations.StepRunsTheFrontCommand : Prop :=
  (∀ (c : Instr) (rest : List Instr) (s : State),
    step { s with pending := c :: rest } = exec c { s with pending := rest })
  ∧ ∀ s : State, s.pending = [] → step s = .next s.tick

/-- The state right after reset: tick 0 of `PRIME` (R25, R331). Every slice is in `PRIME`, every thread is stopped,
privileged, with its predictor and its stacks at 0 (assumptions 5 and 6), no latch is set, and nothing waits. -/
def Obligations.ResetBeginsPrime : Prop :=
  State.reset.boot = .priming ∧ State.reset.ticks = 0 ∧ State.reset.canvas = 0
  ∧ State.reset.pending = [] ∧ State.reset.flight = [] ∧ State.reset.twq = []
  ∧ (∀ sl, sl < 8 → State.reset.mode sl = PRIME)
  ∧ (∀ p t, State.reset.thread p t = {} ∧ (State.reset.thread p t).run = .stopped
      ∧ (State.reset.thread p t).status = 0x100)
  ∧ (∀ sec p, State.reset.latched sec p = false)
  ∧ (∀ p a, State.reset.word p a = voidWord)
  ∧ (∀ pk off, State.reset.reg pk off = defaultWord pk off)
  ∧ State.reset.legal ∧ Store.wf (fun _ => voidWord) State.reset.mem = true

/-- Every step keeps the fuses legal and moves them forward only: no lifecycle state returns, and the rollback floor
never falls (R354, R355). The variant never changes, and a step consumes the front of the queue. -/
def Obligations.FusesOnlyGoForward : Prop :=
  ∀ s t : State, s.legal → step s = .next t →
    t.legal ∧ s.fuses.reaches t.fuses ∧ t.variant = s.variant ∧ t.pending = s.pending.tail

/-- Memory keeps its canonical form in every step: its keys rise, and no listed word is the empty one. Assumption 14. -/
def Obligations.MemoryStaysCanonical : Prop :=
  ∀ s t : State, Store.wf (fun _ => voidWord) s.mem = true → step s = .next t →
    Store.wf (fun _ => voidWord) t.mem = true

/-- A step with no command waiting is a canvas tick. When time does not stand, what the tick still owes is done first;
then canvas time counts on by one, beyond 2^62 - 1 too, which is the model's choice (assumption 89), or takes the time that
a step has ordered (R25, R35), and from then on an RO field shows what the registers hold at that point (R8).
Assumptions 3, 84, 89. -/
def Obligations.TickAdvancesCanvasTime : Prop :=
  ∀ s : State, s.pending = [] →
    (s.timeStands = true → step s = .next s)
    ∧ (s.timeStands = false → s.oweTick.timeStands = false →
      ∃ t : State, step s = .next t ∧ t.ticks = s.oweTick.ticks + 1 ∧ t.canvasNext = none
        ∧ t.shown.regs = t.regs ∧ t.setNow = [] ∧ t.rwcNow = []
        ∧ t.canvas = match s.oweTick.canvasNext with
          | none => s.oweTick.canvas + 1
          | some c => c)

/-- `CANV_STEP` (R35): at the tick at which it takes effect canvas time reads as it did; at the next tick it reads 1 +
`DELTA` more, and then counts on, as long as nothing else that the ticks owe moves it. A step beyond the range is
refused with event 5. From 2^62 - 1 it counts on to 2^62, which is the model's choice (assumption 89). Assumptions 3,
21, 89. -/
def Obligations.CanvasStepMovesTheNextTick : Prop :=
  ∀ (s : State) (delta : Word),
    let r : Int := (s.canvas : Int) + 1 + delta.toInt
    (0 ≤ r ∧ r ≤ 2 ^ 62 - 1 →
      ∃ t : State, exec (.canvStep delta) s = .next t ∧ t.canvas = s.canvas
        ∧ (s.pending = [] → Quiet t →
          ∃ u : State, step t = .next u ∧ (u.canvas : Int) = r
            ∧ (Quiet u → ∃ v : State, step u = .next v ∧ (v.canvas : Int) = r + 1)))
    ∧ (¬ (0 ≤ r ∧ r ≤ 2 ^ 62 - 1) →
      ∃ t : State, exec (.canvStep delta) s = .next t ∧ t.canvas = s.canvas ∧ t.canvasNext = s.canvasNext
        ∧ (t.reg canvPage 0x020).getLsbD 5 = true)

/-- RWT fields lie on no panel page, and `DUE` reads as zero there, whoever reads it (R39). -/
def Obligations.PanelPagesHaveNoTimedWrites : Prop :=
  ∀ pk, isPanelPage pk = true →
    (∀ off, timedReg pk off = false) ∧ ∀ (s : State) (ag : Agent), (s.readReg ag pk 0x040).1 = 0

/-! ### Registers, timed writes, events -/

/-- A write that its page accepts acts at once, field by field as the access codes say (R6, R7, R8, R403), for every
register that only holds what is written to it, where the value is no host error: no other register and no other state
changes, but the count of writes and the list of the RWC fields that this tick has changed. A write of `LOCK` that comes
after RWC writes of its tick is no part of it (R378). Its writer has an error response only if the lock drops a field. -/
def WritesFollowAccessCodes : Prop :=
  ∀ (s : State) (ag : Agent) (page : Page) (n : Fin 512) (data : Word),
    let pk := pageKey page
    let off := 8 * n.val
    plainRegister pk off = true → s.verdict ag pk off = .accept →
    (s.setReg pk off (s.arriveWord (s.secure ag) pk off data)).illegal pk off = false →
    (off = 0x048 → ∀ x ∈ s.rwcNow, x.page ≠ pk) →
      ∃ t : State, exec (.registerWrite ag page n data) s
          = .next (t.respond ag (pageAddr pk off) (s.lockDrops pk off data))
        ∧ t = { s with seq := s.seq + 1, regs := t.regs, rwcNow := t.rwcNow }
        ∧ (∀ f ∈ fieldsAt pk off, t.fld pk f.fld = s.fieldAfter ag pk data f)
        ∧ ∀ q o : Nat, o < 4096 → (q, o) ≠ (pk, off) → t.reg q o = s.reg q o

/-- A write of an RW register that comes out of a crossing acts at once (R6, R17): `TMR_RELOAD` and `TMR_CMP`. The field
takes the value, every other register and all memory stand, and the writer has its answer: one that its sender makes ready
crosses the port of its panel only now (R20). -/
def ReadyWritesActAtOnce : Prop :=
  ∀ (s : State) (i : Nat) (x : Transfer) (p : Slice) (n : Fin 16) (f : Fld),
    f = TMR_RELOAD.VALUE ∨ f = TMR_CMP.VALUE → s.flight[i]? = some x → x.sent ≤ s.ticks →
    x.page = tmrPage p n → x.off = f.off → x.due = none → x.addr ≠ 0 →
    s.verdict x.agent (tmrPage p n) f.off = .accept →
      exec (.transferReady i) s
        = .next (
          let u := ({ s with flight := s.flight.eraseIdx i }).setFld (tmrPage p n) f (x.data.toNat % 2 ^ 32)
          if x.ported then u.answer x.agent x.addr false else u.respond x.agent x.addr false)

/-- A host error stays in its block (R3, R4; assumption 8). What it changes: the registers of its page, the state of the
unit behind it, the list of pages in that state and the count of free values: every unit of another page stands, in each of
the eight kinds of units. At every later tick that page's block alone does so again. Of a trip network, whose every latch
stands, only the records of causes and counts change. A write of `MADC_SCHED.LEN` above 16 completes with it. -/
def HostErrorsStayInTheirBlock : Prop :=
  ∀ (s : State) (pk : Nat),
    (∃ u, s.err pk = u
      ∧ u = { s with regs := u.regs, convs := u.convs, monitors := u.monitors, cmps := u.cmps, sweeps := u.sweeps,
                     pairs := u.pairs, slots := u.slots, stencils := u.stencils, timers := u.timers, upset := u.upset,
                     free := u.free }
      ∧ (∀ q o : Nat, o < 4096 → q ≠ pk → u.reg q o = s.reg q o)
      ∧ ∀ sec : Nat, sec < 8 →
        (pk ≠ madcPage sec → u.monitor sec = s.monitor sec) ∧ (pk ≠ sweepPage sec → u.sweep sec = s.sweep sec)
        ∧ (∀ i : Nat, i < 16 → (pk ≠ pwmpPage sec i → u.pair sec i = s.pair sec i)
          ∧ (pk ≠ fadcPage sec i → u.conv sec i = s.conv sec i) ∧ (pk ≠ loopPage sec i → u.slot sec i = s.slot sec i)
          ∧ (pk ≠ tmrPage sec i → u.timer sec i = s.timer sec i))
        ∧ (∀ i : Nat, i < 32 → pk ≠ wcmpPage sec i → u.cmp sec i = s.cmp sec i)
        ∧ ∀ i : Nat, i < 8 → pk ≠ stenPage sec i → u.stencil sec i = s.stencil sec i)
    ∧ (∀ (sl : Slice) (o : Nat), o < 4096 → o < 0x230 ∨ (o % 64 ≠ 0x30 ∧ o % 64 ≠ 0x38) →
        (s.err (tripPage sl)).reg (tripPage sl) o = s.reg (tripPage sl) o)
    ∧ (∀ q o : Nat, o < 4096 → q ∉ s.upset → s.tickUpset.reg q o = s.reg q o)
    ∧ s.tickUpset.trips = s.trips ∧ s.tickUpset.mem = s.mem ∧ s.tickUpset.threads = s.threads
    ∧ ∀ (ag : Agent) (sl : Slice) (data : Word), 16 < bits data MADC_SCHED.LEN.hi MADC_SCHED.LEN.lo →
        s.verdict ag (madcPage sl) 0x100 = .accept →
          ∃ t : State, exec (.registerWrite ag (.sector sl 48) 0x20 data) s
              = .next (t.respond ag (pageAddr (madcPage sl) 0x100) false)
            ∧ madcPage sl ∈ t.upset ∧ (∀ q : Nat, q ∈ t.upset → q = madcPage sl ∨ q ∈ s.upset)
            ∧ t.mem = s.mem ∧ t.trips = s.trips ∧ t.pairs = s.pairs ∧ t.threads = s.threads
            ∧ ∀ q o : Nat, o < 4096 → q ≠ madcPage sl → t.reg q o = s.reg q o

/-- The path of a timed write of `LOOP_REF` (R42 to R45): without a due time it waits for the update point; with one it
takes an entry of the queue, is refused by a full queue, or is late. In `PRIME` the queue does not run, and a write with a
due time does nothing (assumption 85). In each case the register keeps its value. -/
def TimedWritesWaitForTheirTick : Prop :=
  ∀ (s : State) (i : Nat) (x : Transfer) (sec : Slice) (n : Fin 16),
    s.flight[i]? = some x → x.sent ≤ s.ticks → x.page = loopPage sec n → x.off = 0x110 → x.addr ≠ 0 →
    s.verdict x.agent (loopPage sec n) 0x110 = .accept →
      let e (d : Nat) : Queued := ⟨loopPage sec n, 0x110, x.data, x.origin, x.seq, d, false⟩
      ∃ t : State, exec (.transferReady i) s = .next t ∧ t.reg (loopPage sec n) 0x110 = s.reg (loopPage sec n) 0x110
        ∧ (x.due = none → x.untimed = true → t.waiting = s.waiting ++ [e 0] ∧ t.twq = s.twq)
        ∧ (s.mode sec = PRIME → x.due.isSome = true → t.twq = s.twq ∧ t.waiting = s.waiting)
        ∧ (∀ d, x.due = some d → s.mode sec ≠ PRIME → s.canvas ≤ d →
          (s.occupancy sec < 256 → t.twq = s.twq ++ [e d] ∧ t.waiting = s.waiting)
          ∧ (256 ≤ s.occupancy sec → t.twq = s.twq ∧ t.waiting = s.waiting
              ∧ (t.reg (twqPage sec) 0x020).getLsbD 2 = true))
        ∧ (∀ d, x.due = some d → s.mode sec ≠ PRIME → d < s.canvas → t.twq = s.twq
          ∧ t.waiting = (if s.flag (loopPage sec n) HEAD.LATE_APPLY then s.waiting ++ [e d] else s.waiting)
          ∧ (t.reg (twqPage sec) 0x020).getLsbD (if s.flag (loopPage sec n) HEAD.LATE_APPLY then 1 else 0) = true)

/-- Two writes of `LOOP_REF` that take effect at one tick are taken in increasing order of origin (R38), whatever order
they were queued in: the one of the larger origin stands. Nothing else changes but the queue. -/
def LargerOriginStands : Prop :=
  ∀ (s : State) (sec : Slice) (n : Fin 16) (a b : Queued),
    s.present sec = true →
    a.page = loopPage sec n → b.page = loopPage sec n → a.off = 0x110 → b.off = 0x110 →
    a.origin < b.origin →
    (∀ l : List Queued, s.mode sec ≠ PRIME → l = [a, b] ∨ l = [b, a] → s.twq = l → a.due = s.canvas →
      b.due = s.canvas → a.done = false → b.done = false →
      exec (.timedWriteDue (sec.castLE (by omega))) s
        = .next (({ s with twq := l.map (fun e : Queued => ({ e with done := true } : Queued)) }).setFld
            (loopPage sec n) LOOP_REF.VALUE
            (b.data.toNat % 2 ^ 16)))
    ∧ ∀ l : List Queued, l = [a, b] ∨ l = [b, a] → s.waiting = l → s.flag (loopPage sec n) LOOP_CFG.EN = false →
      exec (.updatePointApply (.sector sec ⟨128 + n.val, by omega⟩)) s
        = .next (({ s with waiting := [] }).setFld (loopPage sec n) LOOP_REF.VALUE (b.data.toNat % 2 ^ 16))

/-- An event that occurs sets its `EVENT` bit and no other register field (R377): for every page and bit that has a
source. Memory and threads' registers stand; a thread can leave `WFE`. -/
def EventsSetTheirBit : Prop :=
  ∀ (s : State) (ag : Agent) (page : Page) (b : Fin 64),
    s.verdict ag (pageKey page) 0x030 = .accept → (sourceOf (pageKey page) b).isSome = true →
      ∃ t : State, exec (.eventSet ag page (1#64 <<< b.val)) s = .next (t.respond ag (pageAddr (pageKey page) 0x030) false)
        ∧ t = s.raise (pageKey page) b
        ∧ t.reg (pageKey page) 0x020 = s.reg (pageKey page) 0x020 ||| (1#64 <<< b.val)
        ∧ t.mem = s.mem ∧ t.badWords = s.badWords
        ∧ (∀ pk off, off < 4096 → (pk, off) ≠ (pageKey page, 0x020) → t.reg pk off = s.reg pk off)
        ∧ ∀ p i, { t.thread p i with park := none } = { s.thread p i with park := none }

/-- `LOCK.CFG` is set by a write and nothing else changes (R377); from then on the lock drops a write of an RWC field
that would change it, with an error response (R378). A write of such a field of the same tick that came before it is dropped
all the same: the field holds again what it held. -/
def LockDropsConfiguration : Prop :=
  ∀ (s : State) (ag : Agent) (page : Page), s.verdict ag (pageKey page) 0x048 = .accept →
    ((∀ x ∈ s.rwcNow, x.page ≠ pageKey page) → exec (.lockCfg ag page) s
      = .next ((s.setFld (pageKey page) HEAD.LOCK 1).respond ag (pageAddr (pageKey page) 0x048) false))
    ∧ (∀ x : RwcWrite, s.rwcNow = [x] → x.page = pageKey page → x.off = 0x010 → isPanelPage (pageKey page) = false →
        s.flag (pageKey page) HEAD.LOCK = false →
        ∃ t : State, exec (.lockCfg ag page) s = .next (t.respond ag (pageAddr (pageKey page) 0x048) false)
          ∧ t.flag (pageKey page) HEAD.LOCK = true
          ∧ t.flag (pageKey page) HEAD.LATE_APPLY = x.before.getLsbD 63)
    ∧ ∀ data : Word, 2 ^ 63 ≤ data.toNat →
        s.flag (pageKey page) HEAD.LATE_APPLY = false → isPanelPage (pageKey page) = false →
        (s.setFld (pageKey page) HEAD.LOCK 1).lockDrops (pageKey page) 0x010 data = true

/-- An armed alarm whose time has come fires at a tick after the one at which it was armed (R29): it is disarmed, and
its event occurs. Before its time, disarmed, or in the tick at which it was armed, nothing happens. -/
def AlarmFires : Prop :=
  ∀ (s : State) (i : Fin 4),
    let en := CANV_ALARM.EN.at (8 * i.val)
    let due := s.fld canvPage (CANV_ALARM.TICK.at (8 * i.val))
    (s.flag canvPage en = true → due ≤ s.canvas → Store.read 0 s.alarms i < s.ticks →
      exec (.canvAlarmFire i) s = .next ((s.setFld canvPage en 0).raise canvPage (10 + i.val)))
    ∧ (s.canvas < due ∨ s.flag canvPage en = false ∨ s.ticks ≤ Store.read 0 s.alarms i → exec (.canvAlarmFire i) s = .next s)

/-- Holdover (R34): the loss of the source sets `HOLDOVER` with event 7 and keeps `FREQ_ADJ`; a PTP port that was the
source is then no longer synchronised (R298); the return clears it. A
bad frame is counted with event 9, and the second in a row loses the source (R33, R34). A good frame gives a measurement
of the offset in steps of 12.5 ps and ends the run of bad ones; what the discipline then slews to lies within the limit,
and takes time back where canvas time is ahead, forward where it is behind (R30). `FREQ_ADJ` moves by one step of 0.002
ppm, and not again within 25000 ticks. Assumption 22. -/
def Obligations.DisciplineFollowsItsSource : Prop :=
  ∀ s : State,
    (s.adjGoal.natAbs ≤ 25000 →
      ((s.tickDiscipline).sfld canvPage CANV_DISC_STATUS.FREQ_ADJ - s.sfld canvPage CANV_DISC_STATUS.FREQ_ADJ).natAbs ≤ 1
      ∧ (s.ticks < s.lastAdj + 25000 → s.tickDiscipline = s))
    ∧ (s.fld canvPage CANV_DISC.SOURCE ≠ 0 → s.flag canvPage CANV_DISC_STATUS.HOLDOVER = false →
      exec .syncSourceLost s = .next (
        let u := (s.setFld canvPage CANV_DISC_STATUS.HOLDOVER 1).raise canvPage 7
        if s.fld canvPage CANV_DISC.SOURCE = 2 then
          u.setPtpSync (s.fld canvPage CANV_DISC.PTP_PANEL) (s.fld canvPage CANV_DISC.PTP_PORT) false
        else u))
    ∧ (s.flag canvPage CANV_DISC_STATUS.HOLDOVER = true →
      exec .syncSourceReturn s
        = .next ((({ s with syncBad := 0 }).setFld canvPage CANV_DISC_STATUS.HOLDOVER 0).raise canvPage 7))
    ∧ ∀ (frame : BitVec 128) (sub : Fin 64), s.fld canvPage CANV_DISC.SOURCE = 1 →
      let bad := frame.extractLsb' 112 16 ≠ 0xE5A3#16 ∨ frame.extractLsb' 0 16 ≠ syncCheck frame
      (bad → s.syncBad = 0 →
        exec (.syncFrameReceived frame sub) s = .next (({ s with syncBad := 1 }).raise canvPage 9))
      ∧ (bad → 1 ≤ s.syncBad → s.flag canvPage CANV_DISC_STATUS.HOLDOVER = false →
        ∃ t : State, exec (.syncFrameReceived frame sub) s = .next t ∧ t.flag canvPage CANV_DISC_STATUS.HOLDOVER = true
          ∧ t.fld canvPage CANV_DISC_STATUS.FREQ_ADJ = s.fld canvPage CANV_DISC_STATUS.FREQ_ADJ)
      ∧ (¬ bad → s.flag canvPage CANV_DISC_STATUS.HOLDOVER = false →
        ∃ t : State, exec (.syncFrameReceived frame sub) s = .next t ∧ t.syncBad = 0 ∧ t.canvas = s.canvas
          ∧ t.fld canvPage CANV_DISC_STATUS.FREQ_ADJ = s.fld canvPage CANV_DISC_STATUS.FREQ_ADJ
          ∧ t.adjGoal.natAbs ≤ 5000 * s.fld canvPage CANV_DISC.SLEW_LIMIT
          ∧ (let limit : Int := 5000 * s.fld canvPage CANV_DISC.SLEW_LIMIT
             let now := clampInt (s.sfld canvPage CANV_DISC_STATUS.FREQ_ADJ) (-limit) limit
             let o := t.sfld canvPage CANV_DISC_STATUS.OFFSET
             (0 < o → t.adjGoal ≤ now) ∧ (o < 0 → now ≤ t.adjGoal) ∧ (64000 < o → t.adjGoal = -limit)
               ∧ (o < -64000 → t.adjGoal = limit))
          ∧ t.sfld canvPage CANV_DISC_STATUS.OFFSET
              = clampInt ((s.canvas * 64 + sub.val : Nat) - ((frame.extractLsb' 48 64).toNat * 64
                  + s.fld canvPage CANV_SYNC_DELAY.DELAY : Nat)) (-2 ^ 31) (2 ^ 31 - 1))

/-- Events set their bits (R377), and an armed alarm fires at its time (R29). -/
def Obligations.EventsAndAlarms : Prop := EventsSetTheirBit ∧ AlarmFires

/-- Writes act at once as the access codes say (R6, R403), at their page or out of a crossing; a lock drops the writes it
covers (R377, R378); and what a host error makes unpredictable is its own block alone (R3, R4). Assumption 8. -/
def Obligations.WritesActOrAreDropped : Prop :=
  WritesFollowAccessCodes ∧ ReadyWritesActAtOnce ∧ LockDropsConfiguration ∧ HostErrorsStayInTheirBlock

/-- Timed writes wait for their tick (R42 to R45), and of two of one tick the larger origin stands (R38). Assumptions 4,
70. -/
def Obligations.TimedWritesFollowTheirTick : Prop := TimedWritesWaitForTheirTick ∧ LargerOriginStands


/-! ### Commands that a page register takes -/

/-- The clears of counts (R48, R68, R98, R121, R143, R146, R213, R231, R247, R256, R257, R293, R296, R321, R345, R381,
R404): each clears what its row names, and nothing else. -/
def ClearsOfPages : Prop :=
  ∀ (s : State) (ag : Agent) (sl : Slice),
    let all : Word := BitVec.allOnes 64
    let low : Word := 0xFFFFFFFF
    (∀ q : Fin 9, Clears (.twqClr ag q) s ag (queuePage q) 0x010
      [(0x100 + queueShift q, 0x1FF0000), (0x108 + queueShift q, low), (0x110 + queueShift q, low),
        (0x118 + queueShift q, low)])
    ∧ (∀ c : Fin 16, Clears (.fadcRingDroppedClr ag sl c) s ag (fadcPage sl c) 0x170 [(0x170, low)])
    ∧ (∀ p : Fin 16, Clears (.pwmpClrCounts ag sl p) s ag (pwmpPage sl p) 0x148 [(0x160, all)])
    ∧ Clears (.voteClr ag sl) s ag (tripPage sl) 0x148 [(0x138, all)]
    ∧ Clears (.countClr ag sl) s ag (tripPage sl) 0x148 ((List.range 16).map (fun p => (0x238 + 0x40 * p, all)))
    ∧ (∀ n : Fin 16, Clears (.loopClrCounts ag sl n) s ag (loopPage sl n) 0x190 [(0x1A0, all), (0x1A8, all), (0x1B0, all)])
    ∧ (∀ g : Fin 4, Clears (.lengClr ag sl g) s ag (lengPage sl g) 0x120 [(0x108, all), (0x110, all), (0x118, all)])
    ∧ Clears (.evcClr ag sl) s ag (evcPage sl 0) 0x220 [(0x210, low), (0x218, low)]
    ∧ Clears (.scrClr ag sl) s ag (scrPage sl) 0x148 [(0x110, all), (0x118, all), (0x128, low <<< 32)]
    ∧ Clears (.ddrcClrDev ag sl) s ag (ddrcPage sl) 0x1A0 ((List.range 10).map (fun i => (0x150 + 8 * i, all)))
    ∧ Clears (.ddrcClrCounts ag sl) s ag (ddrcPage sl) 0x1A0 [(0x138, all)]
    ∧ Clears (.dmaAllocRefusedClr ag sl) s ag (dmaPage sl 32) 0x118 [(0x118, low)]
    ∧ (∀ c : Fin 32, Clears (.dmaCollClr ag sl c) s ag (dmaPage sl c) 0x138 [(0x138, low)])
    ∧ Clears (.intnClr ag sl) s ag (intnPage sl) 0x118 ((0x108, all) :: (List.range 64).flatMap (fun i =>
        [(0xC00 + 16 * i, 0xFF000000), (0xC08 + 16 * i, low <<< 32)]))
    ∧ (∀ n : Fin 2, Clears (.ethClr ag sl n) s ag (ethPage sl n) 0x1D0
        ([0x168, 0x170, 0x178, 0x180, 0x188, 0x1D8].map (fun o => (o, all))))
    ∧ Clears (.fabClr ag sl) s ag (fabPage sl) 0x120 [(0x100, all), (0x110, all), (0x118, all)]
    ∧ Clears (.jrnlClr ag sl) s ag (jrnlPage sl) 0x150 [(0x140, all)]
    ∧ Clears (.upntDipClr ag) s ag upntPage 0x100 [(0x108, 0x300)]

/-- Ownership (R12, R24): a write that its page turns away changes nothing but what its writer learns, for every row
that acts at a page register; one of Easel's that the lifecycle state does not permit is refused with its event (R362).
Assumption 20. -/
def Obligations.TurnedAwayWritesChangeNothing : Prop :=
  ∀ (s : State) (ag : Agent) (sl : Slice),
    (∀ q : Fin 9, Declines (.twqClr ag q) s ag (queuePage q) 0x010)
    ∧ (∀ (page : Page) (m : Word), Declines (.eventSet ag page m) s ag (pageKey page) 0x030)
    ∧ (∀ page : Page, Declines (.lockCfg ag page) s ag (pageKey page) 0x048)
    ∧ (∀ c : Fin 16, Declines (.fadcCalStart ag sl c) s ag (fadcPage sl c) 0x118)
    ∧ (∀ c : Fin 16, Declines (.fadcRingDroppedClr ag sl c) s ag (fadcPage sl c) 0x170)
    ∧ (∀ c : Fin 32, Declines (.wcmpCheckStart ag sl c) s ag (wcmpPage sl c) 0x118)
    ∧ Declines (.sweepStop ag sl) s ag (sweepPage sl) 0x110
    ∧ (∀ p : Fin 16, Declines (.pwmpClrCounts ag sl p) s ag (pwmpPage sl p) 0x148)
    ∧ Declines (.voteClr ag sl) s ag (tripPage sl) 0x148
    ∧ Declines (.countClr ag sl) s ag (tripPage sl) 0x148
    ∧ (∀ n : Fin 16, Declines (.loopClrCounts ag sl n) s ag (loopPage sl n) 0x190)
    ∧ (∀ g : Fin 4, Declines (.lengClr ag sl g) s ag (lengPage sl g) 0x120)
    ∧ Declines (.evcClr ag sl) s ag (evcPage sl 0) 0x220
    ∧ Declines (.scrWipe ag sl) s ag (scrPage sl) 0x148
    ∧ Declines (.scrClr ag sl) s ag (scrPage sl) 0x148
    ∧ Declines (.ddrcClrDev ag sl) s ag (ddrcPage sl) 0x1A0
    ∧ Declines (.ddrcClrCounts ag sl) s ag (ddrcPage sl) 0x1A0
    ∧ (∀ (c : Fin 32) (n : Fin 17), Declines (.dmaPause ag sl c n) s ag (dmaPage sl c) 0x128)
    ∧ (∀ c : Fin 32, Declines (.dmaResume ag sl c) s ag (dmaPage sl c) 0x128)
    ∧ (∀ c : Fin 32, Declines (.dmaFree ag sl c) s ag (dmaPage sl 32) 0x110)
    ∧ Declines (.dmaAllocRefusedClr ag sl) s ag (dmaPage sl 32) 0x118
    ∧ (∀ c : Fin 32, Declines (.dmaCollClr ag sl c) s ag (dmaPage sl c) 0x138)
    ∧ (∀ n : Fin 16, Declines (.tmrStart ag sl n) s ag (tmrPage sl n) 0x130
        ∧ Declines (.tmrStop ag sl n) s ag (tmrPage sl n) 0x130)
    ∧ (∀ m : BitVec 16, Declines (.tmrGstart ag sl m) s ag (tmrPage sl 16) 0x100
        ∧ Declines (.tmrGstop ag sl m) s ag (tmrPage sl 16) 0x108)
    ∧ (∀ e : Fin 8, Declines (.stenClrFifo ag sl e) s ag (stenPage sl e) 0x118)
    ∧ (∀ i : Fin 64, Declines (.quarClear ag sl i) s ag (intnPage sl) (0xC00 + 16 * i.val)
        ∧ ∀ v : Bool, Declines (.partnerValidChange ag sl i v) s ag (intnPage sl) (0x408 + 32 * i.val))
    ∧ Declines (.intnClr ag sl) s ag (intnPage sl) 0x118
    ∧ (∀ n : Fin 2, Declines (.saLoadGo ag sl n) s ag (ethPage sl n) 0x158
        ∧ Declines (.ethClr ag sl n) s ag (ethPage sl n) 0x1D0)
    ∧ Declines (.fabClr ag sl) s ag (fabPage sl) 0x120
    ∧ Declines (.jrnlClr ag sl) s ag (jrnlPage sl) 0x150
    ∧ Declines (.hovrKick ag sl) s ag (hovrPage sl) 0x118
    ∧ Declines (.hovrRelease ag sl) s ag (hovrPage sl) 0x120
    ∧ Declines (.modeWarm ag sl) s ag (modePage sl) 0x100
    ∧ (∀ m : BitVec 16, Declines (.threadResetStop ag sl m) s ag (modePage sl) 0x128
        ∧ Declines (.threadResetStart ag sl m) s ag (modePage sl) 0x128)
    ∧ (∀ code : BitVec 16, Declines (.pkgResetCmd ag code) s ag modePkgPage 0x100)
    ∧ Declines (.upntCommit ag) s ag upntPage 0x100
    ∧ Declines (.upntCommitKeys ag) s ag upntPage 0x100
    ∧ Declines (.upntDipClr ag) s ag upntPage 0x100
    ∧ (∀ (code : BitVec 16) (g : Fin 8), Declines (.lifeTransition ag code g) s ag lifePage 0x168)
    ∧ Declines (.advanceFloor ag) s ag lifePage 0x168
    ∧ Declines (.relock ag) s ag lifePage 0x168
    ∧ (∀ ch : BitVec 384, Declines (.unlockReq ch) s .easel lifePage 0x280)
    ∧ Declines .unlockSubmit s .easel lifePage 0x280
    ∧ (∀ d : Word, Declines (.scrPowerWrite ag sl d) s ag (scrPage sl) 0x100)
    ∧ Declines (.ddrcPprGo ag sl) s ag (ddrcPage sl) 0x148
    ∧ (∀ c : Fin 32, Declines (.dmaStart ag sl c) s ag (dmaPage sl c) 0x128)
    ∧ (∀ n : Fin 2, Declines (.gclChange ag sl n) s ag (ethPage sl n) 0x120)
    ∧ (∀ en : Bool, Declines (.jrnlEnable ag sl en) s ag (jrnlPage sl) 0x100)
    ∧ (∀ (page : Page) (n : Fin 512) (d : Word),
      let pk := pageKey page
      (s.verdict ag pk (8 * n.val) = .drop → exec (.registerWrite ag page n d) s
        = .next ({ s with seq := s.seq + 1 }.respond ag (pageAddr pk (8 * n.val)) false))
      ∧ (s.verdict ag pk (8 * n.val) = .refuse → exec (.registerWrite ag page n d) s
        = .next (let u : State := { s with seq := s.seq + 1 }
          if ag = .easel ∧ s.easelMay pk (8 * n.val) = false then u.refusePort
          else u.respond ag (pageAddr pk (8 * n.val)) true)))
    ∧ ∀ (a b : Nat) (t : Tid), a < 8 → b < 4096 → agentPanel ag ≠ some a → ag ≠ .easel → (∀ p i, ag ≠ .intent p i) →
        s.verdict ag (panelPage a b) 0x100 = .refuse
        ∧ ((s.respond (.thread t) (pageAddr (panelPage a b) 0x100) true).regs = s.regs
          ∧ (s.respond (.thread t) (pageAddr (panelPage a b) 0x100) true).mem = s.mem)


/-! ### Instructions that compute -/

/-- Stack rearrangement (R151, R186): the entries are named anew, words and entries still pending alike. -/
def StackMovesRenameEntries : Prop :=
  Replaces .nop 1 [] [] 0 anyThread
  ∧ (∀ a : Slot, Replaces .dup 1 [a] [a, a] 0 anyThread ∧ Replaces .drop 1 [a] [] 0 anyThread)
  ∧ (∀ a b : Slot, Replaces .swap 1 [b, a] [a, b] 0 anyThread ∧ Replaces .over 1 [b, a] [a, b, a] 0 anyThread)
  ∧ (∀ a b c : Slot, Replaces .rot 1 [c, b, a] [a, c, b] 0 anyThread)
  ∧ (∀ (n : Byte) (above : List Slot) (x : Slot), n.toNat < 16 → above.length = n.toNat →
      Replaces (fun t => .pick t n) 2 (above ++ [x]) (x :: above ++ [x]) 0 anyThread
      ∧ Replaces (fun t => .roll t n) 2 (above ++ [x]) (x :: above) 0 anyThread)
  ∧ (∀ (n : Byte) (l : List Slot), 1 ≤ n.toNat → n.toNat ≤ 16 → l.length = n.toNat →
      Replaces (fun t => .dropn t n) 2 l [] 0 anyThread)
  ∧ ∀ (s u : State) (t : Tid) (n : Byte), Ready s t 2 u →
      (16 ≤ n.toNat → exec (.pick t n) s = .next (u.faults t UD) ∧ exec (.roll t n) s = .next (u.faults t UD))
      ∧ (n.toNat = 0 ∨ 16 < n.toNat → exec (.dropn t n) s = .next (u.faults t UD))
      ∧ ((u.at t).depth ≤ n.toNat → n.toNat < 16 →
          exec (.pick t n) s = .next (u.faults t SB) ∧ exec (.roll t n) s = .next (u.faults t SB))
      ∧ ((u.at t).depth < n.toNat → n.toNat ≤ 16 → exec (.dropn t n) s = .next (u.faults t SB))

/-- Literals and `DEPTH` (R185, R186). -/
def LiteralsPushTheirValue : Prop :=
  (∀ v : BitVec 8, Computes (fun t => .litS t (.i8 v)) 2 [] [tword 0x20 (v.signExtend 64)] 0 anyThread
    ∧ Computes (fun t => .litU t (.i8 v)) 2 [] [tword 0x21 (v.setWidth 64)] 0 anyThread)
  ∧ (∀ v : BitVec 16, Computes (fun t => .litS t (.i16 v)) 3 [] [tword 0x20 (v.signExtend 64)] 0 anyThread
    ∧ Computes (fun t => .litU t (.i16 v)) 3 [] [tword 0x21 (v.setWidth 64)] 0 anyThread)
  ∧ (∀ v : BitVec 32, Computes (fun t => .litS t (.i32 v)) 5 [] [tword 0x20 (v.signExtend 64)] 0 anyThread
    ∧ Computes (fun t => .litU t (.i32 v)) 5 [] [tword 0x21 (v.setWidth 64)] 0 anyThread)
  ∧ (∀ v : Word, Computes (fun t => .litS t (.i64 v)) 9 [] [tword 0x20 v] 0 anyThread
    ∧ Computes (fun t => .litU t (.i64 v)) 9 [] [tword 0x21 v] 0 anyThread
    ∧ Computes (fun t => .litR t v) 9 [] [tword 0 v] 0 anyThread
    ∧ Computes (fun t => .litF t v) 9 [] [tword 0x60 v] 0 anyThread)
  ∧ Computes .litV 1 [] [tword 0xE0 0] 0 anyThread
  ∧ (∀ (d : BitVec 32) (pc : Nat), 0 ≤ (pc : Int) + 5 + d.toInt → (pc : Int) + 5 + d.toInt < 2 ^ 48 →
      Computes (fun t => .litC t d) 5 [] [tword 0xA0 (BitVec.ofInt 64 (pc + 5 + d.toInt))] 0 (fun th => th.pc = pc))
  ∧ ∀ n : Nat, Computes .depth 1 [] [tword 0x21 (BitVec.ofNat 64 n)] 0
      (fun th => (th.osp.toNat - th.osLo.toNat) / 8 + th.stack.length = n)

/-- The value of an `INT` payload by its tag (R169). -/
def intOf (tag : Nat) (x : Word) : Int := if tag = 0x21 then (x.toNat : Int) else x.toInt

/-- The range of an `INT` subfield (R188). -/
def intFits (tag : Nat) (v : Int) : Prop := if tag = 0x21 then 0 ≤ v ∧ v < 2 ^ 64 else -2 ^ 63 ≤ v ∧ v < 2 ^ 63

/-- What an exact result of an `INT` instruction becomes (R188). -/
def Delivers (c : Tid → Instr) (takes : List TWord) (tag : Nat) (v : Int) : Prop :=
  (intFits tag v → Computes c 1 takes [tword tag (BitVec.ofInt 64 v)] 0 anyThread)
  ∧ (¬ intFits tag v →
    FaultsOn c 1 takes OV (fun th => th.status.getLsbD 10 = true)
    ∧ Computes c 1 takes [tword tag (BitVec.ofInt 64 v)] 1 (fun th => th.status.getLsbD 10 = false))

/-- `INT` arithmetic (R188): the exact result, or on overflow the fault or the result modulo 2^64 with `OV`. Shifts
discard the bits shifted out and set no flag. -/
def Obligations.WholeNumbersWrapOrFault : Prop :=
  ∀ (tag : Nat) (x y : Word), tag = 0x20 ∨ tag = 0x21 →
    Delivers .add [tword tag y, tword tag x] tag (intOf tag x + intOf tag y)
    ∧ Delivers .sub [tword tag y, tword tag x] tag (intOf tag x - intOf tag y)
    ∧ Delivers .mul [tword tag y, tword tag x] tag (intOf tag x * intOf tag y)
    ∧ Delivers .neg [tword 0x20 x] 0x20 (-x.toInt)
    ∧ Delivers .abs [tword 0x20 x] 0x20 |x.toInt|
    ∧ FaultsOn .neg 1 [tword 0x21 x] TY anyThread ∧ FaultsOn .abs 1 [tword 0x21 x] TY anyThread
    ∧ Delivers .div [tword 0x20 (-1), tword 0x20 (BitVec.ofInt 64 (-2 ^ 63))] 0x20 (2 ^ 63)
    ∧ (∀ nt : Nat, nt = 0x20 ∨ nt = 0x21 →
      Computes .shl 1 [tword nt y, tword tag x] [tword tag (x <<< (y.toNat % 64))] 0 anyThread
      ∧ Computes .shr 1 [tword nt y, tword tag x] [tword tag (x >>> (y.toNat % 64))] 0 anyThread
      ∧ Computes .sar 1 [tword nt y, tword tag x] [tword tag (x.sshiftRight (y.toNat % 64))] 0 anyThread)
    ∧ ∀ n : Byte, n.toNat < 64 →
      Computes (fun t => .shli t n) 2 [tword tag x] [tword tag (x <<< n.toNat)] 0 anyThread
      ∧ Computes (fun t => .shri t n) 2 [tword tag x] [tword tag (x >>> n.toNat)] 0 anyThread
      ∧ Computes (fun t => .sari t n) 2 [tword tag x] [tword tag (x.sshiftRight n.toNat)] 0 anyThread

/-- What an exact result of a `FIX` instruction becomes (R189). -/
def DeliversFix (c : Tid → Instr) (len : Nat) (takes : List TWord) (tag : Nat) (v : Int) : Prop :=
  (-2 ^ 63 ≤ v ∧ v < 2 ^ 63 → Computes c len takes [tword tag (BitVec.ofInt 64 v)] 0 anyThread)
  ∧ (v < -2 ^ 63 ∨ 2 ^ 63 ≤ v →
    FaultsOn c len takes OV (fun th => th.status.getLsbD 10 = true)
    ∧ Computes c len takes [tword tag (if v < 0 then BitVec.ofInt 64 (-2 ^ 63) else BitVec.ofInt 64 (2 ^ 63 - 1))] 1
        (fun th => th.status.getLsbD 10 = false))

/-- A value without its last `f` fraction bits: to nearest, ties toward plus infinity (R189). -/
def nearest (v : Int) (f : Nat) : Int := if 1 ≤ f then (v + 2 ^ (f - 1)) / 2 ^ f else v

/-- `FIX` arithmetic (R189): exact or rounded results, clamped with `OV` or the fault beyond the range. -/
def FixedPointRoundsAndClamps : Prop :=
  ∀ (f : Nat) (x y : Word), f ≤ 31 →
    let w (v : Word) : TWord := tword (0x40 + f) v
    DeliversFix .add 1 [w y, w x] (0x40 + f) (x.toInt + y.toInt)
    ∧ DeliversFix .sub 1 [w y, w x] (0x40 + f) (x.toInt - y.toInt)
    ∧ DeliversFix .neg 1 [w x] (0x40 + f) (-x.toInt)
    ∧ DeliversFix .abs 1 [w x] (0x40 + f) |x.toInt|
    ∧ DeliversFix .mul 1 [w y, w x] (0x40 + f) (nearest (x.toInt * y.toInt) f)
    ∧ (y ≠ 0 → DeliversFix .div 1 [w y, w x] (0x40 + f) ((x.toInt * 2 ^ f).tdiv y.toInt))
    ∧ ∀ g : Byte, g.toNat < 32 → DeliversFix (fun t => .align t g) 2 [w x] (0x40 + g.toNat)
        (if f < g.toNat then x.toInt * 2 ^ (g.toNat - f) else nearest x.toInt (f - g.toNat))

/-- `SAT` (R190): the payload is clamped, the tag kept, no flag set, and no value faults. -/
def Obligations.SatClampsToWidth : Prop :=
  ∀ (n : Byte) (x : Word), 1 ≤ n.toNat → n.toNat ≤ 64 →
    (∀ tag : Nat, tag = 0x20 ∨ (0x40 ≤ tag ∧ tag ≤ 0x5F) →
      Computes (fun t => .sat t n) 2 [tword tag x]
        [tword tag (BitVec.ofInt 64 (max (-2 ^ (n.toNat - 1)) (min x.toInt (2 ^ (n.toNat - 1) - 1))))] 0 anyThread)
    ∧ Computes (fun t => .sat t n) 2 [tword 0x21 x] [tword 0x21 (BitVec.ofNat 64 (min x.toNat (2 ^ n.toNat - 1)))] 0
        anyThread

/-- `DIV`, `REM` and `MULH` (R186, R191): quotients truncate toward zero, a remainder has the sign of the dividend, and
a zero divisor faults or delivers the values of R191 with `DZ`. -/
def DivisionByZeroIsDefined : Prop :=
  ∀ (x y : Word),
    (∀ tag : Nat, tag = 0x20 ∨ tag = 0x21 →
      Computes .mulh 1 [tword tag y, tword tag x]
        [tword tag (BitVec.ofInt 64 (intOf tag x * intOf tag y / 2 ^ 64))] 0 anyThread
      ∧ (y ≠ 0 → Delivers .div [tword tag y, tword tag x] tag ((intOf tag x).tdiv (intOf tag y))
        ∧ Computes .rem 1 [tword tag y, tword tag x]
            [tword tag (BitVec.ofInt 64 ((intOf tag x).tmod (intOf tag y)))] 0 anyThread)
      ∧ FaultsOn .rem 1 [tword tag 0, tword tag x] DZ (fun th => th.status.getLsbD 9 = true)
      ∧ Computes .rem 1 [tword tag 0, tword tag x] [tword tag x] 2 (fun th => th.status.getLsbD 9 = false))
    ∧ ∀ tag : Nat, tag = 0x20 ∨ tag = 0x21 ∨ (0x40 ≤ tag ∧ tag ≤ 0x5F) →
      FaultsOn .div 1 [tword tag 0, tword tag x] DZ (fun th => th.status.getLsbD 9 = true)
      ∧ Computes .div 1 [tword tag 0, tword tag x]
          [tword tag (if tag = 0x21 then BitVec.allOnes 64
            else if 0 ≤ x.toInt then BitVec.ofInt 64 (2 ^ 63 - 1) else BitVec.ofInt 64 (-2 ^ 63))] 2
          (fun th => th.status.getLsbD 9 = false)

/-- `ADD` and `SUB` on pointers (R178): the permissions stay, and an address that leaves 0 to 2^48 − 1 takes the access
fault; `PTRR` only clears permission bits; `TAGSET` is privileged. Two pointers subtract to a signed `INT`. Assumption
36. -/
def Obligations.PointersKeepTheirBounds : Prop :=
  ∀ (perm tag : Nat) (a d b : Word), perm = 0x80 ∨ perm = 0x88 ∨ perm = 0x90 ∨ perm = 0x98 →
    a.toNat < 2 ^ 48 → b.toNat < 2 ^ 48 → tag = 0x20 ∨ tag = 0x21 →
    let moves (c : Tid → Instr) (r : Int) : Prop :=
      (0 ≤ r ∧ r < 2 ^ 48 → Computes c 1 [tword tag d, tword perm a] [tword perm (BitVec.ofInt 64 r)] 0 anyThread)
      ∧ (r < 0 ∨ 2 ^ 48 ≤ r → FaultsOn c 1 [tword tag d, tword perm a] AC anyThread)
    moves .add (a.toNat + intOf tag d) ∧ moves .sub (a.toNat - intOf tag d)
    ∧ (∀ perm2 : Nat, perm2 = 0x80 ∨ perm2 = 0x88 ∨ perm2 = 0x90 ∨ perm2 = 0x98 →
      Computes .sub 1 [tword perm2 b, tword perm a] [tword 0x20 (BitVec.ofInt 64 ((a.toNat : Int) - b.toNat))] 0
        anyThread)
    ∧ (∀ m : Byte, m = 0 ∨ m = 8 ∨ m = 0x10 ∨ m = 0x18 → ∃ left : Nat,
      Computes (fun t => .ptrr t m) 2 [tword perm a] [tword left a] 0 anyThread
      ∧ left / 32 = 4 ∧ left ≤ perm ∧ ∀ i : Nat, left.testBit i = true ↔ perm.testBit i = true ∧ m.getLsbD i = false)
    ∧ ∀ (g : Byte) (w : TWord), FaultsOn (fun t => .tagset t g) 2 [w] PV (fun th => th.status.getLsbD 8 = false)

/-- Bitwise logic on `INT` or `RAW` of one tag, and shifts of `RAW` (R186). -/
def LogicIsBitwise : Prop :=
  ∀ (tag : Nat) (x y : Word), tag = 0 ∨ tag = 0x20 ∨ tag = 0x21 →
    Computes .and 1 [tword tag y, tword tag x] [tword tag (x &&& y)] 0 anyThread
    ∧ Computes .or 1 [tword tag y, tword tag x] [tword tag (x ||| y)] 0 anyThread
    ∧ Computes .xor 1 [tword tag y, tword tag x] [tword tag (x ^^^ y)] 0 anyThread
    ∧ Computes .not 1 [tword tag x] [tword tag (~~~x)] 0 anyThread
    ∧ (∀ other : Nat, other ≠ tag → other < 0xE0 →
      FaultsOn .and 1 [tword other y, tword tag x] TY anyThread
      ∧ FaultsOn .or 1 [tword other y, tword tag x] TY anyThread
      ∧ FaultsOn .xor 1 [tword other y, tword tag x] TY anyThread)
    ∧ (∀ nt : Nat, nt = 0x20 ∨ nt = 0x21 →
      Computes .shl 1 [tword nt y, tword 0 x] [tword 0 (x <<< (y.toNat % 64))] 0 anyThread
      ∧ Computes .shr 1 [tword nt y, tword 0 x] [tword 0 (x >>> (y.toNat % 64))] 0 anyThread
      ∧ Computes .sar 1 [tword nt y, tword 0 x] [tword 0 (x.sshiftRight (y.toNat % 64))] 0 anyThread)
    ∧ ∀ n : Byte,
      (n.toNat < 64 →
        Computes (fun t => .shli t n) 2 [tword 0 x] [tword 0 (x <<< n.toNat)] 0 anyThread
        ∧ Computes (fun t => .shri t n) 2 [tword 0 x] [tword 0 (x >>> n.toNat)] 0 anyThread
        ∧ Computes (fun t => .sari t n) 2 [tword 0 x] [tword 0 (x.sshiftRight n.toNat)] 0 anyThread)
      ∧ (64 ≤ n.toNat → FaultsOn (fun t => .shli t n) 2 [] UD anyThread ∧ FaultsOn (fun t => .shri t n) 2 [] UD anyThread
        ∧ FaultsOn (fun t => .sari t n) 2 [] UD anyThread)

/-- A truth value (R186). -/
def bool01 (b : Prop) [Decidable b] : TWord := tword 0x21 (if b then 1 else 0)

/-- Comparisons, `MIN` and `MAX` (R186): equality of all 72 bits, order by the class of the operands. -/
def ComparisonsFollowTheClass : Prop :=
  (∀ a b : TWord, malformed a = false → malformed b = false → tagOf a < 0xE0 → tagOf b < 0xE0 →
    Computes .eq 1 [b, a] [bool01 (a = b)] 0 anyThread ∧ Computes .ne 1 [b, a] [bool01 (a ≠ b)] 0 anyThread)
  ∧ (∀ (tag : Nat) (x y : Word), tag = 0x20 ∨ tag = 0x21 ∨ (0x40 ≤ tag ∧ tag ≤ 0x5F) →
    let l := [tword tag y, tword tag x]
    Computes .lt 1 l [bool01 (intOf tag x < intOf tag y)] 0 anyThread
    ∧ Computes .le 1 l [bool01 (intOf tag x ≤ intOf tag y)] 0 anyThread
    ∧ Computes .min 1 l [tword tag (if intOf tag x ≤ intOf tag y then x else y)] 0 anyThread
    ∧ Computes .max 1 l [tword tag (if intOf tag y ≤ intOf tag x then x else y)] 0 anyThread
    ∧ Computes .eqz 1 [tword tag x] [bool01 (x = 0)] 0 anyThread)
  ∧ (∀ x : Word, Computes .eqz 1 [tword 0 x] [bool01 (x = 0)] 0 anyThread)
  ∧ ∀ (p q : Nat) (x y : Word), p = 0x80 ∨ p = 0x88 ∨ p = 0x90 ∨ p = 0x98 →
      q = 0x80 ∨ q = 0x88 ∨ q = 0x90 ∨ q = 0x98 → x.toNat < 2 ^ 48 → y.toNat < 2 ^ 48 →
      Computes .lt 1 [tword q y, tword p x] [bool01 (x.toNat < y.toNat)] 0 anyThread
      ∧ Computes .le 1 [tword q y, tword p x] [bool01 (x.toNat ≤ y.toNat)] 0 anyThread

/-- A `FLT` payload that is a NaN. -/
def fltNan (x : Word) : Prop := 0x7FF0000000000000 < (x &&& 0x7FFFFFFFFFFFFFFF).toNat

/-- The value of a `FLT` payload times 2^1074; an infinity counts as 2^1024 (R169, R191). -/
def fltValue (x : Word) : Int :=
  let e := x.toNat / 2 ^ 52 % 2048
  let m : Nat := (x.toNat % 2 ^ 52 + if e = 0 then 0 else 2 ^ 52) * 2 ^ (e - 1)
  if x.getLsbD 63 then -(m : Int) else m

/-- `FLT` instructions (R186, R191) complete on every two `FLT` words, in every mode of the thread: `FADD`, `FSUB`,
`FMUL`, `FDIV` and `FSQRT` leave a `FLT` word, a NaN where an operand is one, and set no flag but `DZ` at a division by
zero; `FNEG` and `FABS` change the sign bit only; `FEQ`, `FLT` and `FLE` compare the values, and are false where an operand
is a NaN. The conversions of up to 53 bits are exact; `CVT.FI` truncates, clamps beyond the range with `OV` or the fault,
and gives 0 for a NaN. The rounded results are the model's. Assumptions 37, 38. -/
def Obligations.FloatInstructionsStayInClass : Prop :=
  ∀ (x y : Word),
    let two : List TWord := [tword 0x60 y, tword 0x60 x]
    let one : List TWord := [tword 0x60 x]
    Computes .fadd 1 two [tword 0x60 (fadd x y)] 0 anyThread
    ∧ Computes .fsub 1 two [tword 0x60 (fsub x y)] 0 anyThread
    ∧ Computes .fmul 1 two [tword 0x60 (fmul x y)] 0 anyThread
    ∧ Computes .fdiv 1 two [tword 0x60 (fdiv x y)] (if y <<< 1 = 0 then 2 else 0) anyThread
    ∧ Computes .fsqrt 1 one [tword 0x60 (fsqrt x)] 0 anyThread
    ∧ (fltNan x ∨ fltNan y → fltNan (fadd x y) ∧ fltNan (fsub x y) ∧ fltNan (fmul x y) ∧ fltNan (fdiv x y))
    ∧ (fltNan x → fltNan (fsqrt x))
    ∧ Computes .fneg 1 one [tword 0x60 (x ^^^ 0x8000000000000000)] 0 anyThread
    ∧ Computes .fabs 1 one [tword 0x60 (x &&& 0x7FFFFFFFFFFFFFFF)] 0 anyThread
    ∧ (fltNan x ∨ fltNan y →
      Computes .feq 1 two [tword 0x21 0] 0 anyThread
      ∧ Computes .flt 1 two [tword 0x21 0] 0 anyThread
      ∧ Computes .fle 1 two [tword 0x21 0] 0 anyThread)
    ∧ (¬ fltNan x → ¬ fltNan y →
      Computes .feq 1 two [bool01 (fltValue x = fltValue y)] 0 anyThread
      ∧ Computes .flt 1 two [bool01 (fltValue x < fltValue y)] 0 anyThread
      ∧ Computes .fle 1 two [bool01 (fltValue x ≤ fltValue y)] 0 anyThread)
    ∧ (∀ tag : Nat, tag = 0x20 ∨ tag = 0x21 → ∃ r : Word, Computes .cvtIf 1 [tword tag x] [tword 0x60 r] 0 anyThread
      ∧ ((intOf tag x).natAbs < 2 ^ 53 → fltValue r = intOf tag x * 2 ^ 1074))
    ∧ (∀ f : Nat, f ≤ 31 → ∃ r : Word, Computes .cvtXf 1 [tword (0x40 + f) x] [tword 0x60 r] 0 anyThread
      ∧ (x.toInt.natAbs < 2 ^ 53 → fltValue r = x.toInt * 2 ^ (1074 - f))
      ∧ (f = 0 → Computes .cvtIf 1 [tword 0x20 x] [tword 0x60 r] 0 anyThread))
    ∧ (fltNan x → Computes .cvtFi 1 one [tword 0x20 0] 0 anyThread)
    ∧ (¬ fltNan x → DeliversFix .cvtFi 1 one 0x20 ((fltValue x).tdiv (2 ^ 1074)))

/-- Tags (R169 to R171, R178, R186): `TAG` pushes the tag byte of any word, `AS` gives the payload another tag within
the rule of the opcode map, and `TAGSET` any tag to privileged code. -/
def TagInstructionsKeepThePayload : Prop :=
  (∀ w : TWord, Computes .tag 1 [w] [tword 0x21 (BitVec.ofNat 64 (w.toNat / 2 ^ 64)), w] 0 anyThread)
  ∧ (∀ (old : Nat) (new : Byte) (x : Word), tagListed new.toNat = true →
    (tagListed old = true → old < 0x80 → new.toNat < 0x80 →
      Computes (fun t => .retag t new) 2 [tword old x] [tword new.toNat x] 0 anyThread)
    ∧ (tagListed old = true → old < 0x80 → 0x80 ≤ new.toNat →
      FaultsOn (fun t => .retag t new) 2 [tword old x] TY anyThread)
    ∧ (tagListed old = true → 0x80 ≤ old → old < 0xE0 → x.toNat < 2 ^ 48 →
      (new = 0 → Computes (fun t => .retag t new) 2 [tword old x] [tword 0 x] 0 anyThread)
      ∧ (new ≠ 0 → FaultsOn (fun t => .retag t new) 2 [tword old x] TY anyThread)))
  ∧ (∀ new : Byte, tagListed new.toNat = false → FaultsOn (fun t => .retag t new) 2 [] UD anyThread)
  ∧ ∀ (old : Nat) (new : Byte) (x : Word), tagListed old = true → old < 0xE0 → x.toNat < 2 ^ 48 →
      Computes (fun t => .tagset t new) 2 [tword old x] [tword new.toNat x] 0 (fun th => th.status.getLsbD 8 = true)

/-- Type faults (R170, R171, R187): an empty word, or a malformed one, in an operand of a computing instruction takes
the type fault and changes nothing; too few operands take the stack-bounds fault. -/
def EmptyWordsFaultOnUse : Prop :=
  ∀ (w v : TWord), malformed w = true ∨ 0xE0 ≤ tagOf w →
    (∀ c : Tid → Instr, c ∈ [Instr.add, Instr.sub, Instr.min, Instr.max, Instr.mul, Instr.mulh, Instr.div, Instr.rem,
        Instr.and, Instr.or, Instr.xor, Instr.shl, Instr.shr, Instr.sar, Instr.eq, Instr.ne, Instr.lt, Instr.le,
        Instr.fadd, Instr.fsub, Instr.fmul, Instr.fdiv, Instr.feq, Instr.flt, Instr.fle] →
      FaultsOn c 1 [w, v] TY anyThread ∧ FaultsOn c 1 [v, w] TY anyThread
      ∧ ∀ (s u : State) (t : Tid), Ready s t 1 u → (u.at t).depth < 2 → exec (c t) s = .next (u.faults t SB))
    ∧ ∀ c : Tid → Instr, c ∈ [Instr.neg, Instr.abs, Instr.not, Instr.eqz, Instr.fsqrt, Instr.fneg, Instr.fabs,
        Instr.cvtIf, Instr.cvtFi, Instr.cvtXf] →
      FaultsOn c 1 [w] TY anyThread
      ∧ ∀ (s u : State) (t : Tid), Ready s t 1 u → (u.at t).depth < 1 → exec (c t) s = .next (u.faults t SB)

/-- Instructions that move entries, and those that push a literal. Assumptions 33, 39. -/
def Obligations.StackMovesAndLiterals : Prop := StackMovesRenameEntries ∧ LiteralsPushTheirValue

/-- Fixed-point arithmetic, and division by zero. -/
def Obligations.FixedPointAndDivision : Prop := FixedPointRoundsAndClamps ∧ DivisionByZeroIsDefined

/-- Logic and comparisons. -/
def Obligations.LogicAndComparisons : Prop := LogicIsBitwise ∧ ComparisonsFollowTheClass

/-- Tags, and what the empty classes do. Assumption 36. -/
def Obligations.TagsAndEmptyWords : Prop := TagInstructionsKeepThePayload ∧ EmptyWordsFaultOnUse


/-! ### Control flow, memory, special registers -/

/-- What retiring does: the thread has its new entries and flags, one more retired instruction and its new address, is
parked no longer, and nothing else changes but the waits of the other threads to fetch (R168, R186). A fault changes
nothing but that it waits for its entry (R187). -/
def Obligations.RetiringChangesOneThread : Prop :=
  ∀ (s : State) (t : Tid) (len : Nat) (stack : List Slot) (fl : Nat), Plain s t →
    let u := s.goOn t len stack fl
    u.at t = { s.at t with
      stack := stack
      flags := (s.at t).flags ||| BitVec.ofNat 64 fl
      pc := ((s.at t).pc + len) % 2 ^ 48
      retired := (s.at t).retired + 1
      yielded := []
      park := none
      arrived := []
      entryLine := none
      group := some ((s.at t).fetchOf len) }
    ∧ (∀ p i : Nat, p < 8 → i < 16 → (p, i) ≠ (t.panel.val, t.index.val) →
        { u.thread p i with yielded := [] } = { s.thread p i with yielded := [] })
    ∧ u = { s with threads := u.threads }
    ∧ ((s.at t).fault = none → ∀ code : Nat,
        (s.faults t code).at t = { s.at t with fault := some (code, (s.at t).pc, true) }
        ∧ (∀ p i : Nat, p < 8 → i < 16 → (p, i) ≠ (t.panel.val, t.index.val) →
            (s.faults t code).thread p i = s.thread p i)
        ∧ s.faults t code = { s with threads := (s.faults t code).threads })

/-- Branches and jumps (R157, R186): the displacement counts from the next instruction, `BZ` and `BNZ` pop an `INT` and
are taken by its payload, `JMP` pops a `CODE` word. Only the predictor's state differs besides. Assumption 41. -/
def Obligations.BranchesFollowTheirOperand : Prop :=
  ∀ (s s1 : State) (t : Tid) (disp : Disp) (rest : List Slot), Plain s1 t →
    let len := dispLength disp
    let next := ((s1.at t).pc + len) % 2 ^ 48
    ∀ target : Nat, target < 2 ^ 48 → (∃ k : Int, ((s1.at t).pc : Int) + len + dispValue disp = target + k * 2 ^ 48) →
    (Ready s t len s1 → ∃ u : State, exec (.br t disp) s = .next u ∧ Goes s1 u t target (s1.at t).stack id)
    ∧ (∀ (tag : Nat) (x : Word), tag = 0x20 ∨ tag = 0x21 → Ready s t len s1 → Operands s1 t [tword tag x] rest →
      (∃ u : State, exec (.bz t disp) s = .next u ∧ Goes s1 u t (if x = 0 then target else next) rest id)
      ∧ ∃ u : State, exec (.bnz t disp) s = .next u ∧ Goes s1 u t (if x = 0 then next else target) rest id)
    ∧ (∀ w : TWord, isClass 1 w = false → Ready s t len s1 → Operands s1 t [w] rest →
      exec (.bz t disp) s = .next (s1.faults t TY) ∧ exec (.bnz t disp) s = .next (s1.faults t TY))
    ∧ (∀ a : Word, a.toNat < 2 ^ 48 → Ready s t 1 s1 → Operands s1 t [tword 0xA0 a] rest →
      ∃ u : State, exec (.jmp t) s = .next u ∧ Goes s1 u t a.toNat rest id)
    ∧ ∀ w : TWord, isClass 5 w = false → Ready s t 1 s1 → Operands s1 t [w] rest →
      exec (.jmp t) s = .next (s1.faults t TY)

/-- Calls (R177): the record holds the expected depth and the return address, below the control stack pointer; a call
of more arguments than the depth takes the stack-bounds fault. -/
def CallsPushTheirRecord : Prop :=
  ∀ (s s1 : State) (t : Tid) (a r : Fin 16), Plain s1 t →
    let csp := (s1.at t).csp.toNat
    let p := t.panel.val
    16 ≤ csp → (s1.at t).csLo.toNat ≤ csp - 16 →
    PlainWord s1 t (csp - 8) → PlainWord s1 t (csp - 16) → Allowed (csp - 16) 16 →
    let called (u : State) (len depth target : Nat) (stack : List Slot) : Prop :=
      ∃ m, OnlyWords s1 m p [csp - 8, csp - 16]
        ∧ m.word p (csp - 8) = tword 0xC5 (BitVec.ofNat 64 (depth - a + r))
        ∧ m.word p (csp - 16) = tword 0xC4 (BitVec.ofNat 64 (((s1.at t).pc + len) % 2 ^ 48))
        ∧ Goes m u t target stack (fun th => { th with csp := BitVec.ofNat 64 (csp - 16) })
    (∀ (disp : BitVec 24) (target : Nat), Ready s t 5 s1 → target < 2 ^ 48 →
      (∃ k : Int, ((s1.at t).pc : Int) + 5 + disp.toInt = target + k * 2 ^ 48) →
      (a.val ≤ (s1.at t).depth →
        ∃ u : State, exec (.call t disp a r) s = .next u ∧ called u 5 (s1.at t).depth target (s1.at t).stack)
      ∧ ((s1.at t).depth < a.val → exec (.call t disp a r) s = .next (s1.faults t SB)))
    ∧ ∀ (c : Word) (rest : List Slot), c.toNat < 2 ^ 48 → Ready s t 2 s1 → Operands s1 t [tword 0xA0 c] rest →
      (a.val + 1 ≤ (s1.at t).depth →
        ∃ u : State, exec (.calli t a r) s = .next u ∧ called u 2 ((s1.at t).depth - 1) c.toNat rest)
      ∧ ((s1.at t).depth < a.val + 1 → exec (.calli t a r) s = .next (s1.faults t SB))

/-- Returns (R177, R198): `RET` checks the record, `RETI` the frame, before anything changes: the subfields or the type
fault, the depth or the stack-imbalance fault. `RETI` restores the status and needs privilege. -/
def ReturnsCheckBeforeReturning : Prop :=
  ∀ (s s1 : State) (t : Tid), Plain s1 t → Ready s t 1 s1 →
    let csp := (s1.at t).csp.toNat
    let w (k : Nat) := s1.word t.panel (csp + 8 * k)
    csp + 32 ≤ (s1.at t).csHi.toNat →
    (∀ k : Nat, k < 4 → PlainWord s1 t (csp + 8 * k)) → Allowed csp 32 →
    ((tagOf (w 0) = 0xC4 → tagOf (w 1) = 0xC5 → (payload (w 1)).toNat = (s1.at t).depth →
        ∃ u : State, exec (.ret t) s = .next u ∧ Goes s1 u t ((payload (w 0)).toNat % 2 ^ 48) (s1.at t).stack
          (fun th => { th with csp := BitVec.ofNat 64 (csp + 16) }))
      ∧ (tagOf (w 0) ≠ 0xC4 ∨ tagOf (w 1) ≠ 0xC5 → exec (.ret t) s = .next (s1.faults t TY))
      ∧ (tagOf (w 0) = 0xC4 → tagOf (w 1) = 0xC5 → (payload (w 1)).toNat ≠ (s1.at t).depth →
        exec (.ret t) s = .next (s1.faults t SI)))
    ∧ ((s1.at t).status.getLsbD 8 = false → exec (.reti t) s = .next (s1.faults t PV))
    ∧ ((s1.at t).status.getLsbD 8 = true → (s1.at t).double = false →
      let good : Prop := tagOf (w 0) = 0xC3 ∧ tagOf (w 1) = 0xC2 ∧ tagOf (w 2) = 0xC1 ∧ tagOf (w 3) = 0xC0
      (good → (payload (w 0)).toNat = (s1.at t).depth →
        ∃ u : State, exec (.reti t) s = .next u ∧ Goes s1 u t ((payload (w 2)).toNat % 2 ^ 48) (s1.at t).stack
          (fun th => { th with csp := BitVec.ofNat 64 (csp + 32), status := payload (w 1) &&& 0x1F1F }))
      ∧ (¬ good → exec (.reti t) s = .next (s1.faults t TY))
      ∧ (good → (payload (w 0)).toNat ≠ (s1.at t).depth → exec (.reti t) s = .next (s1.faults t SI)))

/-- Loads from memory (R179, R180): little-endian bytes, also across an 8-byte boundary, sign- or zero-extended as the
opcode says; a tagged load takes the word as stored. Memory and every other register stand. Assumption 63. -/
def Obligations.LoadsReadLittleEndian : Prop :=
  ∀ (s s1 : State) (t : Tid) (disp : Disp) (ptr : TWord) (rest : List Slot) (a : Nat),
    let len := dispLength disp
    let p := t.panel.val
    Ready s t len s1 → Operands s1 t [ptr] rest → isClass 4 ptr = true →
    (a : Int) = (payload ptr).toNat + dispValue disp →
    let leaves (c : Tid → Disp → MemEnv → Instr) (w : TWord) : Prop :=
      exec (c t disp clearEnv) s = .next (s1.goOn t len (.word w :: rest) 0)
    let there (n : Nat) : Prop := Allowed a n ∧ ∀ i : Nat, i < n → PlainWord s1 t ((a + i) / 8 * 8)
    (there 8 → a % 8 = 0 → (tagOf (s1.word p a) / 32 = 6 → (s1.at t).status.getLsbD 8 = true) →
      leaves .ldT (s1.word p a))
    ∧ (there 8 → leaves .ldR (tword 0 (BitVec.ofNat 64 (s1.bytesAt p a 8))))
    ∧ (there 4 → leaves .ldS32 (tword 0x20 ((BitVec.ofNat 32 (s1.bytesAt p a 4)).signExtend 64))
      ∧ leaves .ldU32 (tword 0x21 (BitVec.ofNat 64 (s1.bytesAt p a 4))))
    ∧ (there 2 → leaves .ldS16 (tword 0x20 ((BitVec.ofNat 16 (s1.bytesAt p a 2)).signExtend 64))
      ∧ leaves .ldU16 (tword 0x21 (BitVec.ofNat 64 (s1.bytesAt p a 2))))
    ∧ (there 1 → leaves .ldS8 (tword 0x20 ((BitVec.ofNat 8 (s1.bytesAt p a 1)).signExtend 64))
      ∧ leaves .ldU8 (tword 0x21 (BitVec.ofNat 64 (s1.bytesAt p a 1))))

/-- Stores to memory (R180, R227): the stored bytes take the value, low byte first, every other byte of every panel
reads as before, and each word written by an untagged store is `RAW`. A tagged store writes the word with its tag. -/
def Obligations.StoresWriteTheirBytes : Prop :=
  ∀ (s s1 : State) (t : Tid) (disp : Disp) (ptr v : TWord) (rest : List Slot) (a : Nat),
    let len := dispLength disp
    let p := t.panel.val
    Ready s t len s1 → Operands s1 t [ptr, v] rest → isClass 4 ptr = true → (tagOf ptr).testBit 4 = true →
    (a : Int) = (payload ptr).toNat + dispValue disp →
    (Allowed a 8 → a % 8 = 0 → PlainWord s1 t a → (tagOf v / 32 = 6 → (s1.at t).status.getLsbD 8 = true) →
      ∃ m, OnlyWords s1 m p [a] ∧ m.word p a = v ∧ exec (.stT t disp clearEnv) s = .next (m.goOn t len rest 0))
    ∧ ∀ (c : Tid → Disp → MemEnv → Instr) (n : Nat),
      (c, n) ∈ [(Instr.stR, 8), (Instr.st32, 4), (Instr.st16, 2), (Instr.st8, 1)] →
      isClass 0 v = true ∨ isClass 1 v = true → Allowed a n → (∀ i : Nat, i < n → PlainWord s1 t ((a + i) / 8 * 8)) →
      ∃ m, OnlyWords s1 m p [a / 8 * 8, (a + n - 1) / 8 * 8]
        ∧ (∀ i : Nat, i < n → tagOf (m.word p ((a + i) / 8 * 8)) = 0)
        ∧ (∀ x : Nat, m.byteAt p x =
            if a ≤ x ∧ x < a + n then (payload v).toNat / 256 ^ (x - a) % 256 else s1.byteAt p x)
        ∧ exec (c t disp clearEnv) s = .next (m.goOn t len rest 0)

/-- The checks of an address, in the order of R187 (R179 to R181): alignment, the 48-bit range, the write permission,
device space, and last what answers. An access reaches device space where any byte of it lies there. -/
def AccessesAreChecked : Prop :=
  ∀ (s s1 : State) (t : Tid) (disp : Disp) (ptr v : TWord) (rest : List Slot) (a : Int) (env : MemEnv),
    let len := dispLength disp
    let p := t.panel.val
    a = (payload ptr).toNat + dispValue disp → isClass 4 ptr = true → isClass 1 v = true →
    Ready (s.strike p env.upsets) t len s1 →
    (∀ (c : Tid → Disp → MemEnv → Instr) (n : Nat), (c, n) ∈ [(Instr.ldT, 8), (Instr.ldR, 8), (Instr.ldS32, 4),
        (Instr.ldU32, 4), (Instr.ldS16, 2), (Instr.ldU16, 2), (Instr.ldS8, 1), (Instr.ldU8, 1)] →
      Operands s1 t [ptr] rest →
      let reaches : Prop := 0x40000000 < a + n ∧ a ≤ 0xFFFFFFFF
      ((c t disp env = .ldT t disp env ∨ c t disp env = .ldR t disp env ∧ reaches) → a % 8 ≠ 0 →
        exec (c t disp env) s = .next (s1.faults t AL))
      ∧ (a % 8 = 0 → a < 0 ∨ 2 ^ 48 < a + n → exec (c t disp env) s = .next (s1.faults t AC))
      ∧ (a % 8 = 0 → reaches → c t disp env ≠ .ldR t disp env ∨ (tagOf ptr).testBit 3 = false →
        exec (c t disp env) s = .next (s1.faults t AC))
      ∧ (c t disp env ≠ .ldT t disp env → c t disp env ≠ .ldR t disp env → reaches →
        exec (c t disp env) s = .next (s1.faults t AC))
      ∧ (Plain s1 t → a % 8 = 0 → 0 ≤ a → a + n ≤ 2 ^ 48 → regionOf p a.toNat = .unmapped → ¬ reaches →
        exec (c t disp env) s = .next (s1.faults t BE)))
    ∧ ∀ (c : Tid → Disp → MemEnv → Instr) (n : Nat),
      (c, n) ∈ [(Instr.stT, 8), (Instr.stR, 8), (Instr.st32, 4), (Instr.st16, 2), (Instr.st8, 1)] →
      Operands s1 t [ptr, v] rest →
      let reaches : Prop := 0x40000000 < a + n ∧ a ≤ 0xFFFFFFFF
      ((c t disp env = .stT t disp env ∨ c t disp env = .stR t disp env ∧ reaches) → a % 8 ≠ 0 →
        exec (c t disp env) s = .next (s1.faults t AL))
      ∧ (a % 8 = 0 → a < 0 ∨ 2 ^ 48 < a + n → exec (c t disp env) s = .next (s1.faults t AC))
      ∧ (a % 8 = 0 → (tagOf ptr).testBit 4 = false → exec (c t disp env) s = .next (s1.faults t AC))
      ∧ (a % 8 = 0 → reaches → c t disp env ≠ .stR t disp env ∨ (tagOf ptr).testBit 3 = false →
        exec (c t disp env) s = .next (s1.faults t AC))
      ∧ (c t disp env ≠ .stT t disp env → c t disp env ≠ .stR t disp env → reaches →
        exec (c t disp env) s = .next (s1.faults t AC))

/-- Where a load of the panel's DRAM finds its word (R154, R156, R167): in the L1 data cache; else, with a miss counted,
in the L2, from which the line enters the L1; else, with a second miss counted, the thread parks and loads again when
the line has come. The arrival of the line ends the parking. -/
def MissesParkTheThread : Prop :=
  ∀ (s s1 : State) (t : Tid) (disp : Disp) (ptr : TWord) (rest : List Slot) (a : Nat),
    let p := t.panel.val
    let c := t.index.val / 4
    let len := dispLength disp
    Ready s t len s1 → Operands s1 t [ptr] rest → isClass 4 ptr = true →
    (a : Int) = (payload ptr).toNat + dispValue disp → a % 8 = 0 → Allowed a 8 → Plain s1 t →
    s1.panelSpot p a = .mem p a .cached → (s1.at t).arrived = [] →
    (tagOf (s1.word p a) / 32 = 6 → (s1.at t).status.getLsbD 8 = true) →
    let way := (s1.l1Set p c false (a / 64)).way (a / 64)
    let completes (u : State) : Prop :=
      exec (.ldT t disp clearEnv) s = .next (u.goOn t len (.word (s1.word p a) :: rest) 0)
    let counted (m : Word) (l2 : Nat) : Prop :=
      m.toNat % 2 ^ 32 = min ((s1.at t).misses.toNat % 2 ^ 32 + 1) (2 ^ 32 - 1)
      ∧ m.toNat / 2 ^ 32 = min ((s1.at t).misses.toNat / 2 ^ 32 + l2) (2 ^ 32 - 1)
    (way ≠ none → s1.errorsIn 3 c [memKey p a] = [] → ∃ u, u = { s1 with cores := u.cores } ∧ completes u)
    ∧ (way = none → s1.tagLost p (a / 128) = false →
      (s1.inL2 p (a / 128) = true → s1.bad p a = false → s1.errorsIn 4 0 (s1.tagKeys p (a / 128)) = [] →
        s1.errorsIn 1 0 (wordKeys p (64 * (a / 64)) 8) = [] →
        ∃ (m : Word) (u : State), counted m 0
          ∧ u = { s1.setThread p t.index { s1.at t with misses := m } with
            cores := u.cores
            panels := u.panels
            flips := u.flips }
          ∧ completes u
          ∧ ((∀ i : Nat, i < 8 → s1.bad p (64 * (a / 64) + 8 * i) = false) →
            (u.l1Set p c false (a / 64)).way (a / 64) ≠ none))
      ∧ (s1.inL2 p (a / 128) = false → ∃ m : Word, counted m 1
        ∧ exec (.ldT t disp clearEnv) s = .next (s1.setThread p t.index { s1.at t with
            park := some .dataMiss
            hasParked := true
            missing := some (a, false)
            misses := m })))
    ∧ ∀ (u : State) (why : Park) (b : Nat) (code : Bool), (u.at t).park = some why → (u.at t).missing = some (b, code) →
      (why ≠ .dataMiss → why ≠ .fetchMiss → exec (.cacheFillComplete t) u = .next u)
      ∧ (why = .dataMiss ∨ why = .fetchMiss → ∃ r : State, exec (.cacheFillComplete t) u = .next r
        ∧ (r.at t).park = none ∧ (r.at t).missing = none ∧ (r.at t).pc = (u.at t).pc ∧ (r.at t).stack = (u.at t).stack
        ∧ (code = false → r.inL2 p (b / 128) = true ∨ memKey p b ∈ (r.at t).arrived))

/-- Device-space loads (R155): the load retires with its entry pending and parks the thread; it leaves at once for a page of
the panel's own, else when its flit does (R20). The response, once it has left, fills the entry with what a read of the
register returns to the thread, with the security of the load (R353); of a page that is not there it is zero. A response
without data fills it with an empty word, whose use then faults. Assumption 62. -/
def DeviceLoadsArePending : Prop :=
  ∀ (s s1 : State) (t : Tid) (disp : Disp) (ptr : TWord) (rest : List Slot) (a : Nat) (env : MemEnv),
    let len := dispLength disp
    Ready (s.strike t.panel env.upsets) t len s1 → Plain s1 t → Operands s1 t [ptr] rest → isClass 4 ptr = true →
    (tagOf ptr).testBit 3 = true → (a : Int) = (payload ptr).toNat + dispValue disp → a % 8 = 0 →
    0x40000000 ≤ a → a ≤ 0xFFFFFFFF → regionOf t.panel a ≠ .unmapped →
    let id := (s1.at t).retired.toNat
    (∃ (s2 u : State) (sent : Nat), exec (.ldR t disp env) s = .next u
      ∧ (if a < 0x80000000 then s2 = s1 ∧ sent = s1.ticks
        else LeavesPort s1 s2 t.panel s1.ticks sent)
      ∧ Goes s2 u t (((s1.at t).pc + len) % 2 ^ 48) (.pending id :: rest)
        (fun th => { th with
          park := some .deviceLoad
          hasParked := true
          waitsFor := id
          loads := (s1.at t).loads ++ [⟨id, a, sent, sent + (if a < 0x80000000 then 12 else 2 * backOf t.panel a),
            s1.threadSecure t.panel t.index⟩] }))
    ∧ ∀ (u : State) (sent latest : Nat) (sec : Bool),
      (u.at t).loads = [⟨id, a, sent, latest, sec⟩] → sent ≤ u.ticks → (u.at t).park = some .deviceLoad → (u.at t).waitsFor = id →
      (u.at t).stack = .pending id :: rest → (∀ x ∈ rest, x ≠ .pending id) → Plain u t →
      exec (.deviceLoadResponse t true) u = .next (u.setThread t.panel t.index
        { u.at t with stack := .word (tword 0xE2 0) :: rest, loads := [], park := none })
      ∧ ∀ pk off : Nat, regionOf t.panel a = .page pk off →
        ∃ v : State, exec (.deviceLoadResponse t false) u
            = .next (v.setThread t.panel t.index
                { v.at t with
                  stack := .word (tword 0 (if u.pageThere pk then (u.readAs (.thread t) sec pk off).1 else 0)) :: rest
                  loads := []
                  park := none })
          ∧ v.at t = u.at t ∧ v.mem = u.mem

/-- Device-space stores and `STT` (R182, R183, R193): the write enters its crossing with its due time, behind the thread's
earlier stores (R153), the operands are popped, and a native store parks until its response; with 16 stores of the core's threads still waiting to leave, it
waits. An `STT` beyond the timed windows or at a due time of 2^62 or more takes the access fault. The response ends the
parking; one with an error raises the bus error at the next instruction, or in buffered-store mode is recorded as the
first imprecise error. -/
def DeviceStoresWaitForTheirResponse : Prop :=
  ∀ (s s1 : State) (t : Tid) (disp : Disp) (ptr v : TWord) (rest : List Slot) (a pk off : Nat) (env : MemEnv),
    let len := dispLength disp
    let p := t.panel.val
    Plain s1 t → isClass 4 ptr = true → (tagOf ptr).testBit 3 = true → (tagOf ptr).testBit 4 = true →
    isClass 0 v = true ∨ isClass 1 v = true →
    (a : Int) = (payload ptr).toNat + dispValue disp → a % 8 = 0 → regionOf t.panel a = .page pk off →
    let left (u : State) (due : Option Nat) : Prop := ∃ (s2 : State) (leaves : Nat),
      s2 = { s1 with
        seq := s1.seq + 1
        flight := s1.flight ++
          [⟨.thread t, 256 * t.panel + t.index, s1.seq, pk, off, payload v, due, leaves, true, a, false, false, s1.ticks,
            s1.threadSecure p t.index⟩]
        panels := s2.panels
        regs := s2.regs
        free := s2.free }
      ∧ (if isPanelPage pk then leaves = s1.drained (.thread t) ∧ s2.panels = s1.panels ∧ s2.regs = s1.regs ∧ s2.free = s1.free
        else LeavesPort s1 { s1 with
            panels := s2.panels
            regs := s2.regs
            free := s2.free } p (s1.drained (.thread t)) leaves)
      ∧ Goes s2 u t (((s1.at t).pc + len) % 2 ^ 48) rest (fun th => { th with
          stores := (s1.at t).stores ++ [⟨a, !(s1.at t).status.getLsbD 12, none, 0⟩]
          park := if (s1.at t).status.getLsbD 12 then none else some .store
          hasParked := if (s1.at t).status.getLsbD 12 then (s1.at t).hasParked else true })
    let room : Prop := s1.storesWaiting p (t.index.val / 4) < 16
    (Ready (s.strike p env.upsets) t len s1 → Operands s1 t [ptr, v] rest →
      (room → ∃ u : State, exec (.stR t disp env) s = .next u ∧ left u none)
      ∧ (¬ room → exec (.stR t disp env) s = .next s1))
    ∧ (∀ d : TWord, isClass 1 d = true → Ready s t len s1 → Operands s1 t [ptr, d, v] rest →
      ((payload d).toNat < 2 ^ 62 → timedTarget a = true →
        (room → ∃ u : State, exec (.stt t disp) s = .next u ∧ left u (some (payload d).toNat))
        ∧ (¬ room → exec (.stt t disp) s = .next s1))
      ∧ (2 ^ 62 ≤ (payload d).toNat ∨ timedTarget a = false → exec (.stt t disp) s = .next (s1.faults t AC)))
    ∧ ∀ (u : State) (x : StoreInFlight) (err : Bool), Plain u t → (u.at t).stores = [x] → x.answer = some err →
      (u.at t).fault = none →
      (x.native = true → (u.at t).park = some .store →
        exec (.storeResponse t) u = .next (u.setThread t.panel t.index { u.at t with
          stores := [], park := none, fault := if err then some (BE, (u.at t).pc, false) else none }))
      ∧ (x.native = false → err = false →
        exec (.storeResponse t) u = .next (u.setThread t.panel t.index { u.at t with stores := [] }))
      ∧ (x.native = false → err = true → ∃ r : State, exec (.storeResponse t) u = .next r
        ∧ (r.at t).stores = [] ∧ r.mem = u.mem ∧ r.regs = u.regs
        ∧ ((u.at t).imprecise.getLsbD 63 = true → (r.at t).imprecise = (u.at t).imprecise ||| (1#64 <<< 62))
        ∧ ((u.at t).imprecise = 0 → x.addr < 2 ^ 48 →
          (r.at t).imprecise = BitVec.ofNat 64 (2 ^ 63 + x.addr)))

/-- `AADD` and `ASWAP` (R184): one access to a scratch bank that leaves the stored word as it was found. `AADD` wants two
`INT` of one subfield and wraps; a mismatch writes nothing. Beyond the banks, or misaligned, the access faults. -/
def Obligations.AtomicsActOnScratchBanks : Prop :=
  ∀ (s s1 : State) (t : Tid) (disp : Byte) (ptr v : TWord) (rest : List Slot) (a : Nat),
    let p := t.panel.val
    Ready s t 2 s1 → Operands s1 t [ptr, v] rest → isClass 4 ptr = true → (tagOf ptr).testBit 4 = true →
    (a : Int) = (payload ptr).toNat + disp.toInt →
    let old := s1.word p a
    (a < 0x200000 → a % 8 = 0 → Allowed a 8 → PlainWord s1 t a →
      (∀ (tag : Nat) (x y : Word), tag = 0x20 ∨ tag = 0x21 → v = tword tag x → old = tword tag y →
        ∃ m, OnlyWords s1 m p [a] ∧ m.word p a = tword tag (x + y)
          ∧ exec (.aadd t disp clearEnv) s = .next (m.goOn t 2 (.word old :: rest) 0))
      ∧ (isClass 1 v = true → isClass 1 old = false ∨ tagOf v ≠ tagOf old →
        exec (.aadd t disp clearEnv) s = .next (s1.faults t TY))
      ∧ ((s1.at t).status.getLsbD 8 = true → ∃ m, OnlyWords s1 m p [a] ∧ m.word p a = v
        ∧ exec (.aswap t disp clearEnv) s = .next (m.goOn t 2 (.word old :: rest) 0))
      ∧ ((s1.at t).status.getLsbD 8 = false → tagOf v / 32 = 6 ∨ tagOf old / 32 = 6 →
        exec (.aswap t disp clearEnv) s = .next (s1.faults t TY)))
    ∧ (isClass 1 v = true → a % 8 ≠ 0 → ∀ env : MemEnv, env.upsets = [] →
      exec (.aadd t disp env) s = .next (s1.faults t AL) ∧ exec (.aswap t disp env) s = .next (s1.faults t AL))
    ∧ (isClass 1 v = true → a % 8 = 0 → 0x200000 ≤ a → a + 8 ≤ 2 ^ 48 → deviceSpace a = false →
      ∀ env : MemEnv, env.upsets = [] →
      exec (.aadd t disp env) s = .next (s1.faults t AC) ∧ exec (.aswap t disp env) s = .next (s1.faults t AC))

/-- Long instructions (R168, R192, R200): each element is committed with the operands that show it, and with a count of
its own; the last one completes the instruction, which counts once more, unless an Easel step ends with the element
(R365); with a count of 0 it completes at once. -/
def LongInstructionsShowTheirProgress : Prop :=
  ∀ (s s1 : State) (t : Tid) (x y v : Word) (n : Word) (pd pa : Nat) (rest : List Slot),
    let p := t.panel.val
    Ready s t 2 s1 → Plain s1 t → pd = 0x90 ∨ pd = 0x98 → pa = 0x80 ∨ pa = 0x88 ∨ pa = 0x90 ∨ pa = 0x98 →
    Allowed x.toNat 8 → PlainWord s1 t x.toNat → Allowed y.toNat 8 → PlainWord s1 t y.toNat → rest.length ≤ 12 →
    let P (tag : Nat) (z : Word) : Slot := .word (tword tag z)
    let ends (c : Tid → MemEnv → Instr) (takes gives : List Slot) (m : State) : Prop :=
      (s1.at t).stack = P 0x21 n :: takes ++ rest → n ≠ 0 →
        exec (c t clearEnv) s = .next (if n = 1 ∧ (s1.at t).stepEnd.all (fun e => decide ((s1.at t).retired.toNat + 1 < e))
          then (m.progress t (P 0x21 0 :: gives ++ rest)).goOn t 2 (P 0x21 0 :: gives ++ rest) 0
          else m.progress t (P 0x21 (n - 1) :: gives ++ rest))
    (∀ (c : Tid → MemEnv → Instr) (takes : List Slot),
      (c, takes) ∈ [(Instr.bmove, [P pd x, P pa y]), (Instr.bfill, [P pd x, P 0x20 v]),
        (Instr.dotx, [P pd x, P pa y, P 0x48 v]), (Instr.crc32, [P pa y, P 0x21 v])] →
      (s1.at t).stack = P 0x21 0 :: takes ++ rest → ∀ env : MemEnv, env.upsets = [] →
      exec (c t env) s = .next (s1.goOn t 2 (s1.at t).stack 0))
    ∧ (x.toNat % 8 = 0 → y.toNat % 8 = 0 → tagOf (s1.word p y.toNat) / 32 ≠ 6 →
      ∃ m, OnlyWords s1 m p [x.toNat] ∧ m.word p x.toNat = s1.word p y.toNat
        ∧ ends .bmove [P pd x, P pa y] [P pd (x + 8), P pa (y + 8)] m)
    ∧ (x.toNat % 8 = 0 → ∃ m, OnlyWords s1 m p [x.toNat] ∧ m.word p x.toNat = tword 0x20 v
        ∧ ends .bfill [P pd x, P 0x20 v] [P pd (x + 8), P 0x20 v] m)
    ∧ (x.toNat % 8 = 0 → y.toNat % 8 = 0 → ∀ (f g : Nat) (i j : Word), f ≤ 31 → g ≤ 31 →
      s1.word p y.toNat = tword (0x40 + f) i → s1.word p x.toNat = tword (0x40 + g) j →
      let sum := v.toInt + nearest (i.toInt * j.toInt) g
      (-2 ^ 63 ≤ sum → sum < 2 ^ 63 →
        ends .dotx [P pd x, P pa y, P (0x40 + f) v] [P pd (x + 8), P pa (y + 8), P (0x40 + f) (BitVec.ofInt 64 sum)] s1)
      ∧ (sum < -2 ^ 63 ∨ 2 ^ 63 ≤ sum → (s1.at t).status.getLsbD 10 = true → n ≠ 0 →
        (s1.at t).stack = P 0x21 n :: [P pd x, P pa y, P (0x40 + f) v] ++ rest →
        exec (.dotx t clearEnv) s = .next (s1.faults t OV)))
    ∧ ends .crc32 [P pa y, P 0x21 v] [P pa (y + 1),
        P 0x21 ((crc32Byte (v.setWidth 32) (BitVec.ofNat 8 (s1.byteAt p y.toNat))).setWidth 64)] s1

/-- Calls and returns. -/
def Obligations.CallsAndReturns : Prop := CallsPushTheirRecord ∧ ReturnsCheckBeforeReturning

/-- What is checked of an access, and accesses that miss. Assumption 63. -/
def Obligations.ChecksAndMisses : Prop := AccessesAreChecked ∧ MissesParkTheThread

/-- Loads and stores of device space. Assumptions 11, 72. -/
def Obligations.DeviceAccessesWait : Prop := DeviceLoadsArePending ∧ DeviceStoresWaitForTheirResponse


/-- What a read of a thread's or a core's special register returns (R167, R174, R214): a number, and how it stands in
the state. -/
def plainSpecials (s : State) (t : Tid) : List (Nat × Word) :=
  let th := s.at t
  let c := s.core t.panel (t.index / 4)
  [(0x00, th.status), (0x01, th.osp), (0x02, th.osLo), (0x03, th.osHi), (0x04, th.csp), (0x05, th.csLo),
    (0x06, th.csHi), (0x07, th.vbase), (0x08, th.fsp), (0x09, th.flags),
    (0x40, BitVec.ofNat 64 (256 * t.panel + 16 * (t.index / 4) + t.index % 4)), (0x42, th.retired), (0x44, th.specIssue),
    (0x45, th.mispredict), (0x46, th.misses), (0x47, c.entrySlow), (0x48, (s.panel t.panel).l2lock), (0x49, c.l2fill),
    (0x4A, (s.panel t.panel).lockstep), (0x4B, 0), (0x51, 0), (0x53, th.imprecise),
    (0x54, if th.double then 1 else 0)]

/-- `SRR` (R167, R174, R186, R214): an `INT` unsigned word of the register; the two cycle counters only grow, and that of
parked cycles stands still until the thread parks again; an unassigned number takes the undefined-opcode fault. -/
def SpecialRegistersRead : Prop :=
  ∀ (s s1 : State) (t : Tid) (num : BitVec 16), Ready s t 3 s1 → Plain s1 t → (s1.at t).stack.length ≤ 15 →
    (∀ w : Word, (num.toNat, w) ∈ plainSpecials s1 t →
      exec (.srr t num) s = .next (s1.goOn t 3 (.word (tword 0x21 w) :: (s1.at t).stack) 0))
    ∧ (num.toNat = 0x41 → ∃ (w : Word) (u : State),
      exec (.srr t num) s = .next (u.goOn t 3 (.word (tword 0x21 w) :: (s1.at t).stack) 0)
      ∧ (u.core t.panel (t.index / 4)).cycles = w ∧ u = { s1 with cores := u.cores, free := u.free })
    ∧ (num.toNat = 0x43 → ∃ (w : Word) (u : State),
      exec (.srr t num) s = .next (u.goOn t 3 (.word (tword 0x21 w) :: (s1.at t).stack) 0)
      ∧ (u.at t).parked = w ∧ ((s1.at t).hasParked = false → w = (s1.at t).parked ∧ u.free = s1.free)
      ∧ u = { s1.setThread t.panel t.index { s1.at t with parked := w, hasParked := (s1.at t).park.isSome } with
          free := u.free })
    ∧ (num.toNat = 0x52 → ∃ w : Word,
      exec (.srr t num) s = .next (s1.goOn t 3 (.word (tword 0x21 w) :: (s1.at t).stack) 0)
      ∧ ((s1.core t.panel (t.index / 4)).prio = [] → w = 0x3FF))
    ∧ (0x0A ≤ num.toNat ∧ num.toNat < 0x40 ∨ 0x4C ≤ num.toNat ∧ num.toNat < 0x50 ∨ 0x55 ≤ num.toNat →
      exec (.srr t num) s = .next (s1.faults t UD))

/-- `SRW` (R167, R174, R186, R214): implemented bits are stored, read-only registers keep their value, and an
unprivileged write of anything but `THR_FLAGS` takes the privileged-instruction fault. A flag that hardware has set in the
tick of its clear may stay (R8). All 16 ways locked in `CORE_L2_LOCK` are a host error (R3, R166), after which the lock
holds anything. Assumptions 8, 129. -/
def SpecialRegistersWrite : Prop :=
  ∀ (s s1 : State) (t : Tid) (num : BitVec 16) (tag : Nat) (v : Word) (rest : List Slot),
    Ready s t 3 s1 → Plain s1 t → tag = 0 ∨ tag = 0x20 ∨ tag = 0x21 →
    Operands s1 t [tword tag v] rest →
    let p := t.panel.val
    let i := t.index.val
    let addr := v &&& 0x0000FFFFFFFFFFF8
    let writes (u : State) : Prop := exec (.srw t num) s = .next (u.goOn t 3 rest 0)
    let sets (f : Thread → Thread) : Prop := writes (s1.setThread p i (f (s1.at t)))
    let clears (who : Nat) (mask k : Word) : Prop :=
      let kept := Store.read 0 s1.setNow (specialKey p who num.toNat) &&& (v &&& mask)
      k = v &&& mask ∨ (kept ≠ 0 ∧ k = v &&& mask &&& ~~~kept)
    ((s1.at t).status.getLsbD 8 = true →
      (num = 0x00 → sets (fun th => { th with status := v &&& 0x1F1F }))
      ∧ (num = 0x04 → sets (fun th => { th with csp := addr }))
      ∧ (num = 0x05 → sets (fun th => { th with csLo := addr }))
      ∧ (num = 0x06 → sets (fun th => { th with csHi := addr }))
      ∧ (num = 0x07 → sets (fun th => { th with vbase := addr }))
      ∧ (num = 0x08 → sets (fun th => { th with fsp := addr }))
      ∧ (num = 0x48 → v &&& 0xFFFF ≠ 0xFFFF → writes (s1.setPanel p { s1.panel p with l2lock := v &&& 0xFFFF }))
      ∧ (num = 0x48 → v &&& 0xFFFF = 0xFFFF → ∃ (x : Word) (u : State), writes u
          ∧ u = { s1.setPanel p { s1.panel p with l2lock := x &&& 0xFFFF } with free := u.free })
      ∧ (num = 0x49 → writes (s1.setCore p (i / 4) { s1.core p (i / 4) with l2fill := v &&& 0xFFFF }))
      ∧ (num = 0x4A → ∃ (k : Word) (u : State), clears 0 0x8000000000000000 k ∧ writes u
          ∧ u = { s1.setPanel p { s1.panel p with lockstep := (s1.panel p).lockstep &&& ~~~k } with free := u.free })
      ∧ (num = 0x53 → ∃ (k : Word) (u : State), clears i 0xC000000000000000 k ∧ writes u
          ∧ u = { s1.setThread p i { s1.at t with imprecise := (s1.at t).imprecise &&& ~~~k } with free := u.free })
      ∧ (num.toNat ∈ [0x40, 0x41, 0x42, 0x43, 0x44, 0x45, 0x46, 0x47, 0x50, 0x52, 0x54] → writes s1))
    ∧ (num = 0x09 → ∃ (k : Word) (u : State), clears i 7 k ∧ writes u
        ∧ (u.at t).flags = ((s1.at t).flags &&& ~~~k &&& 7) ||| (v &&& 0x100)
        ∧ u.regs = s1.regs ∧ u.mem = s1.mem)
    ∧ ((s1.at t).status.getLsbD 8 = false → num ≠ 0x09 → specialAssigned num.toNat = true →
      exec (.srw t num) s = .next (s1.faults t PV))
    ∧ (specialAssigned num.toNat = false → exec (.srw t num) s = .next (s1.faults t UD))

/-- A write of `OSP`, `OS_LO` or `OS_HI` first spills every renamed entry at the old `OSP`, deepest first; the depth is
then counted from memory alone (R176). -/
def OperandStackWritesSpillFirst : Prop :=
  ∀ (s s1 : State) (t : Tid) (tag : Nat) (v : Word) (below : List TWord),
    Ready s t 3 s1 → Plain s1 t → tag = 0 ∨ tag = 0x20 ∨ tag = 0x21 →
    (s1.at t).status.getLsbD 8 = true → Operands s1 t [tword tag v] (below.map Slot.word) →
    let p := t.panel.val
    let osp := (s1.at t).osp.toNat
    let addr := v &&& 0x0000FFFFFFFFFFF8
    let n := below.length
    osp + 8 * n ≤ (s1.at t).osHi.toNat → (∀ k : Nat, k < n → PlainWord s1 t (osp + 8 * k)) → Allowed osp (8 * n) →
    ∃ m, OnlyWords s1 m p ((List.range n).map (fun k => osp + 8 * k))
      ∧ (∀ k : Nat, k < n → some (m.word p (osp + 8 * k)) = below.reverse[k]?)
      ∧ exec (.srw t 0x01) s = .next ((m.setThread p t.index { s1.at t with osp := addr }).goOn t 3 [] 0)
      ∧ exec (.srw t 0x02) s = .next ((m.setThread p t.index { s1.at t with
          osp := BitVec.ofNat 64 (osp + 8 * n), osLo := addr }).goOn t 3 [] 0)
      ∧ exec (.srw t 0x03) s = .next ((m.setThread p t.index { s1.at t with
          osp := BitVec.ofNat 64 (osp + 8 * n), osHi := addr }).goOn t 3 [] 0)

/-- `CORE_CLR` (R167): bit 1 clears the core's `CORE_ENTRY_SLOW`, bit 0 the writing thread's counts, and nothing else. -/
def CoreClearsItsCounts : Prop :=
  ∀ (s s1 : State) (t : Tid) (tag : Nat) (rest : List Slot),
    Ready s t 3 s1 → (s1.at t).status.getLsbD 8 = true → tag = 0 ∨ tag = 0x20 ∨ tag = 0x21 →
    let p := t.panel.val
    let c := t.index.val / 4
    let slow (u : State) : State := u.setCore p c { u.core p c with entrySlow := 0 }
    let own (u : State) : State := u.setThread p t.index { u.at t with
      specIssue := 0
      mispredict := 0
      misses := 0
      parked := 0
      hasParked := false }
    (Operands s1 t [tword tag 2] rest →
      exec (.coreClrCore t) s = .next ((slow s1).goOn t 3 rest 0) ∧ exec (.srw t 0x4B) s = .next ((slow s1).goOn t 3 rest 0))
    ∧ (Operands s1 t [tword tag 1] rest →
      exec (.coreClrThread t) s = .next ((own s1).goOn t 3 rest 0) ∧ exec (.srw t 0x4B) s = .next ((own s1).goOn t 3 rest 0))
    ∧ (Operands s1 t [tword tag 3] rest → exec (.coreClrCore t) s = .next ((own (slow s1)).goOn t 3 rest 0)
      ∧ exec (.coreClrThread t) s = .next ((own (slow s1)).goOn t 3 rest 0))

/-- `WFE`, `FENCE` and `YIELD` (R154, R186, R193, R208): `WFE` parks unless an event is already pending; `FENCE`
completes when no store of the thread is unanswered, and until then nothing changes; `YIELD` leaves the fetch turns to
the others of its core that are fetching. -/
def WaitingInstructionsComplete : Prop :=
  ∀ (s s1 : State) (t : Tid), Ready s t 1 s1 → Plain s1 t →
    let on := s1.goOn t 1 (s1.at t).stack 0
    (s1.candidates t.panel t.index = [] →
      exec (.wfe t) s = .next (on.setThread t.panel t.index { on.at t with park := some .wfe, hasParked := true }))
    ∧ (s1.candidates t.panel t.index ≠ [] → exec (.wfe t) s = .next on)
    ∧ ((s1.at t).stores = [] → exec (.fence t) s = .next on)
    ∧ ((s1.at t).stores ≠ [] → exec (.fence t) s = .next s1)
    ∧ ∃ l : List Nat, exec (.yield t) s = .next (on.setThread t.panel t.index { on.at t with yielded := l })
      ∧ ∀ i : Nat, i ∈ l ↔ i / 4 = t.index / 4 ∧ i ≠ t.index ∧ s1.fetching t.panel i = true

/-- Four words of banks 0 to 6 that a frame can take (R202). -/
def FrameWords (s : State) (t : Tid) (base : Nat) : Prop :=
  ∀ k : Nat, k < 4 → PlainWord s t (base + 8 * k) ∧ base + 8 * k < 0x1C0000

/-- The control stack takes the four words of a frame (R194, R202), and no injected difference awaits an output of the
core (R368). -/
def FrameRoom (s : State) (t : Tid) : Prop :=
  32 ≤ (s.at t).csp.toNat ∧ (s.at t).csLo.toNat ≤ (s.at t).csp.toNat - 32
    ∧ FrameWords s t ((s.at t).csp.toNat - 32) ∧ (s.core t.panel (t.index.val / 4)).inject = none

/-- The header word of a frame by its fields (R197). -/
def headerOf (kind code source prev orig : Nat) : Word :=
  BitVec.ofNat 64 (kind * 2 ^ 60 + code * 2 ^ 52 + source * 2 ^ 40 + prev * 2 ^ 32 + orig)

/-- The address of a vector (R194). -/
def vectorOf (s : State) (t : Tid) (vector : Nat) : Nat :=
  (((s.at t).vbase.toNat &&& (2 ^ 48 - 1 - 0x38)) + 64 * vector) % 2 ^ 48

/-- The handler begins (R194, R195): its address and status; the operand stack as it was. `f` says what the entry did to
other registers of the thread. -/
def Begins (s r : State) (t : Tid) (vector : Nat) (status : Word) (f : Thread → Thread) : Prop :=
  r.at t = f { s.at t with
      status := status
      pc := vectorOf s t vector
      park := none
      fault := none
      arrived := []
      missing := none
      entryLine := none
      yielded := []
      group := none }
  ∧ (∀ q i : Nat, q < 8 → i < 16 → (q, i) ≠ (t.panel.val, t.index.val) →
      { r.thread q i with yielded := [] } = { s.thread q i with yielded := [] })
  ∧ r = { s with threads := r.threads, free := r.free }

/-- The frame of a thread as it stands in `s` is written below a stack pointer (R197), header on top, if the panel has not
failed by then (R229). -/
def WritesFrame (s q u : State) (t : Tid) (sp : Nat) (header : Word) (ret : Nat) : Prop :=
  let p := t.panel.val
  ((q.at t).run ≠ .running → u = q)
  ∧ ((q.at t).run = .running → OnlyWords q u p [sp - 8, sp - 16, sp - 24, sp - 32]
    ∧ u.word p (sp - 8) = tword 0xC0 header
    ∧ u.word p (sp - 16) = tword 0xC1 (BitVec.ofNat 64 (ret % 2 ^ 48))
    ∧ u.word p (sp - 24) = tword 0xC2 (s.at t).status
    ∧ u.word p (sp - 32) = tword 0xC3 (BitVec.ofNat 64 (s.at t).depth))

/-- An entry (R161, R194, R195, R197): the handler begins, its first line is asked for (`EntryLinesAreFetched`), and the
frame is written below the control stack pointer. -/
def EntersAndFetches (c : Instr) (s s1 : State) (t : Tid) (header : Word) (ret vector : Nat) (status : Word)
    (f : Thread → Thread) : Prop :=
  let csp := (s1.at t).csp.toNat
  ∃ r u : State, exec c s = .next u
    ∧ Begins s1 r t vector status (fun th => f { th with csp := BitVec.ofNat 64 (csp - 32) })
    ∧ WritesFrame s1 (r.entryFetch t.panel t.index) u t csp header ret

/-- The fetch of a handler's line (R149, R154, R161, R162): nothing for a handler in a scratch bank; a line that the line
buffer, the L1 instruction cache or the L2 holds is at hand for the thread, and changes nothing but caches besides; and a
miss of the L2 is counted and parks the thread for it. -/
def EntryLinesAreFetched : Prop :=
  ∀ (u : State) (t : Tid) (a : Nat),
    let p := t.panel.val
    let c := t.index.val / 4
    let r := u.entryFetch p t.index
    let pc := (u.at t).pc / 8 * 8
    let way := (u.l1Set p c true (a / 64)).way (a / 64)
    (u.spot p t.index pc = .mem p a .bank → r = u)
    ∧ (u.spot p t.index pc = .mem p a .cached → u.flips = [] → (u.core p c).inject = none →
      (u.at t).entryLine ≠ some (a / 64) →
      ((u.core p c).lineBuf.contains (a / 64) = true ∨ way ≠ none ∨ u.inL2 p (a / 128) = true →
        r = { u.setThread p t.index { u.at t with entryLine := some (a / 64) } with cores := r.cores, panels := r.panels })
      ∧ ((u.core p c).lineBuf.contains (a / 64) = false → way = none → u.inL2 p (a / 128) = false →
        ∃ m : Word, m.toNat % 2 ^ 32 = (u.at t).misses.toNat % 2 ^ 32
          ∧ m.toNat / 2 ^ 32 = min ((u.at t).misses.toNat / 2 ^ 32 + 1) (2 ^ 32 - 1)
          ∧ r = u.setThread p t.index { u.at t with
              misses := m
              park := some .fetchMiss
              hasParked := true
              missing := some (64 * (a / 64), true) }))

/-- Entries by the thread's own instructions and faults (R187, R194 to R197): `SYSCALL` and `TRAP` retire and enter
their vectors, returning after themselves; a waiting fault enters the vector of its code, returning where its code says,
and a stack-order fault is counted (R211); `BRK` without `BRK_HALT` waits for the breakpoint fault, after itself. -/
def EntriesSaveTheThread : Prop :=
  ∀ (s s1 : State) (t : Tid) (n : Byte), Plain s1 t → (s1.at t).vbase.toNat < 2 ^ 48 → FrameRoom s1 t →
    let st := (s1.at t).status
    let prev := st.toNat % 32
    let next := (s1.at t).pc + 2
    let retires (th : Thread) : Thread := { th with retired := th.retired + 1 }
    (Ready s t 2 s1 →
      EntersAndFetches (.syscall t n) s s1 t (headerOf 2 n.toNat 0 prev 0) next (64 + n.toNat) (st ||| 0x100) retires
      ∧ EntersAndFetches (.trap t n) s s1 t (headerOf 3 n.toNat 0 prev 0) next (320 + n.toNat) (st ||| 0x100) retires)
    ∧ (∀ (s0 : State) (upsets : List Upset) (code ret : Nat) (again : Bool), s1 = s0.strike t.panel upsets →
      (s1.at t).fault = some (code, ret, again) → code < 15 →
      s1.mayEnter t.panel t.index = true → (s1.at t).double = false →
      EntersAndFetches (.faultEntry t upsets) s0
        (if code = SO then s1.count (evcPage t.panel 0) EVC_ORDER.COUNT 1 else s1) t
        (headerOf 1 code 0 prev 0) ret code (st ||| 0x100) id)
    ∧ (Ready s t 1 s1 → s1.flag easlPage EASL_CMD.BRK_HALT = false →
      exec (.brk t) s = .next (s1.setThread t.panel t.index { s1.at t with fault := some (BP, (s1.at t).pc + 1, true) }))

/-- `BRK` with `BRK_HALT` (R119, R364): the instruction retires, a halt of the panel is ordered, and the cause of the
slice's `HOLD` is the halt, code 4, unless a cause of a lower code has struck in the same tick (R328, R343). -/
def BreakpointsHaltThePanel : Prop :=
  ∀ (s s1 : State) (t : Tid), Ready s t 1 s1 → Plain s1 t → s1.flag easlPage EASL_CMD.BRK_HALT = true →
    s1.mode t.panel = RUN → s1.halted t.panel = false →
    ∃ u : State, exec (.brk t) s = .next u ∧ (u.panel t.panel).halting = true ∧ u.mode t.panel = HOLD
      ∧ (u.at t).retired = (s1.at t).retired + 1 ∧ (u.at t).pc = ((s1.at t).pc + 1) % 2 ^ 48
      ∧ (let last := s1.fld (modePage t.panel) MODE_STATE.LAST_CAUSE
         u.fld (modePage t.panel) MODE_STATE.LAST_CAUSE
          = if (s1.panel t.panel).causeAt = some s1.ticks ∧ last < 4 then last else 4)

/-- A presented interrupt (R161, R162, R195, R197, R207): the source that the controller's order puts first, if its
priority exceeds the thread's; the frame names it, and the handler runs at its priority. `CORE_ENTRY_SLOW` counts an
entry whose line is in neither the L1 instruction cache nor the L2. -/
def InterruptsEnterAtTheirPriority : Prop :=
  ∀ (s0 s : State) (t : Tid) (upsets : List Upset), s = s0.strike t.panel upsets →
    Plain s t → (s.at t).vbase.toNat < 2 ^ 48 → FrameRoom s t → s.mayPresent t.panel t.index = true →
    let p := t.panel.val
    let c := t.index.val / 4
    let st := (s.at t).status
    let prev := st.toNat % 32
    (∀ table src : Nat, s.best p t.index prev = some (table, src) → table < 2 → src < 1024 →
      let prio := s.srcPrio p table src
      let counted : State := if s.entryCached p t.index (vectorOf s t (32 + prio)) then s
        else s.setCore p c { s.core p c with
          entrySlow := BitVec.ofNat 64 (min ((s.core p c).entrySlow.toNat + 1) (2 ^ 32 - 1)) }
      ∃ v : Word, EntersAndFetches (.interruptPresentation t upsets) s0 counted t
        (headerOf 0 prio (1024 * table + src) prev 0) (s.at t).pc (32 + prio) ((st &&& ~~~0x1F) ||| 0x100 ||| BitVec.ofNat 64 prio)
        (fun th => { th with specIssue := v }))
    ∧ (s.best p t.index prev = none → exec (.interruptPresentation t upsets) s0 = .next s)

/-- The order of R207: what is chosen is pending, routed to the thread, not in service and above the floor; and of
these the highest priority, then the lower source number, then the own table. -/
def HighestPriorityIsPresented : Prop :=
  ∀ (s : State) (p t floor : Nat) (x : Nat × Nat), s.best p t floor = some x →
    floor < s.srcPrio p x.1 x.2 ∧ s.srcPending p x.1 x.2 = true ∧ s.inService p x.1 x.2 = false
    ∧ s.srcThread p x.1 x.2 = t
    ∧ ∀ y ∈ s.candidates p t, floor < s.srcPrio p y.1 y.2 → y = x
        ∨ s.srcPrio p y.1 y.2 < s.srcPrio p x.1 x.2
        ∨ (s.srcPrio p y.1 y.2 = s.srcPrio p x.1 x.2 ∧ (x.2 < y.2 ∨ (x.2 = y.2 ∧ x.1 ≤ y.1)))

/-- Double and third faults (R202, R203): an entry whose frame does not fit goes to vector 13 with its frame on the fault
stack; a fault in that handler fails the panel. -/
def FailedEntriesAreDoubleFaults : Prop :=
  ∀ (s0 s : State) (t : Tid) (upsets : List Upset) (code ret : Nat) (again : Bool), s = s0.strike t.panel upsets →
    Plain s t → (s.at t).fault = some (code, ret, again) → code < 15 → s.mayEnter t.panel t.index = true →
    let p := t.panel.val
    let fsp := (s.at t).fsp.toNat
    let csp := (s.at t).csp.toNat
    (s.core p (t.index.val / 4)).inject = none →
    ((s.at t).double = false → (csp < 32 ∨ csp - 32 < (s.at t).csLo.toNat) → 32 ≤ fsp → FrameWords s t (fsp - 32) →
      ∃ r u : State, exec (.faultEntry t upsets) s0 = .next u
        ∧ Begins (if code = SO then s.count (evcPage p 0) EVC_ORDER.COUNT 1 else s) r t 13 ((s.at t).status ||| 0x11F)
            (fun th => { th with fsp := BitVec.ofNat 64 (fsp - 32), double := true })
        ∧ WritesFrame s (r.entryFetch p t.index) u t fsp (headerOf 4 code 0 ((s.at t).status.toNat % 32) 1) ret)
    ∧ ((s.at t).double = true → s.mode p ≠ PRIME → (s.panel p).held = false →
      ∃ u : State, exec (.faultEntry t upsets) s0 = .next u ∧ (u.panel p).held = true)

/-- Claims (R209, R210): a claim takes into service what `R207`'s order puts first above the thread's last claim, and
returns its priority and value; with nothing to claim, or no room, it returns 0x3FF and is counted. -/
def ClaimsTakeIntoService : Prop :=
  ∀ (s s1 : State) (t : Tid), Ready s t 3 s1 → Plain s1 t → (s1.at t).stack.length ≤ 15 →
    let p := t.panel.val
    let c := t.index.val / 4
    let last : Nat := match (s1.core p c).prio.find? (fun x => decide (x.thread = t.index.val)) with
      | some x => x.prio
      | none => 0
    let returns (u : State) (w : Word) : Prop :=
      exec (.evcClaim t) s = .next (u.goOn t 3 (.word (tword 0x21 w) :: (s1.at t).stack) 0)
        ∧ exec (.srr t 0x50) s = .next (u.goOn t 3 (.word (tword 0x21 w) :: (s1.at t).stack) 0)
    (∀ table src : Nat, (s1.core p c).prio.length < 16 → s1.best p t.index last = some (table, src) →
      let prio := s1.srcPrio p table src
      ∃ u : State, returns u (BitVec.ofNat 64 (prio * 2 ^ 16 + 1024 * table + src))
        ∧ (u.core p c).prio = ⟨t.index, 1024 * table + src, prio⟩ :: (s1.core p c).prio
        ∧ u.inService p table src = true
        ∧ (s1.srcEdge p table src = true → u.srcPending p table src = false)
        ∧ u = { s1 with evServ := u.evServ, evPend := u.evPend, cores := u.cores })
    ∧ (s1.best p t.index last = none ∨ 16 ≤ (s1.core p c).prio.length → ∃ u : State, returns u 0x3FF
        ∧ u.fld (evcPage p 0) EVC_SPURIOUS.COUNT = min (s1.fld (evcPage p 0) EVC_SPURIOUS.COUNT + 1) (2 ^ 32 - 1)
        ∧ (16 ≤ (s1.core p c).prio.length → (u.fld (evcPage p 0) EVC_STATE.STACK_FULL).testBit c = true)
        ∧ u = { s1 with regs := u.regs })

/-- Completions (R211): 0x3FF does nothing; the thread's own last claim leaves its stack and service; any other value
takes the stack-order fault, which is counted when it is taken (R199). -/
def CompletionsFollowClaims : Prop :=
  ∀ (s s1 : State) (t : Tid) (tag : Nat) (v : Word) (rest : List Slot),
    Ready s t 3 s1 → Plain s1 t → tag = 0 ∨ tag = 0x20 ∨ tag = 0x21 → Operands s1 t [tword tag v] rest →
    let p := t.panel.val
    let c := t.index.val / 4
    let last := (s1.core p c).prio.find? (fun x => decide (x.thread = t.index.val))
    ((s1.at t).status.getLsbD 8 = false → exec (.evcComplete t) s = .next (s1.faults t PV))
    ∧ ((s1.at t).status.getLsbD 8 = true →
      (v.toNat % 2048 = 0x3FF → exec (.evcComplete t) s = .next (s1.goOn t 3 rest 0))
      ∧ (∀ x : Claim, v.toNat % 2048 ≠ 0x3FF → last = some x → x.value = v.toNat % 2048 →
        ∃ u : State, exec (.evcComplete t) s = .next (u.goOn t 3 rest 0)
          ∧ (u.core p c).prio = (s1.core p c).prio.erase x
          ∧ ((∀ k : Nat, k < 4 → ∀ y ∈ (u.core p k).prio, y.value ≠ x.value) →
            u.inService p (x.value / 1024) (x.value % 1024) = false)
          ∧ u.mem = s1.mem ∧ u.evPend = s1.evPend ∧ u.evArrived = s1.evArrived)
      ∧ (v.toNat % 2048 ≠ 0x3FF → (∀ x : Claim, last = some x → x.value ≠ v.toNat % 2048) →
        exec (.evcComplete t) s = .next (s1.faults t SO)))

/-- Events on their way (R20, R22, R206, R386): a transfer arrives at its due time and not before, and its port counts
it; a level source that is active is then pending; an event pin that changes, either way, sends a transfer to every panel,
and one that is high again ends its source as its transfer arrives. -/
def EventsArriveWhenDue : Prop :=
  ∀ s : State,
    (∀ (n : Nat) (e : EventTransfer), s.events[n]? = some e → e.source < 1024 →
      let table := if e.adopted then 1 else 0
      (s.ticks < e.due → exec (.eventArrival n) s = .next s)
      ∧ (e.due ≤ s.ticks → ∃ u : State, exec (.eventArrival n) s = .next u ∧ u.events = s.events.eraseIdx n
        ∧ u.regs = (s.noteFlit e.panel).regs ∧ u.mem = s.mem ∧ u.evServ = s.evServ
        ∧ (e.gone = true → e.adopted = false → 576 ≤ e.source → e.source < 592 →
          s.evtLow.getLsbD (e.source - 576) = false → u.sourceActive e.panel table e.source = false)
        ∧ (e.gone = false → s.srcPrio e.panel table e.source ≠ 0 → s.srcEdge e.panel table e.source = true →
          u.srcPending e.panel table e.source = true)
        ∧ (e.gone = false → s.srcPrio e.panel table e.source ≠ 0 → s.srcEdge e.panel table e.source = false →
          s.sourceActive e.panel table e.source = true → u.srcPending e.panel table e.source = true)))
    ∧ ∀ (pin : Fin 16) (low : Bool),
      (s.evtLow.getLsbD pin = low → exec (.eventPinChange pin low) s = .next s)
      ∧ (s.evtLow.getLsbD pin ≠ low → ∃ u : State, exec (.eventPinChange pin low) s = .next u
        ∧ u.evtLow = (if low then s.evtLow ||| (1#16 <<< pin.val) else s.evtLow &&& ~~~(1#16 <<< pin.val))
        ∧ u.events = s.events ++ s.slices.map (fun p => ⟨p, false, 576 + pin.val, s.ticks + 30, !low⟩)
        ∧ u = { s with evtLow := u.evtLow, events := u.events })

/-- The watcher (R216): a watched source that is pending during a rest wakes the slice to the mode from which it
rested, and is recorded with the tick. Nothing happens to a panel whose island runs. -/
def WatcherWakesTheSlice : Prop :=
  ∀ (s : State) (p : Slice),
    ((s.panel p).island = false → exec (.watcherWake p) s = .next s)
    ∧ ((s.panel p).island = true → (s.panel p).watched = [] → exec (.watcherWake p) s = .next s)
    ∧ ∀ v : Nat, (s.panel p).island = true → (s.panel p).watched = [v] → v < 2048 → s.under p < 6 →
      s.srcPending p (v / 1024) (v % 1024) = true →
      ∃ u : State, exec (.watcherWake p) s = .next u ∧ (u.panel p).island = false ∧ u.mode p = s.under p
        ∧ u.flag (evcPage p 0) EVC_WAKE.VALID = true ∧ u.fld (evcPage p 0) EVC_WAKE.SOURCE = v
        ∧ u.fld (evcPage p 0) EVC_WAKE.TICK = s.canvas % 2 ^ 48

/-- The lockstep comparator (R165, R368): a mismatch is recorded in `CORE_LOCKSTEP` and fails the panel, which is held;
a detect-only injection is seen and its event raised, with no failure. A load whose remote data fails takes a bus
error (R154, R180). -/
def MismatchFailsThePanel : Prop :=
  ∀ (s : State) (p : Slice) (core thread : Fin 4) (output : Fin 7),
    s.present p = true → (s.panel p).held = false → (s.panel p).resetting = none → (s.panel p).island = false →
    (s.mode p ≠ PRIME → (s.core p core).inject ≠ some (output.val, true) →
      ∃ u : State, exec (.lockstepMismatch p core thread output) s = .next u ∧ (u.panel p).held = true
        ∧ (u.panel p).lockstep = BitVec.ofNat 64 (2 ^ 63 + 64 * core + 16 * thread + output))
    ∧ ((s.core p core).inject = some (output.val, true) →
      ∃ u : State, exec (.lockstepMismatch p core thread output) s = .next u ∧ u.panels = s.panels
        ∧ (u.core p core).inject = none ∧ u.flag easlPage EASL_INJECT.SEEN = true
        ∧ (u.reg easlPage 0x020).getLsbD 4 = true)
    ∧ ∀ t : Tid, (s.at t).park = some .remoteLoad →
      exec (.remoteDramResponse t false) s = .next (s.setThread t.panel t.index { s.at t with park := none })
      ∧ ∃ u : State, exec (.remoteDramResponse t true) s = .next u ∧ u.mem = s.mem
        ∧ ((s.at t).fault = none → (u.at t).fault = some (BE, (s.at t).pc, true) ∧ (u.at t).park = none)
        ∧ (∀ (b : Nat) (l : List Nat), (s.at t).arrived = b :: l → b / 2 ^ 45 ≠ t.panel →
          (u.reg (fabPage t.panel) 0x020).getLsbD 4 = true)

/-- An injected difference (R164, R368; assumption 135): it shows at the first use of its output, here in the instruction
that retires next, `NOP`. A detect-only one lets the instruction be, is seen and raises its event; any other is a mismatch:
`CORE_LOCKSTEP` records it and the panel, which fails, is held. -/
def InjectedDifferencesShow : Prop :=
  ∀ (s u : State) (t : Tid) (detect : Bool),
    let p := t.panel.val
    let c := t.index.val / 4
    s.canRun p t.index = true → s.fetch p t.index 1 = .ok u → Plain u t →
    (u.core p c).inject = some (6, detect) → (u.at t).retired = (s.at t).retired →
    ∃ v : State, exec (.nop t) s = .next v
      ∧ (detect = true → (v.core p c).inject = none ∧ v.flag easlPage EASL_INJECT.SEEN = true
          ∧ (v.reg easlPage 0x020).getLsbD 4 = true ∧ (v.at t).retired = (u.at t).retired + 1)
      ∧ (detect = false → s.present p = true → s.mode p ≠ PRIME → (s.panel p).held = false → (v.panel p).held = true
          ∧ (v.panel p).lockstep = BitVec.ofNat 64 (2 ^ 63 + 64 * c + 16 * (t.index.val % 4) + 6))

/-- Long instructions, and those that wait. Assumptions 40, 42. -/
def Obligations.LongAndWaitingInstructions : Prop := LongInstructionsShowTheirProgress ∧ WaitingInstructionsComplete

/-- Reads and writes of special registers. Assumptions 48, 65. -/
def Obligations.SpecialRegistersReadAndWrite : Prop := SpecialRegistersRead ∧ SpecialRegistersWrite ∧ OperandStackWritesSpillFirst

/-- Clears of a page's counts, and of a core's. -/
def Obligations.ClearsClearOnlyTheirCounts : Prop := ClearsOfPages ∧ CoreClearsItsCounts

/-- Entries, and entries that fail. Assumption 76. -/
def Obligations.EntriesAndDoubleFaults : Prop :=
  EntriesSaveTheThread ∧ EntryLinesAreFetched ∧ FailedEntriesAreDoubleFaults

/-- What stops a panel: a breakpoint that halts it, a mismatch of its copies, whether injected or not; and the response of
another panel's DRAM. Assumptions 80, 135. -/
def Obligations.BreakpointsAndMismatches : Prop :=
  BreakpointsHaltThePanel ∧ MismatchFailsThePanel ∧ InjectedDifferencesShow

/-- Which interrupt a thread is presented, and its entry. Assumption 43. -/
def Obligations.InterruptsFollowPriority : Prop := InterruptsEnterAtTheirPriority ∧ HighestPriorityIsPresented

/-- Claims and completions. Assumption 44. -/
def Obligations.ClaimsAndCompletions : Prop := ClaimsTakeIntoService ∧ CompletionsFollowClaims

/-- Events reach their controller, and watched ones wake a resting slice. Assumptions 45, 46. -/
def Obligations.EventsArriveAndWake : Prop := EventsArriveWhenDue ∧ WatcherWakesTheSlice


/-! ### The sample path, comparators, the sweep -/

/-- The sample path (R53 to R68): what a reference tick hands over; calibration, which is refused while a closed loop
reads the converter; triggers; payload lines, which a lost tag of the L2 keeps from memory (R229); the schedule of the monitor converter, the rounding of a value between two
codes being free (assumption 23), and a change of it at the end of a conversion (assumption 97). A result is one of
several on their way. A command whose condition does not hold does nothing. Assumptions 9, 67, 94. -/
def Obligations.SamplesFollowTheirSchedule : Prop :=
  ∀ (s : State) (sec : Slice) (c : Fin 16) (ag : Agent),
    let pk := fadcPage sec c
    let v := s.conv sec c
    (∀ nv : Int,
      (s.referenceTick sec c = false → Idles (.fadcSample sec c nv) s)
      ∧ (s.referenceTick sec c = true → (∀ n : Nat, n < 16 → s.slotTakes sec n c = false) →
        let code : Int := max (-2048) (min ((2 * (nv * 2048) + 800000000) / 1600000000) 2047)
        ∃ w : Word, exec (.fadcSample sec c nv) s
            = .next (s.setConv sec c { v with
              handed := v.handed ++ [(s.ticks, w)]
              lastRef := some s.ticks
              map := v.nextMap.getD v.map
              nextMap := none })
          ∧ w.toNat / 2 ^ 32 = s.canvas % 2 ^ 32 ∧ signed 12 w.toNat = code
          ∧ (w.getLsbD 14 = true ↔ s.sfld pk FADC_RANGE.HI < code ∨ code < s.sfld pk FADC_RANGE.LO)
          ∧ (w.getLsbD 13 = true ↔ 1600000000 - 390625 < 2 * nv ∨ nv < -800000000)
          ∧ w.getLsbD 15 = s.supply.dip))
    ∧ (let free : Prop := s.mode sec = COMMISSION ∨ s.mode sec = HOLD ∨ ∀ n : Nat, n < 16 →
          ¬ (s.flag (loopPage sec n) LOOP_STATUS.CLOSED = true ∧ s.flag (loopPage sec n) LOOP_CFG.EN = true
            ∧ s.fld (loopPage sec n) LOOP_CFG.SRC = c)
      (s.flag pk FADC_CAL.BUSY = true → Accepts (.fadcCalStart ag sec c) s ag pk 0x118 s)
      ∧ (s.flag pk FADC_CAL.BUSY = false → free → Accepts (.fadcCalStart ag sec c) s ag pk 0x118
          ((s.setFld pk FADC_CAL.BUSY 1).setConv sec c { v with calEnd := some (s.ticks + 1 + 51200) }))
      ∧ (s.flag pk FADC_CAL.BUSY = false → ¬ free → Accepts (.fadcCalStart ag sec c) s ag pk 0x118 (s.raise pk 4)))
    ∧ (∀ gain offset : BitVec 16,
      (v.calEnd ≠ some s.ticks → Idles (.fadcCalDone sec c gain offset) s)
      ∧ (v.calEnd = some s.ticks → Gives (.fadcCalDone sec c gain offset) s (fun u =>
          u.fld pk FADC_CAL_RESULT.GAIN = gain.toNat ∧ u.fld pk FADC_CAL_RESULT.OFFSET = offset.toNat
          ∧ u.flag pk FADC_CAL.CAL_DUE = false ∧ u.flag pk FADC_CAL.BUSY = false ∧ Raised u pk 3
          ∧ (u.conv sec c).calEnd = none ∧ u.mem = s.mem)))
    ∧ (s.flag pk FADC_TRIG.ARM = false →
      exec (.fadcTrigFire sec c) s = .next { s with seen := s.seen ++ [⟨sec, 0, c, s.ticks⟩] })
    ∧ (s.flag pk FADC_TRIG.ARM = true → Gives (.fadcTrigFire sec c) s (fun u =>
        u.flag pk FADC_TRIG.ARM = false ∧ (u.conv sec c).trigger = some s.ticks ∧ Raised u pk 6 ∧ u.mem = s.mem
        ∧ (s.flag pk FADC_TRIG.LINK_OUT = true → Store.read 0 u.freezeLines (sec * 16 + c) = s.ticks)))
    ∧ (∀ ok : Bool, v.line = [] → Idles (.streamPayload sec c ok) s)
    ∧ (∀ (j : Nat) (ws : List Word), ws.length = 16 → v.line = ws.mapIdx (fun i w => (16 * j + i, w)) → v.freezeAt = none →
        let room := s.fld pk FADC_RING_SIZE.SIZE * 16
        let at_ (i : Nat) : Nat := s.fld pk FADC_RING_BASE.ADDR * 128 + (16 * j + i) % room * 8
        room ≠ 0 →
        (s.ringReaches pk (at_ 0) = true → (∀ i : Nat, i < 16 → at_ i < 2 ^ 48) →
          s.tagLost (s.holder pk) (at_ 0 / 128) = false →
          Gives (.streamPayload sec c true) s (fun u => (u.conv sec c).line = [] ∧ u.regs = s.regs
            ∧ ∀ (i : Nat) (w : Word), ws[i]? = some w → u.word (s.holder pk) (at_ i) = tword 0 w))
        ∧ (s.ringReaches pk (at_ 0) = true → dramBase ≤ at_ 0 → s.tagLost (s.holder pk) (at_ 0 / 128) = true →
          Gives (.streamPayload sec c true) s (fun u => (u.conv sec c).line = [] ∧ u.mem = s.mem
            ∧ (u.panel (s.holder pk)).tagHit = true))
        ∧ Gives (.streamPayload sec c false) s (fun u => (u.conv sec c).line = [] ∧ u.mem = s.mem ∧ Raised u pk 8
            ∧ u.fld pk FADC_RING_DROPPED.DROPPED = min (s.fld pk FADC_RING_DROPPED.DROPPED + 16) (2 ^ 32 - 1)))
    ∧ ∀ nv : Nat,
      let m := s.monitor sec
      let mp := madcPage sec
      let due : Prop := m.running = true ∧ s.present sec = true ∧ m.began + m.acq + 500 = s.ticks
      (¬ due → Idles (.madcConversionEnd sec nv) s)
      ∧ (due → ∃ code : Nat,
        (code = min (nv * 65536 / 1500000000) 65535
          ∨ (nv * 65536 % 1500000000 ≠ 0 ∧ code = min (nv * 65536 / 1500000000 + 1) 65535))
        ∧ (m.done + 1 < 2 ^ m.avg → m.changed = false → Gives (.madcConversionEnd sec nv) s (fun u =>
            u.monitor sec = { m with
              done := m.done + 1
              sum := m.sum + code
              began := s.ticks
              dip := m.dip || s.supply.dip }
            ∧ u = { s with monitors := u.monitors, free := u.free }))
        ∧ (m.done + 1 < 2 ^ m.avg → m.changed = true → Gives (.madcConversionEnd sec nv) s (fun u =>
            u = { s with monitors := u.monitors, free := u.free }
            ∧ (s.fld mp MADC_SCHED.LEN = 0 → (u.monitor sec).running = false)
            ∧ (s.fld mp MADC_SCHED.LEN ≠ 0 → (u.monitor sec).running = true ∧ (u.monitor sec).done = 0
              ∧ (u.monitor sec).changed = false ∧ (u.monitor sec).began = s.ticks
              ∧ (u.monitor sec).entry = if m.entry + 1 < s.fld mp MADC_SCHED.LEN then m.entry + 1 else 0)))
        ∧ (2 ^ m.avg ≤ m.done + 1 → m.entry < 16 → Gives (.madcConversionEnd sec nv) s (fun u =>
            let mean := (m.sum + code) / 2 ^ m.avg
            let out : Prop := s.flag mp (MADC_LIMIT.EN.at (8 * m.entry)) = true
              ∧ (s.fld mp (MADC_LIMIT.HI.at (8 * m.entry)) < mean ∨ mean < s.fld mp (MADC_LIMIT.LO.at (8 * m.entry)))
            (mean < 65536 → u.fld mp (MADC_RESULT.CODE.at (8 * m.entry)) = mean
              ∧ u.fld mp (MADC_RESULT.TICK.at (8 * m.entry)) = s.canvas % 2 ^ 32
              ∧ (u.flag mp (MADC_RESULT.OUT.at (8 * m.entry)) = true ↔ out)
              ∧ u.flag mp (MADC_RESULT.DIP.at (8 * m.entry)) = m.dip)
            ∧ (out → Raised u mp 1) ∧ (m.dip = true → Raised u mp 2)
            ∧ (s.fld mp MADC_SCHED.LEN ≤ m.entry + 1 → Raised u mp 0)
            ∧ (s.fld mp MADC_SCHED.LEN = 0 → (u.monitor sec).running = false)
            ∧ (s.fld mp MADC_SCHED.LEN ≠ 0 → (u.monitor sec).running = true ∧ (u.monitor sec).done = 0
              ∧ (u.monitor sec).began = s.ticks
              ∧ (u.monitor sec).entry = if m.entry + 1 < s.fld mp MADC_SCHED.LEN then m.entry + 1 else 0))))

/-- Comparators (R70 to R76): outputs by threshold and hysteresis of the input as it reaches the core, latched as
events; the check, step by step, against the outputs each row expects. Assumptions 9, 27. -/
def Obligations.ComparatorsWatchTheirWindow : Prop :=
  ∀ (s : State) (sec : Slice) (c : Fin 32) (ag : Agent),
    let pk := wcmpPage sec c
    let k := s.cmp sec c
    let sel := s.fld pk WCMP_CFG.SEL
    (∀ (nv : Int) (held : Bool) (sub : Fin 64),
      (s.present sec = false → Idles (.comparatorCrossing sec c nv held sub) s)
      ∧ (s.present sec = true → k.check = none → sel = 1 ∨ sel = 2 → s.fld pk WCMP_CFG.TIE = 0 →
        s.swept sec c = false →
        let x := if s.flag pk WCMP_CFG.SWAP = true then (if sel = 1 then -nv else 1600000000 - nv) else nv
        let level (code : Nat) : Int := (if sel = 1 then (code : Int) - 512 else (code : Int)) * 1562500
        let hi := level (s.fld pk WCMP_THRESH.HI)
        let lo := level (s.fld pk WCMP_THRESH.LO)
        let hy : Int := match s.fld pk WCMP_CFG.HYST with
          | 0 => 0
          | 1 => 5000000
          | 2 => 10000000
          | _ => 20000000
        Gives (.comparatorCrossing sec c nv held sub) s (fun u =>
          (hi < x → (u.cmp sec c).above = true) ∧ (x < hi - hy → (u.cmp sec c).above = false)
          ∧ (hi - hy ≤ x → x ≤ hi → (u.cmp sec c).above = k.above)
          ∧ (x < lo → (u.cmp sec c).below = true) ∧ (lo + hy < x → (u.cmp sec c).below = false)
          ∧ (lo ≤ x → x ≤ lo + hy → (u.cmp sec c).below = k.below)
          ∧ (hi < x → k.above = false → held = true → Raised u pk 0)
          ∧ (x < lo → k.below = false → held = true → Raised u pk 1))))
    ∧ (s.mayCheck sec c = true → AcceptsTo (.wcmpCheckStart ag sec c) s ag pk 0x118 (fun u =>
        (u.cmp sec c).check = some ⟨s.ticks, 0, 0, s.fld pk WCMP_THRESH.HI, s.fld pk WCMP_THRESH.LO⟩))
    ∧ (s.mayCheck sec c = false → Accepts (.wcmpCheckStart ag sec c) s ag pk 0x118
        ((s.setFld pk WCMP_CHECK.RESULT 0).raise pk 3))
    ∧ (∀ above below : Bool,
      (k.check = none → Idles (.checkStep sec c above below) s)
      ∧ ∀ start step results hi lo : Nat, k.check = some ⟨start, step, results, hi, lo⟩ →
        (6 ≤ step ∨ s.ticks ≠ start + 16 * (step + 1) → Idles (.checkStep sec c above below) s)
        ∧ (step < 6 → s.ticks = start + 16 * (step + 1) → Gives (.checkStep sec c above below) s (fun u =>
          let good : Prop := (step = 1 ∧ above = true ∧ below = false) ∨ (step = 2 ∧ above = false ∧ below = true)
            ∨ (step = 3 ∧ above = false ∧ below = false) ∨ (step = 4 ∧ above = false ∧ below = true)
          ∃ bit_ : Nat, (good → bit_ = 2 ^ (step - 1)) ∧ (¬ good → bit_ = 0)
            ∧ (u.cmp sec c).check = some ⟨start, step + 1, results + bit_, hi, lo⟩)))
    ∧ (k.check = none → Idles (.checkDone sec c) s)
    ∧ ∀ start step results hi lo : Nat, k.check = some ⟨start, step, results, hi, lo⟩ →
        (step ≠ 6 ∨ s.ticks ≠ start + 112 → Idles (.checkDone sec c) s)
        ∧ (step = 6 → s.ticks = start + 112 → results < 16 → Gives (.checkDone sec c) s (fun u =>
          (u.cmp sec c).check = none ∧ u.fld pk WCMP_CHECK.RESULT = results ∧ Raised u pk 2
          ∧ (u.flag pk WCMP_STATE.FAILED = true ↔ results ≠ 15) ∧ (results ≠ 15 → Raised u pk 3)))

/-- The sweep (R78 to R81): a `GO` is refused while a sweep runs or its target may not be tested; a ramp or a search
then drives the target's high threshold, a step at each dwell; a crossing, the last code or a stop ends it. A `GO` during
the return of an earlier target begins all the same. A setting outside the limits is a host error (R3). Assumptions 8,
26, 67, 98, 99. -/
def Obligations.SweepsDriveTheirTarget : Prop :=
  ∀ (s : State) (sec : Slice) (ag : Agent),
    let pk := sweepPage sec
    let w := s.sweep sec
    let target := s.fld pk SWEEP_CFG.TARGET
    let mode := s.fld pk SWEEP_CFG.MODE
    let dwell := s.fld pk SWEEP_CFG.DWELL
    let busy := s.flag pk SWEEP_RESULT.BUSY
    (busy = true ∨ s.mayCheck sec target = false →
      exec (.sweepGo sec) s = .next ((s.setFld pk SWEEP_RESULT.REFUSED 1).raise pk 2))
    ∧ (busy = false → s.mayCheck sec target = true →
      (mode = 0 → exec (.sweepGo sec) s = .next (s.setFld pk SWEEP_RESULT.REFUSED 0))
      ∧ (mode ≠ 0 → s.sweepIllegal sec = true → exec (.sweepGo sec) s = .next (s.err pk))
      ∧ (mode ≠ 0 → s.sweepIllegal sec = false → Gives (.sweepGo sec) s (fun u =>
        u.flag pk SWEEP_RESULT.BUSY = true ∧ u.flag pk SWEEP_RESULT.REFUSED = false
        ∧ u.flag pk SWEEP_RESULT.DONE = false ∧ (u.sweep sec).phase = .handover ∧ (u.sweep sec).target = target
        ∧ (u.sweep sec).mode = mode ∧ (u.sweep sec).start = s.ticks
        ∧ (w.phase = .returning → (w.target, w.endAt) ∈ (u.sweep sec).back))))
    ∧ (w.phase = .idle → w.back = [] → Idles (.sweepStep sec) s)
    ∧ (w.phase = .idle → w.back ≠ [] → (∀ x ∈ w.back, x.2 + 16 ≤ s.ticks) →
      Gives (.sweepStep sec) s (fun u => (u.sweep sec).back = [] ∧ (u.sweep sec).phase = .idle))
    ∧ (w.phase = .handover → w.back = [] →
      (s.ticks ≠ w.start + 16 → Idles (.sweepStep sec) s)
      ∧ (s.ticks = w.start + 16 → Gives (.sweepStep sec) s (fun u =>
        (u.sweep sec).phase = .driving ∧ (u.sweep sec).stepAt = s.ticks
        ∧ (u.sweep sec).code = if w.mode = 3 then 2 ^ (s.sweepBits sec - 1) else s.fld pk SWEEP_RAMP.FROM)))
    ∧ (w.phase = .driving → w.back = [] →
      (s.ticks ≠ w.stepAt + dwell → Idles (.sweepStep sec) s)
      ∧ (s.ticks = w.stepAt + dwell → w.mode = 2 → w.code ≠ s.fld pk SWEEP_RAMP.TO → Gives (.sweepStep sec) s (fun u =>
        (u.sweep sec).stepAt = s.ticks ∧ (u.sweep sec).phase = .driving
        ∧ (w.code < s.fld pk SWEEP_RAMP.TO →
          (u.sweep sec).code = min (w.code + s.fld pk SWEEP_RAMP.STEP) (s.fld pk SWEEP_RAMP.TO))
        ∧ (s.fld pk SWEEP_RAMP.TO < w.code →
          (u.sweep sec).code = max (w.code - s.fld pk SWEEP_RAMP.STEP) (s.fld pk SWEEP_RAMP.TO))))
      ∧ (s.ticks = w.stepAt + dwell → w.mode = 3 → 0 < w.bit → Gives (.sweepStep sec) s (fun u =>
        (u.sweep sec).bit = w.bit - 1 ∧ (u.sweep sec).stepAt = s.ticks
        ∧ (u.sweep sec).code
          = (if (s.cmp sec w.target).wasAbove then w.code else w.code - 2 ^ w.bit) + 2 ^ (w.bit - 1))))
    ∧ (w.phase = .returning → w.back = [] → s.ticks = w.endAt + 16 →
        Gives (.sweepStep sec) s (fun u => (u.sweep sec).phase = .idle))
    ∧ (busy = false → Idles (.sweepEnd sec) s ∧ Accepts (.sweepStop ag sec) s ag pk 0x110 s)
    ∧ (busy = true → Accepts (.sweepStop ag sec) s ag pk 0x110
        (s.setSweep sec { w with stop := true, endAt := s.ticks + 1 }))
    ∧ (busy = true → w.stop = true → w.endAt ≤ s.ticks → Gives (.sweepEnd sec) s (fun u =>
        u.flag pk SWEEP_RESULT.BUSY = false ∧ u.flag pk SWEEP_RESULT.DONE = true ∧ Raised u pk 0
        ∧ u.fld pk SWEEP_RESULT.CODE = s.fld pk SWEEP_RESULT.CODE ∧ (u.sweep sec).phase ≠ .driving))
    ∧ (busy = true → w.stop = false → w.phase = .driving → w.mode = 2 → w.first.isSome = true →
        w.start + 18 ≤ s.ticks → some (s.cmp sec w.target).wasAbove ≠ w.first →
        Gives (.sweepEnd sec) s (fun u => u.flag pk SWEEP_RESULT.BUSY = false ∧ u.flag pk SWEEP_RESULT.CROSS = true
          ∧ (w.code < 4096 → u.fld pk SWEEP_RESULT.CODE = w.code) ∧ u.fld pk SWEEP_RESULT.TICK = s.canvas % 2 ^ 32
          ∧ Raised u pk 0 ∧ Raised u pk 1 ∧ (u.sweep sec).phase = .returning))
    ∧ (busy = true → w.stop = false → w.phase = .driving → w.mode = 3 → w.bit = 0 → s.ticks = w.stepAt + dwell →
        Gives (.sweepEnd sec) s (fun u => u.flag pk SWEEP_RESULT.BUSY = false ∧ u.flag pk SWEEP_RESULT.CROSS = false
          ∧ (w.code < 4096 → u.fld pk SWEEP_RESULT.CODE
              = if (s.cmp sec w.target).wasAbove then w.code else w.code - 1)))

/-! ### Pulses, trips, loops -/

/-- A pair's counter and outputs (R83, R84, R86, R88, R90 to R92, R94, R98, R99, R101, R110): starts and stops, wraps, the
edges of the raw signal at the positions of the compare values, dead times, narrow intervals and the stipple lines.
Instants are counted in stipple steps, 64 to a tick. A period beyond 2^20 is a host error of the pair (R4). Assumptions 8,
28, 29, 30, 68, 100. -/
def Obligations.PairsFollowTheirCounters : Prop :=
  ∀ (s : State) (sec : Slice) (p : Fin 16),
    let pk := pwmpPage sec p
    let v := s.pair sec p
    let period : Nat := max 4 (s.fld pk PWMP_PERIOD.VALUE)
    let step_ : Nat := 2 ^ s.fld pk PWMP_CFG.PRESC
    let begins (u : State) (n : Nat) : Prop :=
      (u.pair sec p).running = true ∧ (u.pair sec p).wraps = n ∧ (u.pair sec p).wrapTick = s.ticks
        ∧ u.fld pk PWMP_WRAP.TICK = s.canvas % 2 ^ 62
        ∧ (u.pair sec p).dtRise = s.fld pk PWMP_DEADTIME.DT_RISE ∧ (u.pair sec p).dtFall = s.fld pk PWMP_DEADTIME.DT_FALL
        ∧ (s.fld pk PWMP_CFG.WRAP_DIV ≠ 0 → n % s.fld pk PWMP_CFG.WRAP_DIV = 0 → Raised u pk 0)
    let leads (u : State) : Prop :=
      (u.pair sec p).period = period ∧ (u.pair sec p).endTick = s.ticks + period * step_
        ∧ (s.fld pk PWMP_PERIOD.VALUE < 4 → Raised u pk 5)
    let off (u : State) : Prop :=
      (u.pair sec p).running = false ∧ (u.pair sec p).a = false ∧ (u.pair sec p).b = false
    (s.present sec = true → s.mode sec ≠ PRIME → 16 ≤ v.leader → v.running = false →
      (s.fld pk PWMP_PERIOD.VALUE ≤ 2 ^ 20 → Gives (.pwmStart sec p) s (fun u => begins u 1 ∧ leads u
        ∧ ((u.pair sec p).stopAsked = true ↔ v.stopAt = some s.ticks)))
      ∧ (2 ^ 20 < s.fld pk PWMP_PERIOD.VALUE → Gives (.pwmStart sec p) s (fun u => pk ∈ u.upset)))
    ∧ (v.leader < 16 ∨ v.running = true → Idles (.pwmStart sec p) s)
    ∧ (v.leader < 16 → Idles (.pwmStop sec p) s)
    ∧ (16 ≤ v.leader → exec (.pwmStop sec p) s
        = .next (s.setPair sec p { v with stopAsked := v.running, stopAt := some s.ticks }))
    ∧ (16 ≤ v.leader → v.running = false ∨ s.ticks ≠ v.endTick → Idles (.pwmpWrap sec p) s)
    ∧ (v.leader < 16 → s.followerDue sec p = false → Idles (.pwmpWrap sec p) s)
    ∧ (s.present sec = true → s.mode sec ≠ PRIME →
      (s.fld pk PWMP_CFG.SYNC = v.leader →
        (16 ≤ v.leader → v.running = true → s.ticks = v.endTick →
          let stops : Prop := v.stopAsked = true ∨ (s.flag pk PWMP_CFG.ONE_SHOT = true ∧ v.wraps = 1)
          (stops → Gives (.pwmpWrap sec p) s off)
          ∧ (¬ stops → s.fld pk PWMP_PERIOD.VALUE ≤ 2 ^ 20 → Gives (.pwmpWrap sec p) s (fun u =>
              begins u (v.wraps + 1) ∧ leads u
              ∧ (u.pair sec p).past = (⟨v.wrapTick, v.period, v.presc⟩ :: v.past).filter
                (fun w => decide (s.ticks < w.tick + w.period * w.presc))
              ∧ (v.early = true → Raised u pk 4)))
          ∧ (¬ stops → 2 ^ 20 < s.fld pk PWMP_PERIOD.VALUE → Gives (.pwmpWrap sec p) s (fun u => pk ∈ u.upset)))
        ∧ (v.leader < 16 → s.followerDue sec p = true →
          let l := s.pair sec v.leader
          let halts : Prop := l.running = false ∨ ∃ k : Nat, l.stopped = some k ∧ v.wrapTick ≤ k
          (v.running = false → Gives (.pwmpWrap sec p) s (fun u => begins u 1))
          ∧ (v.running = true → ¬ halts → Gives (.pwmpWrap sec p) s (fun u => begins u (v.wraps + 1)))
          ∧ (v.running = true → halts → Gives (.pwmpWrap sec p) s off)))
      ∧ (s.fld pk PWMP_CFG.SYNC ≠ v.leader → 16 ≤ v.leader → v.running = true → s.ticks = v.endTick →
        Gives (.pwmpWrap sec p) s (fun u => off u ∧ (u.pair sec p).leader = s.fld pk PWMP_CFG.SYNC)))
    ∧ (v.roseA = false → v.riseAtA = none → s.cmpVal sec p 0 < s.cmpVal sec p 1 →
        s.cmpVal sec p 0 / 64 < s.periodNow sec p →
        s.riseDue sec p false = some ((v.wrapTick + s.cmpVal sec p 0 / 64 * s.stepNow sec p) * 64
          + s.cmpVal sec p 0 % 64 + v.phase))
    ∧ (s.cmpVal sec p 1 ≤ s.cmpVal sec p 0 → s.riseDue sec p false = none)
    ∧ (∀ second rise : Bool,
      let due := if rise then s.riseDue sec p second else s.fallDue sec p second
      let now := if second then v.sB else v.s
      let cancels : Prop := rise = true ∧ s.fallDue sec p second = due
      (v.running = false ∨ now = rise ∨ s.isNext sec p due = false → Idles (.rawEdge sec p second rise) s)
      ∧ (v.running = true → now ≠ rise → s.isNext sec p due = true → Gives (.rawEdge sec p second rise) s (fun u =>
        (¬ cancels → (second = false → (u.pair sec p).s = rise) ∧ (second = true → (u.pair sec p).sB = rise))
        ∧ (cancels → (u.pair sec p).s = v.s ∧ (u.pair sec p).sB = v.sB ∧ (u.pair sec p).a = v.a ∧ (u.pair sec p).b = v.b)
        ∧ (second = true → v.outMode ≠ 1 → (u.pair sec p).a = v.a ∧ (u.pair sec p).b = v.b)
        ∧ (∀ (i : Nat) (on : Interval), second = false → rise = false → v.outMode = 0 → due = some i → v.skipFall = false →
            v.intA = some on →
            (i < on.start + on.width → (u.pair sec p).a = v.a ∧ (on.narrow = false →
              s.tripped sec p = false → Raised u pk 3 ∨ on.counted = true))
            ∧ (on.start + on.width ≤ i →
              ((u.pair sec p).a = false ∧ (u.pair sec p).onB = some (i + v.dtFall))
              ∨ ((u.pair sec p).skipRise = true ∧ (u.pair sec p).a = v.a ∧ (s.tripped sec p = false → Raised u pk 1)))))))
    ∧ (∀ out : Out,
      let at_ := match out with
        | .a => v.onA
        | .b => v.onB
      let other := s.expiry sec p out
      (s.isNext sec p at_ = false → Idles (.deadTimeExpiry sec p out) s)
      ∧ (s.isNext sec p at_ = true → Gives (.deadTimeExpiry sec p out) s (fun u => match out with
        | .a => (u.pair sec p).a = true ∧ (u.pair sec p).onA = none ∧ (u.pair sec p).b = v.b
        | .b => (u.pair sec p).b = true ∧ (u.pair sec p).onB = none ∧ (u.pair sec p).a = v.a))
      ∧ (s.isNext sec p other = false → Idles (.minPulseExpiry sec p out) s)
      ∧ (∀ i : Nat, other = some i → s.isNext sec p other = true → v.outMode = 0 →
        Gives (.minPulseExpiry sec p out) s (fun u => match out with
          | .a => ((u.pair sec p).a = false ∧ (u.pair sec p).onB = some (i + v.dtFall))
              ∨ ((u.pair sec p).skipRise = true ∧ (s.tripped sec p = false → Raised u pk 1))
          | .b => ((u.pair sec p).b = false ∧ (u.pair sec p).onA = some (i + v.dtRise))
              ∨ ((u.pair sec p).skipFall = true ∧ (s.tripped sec p = false → Raised u pk 1)))))
    ∧ ∀ (taps : List (Nat × Nat)) (lines : List Nat),
      let near (x y : Nat) : Prop := 72 ≤ y ∧ y ≤ 123 ∧ y ≤ x + 4 ∧ x ≤ y + 4
      (s.present sec = false ∨ s.ticks % 4096 ≠ 0 → Idles (.stippleCalibration sec taps lines) s)
      ∧ (s.present sec = true → s.ticks % 4096 = 0 →
        (∀ a b : Nat, taps[p.val]? = some (a, b) → a < 128 → b < 128 →
          let goodA : Prop := near (s.fld pk PWMP_STIPPLE.TAPS_A) a
          let goodB : Prop := near (s.fld pk PWMP_STIPPLE.TAPS_B) b
          Gives (.stippleCalibration sec taps lines) s (fun u =>
            u.fld pk PWMP_STIPPLE.TAPS_A = a ∧ u.fld pk PWMP_STIPPLE.TAPS_B = b
            ∧ (u.pair sec p).tapsA = v.tapsA ∧ (u.pair sec p).tapsB = v.tapsB
            ∧ (goodA → (u.pair sec p).nextA = some a) ∧ (¬ goodA → (u.pair sec p).nextA = none)
            ∧ (goodB → (u.pair sec p).nextB = some b) ∧ (¬ goodB → (u.pair sec p).nextB = none)
            ∧ ((u.pair sec p).lockNext = true ↔ goodA ∧ goodB)
            ∧ (¬ (goodA ∧ goodB) → u.flag pk PWMP_STIPPLE.LOCKED = false
              ∧ (s.flag pk PWMP_STIPPLE.LOCKED = true → Raised u pk 6))))
        ∧ (∀ x : Nat, lines[p.val]? = some x → Gives (.stippleCalibration sec taps lines) s (fun u =>
          (u.conv sec p).span = x ∧ (u.conv sec p).map = (s.conv sec p).map
          ∧ (near (s.conv sec p).span x → (u.conv sec p).nextMap = some x)
          ∧ (¬ near (s.conv sec p).span x → (u.conv sec p).nextMap = none))))

/-- Trips (R106 to R109, R112, R115, R116, R118, R119): a source that no window blanks, be it a pin, a comparator or a
package line, sets the latches of the pairs that hold it in their mask and ends the cycle of the others; a latch stands
until a clear finds its sources quiet, and with the clear of the last pair that drives it a package line ends; the loss of the canvas clock holds every slice. The network takes two of its three copies. Assumptions 25, 101, 102. -/
def Obligations.TripsStandUntilCleared : Prop :=
  ∀ (s : State) (sec : Slice),
    let pk := tripPage sec
    let stand (u : State) : Prop := ∀ q : Nat, s.latched sec q = true → u.latched sec q = true
    (∀ (src : Fin 76) (sub : Fin 64),
      (s.present sec = false → Idles (.tripSourceActive sec src sub) s)
      ∧ (s.present sec = true →
        (if 64 ≤ src.val ∧ src.val < 72 then (s.fld pk TRIP_EXT_CFG.EN).testBit (src - 64) = true
          else (s.sources sec).getLsbD src = true) → Gives (.tripSourceActive sec src sub) s (fun u =>
          stand u ∧ (64 ≤ src.val → src.val < 72 → (u.trip sec).pinsLow.getLsbD (src - 64) = true)
          ∧ (u.trip sec).active.getLsbD src = true
          ∧ ∀ p : Fin 16,
            (s.windowClose sec p ≤ s.ticks ∨ 72 ≤ src.val ∨ (s.unblankable sec).getLsbD src = true) →
            ((s.latMask sec p).getLsbD src = true → u.latched sec p = true
              ∧ (s.latched sec p = false → Raised u pk p
                ∧ u.fld pk (TRIP_PAIR_CAUSE.TICK.at (0x40 * p)) =
                  (if sub = 0 then s.canvas else s.canvasNext.getD (s.canvas + 1)) % 2 ^ 48
                ∧ (s.flag pk (TRIP_PAIR_CFG.FATAL.at (0x40 * p)) = true → s.mode sec = RUN → u.mode sec = HOLD)))
            ∧ ((s.cbcMask sec p).getLsbD src = true → (u.trip sec).cbc.getLsbD p = true ∨ u.pairSafe sec p = true))))
    ∧ (∀ pin : Fin 8, Gives (.tripPinInactive sec pin) s (fun u =>
        stand u ∧ (u.trip sec).pinsLow.getLsbD pin = false ∧ (u.trip sec).active.getLsbD (64 + pin) = false
        ∧ ((s.trip sec).active.getLsbD (64 + pin) = true →
          Store.read 0 (u.trip sec).quietFrom (64 + pin.val) = s.ticks)))
    ∧ (∀ p : Fin 16,
      let bcast : Prop := ∃ n : Nat, n < 4 ∧ (s.fld pk (TRIP_BCAST.PAIRS.at (8 * n))).testBit p = true
      let m := s.latMask sec p
      let active : Prop := (s.trip sec).active &&& m ≠ 0
      let pending (u : State) := u.flag pk (TRIP_PAIR_STATE.CLEAR_PENDING.at (0x40 * p))
      let still (u : State) := u.flag pk (TRIP_PAIR_STATE.STILL_ACTIVE.at (0x40 * p))
      let cleared (u : State) : Prop := u.latched sec p = false ∧ pending u = false ∧ still u = false
        ∧ ∀ q : Nat, q ≠ p → u.latched sec q = s.latched sec q
      let settled : Prop := ∀ sl q : Nat, s.present sl = true → q < 16 →
        s.sources sl &&& ~~~(s.trip sl).active = 0 ∧ (s.sources sl &&& s.latMask sl q ≠ 0 → s.latched sl q = true)
      let ends (u : State) : Prop := cleared u ∧ ∀ n : Nat, n < 4 →
        (∀ sl q : Nat, s.present sl = true → q < 16 → (sl, q) ≠ (sec.val, p.val) → s.latched sl q = true →
          (s.fld (tripPage sl) (TRIP_BCAST.PAIRS.at (8 * n))).testBit q = false) → u.lines.testBit n = false
      (s.windowClose sec p ≠ s.ticks → Idles (.blankingClose sec p) s)
      ∧ (s.windowClose sec p = s.ticks → s.ticks ≠ 0 → active → Gives (.blankingClose sec p) s (fun u =>
          stand u ∧ u.latched sec p = true))
      ∧ (s.latched sec p = false → Idles (.tripClearPair sec p) s)
      ∧ (s.latched sec p = true → active → Gives (.tripClearPair sec p) s (fun u =>
          u.trips = s.trips ∧ pending u = false ∧ still u = true ∧ Raised u pk (16 + p)))
      ∧ (s.latched sec p = true → ¬ active → s.quiet sec m = false → Gives (.tripClearPair sec p) s (fun u =>
          u.trips = s.trips ∧ pending u = true ∧ still u = false))
      ∧ (s.latched sec p = true → s.quiet sec m = true → ¬ bcast → Gives (.tripClearPair sec p) s cleared)
      ∧ (s.latched sec p = true → s.quiet sec m = true → bcast → settled → Gives (.tripClearPair sec p) s ends)
      ∧ (pending s = true → s.quiet sec m = true → bcast → settled → Gives (.clearPendingComplete sec p) s ends)
      ∧ (pending s = false ∨ s.quiet sec m = false → Idles (.clearPendingComplete sec p) s)
      ∧ (pending s = true → s.quiet sec m = true → ¬ bcast → Gives (.clearPendingComplete sec p) s (fun u =>
          u.latched sec p = false ∧ pending u = false ∧ still u = false)))
    ∧ (∀ m : BitVec 76, s.quiet sec m = true ↔ (s.trip sec).active &&& m = 0
        ∧ ∀ e ∈ (s.trip sec).quietFrom, m.getLsbD e.1 = true → e.2 + 16 ≤ s.ticks)
    ∧ (∀ (copy : Fin 3) (latches cbc : BitVec 16), Gives (.voteDisagree sec copy latches cbc) s (fun u =>
        copyOf copy (u.trip sec).latches = latches ∧ copyOf copy (u.trip sec).cbcs = cbc
        ∧ (∀ k : Fin 3, k ≠ copy → copyOf k (u.trip sec).latches = copyOf k (s.trip sec).latches
          ∧ copyOf k (u.trip sec).cbcs = copyOf k (s.trip sec).cbcs)
        ∧ ∀ l c : BitVec 16,
          (∀ k : Fin 3, k ≠ copy → copyOf k (s.trip sec).latches = l ∧ copyOf k (s.trip sec).cbcs = c) →
          (u.trip sec).vote = l ∧ (u.trip sec).cbc = c
          ∧ (latches = l → cbc = c → u.regs = s.regs)
          ∧ (latches ≠ l ∨ cbc ≠ c → (u.fld pk TRIP_VOTE.COPY).testBit copy = true
            ∧ u.fld pk TRIP_VOTE.DISAGREE = min (s.fld pk TRIP_VOTE.DISAGREE + 1) (2 ^ 32 - 1) ∧ Raised u pk 48)))
    ∧ (s.present sec = false ∨ (s.trip sec).clockMissing = true → Idles (.canvasClockLoss sec) s)
    ∧ (s.present sec = true → (s.trip sec).clockMissing = false → Gives (.canvasClockLoss sec) s (fun u =>
        u.timeStands = true ∧ ∀ sl : Nat, s.present sl = true →
          u.flag (tripPage sl) TRIP_OVERRIDE.CLOCK_LOST = true ∧ (∀ p : Nat, u.pairSafe sl p = true)
          ∧ (s.flag (tripPage sl) TRIP_OVERRIDE.CLOCK_LOST = false → Raised u (tripPage sl) 49)
          ∧ (s.mode sl = RUN ∨ s.mode sl = COMMISSION → u.mode sl = HOLD)))
    ∧ exec (.canvasClockReturn sec) s = .next (s.setTrip sec { s.trip sec with clockMissing := false })
    ∧ ∀ (p : Nat) (out : Out), s.latched sec p = true → s.orderOne sec p = false →
        let safe := match out with
          | .a => s.fld pk (TRIP_PAIR_CFG.SAFE_A.at (0x40 * p))
          | .b => s.fld pk (TRIP_PAIR_CFG.SAFE_B.at (0x40 * p))
        (safe = 0 → s.pin sec p out = .low) ∧ (safe = 1 → s.pin sec p out = .high)
          ∧ (2 ≤ safe → s.pin sec p out = .z)

/-- Loops (R126 to R141, R144): what a reference tick takes; the law on the inputs of that tick at its deadline; a miss
and a mismatch, which leave the output; the third mismatch in a row, which opens the slot. A set of coefficients that no
device runs stably, and a set of pages with more than one owner, are host errors (R3, R14). Assumptions 8, 31, 32, 128. -/
def Obligations.LoopsEvaluateTheLaw : Prop :=
  ∀ (s : State) (sec : Slice) (n : Fin 16),
    let pk := loopPage sec n
    let v := s.slot sec n
    let target := s.fld pk LOOP_CFG.TARGET
    let pair_ := s.fld pk LOOP_CFG.PAIR
    exec (.loopClose sec n) s = .next (s.setSlot sec n { v with request := some true })
    ∧ exec (.loopOpen sec n) s = .next (s.setSlot sec n { v with request := some false })
    ∧ (∀ (c : Fin 16) (nv : Int),
      s.referenceTick sec c = true → s.slotTakes sec n c = true →
      (∀ m : Nat, m ≠ n → s.slotTakes sec m c = false) → s.fld pk LOOP_CFG.DECIM ≠ 0 →
      (v.request = some true → 24 ≤ s.fld pk LOOP_BSHIFT.VALUE ∧ s.fld pk LOOP_BSHIFT.VALUE ≤ 40
        ∧ unstable (s.staged sec n) = false) → s.split sec n = false →
      Gives (.fadcSample sec c nv) s (fun u => ∃ i : EvalInput,
        (u.slot sec n).evals = v.evals ++ [i] ∧ (u.slot sec n).request = none
        ∧ i.tick = s.ticks ∧ i.ref = s.sfld pk LOOP_REF.VALUE ∧ i.lo = s.fld pk LOOP_LIMIT.LO
        ∧ i.hi = s.fld pk LOOP_LIMIT.HI ∧ i.manual = s.fld pk LOOP_MANUAL.VALUE
        ∧ i.code = max (-2048) (min ((2 * (nv * 2048) + 800000000) / 1600000000) 2047)
        ∧ i.live = (u.slot sec n).live ∧ i.hist = (u.slot sec n).hist ∧ i.mirror = (u.slot sec n).mirror
        ∧ i.ffFw = s.sfld pk LOOP_FF_FW.VALUE ∧ i.ffInt = u.sfld pk LOOP_FF_INTENT.VALUE
        ∧ (s.flag pk LOOP_FF_DECAY.ACTIVE = false → i.ffInt = s.sfld pk LOOP_FF_INTENT.VALUE)
        ∧ (s.flag pk LOOP_FF_DECAY.ACTIVE = true →
          let ff := s.sfld pk LOOP_FF_INTENT.VALUE
          let q := ff.tdiv (2 ^ s.fld pk LOOP_CFG.DECAY_SHIFT)
          i.ffInt = ff - (if q = 0 then ff.sign else q))
        ∧ (v.request = none → i.closed = v.closed ∧ (u.slot sec n).closed = v.closed ∧ (u.slot sec n).live = v.live
          ∧ (u.slot sec n).hist = v.hist)
        ∧ (v.request = some false → i.closed = false ∧ (u.slot sec n).closed = false)
        ∧ (v.request = some true → i.closed = true ∧ (u.slot sec n).closed = true
          ∧ (u.slot sec n).live = s.staged sec n ∧ (u.slot sec n).mirror = (u.slot sec n).hist
          ∧ (s.flag pk LOOP_PRESET.AUTO = false → (u.slot sec n).hist.c1 = s.sfld pk LOOP_PRESET.C
            ∧ (u.slot sec n).hist.c3 = s.sfld pk LOOP_PRESET.C
            ∧ (u.slot sec n).hist.e1 = s.sfld pk LOOP_PRE_E.VALUE ∧ (u.slot sec n).hist.e3 = s.sfld pk LOOP_PRE_E.VALUE))))
    ∧ (∀ upset : Bool, (∀ i ∈ v.evals, i.tick + 4 ≠ s.ticks) → Idles (.loopEvaluation sec n upset) s)
    ∧ ∀ (upset : Bool) (i : EvalInput),
      v.evals = [i] → i.tick + 4 = s.ticks → target < 2 →
      0 ≤ i.lo → i.lo ≤ i.hi → i.hi < 2 ^ 26 →
      let manual (u : State) : Prop :=
        (u.slot sec n).out = some (s.ticks + 1, pair_, target, (max i.lo (min i.manual i.hi)).toNat)
      let run : Nat := if i.closing = true then 0 else v.mmRun
      let missed (u : State) (cause : Nat) : Prop :=
        u.flag pk LOOP_STATUS.MISS = true ∧ u.fld pk LOOP_STATUS.CAUSE = cause
          ∧ (u.slot sec n).hist = v.hist ∧ (u.slot sec n).evals = []
      (i.closed = false → Gives (.loopEvaluation sec n upset) s (fun u =>
        manual u ∧ u.flag pk LOOP_STATUS.CLOSED = false ∧ (u.slot sec n).hist = v.hist ∧ (u.slot sec n).evals = []))
      ∧ (i.closed = true → i.grant = 1 ∨ i.grant = 2 → Gives (.loopEvaluation sec n upset) s (fun u =>
        missed u i.grant ∧ (u.slot sec n).out = v.out ∧ Raised u pk 0
        ∧ u.fld pk LOOP_COUNTS.MISSES = min (s.fld pk LOOP_COUNTS.MISSES + 1) (2 ^ 32 - 1)))
      ∧ (i.closed = true → i.grant = 0 → upset = true → Gives (.loopEvaluation sec n upset) s (fun u =>
        missed u 3 ∧ Raised u pk 2
        ∧ u.fld pk LOOP_MISMATCHES.COUNT = min (s.fld pk LOOP_MISMATCHES.COUNT + 1) (2 ^ 32 - 1)
        ∧ (run < 2 → (u.slot sec n).out = v.out ∧ (u.slot sec n).closed = v.closed
          ∧ (u.slot sec n).mmRun = run + 1 ∧ u.fld pk LOOP_STATUS.MM_RUN = run + 1)
        ∧ (2 ≤ run → manual u ∧ (u.slot sec n).closed = false ∧ u.flag pk LOOP_STATUS.CLOSED = false
          ∧ u.flag pk LOOP_STATUS.FORCED_OPEN = true ∧ Raised u pk 3)))
      ∧ (i.closed = true → i.grant = 0 → upset = false → v.mirror = v.hist → i.hist = v.hist → i.mirror = v.hist →
        let k := i.live
        let h := v.hist
        let e := i.ref - 16 * i.code
        let acc := (k.b0 * e + k.b1 * h.e1 + k.b2 * h.e2 + k.b3 * h.e3) * 2 ^ (40 - k.bshift)
          - ((k.a1 * h.c1 + 16) / 32 + (k.a2 * h.c2 + 16) / 32 + (k.a3 * h.c3 + 16) / 32)
        let ff := i.ffFw + i.ffInt
        let w := (acc + ff * 2 ^ 32 + 2 ^ 39) / 2 ^ 40
        let out := max i.lo (min w i.hi)
        let c := if s.flag pk LOOP_CFG.AW = true ∧ out ≠ w then out * 2 ^ 16 - ff * 2 ^ 8 else (acc + 2 ^ 23) / 2 ^ 24
        Gives (.loopEvaluation sec n upset) s (fun u =>
          (u.slot sec n).out = some (s.ticks + 1, pair_, target, out.toNat)
          ∧ (u.slot sec n).hist = ⟨e, h.e1, h.e2, max (-2 ^ 43) (min c (2 ^ 43 - 1)), h.c1, h.c2⟩
          ∧ (u.slot sec n).mirror = (u.slot sec n).hist
          ∧ (i.closing = true ∨ s.flag pk LOOP_STATUS.CLOSED = true → u.flag pk LOOP_STATUS.CLOSED = true)
          ∧ u.flag pk LOOP_STATUS.MISS = false
          ∧ u.fld pk LOOP_STATUS.SAT = (if w < i.lo then 1 else if i.hi < w then 2 else 0)
          ∧ (out ≠ w → Raised u pk 1)
          ∧ u.fld pk LOOP_EVALS.COUNT = min (s.fld pk LOOP_EVALS.COUNT + 1) (2 ^ 64 - 1)))

/-! ### Memory arrays, channels, timers, stencil engines -/

/-- Scratch banks and the DRAM channel (R223, R225, R228, R235, R238 to R244, R383): bank power and wipes empty a bank;
a line of up to eight wrong symbols is corrected, and one of more is lost, and no line leaves a locked way (R166); scrub,
refresh, timing and repair; an error of a fabric link sets its bit. A bank
state that no code names, or a row that the module lacks, is a host error of the page (R4). Assumptions 8, 47, 73. -/
def Obligations.ArraysFollowTheirUnits : Prop :=
  ∀ (s : State) (ag : Agent) (p : Slice),
    let scr := scrPage p
    let ddr := ddrcPage p
    let cmd (u : State) (b : Nat) : Nat := u.fld scr ⟨0x100, 2 * b + 1, 2 * b⟩
    let now (u : State) (b : Nat) : Nat := u.fld scr ⟨0x108, 2 * b + 1, 2 * b⟩
    let busy (u : State) (b : Nat) : Bool := u.flag scr ⟨0x108, 16 + b, 16 + b⟩
    let empty (u : State) (b : Nat) : Prop := ∀ a : Nat, a / 0x40000 = b → u.word p a = voidWord ∧ u.bad p a = false
    let live : Prop := s.flag ddr DDRC_STATE.TRAINED = true ∧ s.flag ddr DDRC_STATE.SELF_REFRESH = false
    let inside (line : Nat) : Bool := s.inL2 p (dramBase / 128 + line)
    (∀ d : Word,
      ((∀ b : Nat, b < 7 → d.toNat / 4 ^ b % 4 ≠ 3) → (s.secure ag = true → d.toNat / 4 ^ 7 % 4 ≠ 3) →
        AcceptsTo (.scrPowerWrite ag p d) s ag scr 0x100 (fun u =>
          (∀ b : Nat, b < 8 → (b < 7 ∨ s.secure ag = true) → cmd u b = d.toNat / 4 ^ b % 4
            ∧ (cmd u b ≠ now s b → busy u b = true))
          ∧ (s.secure ag = false → cmd u 7 = cmd s 7)
          ∧ (s.secure ag = true → d.toNat / 4 ^ 7 % 4 = 2 → cmd s 7 ≠ 2 → empty u 7 ∧ (u.panel p).wipeBank7 = true)
          ∧ ∀ b : Nat, b < 8 → now u b = now s b))
      ∧ ((∃ b : Nat, b < 7 ∧ d.toNat / 4 ^ b % 4 = 3) →
        AcceptsTo (.scrPowerWrite ag p d) s ag scr 0x100 (fun u => scr ∈ u.upset)))
    ∧ (∀ b : Fin 8,
      let runs : Prop := busy s b = true ∧ ¬ (b.val = 7 ∧ (s.panel p).wipeBank7 = true)
      (¬ runs → Idles (.bankPowerDone p b) s)
      ∧ (runs → Gives (.bankPowerDone p b) s (fun u => now u b = cmd s b ∧ busy u b = false ∧ Raised u scr 6
          ∧ (cmd s b = 2 ∨ now s b = 2 → empty u b)
          ∧ (cmd s b ≠ 2 → now s b ≠ 2 → u.mem = s.mem))))
    ∧ (s.secure ag = false → Accepts (.scrWipe ag p) s ag scr 0x148 s)
    ∧ (s.secure ag = true → AcceptsTo (.scrWipe ag p) s ag scr 0x148 (fun u =>
        empty u 7 ∧ busy u 7 = true ∧ (u.panel p).wipeBank7 = true))
    ∧ ((s.panel p).wipeBank7 = false → Idles (.bank7WipeDone p) s)
    ∧ ((s.panel p).wipeBank7 = true → s.burn = none → Gives (.bank7WipeDone p) s (fun u => (u.panel p).wipeBank7 = false ∧ Raised u scr 7
        ∧ u.mem = s.mem ∧ (cmd s 7 = now s 7 → busy u 7 = false)))
    ∧ (∀ (line : Nat) (errs : LineErrors),
      let wrong := errs.symbols.dedup.length
      let there := s.dramThere p (dramBase + 128 * line)
      let clean : Prop := errs.poisoned = false ∧ s.poisoned.contains (lineKey p line) = false
      (there = false → Idles (.dramReadComplete p line errs) s)
      ∧ (there = true → clean → errs.symbols = [] → Gives (.dramReadComplete p line errs) s (fun u =>
          u = { s with badWords := u.badWords }
          ∧ (inside line = true → u = s)
          ∧ (inside line = false → ∀ i : Nat, i < 16 →
            u.badWords.contains (memKey p (dramBase + 128 * line + 8 * i)) = false)))
      ∧ (there = true → s.marked p errs.rank = none → clean → 1 ≤ wrong → wrong ≤ 8 →
        Gives (.dramReadComplete p line errs) s (fun u => u.mem = s.mem ∧ Raised u ddr 0
          ∧ (inside line = true → u.badWords = s.badWords)
          ∧ u.fld ddr DDRC_COUNTS.CE = min (s.fld ddr DDRC_COUNTS.CE + 1) (2 ^ 32 - 1)
          ∧ u.flag ddr DDRC_CE_LOG.VALID = true ∧ u.fld ddr DDRC_CE_LOG.SYMBOLS = wrong
          ∧ u.fld ddr DDRC_CE_LOG.ROW = errs.row.toNat ∧ u.fld ddr DDRC_CE_LOG.RANK = errs.rank
          ∧ u.fld ddr DDRC_CE_ADDR.ADDR = (dramBase / 128 + line) % 2 ^ 41))
      ∧ (there = true → s.marked p errs.rank = none → 8 < wrong →
        Gives (.dramReadComplete p line errs) s (fun u => u.mem = s.mem ∧ Raised u ddr 1
          ∧ (inside line = false ∨ ¬ clean → ∀ i : Nat, i < 16 → u.bad p (dramBase + 128 * line + 8 * i) = true)
          ∧ u.fld ddr DDRC_COUNTS.UE = min (s.fld ddr DDRC_COUNTS.UE + 1) (2 ^ 32 - 1)
          ∧ (s.flag ddr DDRC_UE_LOG.VALID = true → u.flag ddr DDRC_UE_LOG.OVERRUN = true
            ∧ u.fld ddr DDRC_UE_ADDR.ADDR = s.fld ddr DDRC_UE_ADDR.ADDR)
          ∧ (s.flag ddr DDRC_UE_LOG.VALID = false → u.flag ddr DDRC_UE_LOG.VALID = true
            ∧ u.fld ddr DDRC_UE_LOG.SOURCE = 0 ∧ u.fld ddr DDRC_UE_ADDR.ADDR = (dramBase / 128 + line) % 2 ^ 41)))
      ∧ (s.spoiled p line = false ∨ s.lineLocked p (dramBase / 128 + line) = true → Idles (.poisonedEviction p line) s)
      ∧ (s.spoiled p line = true → s.lineLocked p (dramBase / 128 + line) = false → Gives (.poisonedEviction p line) s (fun u => u.mem = s.mem
          ∧ u.poisoned.contains (lineKey p line) = true ∧ Raised u scr 3
          ∧ ∀ i : Nat, i < 16 → u.bad p (dramBase + 128 * line + 8 * i) = true)))
    ∧ ((s.panel p).dramInit = false → Idles (.dramInitDone p) s)
    ∧ ((s.panel p).dramInit = true → Gives (.dramInitDone p) s (fun u => u.flag ddr DDRC_STATE.TRAINED = true
        ∧ (u.panel p).dramInit = false ∧ ∀ a : Nat, a < dramBase → u.word p (dramBase + a) = voidWord))
    ∧ (∀ b : Bool,
      let refreshes : Prop := (s.flag ddr DDRC_STATE.TRAINED = true ∨ (s.panel p).dramInit = true)
        ∧ s.flag ddr DDRC_STATE.SELF_REFRESH = false
      (¬ live → Idles (.writeTimingAdjust p b) s) ∧ (¬ refreshes → Idles (.dramRefresh p b) s)
      ∧ (refreshes → Gives (.dramRefresh p b) s (fun u => u.flag ddr DDRC_STATE.REFRESH_2X = b
          ∧ (s.flag ddr DDRC_STATE.REFRESH_2X ≠ b → Raised u ddr 7)))
      ∧ (live → exec (.writeTimingAdjust p b) s = .next (if b then s.raise ddr 4 else s)))
    ∧ (∀ errs : LineErrors,
      let line := (s.panel p).scrubAt
      (s.fld ddr DDRC_CFG.SCRUB_HOURS = 0 ∨ ¬ live → Idles (.patrolScrubRead p errs) s)
      ∧ (s.fld ddr DDRC_CFG.SCRUB_HOURS ≠ 0 → live → errs.symbols = [] → errs.poisoned = false →
        s.poisoned.contains (lineKey p line) = false →
        (line + 1 < s.dramLines p → exec (.patrolScrubRead p errs) s
          = .next ((s.regainLine p line).setPanel p { s.panel p with scrubAt := line + 1 }))
        ∧ (s.dramLines p ≤ line + 1 → Gives (.patrolScrubRead p errs) s (fun u => (u.panel p).scrubAt = 0 ∧ Raised u ddr 3
          ∧ u.fld ddr DDRC_STATE.PASSES = min (s.fld ddr DDRC_STATE.PASSES + 1) (2 ^ 32 - 1) ∧ u.mem = s.mem))))
    ∧ (let c := s.fld ddr DDRC_PPR.COORD
      let pn := s.panel p
      let there : Prop := c / 2 ^ 23 < s.fld ddr DDRC_MODULE.RANKS ∧ c / 2 ^ 20 % 8 < pn.dramGroups
        ∧ c / 2 ^ 18 % 4 < pn.dramBanks ∧ c % 2 ^ 18 < pn.dramRows
      (s.flag ddr DDRC_PPR.BUSY = true → Accepts (.ddrcPprGo ag p) s ag ddr 0x148 s)
      ∧ (s.flag ddr DDRC_PPR.BUSY = false → there →
        Accepts (.ddrcPprGo ag p) s ag ddr 0x148 (s.setFld ddr DDRC_PPR.BUSY 1))
      ∧ (s.flag ddr DDRC_PPR.BUSY = false → ¬ there →
        AcceptsTo (.ddrcPprGo ag p) s ag ddr 0x148 (fun u => ddr ∈ u.upset)))
    ∧ (∀ ok : Bool,
      (s.flag ddr DDRC_PPR.BUSY = false → Idles (.pprDone p ok) s)
      ∧ (s.flag ddr DDRC_PPR.BUSY = true → Gives (.pprDone p ok) s (fun u => u.flag ddr DDRC_PPR.BUSY = false
          ∧ (ok = true → u.flag ddr DDRC_PPR.DONE = true ∧ Raised u ddr 5)
          ∧ (ok = false → u.flag ddr DDRC_PPR.FAIL = true ∧ Raised u ddr 6))))
    ∧ ∀ link : Fin 3,
      (s.present p = false → Idles (.fabricLinkError p link) s)
      ∧ (s.present p = true → Gives (.fabricLinkError p link) s (fun u => Raised u (fabPage p) (1 + link)
          ∧ u.flag (fabPage p) ⟨0x108, link, link⟩ = true ∧ u.mem = s.mem
          ∧ (link = 1 → s.flag (jrnlPage p) JRNL_STATUS.ACTIVE = true → u.flag (jrnlPage p) JRNL_STATUS.ACTIVE = false
            ∧ u.flag (jrnlPage p) JRNL_STATUS.LINK_DOWN = true ∧ Raised u (jrnlPage p) 2)))

/-- Channels (R246, R247, R250 to R257): starts, pauses and resumes by the state they find; an element of eight bytes
between plain memory moves its word; an address that fails a check halts the channel; the allocator. A start with a size
or an index mode that no code names is a host error of the channel (R4). Assumptions 8, 13, 72. -/
def Obligations.ChannelsMoveElements : Prop :=
  ∀ (s : State) (ag : Agent) (p : Slice) (c : Fin 32),
    let pk := dmaPage p c
    let st := s.fld pk DMA_STATUS.STATE
    let n := s.fld pk DMA_COUNT.COUNT
    let size := s.fld pk DMA_CFG.SIZE
    let idx := s.fld pk DMA_CFG.IDX
    let alloc := dmaPage p 32
    let held (u : State) (i : Nat) : Bool := (u.fld alloc DMA_ALLOCATED.MASK).testBit i
    let rests : Prop := (s.panel p).restFrom.isSome = true
    ((st = 1 ∨ st = 2 ∨ st = 3 → AcceptsTo (.dmaStart ag p c) s ag pk 0x128 (fun u =>
        u.flag pk DMA_STATUS.START_REFUSED = true ∧ u.fld pk DMA_STATUS.STATE = st ∧ Raised u pk 3 ∧ u.mem = s.mem))
      ∧ (st = 0 ∨ 4 ≤ st → 4 < size ∨ idx = 3 → AcceptsTo (.dmaStart ag p c) s ag pk 0x128 (fun u => pk ∈ u.upset))
      ∧ (st = 0 ∨ 4 ≤ st → size ≤ 4 → idx ≠ 3 →
        (s.flag pk DMA_CMD.PAUSE = true → AcceptsTo (.dmaStart ag p c) s ag pk 0x128 (fun u =>
          u.fld pk DMA_STATUS.STATE = 3))
        ∧ (s.flag pk DMA_CMD.PAUSE = false → n ≠ 0 → AcceptsTo (.dmaStart ag p c) s ag pk 0x128 (fun u =>
          (¬ rests → u.fld pk DMA_STATUS.STATE = 1) ∧ (rests → u.fld pk DMA_STATUS.STATE = 3 ∧ Raised u pk 4)
          ∧ (u.dma p c).starter = starterOf p ag))
        ∧ (s.flag pk DMA_CMD.PAUSE = false → n = 0 → AcceptsTo (.dmaStart ag p c) s ag pk 0x128
          (fun u => u.fld pk DMA_STATUS.STATE = 0 ∧ Raised u pk 0))))
    ∧ (∀ flying : Fin 17,
      AcceptsTo (.dmaPause ag p c flying) s ag pk 0x128 (fun u => u.flag pk DMA_CMD.PAUSE = true
        ∧ (st ≠ 1 → u.fld pk DMA_STATUS.STATE = st)
        ∧ (st = 1 → min flying.val n = 0 → u.fld pk DMA_STATUS.STATE = 3 ∧ Raised u pk 4)
        ∧ (st = 1 → min flying.val n ≠ 0 → u.fld pk DMA_STATUS.STATE = 2 ∧ (u.dma p c).inFlight = min flying.val n)))
    ∧ AcceptsTo (.dmaResume ag p c) s ag pk 0x128 (fun u => u.flag pk DMA_CMD.PAUSE = false
        ∧ (st ≠ 2 → st ≠ 3 → ¬ rests → u.fld pk DMA_STATUS.STATE = st)
        ∧ ((s.dma p c).restPaused = true → u.fld pk DMA_STATUS.STATE = st)
        ∧ ((s.dma p c).restPaused = false → ¬ rests → st = 2 ∨ (st = 3 ∧ n ≠ 0) → u.fld pk DMA_STATUS.STATE = 1)
        ∧ ((s.dma p c).restPaused = false → st = 3 → n = 0 →
          u.fld pk DMA_STATUS.STATE = 0 ∧ Raised u pk 0))
    ∧ (∀ (env : MemEnv) (beyond : Fin 16), s.present p = false ∨ (st ≠ 1 ∧ st ≠ 2) ∨ n = 0 →
        exec (.dmaElementDone p c env beyond) s = .next (s.strike p env.upsets))
    ∧ (s.present p = true → st = 1 → 0 < n → idx = 0 → size = 3 ∨ size = 4 →
      (s.dma p c).starter = none →
      let a := s.fld pk DMA_SRC.ADDR
      let d := s.fld pk DMA_DST.ADDR
      let moved := if size = 4 then s.word p a else tword 0 (payload (s.word p a))
      let reached (x : Nat) : Prop := s.panelSpot p x = .mem p x .bank
        ∨ s.panelSpot p x = .mem p x .cached ∧ s.tagLost p (x / 128) = false
      (a % 8 = 0 → d % 8 = 0 → Allowed a 8 → Allowed d 8 → reached a → reached d → s.bad p a = false →
        Gives (.dmaElementDone p c clearEnv 0) s (fun u => u.word p d = moved
          ∧ (∀ q b : Nat, memKey q b ≠ memKey p d → u.word q b = s.word q b)
          ∧ u.fld pk DMA_SRC.ADDR = (if s.flag pk DMA_CFG.SRC_FIX = true then a else (a + 8) % 2 ^ 48)
          ∧ u.fld pk DMA_DST.ADDR = (if s.flag pk DMA_CFG.DST_FIX = true then d else (d + 8) % 2 ^ 48)
          ∧ u.fld pk DMA_COUNT.COUNT = n - 1
          ∧ (n = 1 → u.fld pk DMA_STATUS.STATE = 0 ∧ Raised u pk 0) ∧ (1 < n → u.fld pk DMA_STATUS.STATE = 1)))
      ∧ (size = 4 → a % 8 ≠ 0 → Gives (.dmaElementDone p c clearEnv 0) s (fun u => u.mem = s.mem
          ∧ u.fld pk DMA_STATUS.STATE = 4 ∧ u.fld pk DMA_STATUS.ERROR = 2 ∧ u.fld pk DMA_STATUS.BEYOND = 0
          ∧ u.fld pk DMA_FAIL.WHICH = 0 ∧ u.fld pk DMA_FAIL.ADDR = a ∧ u.fld pk DMA_COUNT.COUNT = n ∧ Raised u pk 1)))
    ∧ (agentPanel ag ≠ some p.val ∨ s.present p = false → Idles (.dmaAlloc ag p) s)
    ∧ (agentPanel ag = some p.val → s.present p = true →
      (∀ i : Nat, i < 32 → held s i = false → (∀ j : Nat, j < i → held s j = true) →
        Gives (.dmaAlloc ag p) s (fun u => ∀ j : Nat, j < 32 → held u j = (held s j || decide (j = i))))
      ∧ ((∀ i : Nat, i < 32 → held s i = true) → Gives (.dmaAlloc ag p) s (fun u =>
        u.fld alloc DMA_ALLOCATED.MASK = s.fld alloc DMA_ALLOCATED.MASK
        ∧ u.fld alloc DMA_ALLOC_REFUSED.COUNT = min (s.fld alloc DMA_ALLOC_REFUSED.COUNT + 1) (2 ^ 32 - 1))))
    ∧ AcceptsTo (.dmaFree ag p c) s ag alloc 0x110 (fun u =>
        ∀ j : Nat, j < 32 → held u j = (held s j && decide (j ≠ c.val)))

/-- Timers (R259 to R264): a step counts down, reloads or ends; a start reloads, and governs a stop of its own tick; an
edge of the chosen input is accepted when it has held for the filter, and counted by the divider, and a capture takes
effect ten ticks later with the count that is then read; one lost in a rest is not counted. A read in the tick of a capture
takes the earlier values, so that none is overrun; with no read in it, the earlier capture is overrun as the tick ends.
Assumptions 71, 72, 112. -/
def Obligations.TimersCountDown : Prop :=
  ∀ (s : State) (ag : Agent) (p : Slice) (n : Fin 16),
    let pk := tmrPage p n
    let v := s.timer p n
    let count := s.fld pk TMR_COUNT.COUNT
    let reload := s.fld pk TMR_RELOAD.VALUE
    let cmp := s.fld pk TMR_CMP.VALUE
    let running := s.flag pk TMR_STATUS.RUNNING
    let fresh (u : State) (m : Nat) : Prop :=
      u.fld (tmrPage p m) TMR_COUNT.COUNT = s.fld (tmrPage p m) TMR_RELOAD.VALUE
        ∧ u.fld (tmrPage p m) TMR_CMP_NOW.VALUE = s.fld (tmrPage p m) TMR_CMP.VALUE
        ∧ (u.timer p m).presc = s.fld (tmrPage p m) TMR_CFG.PRESC
        ∧ (u.timer p m).oneShot = s.flag (tmrPage p m) TMR_CFG.ONE_SHOT
    (running = false ∨ s.islandRuns p = false → Idles (.tmrStep p n) s)
    ∧ (running = true → s.islandRuns p = true →
      (0 < count → Gives (.tmrStep p n) s (fun u => u.fld pk TMR_COUNT.COUNT = count - 1
        ∧ u.flag pk TMR_STATUS.RUNNING = true ∧ (count = 1 → Raised u pk 0)
        ∧ (s.fld pk TMR_CMP_NOW.VALUE + 1 = count → Raised u pk 1) ∧ u.mem = s.mem))
      ∧ (count = 0 → v.oneShot = true → exec (.tmrStep p n) s = .next (s.setFld pk TMR_STATUS.RUNNING 0))
      ∧ (count = 0 → v.oneShot = false → Gives (.tmrStep p n) s (fun u => fresh u n
        ∧ u.flag pk TMR_STATUS.RUNNING = true ∧ (reload = 0 → Raised u pk 0) ∧ (reload = cmp → Raised u pk 1))))
    ∧ AcceptsTo (.tmrStart ag p n) s ag pk 0x130 (fun u => fresh u n ∧ u.flag pk TMR_STATUS.RUNNING = true
        ∧ (u.timer p n).startAt = some s.ticks)
    ∧ Accepts (.tmrStop ag p n) s ag pk 0x130
        (if v.startAt = some s.ticks then s else s.setFld pk TMR_STATUS.RUNNING 0)
    ∧ (∀ m : BitVec 16,
      AcceptsTo (.tmrGstart ag p m) s ag (tmrPage p 16) 0x100 (fun u => ∀ i : Fin 16,
        (m.getLsbD i = true → fresh u i ∧ u.flag (tmrPage p i) TMR_STATUS.RUNNING = true)
        ∧ (m.getLsbD i = false → u.timer p i = s.timer p i
          ∧ ∀ off : Nat, off < 4096 → u.reg (tmrPage p i) off = s.reg (tmrPage p i) off))
      ∧ AcceptsTo (.tmrGstop ag p m) s ag (tmrPage p 16) 0x108 (fun u => ∀ i : Fin 16,
        u.flag (tmrPage p i) TMR_STATUS.RUNNING = (s.flag (tmrPage p i) TMR_STATUS.RUNNING
          && (!m.getLsbD i || decide ((s.timer p i).startAt = some s.ticks)))))
    ∧ (∀ rise : Bool,
      let kind := s.fld pk TMR_CFG.CAP_EDGE
      let filt := s.fld pk TMR_CFG.FILT
      let chosen : Prop := kind = 3 ∨ (kind = 1 ∧ rise = true) ∨ (kind = 2 ∧ rise = false)
      let long (since : Nat) : Prop := filt = 0 ∨ since + 2 ^ filt ≤ s.ticks
      let taken : Prop := s.present p = true ∧ v.watch = true ∧ s.captureLevel p n = none ∧ v.level ≠ some rise
        ∧ long v.accepted
      let w := { v with
        level := some rise
        since := none
        accepted := s.ticks }
      let counts : State :=
        if ¬ chosen then s.setTimer p n w
        else if v.edges < s.fld pk TMR_CFG.CAP_DIV then s.setTimer p n { w with edges := v.edges + 1 }
        else s.setTimer p n { w with
          edges := 0
          captures := v.captures ++ [(s.ticks, s.canvas)] }
      (¬ taken → Idles (.captureEdge p n rise) s)
      ∧ (taken → exec (.captureEdge p n rise) s = .next counts)
      ∧ (s.captureLevel p n = some rise → v.level = some (!rise) →
        (long (v.since.getD s.ticks) → s.sampleCapture p n = counts)
        ∧ (¬ long (v.since.getD s.ticks) → s.sampleCapture p n
          = s.setTimer p n { v with since := some (v.since.getD s.ticks) }))
      ∧ (s.captureLevel p n = none → s.sampleCapture p n = s.setTimer p n { v with since := none }))
    ∧ (v.captures = [] → Idles (.timerCapture p n) s)
    ∧ (∀ (at_ edge : Nat) (rest : List (Nat × Nat)), v.captures = (at_, edge) :: rest →
      (s.ticks < at_ + 10 → Idles (.timerCapture p n) s)
      ∧ (at_ + 10 ≤ s.ticks → s.islandRuns p = false →
        exec (.timerCapture p n) s = .next (s.setTimer p n { v with
          captures := rest
          edges := if at_ < v.chosen then v.edges else s.fld pk TMR_CFG.CAP_DIV }))
      ∧ (at_ + 10 ≤ s.ticks → s.islandRuns p = true → Gives (.timerCapture p n) s (fun u =>
        (u.timer p n).captures = rest ∧ u.fld pk TMR_CAP.COUNT = count ∧ u.fld pk TMR_CAP.TICK = edge % 2 ^ 32
        ∧ u.flag pk TMR_STATUS.CAPTURED = true ∧ Raised u pk 2
        ∧ (u.timer p n).took = some s.ticks ∧ (u.timer p n).overran = s.flag pk TMR_STATUS.CAPTURED)))
    ∧ (v.overran = true → s.tickOverruns.flag pk TMR_STATUS.OVERRUN = true ∧ Raised s.tickOverruns pk 3
      ∧ (s.tickOverruns.timer p n).overran = false)
    ∧ (agentPanel ag = some p.val → s.present p = true → exec (.tmrCapRead ag p n) s
      = .next (if v.took = some s.ticks then s.setTimer p n { v with overran := false }
        else s.setFld pk TMR_STATUS.CAPTURED 0))
    ∧ (agentPanel ag ≠ some p.val → Idles (.tmrCapRead ag p n) s)
    ∧ ∀ ratio : BitVec 32,
      (s.islandRuns p = true → exec (.ratioMeasurement p ratio) s
        = .next (s.setFld (tmrPage p 16) TMR_RATIO.RATIO ratio.toNat))
      ∧ (s.islandRuns p = false → Idles (.ratioMeasurement p ratio) s)

/-- Stencil engines (R268 to R274): the end of a row performs its operation and enters the row that its condition
chooses; starts and stops wait for their stencil-clock edge; the FIFOs; writes of rows, of which one with a condition or
an operation that no code names is a host error of the engine (R4). Assumptions 8, 49, 50, 51, 72. -/
def Obligations.EnginesRunTheirRows : Prop :=
  ∀ (s : State) (ag : Agent) (sec : Slice) (e : Fin 8),
    let pk := stenPage sec e
    let v := s.stencil sec e
    let clock : Nat := 4 * (s.fld pk STEN_CFG.DIV + 1)
    let ends : Prop := v.running = true ∧ v.stopAt = none ∧ v.next + (v.left - 1) * clock = s.ticks
    let w := s.reg pk (0x200 + 8 * v.row)
    let op := bits w 2 0
    let stalls : Prop := s.flag pk STEN_CFG.STALL = true ∧ ((op = 4 ∧ v.tx = []) ∨ (op = 5 ∧ 8 ≤ v.rx.length))
    let live : Prop := s.present sec = true ∧ s.mode sec ≠ PRIME
    (∀ pins : BitVec 16,
      (¬ ends → Idles (.stencilRowEnd sec e pins) s)
      ∧ (ends → stalls → exec (.stencilRowEnd sec e pins) s = .next (s.setStencil sec e { v with
          stalled := true
          next := s.ticks + clock
          left := 1 }))
      ∧ (ends → ¬ stalls → Gives (.stencilRowEnd sec e pins) s (fun u =>
        let t := u.stencil sec e
        let row := u.reg pk (0x200 + 8 * t.row)
        let goes (b : Bool) : Prop := t.row = if (b != w.getLsbD 53) = true then bits w 63 59 else bits w 58 54
        t.entry = s.ticks ∧ t.next = s.ticks + clock ∧ t.left = bits row 15 8 + 1 ∧ t.stalled = false
        ∧ t.running = true
        ∧ (bits w 52 48 = 0 → goes true)
        ∧ (∀ i : Nat, 9 ≤ bits w 52 48 → bits w 52 48 ≤ 16 → i = bits w 52 48 - 9 → goes (v.st.getLsbD i))
        ∧ (bits w 52 48 = 17 → goes (decide (t.scnt = 0)))
        ∧ (∀ o : Nat, o < 8 → (row.getLsbD (40 + o) = false → bits row 2 0 ≠ 1 → bits row 2 0 ≠ 3 →
            t.outs.getLsbD o = v.outs.getLsbD o)
          ∧ (row.getLsbD (40 + o) = true → bits row 2 0 ≠ 1 → bits row 2 0 ≠ 3 →
            t.outs.getLsbD o = row.getLsbD (32 + o))
          ∧ t.st.getLsbD o = if row.getLsbD (24 + o) = true then row.getLsbD (16 + o) else v.st.getLsbD o)
        ∧ (row.getLsbD 7 = true → Raised u pk 0)
        ∧ (op = 0 ∨ op = 1 → t.sr = v.sr ∧ t.scnt = v.scnt ∧ t.tx = v.tx ∧ t.rx = v.rx)
        ∧ (op = 2 ∨ op = 3 → t.scnt = v.scnt - 1 ∧ t.tx = v.tx ∧ t.rx = v.rx
          ∧ (s.flag pk STEN_CFG.DIR = true → t.sr &&& 0x7FFFFFFF = v.sr >>> 1)
          ∧ (s.flag pk STEN_CFG.DIR = false → t.sr &&& 0xFFFFFFFE = v.sr <<< 1))
        ∧ (∀ (x : BitVec 32) (rest : List (BitVec 32)), op = 4 → v.tx = x :: rest → t.sr = x ∧ t.tx = rest
          ∧ t.scnt = s.fld pk STEN_CFG.LEN ∧ (rest = [] → Raised u pk 1))
        ∧ (op = 4 → v.tx = [] → t.sr = 0 ∧ u.flag pk STEN_FLAGS.TX_UNDER = true ∧ Raised u pk 3)
        ∧ (op = 5 → v.rx.length < 8 → t.rx = v.rx ++ [v.sr] ∧ (v.rx = [] → Raised u pk 2))
        ∧ (op = 5 → 8 ≤ v.rx.length → t.rx = v.rx ∧ u.flag pk STEN_FLAGS.RX_OVER = true ∧ Raised u pk 3)
        ∧ (op = 6 → t.scnt = s.fld pk STEN_CFG.LEN))))
    ∧ (live → exec (.stenStart sec e) s = .next (s.setStencil sec e { v with startAt := some s.ticks })
        ∧ exec (.stenStop sec e) s = .next (s.setStencil sec e { v with stopAt := some s.ticks }))
    ∧ (¬ live → Idles (.stenStart sec e) s ∧ Idles (.stenStop sec e) s)
    ∧ (v.running = false → v.stopAt = none → v.startAt.isSome = true →
        let t := (s.stenEdge sec e).stencil sec e
        t.running = true ∧ t.row = 0 ∧ t.entry = s.ticks ∧ t.sr = 0 ∧ t.scnt = 0 ∧ t.startAt = none)
    ∧ (v.running = true → v.stopAt.isSome = true → v.startAt = none →
        let t := (s.stenEdge sec e).stencil sec e
        t.running = false ∧ t.outs = v.outs ∧ t.stopAt = none)
    ∧ (∀ m : Byte, live →
      let own (i : Nat) : Prop := m.getLsbD i = true ∧ s.owner (stenPage sec i) = s.owner (stenPage sec 8)
      Gives (.stenGstart sec m) s (fun u => u = { s with stencils := u.stencils } ∧ ∀ i : Fin 8,
        (own i → u.stencil sec i = { s.stencil sec i with startAt := some s.ticks })
        ∧ (¬ own i → u.stencil sec i = s.stencil sec i))
      ∧ Gives (.stenGstop sec m) s (fun u => u = { s with stencils := u.stencils } ∧ ∀ i : Fin 8,
        (own i → u.stencil sec i = { s.stencil sec i with stopAt := some s.ticks })
        ∧ (¬ own i → u.stencil sec i = s.stencil sec i))
      ∧ Gives (.stenGclk sec m) s (fun u => u = { s with stencils := u.stencils } ∧ ∀ i : Fin 8,
        (own i → s.ticks % 4 = 0 → (u.stencil sec i).next = s.ticks)
        ∧ (own i → s.ticks % 4 ≠ 0 → (u.stencil sec i).restart = true)
        ∧ (¬ own i → u.stencil sec i = s.stencil sec i)))
    ∧ AcceptsTo (.stenClrFifo ag sec e) s ag pk 0x118 (fun u => (u.stencil sec e).tx = [] ∧ (u.stencil sec e).rx = []
        ∧ (v.tx ≠ [] → Raised u pk 1))
    ∧ (∀ (x : BitVec 32) (r : Fin 32) (d : Word),
      (s.present sec = true →
        (v.tx.length < 8 → exec (.stenTxfWrite sec e x) s = .next (s.setStencil sec e { v with tx := v.tx ++ [x] }))
        ∧ (8 ≤ v.tx.length → Gives (.stenTxfWrite sec e x) s (fun u => u.stencils = s.stencils
            ∧ u.flag pk STEN_FLAGS.TX_OVER = true ∧ Raised u pk 3))
        ∧ (20 < bits d 52 48 ∨ bits d 2 0 = 7 → Gives (.stenRowWrite sec e r d) s (fun u => pk ∈ u.upset))
        ∧ (v.running = true → bits d 52 48 ≤ 20 → bits d 2 0 ≠ 7 → exec (.stenRowWrite sec e r d) s
            = .next (s.setStencil sec e { v with rows := v.rows ++ [(r.val, d)] }))
        ∧ (v.running = false → bits d 52 48 ≤ 20 → bits d 2 0 ≠ 7 → exec (.stenRowWrite sec e r d) s
            = .next (s.setReg pk (0x200 + 8 * r.val) d)))
      ∧ (s.present sec = false → Idles (.stenTxfWrite sec e x) s ∧ Idles (.stenRowWrite sec e r d) s))
    ∧ (ag = .easel ∨ s.present sec = false → Idles (.stenRxfRead ag sec e) s)
    ∧ (ag ≠ .easel → s.present sec = true →
      (∀ (x : BitVec 32) (rest : List (BitVec 32)), v.rx = x :: rest →
        exec (.stenRxfRead ag sec e) s = .next (s.setStencil sec e { v with rx := rest }))
      ∧ (v.rx = [] → Gives (.stenRxfRead ag sec e) s (fun u => u.stencils = s.stencils
          ∧ u.flag pk STEN_FLAGS.RX_UNDER = true ∧ Raised u pk 3)))

/-! ### The intent block and the Ethernet ports -/

/-- Intent messages (R23, R282 to R291): a frame of their EtherType that the SecY has let through goes to the port stage,
one of port 1 after those of port 0 that complete at its tick; the port stage drops, quarantines or queues; the block
takes one message every 32 ticks, applies its checks in order, and issues the timed writes of its channel's sum 320 ticks
after the frame, through the port of the panel; silence, quarantine and validity. Assumption 84. -/
def Obligations.IntentsPassTheirChecks : Prop :=
  ∀ (s : State) (p : Slice) (i : Fin 64),
    let pk := intnPage p
    let c := s.pcfg p i INTN_PCFG.CHANNEL
    let b := s.budget p i
    let quar := s.pstat p i INTN_PSTAT.QUAR
    let gone (u : State) : Prop := u.absent p i = true ∧ u.contribution p i = 0 ∧ Raised u pk 1
    let drop (u : State) (f : Fld) : Prop :=
      u.fld pk f = min (s.fld pk f + 1) (2 ^ 16 - 1) ∧ Raised u pk 4 ∧ u.intents = s.intents ∧ u.flight = s.flight
    let reject (u : State) (code : Nat) : Prop :=
      u.pstat p i INTN_PSTAT.LAST_REJECT = code
        ∧ u.fld pk (INTN_PCONTRIB.REJECTS.at (16 * i)) = min (s.fld pk (INTN_PCONTRIB.REJECTS.at (16 * i)) + 1) (2 ^ 32 - 1)
    (∀ (port : Fin 2) (f : RxFrame) (ch : Option Nat) (v : State),
      let at_ := if fieldOf f.bytes 12 2 = 0x8100 then 16 else 12
      let comes : Prop := s.portsRun p = true ∧ s.flag (ethPage p port) ETH_STATUS.LINK = true ∧ f.fcs = true
        ∧ 64 ≤ wireLength f ∧ wireLength f ≤ 9216 ∧ fieldOf f.bytes at_ 2 = v.fld pk INTN_CFG.ETHERTYPE
        ∧ fieldOf f.bytes at_ 2 ≠ 0x8808 ∧ (v.fld pk INTN_CFG.PORT_EN).testBit port = true
      let sci := if ch.isSome then f.tag.map (fun x => x.sci) else none
      let body := f.bytes.drop (at_ + 2)
      comes → s.secy p port f = .passes ch v →
        (port.val = 0 → exec (.intentFrameReceived p port f.tag f.bytes) s = .next (v.portStage p 0 sci body)
          ∧ exec (.rxFrame p port f) s = .next (v.portStage p 0 sci body))
        ∧ (port.val = 1 → exec (.intentFrameReceived p port f.tag f.bytes) s = .next (v.setIntent p { v.intent p with
          later := (v.intent p).later ++ [(sci, body)] })))
    ∧ (∀ (port : Fin 2) (sci : Option Word) (body : List Byte),
      let u := s.portStage p port sci body
      (sci = none → drop u INTN_DROP.UNSECURED)
      ∧ ∀ x : Word, sci = some x →
        (s.partnerOf p x = none → drop u INTN_DROP.UNKNOWN ∧ u.fld pk INTN_LAST_UNKNOWN.SCI = x.toNat)
        ∧ (s.partnerOf p x = some i.val → quar = 1 → drop u INTN_DROP.QUARANTINED)
        ∧ (s.partnerOf p x = some i.val → quar ≠ 1 → s.pcfg p i INTN_PCFG.BURST ≤ b.spent →
          reject u 1 ∧ u.pstat p i INTN_PSTAT.QUAR = 1 ∧ u.absent p i = true ∧ Raised u pk 0
          ∧ (u.intent p).queue = (s.intent p).queue)
        ∧ (s.partnerOf p x = some i.val → quar ≠ 1 → b.spent < s.pcfg p i INTN_PCFG.BURST →
          (u.budget p i).spent = b.spent + 1
          ∧ ((s.intent p).queue.length < 8 →
            (u.intent p).queue = (s.intent p).queue ++ [⟨x, body, s.canvas, s.ticks⟩])
          ∧ (8 ≤ (s.intent p).queue.length → drop u INTN_DROP.BACKLOG)))
    ∧ (∀ x ∈ (s.intent p).out,
      let u := s.issueWrites p
      (x.tick ≤ s.ticks → x ∉ (u.intent p).out ∧ ∃ e ∈ u.flight, e.agent = intentAgent p x.channel ∧ e.page = x.page
        ∧ e.off = x.off ∧ e.data = x.data ∧ e.due = some x.due ∧ e.issued = s.ticks ∧ s.ticks ≤ e.sent)
      ∧ (s.ticks < x.tick → x ∈ (u.intent p).out))
    ∧ (∀ (sci : Option Word) (body : List Byte), (s.intent p).later = [(sci, body)] →
        s.laterFrames p = (s.setIntent p { s.intent p with later := [] }).portStage p 1 sci body)
    ∧ (∀ m : IntentMessage, (s.intent p).later = [] → (∀ x ∈ (s.intent p).out, s.ticks < x.tick) → s.nextIntent p = some m → m.ready + 32 ≤ s.ticks →
        s.tickIntent p = s.takeNext p m)
    ∧ (b.spent = 0 ∨ s.ticks < b.since + s.pcfg p i INTN_PCFG.RATE → Idles (.tokenRefill p i) s)
    ∧ (b.spent ≠ 0 → b.since + s.pcfg p i INTN_PCFG.RATE ≤ s.ticks → exec (.tokenRefill p i) s
        = .next (s.setBudget p i { b with
          spent := b.spent - 1
          since := b.since + s.pcfg p i INTN_PCFG.RATE }))
    ∧ ((s.intent p).queue = [] ∨ (∃ t, (s.intent p).taken = some t ∧ s.ticks < t + 32) ∨ s.portsRun p = false →
        Idles (.intentMessageTaken p) s)
    ∧ (∀ (m : IntentMessage) (rest : List IntentMessage),
      (s.intent p).queue = m :: rest → (∀ t, (s.intent p).taken = some t → t + 32 ≤ s.ticks) → s.portsRun p = true →
      let taken (u : State) : Prop := (u.intent p).queue = rest ∧ (u.intent p).taken = some s.ticks
      let d := s.intentDue p i m.body
      let flags := fieldOf m.body 1 1
      let seq := fieldOf m.body 2 4
      let amp : Int := if flags % 2 = 1 then 0 else signed 32 (fieldOf m.body 14 4)
      let code := s.intentCode p i m
      (s.partnerOf p m.sci = none → Gives (.intentMessageTaken p) s (fun u => taken u ∧ Raised u pk 4
        ∧ u.fld pk INTN_DROP.UNKNOWN = min (s.fld pk INTN_DROP.UNKNOWN + 1) (2 ^ 16 - 1)))
      ∧ (s.partnerOf p m.sci = some i.val → quar = 1 → Gives (.intentMessageTaken p) s (fun u => taken u
        ∧ u.fld pk INTN_DROP.QUARANTINED = min (s.fld pk INTN_DROP.QUARANTINED + 1) (2 ^ 16 - 1)))
      ∧ (s.partnerOf p m.sci = some i.val → quar ≠ 1 → code ≠ 0 → Gives (.intentMessageTaken p) s (fun u =>
        taken u ∧ reject u code ∧ Raised u pk 3
        ∧ u.pstat p i INTN_PSTAT.FAULTS = min (s.pstat p i INTN_PSTAT.FAULTS + 1) 255
        ∧ (s.pcfg p i INTN_PCFG.FAULT_LIMIT = 0 → u.flight = s.flight ∧ u.contribution p i = s.contribution p i)
        ∧ (s.pcfg p i INTN_PCFG.FAULT_LIMIT ≠ 0 → s.pcfg p i INTN_PCFG.FAULT_LIMIT ≤ u.pstat p i INTN_PSTAT.FAULTS →
          u.pstat p i INTN_PSTAT.QUAR = 1 ∧ u.absent p i = true ∧ Raised u pk 0)))
      ∧ (s.partnerOf p m.sci = some i.val → quar ≠ 1 → code = 0 → Gives (.intentMessageTaken p) s (fun u =>
        let sum : Int := ((u.partners p c).map (u.contribution p)).sum
        taken u ∧ u.contribution p i = amp ∧ u.pstat p i INTN_PSTAT.SEQ = seq ∧ u.pstat p i INTN_PSTAT.SEEN = 1
        ∧ u.absent p i = false ∧ u.pstat p i INTN_PSTAT.FAULTS = 0 ∧ (u.budget p i).lastDue = some d.toNat
        ∧ (s.absent p i = true → Raised u pk 2)
        ∧ (s.pstat p i INTN_PSTAT.SEEN = 1 → s.sequenceStep p i m.body ≠ 1 → Raised u pk 5)
        ∧ u.chan p c INTN_CDUE.LAST_DUE = d.toNat % 2 ^ 62 ∧ signed 64 (u.chan p c INTN_CSUM.SUM) = sum
        ∧ ∀ x ∈ s.targets p c,
            let value (w : Word) : Prop :=
              signed 32 w.toNat = max (-2 ^ 31) (min ((sum * x.2 + 128) / 256) (2 ^ 31 - 1))
            (s.ticks < m.ready + 320 → ∃ e ∈ (u.intent p).out, e.tick = m.ready + 320 ∧ e.channel = c ∧ e.page = x.1
              ∧ e.off = 0x120 ∧ e.due = d.toNat ∧ value e.data)
            ∧ (m.ready + 320 ≤ s.ticks → ∃ e ∈ u.flight, e.agent = intentAgent p c ∧ e.page = x.1 ∧ e.off = 0x120
              ∧ e.due = some d.toNat ∧ e.issued = s.ticks ∧ value e.data)))
      ∧ (m.body.length < 20 ∨ fieldOf m.body 0 1 ≠ 1 ∨ 2 ≤ flags ∨ fieldOf m.body 18 2 ≠ 0 → code = 2)
      ∧ (s.badFormat p i m.body = false →
        (s.pcfg p i INTN_PCFG.TIME = 1 → s.fld canvPage CANV_DISC.SOURCE ≠ 2 → code = 8)
        ∧ (s.pcfg p i INTN_PCFG.TIME = 0 → d = fieldOf m.body 6 8
          ∧ (d < m.arrival → code = 3)
          ∧ (m.arrival ≤ d → m.arrival + 16 * s.pcfg p i INTN_PCFG.FRESH_MAX < d → code = 4)
          ∧ (m.arrival ≤ d → d ≤ m.arrival + 16 * s.pcfg p i INTN_PCFG.FRESH_MAX →
            s.pstat p i INTN_PSTAT.SEEN = 1 → seq = s.pstat p i INTN_PSTAT.SEQ → code = 5))))
    ∧ ((s.budget p i).lastDue = none → Idles (.partnerSilence p i) s)
    ∧ (∀ d : Nat, (s.budget p i).lastDue = some d →
      let n := s.pcfg p i INTN_PLIM.SILENCE
      (n = 0 ∨ s.canvas < d + 64 * n ∨ s.portsRun p = false → Idles (.partnerSilence p i) s)
      ∧ (n ≠ 0 → d + 64 * n ≤ s.canvas → s.portsRun p = true →
        (∀ m : IntentMessage, s.nextIntent p = some m → s.partnerOf p m.sci = some i.val →
          (∃ e : Nat, ((s.takeNext p m).budget p i).lastDue = some e
            ∧ (s.takeNext p m).canvas < e + 64 * n) →
          exec (.partnerSilence p i) s = .next (s.takeNext p m))
        ∧ ((∀ m : IntentMessage, s.nextIntent p = some m → s.partnerOf p m.sci ≠ some i.val) → s.absent p i = false →
          Gives (.partnerSilence p i) s (fun u => gone u ∧ (u.budget p i).lastDue = none
            ∧ ((s.chan p c INTN_CCFG.DECAY = 1 ∧ ∀ j ∈ u.partners p c, u.absent p j = true) →
              ∀ x ∈ s.targets p c, ∃ e ∈ u.flight, e.page = x.1 ∧ e.off = 0x128 ∧ e.data = 1 ∧ e.due = some (s.canvas + 64))
            ∧ (s.chan p c INTN_CCFG.DECAY ≠ 1 →
              ∀ x ∈ s.targets p c, ∃ e ∈ u.flight, e.page = x.1 ∧ e.off = 0x120 ∧ e.due = some (s.canvas + 64))))))
    ∧ ∀ ag : Agent,
      let now := s.markedNow pk (INTN_PSTAT.QUAR.at (16 * i))
      (quar = 0 ∨ now = true → Accepts (.quarClear ag p i) s ag pk (0xC00 + 16 * i.val) s)
      ∧ (quar ≠ 0 → now = false → AcceptsTo (.quarClear ag p i) s ag pk (0xC00 + 16 * i.val) (fun u =>
          u.pstat p i INTN_PSTAT.QUAR = 0 ∧ u.pstat p i INTN_PSTAT.FAULTS = 0 ∧ (u.budget p i).spent = 0
          ∧ u.absent p i = s.absent p i))
      ∧ (∀ v : Bool, AcceptsTo (.partnerValidChange ag p i v) s ag pk (0x408 + 32 * i.val) (fun u =>
          u.partnerValid p i = v
          ∧ (s.partnerValid p i = true → v = false → s.absent p i = false → gone u)
          ∧ (s.partnerValid p i = false → v = true → u.absent p i = true ∧ u.contribution p i = 0
            ∧ u.pstat p i INTN_PSTAT.SEEN = 0 ∧ u.budget p i = {})))

/-- The Ethernet ports (R31, R278 to R281, R296 to R298): the link and what autonegotiation chooses, received frames and
the checks of the SecY, the transmit ring, the order of transmission, preemption of the frame that the port has begun,
gates, security associations and the 802.1AS instance with its intervals. Times of the gate lists are gPTP times.
Assumptions 52, 53, 73, 106 to 111. -/
def Obligations.PortsFollowTheirConfiguration : Prop :=
  ∀ (s : State) (ag : Agent) (p : Slice) (n : Fin 2),
    let pk := ethPage p n
    let v := s.port p n
    let runs := s.portsRun p
    let link := s.flag pk ETH_STATUS.LINK
    let works : Prop := runs = true ∧ link = true
    let role := s.fld pk ETH_PTP.ROLE
    (∀ l : LinkState,
      let on := s.flag pk ETH_CFG.EN
      let own := s.fld pk ETH_CFG.SPEED_ADV
      let offer := s.fld pk ETH_CFG.FEC_ADV
      let both (k : Nat) : Prop := own.testBit k = true ∧ l.speeds.getLsbD k = true
      let shows (up done : Bool) (speed fec : Nat) : Prop := Gives (.linkStateChange p n l) s (fun u =>
        u.flag pk ETH_STATUS.LINK = up ∧ u.flag pk ETH_STATUS.AN_DONE = done
        ∧ u.fld pk ETH_STATUS.SPEED_NOW = speed ∧ u.fld pk ETH_STATUS.FEC_NOW = fec
        ∧ (link ≠ up ∨ (done = true ∧ s.flag pk ETH_STATUS.AN_DONE = false) → Raised u pk 0)
        ∧ u.flag pk ETH_STATUS.PTP_SYNC
          = (up && (decide (role = 1) || (decide (role = 2) && s.flag pk ETH_STATUS.PTP_SYNC)))
        ∧ (u.port p n).syncAt = s.ticks ∧ (u.port p n).pdelayAt = s.ticks
        ∧ (up = false → u.flag pk ETH_PREEMPT.ACTIVE = false ∧ (u.port p n).cut = none ∧ (u.port p n).onWire = none))
      (runs = false → Idles (.linkStateChange p n l) s)
      ∧ (runs = true → s.flag pk ETH_CFG.AN_EN = false →
        shows (on && l.up) false (s.fld pk ETH_CFG.FORCE_SPEED) (s.fld pk ETH_CFG.FORCE_FEC))
      ∧ (runs = true → s.flag pk ETH_CFG.AN_EN = true →
        (both 1 → shows (on && l.up) (on && l.anDone) 1
          (if offer.testBit 1 = true ∨ l.fecRs = true then 2
            else if offer.testBit 0 = true ∨ l.fec74 = true then 1 else 0))
        ∧ (¬ both 1 → both 0 → shows (on && l.up) (on && l.anDone) 0
          (if offer.testBit 0 = true ∧ l.fec74 = true then 1 else 0))
        ∧ (¬ both 1 → ¬ both 0 →
          shows false false (s.fld pk ETH_STATUS.SPEED_NOW) (s.fld pk ETH_STATUS.FEC_NOW))))
    ∧ (∀ f : RxFrame,
      let counts (u : State) (g : Fld) : Prop := u.fld pk g = min (s.fld pk g + 1) (2 ^ 16 - 1) ∧ u.mem = s.mem
      let fits : Prop := 64 ≤ wireLength f ∧ wireLength f ≤ 9216
      let control : Prop := f.tag = none ∧ etherType f.bytes = 0x8808
      let mode := s.fld pk ETH_SECY_CFG.VALIDATE
      let does (post : State → Prop) : Prop := Gives (.rxFrame p n f) s post
        ∧ (f.fcs = true → Gives (.intentFrameReceived p n f.tag f.bytes) s post)
      let drops (g : Fld) : Prop := does (fun u => counts u g ∧ Raised u pk 3)
      (¬ works → Idles (.rxFrame p n f) s ∧ Idles (.intentFrameReceived p n f.tag f.bytes) s)
      ∧ (works →
        (f.fcs = false → does (fun u => counts u ETH_RX_DROPS.FCS))
        ∧ (f.fcs = true → ¬ fits → does (fun u => counts u ETH_RX_DROPS.LENGTH))
        ∧ (f.fcs = true → fits → control → does (fun u => counts u ETH_RX_DROPS.CONTROL ∧ Raised u pk 7))
        ∧ (f.fcs = true → fits → ¬ control →
          (f.tag = none → s.secy p n f = .passes none s)
          ∧ (∀ t : RxTag, f.tag = some t →
            let strict : Prop := mode = 2 ∨ t.encrypted = true
            (t.wellFormed = false → drops ETH_SECY_DROPS.OTHER)
            ∧ (t.wellFormed = true → mode = 0 →
              (t.encrypted = true → drops ETH_SECY_DROPS.OTHER)
              ∧ (t.encrypted = false → s.secy p n f = .passes none s))
            ∧ (t.wellFormed = true → mode ≠ 0 →
              (s.rxChannel p n t.sci = none →
                (strict → drops ETH_SECY_DROPS.NOSCI)
                ∧ (¬ strict → s.secy p n f = .passes none (s.dropSecy p n ETH_SECY_DROPS.NOSCI)))
              ∧ ∀ j : Nat, s.rxChannel p n t.sci = some j →
                (s.rxSa p n j t.an = none →
                  (strict → drops ETH_SECY_DROPS.OTHER)
                  ∧ (¬ strict → s.secy p n f = .passes none (s.dropSecy p n ETH_SECY_DROPS.OTHER)))
                ∧ ∀ a : Association, s.rxSa p n j t.an = some a →
                  let pn := fullPn (s.flag pk ETH_SECY_CFG.XPN) a.pn t.pn
                  let old : Prop := s.flag pk ETH_SECY_CFG.REPLAY = true ∧ pn < a.pn.toNat
                  (old → drops ETH_SECY_DROPS.REPLAY)
                  ∧ (¬ old → t.icv = false → strict → drops ETH_SECY_DROPS.ICV)
                  ∧ (¬ old → t.icv = false → ¬ strict →
                    s.secy p n f = .passes none (s.dropSecy p n ETH_SECY_DROPS.ICV))
                  ∧ (¬ old → t.icv = true → ∃ (u : State) (b : Association), s.secy p n f = .passes (some j) u
                    ∧ b ∈ (u.port p n).associations
                    ∧ b.next.toNat = max a.next.toNat (min (pn + 1) (2 ^ 64 - 1))
                    ∧ b.pn.toNat = max a.pn.toNat (b.next.toNat - s.fld pk ETH_SECY_CFG.WINDOW)
                    ∧ (a.next.toNat < s.pnLimit p n - 2 ^ 30 → s.pnLimit p n - 2 ^ 30 ≤ b.next.toNat → Raised u pk 4)))))
        ∧ (∀ (ch : Option Nat) (u : State), f.fcs = true → fits → ¬ control → s.secy p n f = .passes ch u →
          u.isIntent p n f = false →
          exec (.rxFrame p n f) s = .next (u.deliverFrame p n f ch)
          ∧ (f.rivals = [] → exec (.intentFrameReceived p n f.tag f.bytes) s = .next (u.deliverFrame p n f ch)))))
    ∧ (∀ (f : RxFrame) (ch : Option Nat),
      let u := s.deliverFrame p n f ch
      let size := s.fld pk ETH_RX_SIZE.SIZE * 128
      let head := s.fld pk ETH_RX_HEAD.OFFSET
      let tail := s.fld pk ETH_RX_TAIL.OFFSET
      let words := recordOf f.bytes (s.classOfFrame pk f.bytes) ch s.canvas
      let place_ (k : Nat) : Nat := s.fld pk ETH_RX_BASE.ADDR * 128 + (head + 8 * k) % size
      let free := (if head < tail then tail - head else size - (head - tail)) - 8
      let dropped : Prop := u.fld pk ETH_RX_DROPS.NOBUF = min (s.fld pk ETH_RX_DROPS.NOBUF + 1) (2 ^ 16 - 1) ∧ u.mem = s.mem
      let waits : Prop := s.ringWaits p n = true ∨ v.held ≠ []
      (waits → u = s.setPort p n { v with held := v.held ++ [(f, ch, s.canvas)] })
      ∧ (¬ waits → s.flag pk ETH_RX_BASE.EN = false → dropped)
      ∧ (¬ waits → s.flag pk ETH_RX_BASE.EN = true → head < size → tail < size →
        (free < 8 * words.length → dropped)
        ∧ (8 * words.length ≤ free → s.journaled p (s.frameThread p n) = false → f.rivals = [] →
          (∀ k : Nat, k < words.length → ∃ x, s.ringWord p (place_ k) = some x
            ∧ (dramBase ≤ x.1 → s.tagLost p (x.1 / 128) = false)) →
          u.fld pk ETH_RX_HEAD.OFFSET = (head + 8 * words.length) % size
          ∧ u.fld pk ETH_RX_FRAMES.COUNT = min (s.fld pk ETH_RX_FRAMES.COUNT + 1) (2 ^ 64 - 1) ∧ Raised u pk 6
          ∧ ∀ (k : Nat) (w : TWord) (a : Nat) (path : Path), words[k]? = some w → s.ringWord p (place_ k) = some (a, path) →
            u.word p a = w)))
    ∧ (s.ringWaits p n = true → s.tickHeld p n = s)
    ∧ (∀ (f : RxFrame) (ch : Option Nat) (arrival : Nat), s.ringWaits p n = false → v.held = [(f, ch, arrival)] →
        s.tickHeld p n = (s.setPort p n { v with held := [] }).fileFrame p n f ch arrival)
    ∧ (let size := s.fld pk ETH_TX_SIZE.SIZE * 128
      let head := s.fld pk ETH_TX_HEAD.OFFSET
      let addr (off : Nat) : Nat := s.fld pk ETH_TX_BASE.ADDR * 128 + off % size
      let there (off : Nat) : Prop := s.panelSpot p (addr off) = .mem p (addr off) .bank
      let lost (off : Nat) : Prop := s.bad p (addr off) = true ∨ (0x1C0000 ≤ addr off ∧ addr off < 0x200000)
      let word_ (off : Nat) : Word := payload (s.word p (addr off))
      let len := bits (word_ head) 13 0
      let count := (len + 7) / 8
      let reads : Prop := works ∧ s.flag pk ETH_TX_BASE.EN = true ∧ s.flag pk ETH_CFG.EN = true ∧ 0 < size
        ∧ head ≠ s.fld pk ETH_TX_TAIL.OFFSET ∧ s.recordWaits p n = false
      let skipped (u : State) : Prop := (u.port p n).txq = v.txq
        ∧ u.fld pk ETH_TX_BAD.COUNT = min (s.fld pk ETH_TX_BAD.COUNT + 1) (2 ^ 32 - 1)
      (¬ reads → Idles (.txRecord p n) s)
      ∧ (reads → there head → lost head → Gives (.txRecord p n) s skipped)
      ∧ (reads → there head → ¬ lost head → Gives (.txRecord p n) s (fun u =>
        u.fld pk ETH_TX_HEAD.OFFSET = (head + 8 + 8 * count) % size
        ∧ (len < 60 ∨ 9180 < len → skipped u)
        ∧ (60 ≤ len → len ≤ 9180 → (∀ k : Nat, k < count → there (head + 8 + 8 * k)) →
          ((∃ k : Nat, k < count ∧ lost (head + 8 + 8 * k)) → skipped u)
          ∧ ((∀ k : Nat, k < count → ¬ lost (head + 8 + 8 * k)) →
            ∃ f : TxFrame, (u.port p n).txq = v.txq ++ [f] ∧ f.cls = bits (word_ head) 18 16
              ∧ f.clear = (word_ head).getLsbD 20 ∧ f.bytes.length = len
              ∧ ∀ (j : Nat) (x : Byte), f.bytes[j]? = some x →
                x.toNat = (word_ (head + 8 + 8 * (j / 8))).toNat / 256 ^ (j % 8) % 256)))))
    ∧ (∀ c : Nat, s.gateOpen p n c = true ↔ s.flag pk ETH_GCL_CFG.GATE_EN = false ∨ s.fld pk ETH_GCL_CFG.OPER_LEN = 0
        ∨ (s.fld pk (ETH_GCL_OPER.GATES.at (8 * v.gatePos))).testBit c = true)
    ∧ (∀ (e : Bool) (f : TxFrame), s.firstFrame p n e = some f → f ∈ v.txq ∧ s.gateOpen p n f.cls = true
        ∧ s.express p n f.cls = e
        ∧ ∀ g ∈ v.txq, s.gateOpen p n g.cls = true → s.express p n g.cls = e → g.cls ≤ f.cls)
    ∧ (∀ f : TxFrame, v.onWire = some f → s.nextFrame p n = some (f, v.cut.filter (fun x => decide (x.frame = f))))
    ∧ (works → v.onWire = none → (s.takeWire p n).port p n = { v with onWire := (s.nextFrame p n).map Prod.fst })
    ∧ (v.onWire ≠ none → s.takeWire p n = s)
    ∧ (∀ f : TxFrame, v.onWire = none → s.firstFrame p n true = some f → s.nextFrame p n = some (f, none))
    ∧ (∀ x : Sent, v.onWire = none → s.firstFrame p n true = none → v.cut = some x → s.gateOpen p n x.frame.cls = true →
        s.nextFrame p n = some (x.frame, some x))
    ∧ (v.onWire = none → s.firstFrame p n true = none → v.cut = none →
        s.nextFrame p n = (s.firstFrame p n false).map (fun f => (f, none)))
    ∧ (∀ c : Nat, s.express p n c = true ↔ s.flag pk ETH_PREEMPT.ACTIVE = false
        ∨ (s.fld pk ETH_PREEMPT.PREEMPTABLE).testBit c = false)
    ∧ (∀ cut : Nat, ¬ works ∨ s.nextFrame p n = none → Idles (.txFrameSent p n cut) s)
    ∧ (∀ (f : TxFrame) (cut : Nat), works →
      let octets (tag : Option TxTag) (first : Nat) (u : State) : Prop :=
        let total := f.bytes.length + 4 + (if tag.isSome then 32 else 0)
        let cuts : Prop := s.express p n f.cls = false ∧ (s.firstFrame p n true).isSome = true ∧ first < cut
          ∧ 64 * (1 + s.fld pk ETH_PREEMPT.ADD_FRAG) ≤ cut - first + 4 ∧ cut + 64 ≤ total
        (u.port p n).txq = (if first = 0 then v.txq.erase f else v.txq) ∧ (u.port p n).onWire = u.nextUp p n
        ∧ (cuts → (u.port p n).sent = some ⟨f, tag, first, cut⟩ ∧ (u.port p n).cut = some ⟨f, tag, first, cut⟩
          ∧ u.fld pk ETH_TX_FRAMES.COUNT = s.fld pk ETH_TX_FRAMES.COUNT)
        ∧ (¬ cuts → (u.port p n).sent = some ⟨f, tag, first, total⟩
          ∧ (u.port p n).cut = (if first = 0 then v.cut else none)
          ∧ u.fld pk ETH_TX_FRAMES.COUNT = min (s.fld pk ETH_TX_FRAMES.COUNT + 1) (2 ^ 64 - 1))
      let guarded : Prop := s.flag pk ETH_SECY_CFG.PROTECT = true ∧ f.clear = false
      (∀ x : Sent, s.nextFrame p n = some (f, some x) → Gives (.txFrameSent p n cut) s (octets x.tag x.upto))
      ∧ (s.nextFrame p n = some (f, none) →
        (¬ guarded → Gives (.txFrameSent p n cut) s (octets none 0))
        ∧ (guarded → s.txSa p n = none → Idles (.txFrameSent p n cut) s)
        ∧ (∀ a : Association, guarded → s.txSa p n = some a →
          (s.pnLimit p n ≤ a.pn.toNat + 1 → Idles (.txFrameSent p n cut) s)
          ∧ (a.pn.toNat + 1 < s.pnLimit p n → Gives (.txFrameSent p n cut) s (fun u =>
            octets (some ⟨s.reg pk 0x150, a.an, a.pn⟩) 0 u
            ∧ { a with pn := a.pn + 1 } ∈ (u.port p n).associations
            ∧ (a.pn.toNat + 1 = s.pnLimit p n - 2 ^ 30 → Raised u pk 4))))))
    ∧ (let len := s.fld pk ETH_GCL_CFG.ADMIN_LEN
      let cycle := s.fld pk ETH_GCL_CYCLE.ADMIN
      let legal : Prop := 1 ≤ len ∧ len ≤ 128 ∧ 1000 ≤ cycle ∧ cycle ≤ 1000000000
      (legal → Accepts (.gclChange ag p n) s ag pk 0x120 (s.setFld pk ETH_GCL_CFG.PENDING 1))
      ∧ (¬ legal → AcceptsTo (.gclChange ag p n) s ag pk 0x120 (fun u => pk ∈ u.upset)))
    ∧ (∀ now : Word,
      let g := now.toNat
      let len := s.fld pk ETH_GCL_CFG.ADMIN_LEN
      let cycle := s.fld pk ETH_GCL_CYCLE.ADMIN
      let base := (s.reg pk 0x130).toNat
      let old : Prop := s.fld pk ETH_GCL_CFG.OPER_LEN ≠ 0
      let due : Prop := runs = true ∧ s.flag pk ETH_GCL_CFG.PENDING = true ∧ base ≤ g ∧ (g - base) % cycle = 0
        ∧ v.clock ≤ g ∧ (old → v.cycleStart + s.fld pk ETH_GCL_CYCLE.OPER ≤ g
          ∧ (g = base ∨ g < max v.clock (v.cycleStart + s.fld pk ETH_GCL_CYCLE.OPER) + cycle))
      (¬ due → Idles (.gclChangeApplied p n now) s)
      ∧ (due → len ≤ 128 → Gives (.gclChangeApplied p n now) s (fun u => u.fld pk ETH_GCL_CFG.OPER_LEN = len
        ∧ u.fld pk ETH_GCL_CYCLE.OPER = cycle ∧ u.reg pk 0x138 = s.reg pk 0x130
        ∧ u.flag pk ETH_GCL_CFG.PENDING = false ∧ (u.port p n).gatePos = 0 ∧ (u.port p n).cycleStart = g ∧ Raised u pk 5
        ∧ ∀ i : Nat, i < len → u.reg pk (0x800 + 8 * i) = s.reg pk (0x400 + 8 * i))))
    ∧ (∀ now : Word,
      let cycle := s.fld pk ETH_GCL_CYCLE.OPER
      let listed : Nat := ((List.range (v.gatePos + 1)).map (fun i => s.fld pk (ETH_GCL_OPER.INTERVAL.at (8 * i)))).sum
      let span := if s.fld pk ETH_GCL_CFG.OPER_LEN ≤ v.gatePos + 1 then cycle else min listed cycle
      let due : Prop := runs = true ∧ s.fld pk ETH_GCL_CFG.OPER_LEN ≠ 0 ∧ now.toNat = v.cycleStart + span
      (¬ due → Idles (.gateEntryExpiry p n now) s)
      ∧ (due → exec (.gateEntryExpiry p n now) s = .next ((s.setPort p n { v with
          clock := now.toNat
          gatePos := if span = cycle then 0 else v.gatePos + 1
          cycleStart := if span = cycle then v.cycleStart + cycle else v.cycleStart }).takeWire p n)))
    ∧ (∀ ok : Bool,
      (s.fld pk ETH_PREEMPT.VERIFY ≠ 1 → Idles (.preemptVerifyDone p n ok) s)
      ∧ (s.fld pk ETH_PREEMPT.VERIFY = 1 → Gives (.preemptVerifyDone p n ok) s (fun u =>
          u.fld pk ETH_PREEMPT.VERIFY = (if ok then 2 else 3) ∧ u.flag pk ETH_PREEMPT.ACTIVE = ok)))
    ∧ (s.secure ag = true → Accepts (.saLoadGo ag p n) s ag pk 0x158 (s.setFld pk ETH_SA_LOAD.BUSY 1))
    ∧ (s.secure ag = false → Accepts (.saLoadGo ag p n) s ag pk 0x158 s)
    ∧ (let loads : Prop := s.flag pk ETH_SA_LOAD.BUSY = true ∧ (s.panel p).wipeBank7 = false
      let a := 0x1C0000 + s.fld pk ETH_SA_LOAD.RECORD * 64
      let lost : Prop := s.bankOn p 7 = false ∨ ∃ i : Nat, i < 8 ∧ s.bad p (a + 8 * i) = true
      (¬ loads → Idles (.saLoadDone p n) s)
      ∧ (loads → lost → Gives (.saLoadDone p n) s (fun u => u.flag pk ETH_SA_LOAD.BUSY = false
          ∧ u.flag pk ETH_SA_LOAD.ERROR = true ∧ u.port p n = v))
      ∧ (loads → ¬ lost → Gives (.saLoadDone p n) s (fun u => u.flag pk ETH_SA_LOAD.BUSY = false
          ∧ ∃ x : Association, x ∈ (u.port p n).associations ∧ x.transmit = s.flag pk ETH_SA_LOAD.DIR
            ∧ x.an = s.fld pk ETH_SA_LOAD.AN
            ∧ (x.transmit = false → x.channel = s.fld pk ETH_SA_LOAD.CHANNEL)
            ∧ x.record = (List.range 8).map (fun i => payload (s.word p (a + 8 * i)))
            ∧ x.pn = reverseBytes (payload (s.word p (a + 48))))))
    ∧ (∀ pdelay : Bool,
      let long (f : Fld) : Nat := 9765625 * 2 ^ (max (-7) (min (s.sfld pk f) 3) + 7).toNat
      let early : Prop := s.ticks < (if pdelay then v.pdelayAt + long ETH_PTP.LOG_PDELAY
        else v.syncAt + long ETH_PTP.LOG_SYNC)
      let ours : Prop := s.fld canvPage CANV_DISC.SOURCE = 2 ∧ s.fld canvPage CANV_DISC.PTP_PANEL = p
        ∧ s.fld canvPage CANV_DISC.PTP_PORT = n
      (¬ works ∨ early ∨ role = 0 → Idles (.ptpIntervalExpiry p n pdelay) s)
      ∧ (works → ¬ early → pdelay = true → role ≠ 0 → exec (.ptpIntervalExpiry p n pdelay) s
          = .next (s.setPort p n { v with
            pdelays := v.pdelays + 1
            pdelayAt := s.ticks }))
      ∧ (works → ¬ early → pdelay = false → role = 1 → exec (.ptpIntervalExpiry p n pdelay) s
          = .next (s.setPort p n { v with
            syncs := v.syncs + 1
            syncAt := s.ticks }))
      ∧ (works → ¬ early → pdelay = false → role = 2 → Gives (.ptpIntervalExpiry p n pdelay) s (fun u =>
          u.port p n = { v with
            missed := v.missed + 1
            syncAt := s.ticks }
          ∧ (v.missed < 2 → u.regs = s.regs)
          ∧ (2 ≤ v.missed → u.flag pk ETH_STATUS.PTP_SYNC = false
            ∧ (s.flag pk ETH_STATUS.PTP_SYNC = true → Raised u pk 2)
            ∧ (ours → s.flag canvPage CANV_DISC_STATUS.HOLDOVER = false →
              u.flag canvPage CANV_DISC_STATUS.HOLDOVER = true ∧ Raised u canvPage 7)))))
    ∧ (∀ ps : BitVec 64,
      (¬ works ∨ role = 0 → Idles (.pdelayResponse p n ps) s)
      ∧ (works → role ≠ 0 → exec (.pdelayResponse p n ps) s
          = .next (s.setFld pk ETH_PTP_DELAY.MEAN (min ps.toNat (2 ^ 32 - 1)))))
    ∧ ∀ (ns : Word) (sub : Fin 64),
      let delay : Int := ((s.fld pk ETH_PTP_DELAY.MEAN : Int) + s.sfld pk ETH_PTP.ASYM) * 2 / 25
      (¬ works ∨ role ≠ 2 → Idles (.ptpSyncMessage p n ns sub) s)
      ∧ (works → role = 2 → Gives (.ptpSyncMessage p n ns sub) s (fun u => u.flag pk ETH_STATUS.PTP_SYNC = true
        ∧ (u.port p n).missed = 0 ∧ (u.port p n).syncAt = s.ticks ∧ (u.port p n).clock = ns.toNat
        ∧ (s.flag pk ETH_STATUS.PTP_SYNC = false → Raised u pk 2)
        ∧ (s.fld canvPage CANV_DISC.SOURCE = 2 → s.fld canvPage CANV_DISC.PTP_PANEL = p →
          s.fld canvPage CANV_DISC.PTP_PORT = n →
          u.sfld canvPage CANV_DISC_STATUS.OFFSET = clampInt (((s.canvas * 64 + sub.val : Nat) : Int)
            - ((ns.toNat * 80 : Nat) + delay - 64 * s.sfld canvPage CANV_PTP_OFFSET.OFFSET)) (-2 ^ 31) (2 ^ 31 - 1))))

/-! ### Continuity -/

/-- The journal (R303 to R308, R321): boundaries on the grid and early ones, what they capture, closes, and
`JRNL_CFG.EN`; a boundary with an unavailable partner ends the mirroring, and one without room in the rings waits, which
`STALLED` shows while it does. Where nothing is journaled, a boundary of the grid is one for a planned handover only
(R317). Sizes or regions outside their ranges are a host error of the page (R4). Assumptions 8, 55. -/
def Obligations.BoundariesCaptureThreads : Prop :=
  ∀ (s : State) (ag : Agent) (p : Slice),
    let pk := jrnlPage p
    let j := s.journal p
    let on := s.flag pk JRNL_STATUS.ACTIVE
    let awake : Prop := s.mode p ≠ HANDOVER ∧ s.mode p ≠ REST ∧ (s.panel p).resetting = none
    let grid : Prop := s.onGrid p = true ∧ (on = true ∨ j.starting = true)
    let early : Prop := on = true ∧ s.closesEarly p = true
    let mask := s.fld pk JRNL_CFG.THREADS
    let words := 2 + 48 * (maskThreads mask).length
    let away := s.unavailable (partner p)
    let len := if j.starting = true ∨ j.epochLen = 0 ∨ on = false then s.fld pk JRNL_CFG.EPOCH else j.epochLen
    let unplanned : Prop := on = true ∨ s.onGrid p = false ∨ (s.handover p).plannedAt = none
    (s.onGrid p = true ↔ 0 < len ∧ s.canvas % (len * 1250) = 0)
    ∧ (s.mode p ≠ HANDOVER → (s.mode p = REST ∨ (s.panel p).resetting.isSome = true ∨ (¬ grid ∧ ¬ early ∧ unplanned)) →
        Idles (.epochBoundary p) s)
    ∧ (awake → on = false → j.starting = false → s.onGrid p = true →
        exec (.epochBoundary p) s = .next (s.planBoundary p))
    ∧ (awake → grid → j.openAt.isSome = true → Gives (.epochBoundary p) s (fun u => u.journals = s.journals
        ∧ u.mem = s.mem ∧ u.flag pk JRNL_STATUS.CLOSE_LATE = true ∧ Raised u pk 0
        ∧ u.fld pk JRNL_COUNTS.LATE = min (s.fld pk JRNL_COUNTS.LATE + 1) (2 ^ 32 - 1)))
    ∧ (awake → grid → j.openAt = none → away = true → Gives (.epochBoundary p) s (fun u => u.mem = s.mem
        ∧ u.flag pk JRNL_STATUS.ACTIVE = false ∧ u.flag pk JRNL_STATUS.LINK_DOWN = true ∧ Raised u pk 2
        ∧ (u.journal p).starting = false))
    ∧ (awake → grid → j.openAt = none → away = false → j.starting = false → s.ringRoom p words = false →
        Gives (.epochBoundary p) s (fun u => u.mem = s.mem
          ∧ u.journal p = { j with stalls := (18, .ring words) :: j.stalls.filter (fun x => decide (x.1 ≠ 18)) }
          ∧ u.flag pk JRNL_STATUS.STALLED = true ∧ (s.flag pk JRNL_STATUS.STALLED = false → Raised u pk 3)))
    ∧ (awake → grid → j.openAt = none → away = false → j.starting = true → 8 * words ≤ s.ringSize p →
        (s.handover p).plannedAt = none → Gives (.epochBoundary p) s (fun u =>
          let k := u.journal p
          k.starting = false ∧ k.epoch = j.epoch + 1 ∧ k.held = [] ∧ k.stalls = [] ∧ k.late = [] ∧ k.openAt = some s.canvas
          ∧ (∃ l : List Entry, k.entries =
              ⟨EPOCH, 0, (j.epoch + 1) % 2 ^ 48, [tword 0 (BitVec.ofNat 64 (s.canvas % 2 ^ 62))]⟩ :: l)
          ∧ u.flag pk JRNL_STATUS.ACTIVE = true))
    ∧ (awake → grid → j.openAt = none → away = false → j.starting = false → s.ringRoom p words = true →
        (s.handover p).plannedAt = none →
        Gives (.epochBoundary p) s (fun u =>
          let k := u.journal p
          k.epoch = j.epoch + 1 ∧ k.threads = mask ∧ k.epochLen = s.fld pk JRNL_CFG.EPOCH ∧ k.openAt = some s.canvas
          ∧ k.openCkpt.map Checkpoint.thread = maskThreads mask
          ∧ (∀ c ∈ k.openCkpt, c.state = s.thread p c.thread)
          ∧ (∃ l : List Entry, k.entries = j.entries ++
              ⟨EPOCH, 0, (j.epoch + 1) % 2 ^ 48, [tword 0 (BitVec.ofNat 64 (s.canvas % 2 ^ 62))]⟩ :: l
            ∧ l.map Entry.kind = List.replicate (maskThreads mask).length CKPT
            ∧ l.map Entry.thread = maskThreads mask)
          ∧ u.flag pk JRNL_STATUS.ACTIVE = true ∧ u.flag pk JRNL_STATUS.CLOSING = true
          ∧ u.fld pk JRNL_STATUS.EPOCH = (j.epoch + 1) % 2 ^ 32 ∧ u.threads = s.threads))
    ∧ (awake → ¬ grid → early → j.openAt = none → away = false → j.starting = false →
        (s.handover p).plannedAt = none →
      (s.ringRoom p words = true → Gives (.epochBoundary p) s (fun u => Raised u pk 1 ∧ (u.journal p).epoch = j.epoch + 1
        ∧ u.fld pk JRNL_COUNTS.EARLY = min (s.fld pk JRNL_COUNTS.EARLY + 1) (2 ^ 32 - 1)))
      ∧ (s.ringRoom p words = false → Gives (.epochBoundary p) s (fun u => (u.journal p).epoch = j.epoch
        ∧ u.fld pk JRNL_COUNTS.EARLY = s.fld pk JRNL_COUNTS.EARLY)))
    ∧ (∀ b : Nat, s.mode p = HANDOVER → (s.handover p).returnAt = some b →
      (s.onGrid p = false ∨ s.canvas < b → Idles (.epochBoundary p) s)
      ∧ (s.onGrid p = true → b ≤ s.canvas → Gives (.epochBoundary p) s (fun u =>
        u.fld (hovrPage p) HOVR_STATE.STATE = 5 ∧ (u.handover p).returnAt = none
        ∧ ∀ t ∈ s.adoptedThreads p, (u.thread (partner p) t).run = .stopped)))
    ∧ (j.openAt = none ∨ on = false ∨ s.unavailable (partner p) = true → Idles (.checkpointClose p) s)
    ∧ (∀ b : Nat, j.openAt = some b → on = true → s.unavailable (partner p) = false → (s.handover p).planning = false →
      j.late = [] →
      Gives (.checkpointClose p) s (fun u =>
        let k := u.journal p
        k.closed = some b ∧ k.closedCkpt = j.openCkpt ∧ k.openAt = none ∧ k.epoch = j.epoch
        ∧ k.held = j.held.filter (fun h => decide (j.epoch ≤ h.epoch))
        ∧ u.fld pk JRNL_CLOSED.TICK = b % 2 ^ 62 ∧ u.flag pk JRNL_STATUS.CLOSING = false
        ∧ (∀ x ∈ k.stalls, x ∈ j.stalls) ∧ (u.flag pk JRNL_STATUS.STALLED = true ↔ k.stalls ≠ [])
        ∧ (b + j.epochLen * 1250 < s.canvas → Raised u pk 0 ∧ u.flag pk JRNL_STATUS.CLOSE_LATE = true)
        ∧ ((∀ h ∈ j.held, h.epoch < j.epoch → s.region p h.addr = none) → u.mem = s.mem)
        ∧ ∀ (h : HeldWrite) (i off : Nat), j.held = [h] → h.epoch < j.epoch → s.region p h.addr = some (i, off) →
            (dramBase ≤ s.mirrorAddr p i off → s.tagLost (partner p) (s.mirrorAddr p i off / 128) = false) →
            u.word (partner p) (s.mirrorAddr p i off) = h.word))
    ∧ (let en := s.flag pk JRNL_CFG.EN
      (∀ v : Bool, v = en → AcceptsTo (.jrnlEnable ag p v) s ag pk 0x100 (fun u => u.flag pk JRNL_CFG.EN = v
          ∧ u.journals = s.journals))
      ∧ (en = false → s.journalBad p = false → AcceptsTo (.jrnlEnable ag p true) s ag pk 0x100 (fun u =>
          u.flag pk JRNL_CFG.EN = true ∧ (u.journal p).starting = true ∧ (u.journal p).closed = none
          ∧ u.flag pk JRNL_STATUS.LINK_DOWN = false))
      ∧ (en = false → s.journalBad p = true →
          AcceptsTo (.jrnlEnable ag p true) s ag pk 0x100 (fun u => pk ∈ u.upset))
      ∧ (en = true → AcceptsTo (.jrnlEnable ag p false) s ag pk 0x100 (fun u => u.flag pk JRNL_CFG.EN = false
          ∧ u.flag pk JRNL_STATUS.ACTIVE = false ∧ (u.journal p).starting = false ∧ (u.journal p).openAt = none
          ∧ u.flag pk JRNL_STATUS.STALLED = false ∧ (u.journal p).stalls = [] ∧ (u.journal p).closed = j.closed)))

/-- Handover (R309 to R318, R322): the watchdog fails a panel; the check adopts or orphans the pages; adopted threads
run on from the last closed checkpoint and catch up; planned handover, which a boundary checks, release and return.
Assumptions 15, 56, 57, 60, 132. -/
def Obligations.PartnersTakeOver : Prop :=
  ∀ (s : State) (ag : Agent) (sl : Slice),
    let pk := hovrPage sl
    let q := partner sl
    let h := s.handover sl
    let st := s.fld pk HOVR_STATE.STATE
    let wdog := s.fld pk HOVR_CFG.WDOG
    let counts : Prop := wdog ≠ 0 ∧ s.present sl = true ∧ s.mode sl ≠ PRIME ∧ s.mode sl ≠ REST ∧ s.halted sl = false
      ∧ h.wdogFrom + wdog * 1250 ≤ s.ticks
    Accepts (.hovrKick ag sl) s ag pk 0x118 (s.setHandover sl { h with wdogFrom := s.ticks })
    ∧ (¬ counts ∨ (s.panel sl).held = true → Idles (.watchdogExpiry sl) s)
    ∧ (counts → (s.panel sl).held = false → s.mode sl ≠ HANDOVER → Gives (.watchdogExpiry sl) s (fun u =>
        u.mode sl = HANDOVER ∧ u.under sl = s.mode sl ∧ (u.panel sl).held = true
        ∧ u.fld pk HOVR_STATE.CAUSE = 3 ∧ u.fld pk HOVR_DETECT.TICK = s.canvas % 2 ^ 62
        ∧ u.fld (modePage sl) MODE_PANEL_RESET.LAST = 3
        ∧ (∀ t : Nat, t < 16 → (u.thread sl t).run = .stopped)
        ∧ ((u.fld pk HOVR_STATE.STATE = 1 ∧ Raised u pk 1) ∨ (u.fld pk HOVR_STATE.STATE = 3 ∧ Raised u pk 2))))
    ∧ (s.mode sl ≠ HANDOVER ∨ st ≠ 3 → Idles (.hovrAdopt sl) s)
    ∧ (s.mode sl = HANDOVER → st = 3 →
      (s.handoverCheck sl = 0 → Gives (.hovrAdopt sl) s (fun u => u.fld pk HOVR_STATE.STATE = 1
          ∧ u.fld pk HOVR_STATE.REFUSE = 0 ∧ Raised u pk 1 ∧ (u.handover sl).restoring = true ∧ u.mem = s.mem
          ∧ ∀ k ∈ s.ownedPages sl, u.adopted k = true ∧ u.orphaned k = false))
      ∧ (s.handoverCheck sl ≠ 0 → Gives (.hovrAdopt sl) s (fun u => u.fld pk HOVR_STATE.STATE = 3
          ∧ u.fld pk HOVR_STATE.REFUSE = s.handoverCheck sl ∧ Raised u pk 2 ∧ u.mem = s.mem
          ∧ ∀ k ∈ s.ownedPages sl, u.adopted k = false ∧ u.orphaned k = true)))
    ∧ (s.unavailable q = true → s.handoverCheck sl = 4)
    ∧ (s.unavailable q = false → (s.journal sl).closed = none → s.handoverCheck sl = 5)
    ∧ (h.restoring = false ∨ s.unavailable q = true → Idles (.threadRestore sl) s)
    ∧ (h.restoring = true → s.unavailable q = false →
      ((s.journal sl).closedCkpt = [] → exec (.threadRestore sl) s = .next (s.setHandover sl { h with restoring := false }))
      ∧ ∀ c : Checkpoint, (s.journal sl).closedCkpt = [c] → Gives (.threadRestore sl) s (fun u =>
          let th := u.thread q (s.mapEntry sl c.thread).2
          (u.handover sl).restoring = false ∧ th.adopted = some c.thread ∧ th.through = false ∧ th.run = c.state.run
          ∧ th.status = c.state.status ∧ th.retired = c.state.retired ∧ th.csp = c.state.csp ∧ th.osp = c.state.osp
          ∧ th.stack.length = c.state.stack.length))
    ∧ (∀ i : Fin 16, s.carrier sl i = none → Idles (.threadThrough sl i) s)
    ∧ (∀ (i : Fin 16) (t : Nat), s.carrier sl i = some t →
      let waits : Prop := st = 1 ∧ h.restoring = false ∧ (s.thread q t).through = false ∧ s.replaying q t = false
      let last : Prop := ∀ k ∈ s.adoptedThreads sl, k = t ∨ (s.thread q k).through = true
      (¬ waits → Idles (.threadThrough sl i) s)
      ∧ (waits → ¬ last → exec (.threadThrough sl i) s
          = .next (s.setThread q t { s.thread q t with through := true }))
      ∧ (waits → last → Gives (.threadThrough sl i) s (fun u => u.fld pk HOVR_STATE.STATE = 2 ∧ Raised u pk 3
          ∧ u.fld pk HOVR_CAUGHT_UP.TICK = s.canvas % 2 ^ 62 ∧ (u.handover sl).held = []
          ∧ (u.thread q t).through = true
          ∧ u.fld pk HOVR_COUNTS.DROPPED = min (s.fld pk HOVR_COUNTS.DROPPED
              + (h.held.filter (fun x => x.own)).length) (2 ^ 16 - 1)
          ∧ ∀ x : HeldDevice, h.held = [x] → x.own = false → x.off ≠ 0x040 →
              ∃ e ∈ u.flight, e.page = x.page ∧ e.off = x.off ∧ e.data = x.data ∧ e.origin = x.origin)))
    ∧ (let plans : Prop := s.present sl = true ∧ s.mode sl ≠ PRIME ∧ s.mode sl ≠ HANDOVER ∧ st = 0
      (¬ plans → Idles (.hovrPlanned sl) s)
      ∧ (plans → exec (.hovrPlanned sl) s
          = .next ((s.setHandover sl { h with plannedAt := some s.canvas }).setFld pk HOVR_STATE.STATE 4)))
    ∧ (∀ b : Nat, h.plannedAt = some b →
      let why := s.handoverCheck sl
      (s.canvas < b → s.planBoundary sl = s)
      ∧ (b ≤ s.canvas → why ≠ 0 → h.stopped = [] →
        let u := s.planBoundary sl
        u.fld pk HOVR_STATE.STATE = 0 ∧ u.fld pk HOVR_STATE.REFUSE = why ∧ Raised u pk 2
          ∧ (u.handover sl).plannedAt = none ∧ u.threads = s.threads ∧ u.mem = s.mem)
      ∧ (b ≤ s.canvas → why = 0 → s.flag (jrnlPage sl) JRNL_STATUS.ACTIVE = false → s.planBoundary sl = s)
      ∧ (b ≤ s.canvas → why = 0 → s.flag (jrnlPage sl) JRNL_STATUS.ACTIVE = true →
        let u := s.planBoundary sl
        (u.handover sl).planning = true ∧ (u.handover sl).plannedAt = none ∧ u.regs = s.regs
          ∧ ∀ t ∈ s.journaledThreads sl, (s.thread sl t).run = .running → (u.thread sl t).run = .stopped))
    ∧ (let releases : Prop := s.mode sl = HANDOVER ∧ (s.panel sl).held = true
      (¬ releases → Accepts (.hovrRelease ag sl) s ag pk 0x120 s)
      ∧ (releases → AcceptsTo (.hovrRelease ag sl) s ag pk 0x120 (fun u => (u.panel sl).held = false
          ∧ (u.panel sl).resetting = some true ∧ (u.handover sl).released = true
          ∧ (u.handover sl).wdogFrom = s.ticks ∧ u.mode sl = HANDOVER)))
    ∧ (let returns : Prop := st = 2 ∧ h.released = true ∧ (s.panel sl).held = false ∧ (s.panel sl).resetting = none
      (¬ returns → Idles (.hovrReturn sl) s)
      ∧ (returns → exec (.hovrReturn sl) s = .next (s.setHandover sl { h with returnAt := some s.canvas })))
    ∧ (st ≠ 5 ∨ s.mode sl ≠ HANDOVER → Idles (.returnComplete sl) s)
    ∧ (st = 5 → s.mode sl = HANDOVER →
      let blocked : Prop := ∃ t ∈ s.adoptedThreads sl, ∃ i, (s.thread q t).adopted = some i ∧ s.freeThread sl i = false
      (blocked → Gives (.returnComplete sl) s (fun u => u.fld pk HOVR_STATE.STATE = 2 ∧ u.fld pk HOVR_STATE.REFUSE = 2
          ∧ Raised u pk 2 ∧ u.mode sl = HANDOVER ∧ u.mem = s.mem))
      ∧ (¬ blocked → Gives (.returnComplete sl) s (fun u => u.fld pk HOVR_STATE.STATE = 0 ∧ u.mode sl = s.under sl
          ∧ Raised u pk 4 ∧ (u.handover sl).released = false
          ∧ (∀ k ∈ s.ownedPages sl, u.adopted k = false ∧ u.orphaned k = false)
          ∧ ∀ t i : Nat, i < 16 → s.adoptedThreads sl = [t] → (s.thread q t).adopted = some i →
            (u.thread sl i).pc = (s.thread q t).pc ∧ (u.thread sl i).status = (s.thread q t).status
            ∧ (u.thread sl i).stack = (s.thread q t).stack ∧ (u.thread sl i).adopted = none
            ∧ (u.thread q t).run = .stopped ∧ (u.thread q t).adopted = none)))

/-! ### Modes, resets, supplies -/

/-- Mode commands (R325, R326, R328, R330): a command of a slice's own page changes it as its tick ends, and its sector's
units follow it at once, unless a package-wide one has acted there in that tick; which commands are refused and with
which code, and where the others lead. Assumptions 16, 114. -/
def Obligations.CommandsMoveTheMode : Prop :=
  ∀ (s : State) (sl : Slice) (x : Nat × (ModeCmd → Instr)),
    x ∈ [(COMMISSION, Instr.modeCommission), (RUN, Instr.modeRun), (HOLD, Instr.modeHold), (REST, Instr.modeRest)] →
    let pk := modePage sl
    let target := x.1
    let c := x.2 (.slice sl)
    let m := s.mode sl
    let pn := s.panel sl
    let u := s.commandNow sl target
    let refused (code : Nat) : Prop := u.fld pk MODE_STATE.REFUSED = code ∧ Raised u pk 1 ∧ u.mode sl = m
      ∧ u.under sl = s.under sl
    let cause := s.fld pk MODE_STATE.LAST_CAUSE
    let live : List Bool := [s.flag (tripPage sl) TRIP_OVERRIDE.THERMAL, (s.trip sl).clockMissing, s.halted sl,
      s.fatalLatched sl]
    let stop := s.blocked sl
    let leaves : Prop := target = COMMISSION ∨ target = RUN
    (∀ i : Nat, live[i]? = some true → (∀ k : Nat, k < i → live[k]? = some false) → stop = i + 2)
    ∧ ((∀ b ∈ live, b = false) → stop = 0)
    ∧ (s.present sl = false ∨ (∃ b : Bool, pn.commandAt = some (s.ticks, b)) → Idles c s)
    ∧ (s.present sl = true → (∀ b : Bool, pn.commandAt ≠ some (s.ticks, b)) →
      (s.timeStands = true → exec c s = .next u)
      ∧ (s.timeStands = false →
        let next := (s.obeyAll sl (pn.orders ++ [target])).shownMode sl
        let v := s.setPanel sl { pn with
          orders := pn.orders ++ [target]
          soon := some next }
        exec c s = .next v ∧ v.sectorMode sl = next))
    ∧ (∀ l : List Nat, pn.orders = target :: l → s.tickOrders sl
        = l.foldl (fun v k => v.commandNow sl k) ((s.setPanel sl { pn with
            orders := []
            soon := none }).commandNow sl target))
    ∧ (pn.movedAt = some s.ticks → refused (if cause = 3 then 2 else if cause = 2 then 3 else if cause = 4 then 4 else 5))
    ∧ (pn.movedAt ≠ some s.ticks →
      (m = PRIME → refused 1)
      ∧ (m = HANDOVER → target = REST → refused 6)
      ∧ (m = HANDOVER ∨ m = REST → target ≠ REST → s.under sl = HOLD → leaves → stop ≠ 0 → refused stop)
      ∧ (m = HANDOVER → target ≠ REST → s.under sl ≠ HOLD ∨ ¬ leaves ∨ stop = 0 →
        u.mode sl = HANDOVER ∧ u.under sl = target)
      ∧ (m = REST → target = REST → u = s)
      ∧ (m = REST → target ≠ REST → s.under sl ≠ HOLD ∨ ¬ leaves ∨ stop = 0 →
        u.mode sl = target ∧ u.under sl = target ∧ (u.panel sl).island = false ∧ Raised u pk 5)
      ∧ (m = COMMISSION ∨ m = RUN ∨ m = HOLD →
        (m = target → u = s)
        ∧ (target = REST → s.flag pk MODE_STATE.REST_PENDING = false →
          u.flag pk MODE_STATE.REST_PENDING = true ∧ u.mode sl = m ∧ (u.panel sl).restFrom = some s.ticks)
        ∧ (target ≠ REST → m ≠ target → m = HOLD → stop ≠ 0 → refused stop)
        ∧ (target ≠ REST → m ≠ target → m ≠ HOLD ∨ stop = 0 →
          u.mode sl = target ∧ u.under sl = target ∧ Raised u pk 0 ∧ u.mem = s.mem
          ∧ (target ≠ RUN → (u.trip sl).released = 0))))
    ∧ ∀ mask : BitVec 8, target ≠ REST →
        (∀ k : Nat, k < 8 → mask.getLsbD k = true → s.present k = true ∧ (s.panel k).movedAt ≠ some s.ticks
          ∧ (s.mode k = COMMISSION ∨ s.mode k = RUN)) →
        Gives (x.2 (.package mask)) s (fun v => ∀ k : Nat, k < 8 →
          (v.mode k = if mask.getLsbD k = true then target else s.mode k)
          ∧ (mask.getLsbD k = true → (v.panel k).orders = [] ∧ ∃ b : Bool, (v.panel k).commandAt = some (s.ticks, b)))

/-- Entry into `REST` and the resets of panels and threads (R329, R332, R333): what they leave, and the start records
from which threads begin to fetch; a record in DRAM that is being initialised is waited for (R235). Assumptions 35,
58. -/
def Obligations.ThreadsStartFromTheirRecords : Prop :=
  ∀ (s : State) (ag : Agent) (p : Slice),
    let pk := modePage p
    let able : Prop := s.present p = true ∧ (s.panel p).held = false ∧ (s.panel p).resetting = none
    let at_ (t : Nat) : Nat := s.fld pk MODE_START.ADDR * 128 + 128 * t
    let starts (u : State) (t : Nat) : Prop :=
      (s.startWaits p t = true → t ∈ (u.panel p).starts ∧ (u.thread p t).run = (.stopped : Run))
      ∧ (s.startWaits p t = false → (dramBase ≤ at_ t → s.tagLost p (at_ t / 128) = false) →
      (s.startGood p t = true → (u.thread p t).run = .running
        ∧ (u.thread p t).pc = (payload (s.startWord p t 0)).toNat % 2 ^ 48
        ∧ (u.thread p t).status = payload (s.startWord p t 1) &&& 0x1F1F
        ∧ (u.thread p t).csp = payload (s.startWord p t 5) &&& 0x0000FFFFFFFFFFF8)
      ∧ (s.startGood p t = false → (u.thread p t).run = (.stopped : Run)
        ∧ (u.fld pk MODE_THREAD_STATE.BAD_START).testBit t = true ∧ Raised u pk 3))
    (∀ m : BitVec 16,
      (¬ able → Accepts (.threadResetStop ag p m) s ag pk 0x128 s ∧ Accepts (.threadResetStart ag p m) s ag pk 0x128 s)
      ∧ (able →
        AcceptsTo (.threadResetStop ag p m) s ag pk 0x128 (fun u => ∀ t : Fin 16,
          (m.getLsbD t = true → (u.thread p t).run = .stopped ∧ (u.thread p t).status = 0x100 ∧ (u.thread p t).stack = []
            ∧ ∀ x ∈ (u.core p (t / 4)).prio, x.thread ≠ t)
          ∧ (m.getLsbD t = false → u.thread p t = s.thread p t))
        ∧ AcceptsTo (.threadResetStart ag p m) s ag pk 0x128 (fun u => ∀ t : Fin 16, m.getLsbD t = true → starts u t)))
    ∧ (s.present p = false ∨ s.mode p = PRIME ∨ (s.panel p).held = true → Accepts (.modeWarm ag p) s ag pk 0x100 s)
    ∧ (s.present p = true → s.mode p ≠ PRIME → (s.panel p).held = false →
        AcceptsTo (.modeWarm ag p) s ag pk 0x100 (fun u => (u.panel p).resetting = some true ∧ u.mode p = s.mode p
          ∧ u.fld pk MODE_PANEL_RESET.LAST = 1
          ∧ u.fld pk MODE_PANEL_RESET.COUNT = min (s.fld pk MODE_PANEL_RESET.COUNT + 1) (2 ^ 32 - 1)
          ∧ ∀ t : Nat, t < 16 → (u.thread p t).run = .stopped))
    ∧ ((s.panel p).resetting = none → Idles (.panelWarmResetDone p) s)
    ∧ ((s.panel p).resetting.isSome = true → s.mode p ≠ HANDOVER → (∀ t : Nat, t < 16 → (s.thread p t).run = .stopped) →
        Gives (.panelWarmResetDone p) s (fun u => (u.panel p).resetting = none ∧ u.mem = s.mem ∧ ∀ t : Fin 16,
          ((s.fld pk MODE_AUTORUN.MASK).testBit t = true → starts u t)
          ∧ ((s.fld pk MODE_AUTORUN.MASK).testBit t = false → (u.thread p t).run = (.stopped : Run))))
    ∧ (s.flag pk MODE_STATE.REST_PENDING = false ∨ s.restReady p = false → Idles (.restEntryComplete p) s)
    ∧ (s.flag pk MODE_STATE.REST_PENDING = true → s.restReady p = true → Gives (.restEntryComplete p) s (fun u =>
        u.mode p = REST ∧ u.under p = s.mode p ∧ (u.panel p).island = true ∧ (u.panel p).restTick = s.ticks
        ∧ (u.panel p).watched = s.watchedSet p ∧ u.flag pk MODE_STATE.REST_PENDING = false
        ∧ u.flag (ddrcPage p) DDRC_STATE.SELF_REFRESH = true
        ∧ u.flag (ethPage p 0) ETH_STATUS.LINK = false ∧ u.flag (ethPage p 1) ETH_STATUS.LINK = false))

/-- A reset through `PRIME` has begun (R25, R331, R335): time is 0, every slice is in `PRIME`, memory is empty, no
thread runs; what the MRAM, the fuses and the pins hold stands. -/
def Primed (s u : State) (cause : Nat) : Prop :=
  u.ticks = 0 ∧ u.canvas = 0 ∧ u.mem = [] ∧ u.flight = [] ∧ u.twq = [] ∧ (∀ sl : Nat, sl < 8 → u.mode sl = PRIME)
    ∧ (∀ p t : Nat, (u.thread p t).run = .stopped)
    ∧ u.fld modePkgPage MODE_RESET_CAUSE.CAUSE = cause ∧ u.fuses = s.fuses ∧ u.supply.record = s.supply.record
    ∧ u.supply.banksDown = s.supply.banksDown
    ∧ u.burn = none ∧ u.evtLow = s.evtLow ∧ u.pending = s.pending ∧ (s.commit = none → u.slotA = s.slotA ∧ u.slotB = s.slotB)

/-- Package resets, supplies and temperature (R61, R331, R339 to R342, R387): the causes of a reset; the levels of the
rails and how long a rail must stand beyond one; a dip of a rail is seen, noted and recorded, and ends with the last
rail; a rail below its reset level; the junction thresholds. Assumptions 3, 5, 74, 102. -/
def Obligations.SuppliesAndResets : Prop :=
  ∀ (s : State) (ag : Agent),
    let mp := modePkgPage
    (∀ code : BitVec 16,
      (code = 0xC01D → AcceptsTo (.pkgResetCmd ag code) s ag mp 0x100 (fun u => u.boot = .priming ∧ Primed s u 3))
      ∧ (code ≠ 0xC01D → Accepts (.pkgResetCmd ag code) s ag mp 0x100 s))
    ∧ (s.boot ≠ .cold → Gives .pkgResetPin s (fun u => u.boot = .priming ∧ u.resetPinLow = true ∧ Primed s u 2))
    ∧ (s.boot = .cold → exec .pkgResetPin s = .next { s with resetPinLow := true })
    ∧ exec .pkgResetNRelease s = .next { s with resetPinLow := false }
    ∧ (s.boot = .cold → Gives .powerOn s (fun u => u.boot = .priming ∧ u.ticks = 0 ∧ u.canvas = 0 ∧ u.regs = s.regs))
    ∧ (s.boot ≠ .cold → Idles .powerOn s)
    ∧ (∀ b : Fin 16, s.bank33 b = true ↔
        (s.boot ≠ .done ∧ s.restored = false) ∨ (s.fld mp MODE_BANKV.V33).testBit b = true)
    ∧ (∀ r : Rail, s.railLevels r = match r with
        | .core n => (match n.val with
          | 0 => (715, 690, 10)
          | 1 | 2 => (765, 740, 10)
          | 3 => (1710, 1650, 10)
          | 5 => (1060, 1030, 10)
          | _ => (860, 830, 10))
        | .bank b => if s.bank33 b = true then (3130, 2970, 20) else (1710, 1620, 10))
    ∧ (∀ (r : Rail) (x : RailReading),
      let level := s.railLevels r
      let low : Prop := x.millivolts < level.1 ∧ 64 ≤ x.ticks
      let under : Prop := x.millivolts < level.2.1 ∧ 64 ≤ x.ticks
      let back : Prop := level.1 + level.2.2 ≤ x.millivolts ∧ 1250 ≤ x.ticks
      (¬ low ∨ s.boot = .cold ∨ s.railThere r = false ∨ s.railBelow r = true → Idles (.railBelowWarning r x) s)
      ∧ (¬ under ∨ s.railThere r = false → Idles (.railBelowReset r x) s)
      ∧ (¬ back → Idles (.railRecovered r x) s)
      ∧ (low → s.boot ≠ .cold → s.railThere r = true → s.railBelow r = false → Gives (.railBelowWarning r x) s (fun u =>
          u.railBelow r = true ∧ Raised u mp 0 ∧ u.supply.dip = true ∧ u.mem = s.mem
          ∧ (s.flag upntPage UPNT_STATUS.DIP_VALID = false → s.supply.taken = none → u.supply.taken.isSome = true)
          ∧ (s.flag upntPage UPNT_STATUS.DIP_VALID = true ∨ s.supply.taken.isSome = true →
            u.flag upntPage UPNT_STATUS.DIP_OVERRUN = true ∧ u.supply.taken = s.supply.taken)
          ∧ (s.supply.dip = false → ∀ sl c : Nat, s.present sl = true → c < 16 →
            s.fld (fadcPage sl c) FADC_SCHED.MODE ≠ 0 →
            u.fld (fadcPage sl c) FADC_DIP_START.START = s.canvas % 2 ^ 62
            ∧ u.flag (fadcPage sl c) FADC_DIP_END.OPEN = true ∧ Raised u (fadcPage sl c) 2)))
      ∧ (back → s.railBelow r = true → Gives (.railRecovered r x) s (fun u => u.railBelow r = false ∧ Raised u mp 1
          ∧ (u.allRecovered = true → u.supply.dip = false ∧ ∀ sl c : Nat, s.present sl = true → c < 16 →
            s.flag (fadcPage sl c) FADC_DIP_END.OPEN = true →
            u.fld (fadcPage sl c) FADC_DIP_END.END = s.canvas % 2 ^ 62 ∧ u.flag (fadcPage sl c) FADC_DIP_END.OPEN = false)
          ∧ (u.allRecovered = false → u.supply.dip = s.supply.dip)))
      ∧ (∀ n : Fin 7, r = .core n →
        (s.boot = .cold → Idles (.railBelowReset r x) s)
        ∧ (under → s.boot ≠ .cold → Gives (.railBelowReset r x) s (fun u => u.boot = .cold ∧ Primed s u 4
          ∧ u.fld mp MODE_RESET_CAUSE.RAIL = n))
        ∧ (s.railBelow r = false → Idles (.railRecovered r x) s))
      ∧ ∀ b : Fin 16, r = .bank b →
        let down (u : State) := u.supply.banksDown.getLsbD b
        (back → s.railBelow r = false → Gives (.railRecovered r x) s (fun u =>
          u.supply.dip = s.supply.dip ∧ down u = false
          ∧ (∀ k : Nat, k ≠ b → u.supply.banksDown.getLsbD k = s.supply.banksDown.getLsbD k)
          ∧ (u.fld mp MODE_SUPPLY.BANK_LOW).testBit b = false))
        ∧ (down s = true → Idles (.railBelowReset r x) s)
        ∧ (under → s.railThere r = true → down s = false → Gives (.railBelowReset r x) s (fun u => down u = true
          ∧ u.boot = s.boot
          ∧ (s.boot = .cold → u.regs = s.regs)
          ∧ (s.boot ≠ .cold → (u.fld mp MODE_SUPPLY.BANK_LOW).testBit b = true ∧ Raised u mp 2)
          ∧ ∀ (p : Nat) (out : Out), 8 * (b.val % 2) ≤ p → p < 8 * (b.val % 2) + 8 →
            u.pin (b.val / 2) p out = .z)))
    ∧ (s.supply.taken = none → Idles .dipRecordWritten s)
    ∧ (∀ r : Store Word, s.supply.taken = some r → Gives .dipRecordWritten s (fun u => u.supply.record = r
        ∧ u.supply.taken = none ∧ u.flag upntPage UPNT_STATUS.DIP_VALID = true))
    ∧ ∀ (sl : Slice) (t : Int),
      let pk := modePage sl
      let thermal (u : State) := u.flag (tripPage sl) TRIP_OVERRIDE.THERMAL
      let warn : Int := s.fld pk MODE_THERMAL.WARN
      (s.boot = .cold ∨ s.present sl = false → Idles (.junctionReading sl t) s)
      ∧ (s.boot ≠ .cold → s.present sl = true → -256 ≤ t → t < 256 → Gives (.junctionReading sl t) s (fun u =>
          u.sfld pk MODE_THERMAL.NOW = t
          ∧ (warn ≤ t → (u.panel sl).warned = true ∧ ((s.panel sl).warned = false → Raised u pk 4))
          ∧ (t ≤ warn - 5 → (u.panel sl).warned = false)
          ∧ (135 < t → thermal u = true ∧ (thermal s = false → s.mode sl = RUN → u.mode sl = HOLD))
          ∧ (t < 130 → thermal u = false)
          ∧ (130 ≤ t → t ≤ 135 → thermal u = thermal s)
          ∧ ∀ c : Nat, c < 16 → (20 < t - (s.conv sl c).calJunction ∨ t - (s.conv sl c).calJunction < -20) →
            u.flag (fadcPage sl c) FADC_CAL.CAL_DUE = true))

/-- The end of `PRIME` (R338, R347 to R352), without an underpainting and with no pair that starts by itself: a slice
that gesso fails is in `HOLD`; every other in `HOLD` or the mode that `RESUME` names; a blank package boots an image
with the magic number whose ranges hold. The restore itself ends before, at 12 ms at the latest (R347). Assumptions 5,
19, 133. -/
def Obligations.PrimeEndsInHoldOrResume : Prop :=
  ∀ (s : State) (gesso : List GessoSlice) (a b : Image),
    (s.tickPrime = if s.boot = .priming ∧ s.restored = false ∧ 15000000 ≤ s.ticks then s.endRestore else s)
    ∧ s.endRestore.restored = true
    ∧ (s.boot ≠ .priming ∨ gesso.length < s.variant.slices → Idles (.primeEnd gesso a b) s)
    ∧ (s.boot = .priming → s.variant.slices ≤ gesso.length → s.restored = false → s.slotA = none → s.slotB = none →
      (∀ sl p : Nat, sl < 8 → p < 16 → s.flag (pwmpPage sl p) PWMP_CFG.AUTOSTART = false) →
      Gives (.primeEnd gesso a b) s (fun u => u.boot = .done ∧ u.ticks = s.ticks ∧ u.fuses = s.fuses
        ∧ u.fld upntPage UPNT_STATUS.RESTORED = 2
        ∧ (∀ sl : Nat, s.present sl = true → (u.mode sl = HOLD ∨ u.mode sl = s.fld (modePage sl) MODE_RESUME.RESUME)
          ∧ Store.read 0 u.anchors sl = s.ticks
          ∧ ∀ g : GessoSlice, gesso[sl]? = some g → (sectorFails g = true ∨ panelFails g = true → u.mode sl = HOLD)
            ∧ (panelFails g = true → (u.panel sl).held = true)
            ∧ ∀ c : Nat, c < 32 → u.fld (wcmpPage sl c) WCMP_CHECK.RESULT = g.steps.toNat / 16 ^ c % 16)
        ∧ (s.fuses.state = 4 → u.fld lifePage LIFE_BOOT.STATUS = 4 ∧ ∀ sl : Nat, s.present sl = true → u.mode sl = HOLD)
        ∧ (s.fuses.state = 0 → a.answers = true → a.magic = 0x4B564931 → rangesGood a = true →
          u.fld lifePage LIFE_BOOT.STATUS = 2 ∧ u.fld lifePage LIFE_BOOT.VERSION = a.version.toNat
          ∧ ∀ (p : Nat) (g : GessoSlice), s.present p = true → (s.panel p).held = false → gesso[p]? = some g →
            panelFails g = false →
            (u.thread p 0).run = .running ∧ (u.thread p 0).pc = 8 * a.entry ∧ (u.thread p 0).status = 0x100
            ∧ (u.thread p 0).vbase = BitVec.ofNat 64 (8 * a.vectors) ∧ (u.thread p 0).csp = 0x1C0000
            ∧ ∀ (i : Nat) (w : TWord), a.payload[i]? = some w →
              s.fld (scrPage p) ⟨0x100, 2 * (8 * i / 0x40000) + 1, 2 * (8 * i / 0x40000)⟩ = 0 → u.word p (8 * i) = w)))

/-! ### The underpainting, lifecycle and tamper -/

/-- Commits (R337, R345): what starts one, which slot it takes, what it captures, and how it ends; a slot is
valid by its marker, variant and CRC (R336). Assumptions 74, 113. -/
def Obligations.CommitsWriteTheOlderSlot : Prop :=
  ∀ (s : State) (ag : Agent),
    let pk := upntPage
    let busy := s.flag pk UPNT_STATUS.BUSY
    let newest := s.newestSlot
    let intoB : Bool := newest.elim false (fun x => !x.1)
    let starts (c : Instr) (secure : Store TWord) : Prop := AcceptsTo c s ag pk 0x100 (fun u =>
      u.flag pk UPNT_STATUS.BUSY = true ∧ u.mem = s.mem ∧ u.threads = s.threads
      ∧ (intoB = true → u.slotA = s.slotA ∧ u.slotB.map (Painting.valid s.variant) = some false)
      ∧ (intoB = false → u.slotB = s.slotB ∧ u.slotA.map (Painting.valid s.variant) = some false)
      ∧ ∃ w : Commit, u.commit = some w ∧ w.slotB = intoB ∧ w.data.valid s.variant = true ∧ w.data.secure = secure
        ∧ w.data.tick = s.canvas % 2 ^ 62
        ∧ w.data.gen = newest.elim 1 (fun x => (x.2.gen + 1) % 2 ^ 32)
        ∧ ((s.regs.map Prod.fst).Nodup → s.carriedPanels = [] →
            u.fld pk UPNT_STATUS.CARRIED = 0
            ∧ ∀ k o : Nat, o < 4096 → hasU k o = true →
              Store.read (defaultWord k o) w.data.fields (regKey k o) = keepU k o (s.reg k o))
        ∧ ∀ p : Nat, p < 8 → (s.regs.map Prod.fst).Nodup → s.carriedPanels = [p] →
            u.fld pk UPNT_STATUS.CARRIED = 2 ^ p
            ∧ ∀ k o : Nat, o < 4096 → hasU k o = true → windowOf k ≠ 8 + p →
              Store.read (defaultWord k o) w.data.fields (regKey k o) = keepU k o (s.reg k o))
    (busy = true → Accepts (.upntCommit ag) s ag pk 0x100 s ∧ Accepts (.upntCommitKeys ag) s ag pk 0x100 s)
    ∧ (s.secure ag = false → Accepts (.upntCommitKeys ag) s ag pk 0x100 s)
    ∧ (busy = false → starts (.upntCommit ag) (newest.elim [] (fun x => x.2.secure)))
    ∧ (busy = false → s.secure ag = true → starts (.upntCommitKeys ag) s.captureKeys)
    ∧ (∀ ok : Bool,
      (s.commit = none → Idles (.commitDone ok) s)
      ∧ ∀ c : Commit, s.commit = some c → Gives (.commitDone ok) s (fun u => u.commit = none ∧ u.mem = s.mem
          ∧ u.flag pk UPNT_STATUS.BUSY = false ∧ u.flag pk UPNT_STATUS.FAILED = !ok
          ∧ u.slotA = (if ok = true ∧ c.slotB = false then some c.data else s.slotA)
          ∧ u.slotB = (if ok = true ∧ c.slotB = true then some c.data else s.slotB)
          ∧ Raised u pk (if ok then 0 else 1)))

/-- Lifecycle and unlock (R354 to R356): the transitions of the table and no others; the keys are wiped first, the fuses
are burnt as the last wipe of a bank 7 ends, and a package reset follows; the rollback floor, and the challenge and
response that unlock Easel. Assumptions 17, 18, 59, 134. -/
def Obligations.LifecycleAndUnlock : Prop :=
  ∀ (s : State) (ag : Agent),
    let pk := lifePage
    let st := s.fuses.state
    let tries := s.fld pk LIFE_STATE.TRIES
    (∀ (confirm : BitVec 16) (target : Fin 8),
      let may : Prop := (st = 0 ∧ target.val = 1 ∧ s.image.isSome = true) ∨ (st = 1 ∧ target.val = 2)
        ∨ (st = 1 ∧ target.val = 3) ∨ (st = 2 ∧ target.val = 3 ∧ s.fld pk LIFE_STATE.UNLOCK = 2)
        ∨ (st ≠ 4 ∧ target.val = 4)
      let c := Instr.lifeTransition ag confirm target
      (s.secure ag = false ∨ confirm ≠ 0x5C4A ∨ s.burn.isSome = true → Accepts c s ag pk 0x168 s)
      ∧ (s.secure ag = true → confirm = 0x5C4A → s.burn = none → ¬ may → AcceptsTo c s ag pk 0x168 (fun u => Raised u pk 4
          ∧ u.burn = none ∧ u.fuses = s.fuses ∧ u.mem = s.mem ∧ u.boot = s.boot ∧ u.slotA = s.slotA ∧ u.slotB = s.slotB))
      ∧ (s.secure ag = true → confirm = 0x5C4A → s.burn = none → may → AcceptsTo c s ag pk 0x168 (fun u =>
          u.boot = s.boot ∧ u.fuses = s.fuses
          ∧ (∀ p : Nat, s.present p = true → (u.panel p).wipeBank7 = true
            ∧ ∀ a : Nat, 0x1C0000 ≤ a → a < 0x200000 → u.word p a = voidWord)
          ∧ (∀ x : Painting, u.slotA = some x ∨ u.slotB = some x → x.secure = [])
          ∧ (s.commit = none → (s.newestSlot.isSome = u.newestSlot.isSome)
            ∧ (u.slotA.map (Painting.valid s.variant) = s.slotA.map (Painting.valid s.variant))
            ∧ (u.slotB.map (Painting.valid s.variant) = s.slotB.map (Painting.valid s.variant)))
          ∧ ∃ f : Fuses, u.burn = some f ∧ f.state = target ∧ f.floor = s.fuses.floor ∧ f.id = s.fuses.id
            ∧ (target.val = 1 → ∀ x : Nat × BitVec 384 × BitVec 384, s.image = some x →
              f.keyHash = some x.2.1 ∧ f.debugHash = some x.2.2)
            ∧ (target.val ≠ 1 → f.keyHash = s.fuses.keyHash ∧ f.debugHash = s.fuses.debugHash))))
    ∧ (∀ (p : Slice) (f : Fuses), s.burn = some f → (s.panel p).wipeBank7 = true →
      let more : Prop := ∃ q : Nat, q ≠ p ∧ s.present q = true ∧ (s.panel q).wipeBank7 = true
      (more → Gives (.bank7WipeDone p) s (fun u => u.burn = some f ∧ u.fuses = s.fuses ∧ u.boot = s.boot))
      ∧ (¬ more → Gives (.bank7WipeDone p) s (fun u => u.boot = .priming ∧ u.burn = none ∧ u.mem = []
          ∧ u.fuses = { f with floor := max s.fuses.floor f.floor } ∧ ∀ sl : Nat, sl < 8 → u.mode sl = PRIME)))
    ∧ (s.secure ag = false ∨ s.image = none ∨ st ≠ 2 → Accepts (.advanceFloor ag) s ag pk 0x168 s)
    ∧ (∀ x : Nat × BitVec 384 × BitVec 384, s.secure ag = true → s.image = some x → st = 2 →
        AcceptsTo (.advanceFloor ag) s ag pk 0x168 (fun u =>
          u.fuses = { s.fuses with floor := max s.fuses.floor (min x.1 64) } ∧ u.mem = s.mem
          ∧ u.fld pk LIFE_BOOT.FLOOR = max s.fuses.floor (min x.1 64) % 256))
    ∧ AcceptsTo (.relock ag) s ag pk 0x168 (fun u => u.fld pk LIFE_STATE.UNLOCK = 0
        ∧ u.fld pk LIFE_STATE.TRIES = tries ∧ u.mem = s.mem ∧ u.fuses = s.fuses)
    ∧ (∀ x : BitVec 384,
      (tries = 3 → Accepts (.unlockReq x) s .easel pk 0x280 s)
      ∧ (tries ≠ 3 → AcceptsTo (.unlockReq x) s .easel pk 0x280 (fun u => u.challenge = true ∧ u.fuses = s.fuses
          ∧ (∀ w : Nat, w < 6 → u.reg pk (0x180 + 8 * w) = x.extractLsb' (64 * (5 - w)) 64)
          ∧ ∀ k o : Nat, o < 4096 → k ≠ pk ∨ o < 0x180 ∨ 0x1B0 ≤ o → u.reg k o = s.reg k o)))
    ∧ (let scope := s.fld pk LIFE_UNLOCK.SCOPE
      let key := s.response 0 12
      let good : Prop := s.challenge = true ∧ scope < 2 ∧ s.fuses.debugHash = some (sha384 (beBytes key 96))
        ∧ ecdsaVerify (BitVec.ofNat 768 key) (s.unlockDigest scope) (BitVec.ofNat 768 (s.response 12 12)) = true
      (tries = 3 → AcceptsTo .unlockSubmit s .easel pk 0x280 (fun u => Raised u pk 3 ∧ u.challenge = false
          ∧ u.fld pk LIFE_STATE.TRIES = 3 ∧ u.fld pk LIFE_STATE.UNLOCK = s.fld pk LIFE_STATE.UNLOCK))
      ∧ (tries ≠ 3 → good → AcceptsTo .unlockSubmit s .easel pk 0x280 (fun u => Raised u pk 2 ∧ u.challenge = false
          ∧ u.fld pk LIFE_STATE.UNLOCK = scope + 1 ∧ u.fld pk LIFE_STATE.TRIES = tries))
      ∧ (tries ≠ 3 → ¬ good → AcceptsTo .unlockSubmit s .easel pk 0x280 (fun u => Raised u pk 3 ∧ u.challenge = false
          ∧ u.fld pk LIFE_STATE.TRIES = tries + 1 ∧ u.fld pk LIFE_STATE.UNLOCK = s.fld pk LIFE_STATE.UNLOCK)))

/-- Tamper sensors (R355, R357): what a sensing marks and counts, and what the sensor's action does, until the last wipe of
a bank 7 ends the response; a host error acts as one of the others. Assumptions 8, 113. -/
def Obligations.TamperWipesTheKeys : Prop :=
  ∀ (s : State) (i : Fin 6),
    let pk := lifePage
    let set : Nat := s.fld pk ⟨0x158, 2 * i + 1, 2 * i⟩
    let action := if set = 0 ∧ s.fuses.state = 2 then 1 else set
    let again : Prop := s.wiping = true ∧ s.tamperBusy.getLsbD i = true
    let marked (u : State) : Prop := u.fld pk LIFE_TAMPER_STATUS.COUNT
        = min (s.fld pk LIFE_TAMPER_STATUS.COUNT + 1) (2 ^ 32 - 1)
      ∧ ∀ j : Nat, j < 6 →
        (u.fld pk LIFE_TAMPER_STATUS.SEEN).testBit j = ((s.fld pk LIFE_TAMPER_STATUS.SEEN).testBit j || decide (j = i.val))
        ∧ (u.fld pk LIFE_TAMPER_STATUS.NOW).testBit j = ((s.fld pk LIFE_TAMPER_STATUS.NOW).testBit j || decide (j = i.val))
    let keyless (u : State) : Prop := ∀ x : Painting, u.slotA = some x ∨ u.slotB = some x → x.secure = []
    (s.boot = .cold → Idles (.tamperSense i) s)
      ∧ (s.boot ≠ .cold →
        (action = 0 → Gives (.tamperSense i) s (fun u => marked u ∧ Raised u pk 5 ∧ u.mem = s.mem
            ∧ u.slotA = s.slotA ∧ u.slotB = s.slotB))
        ∧ (action = 3 → Gives (.tamperSense i) s (fun u => (marked u ∨ u.boot = .priming) ∧ u.fuses = s.fuses
            ∧ (keyless u ∨ (u.slotA = s.slotA ∧ u.slotB = s.slotB ∧ u.mem = s.mem))))
        ∧ (action = 1 ∨ action = 2 → again → Gives (.tamperSense i) s (fun u => marked u ∧ u.mem = s.mem
            ∧ u.slotA = s.slotA ∧ u.slotB = s.slotB ∧ u.boot = s.boot))
        ∧ (action = 1 → ¬ again → Gives (.tamperSense i) s (fun u => marked u ∧ Raised u pk 1 ∧ keyless u
            ∧ u.commit = none ∧ u.boot = s.boot
            ∧ (∀ p a : Nat, s.present p = true → 0x1C0000 ≤ a → a < 0x200000 → u.word p a = voidWord)
            ∧ ∀ p a : Nat, a < 0x1C0000 ∨ 0x200000 ≤ a → a < 2 ^ 48 → u.word p a = s.word p a))
        ∧ (action = 2 → ¬ again → Gives (.tamperSense i) s (fun u => u.boot = .priming ∧ u.mem = [] ∧ keyless u
            ∧ u.fld modePkgPage MODE_RESET_CAUSE.CAUSE = 5 ∧ u.fuses = s.fuses ∧ ∀ sl : Nat, sl < 8 → u.mode sl = PRIME)))
      ∧ (∀ p : Slice, s.burn = none → (s.panel p).wipeBank7 = true →
        (∀ q : Nat, q ≠ p → s.present q = true → (s.panel q).wipeBank7 = false) →
        Gives (.bank7WipeDone p) s (fun u => u.tamperBusy = 0 ∧ u.wiping = false))
      ∧ Gives (.tamperSenseEnd i) s (fun u =>
        u.fld pk LIFE_TAMPER_STATUS.SEEN = s.fld pk LIFE_TAMPER_STATUS.SEEN
        ∧ u.fld pk LIFE_TAMPER_STATUS.COUNT = s.fld pk LIFE_TAMPER_STATUS.COUNT ∧ u.mem = s.mem
        ∧ ∀ j : Nat, j < 6 → (u.fld pk LIFE_TAMPER_STATUS.NOW).testBit j
            = ((s.fld pk LIFE_TAMPER_STATUS.NOW).testBit j && decide (j ≠ i.val)))

/-! ### Easel -/

/-- The boundary cells have caught the balls (R370, R371): the cells' own drive where they have control, else what the
device drives, and elsewhere the board's level. -/
def Catches (s : State) (cells : Prop) (board caught : BitVec 492) : Prop :=
  ∀ n : Nat, n < 492 →
    let b := ballOf n
    (s.hasBall b = false → caught.getLsbD n = false)
    ∧ (s.hasBall b = true → b.drives = false → caught.getLsbD n = board.getLsbD n)
    ∧ (s.hasBall b = true → b.drives = true → cells → caught.getLsbD n
        = if s.jtag.outputs.getLsbD n then s.jtag.levels.getLsbD n else board.getLsbD n)
    ∧ (∀ (sec pr : Nat) (o : Out), b = .pwm sec pr o → s.present sec = true → ¬ cells →
        caught.getLsbD n = (match s.pin sec pr o with
          | .low => false
          | .high => true
          | .z => board.getLsbD n))

/-- The JTAG port (R360, R361, R370 to R372): its instructions, what boundary scan catches and holds, and how an access
starts and ends: refused where the lifecycle state or `EASL_TREG` does not permit it, an error where the panel is away,
else a word read or written, with no other effect of a read (R363). Assumptions 12, 48, 77, 136. -/
def Obligations.AccessesOfEasel : Prop :=
  (∀ s : State, exec .tapReset s = .next { s with jtag := {} })
  ∧ (∀ (s : State) (x : Instr × BitVec 8), x ∈ [(Instr.idcode, 0x01), (Instr.bypass, 0xFF)] →
      exec x.1 s = .next { s with jtag := { s.jtag with ir := x.2, irCaptured := 0x01 } })
  ∧ (∀ (s : State) (board : BitVec 492) (x : Instr × BitVec 8),
      x ∈ [(Instr.clamp board, 0x03), (Instr.highz board, 0x04)] → Gives x.1 s (fun u =>
        u = { s with jtag := { s.jtag with ir := x.2, irCaptured := 0x01, caught := u.jtag.caught } }
        ∧ (s.resetPinLow = true → u.jtag.caught = s.jtag.caught)
        ∧ (s.resetPinLow = false → Catches s False board u.jtag.caught)))
  ∧ (∀ (s : State) (scan : Scan) (x : Instr × BitVec 8),
      x ∈ [(Instr.extest scan, 0x00), (Instr.samplePreload scan, 0x02)] → Gives x.1 s (fun u =>
        u = { s with jtag := u.jtag } ∧ u.jtag.ir = x.2 ∧ u.jtag.irCaptured = 0x01 ∧ u.jtag.levels = scan.levels
        ∧ u.jtag.outputs = scan.outputs ∧ u.jtag.access = s.jtag.access ∧ u.jtag.word = s.jtag.word
        ∧ u.jtag.result = s.jtag.result
        ∧ Catches s (s.resetPinLow = true ∧ x.2 = 0x00) scan.board u.jtag.caught))
  ∧ (∀ (s : State) (dr : BitVec 128),
      let op := (dr.extractLsb' 126 2).toNat
      Gives (.easelAccess dr) s (fun u => u = { s with jtag := { s.jtag with ir := 0x10, access := u.jtag.access } }
        ∧ (s.jtag.access.isSome = true ∨ op = 0 ∨ op = 3 → u.jtag.access = s.jtag.access)
        ∧ (s.jtag.access = none → op = 1 ∨ op = 2 → u.jtag.access = some ⟨op, dr.getLsbD 125,
            (dr.extractLsb' 122 3).toNat, (dr.extractLsb' 72 48).toNat, dr.extractLsb' 0 72⟩)))
  ∧ (∀ s : State, s.jtag.access = none → Idles .easelAccessDone s)
  ∧ ∀ (s : State) (x : EaselAccess), s.jtag.access = some x →
      let ended (u : State) (r : Nat) : Prop := u.jtag.access = none ∧ u.jtag.result = r ∧ u.mem = s.mem
      let refused (u : State) : Prop := ended u 3 ∧ Raised u easlPage 5
      let done := Gives .easelAccessDone s
      (x.addr % 8 ≠ 0 → done (fun u => ended u 2 ∧ u.regs = s.regs))
      ∧ (x.addr % 8 = 0 → (∀ k o : Nat, regionOf x.panel x.addr ≠ .page k o) →
        let gone : Prop := s.panelAway (memoryOf x.panel x.addr) = true
        (s.easelOpen = false → done refused)
        ∧ (s.easelOpen = true → gone ∨ s.panelSpot x.panel x.addr = .dead → done (fun u => ended u 2
            ∧ ((∀ q d : Nat, regionOf x.panel x.addr ≠ .remote q d) → u.regs = s.regs)
            ∧ ∀ q d : Nat, regionOf x.panel x.addr = .remote q d → q ≠ x.panel → Raised u (fabPage x.panel) 4))
        ∧ (s.easelOpen = true → ¬ gone → s.panelSpot x.panel x.addr = .busy → Idles .easelAccessDone s)
        ∧ ∀ (q a : Nat) (path : Path), s.easelOpen = true → ¬ gone → s.panelSpot x.panel x.addr = .mem q a path →
          let guarded : Prop := path = .bank ∧ a / 0x40000 = 7 ∧ s.easelSecure = false
          let lost : Prop := path ≠ .bank ∧ s.tagLost q (a / 128) = true
          (guarded → x.op = 1 → done (fun u => ended u 0 ∧ u.jtag.word = 0))
          ∧ (guarded → x.op ≠ 1 → done refused)
          ∧ (lost → done (fun u => u.jtag.access = none ∧ u.jtag.result = 2
              ∧ (s.present q = true → s.mode q ≠ PRIME → (s.panel q).held = false → (u.panel q).held = true)))
          ∧ (¬ guarded → ¬ lost → x.op = 1 → s.bad q a = true → done (fun u => ended u 2))
          ∧ (¬ guarded → ¬ lost → x.op = 1 → s.bad q a = false → done (fun u => ended u 0
              ∧ (s.flips = [] → u.regs = s.regs)
              ∧ u.jtag.word = if x.tagged then s.word q a else raw (payload (s.word q a))))
          ∧ (¬ guarded → ¬ lost → x.op ≠ 1 → done (fun u => u.jtag.access = none ∧ u.jtag.result = 0
              ∧ u.word q a = (if x.tagged then x.word else raw (payload x.word))
              ∧ ∀ p b : Nat, memKey p b ≠ memKey q a → u.word p b = s.word p b)))
      ∧ ∀ k o : Nat, x.addr % 8 = 0 → regionOf x.panel x.addr = .page k o →
        let may : Prop := s.easelMay k o = true
        let away : Prop := isPanelPage k = true ∧ s.panelAway x.panel = true
        let closed : Prop := k = easlPage ∧ (o = 0x120 ∨ o = 0x128) ∧ s.tregOpen = false
        (¬ may → done refused)
        ∧ (may → x.op = 1 → s.pageThere k = false → done (fun u => ended u 0 ∧ u.jtag.word = 0))
        ∧ (may → x.op = 1 → s.pageThere k = true → closed → done refused)
        ∧ (may → x.op ≠ 1 ∨ (s.pageThere k = true ∧ ¬ closed) → away → done (fun u => ended u 2 ∧ u.regs = s.regs))
        ∧ (may → ¬ away → x.op ≠ 1 → s.pageThere k = false → done (fun u => ended u 2 ∧ u.regs = s.regs))
        ∧ (may → ¬ away → x.op = 1 → s.pageThere k = true → ¬ closed → done (fun u => ended u 0
            ∧ u.jtag.word = raw (s.readReg .easel k o).1
            ∧ u = { s with jtag := u.jtag, regs := u.regs, panels := u.panels, free := u.free }
            ∧ ((∀ i : Nat, blockOf k ≠ some (.fab, i)) → u.regs = s.regs ∧ u.panels = s.panels)))
        ∧ (may → ¬ away → s.pageThere k = true → x.op ≠ 1 →
            ∀ (p n : Nat), p < 8 → n < 16 → k = tmrPage p n → o = TMR_RELOAD.VALUE.off →
              done (fun u => ended u 0 ∧ u.fld k TMR_RELOAD.VALUE = (payload x.word).toNat % 2 ^ 32))

/-- Debug actions (R334, R364 to R368, R372): refused, with the event and result 3, where the lifecycle state does not
permit them; else halts, resumption, resets, steps, thread state, outside the journal, and injection. Assumptions 65,
80, 135. -/
def Obligations.DebugActionsNeedTheirState : Prop :=
  ∀ (s : State) (p : Slice),
    let pk := easlPage
    let sel := s.fld pk EASL_CMD.PANEL
    let opened := s.easelOpen
    let halted (u : State) (q : Nat) : Bool := (u.panel q).halted
    let shown (u : State) (q : Nat) : Bool := (u.fld pk EASL_STATUS.HALTED).testBit q
    let named := s.setFld pk EASL_CMD.PANEL p
    let refused (c : Instr) : Prop := Gives c s (fun u => Raised u pk 5 ∧ u.jtag.result = 3 ∧ u.mem = s.mem ∧ u.threads = s.threads
      ∧ u.panels = s.panels ∧ u.cores = s.cores)
    (opened = false → ∀ (t : Fin 16) (irq : Bool) (n : BitVec 30) (w : Word), ∀ c ∈ [Instr.easlHalt p,
      Instr.easlResume p, Instr.easlDreset p, Instr.easlStep t irq n, Instr.easlTregWrite w, Instr.easlInject w], refused c)
    ∧ (opened = true → halted s p = false →
      ((s.panel p).halting = true ∨ s.present p = false → exec (.easlHalt p) s = .next named)
      ∧ ((s.panel p).halting = false → s.present p = true →
        Gives (.easlHalt p) s (fun u => (u.panel p).halting = true ∧ u.fld pk EASL_CMD.PANEL = p
          ∧ (s.mode p = PRIME → u.mode p = PRIME)
          ∧ (s.mode p = HANDOVER → u.mode p = HANDOVER ∧ u.under p = HOLD)
          ∧ (0 < s.mode p → s.mode p < HANDOVER → u.mode p = HOLD)))
      ∧ exec (.easlResume p) s = .next named)
    ∧ ((s.panel p).halting = false ∨ (∃ t : Nat, t < 16 ∧ (s.thread p t).loads ≠ []) → Idles (.haltComplete p) s)
    ∧ ((s.panel p).halting = true → (∀ t : Nat, t < 16 → (s.thread p t).loads = []) → Gives (.haltComplete p) s (fun u =>
        halted u p = true ∧ (u.panel p).halting = false ∧ shown u p = true ∧ Raised u pk 0 ∧ u.mem = s.mem))
    ∧ (opened = true → halted s p = true →
      Gives (.easlHalt p) s (fun u => u.mem = s.mem ∧ u.panels = s.panels ∧ u.fld pk EASL_CMD.PANEL = p
        ∧ ∀ t : Nat, t < 16 → (u.thread p t).stepEnd
            = if (s.thread p t).stepEnd.isSome then some (s.thread p t).retired.toNat else none)
      ∧ Gives (.easlResume p) s (fun u => halted u p = false ∧ shown u p = false ∧ Raised u pk 2
          ∧ u.fld pk EASL_CMD.PANEL = p ∧ u.fld pk EASL_STEP.COUNT = 0 ∧ u.mode p = s.mode p ∧ (u.handover p).wdogFrom = s.ticks ∧ u.mem = s.mem
          ∧ ∀ t : Nat, t < 16 → (u.thread p t).stepEnd = none ∧ (u.thread p t).pc = (s.thread p t).pc)
      ∧ Gives (.easlDreset p) s (fun u => halted u p = true ∧ u.mem = s.mem
        ∧ u.fld pk EASL_CMD.PANEL = p ∧ ∀ t : Nat, t < 16 →
          let at_ := s.fld (modePage p) MODE_START.ADDR * 128 + 128 * t
          (s.startWaits p t = true → t ∈ (u.panel p).starts ∧ (u.thread p t).run = (.stopped : Run))
          ∧ (s.startWaits p t = false → (dramBase ≤ at_ → s.tagLost p (at_ / 128) = false) →
          (s.startGood p t = true → (u.thread p t).run = .running
            ∧ (u.thread p t).pc = (payload (s.startWord p t 0)).toNat % 2 ^ 48 ∧ (u.thread p t).stack = [])
          ∧ (s.startGood p t = false → (u.thread p t).run = (.stopped : Run)))))
    ∧ (opened = true → ∀ (t : Fin 16) (irq : Bool) (n : BitVec 30),
        let goes : Prop := halted s sel = true ∧ n ≠ 0
        Gives (.easlStep t irq n) s (fun u => u.fld pk EASL_STEP.THREAD = t ∧ u.flag pk EASL_STEP.STEP_IRQ = irq
          ∧ u.mem = s.mem
          ∧ (¬ goes → u.threads = s.threads ∧ u.fld pk EASL_STEP.COUNT = 0)
          ∧ (goes → u.fld pk EASL_STEP.COUNT = n.toNat
            ∧ (u.thread sel t).stepEnd = some ((s.thread sel t).retired.toNat + n.toNat)
            ∧ ∀ k : Nat, k < 16 → k ≠ t → (u.thread sel k).stepEnd = none)))
    ∧ (let past (t : Nat) : Prop := ∃ m : Nat, (s.thread p t).stepEnd = some m ∧ m ≤ (s.thread p t).retired.toNat
      ((∀ t : Nat, t < 16 → ¬ past t) → Idles (.stepEnd p) s)
      ∧ ∀ t : Nat, t < 16 → past t → (∀ k : Nat, k < t → ¬ past k) → Gives (.stepEnd p) s (fun u =>
        (u.thread p t).stepEnd = none ∧ (u.thread p t).pc = (s.thread p t).pc ∧ u.fld pk EASL_STEP.COUNT = 0
        ∧ Raised u pk 1 ∧ halted u p = halted s p))
    ∧ (opened = true → ∀ w : Word,
      let t := s.fld pk EASL_TREG.THREAD
      let item := s.fld pk EASL_TREG.SEL
      let th := s.thread sel t
      let slots := th.stack.length
      (halted s sel = false → refused (.easlTregWrite w))
      ∧ (∀ u : State, halted s sel = true → item < 0x60 → specialAssigned item = true →
          s.unrecorded sel (fun v => v.writeSpecial sel t item w) = .ok u → exec (.easlTregWrite w) s = .next u)
      ∧ (∀ e : Stop, halted s sel = true → item < 0x60 → specialAssigned item = true →
          s.unrecorded sel (fun v => v.writeSpecial sel t item w) = .error e →
          refused (.easlTregWrite w))
      ∧ (halted s sel = true → item < 0x60 → specialAssigned item = false → refused (.easlTregWrite w))
      ∧ (halted s sel = true → item = 0x200 → exec (.easlTregWrite w) s
          = .next (s.setThread sel t { th with pc := w.toNat % 2 ^ 48 }))
      ∧ (halted s sel = true → 0x100 ≤ item → item < 0x110 → Gives (.easlTregWrite w) s (fun u =>
          u.mem = s.mem ∧ (u.thread sel t).pc = th.pc ∧ (u.thread sel t).stack.length = slots
          ∧ ∀ i : Nat, i < slots → (u.thread sel t).stack[i]?
              = if i = item - 0x100 then some (.word (tword (s.fld pk EASL_TTAG.TAG) w)) else th.stack[i]?))
      ∧ (halted s sel = true → 0x60 ≤ item → (item < 0x100 ∨ 0x110 ≤ item) → item ≠ 0x200 →
          refused (.easlTregWrite w)))
    ∧ (opened = true → ∀ w : Word,
      let output := w.extractLsb' 0 3
      let core := w.extractLsb' 3 2
      let pan := w.extractLsb' 5 3
      let go := w.getLsbD 8
      (s.fuses.state ≠ 1 ∨ output = 7 → refused (.easlInject w))
      ∧ (s.fuses.state = 1 → output ≠ 7 → Gives (.easlInject w) s (fun u => u.mem = s.mem
          ∧ u.fld pk EASL_INJECT.OUTPUT = output.toNat ∧ u.fld pk EASL_INJECT.CORE = core.toNat
          ∧ u.fld pk EASL_INJECT.PANEL = pan.toNat ∧ u.flag pk EASL_INJECT.DETECT = w.getLsbD 9
          ∧ u.flag pk EASL_INJECT.SEEN = (s.flag pk EASL_INJECT.SEEN && !w.getLsbD 63)
          ∧ (go = false → u.cores = s.cores)
          ∧ (go = true → (u.core pan.toNat core.toNat).inject = some (output.toNat, w.getLsbD 9)))))

/-! ### Every command -/

/-- Every command completes (R3, R4, R6): each of the 286 rows of the table, with every operand and in every state,
answers a next state; none ends in a fault or a refusal. What that state is, the other statements say: a command whose
condition does not hold leaves the state as it was, a write that its page does not accept is dropped or refused with an
error response (R12), an instruction that faults waits for its entry (R187, R196), and a host error leaves its block
unpredictable and the device running (R4; assumption 8). -/
def Obligations.EveryCommandCompletes : Prop := ∀ (c : Instr) (s : State), Completes c s
end

