-- ==== Sys2Proof/Laws/State.lean ====
section
/-! SUPPORT. What each update of `State` leaves in each field: no proof unfolds a record update. -/

namespace Sys2Proof.Laws

open Sys2Proof Sys2Proof.Machine

/-! ### `State.setReg` -/

@[simp] theorem setReg_variant (s : State) (pk off : Nat) (v : Word) : (s.setReg pk off v).variant = s.variant := rfl
@[simp] theorem setReg_boot (s : State) (pk off : Nat) (v : Word) : (s.setReg pk off v).boot = s.boot := rfl
@[simp] theorem setReg_restored (s : State) (pk off : Nat) (v : Word) : (s.setReg pk off v).restored = s.restored := rfl
@[simp] theorem setReg_burn (s : State) (pk off : Nat) (v : Word) : (s.setReg pk off v).burn = s.burn := rfl
@[simp] theorem setReg_ticks (s : State) (pk off : Nat) (v : Word) : (s.setReg pk off v).ticks = s.ticks := rfl
@[simp] theorem setReg_canvas (s : State) (pk off : Nat) (v : Word) : (s.setReg pk off v).canvas = s.canvas := rfl
@[simp] theorem setReg_canvasNext (s : State) (pk off : Nat) (v : Word) : (s.setReg pk off v).canvasNext = s.canvasNext := rfl
@[simp] theorem setReg_anchors (s : State) (pk off : Nat) (v : Word) : (s.setReg pk off v).anchors = s.anchors := rfl
@[simp] theorem setReg_regs (s : State) (pk off : Nat) (v : Word) :
    (s.setReg pk off v).regs = Store.write (defaultWord pk off) s.regs (regKey pk off) v := rfl
@[simp] theorem setReg_shown (s : State) (pk off : Nat) (v : Word) : (s.setReg pk off v).shown = s.shown := rfl
@[simp] theorem setReg_setNow (s : State) (pk off : Nat) (v : Word) : (s.setReg pk off v).setNow = s.setNow := rfl
@[simp] theorem setReg_rwcNow (s : State) (pk off : Nat) (v : Word) : (s.setReg pk off v).rwcNow = s.rwcNow := rfl
@[simp] theorem setReg_outputs (s : State) (pk off : Nat) (v : Word) : (s.setReg pk off v).outputs = s.outputs := rfl
@[simp] theorem setReg_bankWrites (s : State) (pk off : Nat) (v : Word) : (s.setReg pk off v).bankWrites = s.bankWrites := rfl
@[simp] theorem setReg_dues (s : State) (pk off : Nat) (v : Word) : (s.setReg pk off v).dues = s.dues := rfl
@[simp] theorem setReg_mem (s : State) (pk off : Nat) (v : Word) : (s.setReg pk off v).mem = s.mem := rfl
@[simp] theorem setReg_badWords (s : State) (pk off : Nat) (v : Word) : (s.setReg pk off v).badWords = s.badWords := rfl
@[simp] theorem setReg_poisoned (s : State) (pk off : Nat) (v : Word) : (s.setReg pk off v).poisoned = s.poisoned := rfl
@[simp] theorem setReg_flips (s : State) (pk off : Nat) (v : Word) : (s.setReg pk off v).flips = s.flips := rfl
@[simp] theorem setReg_seq (s : State) (pk off : Nat) (v : Word) : (s.setReg pk off v).seq = s.seq := rfl
@[simp] theorem setReg_flight (s : State) (pk off : Nat) (v : Word) : (s.setReg pk off v).flight = s.flight := rfl
@[simp] theorem setReg_twq (s : State) (pk off : Nat) (v : Word) : (s.setReg pk off v).twq = s.twq := rfl
@[simp] theorem setReg_waiting (s : State) (pk off : Nat) (v : Word) : (s.setReg pk off v).waiting = s.waiting := rfl
@[simp] theorem setReg_events (s : State) (pk off : Nat) (v : Word) : (s.setReg pk off v).events = s.events := rfl
@[simp] theorem setReg_evArrived (s : State) (pk off : Nat) (v : Word) : (s.setReg pk off v).evArrived = s.evArrived := rfl
@[simp] theorem setReg_evPend (s : State) (pk off : Nat) (v : Word) : (s.setReg pk off v).evPend = s.evPend := rfl
@[simp] theorem setReg_evServ (s : State) (pk off : Nat) (v : Word) : (s.setReg pk off v).evServ = s.evServ := rfl
@[simp] theorem setReg_alarms (s : State) (pk off : Nat) (v : Word) : (s.setReg pk off v).alarms = s.alarms := rfl
@[simp] theorem setReg_syncRun (s : State) (pk off : Nat) (v : Word) : (s.setReg pk off v).syncRun = s.syncRun := rfl
@[simp] theorem setReg_syncBad (s : State) (pk off : Nat) (v : Word) : (s.setReg pk off v).syncBad = s.syncBad := rfl
@[simp] theorem setReg_lastAdj (s : State) (pk off : Nat) (v : Word) : (s.setReg pk off v).lastAdj = s.lastAdj := rfl
@[simp] theorem setReg_adjGoal (s : State) (pk off : Nat) (v : Word) : (s.setReg pk off v).adjGoal = s.adjGoal := rfl
@[simp] theorem setReg_syncOut (s : State) (pk off : Nat) (v : Word) : (s.setReg pk off v).syncOut = s.syncOut := rfl
@[simp] theorem setReg_evtLow (s : State) (pk off : Nat) (v : Word) : (s.setReg pk off v).evtLow = s.evtLow := rfl
@[simp] theorem setReg_convs (s : State) (pk off : Nat) (v : Word) : (s.setReg pk off v).convs = s.convs := rfl
@[simp] theorem setReg_seen (s : State) (pk off : Nat) (v : Word) : (s.setReg pk off v).seen = s.seen := rfl
@[simp] theorem setReg_monitors (s : State) (pk off : Nat) (v : Word) : (s.setReg pk off v).monitors = s.monitors := rfl
@[simp] theorem setReg_cmps (s : State) (pk off : Nat) (v : Word) : (s.setReg pk off v).cmps = s.cmps := rfl
@[simp] theorem setReg_sweeps (s : State) (pk off : Nat) (v : Word) : (s.setReg pk off v).sweeps = s.sweeps := rfl
@[simp] theorem setReg_pairs (s : State) (pk off : Nat) (v : Word) : (s.setReg pk off v).pairs = s.pairs := rfl
@[simp] theorem setReg_trips (s : State) (pk off : Nat) (v : Word) : (s.setReg pk off v).trips = s.trips := rfl
@[simp] theorem setReg_slots (s : State) (pk off : Nat) (v : Word) : (s.setReg pk off v).slots = s.slots := rfl
@[simp] theorem setReg_engines (s : State) (pk off : Nat) (v : Word) : (s.setReg pk off v).engines = s.engines := rfl
@[simp] theorem setReg_freezeLines (s : State) (pk off : Nat) (v : Word) : (s.setReg pk off v).freezeLines = s.freezeLines := rfl
@[simp] theorem setReg_threads (s : State) (pk off : Nat) (v : Word) : (s.setReg pk off v).threads = s.threads := rfl
@[simp] theorem setReg_cores (s : State) (pk off : Nat) (v : Word) : (s.setReg pk off v).cores = s.cores := rfl
@[simp] theorem setReg_panels (s : State) (pk off : Nat) (v : Word) : (s.setReg pk off v).panels = s.panels := rfl
@[simp] theorem setReg_counters (s : State) (pk off : Nat) (v : Word) : (s.setReg pk off v).counters = s.counters := rfl
@[simp] theorem setReg_dmas (s : State) (pk off : Nat) (v : Word) : (s.setReg pk off v).dmas = s.dmas := rfl
@[simp] theorem setReg_timers (s : State) (pk off : Nat) (v : Word) : (s.setReg pk off v).timers = s.timers := rfl
@[simp] theorem setReg_stencils (s : State) (pk off : Nat) (v : Word) : (s.setReg pk off v).stencils = s.stencils := rfl
@[simp] theorem setReg_pads (s : State) (pk off : Nat) (v : Word) : (s.setReg pk off v).pads = s.pads := rfl
@[simp] theorem setReg_intents (s : State) (pk off : Nat) (v : Word) : (s.setReg pk off v).intents = s.intents := rfl
@[simp] theorem setReg_budgets (s : State) (pk off : Nat) (v : Word) : (s.setReg pk off v).budgets = s.budgets := rfl
@[simp] theorem setReg_ports (s : State) (pk off : Nat) (v : Word) : (s.setReg pk off v).ports = s.ports := rfl
@[simp] theorem setReg_journals (s : State) (pk off : Nat) (v : Word) : (s.setReg pk off v).journals = s.journals := rfl
@[simp] theorem setReg_handovers (s : State) (pk off : Nat) (v : Word) : (s.setReg pk off v).handovers = s.handovers := rfl
@[simp] theorem setReg_slotA (s : State) (pk off : Nat) (v : Word) : (s.setReg pk off v).slotA = s.slotA := rfl
@[simp] theorem setReg_slotB (s : State) (pk off : Nat) (v : Word) : (s.setReg pk off v).slotB = s.slotB := rfl
@[simp] theorem setReg_commit (s : State) (pk off : Nat) (v : Word) : (s.setReg pk off v).commit = s.commit := rfl
@[simp] theorem setReg_supply (s : State) (pk off : Nat) (v : Word) : (s.setReg pk off v).supply = s.supply := rfl
@[simp] theorem setReg_fuses (s : State) (pk off : Nat) (v : Word) : (s.setReg pk off v).fuses = s.fuses := rfl
@[simp] theorem setReg_image (s : State) (pk off : Nat) (v : Word) : (s.setReg pk off v).image = s.image := rfl
@[simp] theorem setReg_challenge (s : State) (pk off : Nat) (v : Word) : (s.setReg pk off v).challenge = s.challenge := rfl
@[simp] theorem setReg_tamperBusy (s : State) (pk off : Nat) (v : Word) : (s.setReg pk off v).tamperBusy = s.tamperBusy := rfl
@[simp] theorem setReg_jtag (s : State) (pk off : Nat) (v : Word) : (s.setReg pk off v).jtag = s.jtag := rfl
@[simp] theorem setReg_resetPinLow (s : State) (pk off : Nat) (v : Word) : (s.setReg pk off v).resetPinLow = s.resetPinLow := rfl
@[simp] theorem setReg_free (s : State) (pk off : Nat) (v : Word) : (s.setReg pk off v).free = s.free := rfl
@[simp] theorem setReg_upset (s : State) (pk off : Nat) (v : Word) : (s.setReg pk off v).upset = s.upset := rfl
@[simp] theorem setReg_pending (s : State) (pk off : Nat) (v : Word) : (s.setReg pk off v).pending = s.pending := rfl

/-! ### `State.setWord` -/

@[simp] theorem setWord_variant (s : State) (p a : Nat) (w : TWord) : (s.setWord p a w).variant = s.variant := rfl
@[simp] theorem setWord_boot (s : State) (p a : Nat) (w : TWord) : (s.setWord p a w).boot = s.boot := rfl
@[simp] theorem setWord_restored (s : State) (p a : Nat) (w : TWord) : (s.setWord p a w).restored = s.restored := rfl
@[simp] theorem setWord_burn (s : State) (p a : Nat) (w : TWord) : (s.setWord p a w).burn = s.burn := rfl
@[simp] theorem setWord_ticks (s : State) (p a : Nat) (w : TWord) : (s.setWord p a w).ticks = s.ticks := rfl
@[simp] theorem setWord_canvas (s : State) (p a : Nat) (w : TWord) : (s.setWord p a w).canvas = s.canvas := rfl
@[simp] theorem setWord_canvasNext (s : State) (p a : Nat) (w : TWord) : (s.setWord p a w).canvasNext = s.canvasNext := rfl
@[simp] theorem setWord_anchors (s : State) (p a : Nat) (w : TWord) : (s.setWord p a w).anchors = s.anchors := rfl
@[simp] theorem setWord_regs (s : State) (p a : Nat) (w : TWord) : (s.setWord p a w).regs = s.regs := rfl
@[simp] theorem setWord_shown (s : State) (p a : Nat) (w : TWord) : (s.setWord p a w).shown = s.shown := rfl
@[simp] theorem setWord_setNow (s : State) (p a : Nat) (w : TWord) : (s.setWord p a w).setNow = s.setNow := rfl
@[simp] theorem setWord_rwcNow (s : State) (p a : Nat) (w : TWord) : (s.setWord p a w).rwcNow = s.rwcNow := rfl
@[simp] theorem setWord_outputs (s : State) (p a : Nat) (w : TWord) : (s.setWord p a w).outputs = s.outputs := rfl
@[simp] theorem setWord_bankWrites (s : State) (p a : Nat) (w : TWord) : (s.setWord p a w).bankWrites = s.bankWrites := rfl
@[simp] theorem setWord_dues (s : State) (p a : Nat) (w : TWord) : (s.setWord p a w).dues = s.dues := rfl
@[simp] theorem setWord_mem (s : State) (p a : Nat) (w : TWord) :
    (s.setWord p a w).mem = Store.write voidWord s.mem (memKey p a) w := rfl
@[simp] theorem setWord_seq (s : State) (p a : Nat) (w : TWord) : (s.setWord p a w).seq = s.seq := rfl
@[simp] theorem setWord_flight (s : State) (p a : Nat) (w : TWord) : (s.setWord p a w).flight = s.flight := rfl
@[simp] theorem setWord_twq (s : State) (p a : Nat) (w : TWord) : (s.setWord p a w).twq = s.twq := rfl
@[simp] theorem setWord_waiting (s : State) (p a : Nat) (w : TWord) : (s.setWord p a w).waiting = s.waiting := rfl
@[simp] theorem setWord_events (s : State) (p a : Nat) (w : TWord) : (s.setWord p a w).events = s.events := rfl
@[simp] theorem setWord_evArrived (s : State) (p a : Nat) (w : TWord) : (s.setWord p a w).evArrived = s.evArrived := rfl
@[simp] theorem setWord_evPend (s : State) (p a : Nat) (w : TWord) : (s.setWord p a w).evPend = s.evPend := rfl
@[simp] theorem setWord_evServ (s : State) (p a : Nat) (w : TWord) : (s.setWord p a w).evServ = s.evServ := rfl
@[simp] theorem setWord_alarms (s : State) (p a : Nat) (w : TWord) : (s.setWord p a w).alarms = s.alarms := rfl
@[simp] theorem setWord_syncRun (s : State) (p a : Nat) (w : TWord) : (s.setWord p a w).syncRun = s.syncRun := rfl
@[simp] theorem setWord_syncBad (s : State) (p a : Nat) (w : TWord) : (s.setWord p a w).syncBad = s.syncBad := rfl
@[simp] theorem setWord_lastAdj (s : State) (p a : Nat) (w : TWord) : (s.setWord p a w).lastAdj = s.lastAdj := rfl
@[simp] theorem setWord_adjGoal (s : State) (p a : Nat) (w : TWord) : (s.setWord p a w).adjGoal = s.adjGoal := rfl
@[simp] theorem setWord_syncOut (s : State) (p a : Nat) (w : TWord) : (s.setWord p a w).syncOut = s.syncOut := rfl
@[simp] theorem setWord_evtLow (s : State) (p a : Nat) (w : TWord) : (s.setWord p a w).evtLow = s.evtLow := rfl
@[simp] theorem setWord_convs (s : State) (p a : Nat) (w : TWord) : (s.setWord p a w).convs = s.convs := rfl
@[simp] theorem setWord_seen (s : State) (p a : Nat) (w : TWord) : (s.setWord p a w).seen = s.seen := rfl
@[simp] theorem setWord_monitors (s : State) (p a : Nat) (w : TWord) : (s.setWord p a w).monitors = s.monitors := rfl
@[simp] theorem setWord_cmps (s : State) (p a : Nat) (w : TWord) : (s.setWord p a w).cmps = s.cmps := rfl
@[simp] theorem setWord_sweeps (s : State) (p a : Nat) (w : TWord) : (s.setWord p a w).sweeps = s.sweeps := rfl
@[simp] theorem setWord_pairs (s : State) (p a : Nat) (w : TWord) : (s.setWord p a w).pairs = s.pairs := rfl
@[simp] theorem setWord_trips (s : State) (p a : Nat) (w : TWord) : (s.setWord p a w).trips = s.trips := rfl
@[simp] theorem setWord_slots (s : State) (p a : Nat) (w : TWord) : (s.setWord p a w).slots = s.slots := rfl
@[simp] theorem setWord_engines (s : State) (p a : Nat) (w : TWord) : (s.setWord p a w).engines = s.engines := rfl
@[simp] theorem setWord_freezeLines (s : State) (p a : Nat) (w : TWord) : (s.setWord p a w).freezeLines = s.freezeLines := rfl
@[simp] theorem setWord_threads (s : State) (p a : Nat) (w : TWord) : (s.setWord p a w).threads = s.threads := rfl
@[simp] theorem setWord_cores (s : State) (p a : Nat) (w : TWord) : (s.setWord p a w).cores = s.cores := rfl
@[simp] theorem setWord_panels (s : State) (p a : Nat) (w : TWord) : (s.setWord p a w).panels = s.panels := rfl
@[simp] theorem setWord_counters (s : State) (p a : Nat) (w : TWord) : (s.setWord p a w).counters = s.counters := rfl
@[simp] theorem setWord_dmas (s : State) (p a : Nat) (w : TWord) : (s.setWord p a w).dmas = s.dmas := rfl
@[simp] theorem setWord_timers (s : State) (p a : Nat) (w : TWord) : (s.setWord p a w).timers = s.timers := rfl
@[simp] theorem setWord_stencils (s : State) (p a : Nat) (w : TWord) : (s.setWord p a w).stencils = s.stencils := rfl
@[simp] theorem setWord_pads (s : State) (p a : Nat) (w : TWord) : (s.setWord p a w).pads = s.pads := rfl
@[simp] theorem setWord_intents (s : State) (p a : Nat) (w : TWord) : (s.setWord p a w).intents = s.intents := rfl
@[simp] theorem setWord_budgets (s : State) (p a : Nat) (w : TWord) : (s.setWord p a w).budgets = s.budgets := rfl
@[simp] theorem setWord_ports (s : State) (p a : Nat) (w : TWord) : (s.setWord p a w).ports = s.ports := rfl
@[simp] theorem setWord_journals (s : State) (p a : Nat) (w : TWord) : (s.setWord p a w).journals = s.journals := rfl
@[simp] theorem setWord_handovers (s : State) (p a : Nat) (w : TWord) : (s.setWord p a w).handovers = s.handovers := rfl
@[simp] theorem setWord_slotA (s : State) (p a : Nat) (w : TWord) : (s.setWord p a w).slotA = s.slotA := rfl
@[simp] theorem setWord_slotB (s : State) (p a : Nat) (w : TWord) : (s.setWord p a w).slotB = s.slotB := rfl
@[simp] theorem setWord_commit (s : State) (p a : Nat) (w : TWord) : (s.setWord p a w).commit = s.commit := rfl
@[simp] theorem setWord_supply (s : State) (p a : Nat) (w : TWord) : (s.setWord p a w).supply = s.supply := rfl
@[simp] theorem setWord_fuses (s : State) (p a : Nat) (w : TWord) : (s.setWord p a w).fuses = s.fuses := rfl
@[simp] theorem setWord_image (s : State) (p a : Nat) (w : TWord) : (s.setWord p a w).image = s.image := rfl
@[simp] theorem setWord_challenge (s : State) (p a : Nat) (w : TWord) : (s.setWord p a w).challenge = s.challenge := rfl
@[simp] theorem setWord_tamperBusy (s : State) (p a : Nat) (w : TWord) : (s.setWord p a w).tamperBusy = s.tamperBusy := rfl
@[simp] theorem setWord_jtag (s : State) (p a : Nat) (w : TWord) : (s.setWord p a w).jtag = s.jtag := rfl
@[simp] theorem setWord_resetPinLow (s : State) (p a : Nat) (w : TWord) : (s.setWord p a w).resetPinLow = s.resetPinLow := rfl
@[simp] theorem setWord_free (s : State) (p a : Nat) (w : TWord) : (s.setWord p a w).free = s.free := rfl
@[simp] theorem setWord_upset (s : State) (p a : Nat) (w : TWord) : (s.setWord p a w).upset = s.upset := rfl
@[simp] theorem setWord_pending (s : State) (p a : Nat) (w : TWord) : (s.setWord p a w).pending = s.pending := rfl

/-! ### `State.setConv` -/

@[simp] theorem setConv_variant (s : State) (sec c : Nat) (v : Conv) : (s.setConv sec c v).variant = s.variant := rfl
@[simp] theorem setConv_boot (s : State) (sec c : Nat) (v : Conv) : (s.setConv sec c v).boot = s.boot := rfl
@[simp] theorem setConv_restored (s : State) (sec c : Nat) (v : Conv) : (s.setConv sec c v).restored = s.restored := rfl
@[simp] theorem setConv_burn (s : State) (sec c : Nat) (v : Conv) : (s.setConv sec c v).burn = s.burn := rfl
@[simp] theorem setConv_ticks (s : State) (sec c : Nat) (v : Conv) : (s.setConv sec c v).ticks = s.ticks := rfl
@[simp] theorem setConv_canvas (s : State) (sec c : Nat) (v : Conv) : (s.setConv sec c v).canvas = s.canvas := rfl
@[simp] theorem setConv_canvasNext (s : State) (sec c : Nat) (v : Conv) : (s.setConv sec c v).canvasNext = s.canvasNext := rfl
@[simp] theorem setConv_anchors (s : State) (sec c : Nat) (v : Conv) : (s.setConv sec c v).anchors = s.anchors := rfl
@[simp] theorem setConv_regs (s : State) (sec c : Nat) (v : Conv) : (s.setConv sec c v).regs = s.regs := rfl
@[simp] theorem setConv_shown (s : State) (sec c : Nat) (v : Conv) : (s.setConv sec c v).shown = s.shown := rfl
@[simp] theorem setConv_setNow (s : State) (sec c : Nat) (v : Conv) : (s.setConv sec c v).setNow = s.setNow := rfl
@[simp] theorem setConv_rwcNow (s : State) (sec c : Nat) (v : Conv) : (s.setConv sec c v).rwcNow = s.rwcNow := rfl
@[simp] theorem setConv_outputs (s : State) (sec c : Nat) (v : Conv) : (s.setConv sec c v).outputs = s.outputs := rfl
@[simp] theorem setConv_bankWrites (s : State) (sec c : Nat) (v : Conv) : (s.setConv sec c v).bankWrites = s.bankWrites := rfl
@[simp] theorem setConv_dues (s : State) (sec c : Nat) (v : Conv) : (s.setConv sec c v).dues = s.dues := rfl
@[simp] theorem setConv_mem (s : State) (sec c : Nat) (v : Conv) : (s.setConv sec c v).mem = s.mem := rfl
@[simp] theorem setConv_badWords (s : State) (sec c : Nat) (v : Conv) : (s.setConv sec c v).badWords = s.badWords := rfl
@[simp] theorem setConv_poisoned (s : State) (sec c : Nat) (v : Conv) : (s.setConv sec c v).poisoned = s.poisoned := rfl
@[simp] theorem setConv_flips (s : State) (sec c : Nat) (v : Conv) : (s.setConv sec c v).flips = s.flips := rfl
@[simp] theorem setConv_seq (s : State) (sec c : Nat) (v : Conv) : (s.setConv sec c v).seq = s.seq := rfl
@[simp] theorem setConv_flight (s : State) (sec c : Nat) (v : Conv) : (s.setConv sec c v).flight = s.flight := rfl
@[simp] theorem setConv_twq (s : State) (sec c : Nat) (v : Conv) : (s.setConv sec c v).twq = s.twq := rfl
@[simp] theorem setConv_waiting (s : State) (sec c : Nat) (v : Conv) : (s.setConv sec c v).waiting = s.waiting := rfl
@[simp] theorem setConv_events (s : State) (sec c : Nat) (v : Conv) : (s.setConv sec c v).events = s.events := rfl
@[simp] theorem setConv_evArrived (s : State) (sec c : Nat) (v : Conv) : (s.setConv sec c v).evArrived = s.evArrived := rfl
@[simp] theorem setConv_evPend (s : State) (sec c : Nat) (v : Conv) : (s.setConv sec c v).evPend = s.evPend := rfl
@[simp] theorem setConv_evServ (s : State) (sec c : Nat) (v : Conv) : (s.setConv sec c v).evServ = s.evServ := rfl
@[simp] theorem setConv_alarms (s : State) (sec c : Nat) (v : Conv) : (s.setConv sec c v).alarms = s.alarms := rfl
@[simp] theorem setConv_syncRun (s : State) (sec c : Nat) (v : Conv) : (s.setConv sec c v).syncRun = s.syncRun := rfl
@[simp] theorem setConv_syncBad (s : State) (sec c : Nat) (v : Conv) : (s.setConv sec c v).syncBad = s.syncBad := rfl
@[simp] theorem setConv_lastAdj (s : State) (sec c : Nat) (v : Conv) : (s.setConv sec c v).lastAdj = s.lastAdj := rfl
@[simp] theorem setConv_adjGoal (s : State) (sec c : Nat) (v : Conv) : (s.setConv sec c v).adjGoal = s.adjGoal := rfl
@[simp] theorem setConv_syncOut (s : State) (sec c : Nat) (v : Conv) : (s.setConv sec c v).syncOut = s.syncOut := rfl
@[simp] theorem setConv_evtLow (s : State) (sec c : Nat) (v : Conv) : (s.setConv sec c v).evtLow = s.evtLow := rfl
@[simp] theorem setConv_convs (s : State) (sec c : Nat) (v : Conv) :
    (s.setConv sec c v).convs = Store.write {} s.convs (sec * 16 + c) v := rfl
@[simp] theorem setConv_seen (s : State) (sec c : Nat) (v : Conv) : (s.setConv sec c v).seen = s.seen := rfl
@[simp] theorem setConv_monitors (s : State) (sec c : Nat) (v : Conv) : (s.setConv sec c v).monitors = s.monitors := rfl
@[simp] theorem setConv_cmps (s : State) (sec c : Nat) (v : Conv) : (s.setConv sec c v).cmps = s.cmps := rfl
@[simp] theorem setConv_sweeps (s : State) (sec c : Nat) (v : Conv) : (s.setConv sec c v).sweeps = s.sweeps := rfl
@[simp] theorem setConv_pairs (s : State) (sec c : Nat) (v : Conv) : (s.setConv sec c v).pairs = s.pairs := rfl
@[simp] theorem setConv_trips (s : State) (sec c : Nat) (v : Conv) : (s.setConv sec c v).trips = s.trips := rfl
@[simp] theorem setConv_slots (s : State) (sec c : Nat) (v : Conv) : (s.setConv sec c v).slots = s.slots := rfl
@[simp] theorem setConv_engines (s : State) (sec c : Nat) (v : Conv) : (s.setConv sec c v).engines = s.engines := rfl
@[simp] theorem setConv_freezeLines (s : State) (sec c : Nat) (v : Conv) : (s.setConv sec c v).freezeLines = s.freezeLines := rfl
@[simp] theorem setConv_threads (s : State) (sec c : Nat) (v : Conv) : (s.setConv sec c v).threads = s.threads := rfl
@[simp] theorem setConv_cores (s : State) (sec c : Nat) (v : Conv) : (s.setConv sec c v).cores = s.cores := rfl
@[simp] theorem setConv_panels (s : State) (sec c : Nat) (v : Conv) : (s.setConv sec c v).panels = s.panels := rfl
@[simp] theorem setConv_counters (s : State) (sec c : Nat) (v : Conv) : (s.setConv sec c v).counters = s.counters := rfl
@[simp] theorem setConv_dmas (s : State) (sec c : Nat) (v : Conv) : (s.setConv sec c v).dmas = s.dmas := rfl
@[simp] theorem setConv_timers (s : State) (sec c : Nat) (v : Conv) : (s.setConv sec c v).timers = s.timers := rfl
@[simp] theorem setConv_stencils (s : State) (sec c : Nat) (v : Conv) : (s.setConv sec c v).stencils = s.stencils := rfl
@[simp] theorem setConv_pads (s : State) (sec c : Nat) (v : Conv) : (s.setConv sec c v).pads = s.pads := rfl
@[simp] theorem setConv_intents (s : State) (sec c : Nat) (v : Conv) : (s.setConv sec c v).intents = s.intents := rfl
@[simp] theorem setConv_budgets (s : State) (sec c : Nat) (v : Conv) : (s.setConv sec c v).budgets = s.budgets := rfl
@[simp] theorem setConv_ports (s : State) (sec c : Nat) (v : Conv) : (s.setConv sec c v).ports = s.ports := rfl
@[simp] theorem setConv_journals (s : State) (sec c : Nat) (v : Conv) : (s.setConv sec c v).journals = s.journals := rfl
@[simp] theorem setConv_handovers (s : State) (sec c : Nat) (v : Conv) : (s.setConv sec c v).handovers = s.handovers := rfl
@[simp] theorem setConv_slotA (s : State) (sec c : Nat) (v : Conv) : (s.setConv sec c v).slotA = s.slotA := rfl
@[simp] theorem setConv_slotB (s : State) (sec c : Nat) (v : Conv) : (s.setConv sec c v).slotB = s.slotB := rfl
@[simp] theorem setConv_commit (s : State) (sec c : Nat) (v : Conv) : (s.setConv sec c v).commit = s.commit := rfl
@[simp] theorem setConv_supply (s : State) (sec c : Nat) (v : Conv) : (s.setConv sec c v).supply = s.supply := rfl
@[simp] theorem setConv_fuses (s : State) (sec c : Nat) (v : Conv) : (s.setConv sec c v).fuses = s.fuses := rfl
@[simp] theorem setConv_image (s : State) (sec c : Nat) (v : Conv) : (s.setConv sec c v).image = s.image := rfl
@[simp] theorem setConv_challenge (s : State) (sec c : Nat) (v : Conv) : (s.setConv sec c v).challenge = s.challenge := rfl
@[simp] theorem setConv_tamperBusy (s : State) (sec c : Nat) (v : Conv) : (s.setConv sec c v).tamperBusy = s.tamperBusy := rfl
@[simp] theorem setConv_jtag (s : State) (sec c : Nat) (v : Conv) : (s.setConv sec c v).jtag = s.jtag := rfl
@[simp] theorem setConv_resetPinLow (s : State) (sec c : Nat) (v : Conv) : (s.setConv sec c v).resetPinLow = s.resetPinLow := rfl
@[simp] theorem setConv_free (s : State) (sec c : Nat) (v : Conv) : (s.setConv sec c v).free = s.free := rfl
@[simp] theorem setConv_upset (s : State) (sec c : Nat) (v : Conv) : (s.setConv sec c v).upset = s.upset := rfl
@[simp] theorem setConv_pending (s : State) (sec c : Nat) (v : Conv) : (s.setConv sec c v).pending = s.pending := rfl

/-! ### `State.setMonitor` -/

@[simp] theorem setMonitor_variant (s : State) (sec : Nat) (v : Monitor) : (s.setMonitor sec v).variant = s.variant := rfl
@[simp] theorem setMonitor_boot (s : State) (sec : Nat) (v : Monitor) : (s.setMonitor sec v).boot = s.boot := rfl
@[simp] theorem setMonitor_restored (s : State) (sec : Nat) (v : Monitor) : (s.setMonitor sec v).restored = s.restored := rfl
@[simp] theorem setMonitor_burn (s : State) (sec : Nat) (v : Monitor) : (s.setMonitor sec v).burn = s.burn := rfl
@[simp] theorem setMonitor_ticks (s : State) (sec : Nat) (v : Monitor) : (s.setMonitor sec v).ticks = s.ticks := rfl
@[simp] theorem setMonitor_canvas (s : State) (sec : Nat) (v : Monitor) : (s.setMonitor sec v).canvas = s.canvas := rfl
@[simp] theorem setMonitor_canvasNext (s : State) (sec : Nat) (v : Monitor) : (s.setMonitor sec v).canvasNext = s.canvasNext := rfl
@[simp] theorem setMonitor_anchors (s : State) (sec : Nat) (v : Monitor) : (s.setMonitor sec v).anchors = s.anchors := rfl
@[simp] theorem setMonitor_regs (s : State) (sec : Nat) (v : Monitor) : (s.setMonitor sec v).regs = s.regs := rfl
@[simp] theorem setMonitor_shown (s : State) (sec : Nat) (v : Monitor) : (s.setMonitor sec v).shown = s.shown := rfl
@[simp] theorem setMonitor_setNow (s : State) (sec : Nat) (v : Monitor) : (s.setMonitor sec v).setNow = s.setNow := rfl
@[simp] theorem setMonitor_rwcNow (s : State) (sec : Nat) (v : Monitor) : (s.setMonitor sec v).rwcNow = s.rwcNow := rfl
@[simp] theorem setMonitor_outputs (s : State) (sec : Nat) (v : Monitor) : (s.setMonitor sec v).outputs = s.outputs := rfl
@[simp] theorem setMonitor_bankWrites (s : State) (sec : Nat) (v : Monitor) : (s.setMonitor sec v).bankWrites = s.bankWrites := rfl
@[simp] theorem setMonitor_dues (s : State) (sec : Nat) (v : Monitor) : (s.setMonitor sec v).dues = s.dues := rfl
@[simp] theorem setMonitor_mem (s : State) (sec : Nat) (v : Monitor) : (s.setMonitor sec v).mem = s.mem := rfl
@[simp] theorem setMonitor_badWords (s : State) (sec : Nat) (v : Monitor) : (s.setMonitor sec v).badWords = s.badWords := rfl
@[simp] theorem setMonitor_poisoned (s : State) (sec : Nat) (v : Monitor) : (s.setMonitor sec v).poisoned = s.poisoned := rfl
@[simp] theorem setMonitor_flips (s : State) (sec : Nat) (v : Monitor) : (s.setMonitor sec v).flips = s.flips := rfl
@[simp] theorem setMonitor_seq (s : State) (sec : Nat) (v : Monitor) : (s.setMonitor sec v).seq = s.seq := rfl
@[simp] theorem setMonitor_flight (s : State) (sec : Nat) (v : Monitor) : (s.setMonitor sec v).flight = s.flight := rfl
@[simp] theorem setMonitor_twq (s : State) (sec : Nat) (v : Monitor) : (s.setMonitor sec v).twq = s.twq := rfl
@[simp] theorem setMonitor_waiting (s : State) (sec : Nat) (v : Monitor) : (s.setMonitor sec v).waiting = s.waiting := rfl
@[simp] theorem setMonitor_events (s : State) (sec : Nat) (v : Monitor) : (s.setMonitor sec v).events = s.events := rfl
@[simp] theorem setMonitor_evArrived (s : State) (sec : Nat) (v : Monitor) : (s.setMonitor sec v).evArrived = s.evArrived := rfl
@[simp] theorem setMonitor_evPend (s : State) (sec : Nat) (v : Monitor) : (s.setMonitor sec v).evPend = s.evPend := rfl
@[simp] theorem setMonitor_evServ (s : State) (sec : Nat) (v : Monitor) : (s.setMonitor sec v).evServ = s.evServ := rfl
@[simp] theorem setMonitor_alarms (s : State) (sec : Nat) (v : Monitor) : (s.setMonitor sec v).alarms = s.alarms := rfl
@[simp] theorem setMonitor_syncRun (s : State) (sec : Nat) (v : Monitor) : (s.setMonitor sec v).syncRun = s.syncRun := rfl
@[simp] theorem setMonitor_syncBad (s : State) (sec : Nat) (v : Monitor) : (s.setMonitor sec v).syncBad = s.syncBad := rfl
@[simp] theorem setMonitor_lastAdj (s : State) (sec : Nat) (v : Monitor) : (s.setMonitor sec v).lastAdj = s.lastAdj := rfl
@[simp] theorem setMonitor_adjGoal (s : State) (sec : Nat) (v : Monitor) : (s.setMonitor sec v).adjGoal = s.adjGoal := rfl
@[simp] theorem setMonitor_syncOut (s : State) (sec : Nat) (v : Monitor) : (s.setMonitor sec v).syncOut = s.syncOut := rfl
@[simp] theorem setMonitor_evtLow (s : State) (sec : Nat) (v : Monitor) : (s.setMonitor sec v).evtLow = s.evtLow := rfl
@[simp] theorem setMonitor_convs (s : State) (sec : Nat) (v : Monitor) : (s.setMonitor sec v).convs = s.convs := rfl
@[simp] theorem setMonitor_seen (s : State) (sec : Nat) (v : Monitor) : (s.setMonitor sec v).seen = s.seen := rfl
@[simp] theorem setMonitor_monitors (s : State) (sec : Nat) (v : Monitor) :
    (s.setMonitor sec v).monitors = Store.write {} s.monitors sec v := rfl
@[simp] theorem setMonitor_cmps (s : State) (sec : Nat) (v : Monitor) : (s.setMonitor sec v).cmps = s.cmps := rfl
@[simp] theorem setMonitor_sweeps (s : State) (sec : Nat) (v : Monitor) : (s.setMonitor sec v).sweeps = s.sweeps := rfl
@[simp] theorem setMonitor_pairs (s : State) (sec : Nat) (v : Monitor) : (s.setMonitor sec v).pairs = s.pairs := rfl
@[simp] theorem setMonitor_trips (s : State) (sec : Nat) (v : Monitor) : (s.setMonitor sec v).trips = s.trips := rfl
@[simp] theorem setMonitor_slots (s : State) (sec : Nat) (v : Monitor) : (s.setMonitor sec v).slots = s.slots := rfl
@[simp] theorem setMonitor_engines (s : State) (sec : Nat) (v : Monitor) : (s.setMonitor sec v).engines = s.engines := rfl
@[simp] theorem setMonitor_freezeLines (s : State) (sec : Nat) (v : Monitor) : (s.setMonitor sec v).freezeLines = s.freezeLines := rfl
@[simp] theorem setMonitor_threads (s : State) (sec : Nat) (v : Monitor) : (s.setMonitor sec v).threads = s.threads := rfl
@[simp] theorem setMonitor_cores (s : State) (sec : Nat) (v : Monitor) : (s.setMonitor sec v).cores = s.cores := rfl
@[simp] theorem setMonitor_panels (s : State) (sec : Nat) (v : Monitor) : (s.setMonitor sec v).panels = s.panels := rfl
@[simp] theorem setMonitor_counters (s : State) (sec : Nat) (v : Monitor) : (s.setMonitor sec v).counters = s.counters := rfl
@[simp] theorem setMonitor_dmas (s : State) (sec : Nat) (v : Monitor) : (s.setMonitor sec v).dmas = s.dmas := rfl
@[simp] theorem setMonitor_timers (s : State) (sec : Nat) (v : Monitor) : (s.setMonitor sec v).timers = s.timers := rfl
@[simp] theorem setMonitor_stencils (s : State) (sec : Nat) (v : Monitor) : (s.setMonitor sec v).stencils = s.stencils := rfl
@[simp] theorem setMonitor_pads (s : State) (sec : Nat) (v : Monitor) : (s.setMonitor sec v).pads = s.pads := rfl
@[simp] theorem setMonitor_intents (s : State) (sec : Nat) (v : Monitor) : (s.setMonitor sec v).intents = s.intents := rfl
@[simp] theorem setMonitor_budgets (s : State) (sec : Nat) (v : Monitor) : (s.setMonitor sec v).budgets = s.budgets := rfl
@[simp] theorem setMonitor_ports (s : State) (sec : Nat) (v : Monitor) : (s.setMonitor sec v).ports = s.ports := rfl
@[simp] theorem setMonitor_journals (s : State) (sec : Nat) (v : Monitor) : (s.setMonitor sec v).journals = s.journals := rfl
@[simp] theorem setMonitor_handovers (s : State) (sec : Nat) (v : Monitor) : (s.setMonitor sec v).handovers = s.handovers := rfl
@[simp] theorem setMonitor_slotA (s : State) (sec : Nat) (v : Monitor) : (s.setMonitor sec v).slotA = s.slotA := rfl
@[simp] theorem setMonitor_slotB (s : State) (sec : Nat) (v : Monitor) : (s.setMonitor sec v).slotB = s.slotB := rfl
@[simp] theorem setMonitor_commit (s : State) (sec : Nat) (v : Monitor) : (s.setMonitor sec v).commit = s.commit := rfl
@[simp] theorem setMonitor_supply (s : State) (sec : Nat) (v : Monitor) : (s.setMonitor sec v).supply = s.supply := rfl
@[simp] theorem setMonitor_fuses (s : State) (sec : Nat) (v : Monitor) : (s.setMonitor sec v).fuses = s.fuses := rfl
@[simp] theorem setMonitor_image (s : State) (sec : Nat) (v : Monitor) : (s.setMonitor sec v).image = s.image := rfl
@[simp] theorem setMonitor_challenge (s : State) (sec : Nat) (v : Monitor) : (s.setMonitor sec v).challenge = s.challenge := rfl
@[simp] theorem setMonitor_tamperBusy (s : State) (sec : Nat) (v : Monitor) : (s.setMonitor sec v).tamperBusy = s.tamperBusy := rfl
@[simp] theorem setMonitor_jtag (s : State) (sec : Nat) (v : Monitor) : (s.setMonitor sec v).jtag = s.jtag := rfl
@[simp] theorem setMonitor_resetPinLow (s : State) (sec : Nat) (v : Monitor) : (s.setMonitor sec v).resetPinLow = s.resetPinLow := rfl
@[simp] theorem setMonitor_free (s : State) (sec : Nat) (v : Monitor) : (s.setMonitor sec v).free = s.free := rfl
@[simp] theorem setMonitor_upset (s : State) (sec : Nat) (v : Monitor) : (s.setMonitor sec v).upset = s.upset := rfl
@[simp] theorem setMonitor_pending (s : State) (sec : Nat) (v : Monitor) : (s.setMonitor sec v).pending = s.pending := rfl

/-! ### `State.setCmp` -/

@[simp] theorem setCmp_variant (s : State) (sec c : Nat) (v : Comparator) : (s.setCmp sec c v).variant = s.variant := rfl
@[simp] theorem setCmp_boot (s : State) (sec c : Nat) (v : Comparator) : (s.setCmp sec c v).boot = s.boot := rfl
@[simp] theorem setCmp_restored (s : State) (sec c : Nat) (v : Comparator) : (s.setCmp sec c v).restored = s.restored := rfl
@[simp] theorem setCmp_burn (s : State) (sec c : Nat) (v : Comparator) : (s.setCmp sec c v).burn = s.burn := rfl
@[simp] theorem setCmp_ticks (s : State) (sec c : Nat) (v : Comparator) : (s.setCmp sec c v).ticks = s.ticks := rfl
@[simp] theorem setCmp_canvas (s : State) (sec c : Nat) (v : Comparator) : (s.setCmp sec c v).canvas = s.canvas := rfl
@[simp] theorem setCmp_canvasNext (s : State) (sec c : Nat) (v : Comparator) : (s.setCmp sec c v).canvasNext = s.canvasNext := rfl
@[simp] theorem setCmp_anchors (s : State) (sec c : Nat) (v : Comparator) : (s.setCmp sec c v).anchors = s.anchors := rfl
@[simp] theorem setCmp_regs (s : State) (sec c : Nat) (v : Comparator) : (s.setCmp sec c v).regs = s.regs := rfl
@[simp] theorem setCmp_shown (s : State) (sec c : Nat) (v : Comparator) : (s.setCmp sec c v).shown = s.shown := rfl
@[simp] theorem setCmp_setNow (s : State) (sec c : Nat) (v : Comparator) : (s.setCmp sec c v).setNow = s.setNow := rfl
@[simp] theorem setCmp_rwcNow (s : State) (sec c : Nat) (v : Comparator) : (s.setCmp sec c v).rwcNow = s.rwcNow := rfl
@[simp] theorem setCmp_outputs (s : State) (sec c : Nat) (v : Comparator) : (s.setCmp sec c v).outputs = s.outputs := rfl
@[simp] theorem setCmp_bankWrites (s : State) (sec c : Nat) (v : Comparator) : (s.setCmp sec c v).bankWrites = s.bankWrites := rfl
@[simp] theorem setCmp_dues (s : State) (sec c : Nat) (v : Comparator) : (s.setCmp sec c v).dues = s.dues := rfl
@[simp] theorem setCmp_mem (s : State) (sec c : Nat) (v : Comparator) : (s.setCmp sec c v).mem = s.mem := rfl
@[simp] theorem setCmp_badWords (s : State) (sec c : Nat) (v : Comparator) : (s.setCmp sec c v).badWords = s.badWords := rfl
@[simp] theorem setCmp_poisoned (s : State) (sec c : Nat) (v : Comparator) : (s.setCmp sec c v).poisoned = s.poisoned := rfl
@[simp] theorem setCmp_flips (s : State) (sec c : Nat) (v : Comparator) : (s.setCmp sec c v).flips = s.flips := rfl
@[simp] theorem setCmp_seq (s : State) (sec c : Nat) (v : Comparator) : (s.setCmp sec c v).seq = s.seq := rfl
@[simp] theorem setCmp_flight (s : State) (sec c : Nat) (v : Comparator) : (s.setCmp sec c v).flight = s.flight := rfl
@[simp] theorem setCmp_twq (s : State) (sec c : Nat) (v : Comparator) : (s.setCmp sec c v).twq = s.twq := rfl
@[simp] theorem setCmp_waiting (s : State) (sec c : Nat) (v : Comparator) : (s.setCmp sec c v).waiting = s.waiting := rfl
@[simp] theorem setCmp_events (s : State) (sec c : Nat) (v : Comparator) : (s.setCmp sec c v).events = s.events := rfl
@[simp] theorem setCmp_evArrived (s : State) (sec c : Nat) (v : Comparator) : (s.setCmp sec c v).evArrived = s.evArrived := rfl
@[simp] theorem setCmp_evPend (s : State) (sec c : Nat) (v : Comparator) : (s.setCmp sec c v).evPend = s.evPend := rfl
@[simp] theorem setCmp_evServ (s : State) (sec c : Nat) (v : Comparator) : (s.setCmp sec c v).evServ = s.evServ := rfl
@[simp] theorem setCmp_alarms (s : State) (sec c : Nat) (v : Comparator) : (s.setCmp sec c v).alarms = s.alarms := rfl
@[simp] theorem setCmp_syncRun (s : State) (sec c : Nat) (v : Comparator) : (s.setCmp sec c v).syncRun = s.syncRun := rfl
@[simp] theorem setCmp_syncBad (s : State) (sec c : Nat) (v : Comparator) : (s.setCmp sec c v).syncBad = s.syncBad := rfl
@[simp] theorem setCmp_lastAdj (s : State) (sec c : Nat) (v : Comparator) : (s.setCmp sec c v).lastAdj = s.lastAdj := rfl
@[simp] theorem setCmp_adjGoal (s : State) (sec c : Nat) (v : Comparator) : (s.setCmp sec c v).adjGoal = s.adjGoal := rfl
@[simp] theorem setCmp_syncOut (s : State) (sec c : Nat) (v : Comparator) : (s.setCmp sec c v).syncOut = s.syncOut := rfl
@[simp] theorem setCmp_evtLow (s : State) (sec c : Nat) (v : Comparator) : (s.setCmp sec c v).evtLow = s.evtLow := rfl
@[simp] theorem setCmp_convs (s : State) (sec c : Nat) (v : Comparator) : (s.setCmp sec c v).convs = s.convs := rfl
@[simp] theorem setCmp_seen (s : State) (sec c : Nat) (v : Comparator) : (s.setCmp sec c v).seen = s.seen := rfl
@[simp] theorem setCmp_monitors (s : State) (sec c : Nat) (v : Comparator) : (s.setCmp sec c v).monitors = s.monitors := rfl
@[simp] theorem setCmp_cmps (s : State) (sec c : Nat) (v : Comparator) :
    (s.setCmp sec c v).cmps = Store.write {} s.cmps (sec * 32 + c) v := rfl
@[simp] theorem setCmp_sweeps (s : State) (sec c : Nat) (v : Comparator) : (s.setCmp sec c v).sweeps = s.sweeps := rfl
@[simp] theorem setCmp_pairs (s : State) (sec c : Nat) (v : Comparator) : (s.setCmp sec c v).pairs = s.pairs := rfl
@[simp] theorem setCmp_trips (s : State) (sec c : Nat) (v : Comparator) : (s.setCmp sec c v).trips = s.trips := rfl
@[simp] theorem setCmp_slots (s : State) (sec c : Nat) (v : Comparator) : (s.setCmp sec c v).slots = s.slots := rfl
@[simp] theorem setCmp_engines (s : State) (sec c : Nat) (v : Comparator) : (s.setCmp sec c v).engines = s.engines := rfl
@[simp] theorem setCmp_freezeLines (s : State) (sec c : Nat) (v : Comparator) : (s.setCmp sec c v).freezeLines = s.freezeLines := rfl
@[simp] theorem setCmp_threads (s : State) (sec c : Nat) (v : Comparator) : (s.setCmp sec c v).threads = s.threads := rfl
@[simp] theorem setCmp_cores (s : State) (sec c : Nat) (v : Comparator) : (s.setCmp sec c v).cores = s.cores := rfl
@[simp] theorem setCmp_panels (s : State) (sec c : Nat) (v : Comparator) : (s.setCmp sec c v).panels = s.panels := rfl
@[simp] theorem setCmp_counters (s : State) (sec c : Nat) (v : Comparator) : (s.setCmp sec c v).counters = s.counters := rfl
@[simp] theorem setCmp_dmas (s : State) (sec c : Nat) (v : Comparator) : (s.setCmp sec c v).dmas = s.dmas := rfl
@[simp] theorem setCmp_timers (s : State) (sec c : Nat) (v : Comparator) : (s.setCmp sec c v).timers = s.timers := rfl
@[simp] theorem setCmp_stencils (s : State) (sec c : Nat) (v : Comparator) : (s.setCmp sec c v).stencils = s.stencils := rfl
@[simp] theorem setCmp_pads (s : State) (sec c : Nat) (v : Comparator) : (s.setCmp sec c v).pads = s.pads := rfl
@[simp] theorem setCmp_intents (s : State) (sec c : Nat) (v : Comparator) : (s.setCmp sec c v).intents = s.intents := rfl
@[simp] theorem setCmp_budgets (s : State) (sec c : Nat) (v : Comparator) : (s.setCmp sec c v).budgets = s.budgets := rfl
@[simp] theorem setCmp_ports (s : State) (sec c : Nat) (v : Comparator) : (s.setCmp sec c v).ports = s.ports := rfl
@[simp] theorem setCmp_journals (s : State) (sec c : Nat) (v : Comparator) : (s.setCmp sec c v).journals = s.journals := rfl
@[simp] theorem setCmp_handovers (s : State) (sec c : Nat) (v : Comparator) : (s.setCmp sec c v).handovers = s.handovers := rfl
@[simp] theorem setCmp_slotA (s : State) (sec c : Nat) (v : Comparator) : (s.setCmp sec c v).slotA = s.slotA := rfl
@[simp] theorem setCmp_slotB (s : State) (sec c : Nat) (v : Comparator) : (s.setCmp sec c v).slotB = s.slotB := rfl
@[simp] theorem setCmp_commit (s : State) (sec c : Nat) (v : Comparator) : (s.setCmp sec c v).commit = s.commit := rfl
@[simp] theorem setCmp_supply (s : State) (sec c : Nat) (v : Comparator) : (s.setCmp sec c v).supply = s.supply := rfl
@[simp] theorem setCmp_fuses (s : State) (sec c : Nat) (v : Comparator) : (s.setCmp sec c v).fuses = s.fuses := rfl
@[simp] theorem setCmp_image (s : State) (sec c : Nat) (v : Comparator) : (s.setCmp sec c v).image = s.image := rfl
@[simp] theorem setCmp_challenge (s : State) (sec c : Nat) (v : Comparator) : (s.setCmp sec c v).challenge = s.challenge := rfl
@[simp] theorem setCmp_tamperBusy (s : State) (sec c : Nat) (v : Comparator) : (s.setCmp sec c v).tamperBusy = s.tamperBusy := rfl
@[simp] theorem setCmp_jtag (s : State) (sec c : Nat) (v : Comparator) : (s.setCmp sec c v).jtag = s.jtag := rfl
@[simp] theorem setCmp_resetPinLow (s : State) (sec c : Nat) (v : Comparator) : (s.setCmp sec c v).resetPinLow = s.resetPinLow := rfl
@[simp] theorem setCmp_free (s : State) (sec c : Nat) (v : Comparator) : (s.setCmp sec c v).free = s.free := rfl
@[simp] theorem setCmp_upset (s : State) (sec c : Nat) (v : Comparator) : (s.setCmp sec c v).upset = s.upset := rfl
@[simp] theorem setCmp_pending (s : State) (sec c : Nat) (v : Comparator) : (s.setCmp sec c v).pending = s.pending := rfl

/-! ### `State.setSweep` -/

@[simp] theorem setSweep_variant (s : State) (sec : Nat) (v : Sweep) : (s.setSweep sec v).variant = s.variant := rfl
@[simp] theorem setSweep_boot (s : State) (sec : Nat) (v : Sweep) : (s.setSweep sec v).boot = s.boot := rfl
@[simp] theorem setSweep_restored (s : State) (sec : Nat) (v : Sweep) : (s.setSweep sec v).restored = s.restored := rfl
@[simp] theorem setSweep_burn (s : State) (sec : Nat) (v : Sweep) : (s.setSweep sec v).burn = s.burn := rfl
@[simp] theorem setSweep_ticks (s : State) (sec : Nat) (v : Sweep) : (s.setSweep sec v).ticks = s.ticks := rfl
@[simp] theorem setSweep_canvas (s : State) (sec : Nat) (v : Sweep) : (s.setSweep sec v).canvas = s.canvas := rfl
@[simp] theorem setSweep_canvasNext (s : State) (sec : Nat) (v : Sweep) : (s.setSweep sec v).canvasNext = s.canvasNext := rfl
@[simp] theorem setSweep_anchors (s : State) (sec : Nat) (v : Sweep) : (s.setSweep sec v).anchors = s.anchors := rfl
@[simp] theorem setSweep_regs (s : State) (sec : Nat) (v : Sweep) : (s.setSweep sec v).regs = s.regs := rfl
@[simp] theorem setSweep_shown (s : State) (sec : Nat) (v : Sweep) : (s.setSweep sec v).shown = s.shown := rfl
@[simp] theorem setSweep_setNow (s : State) (sec : Nat) (v : Sweep) : (s.setSweep sec v).setNow = s.setNow := rfl
@[simp] theorem setSweep_rwcNow (s : State) (sec : Nat) (v : Sweep) : (s.setSweep sec v).rwcNow = s.rwcNow := rfl
@[simp] theorem setSweep_outputs (s : State) (sec : Nat) (v : Sweep) : (s.setSweep sec v).outputs = s.outputs := rfl
@[simp] theorem setSweep_bankWrites (s : State) (sec : Nat) (v : Sweep) : (s.setSweep sec v).bankWrites = s.bankWrites := rfl
@[simp] theorem setSweep_dues (s : State) (sec : Nat) (v : Sweep) : (s.setSweep sec v).dues = s.dues := rfl
@[simp] theorem setSweep_mem (s : State) (sec : Nat) (v : Sweep) : (s.setSweep sec v).mem = s.mem := rfl
@[simp] theorem setSweep_badWords (s : State) (sec : Nat) (v : Sweep) : (s.setSweep sec v).badWords = s.badWords := rfl
@[simp] theorem setSweep_poisoned (s : State) (sec : Nat) (v : Sweep) : (s.setSweep sec v).poisoned = s.poisoned := rfl
@[simp] theorem setSweep_flips (s : State) (sec : Nat) (v : Sweep) : (s.setSweep sec v).flips = s.flips := rfl
@[simp] theorem setSweep_seq (s : State) (sec : Nat) (v : Sweep) : (s.setSweep sec v).seq = s.seq := rfl
@[simp] theorem setSweep_flight (s : State) (sec : Nat) (v : Sweep) : (s.setSweep sec v).flight = s.flight := rfl
@[simp] theorem setSweep_twq (s : State) (sec : Nat) (v : Sweep) : (s.setSweep sec v).twq = s.twq := rfl
@[simp] theorem setSweep_waiting (s : State) (sec : Nat) (v : Sweep) : (s.setSweep sec v).waiting = s.waiting := rfl
@[simp] theorem setSweep_events (s : State) (sec : Nat) (v : Sweep) : (s.setSweep sec v).events = s.events := rfl
@[simp] theorem setSweep_evArrived (s : State) (sec : Nat) (v : Sweep) : (s.setSweep sec v).evArrived = s.evArrived := rfl
@[simp] theorem setSweep_evPend (s : State) (sec : Nat) (v : Sweep) : (s.setSweep sec v).evPend = s.evPend := rfl
@[simp] theorem setSweep_evServ (s : State) (sec : Nat) (v : Sweep) : (s.setSweep sec v).evServ = s.evServ := rfl
@[simp] theorem setSweep_alarms (s : State) (sec : Nat) (v : Sweep) : (s.setSweep sec v).alarms = s.alarms := rfl
@[simp] theorem setSweep_syncRun (s : State) (sec : Nat) (v : Sweep) : (s.setSweep sec v).syncRun = s.syncRun := rfl
@[simp] theorem setSweep_syncBad (s : State) (sec : Nat) (v : Sweep) : (s.setSweep sec v).syncBad = s.syncBad := rfl
@[simp] theorem setSweep_lastAdj (s : State) (sec : Nat) (v : Sweep) : (s.setSweep sec v).lastAdj = s.lastAdj := rfl
@[simp] theorem setSweep_adjGoal (s : State) (sec : Nat) (v : Sweep) : (s.setSweep sec v).adjGoal = s.adjGoal := rfl
@[simp] theorem setSweep_syncOut (s : State) (sec : Nat) (v : Sweep) : (s.setSweep sec v).syncOut = s.syncOut := rfl
@[simp] theorem setSweep_evtLow (s : State) (sec : Nat) (v : Sweep) : (s.setSweep sec v).evtLow = s.evtLow := rfl
@[simp] theorem setSweep_convs (s : State) (sec : Nat) (v : Sweep) : (s.setSweep sec v).convs = s.convs := rfl
@[simp] theorem setSweep_seen (s : State) (sec : Nat) (v : Sweep) : (s.setSweep sec v).seen = s.seen := rfl
@[simp] theorem setSweep_monitors (s : State) (sec : Nat) (v : Sweep) : (s.setSweep sec v).monitors = s.monitors := rfl
@[simp] theorem setSweep_cmps (s : State) (sec : Nat) (v : Sweep) : (s.setSweep sec v).cmps = s.cmps := rfl
@[simp] theorem setSweep_sweeps (s : State) (sec : Nat) (v : Sweep) :
    (s.setSweep sec v).sweeps = Store.write {} s.sweeps sec v := rfl
@[simp] theorem setSweep_pairs (s : State) (sec : Nat) (v : Sweep) : (s.setSweep sec v).pairs = s.pairs := rfl
@[simp] theorem setSweep_trips (s : State) (sec : Nat) (v : Sweep) : (s.setSweep sec v).trips = s.trips := rfl
@[simp] theorem setSweep_slots (s : State) (sec : Nat) (v : Sweep) : (s.setSweep sec v).slots = s.slots := rfl
@[simp] theorem setSweep_engines (s : State) (sec : Nat) (v : Sweep) : (s.setSweep sec v).engines = s.engines := rfl
@[simp] theorem setSweep_freezeLines (s : State) (sec : Nat) (v : Sweep) : (s.setSweep sec v).freezeLines = s.freezeLines := rfl
@[simp] theorem setSweep_threads (s : State) (sec : Nat) (v : Sweep) : (s.setSweep sec v).threads = s.threads := rfl
@[simp] theorem setSweep_cores (s : State) (sec : Nat) (v : Sweep) : (s.setSweep sec v).cores = s.cores := rfl
@[simp] theorem setSweep_panels (s : State) (sec : Nat) (v : Sweep) : (s.setSweep sec v).panels = s.panels := rfl
@[simp] theorem setSweep_counters (s : State) (sec : Nat) (v : Sweep) : (s.setSweep sec v).counters = s.counters := rfl
@[simp] theorem setSweep_dmas (s : State) (sec : Nat) (v : Sweep) : (s.setSweep sec v).dmas = s.dmas := rfl
@[simp] theorem setSweep_timers (s : State) (sec : Nat) (v : Sweep) : (s.setSweep sec v).timers = s.timers := rfl
@[simp] theorem setSweep_stencils (s : State) (sec : Nat) (v : Sweep) : (s.setSweep sec v).stencils = s.stencils := rfl
@[simp] theorem setSweep_pads (s : State) (sec : Nat) (v : Sweep) : (s.setSweep sec v).pads = s.pads := rfl
@[simp] theorem setSweep_intents (s : State) (sec : Nat) (v : Sweep) : (s.setSweep sec v).intents = s.intents := rfl
@[simp] theorem setSweep_budgets (s : State) (sec : Nat) (v : Sweep) : (s.setSweep sec v).budgets = s.budgets := rfl
@[simp] theorem setSweep_ports (s : State) (sec : Nat) (v : Sweep) : (s.setSweep sec v).ports = s.ports := rfl
@[simp] theorem setSweep_journals (s : State) (sec : Nat) (v : Sweep) : (s.setSweep sec v).journals = s.journals := rfl
@[simp] theorem setSweep_handovers (s : State) (sec : Nat) (v : Sweep) : (s.setSweep sec v).handovers = s.handovers := rfl
@[simp] theorem setSweep_slotA (s : State) (sec : Nat) (v : Sweep) : (s.setSweep sec v).slotA = s.slotA := rfl
@[simp] theorem setSweep_slotB (s : State) (sec : Nat) (v : Sweep) : (s.setSweep sec v).slotB = s.slotB := rfl
@[simp] theorem setSweep_commit (s : State) (sec : Nat) (v : Sweep) : (s.setSweep sec v).commit = s.commit := rfl
@[simp] theorem setSweep_supply (s : State) (sec : Nat) (v : Sweep) : (s.setSweep sec v).supply = s.supply := rfl
@[simp] theorem setSweep_fuses (s : State) (sec : Nat) (v : Sweep) : (s.setSweep sec v).fuses = s.fuses := rfl
@[simp] theorem setSweep_image (s : State) (sec : Nat) (v : Sweep) : (s.setSweep sec v).image = s.image := rfl
@[simp] theorem setSweep_challenge (s : State) (sec : Nat) (v : Sweep) : (s.setSweep sec v).challenge = s.challenge := rfl
@[simp] theorem setSweep_tamperBusy (s : State) (sec : Nat) (v : Sweep) : (s.setSweep sec v).tamperBusy = s.tamperBusy := rfl
@[simp] theorem setSweep_jtag (s : State) (sec : Nat) (v : Sweep) : (s.setSweep sec v).jtag = s.jtag := rfl
@[simp] theorem setSweep_resetPinLow (s : State) (sec : Nat) (v : Sweep) : (s.setSweep sec v).resetPinLow = s.resetPinLow := rfl
@[simp] theorem setSweep_free (s : State) (sec : Nat) (v : Sweep) : (s.setSweep sec v).free = s.free := rfl
@[simp] theorem setSweep_upset (s : State) (sec : Nat) (v : Sweep) : (s.setSweep sec v).upset = s.upset := rfl
@[simp] theorem setSweep_pending (s : State) (sec : Nat) (v : Sweep) : (s.setSweep sec v).pending = s.pending := rfl

/-! ### `State.setPair` -/

@[simp] theorem setPair_variant (s : State) (sec p : Nat) (v : Pair) : (s.setPair sec p v).variant = s.variant := rfl
@[simp] theorem setPair_boot (s : State) (sec p : Nat) (v : Pair) : (s.setPair sec p v).boot = s.boot := rfl
@[simp] theorem setPair_restored (s : State) (sec p : Nat) (v : Pair) : (s.setPair sec p v).restored = s.restored := rfl
@[simp] theorem setPair_burn (s : State) (sec p : Nat) (v : Pair) : (s.setPair sec p v).burn = s.burn := rfl
@[simp] theorem setPair_ticks (s : State) (sec p : Nat) (v : Pair) : (s.setPair sec p v).ticks = s.ticks := rfl
@[simp] theorem setPair_canvas (s : State) (sec p : Nat) (v : Pair) : (s.setPair sec p v).canvas = s.canvas := rfl
@[simp] theorem setPair_canvasNext (s : State) (sec p : Nat) (v : Pair) : (s.setPair sec p v).canvasNext = s.canvasNext := rfl
@[simp] theorem setPair_anchors (s : State) (sec p : Nat) (v : Pair) : (s.setPair sec p v).anchors = s.anchors := rfl
@[simp] theorem setPair_regs (s : State) (sec p : Nat) (v : Pair) : (s.setPair sec p v).regs = s.regs := rfl
@[simp] theorem setPair_shown (s : State) (sec p : Nat) (v : Pair) : (s.setPair sec p v).shown = s.shown := rfl
@[simp] theorem setPair_setNow (s : State) (sec p : Nat) (v : Pair) : (s.setPair sec p v).setNow = s.setNow := rfl
@[simp] theorem setPair_rwcNow (s : State) (sec p : Nat) (v : Pair) : (s.setPair sec p v).rwcNow = s.rwcNow := rfl
@[simp] theorem setPair_outputs (s : State) (sec p : Nat) (v : Pair) : (s.setPair sec p v).outputs = s.outputs := rfl
@[simp] theorem setPair_bankWrites (s : State) (sec p : Nat) (v : Pair) : (s.setPair sec p v).bankWrites = s.bankWrites := rfl
@[simp] theorem setPair_dues (s : State) (sec p : Nat) (v : Pair) : (s.setPair sec p v).dues = s.dues := rfl
@[simp] theorem setPair_mem (s : State) (sec p : Nat) (v : Pair) : (s.setPair sec p v).mem = s.mem := rfl
@[simp] theorem setPair_badWords (s : State) (sec p : Nat) (v : Pair) : (s.setPair sec p v).badWords = s.badWords := rfl
@[simp] theorem setPair_poisoned (s : State) (sec p : Nat) (v : Pair) : (s.setPair sec p v).poisoned = s.poisoned := rfl
@[simp] theorem setPair_flips (s : State) (sec p : Nat) (v : Pair) : (s.setPair sec p v).flips = s.flips := rfl
@[simp] theorem setPair_seq (s : State) (sec p : Nat) (v : Pair) : (s.setPair sec p v).seq = s.seq := rfl
@[simp] theorem setPair_flight (s : State) (sec p : Nat) (v : Pair) : (s.setPair sec p v).flight = s.flight := rfl
@[simp] theorem setPair_twq (s : State) (sec p : Nat) (v : Pair) : (s.setPair sec p v).twq = s.twq := rfl
@[simp] theorem setPair_waiting (s : State) (sec p : Nat) (v : Pair) : (s.setPair sec p v).waiting = s.waiting := rfl
@[simp] theorem setPair_events (s : State) (sec p : Nat) (v : Pair) : (s.setPair sec p v).events = s.events := rfl
@[simp] theorem setPair_evArrived (s : State) (sec p : Nat) (v : Pair) : (s.setPair sec p v).evArrived = s.evArrived := rfl
@[simp] theorem setPair_evPend (s : State) (sec p : Nat) (v : Pair) : (s.setPair sec p v).evPend = s.evPend := rfl
@[simp] theorem setPair_evServ (s : State) (sec p : Nat) (v : Pair) : (s.setPair sec p v).evServ = s.evServ := rfl
@[simp] theorem setPair_alarms (s : State) (sec p : Nat) (v : Pair) : (s.setPair sec p v).alarms = s.alarms := rfl
@[simp] theorem setPair_syncRun (s : State) (sec p : Nat) (v : Pair) : (s.setPair sec p v).syncRun = s.syncRun := rfl
@[simp] theorem setPair_syncBad (s : State) (sec p : Nat) (v : Pair) : (s.setPair sec p v).syncBad = s.syncBad := rfl
@[simp] theorem setPair_lastAdj (s : State) (sec p : Nat) (v : Pair) : (s.setPair sec p v).lastAdj = s.lastAdj := rfl
@[simp] theorem setPair_adjGoal (s : State) (sec p : Nat) (v : Pair) : (s.setPair sec p v).adjGoal = s.adjGoal := rfl
@[simp] theorem setPair_syncOut (s : State) (sec p : Nat) (v : Pair) : (s.setPair sec p v).syncOut = s.syncOut := rfl
@[simp] theorem setPair_evtLow (s : State) (sec p : Nat) (v : Pair) : (s.setPair sec p v).evtLow = s.evtLow := rfl
@[simp] theorem setPair_convs (s : State) (sec p : Nat) (v : Pair) : (s.setPair sec p v).convs = s.convs := rfl
@[simp] theorem setPair_seen (s : State) (sec p : Nat) (v : Pair) : (s.setPair sec p v).seen = s.seen := rfl
@[simp] theorem setPair_monitors (s : State) (sec p : Nat) (v : Pair) : (s.setPair sec p v).monitors = s.monitors := rfl
@[simp] theorem setPair_cmps (s : State) (sec p : Nat) (v : Pair) : (s.setPair sec p v).cmps = s.cmps := rfl
@[simp] theorem setPair_sweeps (s : State) (sec p : Nat) (v : Pair) : (s.setPair sec p v).sweeps = s.sweeps := rfl
@[simp] theorem setPair_pairs (s : State) (sec p : Nat) (v : Pair) :
    (s.setPair sec p v).pairs = Store.write {} s.pairs (sec * 16 + p) v := rfl
@[simp] theorem setPair_trips (s : State) (sec p : Nat) (v : Pair) : (s.setPair sec p v).trips = s.trips := rfl
@[simp] theorem setPair_slots (s : State) (sec p : Nat) (v : Pair) : (s.setPair sec p v).slots = s.slots := rfl
@[simp] theorem setPair_engines (s : State) (sec p : Nat) (v : Pair) : (s.setPair sec p v).engines = s.engines := rfl
@[simp] theorem setPair_freezeLines (s : State) (sec p : Nat) (v : Pair) : (s.setPair sec p v).freezeLines = s.freezeLines := rfl
@[simp] theorem setPair_threads (s : State) (sec p : Nat) (v : Pair) : (s.setPair sec p v).threads = s.threads := rfl
@[simp] theorem setPair_cores (s : State) (sec p : Nat) (v : Pair) : (s.setPair sec p v).cores = s.cores := rfl
@[simp] theorem setPair_panels (s : State) (sec p : Nat) (v : Pair) : (s.setPair sec p v).panels = s.panels := rfl
@[simp] theorem setPair_counters (s : State) (sec p : Nat) (v : Pair) : (s.setPair sec p v).counters = s.counters := rfl
@[simp] theorem setPair_dmas (s : State) (sec p : Nat) (v : Pair) : (s.setPair sec p v).dmas = s.dmas := rfl
@[simp] theorem setPair_timers (s : State) (sec p : Nat) (v : Pair) : (s.setPair sec p v).timers = s.timers := rfl
@[simp] theorem setPair_stencils (s : State) (sec p : Nat) (v : Pair) : (s.setPair sec p v).stencils = s.stencils := rfl
@[simp] theorem setPair_pads (s : State) (sec p : Nat) (v : Pair) : (s.setPair sec p v).pads = s.pads := rfl
@[simp] theorem setPair_intents (s : State) (sec p : Nat) (v : Pair) : (s.setPair sec p v).intents = s.intents := rfl
@[simp] theorem setPair_budgets (s : State) (sec p : Nat) (v : Pair) : (s.setPair sec p v).budgets = s.budgets := rfl
@[simp] theorem setPair_ports (s : State) (sec p : Nat) (v : Pair) : (s.setPair sec p v).ports = s.ports := rfl
@[simp] theorem setPair_journals (s : State) (sec p : Nat) (v : Pair) : (s.setPair sec p v).journals = s.journals := rfl
@[simp] theorem setPair_handovers (s : State) (sec p : Nat) (v : Pair) : (s.setPair sec p v).handovers = s.handovers := rfl
@[simp] theorem setPair_slotA (s : State) (sec p : Nat) (v : Pair) : (s.setPair sec p v).slotA = s.slotA := rfl
@[simp] theorem setPair_slotB (s : State) (sec p : Nat) (v : Pair) : (s.setPair sec p v).slotB = s.slotB := rfl
@[simp] theorem setPair_commit (s : State) (sec p : Nat) (v : Pair) : (s.setPair sec p v).commit = s.commit := rfl
@[simp] theorem setPair_supply (s : State) (sec p : Nat) (v : Pair) : (s.setPair sec p v).supply = s.supply := rfl
@[simp] theorem setPair_fuses (s : State) (sec p : Nat) (v : Pair) : (s.setPair sec p v).fuses = s.fuses := rfl
@[simp] theorem setPair_image (s : State) (sec p : Nat) (v : Pair) : (s.setPair sec p v).image = s.image := rfl
@[simp] theorem setPair_challenge (s : State) (sec p : Nat) (v : Pair) : (s.setPair sec p v).challenge = s.challenge := rfl
@[simp] theorem setPair_tamperBusy (s : State) (sec p : Nat) (v : Pair) : (s.setPair sec p v).tamperBusy = s.tamperBusy := rfl
@[simp] theorem setPair_jtag (s : State) (sec p : Nat) (v : Pair) : (s.setPair sec p v).jtag = s.jtag := rfl
@[simp] theorem setPair_resetPinLow (s : State) (sec p : Nat) (v : Pair) : (s.setPair sec p v).resetPinLow = s.resetPinLow := rfl
@[simp] theorem setPair_free (s : State) (sec p : Nat) (v : Pair) : (s.setPair sec p v).free = s.free := rfl
@[simp] theorem setPair_upset (s : State) (sec p : Nat) (v : Pair) : (s.setPair sec p v).upset = s.upset := rfl
@[simp] theorem setPair_pending (s : State) (sec p : Nat) (v : Pair) : (s.setPair sec p v).pending = s.pending := rfl

/-! ### `State.setTrip` -/

@[simp] theorem setTrip_variant (s : State) (sec : Nat) (v : Trip) : (s.setTrip sec v).variant = s.variant := rfl
@[simp] theorem setTrip_boot (s : State) (sec : Nat) (v : Trip) : (s.setTrip sec v).boot = s.boot := rfl
@[simp] theorem setTrip_restored (s : State) (sec : Nat) (v : Trip) : (s.setTrip sec v).restored = s.restored := rfl
@[simp] theorem setTrip_burn (s : State) (sec : Nat) (v : Trip) : (s.setTrip sec v).burn = s.burn := rfl
@[simp] theorem setTrip_ticks (s : State) (sec : Nat) (v : Trip) : (s.setTrip sec v).ticks = s.ticks := rfl
@[simp] theorem setTrip_canvas (s : State) (sec : Nat) (v : Trip) : (s.setTrip sec v).canvas = s.canvas := rfl
@[simp] theorem setTrip_canvasNext (s : State) (sec : Nat) (v : Trip) : (s.setTrip sec v).canvasNext = s.canvasNext := rfl
@[simp] theorem setTrip_anchors (s : State) (sec : Nat) (v : Trip) : (s.setTrip sec v).anchors = s.anchors := rfl
@[simp] theorem setTrip_regs (s : State) (sec : Nat) (v : Trip) : (s.setTrip sec v).regs = s.regs := rfl
@[simp] theorem setTrip_shown (s : State) (sec : Nat) (v : Trip) : (s.setTrip sec v).shown = s.shown := rfl
@[simp] theorem setTrip_setNow (s : State) (sec : Nat) (v : Trip) : (s.setTrip sec v).setNow = s.setNow := rfl
@[simp] theorem setTrip_rwcNow (s : State) (sec : Nat) (v : Trip) : (s.setTrip sec v).rwcNow = s.rwcNow := rfl
@[simp] theorem setTrip_outputs (s : State) (sec : Nat) (v : Trip) : (s.setTrip sec v).outputs = s.outputs := rfl
@[simp] theorem setTrip_bankWrites (s : State) (sec : Nat) (v : Trip) : (s.setTrip sec v).bankWrites = s.bankWrites := rfl
@[simp] theorem setTrip_dues (s : State) (sec : Nat) (v : Trip) : (s.setTrip sec v).dues = s.dues := rfl
@[simp] theorem setTrip_mem (s : State) (sec : Nat) (v : Trip) : (s.setTrip sec v).mem = s.mem := rfl
@[simp] theorem setTrip_badWords (s : State) (sec : Nat) (v : Trip) : (s.setTrip sec v).badWords = s.badWords := rfl
@[simp] theorem setTrip_poisoned (s : State) (sec : Nat) (v : Trip) : (s.setTrip sec v).poisoned = s.poisoned := rfl
@[simp] theorem setTrip_flips (s : State) (sec : Nat) (v : Trip) : (s.setTrip sec v).flips = s.flips := rfl
@[simp] theorem setTrip_seq (s : State) (sec : Nat) (v : Trip) : (s.setTrip sec v).seq = s.seq := rfl
@[simp] theorem setTrip_flight (s : State) (sec : Nat) (v : Trip) : (s.setTrip sec v).flight = s.flight := rfl
@[simp] theorem setTrip_twq (s : State) (sec : Nat) (v : Trip) : (s.setTrip sec v).twq = s.twq := rfl
@[simp] theorem setTrip_waiting (s : State) (sec : Nat) (v : Trip) : (s.setTrip sec v).waiting = s.waiting := rfl
@[simp] theorem setTrip_events (s : State) (sec : Nat) (v : Trip) : (s.setTrip sec v).events = s.events := rfl
@[simp] theorem setTrip_evArrived (s : State) (sec : Nat) (v : Trip) : (s.setTrip sec v).evArrived = s.evArrived := rfl
@[simp] theorem setTrip_evPend (s : State) (sec : Nat) (v : Trip) : (s.setTrip sec v).evPend = s.evPend := rfl
@[simp] theorem setTrip_evServ (s : State) (sec : Nat) (v : Trip) : (s.setTrip sec v).evServ = s.evServ := rfl
@[simp] theorem setTrip_alarms (s : State) (sec : Nat) (v : Trip) : (s.setTrip sec v).alarms = s.alarms := rfl
@[simp] theorem setTrip_syncRun (s : State) (sec : Nat) (v : Trip) : (s.setTrip sec v).syncRun = s.syncRun := rfl
@[simp] theorem setTrip_syncBad (s : State) (sec : Nat) (v : Trip) : (s.setTrip sec v).syncBad = s.syncBad := rfl
@[simp] theorem setTrip_lastAdj (s : State) (sec : Nat) (v : Trip) : (s.setTrip sec v).lastAdj = s.lastAdj := rfl
@[simp] theorem setTrip_adjGoal (s : State) (sec : Nat) (v : Trip) : (s.setTrip sec v).adjGoal = s.adjGoal := rfl
@[simp] theorem setTrip_syncOut (s : State) (sec : Nat) (v : Trip) : (s.setTrip sec v).syncOut = s.syncOut := rfl
@[simp] theorem setTrip_evtLow (s : State) (sec : Nat) (v : Trip) : (s.setTrip sec v).evtLow = s.evtLow := rfl
@[simp] theorem setTrip_convs (s : State) (sec : Nat) (v : Trip) : (s.setTrip sec v).convs = s.convs := rfl
@[simp] theorem setTrip_seen (s : State) (sec : Nat) (v : Trip) : (s.setTrip sec v).seen = s.seen := rfl
@[simp] theorem setTrip_monitors (s : State) (sec : Nat) (v : Trip) : (s.setTrip sec v).monitors = s.monitors := rfl
@[simp] theorem setTrip_cmps (s : State) (sec : Nat) (v : Trip) : (s.setTrip sec v).cmps = s.cmps := rfl
@[simp] theorem setTrip_sweeps (s : State) (sec : Nat) (v : Trip) : (s.setTrip sec v).sweeps = s.sweeps := rfl
@[simp] theorem setTrip_pairs (s : State) (sec : Nat) (v : Trip) : (s.setTrip sec v).pairs = s.pairs := rfl
@[simp] theorem setTrip_trips (s : State) (sec : Nat) (v : Trip) :
    (s.setTrip sec v).trips = Store.write {} s.trips sec v := rfl
@[simp] theorem setTrip_slots (s : State) (sec : Nat) (v : Trip) : (s.setTrip sec v).slots = s.slots := rfl
@[simp] theorem setTrip_engines (s : State) (sec : Nat) (v : Trip) : (s.setTrip sec v).engines = s.engines := rfl
@[simp] theorem setTrip_freezeLines (s : State) (sec : Nat) (v : Trip) : (s.setTrip sec v).freezeLines = s.freezeLines := rfl
@[simp] theorem setTrip_threads (s : State) (sec : Nat) (v : Trip) : (s.setTrip sec v).threads = s.threads := rfl
@[simp] theorem setTrip_cores (s : State) (sec : Nat) (v : Trip) : (s.setTrip sec v).cores = s.cores := rfl
@[simp] theorem setTrip_panels (s : State) (sec : Nat) (v : Trip) : (s.setTrip sec v).panels = s.panels := rfl
@[simp] theorem setTrip_counters (s : State) (sec : Nat) (v : Trip) : (s.setTrip sec v).counters = s.counters := rfl
@[simp] theorem setTrip_dmas (s : State) (sec : Nat) (v : Trip) : (s.setTrip sec v).dmas = s.dmas := rfl
@[simp] theorem setTrip_timers (s : State) (sec : Nat) (v : Trip) : (s.setTrip sec v).timers = s.timers := rfl
@[simp] theorem setTrip_stencils (s : State) (sec : Nat) (v : Trip) : (s.setTrip sec v).stencils = s.stencils := rfl
@[simp] theorem setTrip_pads (s : State) (sec : Nat) (v : Trip) : (s.setTrip sec v).pads = s.pads := rfl
@[simp] theorem setTrip_intents (s : State) (sec : Nat) (v : Trip) : (s.setTrip sec v).intents = s.intents := rfl
@[simp] theorem setTrip_budgets (s : State) (sec : Nat) (v : Trip) : (s.setTrip sec v).budgets = s.budgets := rfl
@[simp] theorem setTrip_ports (s : State) (sec : Nat) (v : Trip) : (s.setTrip sec v).ports = s.ports := rfl
@[simp] theorem setTrip_journals (s : State) (sec : Nat) (v : Trip) : (s.setTrip sec v).journals = s.journals := rfl
@[simp] theorem setTrip_handovers (s : State) (sec : Nat) (v : Trip) : (s.setTrip sec v).handovers = s.handovers := rfl
@[simp] theorem setTrip_slotA (s : State) (sec : Nat) (v : Trip) : (s.setTrip sec v).slotA = s.slotA := rfl
@[simp] theorem setTrip_slotB (s : State) (sec : Nat) (v : Trip) : (s.setTrip sec v).slotB = s.slotB := rfl
@[simp] theorem setTrip_commit (s : State) (sec : Nat) (v : Trip) : (s.setTrip sec v).commit = s.commit := rfl
@[simp] theorem setTrip_supply (s : State) (sec : Nat) (v : Trip) : (s.setTrip sec v).supply = s.supply := rfl
@[simp] theorem setTrip_fuses (s : State) (sec : Nat) (v : Trip) : (s.setTrip sec v).fuses = s.fuses := rfl
@[simp] theorem setTrip_image (s : State) (sec : Nat) (v : Trip) : (s.setTrip sec v).image = s.image := rfl
@[simp] theorem setTrip_challenge (s : State) (sec : Nat) (v : Trip) : (s.setTrip sec v).challenge = s.challenge := rfl
@[simp] theorem setTrip_tamperBusy (s : State) (sec : Nat) (v : Trip) : (s.setTrip sec v).tamperBusy = s.tamperBusy := rfl
@[simp] theorem setTrip_jtag (s : State) (sec : Nat) (v : Trip) : (s.setTrip sec v).jtag = s.jtag := rfl
@[simp] theorem setTrip_resetPinLow (s : State) (sec : Nat) (v : Trip) : (s.setTrip sec v).resetPinLow = s.resetPinLow := rfl
@[simp] theorem setTrip_free (s : State) (sec : Nat) (v : Trip) : (s.setTrip sec v).free = s.free := rfl
@[simp] theorem setTrip_upset (s : State) (sec : Nat) (v : Trip) : (s.setTrip sec v).upset = s.upset := rfl
@[simp] theorem setTrip_pending (s : State) (sec : Nat) (v : Trip) : (s.setTrip sec v).pending = s.pending := rfl

/-! ### `State.setSlot` -/

@[simp] theorem setSlot_variant (s : State) (sec n : Nat) (v : LoopSlot) : (s.setSlot sec n v).variant = s.variant := rfl
@[simp] theorem setSlot_boot (s : State) (sec n : Nat) (v : LoopSlot) : (s.setSlot sec n v).boot = s.boot := rfl
@[simp] theorem setSlot_restored (s : State) (sec n : Nat) (v : LoopSlot) : (s.setSlot sec n v).restored = s.restored := rfl
@[simp] theorem setSlot_burn (s : State) (sec n : Nat) (v : LoopSlot) : (s.setSlot sec n v).burn = s.burn := rfl
@[simp] theorem setSlot_ticks (s : State) (sec n : Nat) (v : LoopSlot) : (s.setSlot sec n v).ticks = s.ticks := rfl
@[simp] theorem setSlot_canvas (s : State) (sec n : Nat) (v : LoopSlot) : (s.setSlot sec n v).canvas = s.canvas := rfl
@[simp] theorem setSlot_canvasNext (s : State) (sec n : Nat) (v : LoopSlot) : (s.setSlot sec n v).canvasNext = s.canvasNext := rfl
@[simp] theorem setSlot_anchors (s : State) (sec n : Nat) (v : LoopSlot) : (s.setSlot sec n v).anchors = s.anchors := rfl
@[simp] theorem setSlot_regs (s : State) (sec n : Nat) (v : LoopSlot) : (s.setSlot sec n v).regs = s.regs := rfl
@[simp] theorem setSlot_shown (s : State) (sec n : Nat) (v : LoopSlot) : (s.setSlot sec n v).shown = s.shown := rfl
@[simp] theorem setSlot_setNow (s : State) (sec n : Nat) (v : LoopSlot) : (s.setSlot sec n v).setNow = s.setNow := rfl
@[simp] theorem setSlot_rwcNow (s : State) (sec n : Nat) (v : LoopSlot) : (s.setSlot sec n v).rwcNow = s.rwcNow := rfl
@[simp] theorem setSlot_outputs (s : State) (sec n : Nat) (v : LoopSlot) : (s.setSlot sec n v).outputs = s.outputs := rfl
@[simp] theorem setSlot_bankWrites (s : State) (sec n : Nat) (v : LoopSlot) : (s.setSlot sec n v).bankWrites = s.bankWrites := rfl
@[simp] theorem setSlot_dues (s : State) (sec n : Nat) (v : LoopSlot) : (s.setSlot sec n v).dues = s.dues := rfl
@[simp] theorem setSlot_mem (s : State) (sec n : Nat) (v : LoopSlot) : (s.setSlot sec n v).mem = s.mem := rfl
@[simp] theorem setSlot_badWords (s : State) (sec n : Nat) (v : LoopSlot) : (s.setSlot sec n v).badWords = s.badWords := rfl
@[simp] theorem setSlot_poisoned (s : State) (sec n : Nat) (v : LoopSlot) : (s.setSlot sec n v).poisoned = s.poisoned := rfl
@[simp] theorem setSlot_flips (s : State) (sec n : Nat) (v : LoopSlot) : (s.setSlot sec n v).flips = s.flips := rfl
@[simp] theorem setSlot_seq (s : State) (sec n : Nat) (v : LoopSlot) : (s.setSlot sec n v).seq = s.seq := rfl
@[simp] theorem setSlot_flight (s : State) (sec n : Nat) (v : LoopSlot) : (s.setSlot sec n v).flight = s.flight := rfl
@[simp] theorem setSlot_twq (s : State) (sec n : Nat) (v : LoopSlot) : (s.setSlot sec n v).twq = s.twq := rfl
@[simp] theorem setSlot_waiting (s : State) (sec n : Nat) (v : LoopSlot) : (s.setSlot sec n v).waiting = s.waiting := rfl
@[simp] theorem setSlot_events (s : State) (sec n : Nat) (v : LoopSlot) : (s.setSlot sec n v).events = s.events := rfl
@[simp] theorem setSlot_evArrived (s : State) (sec n : Nat) (v : LoopSlot) : (s.setSlot sec n v).evArrived = s.evArrived := rfl
@[simp] theorem setSlot_evPend (s : State) (sec n : Nat) (v : LoopSlot) : (s.setSlot sec n v).evPend = s.evPend := rfl
@[simp] theorem setSlot_evServ (s : State) (sec n : Nat) (v : LoopSlot) : (s.setSlot sec n v).evServ = s.evServ := rfl
@[simp] theorem setSlot_alarms (s : State) (sec n : Nat) (v : LoopSlot) : (s.setSlot sec n v).alarms = s.alarms := rfl
@[simp] theorem setSlot_syncRun (s : State) (sec n : Nat) (v : LoopSlot) : (s.setSlot sec n v).syncRun = s.syncRun := rfl
@[simp] theorem setSlot_syncBad (s : State) (sec n : Nat) (v : LoopSlot) : (s.setSlot sec n v).syncBad = s.syncBad := rfl
@[simp] theorem setSlot_lastAdj (s : State) (sec n : Nat) (v : LoopSlot) : (s.setSlot sec n v).lastAdj = s.lastAdj := rfl
@[simp] theorem setSlot_adjGoal (s : State) (sec n : Nat) (v : LoopSlot) : (s.setSlot sec n v).adjGoal = s.adjGoal := rfl
@[simp] theorem setSlot_syncOut (s : State) (sec n : Nat) (v : LoopSlot) : (s.setSlot sec n v).syncOut = s.syncOut := rfl
@[simp] theorem setSlot_evtLow (s : State) (sec n : Nat) (v : LoopSlot) : (s.setSlot sec n v).evtLow = s.evtLow := rfl
@[simp] theorem setSlot_convs (s : State) (sec n : Nat) (v : LoopSlot) : (s.setSlot sec n v).convs = s.convs := rfl
@[simp] theorem setSlot_seen (s : State) (sec n : Nat) (v : LoopSlot) : (s.setSlot sec n v).seen = s.seen := rfl
@[simp] theorem setSlot_monitors (s : State) (sec n : Nat) (v : LoopSlot) : (s.setSlot sec n v).monitors = s.monitors := rfl
@[simp] theorem setSlot_cmps (s : State) (sec n : Nat) (v : LoopSlot) : (s.setSlot sec n v).cmps = s.cmps := rfl
@[simp] theorem setSlot_sweeps (s : State) (sec n : Nat) (v : LoopSlot) : (s.setSlot sec n v).sweeps = s.sweeps := rfl
@[simp] theorem setSlot_pairs (s : State) (sec n : Nat) (v : LoopSlot) : (s.setSlot sec n v).pairs = s.pairs := rfl
@[simp] theorem setSlot_trips (s : State) (sec n : Nat) (v : LoopSlot) : (s.setSlot sec n v).trips = s.trips := rfl
@[simp] theorem setSlot_slots (s : State) (sec n : Nat) (v : LoopSlot) :
    (s.setSlot sec n v).slots = Store.write {} s.slots (sec * 16 + n) v := rfl
@[simp] theorem setSlot_engines (s : State) (sec n : Nat) (v : LoopSlot) : (s.setSlot sec n v).engines = s.engines := rfl
@[simp] theorem setSlot_freezeLines (s : State) (sec n : Nat) (v : LoopSlot) : (s.setSlot sec n v).freezeLines = s.freezeLines := rfl
@[simp] theorem setSlot_threads (s : State) (sec n : Nat) (v : LoopSlot) : (s.setSlot sec n v).threads = s.threads := rfl
@[simp] theorem setSlot_cores (s : State) (sec n : Nat) (v : LoopSlot) : (s.setSlot sec n v).cores = s.cores := rfl
@[simp] theorem setSlot_panels (s : State) (sec n : Nat) (v : LoopSlot) : (s.setSlot sec n v).panels = s.panels := rfl
@[simp] theorem setSlot_counters (s : State) (sec n : Nat) (v : LoopSlot) : (s.setSlot sec n v).counters = s.counters := rfl
@[simp] theorem setSlot_dmas (s : State) (sec n : Nat) (v : LoopSlot) : (s.setSlot sec n v).dmas = s.dmas := rfl
@[simp] theorem setSlot_timers (s : State) (sec n : Nat) (v : LoopSlot) : (s.setSlot sec n v).timers = s.timers := rfl
@[simp] theorem setSlot_stencils (s : State) (sec n : Nat) (v : LoopSlot) : (s.setSlot sec n v).stencils = s.stencils := rfl
@[simp] theorem setSlot_pads (s : State) (sec n : Nat) (v : LoopSlot) : (s.setSlot sec n v).pads = s.pads := rfl
@[simp] theorem setSlot_intents (s : State) (sec n : Nat) (v : LoopSlot) : (s.setSlot sec n v).intents = s.intents := rfl
@[simp] theorem setSlot_budgets (s : State) (sec n : Nat) (v : LoopSlot) : (s.setSlot sec n v).budgets = s.budgets := rfl
@[simp] theorem setSlot_ports (s : State) (sec n : Nat) (v : LoopSlot) : (s.setSlot sec n v).ports = s.ports := rfl
@[simp] theorem setSlot_journals (s : State) (sec n : Nat) (v : LoopSlot) : (s.setSlot sec n v).journals = s.journals := rfl
@[simp] theorem setSlot_handovers (s : State) (sec n : Nat) (v : LoopSlot) : (s.setSlot sec n v).handovers = s.handovers := rfl
@[simp] theorem setSlot_slotA (s : State) (sec n : Nat) (v : LoopSlot) : (s.setSlot sec n v).slotA = s.slotA := rfl
@[simp] theorem setSlot_slotB (s : State) (sec n : Nat) (v : LoopSlot) : (s.setSlot sec n v).slotB = s.slotB := rfl
@[simp] theorem setSlot_commit (s : State) (sec n : Nat) (v : LoopSlot) : (s.setSlot sec n v).commit = s.commit := rfl
@[simp] theorem setSlot_supply (s : State) (sec n : Nat) (v : LoopSlot) : (s.setSlot sec n v).supply = s.supply := rfl
@[simp] theorem setSlot_fuses (s : State) (sec n : Nat) (v : LoopSlot) : (s.setSlot sec n v).fuses = s.fuses := rfl
@[simp] theorem setSlot_image (s : State) (sec n : Nat) (v : LoopSlot) : (s.setSlot sec n v).image = s.image := rfl
@[simp] theorem setSlot_challenge (s : State) (sec n : Nat) (v : LoopSlot) : (s.setSlot sec n v).challenge = s.challenge := rfl
@[simp] theorem setSlot_tamperBusy (s : State) (sec n : Nat) (v : LoopSlot) : (s.setSlot sec n v).tamperBusy = s.tamperBusy := rfl
@[simp] theorem setSlot_jtag (s : State) (sec n : Nat) (v : LoopSlot) : (s.setSlot sec n v).jtag = s.jtag := rfl
@[simp] theorem setSlot_resetPinLow (s : State) (sec n : Nat) (v : LoopSlot) : (s.setSlot sec n v).resetPinLow = s.resetPinLow := rfl
@[simp] theorem setSlot_free (s : State) (sec n : Nat) (v : LoopSlot) : (s.setSlot sec n v).free = s.free := rfl
@[simp] theorem setSlot_upset (s : State) (sec n : Nat) (v : LoopSlot) : (s.setSlot sec n v).upset = s.upset := rfl
@[simp] theorem setSlot_pending (s : State) (sec n : Nat) (v : LoopSlot) : (s.setSlot sec n v).pending = s.pending := rfl

/-! ### `State.setThread` -/

@[simp] theorem setThread_variant (s : State) (p t : Nat) (v : Thread) : (s.setThread p t v).variant = s.variant := rfl
@[simp] theorem setThread_boot (s : State) (p t : Nat) (v : Thread) : (s.setThread p t v).boot = s.boot := rfl
@[simp] theorem setThread_restored (s : State) (p t : Nat) (v : Thread) : (s.setThread p t v).restored = s.restored := rfl
@[simp] theorem setThread_burn (s : State) (p t : Nat) (v : Thread) : (s.setThread p t v).burn = s.burn := rfl
@[simp] theorem setThread_ticks (s : State) (p t : Nat) (v : Thread) : (s.setThread p t v).ticks = s.ticks := rfl
@[simp] theorem setThread_canvas (s : State) (p t : Nat) (v : Thread) : (s.setThread p t v).canvas = s.canvas := rfl
@[simp] theorem setThread_canvasNext (s : State) (p t : Nat) (v : Thread) : (s.setThread p t v).canvasNext = s.canvasNext := rfl
@[simp] theorem setThread_anchors (s : State) (p t : Nat) (v : Thread) : (s.setThread p t v).anchors = s.anchors := rfl
@[simp] theorem setThread_regs (s : State) (p t : Nat) (v : Thread) : (s.setThread p t v).regs = s.regs := rfl
@[simp] theorem setThread_shown (s : State) (p t : Nat) (v : Thread) : (s.setThread p t v).shown = s.shown := rfl
@[simp] theorem setThread_setNow (s : State) (p t : Nat) (v : Thread) : (s.setThread p t v).setNow = s.setNow := rfl
@[simp] theorem setThread_rwcNow (s : State) (p t : Nat) (v : Thread) : (s.setThread p t v).rwcNow = s.rwcNow := rfl
@[simp] theorem setThread_outputs (s : State) (p t : Nat) (v : Thread) : (s.setThread p t v).outputs = s.outputs := rfl
@[simp] theorem setThread_bankWrites (s : State) (p t : Nat) (v : Thread) : (s.setThread p t v).bankWrites = s.bankWrites := rfl
@[simp] theorem setThread_dues (s : State) (p t : Nat) (v : Thread) : (s.setThread p t v).dues = s.dues := rfl
@[simp] theorem setThread_mem (s : State) (p t : Nat) (v : Thread) : (s.setThread p t v).mem = s.mem := rfl
@[simp] theorem setThread_badWords (s : State) (p t : Nat) (v : Thread) : (s.setThread p t v).badWords = s.badWords := rfl
@[simp] theorem setThread_poisoned (s : State) (p t : Nat) (v : Thread) : (s.setThread p t v).poisoned = s.poisoned := rfl
@[simp] theorem setThread_flips (s : State) (p t : Nat) (v : Thread) : (s.setThread p t v).flips = s.flips := rfl
@[simp] theorem setThread_seq (s : State) (p t : Nat) (v : Thread) : (s.setThread p t v).seq = s.seq := rfl
@[simp] theorem setThread_flight (s : State) (p t : Nat) (v : Thread) : (s.setThread p t v).flight = s.flight := rfl
@[simp] theorem setThread_twq (s : State) (p t : Nat) (v : Thread) : (s.setThread p t v).twq = s.twq := rfl
@[simp] theorem setThread_waiting (s : State) (p t : Nat) (v : Thread) : (s.setThread p t v).waiting = s.waiting := rfl
@[simp] theorem setThread_events (s : State) (p t : Nat) (v : Thread) : (s.setThread p t v).events = s.events := rfl
@[simp] theorem setThread_evArrived (s : State) (p t : Nat) (v : Thread) : (s.setThread p t v).evArrived = s.evArrived := rfl
@[simp] theorem setThread_evPend (s : State) (p t : Nat) (v : Thread) : (s.setThread p t v).evPend = s.evPend := rfl
@[simp] theorem setThread_evServ (s : State) (p t : Nat) (v : Thread) : (s.setThread p t v).evServ = s.evServ := rfl
@[simp] theorem setThread_alarms (s : State) (p t : Nat) (v : Thread) : (s.setThread p t v).alarms = s.alarms := rfl
@[simp] theorem setThread_syncRun (s : State) (p t : Nat) (v : Thread) : (s.setThread p t v).syncRun = s.syncRun := rfl
@[simp] theorem setThread_syncBad (s : State) (p t : Nat) (v : Thread) : (s.setThread p t v).syncBad = s.syncBad := rfl
@[simp] theorem setThread_lastAdj (s : State) (p t : Nat) (v : Thread) : (s.setThread p t v).lastAdj = s.lastAdj := rfl
@[simp] theorem setThread_adjGoal (s : State) (p t : Nat) (v : Thread) : (s.setThread p t v).adjGoal = s.adjGoal := rfl
@[simp] theorem setThread_syncOut (s : State) (p t : Nat) (v : Thread) : (s.setThread p t v).syncOut = s.syncOut := rfl
@[simp] theorem setThread_evtLow (s : State) (p t : Nat) (v : Thread) : (s.setThread p t v).evtLow = s.evtLow := rfl
@[simp] theorem setThread_convs (s : State) (p t : Nat) (v : Thread) : (s.setThread p t v).convs = s.convs := rfl
@[simp] theorem setThread_seen (s : State) (p t : Nat) (v : Thread) : (s.setThread p t v).seen = s.seen := rfl
@[simp] theorem setThread_monitors (s : State) (p t : Nat) (v : Thread) : (s.setThread p t v).monitors = s.monitors := rfl
@[simp] theorem setThread_cmps (s : State) (p t : Nat) (v : Thread) : (s.setThread p t v).cmps = s.cmps := rfl
@[simp] theorem setThread_sweeps (s : State) (p t : Nat) (v : Thread) : (s.setThread p t v).sweeps = s.sweeps := rfl
@[simp] theorem setThread_pairs (s : State) (p t : Nat) (v : Thread) : (s.setThread p t v).pairs = s.pairs := rfl
@[simp] theorem setThread_trips (s : State) (p t : Nat) (v : Thread) : (s.setThread p t v).trips = s.trips := rfl
@[simp] theorem setThread_slots (s : State) (p t : Nat) (v : Thread) : (s.setThread p t v).slots = s.slots := rfl
@[simp] theorem setThread_engines (s : State) (p t : Nat) (v : Thread) : (s.setThread p t v).engines = s.engines := rfl
@[simp] theorem setThread_freezeLines (s : State) (p t : Nat) (v : Thread) : (s.setThread p t v).freezeLines = s.freezeLines := rfl
@[simp] theorem setThread_threads (s : State) (p t : Nat) (v : Thread) :
    (s.setThread p t v).threads = Store.write {} s.threads (p * 16 + t) v := rfl
@[simp] theorem setThread_cores (s : State) (p t : Nat) (v : Thread) : (s.setThread p t v).cores = s.cores := rfl
@[simp] theorem setThread_panels (s : State) (p t : Nat) (v : Thread) : (s.setThread p t v).panels = s.panels := rfl
@[simp] theorem setThread_counters (s : State) (p t : Nat) (v : Thread) : (s.setThread p t v).counters = s.counters := rfl
@[simp] theorem setThread_dmas (s : State) (p t : Nat) (v : Thread) : (s.setThread p t v).dmas = s.dmas := rfl
@[simp] theorem setThread_timers (s : State) (p t : Nat) (v : Thread) : (s.setThread p t v).timers = s.timers := rfl
@[simp] theorem setThread_stencils (s : State) (p t : Nat) (v : Thread) : (s.setThread p t v).stencils = s.stencils := rfl
@[simp] theorem setThread_pads (s : State) (p t : Nat) (v : Thread) : (s.setThread p t v).pads = s.pads := rfl
@[simp] theorem setThread_intents (s : State) (p t : Nat) (v : Thread) : (s.setThread p t v).intents = s.intents := rfl
@[simp] theorem setThread_budgets (s : State) (p t : Nat) (v : Thread) : (s.setThread p t v).budgets = s.budgets := rfl
@[simp] theorem setThread_ports (s : State) (p t : Nat) (v : Thread) : (s.setThread p t v).ports = s.ports := rfl
@[simp] theorem setThread_journals (s : State) (p t : Nat) (v : Thread) : (s.setThread p t v).journals = s.journals := rfl
@[simp] theorem setThread_handovers (s : State) (p t : Nat) (v : Thread) : (s.setThread p t v).handovers = s.handovers := rfl
@[simp] theorem setThread_slotA (s : State) (p t : Nat) (v : Thread) : (s.setThread p t v).slotA = s.slotA := rfl
@[simp] theorem setThread_slotB (s : State) (p t : Nat) (v : Thread) : (s.setThread p t v).slotB = s.slotB := rfl
@[simp] theorem setThread_commit (s : State) (p t : Nat) (v : Thread) : (s.setThread p t v).commit = s.commit := rfl
@[simp] theorem setThread_supply (s : State) (p t : Nat) (v : Thread) : (s.setThread p t v).supply = s.supply := rfl
@[simp] theorem setThread_fuses (s : State) (p t : Nat) (v : Thread) : (s.setThread p t v).fuses = s.fuses := rfl
@[simp] theorem setThread_image (s : State) (p t : Nat) (v : Thread) : (s.setThread p t v).image = s.image := rfl
@[simp] theorem setThread_challenge (s : State) (p t : Nat) (v : Thread) : (s.setThread p t v).challenge = s.challenge := rfl
@[simp] theorem setThread_tamperBusy (s : State) (p t : Nat) (v : Thread) : (s.setThread p t v).tamperBusy = s.tamperBusy := rfl
@[simp] theorem setThread_jtag (s : State) (p t : Nat) (v : Thread) : (s.setThread p t v).jtag = s.jtag := rfl
@[simp] theorem setThread_resetPinLow (s : State) (p t : Nat) (v : Thread) : (s.setThread p t v).resetPinLow = s.resetPinLow := rfl
@[simp] theorem setThread_free (s : State) (p t : Nat) (v : Thread) : (s.setThread p t v).free = s.free := rfl
@[simp] theorem setThread_upset (s : State) (p t : Nat) (v : Thread) : (s.setThread p t v).upset = s.upset := rfl
@[simp] theorem setThread_pending (s : State) (p t : Nat) (v : Thread) : (s.setThread p t v).pending = s.pending := rfl

/-! ### `State.setCore` -/

@[simp] theorem setCore_variant (s : State) (p c : Nat) (v : Core) : (s.setCore p c v).variant = s.variant := rfl
@[simp] theorem setCore_boot (s : State) (p c : Nat) (v : Core) : (s.setCore p c v).boot = s.boot := rfl
@[simp] theorem setCore_restored (s : State) (p c : Nat) (v : Core) : (s.setCore p c v).restored = s.restored := rfl
@[simp] theorem setCore_burn (s : State) (p c : Nat) (v : Core) : (s.setCore p c v).burn = s.burn := rfl
@[simp] theorem setCore_ticks (s : State) (p c : Nat) (v : Core) : (s.setCore p c v).ticks = s.ticks := rfl
@[simp] theorem setCore_canvas (s : State) (p c : Nat) (v : Core) : (s.setCore p c v).canvas = s.canvas := rfl
@[simp] theorem setCore_canvasNext (s : State) (p c : Nat) (v : Core) : (s.setCore p c v).canvasNext = s.canvasNext := rfl
@[simp] theorem setCore_anchors (s : State) (p c : Nat) (v : Core) : (s.setCore p c v).anchors = s.anchors := rfl
@[simp] theorem setCore_regs (s : State) (p c : Nat) (v : Core) : (s.setCore p c v).regs = s.regs := rfl
@[simp] theorem setCore_shown (s : State) (p c : Nat) (v : Core) : (s.setCore p c v).shown = s.shown := rfl
@[simp] theorem setCore_setNow (s : State) (p c : Nat) (v : Core) : (s.setCore p c v).setNow = s.setNow := rfl
@[simp] theorem setCore_rwcNow (s : State) (p c : Nat) (v : Core) : (s.setCore p c v).rwcNow = s.rwcNow := rfl
@[simp] theorem setCore_outputs (s : State) (p c : Nat) (v : Core) : (s.setCore p c v).outputs = s.outputs := rfl
@[simp] theorem setCore_bankWrites (s : State) (p c : Nat) (v : Core) : (s.setCore p c v).bankWrites = s.bankWrites := rfl
@[simp] theorem setCore_dues (s : State) (p c : Nat) (v : Core) : (s.setCore p c v).dues = s.dues := rfl
@[simp] theorem setCore_mem (s : State) (p c : Nat) (v : Core) : (s.setCore p c v).mem = s.mem := rfl
@[simp] theorem setCore_badWords (s : State) (p c : Nat) (v : Core) : (s.setCore p c v).badWords = s.badWords := rfl
@[simp] theorem setCore_poisoned (s : State) (p c : Nat) (v : Core) : (s.setCore p c v).poisoned = s.poisoned := rfl
@[simp] theorem setCore_flips (s : State) (p c : Nat) (v : Core) : (s.setCore p c v).flips = s.flips := rfl
@[simp] theorem setCore_seq (s : State) (p c : Nat) (v : Core) : (s.setCore p c v).seq = s.seq := rfl
@[simp] theorem setCore_flight (s : State) (p c : Nat) (v : Core) : (s.setCore p c v).flight = s.flight := rfl
@[simp] theorem setCore_twq (s : State) (p c : Nat) (v : Core) : (s.setCore p c v).twq = s.twq := rfl
@[simp] theorem setCore_waiting (s : State) (p c : Nat) (v : Core) : (s.setCore p c v).waiting = s.waiting := rfl
@[simp] theorem setCore_events (s : State) (p c : Nat) (v : Core) : (s.setCore p c v).events = s.events := rfl
@[simp] theorem setCore_evArrived (s : State) (p c : Nat) (v : Core) : (s.setCore p c v).evArrived = s.evArrived := rfl
@[simp] theorem setCore_evPend (s : State) (p c : Nat) (v : Core) : (s.setCore p c v).evPend = s.evPend := rfl
@[simp] theorem setCore_evServ (s : State) (p c : Nat) (v : Core) : (s.setCore p c v).evServ = s.evServ := rfl
@[simp] theorem setCore_alarms (s : State) (p c : Nat) (v : Core) : (s.setCore p c v).alarms = s.alarms := rfl
@[simp] theorem setCore_syncRun (s : State) (p c : Nat) (v : Core) : (s.setCore p c v).syncRun = s.syncRun := rfl
@[simp] theorem setCore_syncBad (s : State) (p c : Nat) (v : Core) : (s.setCore p c v).syncBad = s.syncBad := rfl
@[simp] theorem setCore_lastAdj (s : State) (p c : Nat) (v : Core) : (s.setCore p c v).lastAdj = s.lastAdj := rfl
@[simp] theorem setCore_adjGoal (s : State) (p c : Nat) (v : Core) : (s.setCore p c v).adjGoal = s.adjGoal := rfl
@[simp] theorem setCore_syncOut (s : State) (p c : Nat) (v : Core) : (s.setCore p c v).syncOut = s.syncOut := rfl
@[simp] theorem setCore_evtLow (s : State) (p c : Nat) (v : Core) : (s.setCore p c v).evtLow = s.evtLow := rfl
@[simp] theorem setCore_convs (s : State) (p c : Nat) (v : Core) : (s.setCore p c v).convs = s.convs := rfl
@[simp] theorem setCore_seen (s : State) (p c : Nat) (v : Core) : (s.setCore p c v).seen = s.seen := rfl
@[simp] theorem setCore_monitors (s : State) (p c : Nat) (v : Core) : (s.setCore p c v).monitors = s.monitors := rfl
@[simp] theorem setCore_cmps (s : State) (p c : Nat) (v : Core) : (s.setCore p c v).cmps = s.cmps := rfl
@[simp] theorem setCore_sweeps (s : State) (p c : Nat) (v : Core) : (s.setCore p c v).sweeps = s.sweeps := rfl
@[simp] theorem setCore_pairs (s : State) (p c : Nat) (v : Core) : (s.setCore p c v).pairs = s.pairs := rfl
@[simp] theorem setCore_trips (s : State) (p c : Nat) (v : Core) : (s.setCore p c v).trips = s.trips := rfl
@[simp] theorem setCore_slots (s : State) (p c : Nat) (v : Core) : (s.setCore p c v).slots = s.slots := rfl
@[simp] theorem setCore_engines (s : State) (p c : Nat) (v : Core) : (s.setCore p c v).engines = s.engines := rfl
@[simp] theorem setCore_freezeLines (s : State) (p c : Nat) (v : Core) : (s.setCore p c v).freezeLines = s.freezeLines := rfl
@[simp] theorem setCore_threads (s : State) (p c : Nat) (v : Core) : (s.setCore p c v).threads = s.threads := rfl
@[simp] theorem setCore_cores (s : State) (p c : Nat) (v : Core) :
    (s.setCore p c v).cores = Store.write {} s.cores (p * 4 + c) v := rfl
@[simp] theorem setCore_panels (s : State) (p c : Nat) (v : Core) : (s.setCore p c v).panels = s.panels := rfl
@[simp] theorem setCore_counters (s : State) (p c : Nat) (v : Core) : (s.setCore p c v).counters = s.counters := rfl
@[simp] theorem setCore_dmas (s : State) (p c : Nat) (v : Core) : (s.setCore p c v).dmas = s.dmas := rfl
@[simp] theorem setCore_timers (s : State) (p c : Nat) (v : Core) : (s.setCore p c v).timers = s.timers := rfl
@[simp] theorem setCore_stencils (s : State) (p c : Nat) (v : Core) : (s.setCore p c v).stencils = s.stencils := rfl
@[simp] theorem setCore_pads (s : State) (p c : Nat) (v : Core) : (s.setCore p c v).pads = s.pads := rfl
@[simp] theorem setCore_intents (s : State) (p c : Nat) (v : Core) : (s.setCore p c v).intents = s.intents := rfl
@[simp] theorem setCore_budgets (s : State) (p c : Nat) (v : Core) : (s.setCore p c v).budgets = s.budgets := rfl
@[simp] theorem setCore_ports (s : State) (p c : Nat) (v : Core) : (s.setCore p c v).ports = s.ports := rfl
@[simp] theorem setCore_journals (s : State) (p c : Nat) (v : Core) : (s.setCore p c v).journals = s.journals := rfl
@[simp] theorem setCore_handovers (s : State) (p c : Nat) (v : Core) : (s.setCore p c v).handovers = s.handovers := rfl
@[simp] theorem setCore_slotA (s : State) (p c : Nat) (v : Core) : (s.setCore p c v).slotA = s.slotA := rfl
@[simp] theorem setCore_slotB (s : State) (p c : Nat) (v : Core) : (s.setCore p c v).slotB = s.slotB := rfl
@[simp] theorem setCore_commit (s : State) (p c : Nat) (v : Core) : (s.setCore p c v).commit = s.commit := rfl
@[simp] theorem setCore_supply (s : State) (p c : Nat) (v : Core) : (s.setCore p c v).supply = s.supply := rfl
@[simp] theorem setCore_fuses (s : State) (p c : Nat) (v : Core) : (s.setCore p c v).fuses = s.fuses := rfl
@[simp] theorem setCore_image (s : State) (p c : Nat) (v : Core) : (s.setCore p c v).image = s.image := rfl
@[simp] theorem setCore_challenge (s : State) (p c : Nat) (v : Core) : (s.setCore p c v).challenge = s.challenge := rfl
@[simp] theorem setCore_tamperBusy (s : State) (p c : Nat) (v : Core) : (s.setCore p c v).tamperBusy = s.tamperBusy := rfl
@[simp] theorem setCore_jtag (s : State) (p c : Nat) (v : Core) : (s.setCore p c v).jtag = s.jtag := rfl
@[simp] theorem setCore_resetPinLow (s : State) (p c : Nat) (v : Core) : (s.setCore p c v).resetPinLow = s.resetPinLow := rfl
@[simp] theorem setCore_free (s : State) (p c : Nat) (v : Core) : (s.setCore p c v).free = s.free := rfl
@[simp] theorem setCore_upset (s : State) (p c : Nat) (v : Core) : (s.setCore p c v).upset = s.upset := rfl
@[simp] theorem setCore_pending (s : State) (p c : Nat) (v : Core) : (s.setCore p c v).pending = s.pending := rfl

/-! ### `State.setPanel` -/

@[simp] theorem setPanel_variant (s : State) (p : Nat) (v : Panel) : (s.setPanel p v).variant = s.variant := rfl
@[simp] theorem setPanel_boot (s : State) (p : Nat) (v : Panel) : (s.setPanel p v).boot = s.boot := rfl
@[simp] theorem setPanel_restored (s : State) (p : Nat) (v : Panel) : (s.setPanel p v).restored = s.restored := rfl
@[simp] theorem setPanel_burn (s : State) (p : Nat) (v : Panel) : (s.setPanel p v).burn = s.burn := rfl
@[simp] theorem setPanel_ticks (s : State) (p : Nat) (v : Panel) : (s.setPanel p v).ticks = s.ticks := rfl
@[simp] theorem setPanel_canvas (s : State) (p : Nat) (v : Panel) : (s.setPanel p v).canvas = s.canvas := rfl
@[simp] theorem setPanel_canvasNext (s : State) (p : Nat) (v : Panel) : (s.setPanel p v).canvasNext = s.canvasNext := rfl
@[simp] theorem setPanel_anchors (s : State) (p : Nat) (v : Panel) : (s.setPanel p v).anchors = s.anchors := rfl
@[simp] theorem setPanel_regs (s : State) (p : Nat) (v : Panel) : (s.setPanel p v).regs = s.regs := rfl
@[simp] theorem setPanel_shown (s : State) (p : Nat) (v : Panel) : (s.setPanel p v).shown = s.shown := rfl
@[simp] theorem setPanel_setNow (s : State) (p : Nat) (v : Panel) : (s.setPanel p v).setNow = s.setNow := rfl
@[simp] theorem setPanel_rwcNow (s : State) (p : Nat) (v : Panel) : (s.setPanel p v).rwcNow = s.rwcNow := rfl
@[simp] theorem setPanel_outputs (s : State) (p : Nat) (v : Panel) : (s.setPanel p v).outputs = s.outputs := rfl
@[simp] theorem setPanel_bankWrites (s : State) (p : Nat) (v : Panel) : (s.setPanel p v).bankWrites = s.bankWrites := rfl
@[simp] theorem setPanel_dues (s : State) (p : Nat) (v : Panel) : (s.setPanel p v).dues = s.dues := rfl
@[simp] theorem setPanel_mem (s : State) (p : Nat) (v : Panel) : (s.setPanel p v).mem = s.mem := rfl
@[simp] theorem setPanel_badWords (s : State) (p : Nat) (v : Panel) : (s.setPanel p v).badWords = s.badWords := rfl
@[simp] theorem setPanel_poisoned (s : State) (p : Nat) (v : Panel) : (s.setPanel p v).poisoned = s.poisoned := rfl
@[simp] theorem setPanel_flips (s : State) (p : Nat) (v : Panel) : (s.setPanel p v).flips = s.flips := rfl
@[simp] theorem setPanel_seq (s : State) (p : Nat) (v : Panel) : (s.setPanel p v).seq = s.seq := rfl
@[simp] theorem setPanel_flight (s : State) (p : Nat) (v : Panel) : (s.setPanel p v).flight = s.flight := rfl
@[simp] theorem setPanel_twq (s : State) (p : Nat) (v : Panel) : (s.setPanel p v).twq = s.twq := rfl
@[simp] theorem setPanel_waiting (s : State) (p : Nat) (v : Panel) : (s.setPanel p v).waiting = s.waiting := rfl
@[simp] theorem setPanel_events (s : State) (p : Nat) (v : Panel) : (s.setPanel p v).events = s.events := rfl
@[simp] theorem setPanel_evArrived (s : State) (p : Nat) (v : Panel) : (s.setPanel p v).evArrived = s.evArrived := rfl
@[simp] theorem setPanel_evPend (s : State) (p : Nat) (v : Panel) : (s.setPanel p v).evPend = s.evPend := rfl
@[simp] theorem setPanel_evServ (s : State) (p : Nat) (v : Panel) : (s.setPanel p v).evServ = s.evServ := rfl
@[simp] theorem setPanel_alarms (s : State) (p : Nat) (v : Panel) : (s.setPanel p v).alarms = s.alarms := rfl
@[simp] theorem setPanel_syncRun (s : State) (p : Nat) (v : Panel) : (s.setPanel p v).syncRun = s.syncRun := rfl
@[simp] theorem setPanel_syncBad (s : State) (p : Nat) (v : Panel) : (s.setPanel p v).syncBad = s.syncBad := rfl
@[simp] theorem setPanel_lastAdj (s : State) (p : Nat) (v : Panel) : (s.setPanel p v).lastAdj = s.lastAdj := rfl
@[simp] theorem setPanel_adjGoal (s : State) (p : Nat) (v : Panel) : (s.setPanel p v).adjGoal = s.adjGoal := rfl
@[simp] theorem setPanel_syncOut (s : State) (p : Nat) (v : Panel) : (s.setPanel p v).syncOut = s.syncOut := rfl
@[simp] theorem setPanel_evtLow (s : State) (p : Nat) (v : Panel) : (s.setPanel p v).evtLow = s.evtLow := rfl
@[simp] theorem setPanel_convs (s : State) (p : Nat) (v : Panel) : (s.setPanel p v).convs = s.convs := rfl
@[simp] theorem setPanel_seen (s : State) (p : Nat) (v : Panel) : (s.setPanel p v).seen = s.seen := rfl
@[simp] theorem setPanel_monitors (s : State) (p : Nat) (v : Panel) : (s.setPanel p v).monitors = s.monitors := rfl
@[simp] theorem setPanel_cmps (s : State) (p : Nat) (v : Panel) : (s.setPanel p v).cmps = s.cmps := rfl
@[simp] theorem setPanel_sweeps (s : State) (p : Nat) (v : Panel) : (s.setPanel p v).sweeps = s.sweeps := rfl
@[simp] theorem setPanel_pairs (s : State) (p : Nat) (v : Panel) : (s.setPanel p v).pairs = s.pairs := rfl
@[simp] theorem setPanel_trips (s : State) (p : Nat) (v : Panel) : (s.setPanel p v).trips = s.trips := rfl
@[simp] theorem setPanel_slots (s : State) (p : Nat) (v : Panel) : (s.setPanel p v).slots = s.slots := rfl
@[simp] theorem setPanel_engines (s : State) (p : Nat) (v : Panel) : (s.setPanel p v).engines = s.engines := rfl
@[simp] theorem setPanel_freezeLines (s : State) (p : Nat) (v : Panel) : (s.setPanel p v).freezeLines = s.freezeLines := rfl
@[simp] theorem setPanel_threads (s : State) (p : Nat) (v : Panel) : (s.setPanel p v).threads = s.threads := rfl
@[simp] theorem setPanel_cores (s : State) (p : Nat) (v : Panel) : (s.setPanel p v).cores = s.cores := rfl
@[simp] theorem setPanel_panels (s : State) (p : Nat) (v : Panel) :
    (s.setPanel p v).panels = Store.write {} s.panels p v := rfl
@[simp] theorem setPanel_counters (s : State) (p : Nat) (v : Panel) : (s.setPanel p v).counters = s.counters := rfl
@[simp] theorem setPanel_dmas (s : State) (p : Nat) (v : Panel) : (s.setPanel p v).dmas = s.dmas := rfl
@[simp] theorem setPanel_timers (s : State) (p : Nat) (v : Panel) : (s.setPanel p v).timers = s.timers := rfl
@[simp] theorem setPanel_stencils (s : State) (p : Nat) (v : Panel) : (s.setPanel p v).stencils = s.stencils := rfl
@[simp] theorem setPanel_pads (s : State) (p : Nat) (v : Panel) : (s.setPanel p v).pads = s.pads := rfl
@[simp] theorem setPanel_intents (s : State) (p : Nat) (v : Panel) : (s.setPanel p v).intents = s.intents := rfl
@[simp] theorem setPanel_budgets (s : State) (p : Nat) (v : Panel) : (s.setPanel p v).budgets = s.budgets := rfl
@[simp] theorem setPanel_ports (s : State) (p : Nat) (v : Panel) : (s.setPanel p v).ports = s.ports := rfl
@[simp] theorem setPanel_journals (s : State) (p : Nat) (v : Panel) : (s.setPanel p v).journals = s.journals := rfl
@[simp] theorem setPanel_handovers (s : State) (p : Nat) (v : Panel) : (s.setPanel p v).handovers = s.handovers := rfl
@[simp] theorem setPanel_slotA (s : State) (p : Nat) (v : Panel) : (s.setPanel p v).slotA = s.slotA := rfl
@[simp] theorem setPanel_slotB (s : State) (p : Nat) (v : Panel) : (s.setPanel p v).slotB = s.slotB := rfl
@[simp] theorem setPanel_commit (s : State) (p : Nat) (v : Panel) : (s.setPanel p v).commit = s.commit := rfl
@[simp] theorem setPanel_supply (s : State) (p : Nat) (v : Panel) : (s.setPanel p v).supply = s.supply := rfl
@[simp] theorem setPanel_fuses (s : State) (p : Nat) (v : Panel) : (s.setPanel p v).fuses = s.fuses := rfl
@[simp] theorem setPanel_image (s : State) (p : Nat) (v : Panel) : (s.setPanel p v).image = s.image := rfl
@[simp] theorem setPanel_challenge (s : State) (p : Nat) (v : Panel) : (s.setPanel p v).challenge = s.challenge := rfl
@[simp] theorem setPanel_tamperBusy (s : State) (p : Nat) (v : Panel) : (s.setPanel p v).tamperBusy = s.tamperBusy := rfl
@[simp] theorem setPanel_jtag (s : State) (p : Nat) (v : Panel) : (s.setPanel p v).jtag = s.jtag := rfl
@[simp] theorem setPanel_resetPinLow (s : State) (p : Nat) (v : Panel) : (s.setPanel p v).resetPinLow = s.resetPinLow := rfl
@[simp] theorem setPanel_free (s : State) (p : Nat) (v : Panel) : (s.setPanel p v).free = s.free := rfl
@[simp] theorem setPanel_upset (s : State) (p : Nat) (v : Panel) : (s.setPanel p v).upset = s.upset := rfl
@[simp] theorem setPanel_pending (s : State) (p : Nat) (v : Panel) : (s.setPanel p v).pending = s.pending := rfl

/-! ### `State.setDma` -/

@[simp] theorem setDma_variant (s : State) (p c : Nat) (v : Dma) : (s.setDma p c v).variant = s.variant := rfl
@[simp] theorem setDma_boot (s : State) (p c : Nat) (v : Dma) : (s.setDma p c v).boot = s.boot := rfl
@[simp] theorem setDma_restored (s : State) (p c : Nat) (v : Dma) : (s.setDma p c v).restored = s.restored := rfl
@[simp] theorem setDma_burn (s : State) (p c : Nat) (v : Dma) : (s.setDma p c v).burn = s.burn := rfl
@[simp] theorem setDma_ticks (s : State) (p c : Nat) (v : Dma) : (s.setDma p c v).ticks = s.ticks := rfl
@[simp] theorem setDma_canvas (s : State) (p c : Nat) (v : Dma) : (s.setDma p c v).canvas = s.canvas := rfl
@[simp] theorem setDma_canvasNext (s : State) (p c : Nat) (v : Dma) : (s.setDma p c v).canvasNext = s.canvasNext := rfl
@[simp] theorem setDma_anchors (s : State) (p c : Nat) (v : Dma) : (s.setDma p c v).anchors = s.anchors := rfl
@[simp] theorem setDma_regs (s : State) (p c : Nat) (v : Dma) : (s.setDma p c v).regs = s.regs := rfl
@[simp] theorem setDma_shown (s : State) (p c : Nat) (v : Dma) : (s.setDma p c v).shown = s.shown := rfl
@[simp] theorem setDma_setNow (s : State) (p c : Nat) (v : Dma) : (s.setDma p c v).setNow = s.setNow := rfl
@[simp] theorem setDma_rwcNow (s : State) (p c : Nat) (v : Dma) : (s.setDma p c v).rwcNow = s.rwcNow := rfl
@[simp] theorem setDma_outputs (s : State) (p c : Nat) (v : Dma) : (s.setDma p c v).outputs = s.outputs := rfl
@[simp] theorem setDma_bankWrites (s : State) (p c : Nat) (v : Dma) : (s.setDma p c v).bankWrites = s.bankWrites := rfl
@[simp] theorem setDma_dues (s : State) (p c : Nat) (v : Dma) : (s.setDma p c v).dues = s.dues := rfl
@[simp] theorem setDma_mem (s : State) (p c : Nat) (v : Dma) : (s.setDma p c v).mem = s.mem := rfl
@[simp] theorem setDma_badWords (s : State) (p c : Nat) (v : Dma) : (s.setDma p c v).badWords = s.badWords := rfl
@[simp] theorem setDma_poisoned (s : State) (p c : Nat) (v : Dma) : (s.setDma p c v).poisoned = s.poisoned := rfl
@[simp] theorem setDma_flips (s : State) (p c : Nat) (v : Dma) : (s.setDma p c v).flips = s.flips := rfl
@[simp] theorem setDma_seq (s : State) (p c : Nat) (v : Dma) : (s.setDma p c v).seq = s.seq := rfl
@[simp] theorem setDma_flight (s : State) (p c : Nat) (v : Dma) : (s.setDma p c v).flight = s.flight := rfl
@[simp] theorem setDma_twq (s : State) (p c : Nat) (v : Dma) : (s.setDma p c v).twq = s.twq := rfl
@[simp] theorem setDma_waiting (s : State) (p c : Nat) (v : Dma) : (s.setDma p c v).waiting = s.waiting := rfl
@[simp] theorem setDma_events (s : State) (p c : Nat) (v : Dma) : (s.setDma p c v).events = s.events := rfl
@[simp] theorem setDma_evArrived (s : State) (p c : Nat) (v : Dma) : (s.setDma p c v).evArrived = s.evArrived := rfl
@[simp] theorem setDma_evPend (s : State) (p c : Nat) (v : Dma) : (s.setDma p c v).evPend = s.evPend := rfl
@[simp] theorem setDma_evServ (s : State) (p c : Nat) (v : Dma) : (s.setDma p c v).evServ = s.evServ := rfl
@[simp] theorem setDma_alarms (s : State) (p c : Nat) (v : Dma) : (s.setDma p c v).alarms = s.alarms := rfl
@[simp] theorem setDma_syncRun (s : State) (p c : Nat) (v : Dma) : (s.setDma p c v).syncRun = s.syncRun := rfl
@[simp] theorem setDma_syncBad (s : State) (p c : Nat) (v : Dma) : (s.setDma p c v).syncBad = s.syncBad := rfl
@[simp] theorem setDma_lastAdj (s : State) (p c : Nat) (v : Dma) : (s.setDma p c v).lastAdj = s.lastAdj := rfl
@[simp] theorem setDma_adjGoal (s : State) (p c : Nat) (v : Dma) : (s.setDma p c v).adjGoal = s.adjGoal := rfl
@[simp] theorem setDma_syncOut (s : State) (p c : Nat) (v : Dma) : (s.setDma p c v).syncOut = s.syncOut := rfl
@[simp] theorem setDma_evtLow (s : State) (p c : Nat) (v : Dma) : (s.setDma p c v).evtLow = s.evtLow := rfl
@[simp] theorem setDma_convs (s : State) (p c : Nat) (v : Dma) : (s.setDma p c v).convs = s.convs := rfl
@[simp] theorem setDma_seen (s : State) (p c : Nat) (v : Dma) : (s.setDma p c v).seen = s.seen := rfl
@[simp] theorem setDma_monitors (s : State) (p c : Nat) (v : Dma) : (s.setDma p c v).monitors = s.monitors := rfl
@[simp] theorem setDma_cmps (s : State) (p c : Nat) (v : Dma) : (s.setDma p c v).cmps = s.cmps := rfl
@[simp] theorem setDma_sweeps (s : State) (p c : Nat) (v : Dma) : (s.setDma p c v).sweeps = s.sweeps := rfl
@[simp] theorem setDma_pairs (s : State) (p c : Nat) (v : Dma) : (s.setDma p c v).pairs = s.pairs := rfl
@[simp] theorem setDma_trips (s : State) (p c : Nat) (v : Dma) : (s.setDma p c v).trips = s.trips := rfl
@[simp] theorem setDma_slots (s : State) (p c : Nat) (v : Dma) : (s.setDma p c v).slots = s.slots := rfl
@[simp] theorem setDma_engines (s : State) (p c : Nat) (v : Dma) : (s.setDma p c v).engines = s.engines := rfl
@[simp] theorem setDma_freezeLines (s : State) (p c : Nat) (v : Dma) : (s.setDma p c v).freezeLines = s.freezeLines := rfl
@[simp] theorem setDma_threads (s : State) (p c : Nat) (v : Dma) : (s.setDma p c v).threads = s.threads := rfl
@[simp] theorem setDma_cores (s : State) (p c : Nat) (v : Dma) : (s.setDma p c v).cores = s.cores := rfl
@[simp] theorem setDma_panels (s : State) (p c : Nat) (v : Dma) : (s.setDma p c v).panels = s.panels := rfl
@[simp] theorem setDma_counters (s : State) (p c : Nat) (v : Dma) : (s.setDma p c v).counters = s.counters := rfl
@[simp] theorem setDma_dmas (s : State) (p c : Nat) (v : Dma) :
    (s.setDma p c v).dmas = Store.write {} s.dmas (p * 32 + c) v := rfl
@[simp] theorem setDma_timers (s : State) (p c : Nat) (v : Dma) : (s.setDma p c v).timers = s.timers := rfl
@[simp] theorem setDma_stencils (s : State) (p c : Nat) (v : Dma) : (s.setDma p c v).stencils = s.stencils := rfl
@[simp] theorem setDma_pads (s : State) (p c : Nat) (v : Dma) : (s.setDma p c v).pads = s.pads := rfl
@[simp] theorem setDma_intents (s : State) (p c : Nat) (v : Dma) : (s.setDma p c v).intents = s.intents := rfl
@[simp] theorem setDma_budgets (s : State) (p c : Nat) (v : Dma) : (s.setDma p c v).budgets = s.budgets := rfl
@[simp] theorem setDma_ports (s : State) (p c : Nat) (v : Dma) : (s.setDma p c v).ports = s.ports := rfl
@[simp] theorem setDma_journals (s : State) (p c : Nat) (v : Dma) : (s.setDma p c v).journals = s.journals := rfl
@[simp] theorem setDma_handovers (s : State) (p c : Nat) (v : Dma) : (s.setDma p c v).handovers = s.handovers := rfl
@[simp] theorem setDma_slotA (s : State) (p c : Nat) (v : Dma) : (s.setDma p c v).slotA = s.slotA := rfl
@[simp] theorem setDma_slotB (s : State) (p c : Nat) (v : Dma) : (s.setDma p c v).slotB = s.slotB := rfl
@[simp] theorem setDma_commit (s : State) (p c : Nat) (v : Dma) : (s.setDma p c v).commit = s.commit := rfl
@[simp] theorem setDma_supply (s : State) (p c : Nat) (v : Dma) : (s.setDma p c v).supply = s.supply := rfl
@[simp] theorem setDma_fuses (s : State) (p c : Nat) (v : Dma) : (s.setDma p c v).fuses = s.fuses := rfl
@[simp] theorem setDma_image (s : State) (p c : Nat) (v : Dma) : (s.setDma p c v).image = s.image := rfl
@[simp] theorem setDma_challenge (s : State) (p c : Nat) (v : Dma) : (s.setDma p c v).challenge = s.challenge := rfl
@[simp] theorem setDma_tamperBusy (s : State) (p c : Nat) (v : Dma) : (s.setDma p c v).tamperBusy = s.tamperBusy := rfl
@[simp] theorem setDma_jtag (s : State) (p c : Nat) (v : Dma) : (s.setDma p c v).jtag = s.jtag := rfl
@[simp] theorem setDma_resetPinLow (s : State) (p c : Nat) (v : Dma) : (s.setDma p c v).resetPinLow = s.resetPinLow := rfl
@[simp] theorem setDma_free (s : State) (p c : Nat) (v : Dma) : (s.setDma p c v).free = s.free := rfl
@[simp] theorem setDma_upset (s : State) (p c : Nat) (v : Dma) : (s.setDma p c v).upset = s.upset := rfl
@[simp] theorem setDma_pending (s : State) (p c : Nat) (v : Dma) : (s.setDma p c v).pending = s.pending := rfl

/-! ### `State.setTimer` -/

@[simp] theorem setTimer_variant (s : State) (p n : Nat) (v : Timer) : (s.setTimer p n v).variant = s.variant := rfl
@[simp] theorem setTimer_boot (s : State) (p n : Nat) (v : Timer) : (s.setTimer p n v).boot = s.boot := rfl
@[simp] theorem setTimer_restored (s : State) (p n : Nat) (v : Timer) : (s.setTimer p n v).restored = s.restored := rfl
@[simp] theorem setTimer_burn (s : State) (p n : Nat) (v : Timer) : (s.setTimer p n v).burn = s.burn := rfl
@[simp] theorem setTimer_ticks (s : State) (p n : Nat) (v : Timer) : (s.setTimer p n v).ticks = s.ticks := rfl
@[simp] theorem setTimer_canvas (s : State) (p n : Nat) (v : Timer) : (s.setTimer p n v).canvas = s.canvas := rfl
@[simp] theorem setTimer_canvasNext (s : State) (p n : Nat) (v : Timer) : (s.setTimer p n v).canvasNext = s.canvasNext := rfl
@[simp] theorem setTimer_anchors (s : State) (p n : Nat) (v : Timer) : (s.setTimer p n v).anchors = s.anchors := rfl
@[simp] theorem setTimer_regs (s : State) (p n : Nat) (v : Timer) : (s.setTimer p n v).regs = s.regs := rfl
@[simp] theorem setTimer_shown (s : State) (p n : Nat) (v : Timer) : (s.setTimer p n v).shown = s.shown := rfl
@[simp] theorem setTimer_setNow (s : State) (p n : Nat) (v : Timer) : (s.setTimer p n v).setNow = s.setNow := rfl
@[simp] theorem setTimer_rwcNow (s : State) (p n : Nat) (v : Timer) : (s.setTimer p n v).rwcNow = s.rwcNow := rfl
@[simp] theorem setTimer_outputs (s : State) (p n : Nat) (v : Timer) : (s.setTimer p n v).outputs = s.outputs := rfl
@[simp] theorem setTimer_bankWrites (s : State) (p n : Nat) (v : Timer) : (s.setTimer p n v).bankWrites = s.bankWrites := rfl
@[simp] theorem setTimer_dues (s : State) (p n : Nat) (v : Timer) : (s.setTimer p n v).dues = s.dues := rfl
@[simp] theorem setTimer_mem (s : State) (p n : Nat) (v : Timer) : (s.setTimer p n v).mem = s.mem := rfl
@[simp] theorem setTimer_badWords (s : State) (p n : Nat) (v : Timer) : (s.setTimer p n v).badWords = s.badWords := rfl
@[simp] theorem setTimer_poisoned (s : State) (p n : Nat) (v : Timer) : (s.setTimer p n v).poisoned = s.poisoned := rfl
@[simp] theorem setTimer_flips (s : State) (p n : Nat) (v : Timer) : (s.setTimer p n v).flips = s.flips := rfl
@[simp] theorem setTimer_seq (s : State) (p n : Nat) (v : Timer) : (s.setTimer p n v).seq = s.seq := rfl
@[simp] theorem setTimer_flight (s : State) (p n : Nat) (v : Timer) : (s.setTimer p n v).flight = s.flight := rfl
@[simp] theorem setTimer_twq (s : State) (p n : Nat) (v : Timer) : (s.setTimer p n v).twq = s.twq := rfl
@[simp] theorem setTimer_waiting (s : State) (p n : Nat) (v : Timer) : (s.setTimer p n v).waiting = s.waiting := rfl
@[simp] theorem setTimer_events (s : State) (p n : Nat) (v : Timer) : (s.setTimer p n v).events = s.events := rfl
@[simp] theorem setTimer_evArrived (s : State) (p n : Nat) (v : Timer) : (s.setTimer p n v).evArrived = s.evArrived := rfl
@[simp] theorem setTimer_evPend (s : State) (p n : Nat) (v : Timer) : (s.setTimer p n v).evPend = s.evPend := rfl
@[simp] theorem setTimer_evServ (s : State) (p n : Nat) (v : Timer) : (s.setTimer p n v).evServ = s.evServ := rfl
@[simp] theorem setTimer_alarms (s : State) (p n : Nat) (v : Timer) : (s.setTimer p n v).alarms = s.alarms := rfl
@[simp] theorem setTimer_syncRun (s : State) (p n : Nat) (v : Timer) : (s.setTimer p n v).syncRun = s.syncRun := rfl
@[simp] theorem setTimer_syncBad (s : State) (p n : Nat) (v : Timer) : (s.setTimer p n v).syncBad = s.syncBad := rfl
@[simp] theorem setTimer_lastAdj (s : State) (p n : Nat) (v : Timer) : (s.setTimer p n v).lastAdj = s.lastAdj := rfl
@[simp] theorem setTimer_adjGoal (s : State) (p n : Nat) (v : Timer) : (s.setTimer p n v).adjGoal = s.adjGoal := rfl
@[simp] theorem setTimer_syncOut (s : State) (p n : Nat) (v : Timer) : (s.setTimer p n v).syncOut = s.syncOut := rfl
@[simp] theorem setTimer_evtLow (s : State) (p n : Nat) (v : Timer) : (s.setTimer p n v).evtLow = s.evtLow := rfl
@[simp] theorem setTimer_convs (s : State) (p n : Nat) (v : Timer) : (s.setTimer p n v).convs = s.convs := rfl
@[simp] theorem setTimer_seen (s : State) (p n : Nat) (v : Timer) : (s.setTimer p n v).seen = s.seen := rfl
@[simp] theorem setTimer_monitors (s : State) (p n : Nat) (v : Timer) : (s.setTimer p n v).monitors = s.monitors := rfl
@[simp] theorem setTimer_cmps (s : State) (p n : Nat) (v : Timer) : (s.setTimer p n v).cmps = s.cmps := rfl
@[simp] theorem setTimer_sweeps (s : State) (p n : Nat) (v : Timer) : (s.setTimer p n v).sweeps = s.sweeps := rfl
@[simp] theorem setTimer_pairs (s : State) (p n : Nat) (v : Timer) : (s.setTimer p n v).pairs = s.pairs := rfl
@[simp] theorem setTimer_trips (s : State) (p n : Nat) (v : Timer) : (s.setTimer p n v).trips = s.trips := rfl
@[simp] theorem setTimer_slots (s : State) (p n : Nat) (v : Timer) : (s.setTimer p n v).slots = s.slots := rfl
@[simp] theorem setTimer_engines (s : State) (p n : Nat) (v : Timer) : (s.setTimer p n v).engines = s.engines := rfl
@[simp] theorem setTimer_freezeLines (s : State) (p n : Nat) (v : Timer) : (s.setTimer p n v).freezeLines = s.freezeLines := rfl
@[simp] theorem setTimer_threads (s : State) (p n : Nat) (v : Timer) : (s.setTimer p n v).threads = s.threads := rfl
@[simp] theorem setTimer_cores (s : State) (p n : Nat) (v : Timer) : (s.setTimer p n v).cores = s.cores := rfl
@[simp] theorem setTimer_panels (s : State) (p n : Nat) (v : Timer) : (s.setTimer p n v).panels = s.panels := rfl
@[simp] theorem setTimer_counters (s : State) (p n : Nat) (v : Timer) : (s.setTimer p n v).counters = s.counters := rfl
@[simp] theorem setTimer_dmas (s : State) (p n : Nat) (v : Timer) : (s.setTimer p n v).dmas = s.dmas := rfl
@[simp] theorem setTimer_timers (s : State) (p n : Nat) (v : Timer) :
    (s.setTimer p n v).timers = Store.write {} s.timers (p * 16 + n) v := rfl
@[simp] theorem setTimer_stencils (s : State) (p n : Nat) (v : Timer) : (s.setTimer p n v).stencils = s.stencils := rfl
@[simp] theorem setTimer_pads (s : State) (p n : Nat) (v : Timer) : (s.setTimer p n v).pads = s.pads := rfl
@[simp] theorem setTimer_intents (s : State) (p n : Nat) (v : Timer) : (s.setTimer p n v).intents = s.intents := rfl
@[simp] theorem setTimer_budgets (s : State) (p n : Nat) (v : Timer) : (s.setTimer p n v).budgets = s.budgets := rfl
@[simp] theorem setTimer_ports (s : State) (p n : Nat) (v : Timer) : (s.setTimer p n v).ports = s.ports := rfl
@[simp] theorem setTimer_journals (s : State) (p n : Nat) (v : Timer) : (s.setTimer p n v).journals = s.journals := rfl
@[simp] theorem setTimer_handovers (s : State) (p n : Nat) (v : Timer) : (s.setTimer p n v).handovers = s.handovers := rfl
@[simp] theorem setTimer_slotA (s : State) (p n : Nat) (v : Timer) : (s.setTimer p n v).slotA = s.slotA := rfl
@[simp] theorem setTimer_slotB (s : State) (p n : Nat) (v : Timer) : (s.setTimer p n v).slotB = s.slotB := rfl
@[simp] theorem setTimer_commit (s : State) (p n : Nat) (v : Timer) : (s.setTimer p n v).commit = s.commit := rfl
@[simp] theorem setTimer_supply (s : State) (p n : Nat) (v : Timer) : (s.setTimer p n v).supply = s.supply := rfl
@[simp] theorem setTimer_fuses (s : State) (p n : Nat) (v : Timer) : (s.setTimer p n v).fuses = s.fuses := rfl
@[simp] theorem setTimer_image (s : State) (p n : Nat) (v : Timer) : (s.setTimer p n v).image = s.image := rfl
@[simp] theorem setTimer_challenge (s : State) (p n : Nat) (v : Timer) : (s.setTimer p n v).challenge = s.challenge := rfl
@[simp] theorem setTimer_tamperBusy (s : State) (p n : Nat) (v : Timer) : (s.setTimer p n v).tamperBusy = s.tamperBusy := rfl
@[simp] theorem setTimer_jtag (s : State) (p n : Nat) (v : Timer) : (s.setTimer p n v).jtag = s.jtag := rfl
@[simp] theorem setTimer_resetPinLow (s : State) (p n : Nat) (v : Timer) : (s.setTimer p n v).resetPinLow = s.resetPinLow := rfl
@[simp] theorem setTimer_free (s : State) (p n : Nat) (v : Timer) : (s.setTimer p n v).free = s.free := rfl
@[simp] theorem setTimer_upset (s : State) (p n : Nat) (v : Timer) : (s.setTimer p n v).upset = s.upset := rfl
@[simp] theorem setTimer_pending (s : State) (p n : Nat) (v : Timer) : (s.setTimer p n v).pending = s.pending := rfl

/-! ### `State.setStencil` -/

@[simp] theorem setStencil_variant (s : State) (sec e : Nat) (v : Stencil) : (s.setStencil sec e v).variant = s.variant := rfl
@[simp] theorem setStencil_boot (s : State) (sec e : Nat) (v : Stencil) : (s.setStencil sec e v).boot = s.boot := rfl
@[simp] theorem setStencil_restored (s : State) (sec e : Nat) (v : Stencil) : (s.setStencil sec e v).restored = s.restored := rfl
@[simp] theorem setStencil_burn (s : State) (sec e : Nat) (v : Stencil) : (s.setStencil sec e v).burn = s.burn := rfl
@[simp] theorem setStencil_ticks (s : State) (sec e : Nat) (v : Stencil) : (s.setStencil sec e v).ticks = s.ticks := rfl
@[simp] theorem setStencil_canvas (s : State) (sec e : Nat) (v : Stencil) : (s.setStencil sec e v).canvas = s.canvas := rfl
@[simp] theorem setStencil_canvasNext (s : State) (sec e : Nat) (v : Stencil) : (s.setStencil sec e v).canvasNext = s.canvasNext := rfl
@[simp] theorem setStencil_anchors (s : State) (sec e : Nat) (v : Stencil) : (s.setStencil sec e v).anchors = s.anchors := rfl
@[simp] theorem setStencil_regs (s : State) (sec e : Nat) (v : Stencil) : (s.setStencil sec e v).regs = s.regs := rfl
@[simp] theorem setStencil_shown (s : State) (sec e : Nat) (v : Stencil) : (s.setStencil sec e v).shown = s.shown := rfl
@[simp] theorem setStencil_setNow (s : State) (sec e : Nat) (v : Stencil) : (s.setStencil sec e v).setNow = s.setNow := rfl
@[simp] theorem setStencil_rwcNow (s : State) (sec e : Nat) (v : Stencil) : (s.setStencil sec e v).rwcNow = s.rwcNow := rfl
@[simp] theorem setStencil_outputs (s : State) (sec e : Nat) (v : Stencil) : (s.setStencil sec e v).outputs = s.outputs := rfl
@[simp] theorem setStencil_bankWrites (s : State) (sec e : Nat) (v : Stencil) : (s.setStencil sec e v).bankWrites = s.bankWrites := rfl
@[simp] theorem setStencil_dues (s : State) (sec e : Nat) (v : Stencil) : (s.setStencil sec e v).dues = s.dues := rfl
@[simp] theorem setStencil_mem (s : State) (sec e : Nat) (v : Stencil) : (s.setStencil sec e v).mem = s.mem := rfl
@[simp] theorem setStencil_badWords (s : State) (sec e : Nat) (v : Stencil) : (s.setStencil sec e v).badWords = s.badWords := rfl
@[simp] theorem setStencil_poisoned (s : State) (sec e : Nat) (v : Stencil) : (s.setStencil sec e v).poisoned = s.poisoned := rfl
@[simp] theorem setStencil_flips (s : State) (sec e : Nat) (v : Stencil) : (s.setStencil sec e v).flips = s.flips := rfl
@[simp] theorem setStencil_seq (s : State) (sec e : Nat) (v : Stencil) : (s.setStencil sec e v).seq = s.seq := rfl
@[simp] theorem setStencil_flight (s : State) (sec e : Nat) (v : Stencil) : (s.setStencil sec e v).flight = s.flight := rfl
@[simp] theorem setStencil_twq (s : State) (sec e : Nat) (v : Stencil) : (s.setStencil sec e v).twq = s.twq := rfl
@[simp] theorem setStencil_waiting (s : State) (sec e : Nat) (v : Stencil) : (s.setStencil sec e v).waiting = s.waiting := rfl
@[simp] theorem setStencil_events (s : State) (sec e : Nat) (v : Stencil) : (s.setStencil sec e v).events = s.events := rfl
@[simp] theorem setStencil_evArrived (s : State) (sec e : Nat) (v : Stencil) : (s.setStencil sec e v).evArrived = s.evArrived := rfl
@[simp] theorem setStencil_evPend (s : State) (sec e : Nat) (v : Stencil) : (s.setStencil sec e v).evPend = s.evPend := rfl
@[simp] theorem setStencil_evServ (s : State) (sec e : Nat) (v : Stencil) : (s.setStencil sec e v).evServ = s.evServ := rfl
@[simp] theorem setStencil_alarms (s : State) (sec e : Nat) (v : Stencil) : (s.setStencil sec e v).alarms = s.alarms := rfl
@[simp] theorem setStencil_syncRun (s : State) (sec e : Nat) (v : Stencil) : (s.setStencil sec e v).syncRun = s.syncRun := rfl
@[simp] theorem setStencil_syncBad (s : State) (sec e : Nat) (v : Stencil) : (s.setStencil sec e v).syncBad = s.syncBad := rfl
@[simp] theorem setStencil_lastAdj (s : State) (sec e : Nat) (v : Stencil) : (s.setStencil sec e v).lastAdj = s.lastAdj := rfl
@[simp] theorem setStencil_adjGoal (s : State) (sec e : Nat) (v : Stencil) : (s.setStencil sec e v).adjGoal = s.adjGoal := rfl
@[simp] theorem setStencil_syncOut (s : State) (sec e : Nat) (v : Stencil) : (s.setStencil sec e v).syncOut = s.syncOut := rfl
@[simp] theorem setStencil_evtLow (s : State) (sec e : Nat) (v : Stencil) : (s.setStencil sec e v).evtLow = s.evtLow := rfl
@[simp] theorem setStencil_convs (s : State) (sec e : Nat) (v : Stencil) : (s.setStencil sec e v).convs = s.convs := rfl
@[simp] theorem setStencil_seen (s : State) (sec e : Nat) (v : Stencil) : (s.setStencil sec e v).seen = s.seen := rfl
@[simp] theorem setStencil_monitors (s : State) (sec e : Nat) (v : Stencil) : (s.setStencil sec e v).monitors = s.monitors := rfl
@[simp] theorem setStencil_cmps (s : State) (sec e : Nat) (v : Stencil) : (s.setStencil sec e v).cmps = s.cmps := rfl
@[simp] theorem setStencil_sweeps (s : State) (sec e : Nat) (v : Stencil) : (s.setStencil sec e v).sweeps = s.sweeps := rfl
@[simp] theorem setStencil_pairs (s : State) (sec e : Nat) (v : Stencil) : (s.setStencil sec e v).pairs = s.pairs := rfl
@[simp] theorem setStencil_trips (s : State) (sec e : Nat) (v : Stencil) : (s.setStencil sec e v).trips = s.trips := rfl
@[simp] theorem setStencil_slots (s : State) (sec e : Nat) (v : Stencil) : (s.setStencil sec e v).slots = s.slots := rfl
@[simp] theorem setStencil_engines (s : State) (sec e : Nat) (v : Stencil) : (s.setStencil sec e v).engines = s.engines := rfl
@[simp] theorem setStencil_freezeLines (s : State) (sec e : Nat) (v : Stencil) : (s.setStencil sec e v).freezeLines = s.freezeLines := rfl
@[simp] theorem setStencil_threads (s : State) (sec e : Nat) (v : Stencil) : (s.setStencil sec e v).threads = s.threads := rfl
@[simp] theorem setStencil_cores (s : State) (sec e : Nat) (v : Stencil) : (s.setStencil sec e v).cores = s.cores := rfl
@[simp] theorem setStencil_panels (s : State) (sec e : Nat) (v : Stencil) : (s.setStencil sec e v).panels = s.panels := rfl
@[simp] theorem setStencil_counters (s : State) (sec e : Nat) (v : Stencil) : (s.setStencil sec e v).counters = s.counters := rfl
@[simp] theorem setStencil_dmas (s : State) (sec e : Nat) (v : Stencil) : (s.setStencil sec e v).dmas = s.dmas := rfl
@[simp] theorem setStencil_timers (s : State) (sec e : Nat) (v : Stencil) : (s.setStencil sec e v).timers = s.timers := rfl
@[simp] theorem setStencil_stencils (s : State) (sec e : Nat) (v : Stencil) :
    (s.setStencil sec e v).stencils = Store.write {} s.stencils (sec * 8 + e) v := rfl
@[simp] theorem setStencil_pads (s : State) (sec e : Nat) (v : Stencil) : (s.setStencil sec e v).pads = s.pads := rfl
@[simp] theorem setStencil_intents (s : State) (sec e : Nat) (v : Stencil) : (s.setStencil sec e v).intents = s.intents := rfl
@[simp] theorem setStencil_budgets (s : State) (sec e : Nat) (v : Stencil) : (s.setStencil sec e v).budgets = s.budgets := rfl
@[simp] theorem setStencil_ports (s : State) (sec e : Nat) (v : Stencil) : (s.setStencil sec e v).ports = s.ports := rfl
@[simp] theorem setStencil_journals (s : State) (sec e : Nat) (v : Stencil) : (s.setStencil sec e v).journals = s.journals := rfl
@[simp] theorem setStencil_handovers (s : State) (sec e : Nat) (v : Stencil) : (s.setStencil sec e v).handovers = s.handovers := rfl
@[simp] theorem setStencil_slotA (s : State) (sec e : Nat) (v : Stencil) : (s.setStencil sec e v).slotA = s.slotA := rfl
@[simp] theorem setStencil_slotB (s : State) (sec e : Nat) (v : Stencil) : (s.setStencil sec e v).slotB = s.slotB := rfl
@[simp] theorem setStencil_commit (s : State) (sec e : Nat) (v : Stencil) : (s.setStencil sec e v).commit = s.commit := rfl
@[simp] theorem setStencil_supply (s : State) (sec e : Nat) (v : Stencil) : (s.setStencil sec e v).supply = s.supply := rfl
@[simp] theorem setStencil_fuses (s : State) (sec e : Nat) (v : Stencil) : (s.setStencil sec e v).fuses = s.fuses := rfl
@[simp] theorem setStencil_image (s : State) (sec e : Nat) (v : Stencil) : (s.setStencil sec e v).image = s.image := rfl
@[simp] theorem setStencil_challenge (s : State) (sec e : Nat) (v : Stencil) : (s.setStencil sec e v).challenge = s.challenge := rfl
@[simp] theorem setStencil_tamperBusy (s : State) (sec e : Nat) (v : Stencil) : (s.setStencil sec e v).tamperBusy = s.tamperBusy := rfl
@[simp] theorem setStencil_jtag (s : State) (sec e : Nat) (v : Stencil) : (s.setStencil sec e v).jtag = s.jtag := rfl
@[simp] theorem setStencil_resetPinLow (s : State) (sec e : Nat) (v : Stencil) : (s.setStencil sec e v).resetPinLow = s.resetPinLow := rfl
@[simp] theorem setStencil_free (s : State) (sec e : Nat) (v : Stencil) : (s.setStencil sec e v).free = s.free := rfl
@[simp] theorem setStencil_upset (s : State) (sec e : Nat) (v : Stencil) : (s.setStencil sec e v).upset = s.upset := rfl
@[simp] theorem setStencil_pending (s : State) (sec e : Nat) (v : Stencil) : (s.setStencil sec e v).pending = s.pending := rfl

/-! ### `State.setIntent` -/

@[simp] theorem setIntent_variant (s : State) (p : Nat) (v : Intent) : (s.setIntent p v).variant = s.variant := rfl
@[simp] theorem setIntent_boot (s : State) (p : Nat) (v : Intent) : (s.setIntent p v).boot = s.boot := rfl
@[simp] theorem setIntent_restored (s : State) (p : Nat) (v : Intent) : (s.setIntent p v).restored = s.restored := rfl
@[simp] theorem setIntent_burn (s : State) (p : Nat) (v : Intent) : (s.setIntent p v).burn = s.burn := rfl
@[simp] theorem setIntent_ticks (s : State) (p : Nat) (v : Intent) : (s.setIntent p v).ticks = s.ticks := rfl
@[simp] theorem setIntent_canvas (s : State) (p : Nat) (v : Intent) : (s.setIntent p v).canvas = s.canvas := rfl
@[simp] theorem setIntent_canvasNext (s : State) (p : Nat) (v : Intent) : (s.setIntent p v).canvasNext = s.canvasNext := rfl
@[simp] theorem setIntent_anchors (s : State) (p : Nat) (v : Intent) : (s.setIntent p v).anchors = s.anchors := rfl
@[simp] theorem setIntent_regs (s : State) (p : Nat) (v : Intent) : (s.setIntent p v).regs = s.regs := rfl
@[simp] theorem setIntent_shown (s : State) (p : Nat) (v : Intent) : (s.setIntent p v).shown = s.shown := rfl
@[simp] theorem setIntent_setNow (s : State) (p : Nat) (v : Intent) : (s.setIntent p v).setNow = s.setNow := rfl
@[simp] theorem setIntent_rwcNow (s : State) (p : Nat) (v : Intent) : (s.setIntent p v).rwcNow = s.rwcNow := rfl
@[simp] theorem setIntent_outputs (s : State) (p : Nat) (v : Intent) : (s.setIntent p v).outputs = s.outputs := rfl
@[simp] theorem setIntent_bankWrites (s : State) (p : Nat) (v : Intent) : (s.setIntent p v).bankWrites = s.bankWrites := rfl
@[simp] theorem setIntent_dues (s : State) (p : Nat) (v : Intent) : (s.setIntent p v).dues = s.dues := rfl
@[simp] theorem setIntent_mem (s : State) (p : Nat) (v : Intent) : (s.setIntent p v).mem = s.mem := rfl
@[simp] theorem setIntent_badWords (s : State) (p : Nat) (v : Intent) : (s.setIntent p v).badWords = s.badWords := rfl
@[simp] theorem setIntent_poisoned (s : State) (p : Nat) (v : Intent) : (s.setIntent p v).poisoned = s.poisoned := rfl
@[simp] theorem setIntent_flips (s : State) (p : Nat) (v : Intent) : (s.setIntent p v).flips = s.flips := rfl
@[simp] theorem setIntent_seq (s : State) (p : Nat) (v : Intent) : (s.setIntent p v).seq = s.seq := rfl
@[simp] theorem setIntent_flight (s : State) (p : Nat) (v : Intent) : (s.setIntent p v).flight = s.flight := rfl
@[simp] theorem setIntent_twq (s : State) (p : Nat) (v : Intent) : (s.setIntent p v).twq = s.twq := rfl
@[simp] theorem setIntent_waiting (s : State) (p : Nat) (v : Intent) : (s.setIntent p v).waiting = s.waiting := rfl
@[simp] theorem setIntent_events (s : State) (p : Nat) (v : Intent) : (s.setIntent p v).events = s.events := rfl
@[simp] theorem setIntent_evArrived (s : State) (p : Nat) (v : Intent) : (s.setIntent p v).evArrived = s.evArrived := rfl
@[simp] theorem setIntent_evPend (s : State) (p : Nat) (v : Intent) : (s.setIntent p v).evPend = s.evPend := rfl
@[simp] theorem setIntent_evServ (s : State) (p : Nat) (v : Intent) : (s.setIntent p v).evServ = s.evServ := rfl
@[simp] theorem setIntent_alarms (s : State) (p : Nat) (v : Intent) : (s.setIntent p v).alarms = s.alarms := rfl
@[simp] theorem setIntent_syncRun (s : State) (p : Nat) (v : Intent) : (s.setIntent p v).syncRun = s.syncRun := rfl
@[simp] theorem setIntent_syncBad (s : State) (p : Nat) (v : Intent) : (s.setIntent p v).syncBad = s.syncBad := rfl
@[simp] theorem setIntent_lastAdj (s : State) (p : Nat) (v : Intent) : (s.setIntent p v).lastAdj = s.lastAdj := rfl
@[simp] theorem setIntent_adjGoal (s : State) (p : Nat) (v : Intent) : (s.setIntent p v).adjGoal = s.adjGoal := rfl
@[simp] theorem setIntent_syncOut (s : State) (p : Nat) (v : Intent) : (s.setIntent p v).syncOut = s.syncOut := rfl
@[simp] theorem setIntent_evtLow (s : State) (p : Nat) (v : Intent) : (s.setIntent p v).evtLow = s.evtLow := rfl
@[simp] theorem setIntent_convs (s : State) (p : Nat) (v : Intent) : (s.setIntent p v).convs = s.convs := rfl
@[simp] theorem setIntent_seen (s : State) (p : Nat) (v : Intent) : (s.setIntent p v).seen = s.seen := rfl
@[simp] theorem setIntent_monitors (s : State) (p : Nat) (v : Intent) : (s.setIntent p v).monitors = s.monitors := rfl
@[simp] theorem setIntent_cmps (s : State) (p : Nat) (v : Intent) : (s.setIntent p v).cmps = s.cmps := rfl
@[simp] theorem setIntent_sweeps (s : State) (p : Nat) (v : Intent) : (s.setIntent p v).sweeps = s.sweeps := rfl
@[simp] theorem setIntent_pairs (s : State) (p : Nat) (v : Intent) : (s.setIntent p v).pairs = s.pairs := rfl
@[simp] theorem setIntent_trips (s : State) (p : Nat) (v : Intent) : (s.setIntent p v).trips = s.trips := rfl
@[simp] theorem setIntent_slots (s : State) (p : Nat) (v : Intent) : (s.setIntent p v).slots = s.slots := rfl
@[simp] theorem setIntent_engines (s : State) (p : Nat) (v : Intent) : (s.setIntent p v).engines = s.engines := rfl
@[simp] theorem setIntent_freezeLines (s : State) (p : Nat) (v : Intent) : (s.setIntent p v).freezeLines = s.freezeLines := rfl
@[simp] theorem setIntent_threads (s : State) (p : Nat) (v : Intent) : (s.setIntent p v).threads = s.threads := rfl
@[simp] theorem setIntent_cores (s : State) (p : Nat) (v : Intent) : (s.setIntent p v).cores = s.cores := rfl
@[simp] theorem setIntent_panels (s : State) (p : Nat) (v : Intent) : (s.setIntent p v).panels = s.panels := rfl
@[simp] theorem setIntent_counters (s : State) (p : Nat) (v : Intent) : (s.setIntent p v).counters = s.counters := rfl
@[simp] theorem setIntent_dmas (s : State) (p : Nat) (v : Intent) : (s.setIntent p v).dmas = s.dmas := rfl
@[simp] theorem setIntent_timers (s : State) (p : Nat) (v : Intent) : (s.setIntent p v).timers = s.timers := rfl
@[simp] theorem setIntent_stencils (s : State) (p : Nat) (v : Intent) : (s.setIntent p v).stencils = s.stencils := rfl
@[simp] theorem setIntent_pads (s : State) (p : Nat) (v : Intent) : (s.setIntent p v).pads = s.pads := rfl
@[simp] theorem setIntent_intents (s : State) (p : Nat) (v : Intent) :
    (s.setIntent p v).intents = Store.write {} s.intents p v := rfl
@[simp] theorem setIntent_budgets (s : State) (p : Nat) (v : Intent) : (s.setIntent p v).budgets = s.budgets := rfl
@[simp] theorem setIntent_ports (s : State) (p : Nat) (v : Intent) : (s.setIntent p v).ports = s.ports := rfl
@[simp] theorem setIntent_journals (s : State) (p : Nat) (v : Intent) : (s.setIntent p v).journals = s.journals := rfl
@[simp] theorem setIntent_handovers (s : State) (p : Nat) (v : Intent) : (s.setIntent p v).handovers = s.handovers := rfl
@[simp] theorem setIntent_slotA (s : State) (p : Nat) (v : Intent) : (s.setIntent p v).slotA = s.slotA := rfl
@[simp] theorem setIntent_slotB (s : State) (p : Nat) (v : Intent) : (s.setIntent p v).slotB = s.slotB := rfl
@[simp] theorem setIntent_commit (s : State) (p : Nat) (v : Intent) : (s.setIntent p v).commit = s.commit := rfl
@[simp] theorem setIntent_supply (s : State) (p : Nat) (v : Intent) : (s.setIntent p v).supply = s.supply := rfl
@[simp] theorem setIntent_fuses (s : State) (p : Nat) (v : Intent) : (s.setIntent p v).fuses = s.fuses := rfl
@[simp] theorem setIntent_image (s : State) (p : Nat) (v : Intent) : (s.setIntent p v).image = s.image := rfl
@[simp] theorem setIntent_challenge (s : State) (p : Nat) (v : Intent) : (s.setIntent p v).challenge = s.challenge := rfl
@[simp] theorem setIntent_tamperBusy (s : State) (p : Nat) (v : Intent) : (s.setIntent p v).tamperBusy = s.tamperBusy := rfl
@[simp] theorem setIntent_jtag (s : State) (p : Nat) (v : Intent) : (s.setIntent p v).jtag = s.jtag := rfl
@[simp] theorem setIntent_resetPinLow (s : State) (p : Nat) (v : Intent) : (s.setIntent p v).resetPinLow = s.resetPinLow := rfl
@[simp] theorem setIntent_free (s : State) (p : Nat) (v : Intent) : (s.setIntent p v).free = s.free := rfl
@[simp] theorem setIntent_upset (s : State) (p : Nat) (v : Intent) : (s.setIntent p v).upset = s.upset := rfl
@[simp] theorem setIntent_pending (s : State) (p : Nat) (v : Intent) : (s.setIntent p v).pending = s.pending := rfl

/-! ### `State.setBudget` -/

@[simp] theorem setBudget_variant (s : State) (p i : Nat) (v : Budget) : (s.setBudget p i v).variant = s.variant := rfl
@[simp] theorem setBudget_boot (s : State) (p i : Nat) (v : Budget) : (s.setBudget p i v).boot = s.boot := rfl
@[simp] theorem setBudget_restored (s : State) (p i : Nat) (v : Budget) : (s.setBudget p i v).restored = s.restored := rfl
@[simp] theorem setBudget_burn (s : State) (p i : Nat) (v : Budget) : (s.setBudget p i v).burn = s.burn := rfl
@[simp] theorem setBudget_ticks (s : State) (p i : Nat) (v : Budget) : (s.setBudget p i v).ticks = s.ticks := rfl
@[simp] theorem setBudget_canvas (s : State) (p i : Nat) (v : Budget) : (s.setBudget p i v).canvas = s.canvas := rfl
@[simp] theorem setBudget_canvasNext (s : State) (p i : Nat) (v : Budget) : (s.setBudget p i v).canvasNext = s.canvasNext := rfl
@[simp] theorem setBudget_anchors (s : State) (p i : Nat) (v : Budget) : (s.setBudget p i v).anchors = s.anchors := rfl
@[simp] theorem setBudget_regs (s : State) (p i : Nat) (v : Budget) : (s.setBudget p i v).regs = s.regs := rfl
@[simp] theorem setBudget_shown (s : State) (p i : Nat) (v : Budget) : (s.setBudget p i v).shown = s.shown := rfl
@[simp] theorem setBudget_setNow (s : State) (p i : Nat) (v : Budget) : (s.setBudget p i v).setNow = s.setNow := rfl
@[simp] theorem setBudget_rwcNow (s : State) (p i : Nat) (v : Budget) : (s.setBudget p i v).rwcNow = s.rwcNow := rfl
@[simp] theorem setBudget_outputs (s : State) (p i : Nat) (v : Budget) : (s.setBudget p i v).outputs = s.outputs := rfl
@[simp] theorem setBudget_bankWrites (s : State) (p i : Nat) (v : Budget) : (s.setBudget p i v).bankWrites = s.bankWrites := rfl
@[simp] theorem setBudget_dues (s : State) (p i : Nat) (v : Budget) : (s.setBudget p i v).dues = s.dues := rfl
@[simp] theorem setBudget_mem (s : State) (p i : Nat) (v : Budget) : (s.setBudget p i v).mem = s.mem := rfl
@[simp] theorem setBudget_badWords (s : State) (p i : Nat) (v : Budget) : (s.setBudget p i v).badWords = s.badWords := rfl
@[simp] theorem setBudget_poisoned (s : State) (p i : Nat) (v : Budget) : (s.setBudget p i v).poisoned = s.poisoned := rfl
@[simp] theorem setBudget_flips (s : State) (p i : Nat) (v : Budget) : (s.setBudget p i v).flips = s.flips := rfl
@[simp] theorem setBudget_seq (s : State) (p i : Nat) (v : Budget) : (s.setBudget p i v).seq = s.seq := rfl
@[simp] theorem setBudget_flight (s : State) (p i : Nat) (v : Budget) : (s.setBudget p i v).flight = s.flight := rfl
@[simp] theorem setBudget_twq (s : State) (p i : Nat) (v : Budget) : (s.setBudget p i v).twq = s.twq := rfl
@[simp] theorem setBudget_waiting (s : State) (p i : Nat) (v : Budget) : (s.setBudget p i v).waiting = s.waiting := rfl
@[simp] theorem setBudget_events (s : State) (p i : Nat) (v : Budget) : (s.setBudget p i v).events = s.events := rfl
@[simp] theorem setBudget_evArrived (s : State) (p i : Nat) (v : Budget) : (s.setBudget p i v).evArrived = s.evArrived := rfl
@[simp] theorem setBudget_evPend (s : State) (p i : Nat) (v : Budget) : (s.setBudget p i v).evPend = s.evPend := rfl
@[simp] theorem setBudget_evServ (s : State) (p i : Nat) (v : Budget) : (s.setBudget p i v).evServ = s.evServ := rfl
@[simp] theorem setBudget_alarms (s : State) (p i : Nat) (v : Budget) : (s.setBudget p i v).alarms = s.alarms := rfl
@[simp] theorem setBudget_syncRun (s : State) (p i : Nat) (v : Budget) : (s.setBudget p i v).syncRun = s.syncRun := rfl
@[simp] theorem setBudget_syncBad (s : State) (p i : Nat) (v : Budget) : (s.setBudget p i v).syncBad = s.syncBad := rfl
@[simp] theorem setBudget_lastAdj (s : State) (p i : Nat) (v : Budget) : (s.setBudget p i v).lastAdj = s.lastAdj := rfl
@[simp] theorem setBudget_adjGoal (s : State) (p i : Nat) (v : Budget) : (s.setBudget p i v).adjGoal = s.adjGoal := rfl
@[simp] theorem setBudget_syncOut (s : State) (p i : Nat) (v : Budget) : (s.setBudget p i v).syncOut = s.syncOut := rfl
@[simp] theorem setBudget_evtLow (s : State) (p i : Nat) (v : Budget) : (s.setBudget p i v).evtLow = s.evtLow := rfl
@[simp] theorem setBudget_convs (s : State) (p i : Nat) (v : Budget) : (s.setBudget p i v).convs = s.convs := rfl
@[simp] theorem setBudget_seen (s : State) (p i : Nat) (v : Budget) : (s.setBudget p i v).seen = s.seen := rfl
@[simp] theorem setBudget_monitors (s : State) (p i : Nat) (v : Budget) : (s.setBudget p i v).monitors = s.monitors := rfl
@[simp] theorem setBudget_cmps (s : State) (p i : Nat) (v : Budget) : (s.setBudget p i v).cmps = s.cmps := rfl
@[simp] theorem setBudget_sweeps (s : State) (p i : Nat) (v : Budget) : (s.setBudget p i v).sweeps = s.sweeps := rfl
@[simp] theorem setBudget_pairs (s : State) (p i : Nat) (v : Budget) : (s.setBudget p i v).pairs = s.pairs := rfl
@[simp] theorem setBudget_trips (s : State) (p i : Nat) (v : Budget) : (s.setBudget p i v).trips = s.trips := rfl
@[simp] theorem setBudget_slots (s : State) (p i : Nat) (v : Budget) : (s.setBudget p i v).slots = s.slots := rfl
@[simp] theorem setBudget_engines (s : State) (p i : Nat) (v : Budget) : (s.setBudget p i v).engines = s.engines := rfl
@[simp] theorem setBudget_freezeLines (s : State) (p i : Nat) (v : Budget) : (s.setBudget p i v).freezeLines = s.freezeLines := rfl
@[simp] theorem setBudget_threads (s : State) (p i : Nat) (v : Budget) : (s.setBudget p i v).threads = s.threads := rfl
@[simp] theorem setBudget_cores (s : State) (p i : Nat) (v : Budget) : (s.setBudget p i v).cores = s.cores := rfl
@[simp] theorem setBudget_panels (s : State) (p i : Nat) (v : Budget) : (s.setBudget p i v).panels = s.panels := rfl
@[simp] theorem setBudget_counters (s : State) (p i : Nat) (v : Budget) : (s.setBudget p i v).counters = s.counters := rfl
@[simp] theorem setBudget_dmas (s : State) (p i : Nat) (v : Budget) : (s.setBudget p i v).dmas = s.dmas := rfl
@[simp] theorem setBudget_timers (s : State) (p i : Nat) (v : Budget) : (s.setBudget p i v).timers = s.timers := rfl
@[simp] theorem setBudget_stencils (s : State) (p i : Nat) (v : Budget) : (s.setBudget p i v).stencils = s.stencils := rfl
@[simp] theorem setBudget_pads (s : State) (p i : Nat) (v : Budget) : (s.setBudget p i v).pads = s.pads := rfl
@[simp] theorem setBudget_intents (s : State) (p i : Nat) (v : Budget) : (s.setBudget p i v).intents = s.intents := rfl
@[simp] theorem setBudget_budgets (s : State) (p i : Nat) (v : Budget) :
    (s.setBudget p i v).budgets = Store.write {} s.budgets (p * 64 + i) v := rfl
@[simp] theorem setBudget_ports (s : State) (p i : Nat) (v : Budget) : (s.setBudget p i v).ports = s.ports := rfl
@[simp] theorem setBudget_journals (s : State) (p i : Nat) (v : Budget) : (s.setBudget p i v).journals = s.journals := rfl
@[simp] theorem setBudget_handovers (s : State) (p i : Nat) (v : Budget) : (s.setBudget p i v).handovers = s.handovers := rfl
@[simp] theorem setBudget_slotA (s : State) (p i : Nat) (v : Budget) : (s.setBudget p i v).slotA = s.slotA := rfl
@[simp] theorem setBudget_slotB (s : State) (p i : Nat) (v : Budget) : (s.setBudget p i v).slotB = s.slotB := rfl
@[simp] theorem setBudget_commit (s : State) (p i : Nat) (v : Budget) : (s.setBudget p i v).commit = s.commit := rfl
@[simp] theorem setBudget_supply (s : State) (p i : Nat) (v : Budget) : (s.setBudget p i v).supply = s.supply := rfl
@[simp] theorem setBudget_fuses (s : State) (p i : Nat) (v : Budget) : (s.setBudget p i v).fuses = s.fuses := rfl
@[simp] theorem setBudget_image (s : State) (p i : Nat) (v : Budget) : (s.setBudget p i v).image = s.image := rfl
@[simp] theorem setBudget_challenge (s : State) (p i : Nat) (v : Budget) : (s.setBudget p i v).challenge = s.challenge := rfl
@[simp] theorem setBudget_tamperBusy (s : State) (p i : Nat) (v : Budget) : (s.setBudget p i v).tamperBusy = s.tamperBusy := rfl
@[simp] theorem setBudget_jtag (s : State) (p i : Nat) (v : Budget) : (s.setBudget p i v).jtag = s.jtag := rfl
@[simp] theorem setBudget_resetPinLow (s : State) (p i : Nat) (v : Budget) : (s.setBudget p i v).resetPinLow = s.resetPinLow := rfl
@[simp] theorem setBudget_free (s : State) (p i : Nat) (v : Budget) : (s.setBudget p i v).free = s.free := rfl
@[simp] theorem setBudget_upset (s : State) (p i : Nat) (v : Budget) : (s.setBudget p i v).upset = s.upset := rfl
@[simp] theorem setBudget_pending (s : State) (p i : Nat) (v : Budget) : (s.setBudget p i v).pending = s.pending := rfl

/-! ### `State.setPort` -/

@[simp] theorem setPort_variant (s : State) (p n : Nat) (v : EthPort) : (s.setPort p n v).variant = s.variant := rfl
@[simp] theorem setPort_boot (s : State) (p n : Nat) (v : EthPort) : (s.setPort p n v).boot = s.boot := rfl
@[simp] theorem setPort_restored (s : State) (p n : Nat) (v : EthPort) : (s.setPort p n v).restored = s.restored := rfl
@[simp] theorem setPort_burn (s : State) (p n : Nat) (v : EthPort) : (s.setPort p n v).burn = s.burn := rfl
@[simp] theorem setPort_ticks (s : State) (p n : Nat) (v : EthPort) : (s.setPort p n v).ticks = s.ticks := rfl
@[simp] theorem setPort_canvas (s : State) (p n : Nat) (v : EthPort) : (s.setPort p n v).canvas = s.canvas := rfl
@[simp] theorem setPort_canvasNext (s : State) (p n : Nat) (v : EthPort) : (s.setPort p n v).canvasNext = s.canvasNext := rfl
@[simp] theorem setPort_anchors (s : State) (p n : Nat) (v : EthPort) : (s.setPort p n v).anchors = s.anchors := rfl
@[simp] theorem setPort_regs (s : State) (p n : Nat) (v : EthPort) : (s.setPort p n v).regs = s.regs := rfl
@[simp] theorem setPort_shown (s : State) (p n : Nat) (v : EthPort) : (s.setPort p n v).shown = s.shown := rfl
@[simp] theorem setPort_setNow (s : State) (p n : Nat) (v : EthPort) : (s.setPort p n v).setNow = s.setNow := rfl
@[simp] theorem setPort_rwcNow (s : State) (p n : Nat) (v : EthPort) : (s.setPort p n v).rwcNow = s.rwcNow := rfl
@[simp] theorem setPort_outputs (s : State) (p n : Nat) (v : EthPort) : (s.setPort p n v).outputs = s.outputs := rfl
@[simp] theorem setPort_bankWrites (s : State) (p n : Nat) (v : EthPort) : (s.setPort p n v).bankWrites = s.bankWrites := rfl
@[simp] theorem setPort_dues (s : State) (p n : Nat) (v : EthPort) : (s.setPort p n v).dues = s.dues := rfl
@[simp] theorem setPort_mem (s : State) (p n : Nat) (v : EthPort) : (s.setPort p n v).mem = s.mem := rfl
@[simp] theorem setPort_badWords (s : State) (p n : Nat) (v : EthPort) : (s.setPort p n v).badWords = s.badWords := rfl
@[simp] theorem setPort_poisoned (s : State) (p n : Nat) (v : EthPort) : (s.setPort p n v).poisoned = s.poisoned := rfl
@[simp] theorem setPort_flips (s : State) (p n : Nat) (v : EthPort) : (s.setPort p n v).flips = s.flips := rfl
@[simp] theorem setPort_seq (s : State) (p n : Nat) (v : EthPort) : (s.setPort p n v).seq = s.seq := rfl
@[simp] theorem setPort_flight (s : State) (p n : Nat) (v : EthPort) : (s.setPort p n v).flight = s.flight := rfl
@[simp] theorem setPort_twq (s : State) (p n : Nat) (v : EthPort) : (s.setPort p n v).twq = s.twq := rfl
@[simp] theorem setPort_waiting (s : State) (p n : Nat) (v : EthPort) : (s.setPort p n v).waiting = s.waiting := rfl
@[simp] theorem setPort_events (s : State) (p n : Nat) (v : EthPort) : (s.setPort p n v).events = s.events := rfl
@[simp] theorem setPort_evArrived (s : State) (p n : Nat) (v : EthPort) : (s.setPort p n v).evArrived = s.evArrived := rfl
@[simp] theorem setPort_evPend (s : State) (p n : Nat) (v : EthPort) : (s.setPort p n v).evPend = s.evPend := rfl
@[simp] theorem setPort_evServ (s : State) (p n : Nat) (v : EthPort) : (s.setPort p n v).evServ = s.evServ := rfl
@[simp] theorem setPort_alarms (s : State) (p n : Nat) (v : EthPort) : (s.setPort p n v).alarms = s.alarms := rfl
@[simp] theorem setPort_syncRun (s : State) (p n : Nat) (v : EthPort) : (s.setPort p n v).syncRun = s.syncRun := rfl
@[simp] theorem setPort_syncBad (s : State) (p n : Nat) (v : EthPort) : (s.setPort p n v).syncBad = s.syncBad := rfl
@[simp] theorem setPort_lastAdj (s : State) (p n : Nat) (v : EthPort) : (s.setPort p n v).lastAdj = s.lastAdj := rfl
@[simp] theorem setPort_adjGoal (s : State) (p n : Nat) (v : EthPort) : (s.setPort p n v).adjGoal = s.adjGoal := rfl
@[simp] theorem setPort_syncOut (s : State) (p n : Nat) (v : EthPort) : (s.setPort p n v).syncOut = s.syncOut := rfl
@[simp] theorem setPort_evtLow (s : State) (p n : Nat) (v : EthPort) : (s.setPort p n v).evtLow = s.evtLow := rfl
@[simp] theorem setPort_convs (s : State) (p n : Nat) (v : EthPort) : (s.setPort p n v).convs = s.convs := rfl
@[simp] theorem setPort_seen (s : State) (p n : Nat) (v : EthPort) : (s.setPort p n v).seen = s.seen := rfl
@[simp] theorem setPort_monitors (s : State) (p n : Nat) (v : EthPort) : (s.setPort p n v).monitors = s.monitors := rfl
@[simp] theorem setPort_cmps (s : State) (p n : Nat) (v : EthPort) : (s.setPort p n v).cmps = s.cmps := rfl
@[simp] theorem setPort_sweeps (s : State) (p n : Nat) (v : EthPort) : (s.setPort p n v).sweeps = s.sweeps := rfl
@[simp] theorem setPort_pairs (s : State) (p n : Nat) (v : EthPort) : (s.setPort p n v).pairs = s.pairs := rfl
@[simp] theorem setPort_trips (s : State) (p n : Nat) (v : EthPort) : (s.setPort p n v).trips = s.trips := rfl
@[simp] theorem setPort_slots (s : State) (p n : Nat) (v : EthPort) : (s.setPort p n v).slots = s.slots := rfl
@[simp] theorem setPort_engines (s : State) (p n : Nat) (v : EthPort) : (s.setPort p n v).engines = s.engines := rfl
@[simp] theorem setPort_freezeLines (s : State) (p n : Nat) (v : EthPort) : (s.setPort p n v).freezeLines = s.freezeLines := rfl
@[simp] theorem setPort_threads (s : State) (p n : Nat) (v : EthPort) : (s.setPort p n v).threads = s.threads := rfl
@[simp] theorem setPort_cores (s : State) (p n : Nat) (v : EthPort) : (s.setPort p n v).cores = s.cores := rfl
@[simp] theorem setPort_panels (s : State) (p n : Nat) (v : EthPort) : (s.setPort p n v).panels = s.panels := rfl
@[simp] theorem setPort_counters (s : State) (p n : Nat) (v : EthPort) : (s.setPort p n v).counters = s.counters := rfl
@[simp] theorem setPort_dmas (s : State) (p n : Nat) (v : EthPort) : (s.setPort p n v).dmas = s.dmas := rfl
@[simp] theorem setPort_timers (s : State) (p n : Nat) (v : EthPort) : (s.setPort p n v).timers = s.timers := rfl
@[simp] theorem setPort_stencils (s : State) (p n : Nat) (v : EthPort) : (s.setPort p n v).stencils = s.stencils := rfl
@[simp] theorem setPort_pads (s : State) (p n : Nat) (v : EthPort) : (s.setPort p n v).pads = s.pads := rfl
@[simp] theorem setPort_intents (s : State) (p n : Nat) (v : EthPort) : (s.setPort p n v).intents = s.intents := rfl
@[simp] theorem setPort_budgets (s : State) (p n : Nat) (v : EthPort) : (s.setPort p n v).budgets = s.budgets := rfl
@[simp] theorem setPort_ports (s : State) (p n : Nat) (v : EthPort) :
    (s.setPort p n v).ports = Store.write {} s.ports (p * 2 + n) v := rfl
@[simp] theorem setPort_journals (s : State) (p n : Nat) (v : EthPort) : (s.setPort p n v).journals = s.journals := rfl
@[simp] theorem setPort_handovers (s : State) (p n : Nat) (v : EthPort) : (s.setPort p n v).handovers = s.handovers := rfl
@[simp] theorem setPort_slotA (s : State) (p n : Nat) (v : EthPort) : (s.setPort p n v).slotA = s.slotA := rfl
@[simp] theorem setPort_slotB (s : State) (p n : Nat) (v : EthPort) : (s.setPort p n v).slotB = s.slotB := rfl
@[simp] theorem setPort_commit (s : State) (p n : Nat) (v : EthPort) : (s.setPort p n v).commit = s.commit := rfl
@[simp] theorem setPort_supply (s : State) (p n : Nat) (v : EthPort) : (s.setPort p n v).supply = s.supply := rfl
@[simp] theorem setPort_fuses (s : State) (p n : Nat) (v : EthPort) : (s.setPort p n v).fuses = s.fuses := rfl
@[simp] theorem setPort_image (s : State) (p n : Nat) (v : EthPort) : (s.setPort p n v).image = s.image := rfl
@[simp] theorem setPort_challenge (s : State) (p n : Nat) (v : EthPort) : (s.setPort p n v).challenge = s.challenge := rfl
@[simp] theorem setPort_tamperBusy (s : State) (p n : Nat) (v : EthPort) : (s.setPort p n v).tamperBusy = s.tamperBusy := rfl
@[simp] theorem setPort_jtag (s : State) (p n : Nat) (v : EthPort) : (s.setPort p n v).jtag = s.jtag := rfl
@[simp] theorem setPort_resetPinLow (s : State) (p n : Nat) (v : EthPort) : (s.setPort p n v).resetPinLow = s.resetPinLow := rfl
@[simp] theorem setPort_free (s : State) (p n : Nat) (v : EthPort) : (s.setPort p n v).free = s.free := rfl
@[simp] theorem setPort_upset (s : State) (p n : Nat) (v : EthPort) : (s.setPort p n v).upset = s.upset := rfl
@[simp] theorem setPort_pending (s : State) (p n : Nat) (v : EthPort) : (s.setPort p n v).pending = s.pending := rfl

/-! ### `State.setJournal` -/

@[simp] theorem setJournal_variant (s : State) (p : Nat) (v : Journal) : (s.setJournal p v).variant = s.variant := rfl
@[simp] theorem setJournal_boot (s : State) (p : Nat) (v : Journal) : (s.setJournal p v).boot = s.boot := rfl
@[simp] theorem setJournal_restored (s : State) (p : Nat) (v : Journal) : (s.setJournal p v).restored = s.restored := rfl
@[simp] theorem setJournal_burn (s : State) (p : Nat) (v : Journal) : (s.setJournal p v).burn = s.burn := rfl
@[simp] theorem setJournal_ticks (s : State) (p : Nat) (v : Journal) : (s.setJournal p v).ticks = s.ticks := rfl
@[simp] theorem setJournal_canvas (s : State) (p : Nat) (v : Journal) : (s.setJournal p v).canvas = s.canvas := rfl
@[simp] theorem setJournal_canvasNext (s : State) (p : Nat) (v : Journal) : (s.setJournal p v).canvasNext = s.canvasNext := rfl
@[simp] theorem setJournal_anchors (s : State) (p : Nat) (v : Journal) : (s.setJournal p v).anchors = s.anchors := rfl
@[simp] theorem setJournal_regs (s : State) (p : Nat) (v : Journal) : (s.setJournal p v).regs = s.regs := rfl
@[simp] theorem setJournal_shown (s : State) (p : Nat) (v : Journal) : (s.setJournal p v).shown = s.shown := rfl
@[simp] theorem setJournal_setNow (s : State) (p : Nat) (v : Journal) : (s.setJournal p v).setNow = s.setNow := rfl
@[simp] theorem setJournal_rwcNow (s : State) (p : Nat) (v : Journal) : (s.setJournal p v).rwcNow = s.rwcNow := rfl
@[simp] theorem setJournal_outputs (s : State) (p : Nat) (v : Journal) : (s.setJournal p v).outputs = s.outputs := rfl
@[simp] theorem setJournal_bankWrites (s : State) (p : Nat) (v : Journal) : (s.setJournal p v).bankWrites = s.bankWrites := rfl
@[simp] theorem setJournal_dues (s : State) (p : Nat) (v : Journal) : (s.setJournal p v).dues = s.dues := rfl
@[simp] theorem setJournal_mem (s : State) (p : Nat) (v : Journal) : (s.setJournal p v).mem = s.mem := rfl
@[simp] theorem setJournal_badWords (s : State) (p : Nat) (v : Journal) : (s.setJournal p v).badWords = s.badWords := rfl
@[simp] theorem setJournal_poisoned (s : State) (p : Nat) (v : Journal) : (s.setJournal p v).poisoned = s.poisoned := rfl
@[simp] theorem setJournal_flips (s : State) (p : Nat) (v : Journal) : (s.setJournal p v).flips = s.flips := rfl
@[simp] theorem setJournal_seq (s : State) (p : Nat) (v : Journal) : (s.setJournal p v).seq = s.seq := rfl
@[simp] theorem setJournal_flight (s : State) (p : Nat) (v : Journal) : (s.setJournal p v).flight = s.flight := rfl
@[simp] theorem setJournal_twq (s : State) (p : Nat) (v : Journal) : (s.setJournal p v).twq = s.twq := rfl
@[simp] theorem setJournal_waiting (s : State) (p : Nat) (v : Journal) : (s.setJournal p v).waiting = s.waiting := rfl
@[simp] theorem setJournal_events (s : State) (p : Nat) (v : Journal) : (s.setJournal p v).events = s.events := rfl
@[simp] theorem setJournal_evArrived (s : State) (p : Nat) (v : Journal) : (s.setJournal p v).evArrived = s.evArrived := rfl
@[simp] theorem setJournal_evPend (s : State) (p : Nat) (v : Journal) : (s.setJournal p v).evPend = s.evPend := rfl
@[simp] theorem setJournal_evServ (s : State) (p : Nat) (v : Journal) : (s.setJournal p v).evServ = s.evServ := rfl
@[simp] theorem setJournal_alarms (s : State) (p : Nat) (v : Journal) : (s.setJournal p v).alarms = s.alarms := rfl
@[simp] theorem setJournal_syncRun (s : State) (p : Nat) (v : Journal) : (s.setJournal p v).syncRun = s.syncRun := rfl
@[simp] theorem setJournal_syncBad (s : State) (p : Nat) (v : Journal) : (s.setJournal p v).syncBad = s.syncBad := rfl
@[simp] theorem setJournal_lastAdj (s : State) (p : Nat) (v : Journal) : (s.setJournal p v).lastAdj = s.lastAdj := rfl
@[simp] theorem setJournal_adjGoal (s : State) (p : Nat) (v : Journal) : (s.setJournal p v).adjGoal = s.adjGoal := rfl
@[simp] theorem setJournal_syncOut (s : State) (p : Nat) (v : Journal) : (s.setJournal p v).syncOut = s.syncOut := rfl
@[simp] theorem setJournal_evtLow (s : State) (p : Nat) (v : Journal) : (s.setJournal p v).evtLow = s.evtLow := rfl
@[simp] theorem setJournal_convs (s : State) (p : Nat) (v : Journal) : (s.setJournal p v).convs = s.convs := rfl
@[simp] theorem setJournal_seen (s : State) (p : Nat) (v : Journal) : (s.setJournal p v).seen = s.seen := rfl
@[simp] theorem setJournal_monitors (s : State) (p : Nat) (v : Journal) : (s.setJournal p v).monitors = s.monitors := rfl
@[simp] theorem setJournal_cmps (s : State) (p : Nat) (v : Journal) : (s.setJournal p v).cmps = s.cmps := rfl
@[simp] theorem setJournal_sweeps (s : State) (p : Nat) (v : Journal) : (s.setJournal p v).sweeps = s.sweeps := rfl
@[simp] theorem setJournal_pairs (s : State) (p : Nat) (v : Journal) : (s.setJournal p v).pairs = s.pairs := rfl
@[simp] theorem setJournal_trips (s : State) (p : Nat) (v : Journal) : (s.setJournal p v).trips = s.trips := rfl
@[simp] theorem setJournal_slots (s : State) (p : Nat) (v : Journal) : (s.setJournal p v).slots = s.slots := rfl
@[simp] theorem setJournal_engines (s : State) (p : Nat) (v : Journal) : (s.setJournal p v).engines = s.engines := rfl
@[simp] theorem setJournal_freezeLines (s : State) (p : Nat) (v : Journal) : (s.setJournal p v).freezeLines = s.freezeLines := rfl
@[simp] theorem setJournal_threads (s : State) (p : Nat) (v : Journal) : (s.setJournal p v).threads = s.threads := rfl
@[simp] theorem setJournal_cores (s : State) (p : Nat) (v : Journal) : (s.setJournal p v).cores = s.cores := rfl
@[simp] theorem setJournal_panels (s : State) (p : Nat) (v : Journal) : (s.setJournal p v).panels = s.panels := rfl
@[simp] theorem setJournal_counters (s : State) (p : Nat) (v : Journal) : (s.setJournal p v).counters = s.counters := rfl
@[simp] theorem setJournal_dmas (s : State) (p : Nat) (v : Journal) : (s.setJournal p v).dmas = s.dmas := rfl
@[simp] theorem setJournal_timers (s : State) (p : Nat) (v : Journal) : (s.setJournal p v).timers = s.timers := rfl
@[simp] theorem setJournal_stencils (s : State) (p : Nat) (v : Journal) : (s.setJournal p v).stencils = s.stencils := rfl
@[simp] theorem setJournal_pads (s : State) (p : Nat) (v : Journal) : (s.setJournal p v).pads = s.pads := rfl
@[simp] theorem setJournal_intents (s : State) (p : Nat) (v : Journal) : (s.setJournal p v).intents = s.intents := rfl
@[simp] theorem setJournal_budgets (s : State) (p : Nat) (v : Journal) : (s.setJournal p v).budgets = s.budgets := rfl
@[simp] theorem setJournal_ports (s : State) (p : Nat) (v : Journal) : (s.setJournal p v).ports = s.ports := rfl
@[simp] theorem setJournal_journals (s : State) (p : Nat) (v : Journal) :
    (s.setJournal p v).journals = Store.write {} s.journals p v := rfl
@[simp] theorem setJournal_handovers (s : State) (p : Nat) (v : Journal) : (s.setJournal p v).handovers = s.handovers := rfl
@[simp] theorem setJournal_slotA (s : State) (p : Nat) (v : Journal) : (s.setJournal p v).slotA = s.slotA := rfl
@[simp] theorem setJournal_slotB (s : State) (p : Nat) (v : Journal) : (s.setJournal p v).slotB = s.slotB := rfl
@[simp] theorem setJournal_commit (s : State) (p : Nat) (v : Journal) : (s.setJournal p v).commit = s.commit := rfl
@[simp] theorem setJournal_supply (s : State) (p : Nat) (v : Journal) : (s.setJournal p v).supply = s.supply := rfl
@[simp] theorem setJournal_fuses (s : State) (p : Nat) (v : Journal) : (s.setJournal p v).fuses = s.fuses := rfl
@[simp] theorem setJournal_image (s : State) (p : Nat) (v : Journal) : (s.setJournal p v).image = s.image := rfl
@[simp] theorem setJournal_challenge (s : State) (p : Nat) (v : Journal) : (s.setJournal p v).challenge = s.challenge := rfl
@[simp] theorem setJournal_tamperBusy (s : State) (p : Nat) (v : Journal) : (s.setJournal p v).tamperBusy = s.tamperBusy := rfl
@[simp] theorem setJournal_jtag (s : State) (p : Nat) (v : Journal) : (s.setJournal p v).jtag = s.jtag := rfl
@[simp] theorem setJournal_resetPinLow (s : State) (p : Nat) (v : Journal) : (s.setJournal p v).resetPinLow = s.resetPinLow := rfl
@[simp] theorem setJournal_free (s : State) (p : Nat) (v : Journal) : (s.setJournal p v).free = s.free := rfl
@[simp] theorem setJournal_upset (s : State) (p : Nat) (v : Journal) : (s.setJournal p v).upset = s.upset := rfl
@[simp] theorem setJournal_pending (s : State) (p : Nat) (v : Journal) : (s.setJournal p v).pending = s.pending := rfl

/-! ### `State.setHandover` -/

@[simp] theorem setHandover_variant (s : State) (sl : Nat) (v : Handover) : (s.setHandover sl v).variant = s.variant := rfl
@[simp] theorem setHandover_boot (s : State) (sl : Nat) (v : Handover) : (s.setHandover sl v).boot = s.boot := rfl
@[simp] theorem setHandover_restored (s : State) (sl : Nat) (v : Handover) : (s.setHandover sl v).restored = s.restored := rfl
@[simp] theorem setHandover_burn (s : State) (sl : Nat) (v : Handover) : (s.setHandover sl v).burn = s.burn := rfl
@[simp] theorem setHandover_ticks (s : State) (sl : Nat) (v : Handover) : (s.setHandover sl v).ticks = s.ticks := rfl
@[simp] theorem setHandover_canvas (s : State) (sl : Nat) (v : Handover) : (s.setHandover sl v).canvas = s.canvas := rfl
@[simp] theorem setHandover_canvasNext (s : State) (sl : Nat) (v : Handover) : (s.setHandover sl v).canvasNext = s.canvasNext := rfl
@[simp] theorem setHandover_anchors (s : State) (sl : Nat) (v : Handover) : (s.setHandover sl v).anchors = s.anchors := rfl
@[simp] theorem setHandover_regs (s : State) (sl : Nat) (v : Handover) : (s.setHandover sl v).regs = s.regs := rfl
@[simp] theorem setHandover_shown (s : State) (sl : Nat) (v : Handover) : (s.setHandover sl v).shown = s.shown := rfl
@[simp] theorem setHandover_setNow (s : State) (sl : Nat) (v : Handover) : (s.setHandover sl v).setNow = s.setNow := rfl
@[simp] theorem setHandover_rwcNow (s : State) (sl : Nat) (v : Handover) : (s.setHandover sl v).rwcNow = s.rwcNow := rfl
@[simp] theorem setHandover_outputs (s : State) (sl : Nat) (v : Handover) : (s.setHandover sl v).outputs = s.outputs := rfl
@[simp] theorem setHandover_bankWrites (s : State) (sl : Nat) (v : Handover) : (s.setHandover sl v).bankWrites = s.bankWrites := rfl
@[simp] theorem setHandover_dues (s : State) (sl : Nat) (v : Handover) : (s.setHandover sl v).dues = s.dues := rfl
@[simp] theorem setHandover_mem (s : State) (sl : Nat) (v : Handover) : (s.setHandover sl v).mem = s.mem := rfl
@[simp] theorem setHandover_badWords (s : State) (sl : Nat) (v : Handover) : (s.setHandover sl v).badWords = s.badWords := rfl
@[simp] theorem setHandover_poisoned (s : State) (sl : Nat) (v : Handover) : (s.setHandover sl v).poisoned = s.poisoned := rfl
@[simp] theorem setHandover_flips (s : State) (sl : Nat) (v : Handover) : (s.setHandover sl v).flips = s.flips := rfl
@[simp] theorem setHandover_seq (s : State) (sl : Nat) (v : Handover) : (s.setHandover sl v).seq = s.seq := rfl
@[simp] theorem setHandover_flight (s : State) (sl : Nat) (v : Handover) : (s.setHandover sl v).flight = s.flight := rfl
@[simp] theorem setHandover_twq (s : State) (sl : Nat) (v : Handover) : (s.setHandover sl v).twq = s.twq := rfl
@[simp] theorem setHandover_waiting (s : State) (sl : Nat) (v : Handover) : (s.setHandover sl v).waiting = s.waiting := rfl
@[simp] theorem setHandover_events (s : State) (sl : Nat) (v : Handover) : (s.setHandover sl v).events = s.events := rfl
@[simp] theorem setHandover_evArrived (s : State) (sl : Nat) (v : Handover) : (s.setHandover sl v).evArrived = s.evArrived := rfl
@[simp] theorem setHandover_evPend (s : State) (sl : Nat) (v : Handover) : (s.setHandover sl v).evPend = s.evPend := rfl
@[simp] theorem setHandover_evServ (s : State) (sl : Nat) (v : Handover) : (s.setHandover sl v).evServ = s.evServ := rfl
@[simp] theorem setHandover_alarms (s : State) (sl : Nat) (v : Handover) : (s.setHandover sl v).alarms = s.alarms := rfl
@[simp] theorem setHandover_syncRun (s : State) (sl : Nat) (v : Handover) : (s.setHandover sl v).syncRun = s.syncRun := rfl
@[simp] theorem setHandover_syncBad (s : State) (sl : Nat) (v : Handover) : (s.setHandover sl v).syncBad = s.syncBad := rfl
@[simp] theorem setHandover_lastAdj (s : State) (sl : Nat) (v : Handover) : (s.setHandover sl v).lastAdj = s.lastAdj := rfl
@[simp] theorem setHandover_adjGoal (s : State) (sl : Nat) (v : Handover) : (s.setHandover sl v).adjGoal = s.adjGoal := rfl
@[simp] theorem setHandover_syncOut (s : State) (sl : Nat) (v : Handover) : (s.setHandover sl v).syncOut = s.syncOut := rfl
@[simp] theorem setHandover_evtLow (s : State) (sl : Nat) (v : Handover) : (s.setHandover sl v).evtLow = s.evtLow := rfl
@[simp] theorem setHandover_convs (s : State) (sl : Nat) (v : Handover) : (s.setHandover sl v).convs = s.convs := rfl
@[simp] theorem setHandover_seen (s : State) (sl : Nat) (v : Handover) : (s.setHandover sl v).seen = s.seen := rfl
@[simp] theorem setHandover_monitors (s : State) (sl : Nat) (v : Handover) : (s.setHandover sl v).monitors = s.monitors := rfl
@[simp] theorem setHandover_cmps (s : State) (sl : Nat) (v : Handover) : (s.setHandover sl v).cmps = s.cmps := rfl
@[simp] theorem setHandover_sweeps (s : State) (sl : Nat) (v : Handover) : (s.setHandover sl v).sweeps = s.sweeps := rfl
@[simp] theorem setHandover_pairs (s : State) (sl : Nat) (v : Handover) : (s.setHandover sl v).pairs = s.pairs := rfl
@[simp] theorem setHandover_trips (s : State) (sl : Nat) (v : Handover) : (s.setHandover sl v).trips = s.trips := rfl
@[simp] theorem setHandover_slots (s : State) (sl : Nat) (v : Handover) : (s.setHandover sl v).slots = s.slots := rfl
@[simp] theorem setHandover_engines (s : State) (sl : Nat) (v : Handover) : (s.setHandover sl v).engines = s.engines := rfl
@[simp] theorem setHandover_freezeLines (s : State) (sl : Nat) (v : Handover) : (s.setHandover sl v).freezeLines = s.freezeLines := rfl
@[simp] theorem setHandover_threads (s : State) (sl : Nat) (v : Handover) : (s.setHandover sl v).threads = s.threads := rfl
@[simp] theorem setHandover_cores (s : State) (sl : Nat) (v : Handover) : (s.setHandover sl v).cores = s.cores := rfl
@[simp] theorem setHandover_panels (s : State) (sl : Nat) (v : Handover) : (s.setHandover sl v).panels = s.panels := rfl
@[simp] theorem setHandover_counters (s : State) (sl : Nat) (v : Handover) : (s.setHandover sl v).counters = s.counters := rfl
@[simp] theorem setHandover_dmas (s : State) (sl : Nat) (v : Handover) : (s.setHandover sl v).dmas = s.dmas := rfl
@[simp] theorem setHandover_timers (s : State) (sl : Nat) (v : Handover) : (s.setHandover sl v).timers = s.timers := rfl
@[simp] theorem setHandover_stencils (s : State) (sl : Nat) (v : Handover) : (s.setHandover sl v).stencils = s.stencils := rfl
@[simp] theorem setHandover_pads (s : State) (sl : Nat) (v : Handover) : (s.setHandover sl v).pads = s.pads := rfl
@[simp] theorem setHandover_intents (s : State) (sl : Nat) (v : Handover) : (s.setHandover sl v).intents = s.intents := rfl
@[simp] theorem setHandover_budgets (s : State) (sl : Nat) (v : Handover) : (s.setHandover sl v).budgets = s.budgets := rfl
@[simp] theorem setHandover_ports (s : State) (sl : Nat) (v : Handover) : (s.setHandover sl v).ports = s.ports := rfl
@[simp] theorem setHandover_journals (s : State) (sl : Nat) (v : Handover) : (s.setHandover sl v).journals = s.journals := rfl
@[simp] theorem setHandover_handovers (s : State) (sl : Nat) (v : Handover) :
    (s.setHandover sl v).handovers = Store.write {} s.handovers sl v := rfl
@[simp] theorem setHandover_slotA (s : State) (sl : Nat) (v : Handover) : (s.setHandover sl v).slotA = s.slotA := rfl
@[simp] theorem setHandover_slotB (s : State) (sl : Nat) (v : Handover) : (s.setHandover sl v).slotB = s.slotB := rfl
@[simp] theorem setHandover_commit (s : State) (sl : Nat) (v : Handover) : (s.setHandover sl v).commit = s.commit := rfl
@[simp] theorem setHandover_supply (s : State) (sl : Nat) (v : Handover) : (s.setHandover sl v).supply = s.supply := rfl
@[simp] theorem setHandover_fuses (s : State) (sl : Nat) (v : Handover) : (s.setHandover sl v).fuses = s.fuses := rfl
@[simp] theorem setHandover_image (s : State) (sl : Nat) (v : Handover) : (s.setHandover sl v).image = s.image := rfl
@[simp] theorem setHandover_challenge (s : State) (sl : Nat) (v : Handover) : (s.setHandover sl v).challenge = s.challenge := rfl
@[simp] theorem setHandover_tamperBusy (s : State) (sl : Nat) (v : Handover) : (s.setHandover sl v).tamperBusy = s.tamperBusy := rfl
@[simp] theorem setHandover_jtag (s : State) (sl : Nat) (v : Handover) : (s.setHandover sl v).jtag = s.jtag := rfl
@[simp] theorem setHandover_resetPinLow (s : State) (sl : Nat) (v : Handover) : (s.setHandover sl v).resetPinLow = s.resetPinLow := rfl
@[simp] theorem setHandover_free (s : State) (sl : Nat) (v : Handover) : (s.setHandover sl v).free = s.free := rfl
@[simp] theorem setHandover_upset (s : State) (sl : Nat) (v : Handover) : (s.setHandover sl v).upset = s.upset := rfl
@[simp] theorem setHandover_pending (s : State) (sl : Nat) (v : Handover) : (s.setHandover sl v).pending = s.pending := rfl

end Sys2Proof.Laws
end

