-- ==== Sys2Proof/Laws/Ops.lean ====
section
/-! SUPPORT. The laws of sparse stores and of the accessors over them: a read after a write, and that every store
operation keeps the canonical form. -/

namespace Sys2Proof.Laws

open Sys2Proof Sys2Proof.Machine

/-! ### Reads after writes -/

theorem read_place_self {α : Type} (d : α) (m : Store α) (k : Nat) (v : α) (h : ∀ e ∈ m, e.1 ≠ k) :
    Store.read d (Store.place k v m) k = v := by
  induction m with
  | nil => simp [Store.place, Store.read]
  | cons e m ih =>
    have h1 : e.1 ≠ k := h e (by simp)
    have h2 := ih (fun x hx => h x (by simp [hx]))
    simp only [Store.place]
    split <;> simp [Store.read, h1, h2]

theorem read_place_ne {α : Type} (d : α) (m : Store α) (k i : Nat) (v : α) (h : i ≠ k) :
    Store.read d (Store.place k v m) i = Store.read d m i := by
  induction m with
  | nil => simp [Store.place, Store.read, Ne.symm h]
  | cons e m ih =>
    simp only [Store.place]
    split <;> simp [Store.read, Ne.symm h, ih]

theorem read_drop_self {α : Type} (d : α) (m : Store α) (k : Nat) : Store.read d (Store.drop k m) k = d := by
  induction m with
  | nil => rfl
  | cons e m ih =>
    by_cases h : e.1 = k
    · simpa [Store.drop, h] using ih
    · simpa [Store.drop, Store.read, h] using ih

theorem read_drop_ne {α : Type} (d : α) (m : Store α) (k i : Nat) (h : i ≠ k) :
    Store.read d (Store.drop k m) i = Store.read d m i := by
  induction m with
  | nil => rfl
  | cons e m ih =>
    by_cases hk : e.1 = k
    · have : k ≠ i := fun hh => h hh.symm
      simpa [Store.drop, Store.read, hk, this] using ih
    · simp only [Store.drop, List.filter_cons, hk, ne_eq, not_false_eq_true, decide_true, ↓reduceIte, Store.read]
      split
      · rfl
      · exact ih

theorem mem_drop_ne {α : Type} (m : Store α) (k : Nat) : ∀ e ∈ Store.drop k m, e.1 ≠ k := by
  intro e he
  simpa using (List.mem_filter.mp he).2

@[simp] theorem read_write_self {α : Type} [DecidableEq α] (d : α) (m : Store α) (k : Nat) (v : α) :
    Store.read d (Store.write d m k v) k = v := by
  unfold Store.write
  split
  · rename_i h; rw [h, read_drop_self]
  · exact read_place_self d _ k v (mem_drop_ne m k)

theorem read_write_ne {α : Type} [DecidableEq α] (d d' : α) (m : Store α) (k i : Nat) (v : α) (h : i ≠ k) :
    Store.read d (Store.write d' m k v) i = Store.read d m i := by
  unfold Store.write
  split
  · exact read_drop_ne d m k i h
  · rw [read_place_ne d _ k i v h, read_drop_ne d m k i h]

theorem drop_place {α : Type} (m : Store α) (k : Nat) (v : α) :
    Store.drop k (Store.place k v m) = Store.drop k m := by
  induction m with
  | nil => simp [Store.place, Store.drop]
  | cons e m ih =>
    simp only [Store.place]
    split
    · simp [Store.drop]
    · simp only [Store.drop, List.filter_cons] at ih ⊢
      rw [ih]

theorem drop_drop {α : Type} (m : Store α) (k : Nat) : Store.drop k (Store.drop k m) = Store.drop k m := by
  simp [Store.drop]

@[simp] theorem write_write {α : Type} [DecidableEq α] (d d' : α) (m : Store α) (k : Nat) (v w : α) :
    Store.write d (Store.write d' m k v) k w = Store.write d m k w := by
  have h : Store.drop k (Store.write d' m k v) = Store.drop k m := by
    unfold Store.write
    split
    · exact drop_drop m k
    · rw [drop_place, drop_drop]
  show (if w = d then Store.drop k (Store.write d' m k v)
    else Store.place k w (Store.drop k (Store.write d' m k v))) = _
  rw [h]
  rfl

/-! ### The canonical form -/

theorem wf_nil {α : Type} [DecidableEq α] (d : Nat → α) : Store.wf d [] = true := by simp [Store.wf]

theorem wf_filter {α : Type} [DecidableEq α] (d : Nat → α) (m : Store α) (f : Nat × α → Bool)
    (h : Store.wf d m = true) : Store.wf d (m.filter f) = true := by
  simp only [Store.wf, Bool.and_eq_true, decide_eq_true_eq, List.all_eq_true] at h ⊢
  refine ⟨?_, fun e he => h.2 e (List.mem_filter.mp he).1⟩
  exact List.Pairwise.sublist (List.Sublist.map _ (List.filter_sublist)) h.1

theorem wf_drop {α : Type} [DecidableEq α] (d : Nat → α) (m : Store α) (k : Nat)
    (h : Store.wf d m = true) : Store.wf d (Store.drop k m) = true := wf_filter d m _ h

theorem mem_place {α : Type} (m : Store α) (k : Nat) (v : α) (e : Nat × α) (h : e ∈ Store.place k v m) :
    e = (k, v) ∨ e ∈ m := by
  induction m with
  | nil => simp [Store.place] at h; exact .inl h
  | cons x m ih =>
    simp only [Store.place] at h
    split at h
    · simpa using h
    · rcases List.mem_cons.mp h with h | h
      · exact .inr (by simp [h])
      · rcases ih h with h | h
        · exact .inl h
        · exact .inr (by simp [h])

theorem rising_place {α : Type} (m : Store α) (k : Nat) (v : α) (hk : ∀ e ∈ m, e.1 ≠ k)
    (h : (m.map Prod.fst).Pairwise (· < ·)) : ((Store.place k v m).map Prod.fst).Pairwise (· < ·) := by
  induction m with
  | nil => simp [Store.place]
  | cons x m ih =>
    simp only [List.map_cons, List.pairwise_cons] at h
    simp only [Store.place]
    split
    · rename_i hlt
      simp only [List.map_cons, List.pairwise_cons]
      refine ⟨?_, h.1, h.2⟩
      intro a ha
      rcases List.mem_cons.mp ha with ha | ha
      · omega
      · have := h.1 a ha; omega
    · rename_i hge
      have hx : x.1 ≠ k := hk x (by simp)
      simp only [List.map_cons, List.pairwise_cons]
      refine ⟨?_, ih (fun e he => hk e (by simp [he])) h.2⟩
      intro a ha
      obtain ⟨e, he, rfl⟩ := List.mem_map.mp ha
      rcases mem_place m k v e he with rfl | he
      · simp only; omega
      · exact h.1 _ (List.mem_map.mpr ⟨e, he, rfl⟩)

theorem wf_write {α : Type} [DecidableEq α] (d : Nat → α) (m : Store α) (k : Nat) (v : α)
    (h : Store.wf d m = true) : Store.wf d (Store.write (d k) m k v) = true := by
  unfold Store.write
  split
  · exact wf_drop d m k h
  · rename_i hv
    have hd := wf_drop d m k h
    simp only [Store.wf, Bool.and_eq_true, decide_eq_true_eq, List.all_eq_true] at hd ⊢
    refine ⟨rising_place _ k v (mem_drop_ne m k) hd.1, ?_⟩
    intro e he
    rcases mem_place _ k v e he with rfl | he
    · simpa using hv
    · exact hd.2 e he

end Sys2Proof.Laws
end

