-- ==== Sys2Proof/Laws/PerInstr.lean ====
section
/-! SUPPORT. What well-formedness says of each command: one lemma for each constructor. -/

namespace Sys2Proof.Laws

open Sys2Proof

/-- A well-formed command keeps the ranges that its types leave open: branches have no 32-bit displacement (R185), a
measurement has 16 pairs and 16 sampling lines of 7-bit counts (R99, R103), and gesso has eight slices, each with 16 pairs,
16 sampling lines and 16 converters. -/
def WellFormedRange.Statement (i : Instr) : Prop :=
  WellFormed i = true →
    (∀ t d, i = .br t d ∨ i = .bz t d ∨ i = .bnz t d → ∀ v, d ≠ .s32 v)
    ∧ (∀ sec taps lines, i = .stippleCalibration sec taps lines →
        (taps.length = 16 ∧ ∀ x ∈ taps, x.1 < 128 ∧ x.2 < 128) ∧ lines.length = 16 ∧ ∀ x ∈ lines, x < 128)
    ∧ ∀ g a b, i = .primeEnd g a b →
        g.length = 8 ∧ ∀ x ∈ g, x.taps.length = 16 ∧ x.lines.length = 16 ∧ x.trims.length = 16

theorem WellFormedRange.branch_short (d : Disp) (h : d.branch = true) : ∀ v, d ≠ .s32 v := by
  intro v hv
  subst hv
  simp [Disp.branch] at h

theorem WellFormedRange.taps_fit (l : List (Nat × Nat)) (h : tapsFit l = true) :
    l.length = 16 ∧ ∀ x ∈ l, x.1 < 128 ∧ x.2 < 128 := by
  simpa [tapsFit] using h

theorem WellFormedRange.lines_fit (l : List Nat) (h : linesFit l = true) : l.length = 16 ∧ ∀ x ∈ l, x < 128 := by
  simpa [linesFit] using h

theorem WellFormedRange.registerWrite (ag : Agent) (page : Page) (off : Fin 512) (data : Word) : WellFormedRange.Statement (.registerWrite ag page off data) :=
  fun _ => ⟨fun _ _ e => (nomatch e), fun _ _ _ e => (nomatch e), fun _ _ _ e => (nomatch e)⟩

theorem WellFormedRange.eventSet (ag : Agent) (page : Page) (mask : Word) : WellFormedRange.Statement (.eventSet ag page mask) :=
  fun _ => ⟨fun _ _ e => (nomatch e), fun _ _ _ e => (nomatch e), fun _ _ _ e => (nomatch e)⟩

theorem WellFormedRange.lockCfg (ag : Agent) (page : Page) : WellFormedRange.Statement (.lockCfg ag page) :=
  fun _ => ⟨fun _ _ e => (nomatch e), fun _ _ _ e => (nomatch e), fun _ _ _ e => (nomatch e)⟩

theorem WellFormedRange.transferReady (n : Nat) : WellFormedRange.Statement (.transferReady n) :=
  fun _ => ⟨fun _ _ e => (nomatch e), fun _ _ _ e => (nomatch e), fun _ _ _ e => (nomatch e)⟩

theorem WellFormedRange.timedWriteDue (queue : Fin 9) : WellFormedRange.Statement (.timedWriteDue queue) :=
  fun _ => ⟨fun _ _ e => (nomatch e), fun _ _ _ e => (nomatch e), fun _ _ _ e => (nomatch e)⟩

theorem WellFormedRange.updatePointApply (page : Page) : WellFormedRange.Statement (.updatePointApply page) :=
  fun _ => ⟨fun _ _ e => (nomatch e), fun _ _ _ e => (nomatch e), fun _ _ _ e => (nomatch e)⟩

theorem WellFormedRange.twqClr (ag : Agent) (queue : Fin 9) : WellFormedRange.Statement (.twqClr ag queue) :=
  fun _ => ⟨fun _ _ e => (nomatch e), fun _ _ _ e => (nomatch e), fun _ _ _ e => (nomatch e)⟩

theorem WellFormedRange.canvStep (delta : Word) : WellFormedRange.Statement (.canvStep delta) :=
  fun _ => ⟨fun _ _ e => (nomatch e), fun _ _ _ e => (nomatch e), fun _ _ _ e => (nomatch e)⟩

theorem WellFormedRange.canvAlarmFire (i : Fin 4) : WellFormedRange.Statement (.canvAlarmFire i) :=
  fun _ => ⟨fun _ _ e => (nomatch e), fun _ _ _ e => (nomatch e), fun _ _ _ e => (nomatch e)⟩

theorem WellFormedRange.syncFrameReceived (frame : BitVec 128) (sub : Fin 64) : WellFormedRange.Statement (.syncFrameReceived frame sub) :=
  fun _ => ⟨fun _ _ e => (nomatch e), fun _ _ _ e => (nomatch e), fun _ _ _ e => (nomatch e)⟩

theorem WellFormedRange.ptpSyncMessage (p : Slice) (port : Fin 2) (ns : Word) (sub : Fin 64) : WellFormedRange.Statement (.ptpSyncMessage p port ns sub) :=
  fun _ => ⟨fun _ _ e => (nomatch e), fun _ _ _ e => (nomatch e), fun _ _ _ e => (nomatch e)⟩

theorem WellFormedRange.syncSourceLost : WellFormedRange.Statement (.syncSourceLost) :=
  fun _ => ⟨fun _ _ e => (nomatch e), fun _ _ _ e => (nomatch e), fun _ _ _ e => (nomatch e)⟩

theorem WellFormedRange.syncSourceReturn : WellFormedRange.Statement (.syncSourceReturn) :=
  fun _ => ⟨fun _ _ e => (nomatch e), fun _ _ _ e => (nomatch e), fun _ _ _ e => (nomatch e)⟩

theorem WellFormedRange.fadcSample (s : Slice) (c : Fin 16) (nanovolts : Int) : WellFormedRange.Statement (.fadcSample s c nanovolts) :=
  fun _ => ⟨fun _ _ e => (nomatch e), fun _ _ _ e => (nomatch e), fun _ _ _ e => (nomatch e)⟩

theorem WellFormedRange.fadcCalStart (ag : Agent) (s : Slice) (c : Fin 16) : WellFormedRange.Statement (.fadcCalStart ag s c) :=
  fun _ => ⟨fun _ _ e => (nomatch e), fun _ _ _ e => (nomatch e), fun _ _ _ e => (nomatch e)⟩

theorem WellFormedRange.fadcCalDone (s : Slice) (c : Fin 16) (gain : BitVec 16) (offset : BitVec 16) : WellFormedRange.Statement (.fadcCalDone s c gain offset) :=
  fun _ => ⟨fun _ _ e => (nomatch e), fun _ _ _ e => (nomatch e), fun _ _ _ e => (nomatch e)⟩

theorem WellFormedRange.fadcTrigFire (s : Slice) (c : Fin 16) : WellFormedRange.Statement (.fadcTrigFire s c) :=
  fun _ => ⟨fun _ _ e => (nomatch e), fun _ _ _ e => (nomatch e), fun _ _ _ e => (nomatch e)⟩

theorem WellFormedRange.streamPayload (s : Slice) (c : Fin 16) (accepted : Bool) : WellFormedRange.Statement (.streamPayload s c accepted) :=
  fun _ => ⟨fun _ _ e => (nomatch e), fun _ _ _ e => (nomatch e), fun _ _ _ e => (nomatch e)⟩

theorem WellFormedRange.fadcRingDroppedClr (ag : Agent) (s : Slice) (c : Fin 16) : WellFormedRange.Statement (.fadcRingDroppedClr ag s c) :=
  fun _ => ⟨fun _ _ e => (nomatch e), fun _ _ _ e => (nomatch e), fun _ _ _ e => (nomatch e)⟩

theorem WellFormedRange.madcConversionEnd (s : Slice) (nanovolts : Nat) : WellFormedRange.Statement (.madcConversionEnd s nanovolts) :=
  fun _ => ⟨fun _ _ e => (nomatch e), fun _ _ _ e => (nomatch e), fun _ _ _ e => (nomatch e)⟩

theorem WellFormedRange.comparatorCrossing (s : Slice) (c : Fin 32) (nanovolts : Int) (held : Bool) (sub : Fin 64) : WellFormedRange.Statement (.comparatorCrossing s c nanovolts held sub) :=
  fun _ => ⟨fun _ _ e => (nomatch e), fun _ _ _ e => (nomatch e), fun _ _ _ e => (nomatch e)⟩

theorem WellFormedRange.wcmpCheckStart (ag : Agent) (s : Slice) (c : Fin 32) : WellFormedRange.Statement (.wcmpCheckStart ag s c) :=
  fun _ => ⟨fun _ _ e => (nomatch e), fun _ _ _ e => (nomatch e), fun _ _ _ e => (nomatch e)⟩

theorem WellFormedRange.checkStep (s : Slice) (c : Fin 32) (above : Bool) (below : Bool) : WellFormedRange.Statement (.checkStep s c above below) :=
  fun _ => ⟨fun _ _ e => (nomatch e), fun _ _ _ e => (nomatch e), fun _ _ _ e => (nomatch e)⟩

theorem WellFormedRange.checkDone (s : Slice) (c : Fin 32) : WellFormedRange.Statement (.checkDone s c) :=
  fun _ => ⟨fun _ _ e => (nomatch e), fun _ _ _ e => (nomatch e), fun _ _ _ e => (nomatch e)⟩

theorem WellFormedRange.sweepGo (s : Slice) : WellFormedRange.Statement (.sweepGo s) :=
  fun _ => ⟨fun _ _ e => (nomatch e), fun _ _ _ e => (nomatch e), fun _ _ _ e => (nomatch e)⟩

theorem WellFormedRange.sweepStep (s : Slice) : WellFormedRange.Statement (.sweepStep s) :=
  fun _ => ⟨fun _ _ e => (nomatch e), fun _ _ _ e => (nomatch e), fun _ _ _ e => (nomatch e)⟩

theorem WellFormedRange.sweepEnd (s : Slice) : WellFormedRange.Statement (.sweepEnd s) :=
  fun _ => ⟨fun _ _ e => (nomatch e), fun _ _ _ e => (nomatch e), fun _ _ _ e => (nomatch e)⟩

theorem WellFormedRange.sweepStop (ag : Agent) (s : Slice) : WellFormedRange.Statement (.sweepStop ag s) :=
  fun _ => ⟨fun _ _ e => (nomatch e), fun _ _ _ e => (nomatch e), fun _ _ _ e => (nomatch e)⟩

theorem WellFormedRange.pwmStart (s : Slice) (p : Fin 16) : WellFormedRange.Statement (.pwmStart s p) :=
  fun _ => ⟨fun _ _ e => (nomatch e), fun _ _ _ e => (nomatch e), fun _ _ _ e => (nomatch e)⟩

theorem WellFormedRange.pwmStop (s : Slice) (p : Fin 16) : WellFormedRange.Statement (.pwmStop s p) :=
  fun _ => ⟨fun _ _ e => (nomatch e), fun _ _ _ e => (nomatch e), fun _ _ _ e => (nomatch e)⟩

theorem WellFormedRange.pwmpWrap (s : Slice) (p : Fin 16) : WellFormedRange.Statement (.pwmpWrap s p) :=
  fun _ => ⟨fun _ _ e => (nomatch e), fun _ _ _ e => (nomatch e), fun _ _ _ e => (nomatch e)⟩

theorem WellFormedRange.rawEdge (s : Slice) (p : Fin 16) (second : Bool) (rise : Bool) : WellFormedRange.Statement (.rawEdge s p second rise) :=
  fun _ => ⟨fun _ _ e => (nomatch e), fun _ _ _ e => (nomatch e), fun _ _ _ e => (nomatch e)⟩

theorem WellFormedRange.deadTimeExpiry (s : Slice) (p : Fin 16) (out : Out) : WellFormedRange.Statement (.deadTimeExpiry s p out) :=
  fun _ => ⟨fun _ _ e => (nomatch e), fun _ _ _ e => (nomatch e), fun _ _ _ e => (nomatch e)⟩

theorem WellFormedRange.minPulseExpiry (s : Slice) (p : Fin 16) (out : Out) : WellFormedRange.Statement (.minPulseExpiry s p out) :=
  fun _ => ⟨fun _ _ e => (nomatch e), fun _ _ _ e => (nomatch e), fun _ _ _ e => (nomatch e)⟩

theorem WellFormedRange.pwmpClrCounts (ag : Agent) (s : Slice) (p : Fin 16) : WellFormedRange.Statement (.pwmpClrCounts ag s p) :=
  fun _ => ⟨fun _ _ e => (nomatch e), fun _ _ _ e => (nomatch e), fun _ _ _ e => (nomatch e)⟩

theorem WellFormedRange.stippleCalibration (s : Slice) (taps : List (Nat × Nat)) (lines : List Nat) : WellFormedRange.Statement (.stippleCalibration s taps lines) := by
  intro h
  refine ⟨fun _ _ e => (nomatch e), ?_, fun _ _ _ e => (nomatch e)⟩
  intro _ _ _ e
  cases e
  simp only [WellFormed, Bool.and_eq_true] at h
  exact ⟨WellFormedRange.taps_fit _ h.1, WellFormedRange.lines_fit _ h.2⟩

theorem WellFormedRange.tripSourceActive (s : Slice) (src : Fin 76) (sub : Fin 64) : WellFormedRange.Statement (.tripSourceActive s src sub) :=
  fun _ => ⟨fun _ _ e => (nomatch e), fun _ _ _ e => (nomatch e), fun _ _ _ e => (nomatch e)⟩

theorem WellFormedRange.blankingClose (s : Slice) (p : Fin 16) : WellFormedRange.Statement (.blankingClose s p) :=
  fun _ => ⟨fun _ _ e => (nomatch e), fun _ _ _ e => (nomatch e), fun _ _ _ e => (nomatch e)⟩

theorem WellFormedRange.tripClearPair (s : Slice) (p : Fin 16) : WellFormedRange.Statement (.tripClearPair s p) :=
  fun _ => ⟨fun _ _ e => (nomatch e), fun _ _ _ e => (nomatch e), fun _ _ _ e => (nomatch e)⟩

theorem WellFormedRange.clearPendingComplete (s : Slice) (p : Fin 16) : WellFormedRange.Statement (.clearPendingComplete s p) :=
  fun _ => ⟨fun _ _ e => (nomatch e), fun _ _ _ e => (nomatch e), fun _ _ _ e => (nomatch e)⟩

theorem WellFormedRange.voteDisagree (s : Slice) (copy : Fin 3) (latches cbc : BitVec 16) : WellFormedRange.Statement (.voteDisagree s copy latches cbc) :=
  fun _ => ⟨fun _ _ e => (nomatch e), fun _ _ _ e => (nomatch e), fun _ _ _ e => (nomatch e)⟩

theorem WellFormedRange.voteClr (ag : Agent) (s : Slice) : WellFormedRange.Statement (.voteClr ag s) :=
  fun _ => ⟨fun _ _ e => (nomatch e), fun _ _ _ e => (nomatch e), fun _ _ _ e => (nomatch e)⟩

theorem WellFormedRange.countClr (ag : Agent) (s : Slice) : WellFormedRange.Statement (.countClr ag s) :=
  fun _ => ⟨fun _ _ e => (nomatch e), fun _ _ _ e => (nomatch e), fun _ _ _ e => (nomatch e)⟩

theorem WellFormedRange.canvasClockLoss (s : Slice) : WellFormedRange.Statement (.canvasClockLoss s) :=
  fun _ => ⟨fun _ _ e => (nomatch e), fun _ _ _ e => (nomatch e), fun _ _ _ e => (nomatch e)⟩

theorem WellFormedRange.canvasClockReturn (s : Slice) : WellFormedRange.Statement (.canvasClockReturn s) :=
  fun _ => ⟨fun _ _ e => (nomatch e), fun _ _ _ e => (nomatch e), fun _ _ _ e => (nomatch e)⟩

theorem WellFormedRange.loopEvaluation (s : Slice) (n : Fin 16) (upset : Bool) : WellFormedRange.Statement (.loopEvaluation s n upset) :=
  fun _ => ⟨fun _ _ e => (nomatch e), fun _ _ _ e => (nomatch e), fun _ _ _ e => (nomatch e)⟩

theorem WellFormedRange.loopClose (s : Slice) (n : Fin 16) : WellFormedRange.Statement (.loopClose s n) :=
  fun _ => ⟨fun _ _ e => (nomatch e), fun _ _ _ e => (nomatch e), fun _ _ _ e => (nomatch e)⟩

theorem WellFormedRange.loopOpen (s : Slice) (n : Fin 16) : WellFormedRange.Statement (.loopOpen s n) :=
  fun _ => ⟨fun _ _ e => (nomatch e), fun _ _ _ e => (nomatch e), fun _ _ _ e => (nomatch e)⟩

theorem WellFormedRange.loopClrCounts (ag : Agent) (s : Slice) (n : Fin 16) : WellFormedRange.Statement (.loopClrCounts ag s n) :=
  fun _ => ⟨fun _ _ e => (nomatch e), fun _ _ _ e => (nomatch e), fun _ _ _ e => (nomatch e)⟩

theorem WellFormedRange.lengClr (ag : Agent) (s : Slice) (g : Fin 4) : WellFormedRange.Statement (.lengClr ag s g) :=
  fun _ => ⟨fun _ _ e => (nomatch e), fun _ _ _ e => (nomatch e), fun _ _ _ e => (nomatch e)⟩

theorem WellFormedRange.nop (t : Tid) : WellFormedRange.Statement (.nop t) :=
  fun _ => ⟨fun _ _ e => (nomatch e), fun _ _ _ e => (nomatch e), fun _ _ _ e => (nomatch e)⟩

theorem WellFormedRange.dup (t : Tid) : WellFormedRange.Statement (.dup t) :=
  fun _ => ⟨fun _ _ e => (nomatch e), fun _ _ _ e => (nomatch e), fun _ _ _ e => (nomatch e)⟩

theorem WellFormedRange.drop (t : Tid) : WellFormedRange.Statement (.drop t) :=
  fun _ => ⟨fun _ _ e => (nomatch e), fun _ _ _ e => (nomatch e), fun _ _ _ e => (nomatch e)⟩

theorem WellFormedRange.swap (t : Tid) : WellFormedRange.Statement (.swap t) :=
  fun _ => ⟨fun _ _ e => (nomatch e), fun _ _ _ e => (nomatch e), fun _ _ _ e => (nomatch e)⟩

theorem WellFormedRange.over (t : Tid) : WellFormedRange.Statement (.over t) :=
  fun _ => ⟨fun _ _ e => (nomatch e), fun _ _ _ e => (nomatch e), fun _ _ _ e => (nomatch e)⟩

theorem WellFormedRange.rot (t : Tid) : WellFormedRange.Statement (.rot t) :=
  fun _ => ⟨fun _ _ e => (nomatch e), fun _ _ _ e => (nomatch e), fun _ _ _ e => (nomatch e)⟩

theorem WellFormedRange.pick (t : Tid) (n : Byte) : WellFormedRange.Statement (.pick t n) :=
  fun _ => ⟨fun _ _ e => (nomatch e), fun _ _ _ e => (nomatch e), fun _ _ _ e => (nomatch e)⟩

theorem WellFormedRange.roll (t : Tid) (n : Byte) : WellFormedRange.Statement (.roll t n) :=
  fun _ => ⟨fun _ _ e => (nomatch e), fun _ _ _ e => (nomatch e), fun _ _ _ e => (nomatch e)⟩

theorem WellFormedRange.dropn (t : Tid) (n : Byte) : WellFormedRange.Statement (.dropn t n) :=
  fun _ => ⟨fun _ _ e => (nomatch e), fun _ _ _ e => (nomatch e), fun _ _ _ e => (nomatch e)⟩

theorem WellFormedRange.depth (t : Tid) : WellFormedRange.Statement (.depth t) :=
  fun _ => ⟨fun _ _ e => (nomatch e), fun _ _ _ e => (nomatch e), fun _ _ _ e => (nomatch e)⟩

theorem WellFormedRange.litS (t : Tid) (imm : Lit) : WellFormedRange.Statement (.litS t imm) :=
  fun _ => ⟨fun _ _ e => (nomatch e), fun _ _ _ e => (nomatch e), fun _ _ _ e => (nomatch e)⟩

theorem WellFormedRange.litU (t : Tid) (imm : Lit) : WellFormedRange.Statement (.litU t imm) :=
  fun _ => ⟨fun _ _ e => (nomatch e), fun _ _ _ e => (nomatch e), fun _ _ _ e => (nomatch e)⟩

theorem WellFormedRange.litR (t : Tid) (imm : Word) : WellFormedRange.Statement (.litR t imm) :=
  fun _ => ⟨fun _ _ e => (nomatch e), fun _ _ _ e => (nomatch e), fun _ _ _ e => (nomatch e)⟩

theorem WellFormedRange.litF (t : Tid) (imm : Word) : WellFormedRange.Statement (.litF t imm) :=
  fun _ => ⟨fun _ _ e => (nomatch e), fun _ _ _ e => (nomatch e), fun _ _ _ e => (nomatch e)⟩

theorem WellFormedRange.litC (t : Tid) (disp : BitVec 32) : WellFormedRange.Statement (.litC t disp) :=
  fun _ => ⟨fun _ _ e => (nomatch e), fun _ _ _ e => (nomatch e), fun _ _ _ e => (nomatch e)⟩

theorem WellFormedRange.litV (t : Tid) : WellFormedRange.Statement (.litV t) :=
  fun _ => ⟨fun _ _ e => (nomatch e), fun _ _ _ e => (nomatch e), fun _ _ _ e => (nomatch e)⟩

theorem WellFormedRange.add (t : Tid) : WellFormedRange.Statement (.add t) :=
  fun _ => ⟨fun _ _ e => (nomatch e), fun _ _ _ e => (nomatch e), fun _ _ _ e => (nomatch e)⟩

theorem WellFormedRange.sub (t : Tid) : WellFormedRange.Statement (.sub t) :=
  fun _ => ⟨fun _ _ e => (nomatch e), fun _ _ _ e => (nomatch e), fun _ _ _ e => (nomatch e)⟩

theorem WellFormedRange.neg (t : Tid) : WellFormedRange.Statement (.neg t) :=
  fun _ => ⟨fun _ _ e => (nomatch e), fun _ _ _ e => (nomatch e), fun _ _ _ e => (nomatch e)⟩

theorem WellFormedRange.abs (t : Tid) : WellFormedRange.Statement (.abs t) :=
  fun _ => ⟨fun _ _ e => (nomatch e), fun _ _ _ e => (nomatch e), fun _ _ _ e => (nomatch e)⟩

theorem WellFormedRange.min (t : Tid) : WellFormedRange.Statement (.min t) :=
  fun _ => ⟨fun _ _ e => (nomatch e), fun _ _ _ e => (nomatch e), fun _ _ _ e => (nomatch e)⟩

theorem WellFormedRange.max (t : Tid) : WellFormedRange.Statement (.max t) :=
  fun _ => ⟨fun _ _ e => (nomatch e), fun _ _ _ e => (nomatch e), fun _ _ _ e => (nomatch e)⟩

theorem WellFormedRange.mul (t : Tid) : WellFormedRange.Statement (.mul t) :=
  fun _ => ⟨fun _ _ e => (nomatch e), fun _ _ _ e => (nomatch e), fun _ _ _ e => (nomatch e)⟩

theorem WellFormedRange.mulh (t : Tid) : WellFormedRange.Statement (.mulh t) :=
  fun _ => ⟨fun _ _ e => (nomatch e), fun _ _ _ e => (nomatch e), fun _ _ _ e => (nomatch e)⟩

theorem WellFormedRange.div (t : Tid) : WellFormedRange.Statement (.div t) :=
  fun _ => ⟨fun _ _ e => (nomatch e), fun _ _ _ e => (nomatch e), fun _ _ _ e => (nomatch e)⟩

theorem WellFormedRange.rem (t : Tid) : WellFormedRange.Statement (.rem t) :=
  fun _ => ⟨fun _ _ e => (nomatch e), fun _ _ _ e => (nomatch e), fun _ _ _ e => (nomatch e)⟩

theorem WellFormedRange.and (t : Tid) : WellFormedRange.Statement (.and t) :=
  fun _ => ⟨fun _ _ e => (nomatch e), fun _ _ _ e => (nomatch e), fun _ _ _ e => (nomatch e)⟩

theorem WellFormedRange.or (t : Tid) : WellFormedRange.Statement (.or t) :=
  fun _ => ⟨fun _ _ e => (nomatch e), fun _ _ _ e => (nomatch e), fun _ _ _ e => (nomatch e)⟩

theorem WellFormedRange.xor (t : Tid) : WellFormedRange.Statement (.xor t) :=
  fun _ => ⟨fun _ _ e => (nomatch e), fun _ _ _ e => (nomatch e), fun _ _ _ e => (nomatch e)⟩

theorem WellFormedRange.not (t : Tid) : WellFormedRange.Statement (.not t) :=
  fun _ => ⟨fun _ _ e => (nomatch e), fun _ _ _ e => (nomatch e), fun _ _ _ e => (nomatch e)⟩

theorem WellFormedRange.shl (t : Tid) : WellFormedRange.Statement (.shl t) :=
  fun _ => ⟨fun _ _ e => (nomatch e), fun _ _ _ e => (nomatch e), fun _ _ _ e => (nomatch e)⟩

theorem WellFormedRange.shr (t : Tid) : WellFormedRange.Statement (.shr t) :=
  fun _ => ⟨fun _ _ e => (nomatch e), fun _ _ _ e => (nomatch e), fun _ _ _ e => (nomatch e)⟩

theorem WellFormedRange.sar (t : Tid) : WellFormedRange.Statement (.sar t) :=
  fun _ => ⟨fun _ _ e => (nomatch e), fun _ _ _ e => (nomatch e), fun _ _ _ e => (nomatch e)⟩

theorem WellFormedRange.shli (t : Tid) (n : Byte) : WellFormedRange.Statement (.shli t n) :=
  fun _ => ⟨fun _ _ e => (nomatch e), fun _ _ _ e => (nomatch e), fun _ _ _ e => (nomatch e)⟩

theorem WellFormedRange.shri (t : Tid) (n : Byte) : WellFormedRange.Statement (.shri t n) :=
  fun _ => ⟨fun _ _ e => (nomatch e), fun _ _ _ e => (nomatch e), fun _ _ _ e => (nomatch e)⟩

theorem WellFormedRange.sari (t : Tid) (n : Byte) : WellFormedRange.Statement (.sari t n) :=
  fun _ => ⟨fun _ _ e => (nomatch e), fun _ _ _ e => (nomatch e), fun _ _ _ e => (nomatch e)⟩

theorem WellFormedRange.eq (t : Tid) : WellFormedRange.Statement (.eq t) :=
  fun _ => ⟨fun _ _ e => (nomatch e), fun _ _ _ e => (nomatch e), fun _ _ _ e => (nomatch e)⟩

theorem WellFormedRange.ne (t : Tid) : WellFormedRange.Statement (.ne t) :=
  fun _ => ⟨fun _ _ e => (nomatch e), fun _ _ _ e => (nomatch e), fun _ _ _ e => (nomatch e)⟩

theorem WellFormedRange.lt (t : Tid) : WellFormedRange.Statement (.lt t) :=
  fun _ => ⟨fun _ _ e => (nomatch e), fun _ _ _ e => (nomatch e), fun _ _ _ e => (nomatch e)⟩

theorem WellFormedRange.le (t : Tid) : WellFormedRange.Statement (.le t) :=
  fun _ => ⟨fun _ _ e => (nomatch e), fun _ _ _ e => (nomatch e), fun _ _ _ e => (nomatch e)⟩

theorem WellFormedRange.eqz (t : Tid) : WellFormedRange.Statement (.eqz t) :=
  fun _ => ⟨fun _ _ e => (nomatch e), fun _ _ _ e => (nomatch e), fun _ _ _ e => (nomatch e)⟩

theorem WellFormedRange.fadd (t : Tid) : WellFormedRange.Statement (.fadd t) :=
  fun _ => ⟨fun _ _ e => (nomatch e), fun _ _ _ e => (nomatch e), fun _ _ _ e => (nomatch e)⟩

theorem WellFormedRange.fsub (t : Tid) : WellFormedRange.Statement (.fsub t) :=
  fun _ => ⟨fun _ _ e => (nomatch e), fun _ _ _ e => (nomatch e), fun _ _ _ e => (nomatch e)⟩

theorem WellFormedRange.fmul (t : Tid) : WellFormedRange.Statement (.fmul t) :=
  fun _ => ⟨fun _ _ e => (nomatch e), fun _ _ _ e => (nomatch e), fun _ _ _ e => (nomatch e)⟩

theorem WellFormedRange.fdiv (t : Tid) : WellFormedRange.Statement (.fdiv t) :=
  fun _ => ⟨fun _ _ e => (nomatch e), fun _ _ _ e => (nomatch e), fun _ _ _ e => (nomatch e)⟩

theorem WellFormedRange.fsqrt (t : Tid) : WellFormedRange.Statement (.fsqrt t) :=
  fun _ => ⟨fun _ _ e => (nomatch e), fun _ _ _ e => (nomatch e), fun _ _ _ e => (nomatch e)⟩

theorem WellFormedRange.fneg (t : Tid) : WellFormedRange.Statement (.fneg t) :=
  fun _ => ⟨fun _ _ e => (nomatch e), fun _ _ _ e => (nomatch e), fun _ _ _ e => (nomatch e)⟩

theorem WellFormedRange.fabs (t : Tid) : WellFormedRange.Statement (.fabs t) :=
  fun _ => ⟨fun _ _ e => (nomatch e), fun _ _ _ e => (nomatch e), fun _ _ _ e => (nomatch e)⟩

theorem WellFormedRange.feq (t : Tid) : WellFormedRange.Statement (.feq t) :=
  fun _ => ⟨fun _ _ e => (nomatch e), fun _ _ _ e => (nomatch e), fun _ _ _ e => (nomatch e)⟩

theorem WellFormedRange.flt (t : Tid) : WellFormedRange.Statement (.flt t) :=
  fun _ => ⟨fun _ _ e => (nomatch e), fun _ _ _ e => (nomatch e), fun _ _ _ e => (nomatch e)⟩

theorem WellFormedRange.fle (t : Tid) : WellFormedRange.Statement (.fle t) :=
  fun _ => ⟨fun _ _ e => (nomatch e), fun _ _ _ e => (nomatch e), fun _ _ _ e => (nomatch e)⟩

theorem WellFormedRange.cvtIf (t : Tid) : WellFormedRange.Statement (.cvtIf t) :=
  fun _ => ⟨fun _ _ e => (nomatch e), fun _ _ _ e => (nomatch e), fun _ _ _ e => (nomatch e)⟩

theorem WellFormedRange.cvtFi (t : Tid) : WellFormedRange.Statement (.cvtFi t) :=
  fun _ => ⟨fun _ _ e => (nomatch e), fun _ _ _ e => (nomatch e), fun _ _ _ e => (nomatch e)⟩

theorem WellFormedRange.cvtXf (t : Tid) : WellFormedRange.Statement (.cvtXf t) :=
  fun _ => ⟨fun _ _ e => (nomatch e), fun _ _ _ e => (nomatch e), fun _ _ _ e => (nomatch e)⟩

theorem WellFormedRange.retag (t : Tid) (tag : Byte) : WellFormedRange.Statement (.retag t tag) :=
  fun _ => ⟨fun _ _ e => (nomatch e), fun _ _ _ e => (nomatch e), fun _ _ _ e => (nomatch e)⟩

theorem WellFormedRange.sat (t : Tid) (n : Byte) : WellFormedRange.Statement (.sat t n) :=
  fun _ => ⟨fun _ _ e => (nomatch e), fun _ _ _ e => (nomatch e), fun _ _ _ e => (nomatch e)⟩

theorem WellFormedRange.align (t : Tid) (f : Byte) : WellFormedRange.Statement (.align t f) :=
  fun _ => ⟨fun _ _ e => (nomatch e), fun _ _ _ e => (nomatch e), fun _ _ _ e => (nomatch e)⟩

theorem WellFormedRange.br (t : Tid) (disp : Disp) : WellFormedRange.Statement (.br t disp) := by
  intro h
  refine ⟨?_, fun _ _ _ e => (nomatch e), fun _ _ _ e => (nomatch e)⟩
  rintro _ _ (e | e | e)
  all_goals first | (cases e; exact WellFormedRange.branch_short _ h) | exact (nomatch e)

theorem WellFormedRange.bz (t : Tid) (disp : Disp) : WellFormedRange.Statement (.bz t disp) := by
  intro h
  refine ⟨?_, fun _ _ _ e => (nomatch e), fun _ _ _ e => (nomatch e)⟩
  rintro _ _ (e | e | e)
  all_goals first | (cases e; exact WellFormedRange.branch_short _ h) | exact (nomatch e)

theorem WellFormedRange.bnz (t : Tid) (disp : Disp) : WellFormedRange.Statement (.bnz t disp) := by
  intro h
  refine ⟨?_, fun _ _ _ e => (nomatch e), fun _ _ _ e => (nomatch e)⟩
  rintro _ _ (e | e | e)
  all_goals first | (cases e; exact WellFormedRange.branch_short _ h) | exact (nomatch e)

theorem WellFormedRange.jmp (t : Tid) : WellFormedRange.Statement (.jmp t) :=
  fun _ => ⟨fun _ _ e => (nomatch e), fun _ _ _ e => (nomatch e), fun _ _ _ e => (nomatch e)⟩

theorem WellFormedRange.call (t : Tid) (disp : BitVec 24) (a : Fin 16) (r : Fin 16) : WellFormedRange.Statement (.call t disp a r) :=
  fun _ => ⟨fun _ _ e => (nomatch e), fun _ _ _ e => (nomatch e), fun _ _ _ e => (nomatch e)⟩

theorem WellFormedRange.calli (t : Tid) (a : Fin 16) (r : Fin 16) : WellFormedRange.Statement (.calli t a r) :=
  fun _ => ⟨fun _ _ e => (nomatch e), fun _ _ _ e => (nomatch e), fun _ _ _ e => (nomatch e)⟩

theorem WellFormedRange.ret (t : Tid) : WellFormedRange.Statement (.ret t) :=
  fun _ => ⟨fun _ _ e => (nomatch e), fun _ _ _ e => (nomatch e), fun _ _ _ e => (nomatch e)⟩

theorem WellFormedRange.reti (t : Tid) : WellFormedRange.Statement (.reti t) :=
  fun _ => ⟨fun _ _ e => (nomatch e), fun _ _ _ e => (nomatch e), fun _ _ _ e => (nomatch e)⟩

theorem WellFormedRange.ldT (t : Tid) (disp : Disp) (env : MemEnv) : WellFormedRange.Statement (.ldT t disp env) :=
  fun _ => ⟨fun _ _ e => (nomatch e), fun _ _ _ e => (nomatch e), fun _ _ _ e => (nomatch e)⟩

theorem WellFormedRange.ldR (t : Tid) (disp : Disp) (env : MemEnv) : WellFormedRange.Statement (.ldR t disp env) :=
  fun _ => ⟨fun _ _ e => (nomatch e), fun _ _ _ e => (nomatch e), fun _ _ _ e => (nomatch e)⟩

theorem WellFormedRange.ldS32 (t : Tid) (disp : Disp) (env : MemEnv) : WellFormedRange.Statement (.ldS32 t disp env) :=
  fun _ => ⟨fun _ _ e => (nomatch e), fun _ _ _ e => (nomatch e), fun _ _ _ e => (nomatch e)⟩

theorem WellFormedRange.ldU32 (t : Tid) (disp : Disp) (env : MemEnv) : WellFormedRange.Statement (.ldU32 t disp env) :=
  fun _ => ⟨fun _ _ e => (nomatch e), fun _ _ _ e => (nomatch e), fun _ _ _ e => (nomatch e)⟩

theorem WellFormedRange.ldS16 (t : Tid) (disp : Disp) (env : MemEnv) : WellFormedRange.Statement (.ldS16 t disp env) :=
  fun _ => ⟨fun _ _ e => (nomatch e), fun _ _ _ e => (nomatch e), fun _ _ _ e => (nomatch e)⟩

theorem WellFormedRange.ldU16 (t : Tid) (disp : Disp) (env : MemEnv) : WellFormedRange.Statement (.ldU16 t disp env) :=
  fun _ => ⟨fun _ _ e => (nomatch e), fun _ _ _ e => (nomatch e), fun _ _ _ e => (nomatch e)⟩

theorem WellFormedRange.ldS8 (t : Tid) (disp : Disp) (env : MemEnv) : WellFormedRange.Statement (.ldS8 t disp env) :=
  fun _ => ⟨fun _ _ e => (nomatch e), fun _ _ _ e => (nomatch e), fun _ _ _ e => (nomatch e)⟩

theorem WellFormedRange.ldU8 (t : Tid) (disp : Disp) (env : MemEnv) : WellFormedRange.Statement (.ldU8 t disp env) :=
  fun _ => ⟨fun _ _ e => (nomatch e), fun _ _ _ e => (nomatch e), fun _ _ _ e => (nomatch e)⟩

theorem WellFormedRange.stT (t : Tid) (disp : Disp) (env : MemEnv) : WellFormedRange.Statement (.stT t disp env) :=
  fun _ => ⟨fun _ _ e => (nomatch e), fun _ _ _ e => (nomatch e), fun _ _ _ e => (nomatch e)⟩

theorem WellFormedRange.stR (t : Tid) (disp : Disp) (env : MemEnv) : WellFormedRange.Statement (.stR t disp env) :=
  fun _ => ⟨fun _ _ e => (nomatch e), fun _ _ _ e => (nomatch e), fun _ _ _ e => (nomatch e)⟩

theorem WellFormedRange.st32 (t : Tid) (disp : Disp) (env : MemEnv) : WellFormedRange.Statement (.st32 t disp env) :=
  fun _ => ⟨fun _ _ e => (nomatch e), fun _ _ _ e => (nomatch e), fun _ _ _ e => (nomatch e)⟩

theorem WellFormedRange.st16 (t : Tid) (disp : Disp) (env : MemEnv) : WellFormedRange.Statement (.st16 t disp env) :=
  fun _ => ⟨fun _ _ e => (nomatch e), fun _ _ _ e => (nomatch e), fun _ _ _ e => (nomatch e)⟩

theorem WellFormedRange.st8 (t : Tid) (disp : Disp) (env : MemEnv) : WellFormedRange.Statement (.st8 t disp env) :=
  fun _ => ⟨fun _ _ e => (nomatch e), fun _ _ _ e => (nomatch e), fun _ _ _ e => (nomatch e)⟩

theorem WellFormedRange.stt (t : Tid) (disp : Disp) : WellFormedRange.Statement (.stt t disp) :=
  fun _ => ⟨fun _ _ e => (nomatch e), fun _ _ _ e => (nomatch e), fun _ _ _ e => (nomatch e)⟩

theorem WellFormedRange.aadd (t : Tid) (disp : Byte) (env : MemEnv) : WellFormedRange.Statement (.aadd t disp env) :=
  fun _ => ⟨fun _ _ e => (nomatch e), fun _ _ _ e => (nomatch e), fun _ _ _ e => (nomatch e)⟩

theorem WellFormedRange.aswap (t : Tid) (disp : Byte) (env : MemEnv) : WellFormedRange.Statement (.aswap t disp env) :=
  fun _ => ⟨fun _ _ e => (nomatch e), fun _ _ _ e => (nomatch e), fun _ _ _ e => (nomatch e)⟩

theorem WellFormedRange.srr (t : Tid) (num : BitVec 16) : WellFormedRange.Statement (.srr t num) :=
  fun _ => ⟨fun _ _ e => (nomatch e), fun _ _ _ e => (nomatch e), fun _ _ _ e => (nomatch e)⟩

theorem WellFormedRange.srw (t : Tid) (num : BitVec 16) : WellFormedRange.Statement (.srw t num) :=
  fun _ => ⟨fun _ _ e => (nomatch e), fun _ _ _ e => (nomatch e), fun _ _ _ e => (nomatch e)⟩

theorem WellFormedRange.tag (t : Tid) : WellFormedRange.Statement (.tag t) :=
  fun _ => ⟨fun _ _ e => (nomatch e), fun _ _ _ e => (nomatch e), fun _ _ _ e => (nomatch e)⟩

theorem WellFormedRange.tagset (t : Tid) (tag : Byte) : WellFormedRange.Statement (.tagset t tag) :=
  fun _ => ⟨fun _ _ e => (nomatch e), fun _ _ _ e => (nomatch e), fun _ _ _ e => (nomatch e)⟩

theorem WellFormedRange.ptrr (t : Tid) (mask : Byte) : WellFormedRange.Statement (.ptrr t mask) :=
  fun _ => ⟨fun _ _ e => (nomatch e), fun _ _ _ e => (nomatch e), fun _ _ _ e => (nomatch e)⟩

theorem WellFormedRange.wfe (t : Tid) : WellFormedRange.Statement (.wfe t) :=
  fun _ => ⟨fun _ _ e => (nomatch e), fun _ _ _ e => (nomatch e), fun _ _ _ e => (nomatch e)⟩

theorem WellFormedRange.fence (t : Tid) : WellFormedRange.Statement (.fence t) :=
  fun _ => ⟨fun _ _ e => (nomatch e), fun _ _ _ e => (nomatch e), fun _ _ _ e => (nomatch e)⟩

theorem WellFormedRange.yield (t : Tid) : WellFormedRange.Statement (.yield t) :=
  fun _ => ⟨fun _ _ e => (nomatch e), fun _ _ _ e => (nomatch e), fun _ _ _ e => (nomatch e)⟩

theorem WellFormedRange.syscall (t : Tid) (n : Byte) : WellFormedRange.Statement (.syscall t n) :=
  fun _ => ⟨fun _ _ e => (nomatch e), fun _ _ _ e => (nomatch e), fun _ _ _ e => (nomatch e)⟩

theorem WellFormedRange.trap (t : Tid) (n : Byte) : WellFormedRange.Statement (.trap t n) :=
  fun _ => ⟨fun _ _ e => (nomatch e), fun _ _ _ e => (nomatch e), fun _ _ _ e => (nomatch e)⟩

theorem WellFormedRange.brk (t : Tid) : WellFormedRange.Statement (.brk t) :=
  fun _ => ⟨fun _ _ e => (nomatch e), fun _ _ _ e => (nomatch e), fun _ _ _ e => (nomatch e)⟩

theorem WellFormedRange.bmove (t : Tid) (env : MemEnv) : WellFormedRange.Statement (.bmove t env) :=
  fun _ => ⟨fun _ _ e => (nomatch e), fun _ _ _ e => (nomatch e), fun _ _ _ e => (nomatch e)⟩

theorem WellFormedRange.bfill (t : Tid) (env : MemEnv) : WellFormedRange.Statement (.bfill t env) :=
  fun _ => ⟨fun _ _ e => (nomatch e), fun _ _ _ e => (nomatch e), fun _ _ _ e => (nomatch e)⟩

theorem WellFormedRange.dotx (t : Tid) (env : MemEnv) : WellFormedRange.Statement (.dotx t env) :=
  fun _ => ⟨fun _ _ e => (nomatch e), fun _ _ _ e => (nomatch e), fun _ _ _ e => (nomatch e)⟩

theorem WellFormedRange.crc32 (t : Tid) (env : MemEnv) : WellFormedRange.Statement (.crc32 t env) :=
  fun _ => ⟨fun _ _ e => (nomatch e), fun _ _ _ e => (nomatch e), fun _ _ _ e => (nomatch e)⟩

theorem WellFormedRange.cacheFillComplete (t : Tid) : WellFormedRange.Statement (.cacheFillComplete t) :=
  fun _ => ⟨fun _ _ e => (nomatch e), fun _ _ _ e => (nomatch e), fun _ _ _ e => (nomatch e)⟩

theorem WellFormedRange.deviceLoadResponse (t : Tid) (noData : Bool) : WellFormedRange.Statement (.deviceLoadResponse t noData) :=
  fun _ => ⟨fun _ _ e => (nomatch e), fun _ _ _ e => (nomatch e), fun _ _ _ e => (nomatch e)⟩

theorem WellFormedRange.storeResponse (t : Tid) : WellFormedRange.Statement (.storeResponse t) :=
  fun _ => ⟨fun _ _ e => (nomatch e), fun _ _ _ e => (nomatch e), fun _ _ _ e => (nomatch e)⟩

theorem WellFormedRange.faultEntry (t : Tid) (upsets : List Upset) :
    WellFormedRange.Statement (.faultEntry t upsets) :=
  fun _ => ⟨fun _ _ e => (nomatch e), fun _ _ _ e => (nomatch e), fun _ _ _ e => (nomatch e)⟩

theorem WellFormedRange.lockstepMismatch (p : Slice) (core : Fin 4) (thread : Fin 4) (output : Fin 7) : WellFormedRange.Statement (.lockstepMismatch p core thread output) :=
  fun _ => ⟨fun _ _ e => (nomatch e), fun _ _ _ e => (nomatch e), fun _ _ _ e => (nomatch e)⟩

theorem WellFormedRange.eventArrival (n : Nat) : WellFormedRange.Statement (.eventArrival n) :=
  fun _ => ⟨fun _ _ e => (nomatch e), fun _ _ _ e => (nomatch e), fun _ _ _ e => (nomatch e)⟩

theorem WellFormedRange.interruptPresentation (t : Tid) (upsets : List Upset) :
    WellFormedRange.Statement (.interruptPresentation t upsets) :=
  fun _ => ⟨fun _ _ e => (nomatch e), fun _ _ _ e => (nomatch e), fun _ _ _ e => (nomatch e)⟩

theorem WellFormedRange.evcClaim (t : Tid) : WellFormedRange.Statement (.evcClaim t) :=
  fun _ => ⟨fun _ _ e => (nomatch e), fun _ _ _ e => (nomatch e), fun _ _ _ e => (nomatch e)⟩

theorem WellFormedRange.evcComplete (t : Tid) : WellFormedRange.Statement (.evcComplete t) :=
  fun _ => ⟨fun _ _ e => (nomatch e), fun _ _ _ e => (nomatch e), fun _ _ _ e => (nomatch e)⟩

theorem WellFormedRange.evcClr (ag : Agent) (p : Slice) : WellFormedRange.Statement (.evcClr ag p) :=
  fun _ => ⟨fun _ _ e => (nomatch e), fun _ _ _ e => (nomatch e), fun _ _ _ e => (nomatch e)⟩

theorem WellFormedRange.watcherWake (p : Slice) : WellFormedRange.Statement (.watcherWake p) :=
  fun _ => ⟨fun _ _ e => (nomatch e), fun _ _ _ e => (nomatch e), fun _ _ _ e => (nomatch e)⟩

theorem WellFormedRange.eventPinChange (pin : Fin 16) (low : Bool) : WellFormedRange.Statement (.eventPinChange pin low) :=
  fun _ => ⟨fun _ _ e => (nomatch e), fun _ _ _ e => (nomatch e), fun _ _ _ e => (nomatch e)⟩

theorem WellFormedRange.coreClrCore (t : Tid) : WellFormedRange.Statement (.coreClrCore t) :=
  fun _ => ⟨fun _ _ e => (nomatch e), fun _ _ _ e => (nomatch e), fun _ _ _ e => (nomatch e)⟩

theorem WellFormedRange.coreClrThread (t : Tid) : WellFormedRange.Statement (.coreClrThread t) :=
  fun _ => ⟨fun _ _ e => (nomatch e), fun _ _ _ e => (nomatch e), fun _ _ _ e => (nomatch e)⟩

theorem WellFormedRange.scrPowerWrite (ag : Agent) (p : Slice) (data : Word) : WellFormedRange.Statement (.scrPowerWrite ag p data) :=
  fun _ => ⟨fun _ _ e => (nomatch e), fun _ _ _ e => (nomatch e), fun _ _ _ e => (nomatch e)⟩

theorem WellFormedRange.bankPowerDone (p : Slice) (b : Fin 8) : WellFormedRange.Statement (.bankPowerDone p b) :=
  fun _ => ⟨fun _ _ e => (nomatch e), fun _ _ _ e => (nomatch e), fun _ _ _ e => (nomatch e)⟩

theorem WellFormedRange.scrWipe (ag : Agent) (p : Slice) : WellFormedRange.Statement (.scrWipe ag p) :=
  fun _ => ⟨fun _ _ e => (nomatch e), fun _ _ _ e => (nomatch e), fun _ _ _ e => (nomatch e)⟩

theorem WellFormedRange.bank7WipeDone (p : Slice) : WellFormedRange.Statement (.bank7WipeDone p) :=
  fun _ => ⟨fun _ _ e => (nomatch e), fun _ _ _ e => (nomatch e), fun _ _ _ e => (nomatch e)⟩

theorem WellFormedRange.scrClr (ag : Agent) (p : Slice) : WellFormedRange.Statement (.scrClr ag p) :=
  fun _ => ⟨fun _ _ e => (nomatch e), fun _ _ _ e => (nomatch e), fun _ _ _ e => (nomatch e)⟩

theorem WellFormedRange.dramReadComplete (p : Slice) (line : Nat) (errs : LineErrors) : WellFormedRange.Statement (.dramReadComplete p line errs) :=
  fun _ => ⟨fun _ _ e => (nomatch e), fun _ _ _ e => (nomatch e), fun _ _ _ e => (nomatch e)⟩

theorem WellFormedRange.poisonedEviction (p : Slice) (line : Nat) : WellFormedRange.Statement (.poisonedEviction p line) :=
  fun _ => ⟨fun _ _ e => (nomatch e), fun _ _ _ e => (nomatch e), fun _ _ _ e => (nomatch e)⟩

theorem WellFormedRange.dramInitDone (p : Slice) : WellFormedRange.Statement (.dramInitDone p) :=
  fun _ => ⟨fun _ _ e => (nomatch e), fun _ _ _ e => (nomatch e), fun _ _ _ e => (nomatch e)⟩

theorem WellFormedRange.dramRefresh (p : Slice) (doubled : Bool) : WellFormedRange.Statement (.dramRefresh p doubled) :=
  fun _ => ⟨fun _ _ e => (nomatch e), fun _ _ _ e => (nomatch e), fun _ _ _ e => (nomatch e)⟩

theorem WellFormedRange.patrolScrubRead (p : Slice) (errs : LineErrors) : WellFormedRange.Statement (.patrolScrubRead p errs) :=
  fun _ => ⟨fun _ _ e => (nomatch e), fun _ _ _ e => (nomatch e), fun _ _ _ e => (nomatch e)⟩

theorem WellFormedRange.writeTimingAdjust (p : Slice) (outOfRange : Bool) : WellFormedRange.Statement (.writeTimingAdjust p outOfRange) :=
  fun _ => ⟨fun _ _ e => (nomatch e), fun _ _ _ e => (nomatch e), fun _ _ _ e => (nomatch e)⟩

theorem WellFormedRange.ddrcPprGo (ag : Agent) (p : Slice) : WellFormedRange.Statement (.ddrcPprGo ag p) :=
  fun _ => ⟨fun _ _ e => (nomatch e), fun _ _ _ e => (nomatch e), fun _ _ _ e => (nomatch e)⟩

theorem WellFormedRange.pprDone (p : Slice) (ok : Bool) : WellFormedRange.Statement (.pprDone p ok) :=
  fun _ => ⟨fun _ _ e => (nomatch e), fun _ _ _ e => (nomatch e), fun _ _ _ e => (nomatch e)⟩

theorem WellFormedRange.ddrcClrDev (ag : Agent) (p : Slice) : WellFormedRange.Statement (.ddrcClrDev ag p) :=
  fun _ => ⟨fun _ _ e => (nomatch e), fun _ _ _ e => (nomatch e), fun _ _ _ e => (nomatch e)⟩

theorem WellFormedRange.ddrcClrCounts (ag : Agent) (p : Slice) : WellFormedRange.Statement (.ddrcClrCounts ag p) :=
  fun _ => ⟨fun _ _ e => (nomatch e), fun _ _ _ e => (nomatch e), fun _ _ _ e => (nomatch e)⟩

theorem WellFormedRange.dmaStart (ag : Agent) (p : Slice) (c : Fin 32) : WellFormedRange.Statement (.dmaStart ag p c) :=
  fun _ => ⟨fun _ _ e => (nomatch e), fun _ _ _ e => (nomatch e), fun _ _ _ e => (nomatch e)⟩

theorem WellFormedRange.dmaPause (ag : Agent) (p : Slice) (c : Fin 32) (inFlight : Fin 17) : WellFormedRange.Statement (.dmaPause ag p c inFlight) :=
  fun _ => ⟨fun _ _ e => (nomatch e), fun _ _ _ e => (nomatch e), fun _ _ _ e => (nomatch e)⟩

theorem WellFormedRange.dmaResume (ag : Agent) (p : Slice) (c : Fin 32) : WellFormedRange.Statement (.dmaResume ag p c) :=
  fun _ => ⟨fun _ _ e => (nomatch e), fun _ _ _ e => (nomatch e), fun _ _ _ e => (nomatch e)⟩

theorem WellFormedRange.dmaElementDone (p : Slice) (c : Fin 32) (env : MemEnv) (beyond : Fin 16) : WellFormedRange.Statement (.dmaElementDone p c env beyond) :=
  fun _ => ⟨fun _ _ e => (nomatch e), fun _ _ _ e => (nomatch e), fun _ _ _ e => (nomatch e)⟩

theorem WellFormedRange.dmaAlloc (ag : Agent) (p : Slice) : WellFormedRange.Statement (.dmaAlloc ag p) :=
  fun _ => ⟨fun _ _ e => (nomatch e), fun _ _ _ e => (nomatch e), fun _ _ _ e => (nomatch e)⟩

theorem WellFormedRange.dmaFree (ag : Agent) (p : Slice) (c : Fin 32) : WellFormedRange.Statement (.dmaFree ag p c) :=
  fun _ => ⟨fun _ _ e => (nomatch e), fun _ _ _ e => (nomatch e), fun _ _ _ e => (nomatch e)⟩

theorem WellFormedRange.dmaAllocRefusedClr (ag : Agent) (p : Slice) : WellFormedRange.Statement (.dmaAllocRefusedClr ag p) :=
  fun _ => ⟨fun _ _ e => (nomatch e), fun _ _ _ e => (nomatch e), fun _ _ _ e => (nomatch e)⟩

theorem WellFormedRange.dmaCollClr (ag : Agent) (p : Slice) (c : Fin 32) : WellFormedRange.Statement (.dmaCollClr ag p c) :=
  fun _ => ⟨fun _ _ e => (nomatch e), fun _ _ _ e => (nomatch e), fun _ _ _ e => (nomatch e)⟩

theorem WellFormedRange.tmrStep (p : Slice) (n : Fin 16) : WellFormedRange.Statement (.tmrStep p n) :=
  fun _ => ⟨fun _ _ e => (nomatch e), fun _ _ _ e => (nomatch e), fun _ _ _ e => (nomatch e)⟩

theorem WellFormedRange.tmrStart (ag : Agent) (p : Slice) (n : Fin 16) : WellFormedRange.Statement (.tmrStart ag p n) :=
  fun _ => ⟨fun _ _ e => (nomatch e), fun _ _ _ e => (nomatch e), fun _ _ _ e => (nomatch e)⟩

theorem WellFormedRange.tmrStop (ag : Agent) (p : Slice) (n : Fin 16) : WellFormedRange.Statement (.tmrStop ag p n) :=
  fun _ => ⟨fun _ _ e => (nomatch e), fun _ _ _ e => (nomatch e), fun _ _ _ e => (nomatch e)⟩

theorem WellFormedRange.tmrGstart (ag : Agent) (p : Slice) (mask : BitVec 16) : WellFormedRange.Statement (.tmrGstart ag p mask) :=
  fun _ => ⟨fun _ _ e => (nomatch e), fun _ _ _ e => (nomatch e), fun _ _ _ e => (nomatch e)⟩

theorem WellFormedRange.tmrGstop (ag : Agent) (p : Slice) (mask : BitVec 16) : WellFormedRange.Statement (.tmrGstop ag p mask) :=
  fun _ => ⟨fun _ _ e => (nomatch e), fun _ _ _ e => (nomatch e), fun _ _ _ e => (nomatch e)⟩

theorem WellFormedRange.captureEdge (p : Slice) (n : Fin 16) (rise : Bool) : WellFormedRange.Statement (.captureEdge p n rise) :=
  fun _ => ⟨fun _ _ e => (nomatch e), fun _ _ _ e => (nomatch e), fun _ _ _ e => (nomatch e)⟩

theorem WellFormedRange.timerCapture (p : Slice) (n : Fin 16) : WellFormedRange.Statement (.timerCapture p n) :=
  fun _ => ⟨fun _ _ e => (nomatch e), fun _ _ _ e => (nomatch e), fun _ _ _ e => (nomatch e)⟩

theorem WellFormedRange.tmrCapRead (ag : Agent) (p : Slice) (n : Fin 16) : WellFormedRange.Statement (.tmrCapRead ag p n) :=
  fun _ => ⟨fun _ _ e => (nomatch e), fun _ _ _ e => (nomatch e), fun _ _ _ e => (nomatch e)⟩

theorem WellFormedRange.ratioMeasurement (p : Slice) (ratio : BitVec 32) : WellFormedRange.Statement (.ratioMeasurement p ratio) :=
  fun _ => ⟨fun _ _ e => (nomatch e), fun _ _ _ e => (nomatch e), fun _ _ _ e => (nomatch e)⟩

theorem WellFormedRange.stencilRowEnd (s : Slice) (e : Fin 8) (pins : BitVec 16) : WellFormedRange.Statement (.stencilRowEnd s e pins) :=
  fun _ => ⟨fun _ _ e => (nomatch e), fun _ _ _ e => (nomatch e), fun _ _ _ e => (nomatch e)⟩

theorem WellFormedRange.stenStart (s : Slice) (e : Fin 8) : WellFormedRange.Statement (.stenStart s e) :=
  fun _ => ⟨fun _ _ e => (nomatch e), fun _ _ _ e => (nomatch e), fun _ _ _ e => (nomatch e)⟩

theorem WellFormedRange.stenStop (s : Slice) (e : Fin 8) : WellFormedRange.Statement (.stenStop s e) :=
  fun _ => ⟨fun _ _ e => (nomatch e), fun _ _ _ e => (nomatch e), fun _ _ _ e => (nomatch e)⟩

theorem WellFormedRange.stenClrFifo (ag : Agent) (s : Slice) (e : Fin 8) : WellFormedRange.Statement (.stenClrFifo ag s e) :=
  fun _ => ⟨fun _ _ e => (nomatch e), fun _ _ _ e => (nomatch e), fun _ _ _ e => (nomatch e)⟩

theorem WellFormedRange.stenTxfWrite (s : Slice) (e : Fin 8) (word : BitVec 32) : WellFormedRange.Statement (.stenTxfWrite s e word) :=
  fun _ => ⟨fun _ _ e => (nomatch e), fun _ _ _ e => (nomatch e), fun _ _ _ e => (nomatch e)⟩

theorem WellFormedRange.stenRxfRead (ag : Agent) (s : Slice) (e : Fin 8) : WellFormedRange.Statement (.stenRxfRead ag s e) :=
  fun _ => ⟨fun _ _ e => (nomatch e), fun _ _ _ e => (nomatch e), fun _ _ _ e => (nomatch e)⟩

theorem WellFormedRange.stenRowWrite (s : Slice) (e : Fin 8) (r : Fin 32) (data : Word) : WellFormedRange.Statement (.stenRowWrite s e r data) :=
  fun _ => ⟨fun _ _ e => (nomatch e), fun _ _ _ e => (nomatch e), fun _ _ _ e => (nomatch e)⟩

theorem WellFormedRange.stenGstart (s : Slice) (mask : Byte) : WellFormedRange.Statement (.stenGstart s mask) :=
  fun _ => ⟨fun _ _ e => (nomatch e), fun _ _ _ e => (nomatch e), fun _ _ _ e => (nomatch e)⟩

theorem WellFormedRange.stenGstop (s : Slice) (mask : Byte) : WellFormedRange.Statement (.stenGstop s mask) :=
  fun _ => ⟨fun _ _ e => (nomatch e), fun _ _ _ e => (nomatch e), fun _ _ _ e => (nomatch e)⟩

theorem WellFormedRange.stenGclk (s : Slice) (mask : Byte) : WellFormedRange.Statement (.stenGclk s mask) :=
  fun _ => ⟨fun _ _ e => (nomatch e), fun _ _ _ e => (nomatch e), fun _ _ _ e => (nomatch e)⟩

theorem WellFormedRange.intentFrameReceived (p : Slice) (port : Fin 2) (tag : Option RxTag) (bytes : List Byte) :
    WellFormedRange.Statement (.intentFrameReceived p port tag bytes) :=
  fun _ => ⟨fun _ _ e => (nomatch e), fun _ _ _ e => (nomatch e), fun _ _ _ e => (nomatch e)⟩

theorem WellFormedRange.tokenRefill (p : Slice) (i : Fin 64) : WellFormedRange.Statement (.tokenRefill p i) :=
  fun _ => ⟨fun _ _ e => (nomatch e), fun _ _ _ e => (nomatch e), fun _ _ _ e => (nomatch e)⟩

theorem WellFormedRange.intentMessageTaken (p : Slice) : WellFormedRange.Statement (.intentMessageTaken p) :=
  fun _ => ⟨fun _ _ e => (nomatch e), fun _ _ _ e => (nomatch e), fun _ _ _ e => (nomatch e)⟩

theorem WellFormedRange.partnerSilence (p : Slice) (i : Fin 64) : WellFormedRange.Statement (.partnerSilence p i) :=
  fun _ => ⟨fun _ _ e => (nomatch e), fun _ _ _ e => (nomatch e), fun _ _ _ e => (nomatch e)⟩

theorem WellFormedRange.quarClear (ag : Agent) (p : Slice) (i : Fin 64) : WellFormedRange.Statement (.quarClear ag p i) :=
  fun _ => ⟨fun _ _ e => (nomatch e), fun _ _ _ e => (nomatch e), fun _ _ _ e => (nomatch e)⟩

theorem WellFormedRange.partnerValidChange (ag : Agent) (p : Slice) (i : Fin 64) (valid : Bool) : WellFormedRange.Statement (.partnerValidChange ag p i valid) :=
  fun _ => ⟨fun _ _ e => (nomatch e), fun _ _ _ e => (nomatch e), fun _ _ _ e => (nomatch e)⟩

theorem WellFormedRange.intnClr (ag : Agent) (p : Slice) : WellFormedRange.Statement (.intnClr ag p) :=
  fun _ => ⟨fun _ _ e => (nomatch e), fun _ _ _ e => (nomatch e), fun _ _ _ e => (nomatch e)⟩

theorem WellFormedRange.linkStateChange (p : Slice) (n : Fin 2) (link : LinkState) : WellFormedRange.Statement (.linkStateChange p n link) :=
  fun _ => ⟨fun _ _ e => (nomatch e), fun _ _ _ e => (nomatch e), fun _ _ _ e => (nomatch e)⟩

theorem WellFormedRange.rxFrame (p : Slice) (n : Fin 2) (frame : RxFrame) : WellFormedRange.Statement (.rxFrame p n frame) :=
  fun _ => ⟨fun _ _ e => (nomatch e), fun _ _ _ e => (nomatch e), fun _ _ _ e => (nomatch e)⟩

theorem WellFormedRange.txRecord (p : Slice) (n : Fin 2) : WellFormedRange.Statement (.txRecord p n) :=
  fun _ => ⟨fun _ _ e => (nomatch e), fun _ _ _ e => (nomatch e), fun _ _ _ e => (nomatch e)⟩

theorem WellFormedRange.txFrameSent (p : Slice) (n : Fin 2) (cut : Nat) : WellFormedRange.Statement (.txFrameSent p n cut) :=
  fun _ => ⟨fun _ _ e => (nomatch e), fun _ _ _ e => (nomatch e), fun _ _ _ e => (nomatch e)⟩

theorem WellFormedRange.gclChange (ag : Agent) (p : Slice) (n : Fin 2) : WellFormedRange.Statement (.gclChange ag p n) :=
  fun _ => ⟨fun _ _ e => (nomatch e), fun _ _ _ e => (nomatch e), fun _ _ _ e => (nomatch e)⟩

theorem WellFormedRange.gclChangeApplied (p : Slice) (n : Fin 2) (gptp : Word) : WellFormedRange.Statement (.gclChangeApplied p n gptp) :=
  fun _ => ⟨fun _ _ e => (nomatch e), fun _ _ _ e => (nomatch e), fun _ _ _ e => (nomatch e)⟩

theorem WellFormedRange.gateEntryExpiry (p : Slice) (n : Fin 2) (gptp : Word) : WellFormedRange.Statement (.gateEntryExpiry p n gptp) :=
  fun _ => ⟨fun _ _ e => (nomatch e), fun _ _ _ e => (nomatch e), fun _ _ _ e => (nomatch e)⟩

theorem WellFormedRange.preemptVerifyDone (p : Slice) (n : Fin 2) (ok : Bool) : WellFormedRange.Statement (.preemptVerifyDone p n ok) :=
  fun _ => ⟨fun _ _ e => (nomatch e), fun _ _ _ e => (nomatch e), fun _ _ _ e => (nomatch e)⟩

theorem WellFormedRange.saLoadGo (ag : Agent) (p : Slice) (n : Fin 2) : WellFormedRange.Statement (.saLoadGo ag p n) :=
  fun _ => ⟨fun _ _ e => (nomatch e), fun _ _ _ e => (nomatch e), fun _ _ _ e => (nomatch e)⟩

theorem WellFormedRange.saLoadDone (p : Slice) (n : Fin 2) : WellFormedRange.Statement (.saLoadDone p n) :=
  fun _ => ⟨fun _ _ e => (nomatch e), fun _ _ _ e => (nomatch e), fun _ _ _ e => (nomatch e)⟩

theorem WellFormedRange.ethClr (ag : Agent) (p : Slice) (n : Fin 2) : WellFormedRange.Statement (.ethClr ag p n) :=
  fun _ => ⟨fun _ _ e => (nomatch e), fun _ _ _ e => (nomatch e), fun _ _ _ e => (nomatch e)⟩

theorem WellFormedRange.fabClr (ag : Agent) (p : Slice) : WellFormedRange.Statement (.fabClr ag p) :=
  fun _ => ⟨fun _ _ e => (nomatch e), fun _ _ _ e => (nomatch e), fun _ _ _ e => (nomatch e)⟩

theorem WellFormedRange.fabricLinkError (p : Slice) (link : Fin 3) : WellFormedRange.Statement (.fabricLinkError p link) :=
  fun _ => ⟨fun _ _ e => (nomatch e), fun _ _ _ e => (nomatch e), fun _ _ _ e => (nomatch e)⟩

theorem WellFormedRange.epochBoundary (p : Slice) : WellFormedRange.Statement (.epochBoundary p) :=
  fun _ => ⟨fun _ _ e => (nomatch e), fun _ _ _ e => (nomatch e), fun _ _ _ e => (nomatch e)⟩

theorem WellFormedRange.checkpointClose (p : Slice) : WellFormedRange.Statement (.checkpointClose p) :=
  fun _ => ⟨fun _ _ e => (nomatch e), fun _ _ _ e => (nomatch e), fun _ _ _ e => (nomatch e)⟩

theorem WellFormedRange.jrnlEnable (ag : Agent) (p : Slice) (en : Bool) : WellFormedRange.Statement (.jrnlEnable ag p en) :=
  fun _ => ⟨fun _ _ e => (nomatch e), fun _ _ _ e => (nomatch e), fun _ _ _ e => (nomatch e)⟩

theorem WellFormedRange.jrnlClr (ag : Agent) (p : Slice) : WellFormedRange.Statement (.jrnlClr ag p) :=
  fun _ => ⟨fun _ _ e => (nomatch e), fun _ _ _ e => (nomatch e), fun _ _ _ e => (nomatch e)⟩

theorem WellFormedRange.hovrKick (ag : Agent) (s : Slice) : WellFormedRange.Statement (.hovrKick ag s) :=
  fun _ => ⟨fun _ _ e => (nomatch e), fun _ _ _ e => (nomatch e), fun _ _ _ e => (nomatch e)⟩

theorem WellFormedRange.watchdogExpiry (s : Slice) : WellFormedRange.Statement (.watchdogExpiry s) :=
  fun _ => ⟨fun _ _ e => (nomatch e), fun _ _ _ e => (nomatch e), fun _ _ _ e => (nomatch e)⟩

theorem WellFormedRange.threadRestore (s : Slice) : WellFormedRange.Statement (.threadRestore s) :=
  fun _ => ⟨fun _ _ e => (nomatch e), fun _ _ _ e => (nomatch e), fun _ _ _ e => (nomatch e)⟩

theorem WellFormedRange.threadThrough (s : Slice) (u : Fin 16) : WellFormedRange.Statement (.threadThrough s u) :=
  fun _ => ⟨fun _ _ e => (nomatch e), fun _ _ _ e => (nomatch e), fun _ _ _ e => (nomatch e)⟩

theorem WellFormedRange.hovrAdopt (s : Slice) : WellFormedRange.Statement (.hovrAdopt s) :=
  fun _ => ⟨fun _ _ e => (nomatch e), fun _ _ _ e => (nomatch e), fun _ _ _ e => (nomatch e)⟩

theorem WellFormedRange.hovrPlanned (s : Slice) : WellFormedRange.Statement (.hovrPlanned s) :=
  fun _ => ⟨fun _ _ e => (nomatch e), fun _ _ _ e => (nomatch e), fun _ _ _ e => (nomatch e)⟩

theorem WellFormedRange.hovrRelease (ag : Agent) (s : Slice) : WellFormedRange.Statement (.hovrRelease ag s) :=
  fun _ => ⟨fun _ _ e => (nomatch e), fun _ _ _ e => (nomatch e), fun _ _ _ e => (nomatch e)⟩

theorem WellFormedRange.hovrReturn (s : Slice) : WellFormedRange.Statement (.hovrReturn s) :=
  fun _ => ⟨fun _ _ e => (nomatch e), fun _ _ _ e => (nomatch e), fun _ _ _ e => (nomatch e)⟩

theorem WellFormedRange.returnComplete (s : Slice) : WellFormedRange.Statement (.returnComplete s) :=
  fun _ => ⟨fun _ _ e => (nomatch e), fun _ _ _ e => (nomatch e), fun _ _ _ e => (nomatch e)⟩

theorem WellFormedRange.modeCommission (tgt : ModeCmd) : WellFormedRange.Statement (.modeCommission tgt) :=
  fun _ => ⟨fun _ _ e => (nomatch e), fun _ _ _ e => (nomatch e), fun _ _ _ e => (nomatch e)⟩

theorem WellFormedRange.modeRun (tgt : ModeCmd) : WellFormedRange.Statement (.modeRun tgt) :=
  fun _ => ⟨fun _ _ e => (nomatch e), fun _ _ _ e => (nomatch e), fun _ _ _ e => (nomatch e)⟩

theorem WellFormedRange.modeHold (tgt : ModeCmd) : WellFormedRange.Statement (.modeHold tgt) :=
  fun _ => ⟨fun _ _ e => (nomatch e), fun _ _ _ e => (nomatch e), fun _ _ _ e => (nomatch e)⟩

theorem WellFormedRange.modeRest (tgt : ModeCmd) : WellFormedRange.Statement (.modeRest tgt) :=
  fun _ => ⟨fun _ _ e => (nomatch e), fun _ _ _ e => (nomatch e), fun _ _ _ e => (nomatch e)⟩

theorem WellFormedRange.modeWarm (ag : Agent) (s : Slice) : WellFormedRange.Statement (.modeWarm ag s) :=
  fun _ => ⟨fun _ _ e => (nomatch e), fun _ _ _ e => (nomatch e), fun _ _ _ e => (nomatch e)⟩

theorem WellFormedRange.panelWarmResetDone (p : Slice) : WellFormedRange.Statement (.panelWarmResetDone p) :=
  fun _ => ⟨fun _ _ e => (nomatch e), fun _ _ _ e => (nomatch e), fun _ _ _ e => (nomatch e)⟩

theorem WellFormedRange.threadResetStop (ag : Agent) (s : Slice) (mask : BitVec 16) : WellFormedRange.Statement (.threadResetStop ag s mask) :=
  fun _ => ⟨fun _ _ e => (nomatch e), fun _ _ _ e => (nomatch e), fun _ _ _ e => (nomatch e)⟩

theorem WellFormedRange.threadResetStart (ag : Agent) (s : Slice) (mask : BitVec 16) : WellFormedRange.Statement (.threadResetStart ag s mask) :=
  fun _ => ⟨fun _ _ e => (nomatch e), fun _ _ _ e => (nomatch e), fun _ _ _ e => (nomatch e)⟩

theorem WellFormedRange.pkgResetCmd (ag : Agent) (code : BitVec 16) : WellFormedRange.Statement (.pkgResetCmd ag code) :=
  fun _ => ⟨fun _ _ e => (nomatch e), fun _ _ _ e => (nomatch e), fun _ _ _ e => (nomatch e)⟩

theorem WellFormedRange.pkgResetPin : WellFormedRange.Statement (.pkgResetPin) :=
  fun _ => ⟨fun _ _ e => (nomatch e), fun _ _ _ e => (nomatch e), fun _ _ _ e => (nomatch e)⟩

theorem WellFormedRange.powerOn : WellFormedRange.Statement (.powerOn) :=
  fun _ => ⟨fun _ _ e => (nomatch e), fun _ _ _ e => (nomatch e), fun _ _ _ e => (nomatch e)⟩

theorem WellFormedRange.primeEnd (gesso : List GessoSlice) (slotA : Image) (slotB : Image) : WellFormedRange.Statement (.primeEnd gesso slotA slotB) := by
  intro h
  refine ⟨fun _ _ e => (nomatch e), fun _ _ _ e => (nomatch e), ?_⟩
  intro _ _ _ e
  cases e
  simp only [WellFormed, Bool.and_eq_true, decide_eq_true_eq, List.all_eq_true] at h
  refine ⟨h.1, fun x hx => ?_⟩
  have hf := h.2 x hx
  simp only [GessoSlice.fits, Bool.and_eq_true, decide_eq_true_eq] at hf
  exact ⟨(WellFormedRange.taps_fit _ hf.1.1).1, (WellFormedRange.lines_fit _ hf.1.2).1, hf.2⟩

theorem WellFormedRange.railBelowWarning (rail : Rail) : WellFormedRange.Statement (.railBelowWarning rail) :=
  fun _ => ⟨fun _ _ e => (nomatch e), fun _ _ _ e => (nomatch e), fun _ _ _ e => (nomatch e)⟩

theorem WellFormedRange.dipRecordWritten : WellFormedRange.Statement (.dipRecordWritten) :=
  fun _ => ⟨fun _ _ e => (nomatch e), fun _ _ _ e => (nomatch e), fun _ _ _ e => (nomatch e)⟩

theorem WellFormedRange.railRecovered (rail : Rail) : WellFormedRange.Statement (.railRecovered rail) :=
  fun _ => ⟨fun _ _ e => (nomatch e), fun _ _ _ e => (nomatch e), fun _ _ _ e => (nomatch e)⟩

theorem WellFormedRange.railBelowReset (rail : Rail) : WellFormedRange.Statement (.railBelowReset rail) :=
  fun _ => ⟨fun _ _ e => (nomatch e), fun _ _ _ e => (nomatch e), fun _ _ _ e => (nomatch e)⟩

theorem WellFormedRange.junctionReading (s : Slice) (celsius : Int) : WellFormedRange.Statement (.junctionReading s celsius) :=
  fun _ => ⟨fun _ _ e => (nomatch e), fun _ _ _ e => (nomatch e), fun _ _ _ e => (nomatch e)⟩

theorem WellFormedRange.upntCommit (ag : Agent) : WellFormedRange.Statement (.upntCommit ag) :=
  fun _ => ⟨fun _ _ e => (nomatch e), fun _ _ _ e => (nomatch e), fun _ _ _ e => (nomatch e)⟩

theorem WellFormedRange.upntCommitKeys (ag : Agent) : WellFormedRange.Statement (.upntCommitKeys ag) :=
  fun _ => ⟨fun _ _ e => (nomatch e), fun _ _ _ e => (nomatch e), fun _ _ _ e => (nomatch e)⟩

theorem WellFormedRange.commitDone (ok : Bool) : WellFormedRange.Statement (.commitDone ok) :=
  fun _ => ⟨fun _ _ e => (nomatch e), fun _ _ _ e => (nomatch e), fun _ _ _ e => (nomatch e)⟩

theorem WellFormedRange.upntDipClr (ag : Agent) : WellFormedRange.Statement (.upntDipClr ag) :=
  fun _ => ⟨fun _ _ e => (nomatch e), fun _ _ _ e => (nomatch e), fun _ _ _ e => (nomatch e)⟩

theorem WellFormedRange.lifeTransition (ag : Agent) (confirm : BitVec 16) (target : Fin 8) : WellFormedRange.Statement (.lifeTransition ag confirm target) :=
  fun _ => ⟨fun _ _ e => (nomatch e), fun _ _ _ e => (nomatch e), fun _ _ _ e => (nomatch e)⟩

theorem WellFormedRange.advanceFloor (ag : Agent) : WellFormedRange.Statement (.advanceFloor ag) :=
  fun _ => ⟨fun _ _ e => (nomatch e), fun _ _ _ e => (nomatch e), fun _ _ _ e => (nomatch e)⟩

theorem WellFormedRange.relock (ag : Agent) : WellFormedRange.Statement (.relock ag) :=
  fun _ => ⟨fun _ _ e => (nomatch e), fun _ _ _ e => (nomatch e), fun _ _ _ e => (nomatch e)⟩

theorem WellFormedRange.unlockReq (challenge : BitVec 384) : WellFormedRange.Statement (.unlockReq challenge) :=
  fun _ => ⟨fun _ _ e => (nomatch e), fun _ _ _ e => (nomatch e), fun _ _ _ e => (nomatch e)⟩

theorem WellFormedRange.unlockSubmit : WellFormedRange.Statement (.unlockSubmit) :=
  fun _ => ⟨fun _ _ e => (nomatch e), fun _ _ _ e => (nomatch e), fun _ _ _ e => (nomatch e)⟩

theorem WellFormedRange.tamperSense (i : Fin 6) : WellFormedRange.Statement (.tamperSense i) :=
  fun _ => ⟨fun _ _ e => (nomatch e), fun _ _ _ e => (nomatch e), fun _ _ _ e => (nomatch e)⟩

theorem WellFormedRange.tapReset : WellFormedRange.Statement (.tapReset) :=
  fun _ => ⟨fun _ _ e => (nomatch e), fun _ _ _ e => (nomatch e), fun _ _ _ e => (nomatch e)⟩

theorem WellFormedRange.extest (scan : Scan) : WellFormedRange.Statement (.extest scan) :=
  fun _ => ⟨fun _ _ e => (nomatch e), fun _ _ _ e => (nomatch e), fun _ _ _ e => (nomatch e)⟩

theorem WellFormedRange.idcode : WellFormedRange.Statement (.idcode) :=
  fun _ => ⟨fun _ _ e => (nomatch e), fun _ _ _ e => (nomatch e), fun _ _ _ e => (nomatch e)⟩

theorem WellFormedRange.samplePreload (scan : Scan) : WellFormedRange.Statement (.samplePreload scan) :=
  fun _ => ⟨fun _ _ e => (nomatch e), fun _ _ _ e => (nomatch e), fun _ _ _ e => (nomatch e)⟩

theorem WellFormedRange.clamp : WellFormedRange.Statement (.clamp) :=
  fun _ => ⟨fun _ _ e => (nomatch e), fun _ _ _ e => (nomatch e), fun _ _ _ e => (nomatch e)⟩

theorem WellFormedRange.highz : WellFormedRange.Statement (.highz) :=
  fun _ => ⟨fun _ _ e => (nomatch e), fun _ _ _ e => (nomatch e), fun _ _ _ e => (nomatch e)⟩

theorem WellFormedRange.bypass : WellFormedRange.Statement (.bypass) :=
  fun _ => ⟨fun _ _ e => (nomatch e), fun _ _ _ e => (nomatch e), fun _ _ _ e => (nomatch e)⟩

theorem WellFormedRange.easelAccess (dr : BitVec 128) : WellFormedRange.Statement (.easelAccess dr) :=
  fun _ => ⟨fun _ _ e => (nomatch e), fun _ _ _ e => (nomatch e), fun _ _ _ e => (nomatch e)⟩

theorem WellFormedRange.easlHalt (p : Slice) : WellFormedRange.Statement (.easlHalt p) :=
  fun _ => ⟨fun _ _ e => (nomatch e), fun _ _ _ e => (nomatch e), fun _ _ _ e => (nomatch e)⟩

theorem WellFormedRange.haltComplete (p : Slice) : WellFormedRange.Statement (.haltComplete p) :=
  fun _ => ⟨fun _ _ e => (nomatch e), fun _ _ _ e => (nomatch e), fun _ _ _ e => (nomatch e)⟩

theorem WellFormedRange.easlStep (thread : Fin 16) (irq : Bool) (count : BitVec 30) : WellFormedRange.Statement (.easlStep thread irq count) :=
  fun _ => ⟨fun _ _ e => (nomatch e), fun _ _ _ e => (nomatch e), fun _ _ _ e => (nomatch e)⟩

theorem WellFormedRange.stepEnd (p : Slice) : WellFormedRange.Statement (.stepEnd p) :=
  fun _ => ⟨fun _ _ e => (nomatch e), fun _ _ _ e => (nomatch e), fun _ _ _ e => (nomatch e)⟩

theorem WellFormedRange.easlResume (p : Slice) : WellFormedRange.Statement (.easlResume p) :=
  fun _ => ⟨fun _ _ e => (nomatch e), fun _ _ _ e => (nomatch e), fun _ _ _ e => (nomatch e)⟩

theorem WellFormedRange.easlDreset (p : Slice) : WellFormedRange.Statement (.easlDreset p) :=
  fun _ => ⟨fun _ _ e => (nomatch e), fun _ _ _ e => (nomatch e), fun _ _ _ e => (nomatch e)⟩

theorem WellFormedRange.easlTregWrite (data : Word) : WellFormedRange.Statement (.easlTregWrite data) :=
  fun _ => ⟨fun _ _ e => (nomatch e), fun _ _ _ e => (nomatch e), fun _ _ _ e => (nomatch e)⟩

theorem WellFormedRange.easlInject (data : Word) : WellFormedRange.Statement (.easlInject data) :=
  fun _ => ⟨fun _ _ e => (nomatch e), fun _ _ _ e => (nomatch e), fun _ _ _ e => (nomatch e)⟩

theorem WellFormedRange.restEntryComplete (s : Slice) : WellFormedRange.Statement (.restEntryComplete s) :=
  fun _ => ⟨fun _ _ e => (nomatch e), fun _ _ _ e => (nomatch e), fun _ _ _ e => (nomatch e)⟩

theorem WellFormedRange.remoteDramResponse (t : Tid) (failed : Bool) : WellFormedRange.Statement (.remoteDramResponse t failed) :=
  fun _ => ⟨fun _ _ e => (nomatch e), fun _ _ _ e => (nomatch e), fun _ _ _ e => (nomatch e)⟩

theorem WellFormedRange.tripPinInactive (s : Slice) (pin : Fin 8) : WellFormedRange.Statement (.tripPinInactive s pin) :=
  fun _ => ⟨fun _ _ e => (nomatch e), fun _ _ _ e => (nomatch e), fun _ _ _ e => (nomatch e)⟩

theorem WellFormedRange.tamperSenseEnd (i : Fin 6) : WellFormedRange.Statement (.tamperSenseEnd i) :=
  fun _ => ⟨fun _ _ e => (nomatch e), fun _ _ _ e => (nomatch e), fun _ _ _ e => (nomatch e)⟩

theorem WellFormedRange.pkgResetNRelease : WellFormedRange.Statement (.pkgResetNRelease) :=
  fun _ => ⟨fun _ _ e => (nomatch e), fun _ _ _ e => (nomatch e), fun _ _ _ e => (nomatch e)⟩

theorem WellFormedRange.easelAccessDone : WellFormedRange.Statement (.easelAccessDone) :=
  fun _ => ⟨fun _ _ e => (nomatch e), fun _ _ _ e => (nomatch e), fun _ _ _ e => (nomatch e)⟩

theorem WellFormedRange.ptpIntervalExpiry (p : Slice) (n : Fin 2) (pdelay : Bool) : WellFormedRange.Statement (.ptpIntervalExpiry p n pdelay) :=
  fun _ => ⟨fun _ _ e => (nomatch e), fun _ _ _ e => (nomatch e), fun _ _ _ e => (nomatch e)⟩

theorem WellFormedRange.pdelayResponse (p : Slice) (n : Fin 2) (ps : BitVec 64) : WellFormedRange.Statement (.pdelayResponse p n ps) :=
  fun _ => ⟨fun _ _ e => (nomatch e), fun _ _ _ e => (nomatch e), fun _ _ _ e => (nomatch e)⟩

end Sys2Proof.Laws
end

