-- ==== Sys2Proof/Laws/Thread.lean ====
section
/-! SUPPORT. What the shared run of an instruction does: each lemma says once what an operation answers when the thread
is ready and its operands are renamed. -/

namespace Sys2Proof.Laws

open Sys2Proof Sys2Proof.Machine

/-- The checker copy of a core without an injected difference agrees. -/
@[simp] theorem compared_none (after before : State) (p t : Nat) : after.compared before none p t = after := rfl

/-- An instruction that is fetched acts on the state that its fetch leaves. -/
theorem instr_ready (s u : State) (t : Tid) (len : Nat) (act : State → Except Stop State) (h : Ready s t len u) :
    s.instr t.panel t.index len act = match act u with
      | .ok v => v
      | .error e => e u := by
  cases ha : act u <;> simp [State.instr, h.1, h.2.1, h.2.2, ha]

theorem thread_setThread (s : State) (p i : Nat) (v : Thread) : (s.setThread p i v).thread p i = v := by
  simp [State.thread]

theorem setThread_setThread (s : State) (p i : Nat) (v w : Thread) :
    (s.setThread p i v).setThread p i w = s.setThread p i w := by
  simp [State.setThread]

theorem wordsOf_map (l : List TWord) : wordsOf (l.map Slot.word) = some l := by
  induction l with
  | nil => rfl
  | cons w l ih => simp [wordsOf, ih]

/-- Entries that are renamed need no fill. -/
theorem need_renamed (s : State) (p i n : Nat) (h : n ≤ (s.thread p i).stack.length) : s.need p i n = .ok s := by
  have hd : ¬ (s.thread p i).depth < n := by simp [Thread.depth]; omega
  cases n with
  | zero => simp [State.need, State.fillTo]
  | succ n => simp [State.need, State.fillTo, hd, h]

/-- At most 16 entries need no spill. -/
theorem setStack_small (s : State) (p i : Nat) (l : List Slot) (h : l.length ≤ 16) :
    s.setStack p i l = .ok (s.setThread p i { s.thread p i with stack := l }) := by
  have : l.length - 16 = 0 := by omega
  simp [State.setStack, this, State.spillTo]

theorem peek_renamed (s : State) (t : Tid) (ws : List TWord) (rest : List Slot) (h : Operands s t ws rest) :
    s.peek t.panel t.index ws.length = .ok (ws, s) := by
  have hs : (s.thread t.panel t.index).stack = ws.map Slot.word ++ rest := h.1
  have hn := need_renamed s t.panel t.index ws.length (by simp [hs])
  have ht : (s.thread t.panel t.index).stack.take ws.length = ws.map Slot.word := by
    rw [hs, List.take_append_of_le_length (by simp)]
    exact List.take_of_length_le (by simp)
  simp [State.peek, hn, ht, wordsOf_map]

theorem peekAs_renamed (s : State) (t : Tid) (ws : List TWord) (rest : List Slot) (accepts : List TWord → Bool)
    (h : Operands s t ws rest) : s.peekAs t.panel t.index ws.length accepts = .ok (ws, s) := by
  simp [State.peekAs, peek_renamed s t ws rest h]

/-- A calculation over renamed operands: the words it leaves, or the fault it takes. -/
theorem calc_ready (s u : State) (t : Tid) (len : Nat) (ws : List TWord) (rest : List Slot)
    (f : Thread → List TWord → Except Nat (List TWord × Nat)) (h : Ready s t len u) (ho : Operands u t ws rest) :
    (∀ out fl, f (u.at t) ws = .ok (out, fl) → out.length + rest.length ≤ 16 →
      s.calc t len ws.length f = u.goOn t len (out.map Slot.word ++ rest) fl)
    ∧ (∀ c, f (u.at t) ws = .error c → s.calc t len ws.length f = u.faults t c) := by
  have hp := fun acc => peekAs_renamed u t ws rest acc ho
  have hs : (u.thread t.panel t.index).stack = ws.map Slot.word ++ rest := ho.1
  constructor
  · intro out fl hf hl
    have hf' : f (u.thread t.panel t.index) ws = .ok (out, fl) := hf
    have hd : (ws.map Slot.word ++ rest).drop ws.length = rest := by
      rw [List.drop_append]; simp
    have hlen : (out.map Slot.word ++ rest).length ≤ 16 := by simpa using hl
    simp only [State.calc, instr_ready s u t len _ h, hp, hf']
    by_cases h0 : fl = 0
    · subst h0
      simp [State.orFlags, State.replace, hs, hd, setStack_small u _ _ _ hlen, State.goOn, State.leave, State.at,
        State.after]
    · have hst : ((u.setThread t.panel t.index { u.thread t.panel t.index with
          flags := (u.thread t.panel t.index).flags ||| BitVec.ofNat 64 fl }).thread t.panel t.index).stack
            = ws.map Slot.word ++ rest := by rw [thread_setThread]; exact hs
      simp [State.orFlags, h0, State.replace, thread_setThread, hd, setStack_small _ _ _ _ hlen, State.goOn,
        State.leave, State.at, State.after, setThread_setThread, hs]
  · intro c hf
    have hf' : f (u.thread t.panel t.index) ws = .error c := hf
    simp [State.calc, instr_ready s u t len _ h, hp, hf', faultStop, State.faults, State.at]

/-- A rearrangement of renamed entries. -/
theorem rearrange_ready (s u : State) (t : Tid) (len n : Nat) (g : List Slot → List Slot) (h : Ready s t len u)
    (hn : n ≤ (u.at t).stack.length) (hl : (g (u.at t).stack).length ≤ 16) :
    s.rearrange t len n g = u.goOn t len (g (u.at t).stack) 0 := by
  have hn' : n ≤ (u.thread t.panel t.index).stack.length := hn
  simp [State.rearrange, instr_ready s u t len _ h, need_renamed u _ _ n hn',
    setStack_small u _ _ _ (show (g (u.thread t.panel t.index).stack).length ≤ 16 from hl), State.goOn, State.leave,
    State.at, State.after]

end Sys2Proof.Laws
end

