-- ==== Sys2Proof/Tests/Slice0.lean ====
section
/-! SUPPORT. Tests of the model: ill-formed commands are refused, worked values of the spec, and for each claim a
concrete state that meets what it assumes (`witness_` and the claim's name), most with the effect that follows. -/

namespace Sys2Proof.Tests

set_option Elab.async false

open Sys2Proof Sys2Proof.Machine

/-! ### States to test on -/

/-- A state with fields of pages set. -/
def put (s : State) (l : List (Nat × Fld × Nat)) : State := l.foldl (fun u x => u.setFld x.1 x.2.1 x.2.2) s

/-- The command goes on to a state of which this holds. -/
def gives (c : Instr) (s : State) (f : State → Bool) : Bool :=
  match exec c s with
  | .next u => f u
  | _ => false

/-- The state that a command leaves. -/
def after (c : Instr) (s : State) : State :=
  match exec c s with
  | .next u => u
  | _ => s

/-- The block of a page has met a host error (R4). -/
def upsets (c : Instr) (s : State) (pk : Nat) : Bool := gives c s (fun u => u.upset.contains pk)

/-- Every slice in one mode, tick 5000. -/
def inMode (m : Nat) : State :=
  put { State.reset with
    boot := .done
    ticks := 5000
    canvas := 5000
    supply := { banksDown := 0 } }
    ((List.range 8).flatMap (fun k => [(modePage k, MODE_STATE.MODE, m), (modePage k, MODE_STATE.UNDER, m)]))

/-- Every slice in `RUN`. -/
def live : State := inMode RUN

/-- The first thread of panel 0. -/
def t0 : Tid := ⟨0, 0⟩

/-- Its writes. -/
def by0 : Agent := .thread t0

/-- A thread that runs at 0x1000: privileged, with stacks in bank 1 and its vectors in bank 2. -/
def runner : Thread where
  run := .running
  pc := 0x1000
  status := 0x100
  osp := 0x48000
  osLo := 0x48000
  osHi := 0x4C000
  csp := 0x44000
  csLo := 0x40000
  csHi := 0x48000
  fsp := 0x50000
  vbase := 0x80000

/-- The first thread runs, in this state. -/
def withThread (s : State) (th : Thread) : State := s.setThread 0 0 th

/-- The first thread runs with these words on its operand stack, top first. -/
def withStack (s : State) (ws : List TWord) : State := withThread s { runner with stack := ws.map Slot.word }

/-- A thread that runs, and no operands. -/
def run0 : State := withThread live runner

/-- `Ready` as a Boolean. -/
def ready (s : State) (t : Tid) (len : Nat) : Bool :=
  s.canRun t.panel t.index && (match s.fetch t.panel t.index len with
    | .ok u => decide ((u.core t.panel (t.index.val / 4)).inject = none)
    | .error _ => false)

theorem ready_iff (s : State) (t : Tid) (len : Nat) : ready s t len = true ↔ ∃ u, Ready s t len u := by
  unfold ready Ready
  cases s.fetch t.panel t.index len <;> simp

/-- `Plain` as a Boolean. -/
def plain (s : State) (t : Tid) : Bool :=
  !s.journaled t.panel t.index && decide ((s.at t).adopted = none) && !s.tracing t.panel t.index

theorem plain_iff (s : State) (t : Tid) : plain s t = true ↔ Plain s t := by
  simp [plain, Plain, and_assoc]

/-- `PlainWord` as a Boolean. -/
def plainWord (s : State) (t : Tid) (a : Nat) : Bool :=
  decide (s.panelSpot t.panel a = .mem t.panel a .bank) && !s.bad t.panel a
    && decide (s.errorsIn 0 0 [memKey t.panel a] = [])
    && decide (∀ x ∈ s.bankWrites, (x.1, x.2.2) ≠ (t.panel.val, a)) && !s.journaled t.panel t.index && decide ((s.at t).adopted = none)

theorem plainWord_iff (s : State) (t : Tid) (a : Nat) : plainWord s t a = true ↔ PlainWord s t a := by
  simp only [plainWord, PlainWord, Bool.and_eq_true, Bool.not_eq_true', decide_eq_true_eq, and_assoc]

/-- `Operands` as a Boolean. -/
def operands (s : State) (t : Tid) (ws : List TWord) : Bool :=
  decide ((s.at t).stack = ws.map Slot.word) && decide (ws.length ≤ 16)

theorem operands_of (s : State) (t : Tid) (ws : List TWord) (h : operands s t ws = true) : Operands s t ws [] := by
  simp only [operands, Bool.and_eq_true, decide_eq_true_eq] at h
  exact ⟨by simpa using h.1, by simpa using h.2⟩

/-- `Allowed` as a Boolean. -/
def allowed (a n : Nat) : Bool :=
  decide (a + n ≤ 2 ^ 48) && !deviceSpace a && !deviceSpace (a + n - 1) && decide (¬ (a < 0x200000 ∧ 0x1C0000 < a + n))

theorem allowed_iff (a n : Nat) : allowed a n = true ↔ Allowed a n := by
  simp only [allowed, Allowed, Bool.and_eq_true, decide_eq_true_eq, Bool.not_eq_true', and_assoc]

/-- A write of this agent is accepted at a register. -/
def accepted (s : State) (ag : Agent) (pk off : Nat) : Bool := decide (s.verdict ag pk off = .accept)

/-- An event of a page has occurred. -/
def raised (u : State) (pk b : Nat) : Bool := (u.reg pk 0x020).getLsbD b

/-! ### Well-formed commands -/

/-- Delay lines of 100 taps each. -/
def taps : List (Nat × Nat) := List.replicate 16 (100, 100)

/-- Sampling lines of 100 taps each. -/
def lines : List Nat := List.replicate 16 100

/-- A slice that passes gesso. -/
def goodSlice : GessoSlice where
  steps := BitVec.allOnes 128
  taps := taps
  lines := lines
  trims := List.replicate 16 (0x4000, 0, true)
  checkers := BitVec.allOnes 20
  lockstepDetected := true
  repair := 0
  repairL2 := 0
  present := false
  registered := false
  capacity := 0
  maxSpeed := 0
  width := 0
  ranks := 0
  groups := 0
  banks := 0
  rows := 0
  trained := false

/-- An image that does not answer. -/
def noImage : Image where
  answers := false
  flash := []

theorem test_wellFormed_accepts :
    WellFormed (.br t0 (.s8 3)) = true ∧ WellFormed (.bz t0 (.s16 3)) = true ∧ WellFormed (.bnz t0 (.s16 (-3))) = true
    ∧ WellFormed (.stippleCalibration 0 taps lines) = true
    ∧ WellFormed (.primeEnd (List.replicate 8 goodSlice) noImage noImage) = true
    ∧ WellFormed (.ldT t0 (.s32 0) clearEnv) = true := by decide +kernel

theorem test_wellFormed_refuses :
    WellFormed (.br t0 (.s32 3)) = false ∧ WellFormed (.bz t0 (.s32 3)) = false
    ∧ WellFormed (.bnz t0 (.s32 3)) = false
    ∧ WellFormed (.stippleCalibration 0 (taps.drop 1) lines) = false
    ∧ WellFormed (.stippleCalibration 0 ((128, 100) :: taps.drop 1) lines) = false
    ∧ WellFormed (.stippleCalibration 0 ((100, 128) :: taps.drop 1) lines) = false
    ∧ WellFormed (.stippleCalibration 0 taps (lines.drop 1)) = false
    ∧ WellFormed (.stippleCalibration 0 taps (128 :: lines.drop 1)) = false
    ∧ WellFormed (.primeEnd (List.replicate 7 goodSlice) noImage noImage) = false
    ∧ WellFormed (.primeEnd (List.replicate 8 { goodSlice with taps := [] }) noImage noImage) = false
    ∧ WellFormed (.primeEnd (List.replicate 8 { goodSlice with lines := [] }) noImage noImage) = false
    ∧ WellFormed (.primeEnd (List.replicate 8 { goodSlice with trims := [] }) noImage noImage) = false := by
  decide +kernel

/-- The table gives no row bits: no word spells a command. -/
theorem test_decodeTableWord : decodeTableWord 0 0 = none ∧ decodeTableWord 64 0x1234 = none
    ∧ State.reset.withFetchWord 8 3 = State.reset := by decide +kernel

/-! ### The machine as a whole -/

theorem witness_StepRunsTheFrontCommand : live.pending = []
    ∧ gives (.canvasClockReturn 0) { live with pending := [.canvasClockReturn 0] } (fun u => u.pending != []) = true := by
  decide +kernel

theorem witness_ResetBeginsPrime : (0 : Nat) < 8 ∧ State.reset.mode 0 = PRIME ∧ State.reset.mode 7 = PRIME
    ∧ (State.reset.thread 7 15).run = .stopped ∧ State.reset.word 3 0x2000000 = voidWord := by decide +kernel

theorem witness_FusesOnlyGoForward : State.reset.fuses.state ≤ 4 ∧ State.reset.fuses.floor ≤ 64
    ∧ (step { State.reset with pending := [.pkgResetPin] } matches .next _) = true := by decide +kernel

/-- A byte store: the word it writes is listed. -/
def storing : State := withStack live [tword 0x90 0x2000, tword 0x21 0xAB]

theorem witness_MemoryStaysCanonical : Store.wf (fun _ => voidWord) storing.mem = true
    ∧ gives (.st8 t0 (.s8 0) clearEnv) storing (fun u => u.mem.length == 1 && Store.wf (fun _ => voidWord) u.mem) = true := by
  decide +kernel

/-- Canvas time has stopped with its clock (R119). -/
def clockless : State := live.setTrip 0 { live.trip 0 with clockMissing := true }

theorem witness_TickAdvancesCanvasTime : live.pending = [] ∧ live.timeStands = false ∧ live.canvasNext = none
    ∧ clockless.pending = [] ∧ clockless.timeStands = true
    ∧ ({ live with canvasNext := some 9000 } : State).timeStands = false := by decide +kernel

/-- Both bounds of R35, and one beyond each. -/
theorem witness_CanvasStepMovesTheNextTick : live.pending = [] ∧ live.timeStands = false
    ∧ (live.canvas : Int) + 1 + (BitVec.ofInt 64 (-5001)).toInt = 0
    ∧ (live.canvas : Int) + 1 + (BitVec.ofInt 64 (2 ^ 62 - 5002)).toInt = 2 ^ 62 - 1
    ∧ gives (.canvStep (BitVec.ofInt 64 (-5001))) live (fun u => u.canvas == 5000 && !u.timeStands
        && u.canvasNext == some 0) = true
    ∧ gives (.canvStep (BitVec.ofInt 64 (-5002))) live (fun u => u.canvasNext == none && raised u canvPage 5) = true
    ∧ gives (.canvStep (BitVec.ofInt 64 (2 ^ 62 - 5001))) live (fun u => u.canvasNext == none && raised u canvPage 5) = true := by
  decide +kernel

theorem witness_PanelPagesHaveNoTimedWrites : isPanelPage (panelPage 0 0) = true ∧ isPanelPage (panelPage 7 255) = true
    ∧ isPanelPage (sectorPage 7 4095) = false := by decide +kernel

/-! ### Registers, timed writes, events -/

/-- A write on its way. -/
def sent (pk off : Nat) (data : Word) (due : Option Nat) : Transfer where
  agent := by0
  origin := 0
  seq := 0
  page := pk
  off := off
  data := data
  due := due
  sent := 0
  ported := false
  addr := 0x80000110
  untimed := due.isNone
  entitled := false
  issued := 0
  secure := false

/-- A write of this tick has set `CTRL.LATE_APPLY`. -/
def rewritten : State :=
  { put run0 [(loopPage 0 2, HEAD.LATE_APPLY, 1)] with rwcNow := [⟨loopPage 0 2, 0x010, 0, by0, 0, false⟩] }

theorem witness_WritesActOrAreDropped :
    accepted run0 by0 (tmrPage 0 3) TMR_RELOAD.VALUE.off = true ∧ accepted run0 by0 (tmrPage 0 15) TMR_CMP.VALUE.off = true
    ∧ gives (.registerWrite by0 (.panel 0 99) (Fin.ofNat 512 (TMR_RELOAD.VALUE.off / 8)) 77) run0
        (fun u => u.fld (tmrPage 0 3) TMR_RELOAD.VALUE == 77) = true
    ∧ gives (.transferReady 0) { run0 with flight := [sent (tmrPage 0 15) TMR_CMP.VALUE.off 78 none] }
        (fun u => u.fld (tmrPage 0 15) TMR_CMP.VALUE == 78 && u.flight == []) = true
    ∧ accepted run0 by0 (loopPage 0 2) 0x048 = true ∧ 2 ^ 63 ≤ (0x8000000000000000 : Word).toNat
    ∧ run0.flag (loopPage 0 2) HEAD.LATE_APPLY = false ∧ isPanelPage (loopPage 0 2) = false
    ∧ gives (.lockCfg by0 (.sector 0 130)) run0 (fun u => u.lockDrops (loopPage 0 2) 0x010 0x8000000000000000) = true
    ∧ (run0.setReg (tmrPage 0 3) TMR_RELOAD.VALUE.off 77).illegal (tmrPage 0 3) TMR_RELOAD.VALUE.off = false
    ∧ run0.rwcNow = [] ∧ gives (.lockCfg by0 (.sector 0 130)) rewritten (fun u => u.flag (loopPage 0 2) HEAD.LOCK
      && !u.flag (loopPage 0 2) HEAD.LATE_APPLY) = true := by
  decide +kernel

/-- A full queue of sector 0. -/
def fullQueue : State :=
  { run0 with twq := List.replicate 256 ⟨loopPage 0 2, 0x110, 5, 0, 0, 9000, false⟩ }

/-- Writes of `LOOP_REF` on their way: untimed, for later, for now and too late. -/
def refWrite (s : State) (due : Option Nat) : State := { s with flight := [sent (loopPage 0 2) 0x110 1234 due] }

/-- Two writes of `LOOP_REF`, of origins 3 and 4. -/
def two (due : Nat) : List Queued :=
  [⟨loopPage 0 2, 0x110, 44, 4, 9, due, false⟩, ⟨loopPage 0 2, 0x110, 33, 3, 10, due, false⟩]

theorem witness_TimedWritesFollowTheirTick :
    accepted run0 by0 (loopPage 0 2) 0x110 = true
    ∧ gives (.transferReady 0) (refWrite run0 none) (fun u => u.waiting.length == 1 && u.twq == []) = true
    ∧ gives (.transferReady 0) (refWrite run0 (some 5000)) (fun u => u.twq.length == 1 && u.waiting == []) = true
    ∧ fullQueue.occupancy 0 = 256
    ∧ gives (.transferReady 0) (refWrite fullQueue (some 5000)) (fun u => u.twq.length == 256 && raised u (twqPage 0) 2) = true
    ∧ (refWrite run0 (some 4999)).flight[0]? = some (sent (loopPage 0 2) 0x110 1234 (some 4999)) ∧ 4999 < run0.canvas
    ∧ run0.flag (loopPage 0 2) HEAD.LATE_APPLY = false
    ∧ (put run0 [(loopPage 0 2, HEAD.LATE_APPLY, 1)]).flag (loopPage 0 2) HEAD.LATE_APPLY = true
    ∧ gives (.timedWriteDue 0) { run0 with twq := two 5000 } (fun u => u.fld (loopPage 0 2) LOOP_REF.VALUE == 44) = true
    ∧ gives (.timedWriteDue 0) { run0 with twq := (two 5000).reverse } (fun u => u.fld (loopPage 0 2) LOOP_REF.VALUE == 44) = true
    ∧ run0.present 0 = true ∧ run0.flag (loopPage 0 2) LOOP_CFG.EN = false
    ∧ gives (.updatePointApply (.sector 0 130)) { run0 with waiting := two 0 }
        (fun u => u.fld (loopPage 0 2) LOOP_REF.VALUE == 44 && u.waiting == []) = true := by decide +kernel

/-- Alarm 2 is armed for tick 5000. -/
def alarmed : State := put live [(canvPage, CANV_ALARM.EN.at 16, 1), (canvPage, CANV_ALARM.TICK.at 16, 5000)]

theorem witness_EventsAndAlarms :
    accepted run0 by0 (tmrPage 0 3) 0x030 = true ∧ (sourceOf (tmrPage 0 3) 2).isSome = true
    ∧ gives (.eventSet by0 (.panel 0 99) 4) run0 (fun u => u.reg (tmrPage 0 3) 0x020 == 4) = true
    ∧ alarmed.flag canvPage (CANV_ALARM.EN.at 16) = true ∧ alarmed.fld canvPage (CANV_ALARM.TICK.at 16) ≤ alarmed.canvas
    ∧ Store.read 0 alarmed.alarms 2 < alarmed.ticks
    ∧ gives (.canvAlarmFire 2) alarmed (fun u => raised u canvPage 12) = true
    ∧ gives (.canvAlarmFire 2) { alarmed with alarms := [(2, 5000)] } (fun u => !raised u canvPage 12) = true
    ∧ live.flag canvPage (CANV_ALARM.EN.at 0) = false := by decide +kernel

/-- Canvas discipline from sync frames. -/
def synced (more : List (Nat × Fld × Nat)) : State := put live ([(canvPage, CANV_DISC.SOURCE, 1)] ++ more)

/-- A frame of time `t` whose check is right. -/
def goodFrame (t : Nat) : BitVec 128 :=
  let f : BitVec 128 := BitVec.ofNat 128 (0xE5A3 * 2 ^ 112 + t * 2 ^ 48)
  BitVec.ofNat 128 (f.toNat + (syncCheck f).toNat)

theorem witness_DisciplineFollowsItsSource :
    (synced []).fld canvPage CANV_DISC.SOURCE = 1 ∧ (synced []).flag canvPage CANV_DISC_STATUS.HOLDOVER = false
    ∧ gives .syncSourceLost (synced []) (fun u => u.flag canvPage CANV_DISC_STATUS.HOLDOVER && raised u canvPage 7) = true
    ∧ gives .syncSourceReturn (synced [(canvPage, CANV_DISC_STATUS.HOLDOVER, 1)])
        (fun u => !u.flag canvPage CANV_DISC_STATUS.HOLDOVER) = true
    ∧ (goodFrame 4990).extractLsb' 112 16 = 0xE5A3 ∧ (goodFrame 4990).extractLsb' 0 16 = syncCheck (goodFrame 4990)
    ∧ gives (.syncFrameReceived 0 0) (synced []) (fun u => u.syncBad == 1 && raised u canvPage 9) = true
    ∧ gives (.syncFrameReceived 0 0) { synced [] with syncBad := 1 }
        (fun u => u.flag canvPage CANV_DISC_STATUS.HOLDOVER) = true
    ∧ (synced []).fld canvPage CANV_DISC.SLEW_LIMIT ≤ 5 := by decide +kernel

/-! ### Instructions that compute -/

/-- The first thread of a running panel, with any operand stack and status. -/
def able (stack : List TWord) (status : Word) : State :=
  withThread live { runner with
    stack := stack.map Slot.word
    status := status }

/-- The thread may run the command, which leaves these entries and flags, and goes on after its `len` bytes. -/
def does (c : Tid → Instr) (len : Nat) (stack : List TWord) (status : Word) (left : List TWord) (fl : Nat) : Bool :=
  let s := able stack status
  ready s t0 len && plain s t0 && gives (c t0) s (fun u => (u.at t0).stack == left.map Slot.word
    && (u.at t0).flags == BitVec.ofNat 64 fl && (u.at t0).pc == 0x1000 + len && (u.at t0).retired == 1)

/-- The thread may run the command, which takes this fault and keeps its operands. -/
def takes (c : Tid → Instr) (len : Nat) (stack : List TWord) (status : Word) (code : Nat) : Bool :=
  let s := able stack status
  ready s t0 len && gives (c t0) s (fun u => (u.at t0).fault == some (code, 0x1000, true)
    && (u.at t0).stack == stack.map Slot.word && (u.at t0).retired == 0)

/-- `INT` words, signed and unsigned; `FIX` with 8 fraction bits; `FLT`. -/
def i (v : Int) : TWord := tword 0x20 (BitVec.ofInt 64 v)
def n (v : Nat) : TWord := tword 0x21 (BitVec.ofNat 64 v)
def x8 (v : Int) : TWord := tword 0x48 (BitVec.ofInt 64 v)
def f (v : Word) : TWord := tword 0x60 v
def r (v : Word) : TWord := tword 0 v

/-- Privileged, with no trap enables; with `DZE`; with `OVE`; unprivileged (R174). -/
def priv : Word := 0x100
def dze : Word := 0x300
def ove : Word := 0x500
def user : Word := 0

theorem witness_StackMovesAndLiterals :
    (does .nop 1 [] priv [] 0 && does .dup 1 [i 5] priv [i 5, i 5] 0 && does .drop 1 [i 5] priv [] 0
    && does .swap 1 [i 1, i 2] priv [i 2, i 1] 0 && does .over 1 [i 1, i 2] priv [i 2, i 1, i 2] 0
    && does .rot 1 [i 1, i 2, i 3] priv [i 3, i 1, i 2] 0
    && does (.pick · 0) 2 [i 1] priv [i 1, i 1] 0
    && does (.pick · 14) 2 ((List.range 15).map (fun k => i k)) priv (i 14 :: (List.range 15).map (fun k => i k)) 0
    && does (.roll · 2) 2 [i 1, i 2, i 3] priv [i 3, i 1, i 2] 0
    && does (.dropn · 1) 2 [i 1, i 2] priv [i 2] 0
    && does (.dropn · 16) 2 ((List.range 16).map (fun k => i k)) priv [] 0
    && takes (.pick · 16) 2 [] priv UD && takes (.roll · 16) 2 [] priv UD && takes (.dropn · 0) 2 [] priv UD
    && takes (.dropn · 17) 2 [] priv UD && takes (.pick · 15) 2 [i 1] priv SB && takes (.dropn · 2) 2 [i 1] priv SB
    && does (.litS · (.i8 0xFF)) 2 [] priv [i (-1)] 0 && does (.litU · (.i8 0xFF)) 2 [] priv [n 255] 0
    && does (.litS · (.i16 0x8000)) 3 [] priv [i (-32768)] 0 && does (.litU · (.i32 0x80000000)) 5 [] priv [n 0x80000000] 0
    && does (.litS · (.i64 7)) 9 [] priv [i 7] 0 && does (.litR · 7) 9 [] priv [r 7] 0 && does (.litF · 7) 9 [] priv [f 7] 0
    && does .litV 1 [] priv [tword 0xE0 0] 0
    && does (.litC · (BitVec.ofInt 32 (-5))) 5 [] priv [tword 0xA0 0x1000] 0
    && does .depth 1 [i 1, i 2] priv [n 2, i 1, i 2] 0) = true := by decide +kernel

theorem witness_WholeNumbersWrapOrFault :
    intFits 0x20 (5 + 7) ∧ ¬ intFits 0x20 (2 ^ 63) ∧ intFits 0x21 (2 ^ 64 - 1) ∧ ¬ intFits 0x21 (-1) ∧
    (does .add 1 [i 7, i 5] priv [i 12] 0
    && does .add 1 [i 1, i (2 ^ 63 - 1)] priv [i (-2 ^ 63)] 1 && takes .add 1 [i 1, i (2 ^ 63 - 1)] ove OV
    && does .sub 1 [n 6, n 5] priv [n (2 ^ 64 - 1)] 1 && takes .sub 1 [n 6, n 5] ove OV
    && does .mul 1 [i (-3), i 5] ove [i (-15)] 0 && does .neg 1 [i 5] priv [i (-5)] 0
    && does .neg 1 [i (-2 ^ 63)] priv [i (-2 ^ 63)] 1 && does .abs 1 [i (-5)] priv [i 5] 0
    && takes .neg 1 [n 5] priv TY && takes .abs 1 [n 5] priv TY
    && takes .div 1 [i (-1), i (-2 ^ 63)] ove OV && does .div 1 [i (-1), i (-2 ^ 63)] priv [i (-2 ^ 63)] 1
    && does .shl 1 [n 65, i 3] priv [i 6] 0 && does .shr 1 [i 63, i (-1)] priv [i 1] 0
    && does .sar 1 [i 63, i (-1)] priv [i (-1)] 0 && does (.shli · 63) 2 [i 3] priv [i (-2 ^ 63)] 0
    && does (.shri · 0) 2 [i 3] priv [i 3] 0 && does (.sari · 1) 2 [i (-4)] priv [i (-2)] 0) = true := by
  unfold intFits; decide +kernel

/-- The first row is the worked example of chapter 9: `ALIGN` 8 and `SAT` 32 of 1600.296875 (R189, R190). -/
theorem witness_FixedPointAndDivision :
    (does (.align · 8) 2 [tword 0x50 0x06404C00] priv [x8 0x06404C] 0 && does (.sat · 32) 2 [x8 0x06404C] priv [x8 0x06404C] 0
    && does .add 1 [x8 0x180, x8 0x100] priv [x8 0x280] 0 && does .sub 1 [x8 0x180, x8 0x100] priv [x8 (-0x80)] 0
    && does .neg 1 [x8 3] priv [x8 (-3)] 0 && does .abs 1 [x8 (-3)] priv [x8 3] 0
    && does .mul 1 [x8 0x180, x8 0x180] priv [x8 0x240] 0 && does .mul 1 [x8 1, x8 (-128)] priv [x8 0] 0
    && does .div 1 [x8 0x200, x8 0x300] priv [x8 0x180] 0
    && does .add 1 [x8 1, x8 (2 ^ 63 - 1)] priv [x8 (2 ^ 63 - 1)] 1 && takes .add 1 [x8 1, x8 (2 ^ 63 - 1)] ove OV
    && does (.align · 31) 2 [x8 1] priv [tword 0x5F 0x800000] 0
    && does .mulh 1 [n (2 ^ 64 - 1), n (2 ^ 64 - 1)] priv [n (2 ^ 64 - 2)] 0 && does .mulh 1 [i (-1), i 1] priv [i (-1)] 0
    && does .div 1 [i 2, i (-7)] priv [i (-3)] 0 && does .rem 1 [i 2, i (-7)] priv [i (-1)] 0
    && takes .rem 1 [i 0, i 7] dze DZ && does .rem 1 [i 0, i 7] priv [i 7] 2
    && takes .div 1 [n 0, n 7] dze DZ && does .div 1 [n 0, n 7] priv [n (2 ^ 64 - 1)] 2
    && does .div 1 [i 0, i (-7)] priv [i (-2 ^ 63)] 2 && does .div 1 [x8 0, x8 7] priv [x8 (2 ^ 63 - 1)] 2) = true := by
  decide +kernel

theorem witness_SatClampsToWidth :
    (does (.sat · 1) 2 [i 5] priv [i 0] 0 && does (.sat · 8) 2 [i (-200)] priv [i (-128)] 0
    && does (.sat · 64) 2 [i (-2 ^ 63)] priv [i (-2 ^ 63)] 0 && does (.sat · 8) 2 [n 300] priv [n 255] 0
    && does (.sat · 64) 2 [n (2 ^ 64 - 1)] priv [n (2 ^ 64 - 1)] 0
    && does (.sat · 8) 2 [x8 300] ove [x8 127] 0) = true := by decide +kernel

/-- A pointer of each permission (R169, R178). -/
def ptr (perm : Nat) (a : Nat) : TWord := tword perm (BitVec.ofNat 64 a)

theorem witness_PointersKeepTheirBounds :
    (does .add 1 [i (-8), ptr 0x90 8] priv [ptr 0x90 0] 0 && takes .add 1 [i (-9), ptr 0x90 8] priv AC
    && does .add 1 [n 1, ptr 0x80 (2 ^ 48 - 2)] priv [ptr 0x80 (2 ^ 48 - 1)] 0
    && takes .add 1 [n 1, ptr 0x98 (2 ^ 48 - 1)] priv AC && does .sub 1 [n 8, ptr 0x88 8] priv [ptr 0x88 0] 0
    && takes .sub 1 [n 9, ptr 0x88 8] priv AC && does .sub 1 [ptr 0x98 24, ptr 0x80 8] priv [i (-16)] 0
    && does (.ptrr · 0) 2 [ptr 0x98 8] priv [ptr 0x98 8] 0 && does (.ptrr · 0x10) 2 [ptr 0x98 8] priv [ptr 0x88 8] 0
    && does (.ptrr · 0x18) 2 [ptr 0x90 8] priv [ptr 0x80 8] 0
    && takes (.tagset · 0x98) 2 [i 5] user PV) = true := by decide +kernel

theorem witness_LogicAndComparisons :
    (does .and 1 [i 6, i 3] priv [i 2] 0 && does .or 1 [r 6, r 3] priv [r 7] 0 && does .xor 1 [n 6, n 3] priv [n 5] 0
    && does .not 1 [r 0] priv [r (-1)] 0 && takes .and 1 [i 6, n 3] priv TY && takes .or 1 [r 6, n 3] priv TY
    && takes .xor 1 [x8 6, i 3] priv TY && does .shl 1 [i 4, r 1] priv [r 16] 0 && does .sar 1 [n 1, r (-2)] priv [r (-1)] 0
    && does (.shri · 63) 2 [r (-1)] priv [r 1] 0 && takes (.shli · 64) 2 [i 1] priv UD && takes (.sari · 255) 2 [i 1] priv UD
    && does .eq 1 [i 3, i 3] priv [n 1] 0 && does .eq 1 [i 3, n 3] priv [n 0] 0 && does .ne 1 [r 3, n 3] priv [n 1] 0
    && does .lt 1 [i 1, i (-1)] priv [n 1] 0 && does .lt 1 [n 1, n (2 ^ 64 - 1)] priv [n 0] 0
    && does .le 1 [x8 1, x8 1] priv [n 1] 0 && does .min 1 [i 1, i (-1)] priv [i (-1)] 0
    && does .max 1 [n 1, n 2] priv [n 2] 0 && does .eqz 1 [x8 0] priv [n 1] 0 && does .eqz 1 [r 1] priv [n 0] 0
    && does .lt 1 [ptr 0x80 9, ptr 0x98 8] priv [n 1] 0 && does .le 1 [ptr 0x90 8, ptr 0x88 9] priv [n 0] 0
    && !malformed (i 3) && decide (tagOf (i 3) < 0xE0)) = true := by decide +kernel

/-- 1.5 × 2.0, 1.5 + 2.0, 9.0 square root, and comparisons with a NaN (IEEE 754; R191). -/
theorem witness_FloatInstructionsStayInClass :
    (does .fmul 1 [f 0x4000000000000000, f 0x3FF8000000000000] priv [f 0x4008000000000000] 0
    && does .fadd 1 [f 0x4000000000000000, f 0x3FF8000000000000] priv [f 0x400C000000000000] 0
    && does .fsub 1 [f 0x4000000000000000, f 0x3FF8000000000000] priv [f 0xBFE0000000000000] 0
    && does .fdiv 1 [f 0x4000000000000000, f 0x4008000000000000] priv [f 0x3FF8000000000000] 0
    && does .fdiv 1 [f 0, f 0x4008000000000000] dze [f 0x7FF0000000000000] 2
    && does .fsqrt 1 [f 0x4022000000000000] priv [f 0x4008000000000000] 0
    && does .fneg 1 [f 0x4000000000000000] priv [f 0xC000000000000000] 0
    && does .fabs 1 [f 0xC000000000000000] priv [f 0x4000000000000000] 0
    && does .feq 1 [f 0x7FF8000000000000, f 0x7FF8000000000000] priv [n 0] 0
    && does .flt 1 [f 0x4000000000000000, f 0x3FF8000000000000] priv [n 1] 0
    && does .fle 1 [f 0x7FF0000000000000, f 0x7FF0000000000000] priv [n 1] 0
    && does .cvtIf 1 [i (-3)] priv [f 0xC008000000000000] 0 && does .cvtXf 1 [x8 0x180] priv [f 0x3FF8000000000000] 0
    && does .cvtFi 1 [f 0x7FF8000000000000] priv [i 0] 0 && does .cvtFi 1 [f 0x4008000000000000] priv [i 3] 0
    && does .cvtFi 1 [f 0x7FF0000000000000] priv [i (2 ^ 63 - 1)] 1 && takes .cvtFi 1 [f 0x7FF0000000000000] ove OV
    ) = true := by decide +kernel

theorem witness_TagsAndEmptyWords :
    (does .tag 1 [x8 3] priv [n 0x48, x8 3] 0 && does (.retag · 0) 2 [x8 3] priv [r 3] 0
    && takes (.retag · 0x80) 2 [x8 3] priv TY && does (.retag · 0) 2 [ptr 0x98 8] priv [r 8] 0
    && takes (.retag · 0x20) 2 [ptr 0x98 8] priv TY && takes (.retag · 0x22) 2 [i 1] priv UD
    && does (.tagset · 0x98) 2 [r 8] priv [ptr 0x98 8] 0
    && takes .add 1 [tword 0xE0 0, i 1] priv TY && takes .fadd 1 [f 0, tword 0xE2 0] priv TY
    && takes .eq 1 [tword 0x80 (BitVec.ofNat 64 (2 ^ 48)), i 1] priv TY && takes .neg 1 [tword 0x22 0] priv TY
    && takes .add 1 [i 1] priv SB && takes .neg 1 [] priv SB
    && tagListed 0x98 && !tagListed 0x22 && malformed (tword 0x22 0)) = true := by decide +kernel

/-! ### Control flow, memory, special registers -/

/-- A state with words of panel 0's memory. -/
def words (s : State) (l : List (Nat × TWord)) : State := l.foldl (fun u x => u.setWord 0 x.1 x.2) s

/-- The thread goes on here with these entries. -/
def goes (u : State) (pc : Nat) (left : List TWord) : Bool :=
  (u.at t0).pc == pc && (u.at t0).stack == left.map Slot.word

theorem witness_RetiringChangesOneThread : plain run0 t0 = true ∧ (run0.at t0).fault = none
    ∧ (run0.goOn t0 2 [.word (i 3)] 1).at t0 = { run0.at t0 with
      stack := [.word (i 3)]
      flags := 1
      pc := 0x1002
      retired := 1
      group := some (0x1000, 1) } := by decide +kernel

theorem witness_BranchesFollowTheirOperand :
    plain run0 t0 = true ∧ ready run0 t0 2 = true ∧ ready run0 t0 3 = true
    ∧ gives (.br t0 (.s8 (-2))) run0 (fun u => goes u 0x1000 []) = true
    ∧ gives (.bz t0 (.s16 0x100)) (able [i 0] priv) (fun u => goes u 0x1103 []) = true
    ∧ gives (.bz t0 (.s8 0x10)) (able [n 1] priv) (fun u => goes u 0x1002 []) = true
    ∧ gives (.bnz t0 (.s8 0x10)) (able [n 1] priv) (fun u => goes u 0x1012 []) = true
    ∧ takes (.bz · (.s8 0)) 2 [r 0] priv TY = true ∧ takes (.bnz · (.s8 0)) 2 [x8 0] priv TY = true
    ∧ ready (able [tword 0xA0 0x2000] priv) t0 1 = true ∧ operands (able [tword 0xA0 0x2000] priv) t0 [tword 0xA0 0x2000] = true
    ∧ takes .jmp 1 [n 0x2000] priv TY = true := by decide +kernel

theorem witness_CallsAndReturns :
    (let s := able [i 1, i 2] priv
    plain s t0 && ready s t0 5 && plainWord s t0 0x43FF8 && plainWord s t0 0x43FF0 && allowed 0x43FF0 16
    && decide ((s.at t0).csLo.toNat ≤ (s.at t0).csp.toNat - 16)
    && gives (.call t0 0x100 2 1) s (fun u => goes u 0x1105 [i 1, i 2] && u.word 0 0x43FF8 == tword 0xC5 1
      && u.word 0 0x43FF0 == tword 0xC4 0x1005 && (u.at t0).csp == 0x43FF0)
    && takes (.call · 0 3 0) 5 [i 1, i 2] priv SB
    && ready (able [tword 0xA0 0x3000, i 1] priv) t0 2 && operands (able [tword 0xA0 0x3000, i 1] priv) t0 [tword 0xA0 0x3000, i 1]
    && takes (.calli · 2 1) 2 [tword 0xA0 0x3000, i 1] priv SB
    && (let s := words (able [i 1] priv) [(0x44000, tword 0xC4 0x2000), (0x44008, tword 0xC5 1)]
      ready s t0 1 && plainWord s t0 0x44018 && allowed 0x44000 32
      && gives (.ret t0) s (fun u => goes u 0x2000 [i 1] && (u.at t0).csp == 0x44010))
    && gives (.ret t0) (words (able [] priv) [(0x44000, tword 0xC4 0x2000), (0x44008, tword 0xC5 1)])
      (fun u => (u.at t0).fault == some (SI, 0x1000, true))
    && gives (.ret t0) (words (able [] priv) [(0x44000, tword 0xC4 0x2000), (0x44008, n 0)])
      (fun u => (u.at t0).fault == some (TY, 0x1000, true))
    && takes .reti 1 [] user PV
    && (let frame := [(0x44000, tword 0xC3 1), (0x44008, tword 0xC2 0x1F), (0x44010, tword 0xC1 0x2000),
        (0x44018, tword 0xC0 0)]
      gives (.reti t0) (words (able [i 1] priv) frame) (fun u => goes u 0x2000 [i 1] && (u.at t0).status == 0x1F
        && (u.at t0).csp == 0x44020)
      && gives (.reti t0) (words (able [] priv) frame) (fun u => (u.at t0).fault == some (SI, 0x1000, true))
      && gives (.reti t0) (words (able [] priv) (frame.drop 1)) (fun u => (u.at t0).fault == some (TY, 0x1000, true)))
    ) = true := by decide +kernel

/-- Two words at 0x2000, and a pointer on the stack. -/
def loading (perm a : Nat) (more : List TWord) : State :=
  words (able (ptr perm a :: more) priv) [(0x2000, i 0x8877665544332211), (0x2008, tword 0xC0 0xFF)]

theorem witness_LoadsReadLittleEndian :
    (let s := loading 0x80 0x2000 []
    ready s t0 2 && ready s t0 5 && operands s t0 [ptr 0x80 0x2000] && allowed 0x2000 8 && allowed 0x2007 2
    && plainWord s t0 0x2000 && plainWord s t0 0x2008 && isClass 4 (ptr 0x80 0x2000)
    && gives (.ldT t0 (.s8 8) clearEnv) s (fun u => goes u 0x1002 [tword 0xC0 0xFF])
    && gives (.ldR t0 (.s8 0) clearEnv) s (fun u => goes u 0x1002 [r 0x8877665544332211])
    && gives (.ldR t0 (.s8 4) clearEnv) s (fun u => goes u 0x1002 [r 0xFF88776655])
    && gives (.ldS32 t0 (.s16 4) clearEnv) s (fun u => goes u 0x1003 [tword 0x20 0xFFFFFFFF88776655])
    && gives (.ldU32 t0 (.s32 0) clearEnv) s (fun u => goes u 0x1005 [n 0x44332211])
    && gives (.ldS16 t0 (.s8 6) clearEnv) s (fun u => goes u 0x1002 [tword 0x20 0xFFFFFFFFFFFF8877])
    && gives (.ldU16 t0 (.s8 7) clearEnv) s (fun u => goes u 0x1002 [n 0xFF88])
    && gives (.ldS8 t0 (.s8 7) clearEnv) s (fun u => goes u 0x1002 [tword 0x20 0xFFFFFFFFFFFFFF88])
    && gives (.ldU8 t0 (.s8 8) clearEnv) s (fun u => goes u 0x1002 [n 0xFF])) = true := by decide +kernel

theorem witness_StoresWriteTheirBytes :
    (let s := loading 0x90 0x2000 [n 0xA1B2C3D4]
    ready s t0 2 && operands s t0 [ptr 0x90 0x2000, n 0xA1B2C3D4] && allowed 0x2006 4
    && plainWord s t0 0x2000 && plainWord s t0 0x2008
    && gives (.stT t0 (.s8 0) clearEnv) s (fun u => goes u 0x1002 [] && u.word 0 0x2000 == n 0xA1B2C3D4)
    && gives (.stR t0 (.s8 0) clearEnv) s (fun u => u.word 0 0x2000 == r 0xA1B2C3D4)
    && gives (.st32 t0 (.s8 6) clearEnv) s (fun u => u.word 0 0x2000 == r 0xC3D4665544332211 && u.word 0 0x2008 == r 0xA1B2)
    && gives (.st16 t0 (.s8 1) clearEnv) s (fun u => u.word 0 0x2000 == r 0x8877665544C3D411)
    && gives (.st8 t0 (.s8 15) clearEnv) s (fun u => u.word 0 0x2008 == r 0xD4000000000000FF)) = true := by decide +kernel

/-- A load of DRAM that is there. -/
def trained : State :=
  put (able [ptr 0x80 0x10000000000] priv) [(ddrcPage 0, DDRC_STATE.TRAINED, 1), (ddrcPage 0, DDRC_MODULE.CAPACITY, 16)]

theorem witness_ChecksAndMisses :
    (takes (.ldT · (.s8 4) clearEnv) 2 [ptr 0x80 0x2000] priv AL && takes (.ldR · (.s8 4) clearEnv) 2 [ptr 0x88 0x40000000] priv AL
    && takes (.ldS32 · (.s8 (-8)) clearEnv) 2 [ptr 0x80 0] priv AC
    && takes (.ldU8 · (.s8 8) clearEnv) 2 [ptr 0x80 (2 ^ 48 - 8)] priv AC
    && takes (.ldU16 · (.s8 0) clearEnv) 2 [ptr 0x88 0x40000000] priv AC && takes (.ldR · (.s8 0) clearEnv) 2 [ptr 0x80 0xFFFFFFF8] priv AC
    && takes (.ldS8 · (.s8 0) clearEnv) 2 [ptr 0x80 0x200000] priv BE
    && decide (regionOf 0 0x200000 = .unmapped)
    && takes (.stR · (.s8 0) clearEnv) 2 [ptr 0x80 0x2000, i 1] priv AC && takes (.st8 · (.s8 (-8)) clearEnv) 2 [ptr 0x90 0, i 1] priv AC
    && takes (.stT · (.s8 0) clearEnv) 2 [ptr 0x98 0x40000000, i 1] priv AC
    && (let s := able [ptr 0x80 0x10000000000] priv
      ready s t0 2 && plain s t0 && allowed 0x10000000000 8)
    && (let s := trained
      decide (s.panelSpot 0 0x10000000000 = .mem 0 0x10000000000 .cached)
      && gives (.ldT t0 (.s8 0) clearEnv) s (fun u =>
        (u.at t0).park == some .dataMiss && (u.at t0).misses == 0x100000001)
      && (let filled := after (.cacheFillComplete t0) (after (.ldT t0 (.s8 0) clearEnv) s)
        let far := filled.dropL1 0 0 false 0x400000000
        (filled.at t0).park == none && filled.inL2 0 0x200000000
        && gives (.ldT t0 (.s8 0) clearEnv) filled (fun u => goes u 0x1002 [voidWord] && (u.at t0).misses == 0x100000001)
        && ((far.l1Set 0 0 false 0x400000000).way 0x400000000).isNone
        && gives (.ldT t0 (.s8 0) clearEnv) far (fun u => goes u 0x1002 [voidWord] && (u.at t0).misses == 0x100000002
          && ((u.l1Set 0 0 false 0x400000000).way 0x400000000).isSome)))
    && gives (.cacheFillComplete t0) (withThread live { runner with
        park := some .fetchMiss
        missing := some (0x10000000000, true) }) (fun u => (u.at t0).park == none)) = true := by decide +kernel

/-- A page of the sector, read and written by its owner. -/
def device : Nat := 0x80080110

theorem witness_DeviceAccessesWait :
    (let s := able [ptr 0x88 device] priv
    let l : Thread := { runner with
      stack := [.pending 7]
      loads := [⟨7, device, 4000, 5030, false⟩]
      waitsFor := 7
      park := some .deviceLoad }
    let w (native : Bool) (err : Bool) : State := withThread live { runner with
      stores := [⟨device, native, some err, 5030⟩]
      park := if native then some .store else none }
    plain s t0 && ready s t0 2 && decide (regionOf 0 device = .page (loopPage 0 0) 0x110) && timedTarget device
    && gives (.ldR t0 (.s8 0) clearEnv) s (fun u => (u.at t0).stack == [.pending 0] && (u.at t0).park == some .deviceLoad
      && (u.at t0).loads.map (fun x => (x.id, x.addr, x.sent)) == [(0, device, 5000)])
    && plain (withThread live l) t0
    && gives (.deviceLoadResponse t0 true) (withThread live l) (fun u => goes u 0x1000 [tword 0xE2 0])
    && gives (.deviceLoadResponse t0 false) (withThread live l) (fun u => (u.at t0).park == none && (u.at t0).loads == [])
    && gives (.stR t0 (.s8 0) clearEnv) (able [ptr 0x98 device, n 5] priv) (fun u => u.flight.length == 1
      && (u.at t0).park == some .store && goes u 0x1002 [])
    && gives (.stR t0 (.s8 0) clearEnv) (able [ptr 0x98 device, n 5] 0x1100) (fun u => (u.at t0).park == none)
    && gives (.stt t0 (.s8 0)) (able [ptr 0x98 device, n (2 ^ 62 - 1), n 5] priv) (fun u =>
      u.flight.map Transfer.due == [some (2 ^ 62 - 1)])
    && takes (.stt · (.s8 0)) 2 [ptr 0x98 device, n (2 ^ 62), n 5] priv AC
    && takes (.stt · (.s8 0)) 2 [ptr 0x98 0x40000000, n 9000, n 5] priv AC
    && gives (.storeResponse t0) (w true false) (fun u => (u.at t0).park == none && (u.at t0).fault == none)
    && gives (.storeResponse t0) (w true true) (fun u => (u.at t0).fault == some (BE, 0x1000, false))
    && gives (.storeResponse t0) (w false false) (fun u => (u.at t0).stores == [])
    && gives (.storeResponse t0) (w false true) (fun u => (u.at t0).imprecise == BitVec.ofNat 64 (2 ^ 63 + device))
    ) = true := by decide +kernel

theorem witness_AtomicsActOnScratchBanks :
    (let s := words (able [ptr 0x90 0x2000, i 3] priv) [(0x2000, i 4)]
    ready s t0 2 && allowed 0x2000 8 && plainWord s t0 0x2000
    && gives (.aadd t0 0 clearEnv) s (fun u => goes u 0x1002 [i 4] && u.word 0 0x2000 == i 7)
    && gives (.aswap t0 0 clearEnv) s (fun u => goes u 0x1002 [i 4] && u.word 0 0x2000 == i 3)
    && gives (.aadd t0 0 clearEnv) (words s [(0x2000, n 4)]) (fun u => (u.at t0).fault == some (TY, 0x1000, true))
    && gives (.aswap t0 0 clearEnv) (words (able [ptr 0x90 0x2000, i 3] user) [(0x2000, tword 0xC0 4)])
      (fun u => (u.at t0).fault == some (TY, 0x1000, true))
    && takes (.aadd · 4 clearEnv) 2 [ptr 0x90 0x2000, i 3] priv AL && takes (.aswap · 0 clearEnv) 2 [ptr 0x90 0x200000, i 3] priv AC
    && takes (.aadd · 0 clearEnv) 2 [ptr 0x90 0x10000000000, i 3] priv AC) = true := by decide +kernel

/-- The first row is a step of the worked example of chapter 10 (R192, R200): each element of `BMOVE` moves the pointers
by 8 and counts, and the last one counts twice. -/
theorem witness_LongAndWaitingInstructions :
    (let s := words (able [n 64, ptr 0x90 0x50000, ptr 0x80 0x40000] priv) [(0x40000, x8 77)]
    ready s t0 2 && plain s t0 && allowed 0x50000 8 && plainWord s t0 0x50000 && plainWord s t0 0x40000
    && gives (.bmove t0 clearEnv) s (fun u => goes u 0x1000 [n 63, ptr 0x90 0x50008, ptr 0x80 0x40008]
      && u.word 0 0x50000 == x8 77 && (u.at t0).retired == 1)
    && gives (.bmove t0 clearEnv) (able [n 1, ptr 0x90 0x50000, ptr 0x80 0x40000] priv) (fun u =>
      goes u 0x1002 [n 0, ptr 0x90 0x50008, ptr 0x80 0x40008] && (u.at t0).retired == 2)
    && gives (.bmove t0 clearEnv) (able [n 0, ptr 0x90 0x50000, ptr 0x80 0x40000] priv) (fun u =>
      goes u 0x1002 [n 0, ptr 0x90 0x50000, ptr 0x80 0x40000] && (u.at t0).retired == 1)
    && gives (.bfill t0 clearEnv) (able [n 2, ptr 0x90 0x50000, i 9] priv) (fun u =>
      goes u 0x1000 [n 1, ptr 0x90 0x50008, i 9] && u.word 0 0x50000 == i 9)
    && (let d := words (able [n 2, ptr 0x90 0x50000, ptr 0x80 0x40000, x8 0x100] priv) [(0x40000, x8 0x200), (0x50000, x8 0x180)]
      gives (.dotx t0 clearEnv) d (fun u => goes u 0x1000 [n 1, ptr 0x90 0x50008, ptr 0x80 0x40008, x8 0x400]))
    && gives (.dotx t0 clearEnv) (words (able [n 2, ptr 0x90 0x50000, ptr 0x80 0x40000, x8 (2 ^ 63 - 1)] ove)
      [(0x40000, x8 0x200), (0x50000, x8 0x180)]) (fun u => (u.at t0).fault == some (OV, 0x1000, true))
    && gives (.wfe t0) run0 (fun u => (u.at t0).park == some .wfe && goes u 0x1001 [])
    && gives (.fence t0) run0 (fun u => goes u 0x1001 [])
    && gives (.fence t0) (withThread live { runner with stores := [⟨device, false, none, 0⟩] }) (fun u => goes u 0x1000 [])
    && gives (.yield t0) (run0.setThread 0 1 runner) (fun u => (u.at t0).yielded == [1])) = true := by decide +kernel

/-- The CRC-32 of "1", started from all ones and complemented, is 0x83DCEFB7 (IEEE 802.3). -/
theorem test_crc32 : gives (.crc32 t0 clearEnv) (words (able [n 1, ptr 0x80 0x2000, n 0xFFFFFFFF] priv) [(0x2000, r 0x31)])
    (fun u => goes u 0x1002 [n 0, ptr 0x80 0x2001, n (0xFFFFFFFF - 0x83DCEFB7)]) = true := by decide +kernel

theorem witness_SpecialRegistersReadAndWrite :
    (let s := able [n 0x7F] priv
    ready s t0 3 && plain s t0
    && gives (.srr t0 0x04) run0 (fun u => goes u 0x1003 [n 0x44000])
    && gives (.srr t0 0x40) (run0.setThread 0 0 runner) (fun u => goes u 0x1003 [n 0])
    && gives (.srr t0 0x52) run0 (fun u => goes u 0x1003 [n 0x3FF])
    && takes (.srr · 0x0A) 3 [] priv UD && takes (.srr · 0x55) 3 [] priv UD && takes (.srr · 0x4C) 3 [] priv UD
    && gives (.srw t0 0x00) (able [n 0xFFFFFFFF] priv) (fun u => goes u 0x1003 [] && (u.at t0).status == 0x1F1F)
    && gives (.srw t0 0x07) (able [r (-1)] priv) (fun u => (u.at t0).vbase == 0xFFFFFFFFFFF8)
    && gives (.srw t0 0x48) (able [n 0xFF] priv) (fun u => (u.panel 0).l2lock == 0xFF)
    && gives (.srw t0 0x48) (able [n 0xFFFF] priv) (fun u => goes u 0x1003 [])
    && gives (.srw t0 0x40) (able [n 1] priv) (fun u => goes u 0x1003 [])
    && takes (.srw · 0x04) 3 [n 0] user PV && takes (.srw · 0x0B) 3 [n 0] priv UD
    && gives (.srw t0 0x09) (able [n 0x107] user) (fun u => (u.at t0).flags == 0x100)
    && gives (.srw t0 0x01) (able [n 0x49007, i 1, i 2] priv) (fun u => (u.at t0).osp == 0x49000 && u.word 0 0x48000 == i 2
      && u.word 0 0x48008 == i 1)
    && gives (.srw t0 0x03) (able [n 0x4F000, i 1, i 2] priv) (fun u => (u.at t0).osp == 0x48010 && (u.at t0).osHi == 0x4F000)
    && plainWord run0 t0 0x48000 && plainWord run0 t0 0x48008 && allowed 0x48000 16) = true := by decide +kernel

/-- Pages of the package belong to panel 0. -/
theorem witness_ClearsClearOnlyTheirCounts :
    ([(twqPage 0, 0x010), (canvPage, 0x010), (fadcPage 0 3, 0x170), (pwmpPage 0 15, 0x148), (tripPage 0, 0x148),
      (loopPage 0 2, 0x190), (lengPage 0 3, 0x120), (evcPage 0 0, 0x220), (scrPage 0, 0x148), (ddrcPage 0, 0x1A0),
      (dmaPage 0 32, 0x118), (dmaPage 0 31, 0x138), (intnPage 0, 0x118), (ethPage 0 1, 0x1D0), (fabPage 0, 0x120),
      (jrnlPage 0, 0x150), (upntPage, 0x100)].all (fun x => accepted run0 by0 x.1 x.2)
    && gives (.loopClrCounts by0 0 2) (put run0 [(loopPage 0 2, LOOP_EVALS.COUNT, 9), (loopPage 0 2, LOOP_REF.VALUE, 7)])
      (fun u => u.fld (loopPage 0 2) LOOP_EVALS.COUNT == 0 && u.fld (loopPage 0 2) LOOP_REF.VALUE == 7)
    && (let s := able [n 3] priv
      ready s t0 3 && gives (.coreClrCore t0) (s.setCore 0 0 { s.core 0 0 with entrySlow := 5 })
        (fun u => (u.core 0 0).entrySlow == 0))
    && gives (.coreClrThread t0) (withThread live { runner with
      stack := [.word (n 1)]
      misses := 9 }) (fun u => (u.at t0).misses == 0)) = true := by decide +kernel

/-- The last two: an access of another panel's thread is refused, one of the intent block is dropped (R12). -/
theorem witness_TurnedAwayWritesChangeNothing :
    (decide (run0.verdict (.thread ⟨1, 0⟩) (panelPage 0 1) 0x100 = .refuse)
    && decide (run0.verdict (.intent 0 0) (tmrPage 0 3) 0x130 = .drop)
    && decide (run0.verdict .easel lifePage 0x280 = .accept)
    && gives (.tmrStart (.thread ⟨1, 0⟩) 0 3) run0 (fun u => u.regs == run0.regs && u.timers == run0.timers)
    && gives (.tmrStart (.intent 0 0) 0 3) run0 (fun u => u.regs == run0.regs && u.timers == run0.timers)) = true := by
  decide +kernel

theorem witness_EntriesAndDoubleFaults :
    (let faulting (double : Bool) (csp : Word) : State := withThread live { runner with
        fault := some (DZ, 0x1000, true)
        double := double
        csp := csp }
    let far : State := put (withThread live { runner with pc := 0x10000000000 })
      [(ddrcPage 0, DDRC_STATE.TRAINED, 1), (ddrcPage 0, DDRC_MODULE.CAPACITY, 16)]
    let asked := far.entryFetch 0 0
    let come := after (.cacheFillComplete t0) asked
    plain run0 t0 && ready run0 t0 2 && decide (32 ≤ (run0.at t0).csp.toNat ∧ (run0.at t0).csLo.toNat ≤ (run0.at t0).csp.toNat - 32)
    && [0x43FE0, 0x43FE8, 0x43FF0, 0x43FF8, 0x4FFE0, 0x4FFF8].all (plainWord run0 t0)
    && gives (.syscall t0 5) run0 (fun u => (u.at t0).pc == 0x80000 + 64 * 69 && (u.at t0).csp == 0x43FE0
      && u.word 0 0x43FF8 == tword 0xC0 (BitVec.ofNat 64 (2 * 2 ^ 60 + 5 * 2 ^ 52)) && u.word 0 0x43FF0 == tword 0xC1 0x1002
      && u.word 0 0x43FE8 == tword 0xC2 0x100 && u.word 0 0x43FE0 == tword 0xC3 0)
    && gives (.trap t0 255) run0 (fun u => (u.at t0).pc == 0x80000 + 64 * 575)
    && run0.mayEnter 0 0 && decide (run0.flag easlPage EASL_CMD.BRK_HALT = false)
    && gives (.faultEntry t0 []) (faulting false 0x44000) (fun u => (u.at t0).pc == 0x80000 + 64 * 7
      && (u.at t0).fault == none && u.word 0 0x43FF8 == tword 0xC0 (BitVec.ofNat 64 (2 ^ 60 + 7 * 2 ^ 52)))
    && gives (.brk t0) run0 (fun u => (u.at t0).fault == some (BP, 0x1001, true))
    && gives (.faultEntry t0 []) (faulting false 0x40018) (fun u => (u.at t0).double && (u.at t0).fsp == 0x4FFE0
      && (u.at t0).csp == 0x40018 && u.word 0 0x4FFF8 == tword 0xC0 (BitVec.ofNat 64 (4 * 2 ^ 60 + 7 * 2 ^ 52 + 1)))
    && decide (live.mode 0 ≠ PRIME ∧ (live.panel 0).held = false)
    && gives (.faultEntry t0 []) (faulting true 0x44000) (fun u => (u.panel 0).held)
    && decide (far.spot 0 0 0x10000000000 = .mem 0 0x10000000000 .cached) && far.flips.isEmpty
    && (asked.at t0).park == some .fetchMiss && (asked.at t0).misses == 0x100000000
    && come.inL2 0 0x200000000 && ((come.entryFetch 0 0).at t0).park == none
    && decide (run0.spot 0 0 0x1000 = .mem 0 0x1000 .bank)) = true := by decide +kernel

theorem witness_BreakpointsAndMismatches :
    (let s := put run0 [(easlPage, EASL_CMD.BRK_HALT, 1)]
    ready s t0 1 && plain s t0 && s.flag easlPage EASL_CMD.BRK_HALT && s.mode 0 == RUN && !s.halted 0
    && decide ((s.panel 0).resetting = none)
    && gives (.brk t0) s (fun u => (u.panel 0).halting && u.mode 0 == HOLD
      && u.fld (modePage 0) MODE_STATE.LAST_CAUSE == 4)
    && gives (.brk t0) (put (s.setPanel 0 { s.panel 0 with causeAt := some 5000 }) [(modePage 0, MODE_STATE.LAST_CAUSE, 2)])
      (fun u => u.fld (modePage 0) MODE_STATE.LAST_CAUSE == 2)
    && (let differs (d : Bool) : State := run0.setCore 0 0 { run0.core 0 0 with inject := some (6, d) }
      (differs true).canRun 0 0 && ready run0 t0 1 && plain (differs true) t0
      && gives (.nop t0) (differs true) (fun u => (u.core 0 0).inject == none && u.flag easlPage EASL_INJECT.SEEN
        && raised u easlPage 4 && (u.at t0).retired == 1)
      && gives (.nop t0) (differs false) (fun u => (u.panel 0).held && (u.panel 0).lockstep == BitVec.ofNat 64 (2 ^ 63 + 6)))
    && s.present 0 && !(s.panel 0).island && gives (.lockstepMismatch 0 1 2 3) s (fun u => (u.panel 0).held
      && (u.panel 0).lockstep == BitVec.ofNat 64 (2 ^ 63 + 64 + 32 + 3))
    && gives (.lockstepMismatch 0 1 2 3) (s.setCore 0 1 { s.core 0 1 with inject := some (3, true) }) (fun u =>
      !(u.panel 0).held && u.flag easlPage EASL_INJECT.SEEN)
    && gives (.remoteDramResponse t0 true) (withThread live { runner with park := some .remoteLoad }) (fun u =>
      (u.at t0).fault == some (BE, 0x1000, true))
    && gives (.remoteDramResponse t0 false) (withThread live { runner with park := some .remoteLoad }) (fun u =>
      (u.at t0).park == none)) = true := by decide +kernel

/-- Edge sources 6 and 7 are pending for the first thread, at priorities 9 and 4. -/
def pendingEvents : State :=
  { run0 with evPend := [(6, true), (7, true)] }.setReg (evcPage 0 0) 0x418 0x0000020400000209

theorem witness_InterruptsFollowPriority :
    (let s := pendingEvents
    plain s t0 && s.mayPresent 0 0 && s.best 0 0 0 == some (0, 6) && s.best 0 0 9 == none && run0.best 0 0 0 == none
    && s.candidates 0 0 == [(0, 6), (0, 7)] && s.srcPrio 0 0 6 == 9 && s.srcPrio 0 0 7 == 4
    && operands s t0 []
    && gives (.interruptPresentation t0 []) run0 (fun u => (u.at t0).pc == 0x1000)
    && gives (.interruptPresentation t0 []) s (fun u => (u.at t0).pc == 0x80000 + 64 * 41 && (u.at t0).status == 0x109
      && (u.core 0 0).entrySlow == 1)
    && !s.entryCached 0 0 (0x80000 + 64 * 41)) = true := by decide +kernel

theorem witness_ClaimsAndCompletions :
    (let s := pendingEvents
    ready s t0 3 && plain s t0 && (s.core 0 0).prio.isEmpty
    && gives (.evcClaim t0) s (fun u => goes u 0x1003 [n (9 * 65536 + 6)] && u.inService 0 0 6 && !u.srcPending 0 0 6
      && (u.core 0 0).prio == [⟨0, 6, 9⟩])
    && gives (.evcClaim t0) run0 (fun u => goes u 0x1003 [n 0x3FF] && u.fld (evcPage 0 0) EVC_SPURIOUS.COUNT == 1)
    && gives (.evcClaim t0) (s.setCore 0 0 { s.core 0 0 with prio := List.replicate 16 ⟨1, 9, 1⟩ }) (fun u =>
      goes u 0x1003 [n 0x3FF] && u.fld (evcPage 0 0) EVC_STATE.STACK_FULL == 1)
    && takes .evcComplete 3 [n 6] user PV
    && (let c := able [n 6] priv
      gives (.evcComplete t0) ({ c with evServ := [(6, true)] }.setCore 0 0 { c.core 0 0 with prio := [⟨0, 6, 9⟩] })
        (fun u => goes u 0x1003 [] && (u.core 0 0).prio.isEmpty && !u.inService 0 0 6)
      && gives (.evcComplete t0) c (fun u => (u.at t0).fault == some (SO, 0x1000, true)
        && u.fld (evcPage 0 0) EVC_ORDER.COUNT == 0)
      && gives (.faultEntry t0 []) (after (.evcComplete t0) c) (fun u => u.fld (evcPage 0 0) EVC_ORDER.COUNT == 1))
    && gives (.evcComplete t0) (able [n 0x3FF] priv) (fun u => goes u 0x1003 [])) = true := by decide +kernel

theorem witness_EventsArriveAndWake :
    (let on (due : Nat) : State := { pendingEvents with
        evPend := []
        events := [⟨0, false, 6, due, false⟩] }
    gives (.eventArrival 0) (on 5000) (fun u => u.srcPending 0 0 6 && u.events.isEmpty)
    && gives (.eventArrival 0) { pendingEvents with events := [⟨0, false, 579, 5000, true⟩], evArrived := [(evKey 0 0 579, true)] }
      (fun u => !u.sourceActive 0 0 579)
    && gives (.eventPinChange 15 true) { live with evtLow := 0x8000 } (fun u => u.events.isEmpty)
    && gives (.eventArrival 0) (on 5001) (fun u => !u.srcPending 0 0 6 && u.events.length == 1)
    && gives (.eventPinChange 15 true) live (fun u => u.evtLow == 0x8000 && u.events.length == 8
      && u.events.all (fun e => e.source == 591 && e.due == 5030))
    && gives (.eventPinChange 15 false) { live with evtLow := 0x8001 } (fun u => u.evtLow == 1 && u.events.length == 8
      && u.events.all (fun e => e.gone && e.due == 5030))
    && (let z : State := (put pendingEvents [(modePage 0, MODE_STATE.MODE, REST)]).setPanel 0 { live.panel 0 with
        island := true
        watched := [6] }
      (z.panel 0).island && decide (z.under 0 < 6) && z.srcPending 0 0 6
      && decide ((live.panel 0).island = false))) = true := by decide +kernel

/-! ### The sample path, comparators, the sweep -/

/-- Converter 3 of sector 0 samples every 25 ticks. -/
def sampling : State := put live [(fadcPage 0 3, FADC_SCHED.MODE, 1), (fadcPage 0 3, FADC_SCHED.PERIOD, 25)]

/-- Its ring: 2 KiB of panel 0's DRAM. -/
def ring : State :=
  put sampling [(ddrcPage 0, DDRC_STATE.TRAINED, 1), (ddrcPage 0, DDRC_MODULE.CAPACITY, 16),
    (fadcPage 0 3, FADC_RING_BASE.ADDR, 0x10000000000 / 128), (fadcPage 0 3, FADC_RING_SIZE.SIZE, 16)]

/-- A line of 16 payloads. -/
def line : List Word := (List.range 16).map (fun k => BitVec.ofNat 64 (k + 1))

/-- 0.5 V is code 1280 (chapter 7's example, R53). -/
theorem witness_SamplesFollowTheirSchedule :
    (let pk := fadcPage 0 3
    sampling.referenceTick 0 3 && !live.referenceTick 0 3 && (List.range 16).all (fun k => !sampling.slotTakes 0 k 3)
    && gives (.fadcSample 0 3 500000000) sampling (fun u => (u.conv 0 3).handed.map (fun x =>
      (x.1, signed 12 x.2.toNat, x.2.getLsbD 15)) == [(5000, 1280, false)])
    && accepted run0 by0 pk 0x118 && !run0.flag pk FADC_CAL.BUSY
    && gives (.fadcCalStart by0 0 3) (withThread (inMode HOLD) runner) (fun u => u.flag pk FADC_CAL.BUSY
      && (u.conv 0 3).calEnd == some 56201)
    && (let s := put run0 [(loopPage 0 2, LOOP_CFG.EN, 1), (loopPage 0 2, LOOP_CFG.SRC, 3), (loopPage 0 2, LOOP_STATUS.CLOSED, 1)]
      gives (.fadcCalStart by0 0 3) s (fun u => !u.flag pk FADC_CAL.BUSY && raised u pk 4))
    && gives (.fadcCalDone 0 3 0x4001 2) (live.setConv 0 3 { live.conv 0 3 with calEnd := some 5000 }) (fun u =>
      u.fld pk FADC_CAL_RESULT.GAIN == 0x4001 && raised u pk 3)
    && gives (.fadcTrigFire 0 3) (put live [(pk, FADC_TRIG.ARM, 1), (pk, FADC_TRIG.LINK_OUT, 1)]) (fun u => raised u pk 6
      && Store.read 0 u.freezeLines 3 == 5000)
    && (let s := ring.setConv 0 3 { ring.conv 0 3 with line := line.mapIdx (fun k w => (16 + k, w)) }
      s.ringReaches pk 0x10000000080 && gives (.streamPayload 0 3 true) s (fun u => u.word 0 0x10000000080 == r 1
        && u.word 0 0x100000000F8 == r 16)
      && (let lost : State := { s.fillL2 0 0 (0x10000000080 / 128) with
            flips := [⟨4, 0, memKey 0 0x10000000080, true⟩] }
        lost.tagLost 0 (0x10000000080 / 128) && !s.tagLost 0 (0x10000000080 / 128)
        && gives (.streamPayload 0 3 true) lost (fun u => (u.panel 0).tagHit && u.word 0 0x10000000080 == voidWord))
      && gives (.streamPayload 0 3 false) s (fun u => u.fld pk FADC_RING_DROPPED.DROPPED == 16 && raised u pk 8))
    && (let m : Monitor := { began := 4375, running := true }
      let s := live.setMonitor 0 m
      (s.monitor 0).running && s.present 0 && m.began + m.acq + 500 == 5000
      && gives (.madcConversionEnd 0 750000000) s (fun u => u.fld (madcPage 0) MADC_RESULT.CODE == 0x8000
        && u.fld (madcPage 0) MADC_RESULT.TICK == 5000)
      && decide ((0 : Nat) + 1 < 2 ^ ({ m with avg := 3 } : Monitor).avg)
      && gives (.madcConversionEnd 0 750000000) (put (live.setMonitor 0 { m with
          avg := 3
          changed := true }) [(madcPage 0, MADC_SCHED.LEN, 3)]) (fun u => (u.monitor 0).done == 0 && (u.monitor 0).entry == 1
        && !(u.monitor 0).changed && (u.monitor 0).began == 5000))) = true := by decide +kernel

/-- Comparators 0 and 1 of sector 0 watch their pin between 102 and 922 with 10 mV of hysteresis (chapter 4's example). -/
def watching : State :=
  put run0 ((List.range 2).flatMap (fun c => [(wcmpPage 0 c, WCMP_CFG.SEL, 1), (wcmpPage 0 c, WCMP_CFG.HYST, 2),
    (wcmpPage 0 c, WCMP_THRESH.HI, 922), (wcmpPage 0 c, WCMP_THRESH.LO, 102)]))

/-- The check of comparator 0 has come to a step. -/
def checking (start step results : Nat) : State :=
  watching.setCmp 0 0 { watching.cmp 0 0 with check := some ⟨start, step, results, 922, 102⟩ }

theorem witness_ComparatorsWatchTheirWindow :
    (let pk := wcmpPage 0 0
    watching.present 0 && (watching.cmp 0 0).check.isNone && !watching.swept 0 0 && watching.fld pk WCMP_CFG.TIE == 0
    && gives (.comparatorCrossing 0 0 640625001 true 0) watching (fun u => (u.cmp 0 0).above && raised u pk 0)
    && gives (.comparatorCrossing 0 0 640625000 true 0) watching (fun u => !(u.cmp 0 0).above && !raised u pk 0)
    && gives (.comparatorCrossing 0 0 (-640625001) true 0) watching (fun u => (u.cmp 0 0).below && raised u pk 1)
    && watching.mayCheck 0 0 && accepted watching by0 pk 0x118 && !live.mayCheck 0 0
    && gives (.wcmpCheckStart by0 0 0) watching (fun u => (u.cmp 0 0).check == some ⟨5000, 0, 0, 922, 102⟩)
    && gives (.wcmpCheckStart by0 0 0) run0 (fun u => raised u pk 3)
    && gives (.checkStep 0 0 true false) (checking 4968 1 0) (fun u => (u.cmp 0 0).check == some ⟨4968, 2, 1, 922, 102⟩)
    && gives (.checkStep 0 0 true false) (checking 4952 2 1) (fun u => (u.cmp 0 0).check == some ⟨4952, 3, 1, 922, 102⟩)
    && gives (.checkDone 0 0) (checking 4888 6 15) (fun u => u.fld pk WCMP_CHECK.RESULT == 15 && raised u pk 2
      && !u.flag pk WCMP_STATE.FAILED)
    && gives (.checkDone 0 0) (checking 4888 6 11) (fun u => u.flag pk WCMP_STATE.FAILED && raised u pk 3)) = true := by
  decide +kernel

/-- A ramp on comparator 0. -/
def ramp (mode : Nat) : State :=
  put watching [(sweepPage 0, SWEEP_CFG.MODE, mode), (sweepPage 0, SWEEP_CFG.DWELL, 64), (sweepPage 0, SWEEP_RAMP.FROM, 2),
    (sweepPage 0, SWEEP_RAMP.TO, 5), (sweepPage 0, SWEEP_RAMP.STEP, 2)]

/-- The ramp has come here. -/
def sweeping (mode : Nat) (w : Sweep) : State := (put (ramp mode) [(sweepPage 0, SWEEP_RESULT.BUSY, 1)]).setSweep 0 w

theorem witness_SweepsDriveTheirTarget :
    (let pk := sweepPage 0
    gives (.sweepGo 0) live (fun u => u.flag pk SWEEP_RESULT.REFUSED && raised u pk 2)
    && gives (.sweepGo 0) (ramp 0) (fun u => !u.flag pk SWEEP_RESULT.BUSY)
    && !(ramp 2).sweepIllegal 0 && gives (.sweepGo 0) (ramp 2) (fun u => u.flag pk SWEEP_RESULT.BUSY
      && (u.sweep 0).phase == .handover)
    && upsets (.sweepGo 0) (put (ramp 2) [(pk, SWEEP_RAMP.STEP, 0)]) pk
    && gives (.sweepStep 0) (sweeping 2 { phase := .handover, start := 4984, mode := 2 }) (fun u => (u.sweep 0).phase == .driving
      && (u.sweep 0).code == 2)
    && gives (.sweepStep 0) (sweeping 2 { phase := .driving, stepAt := 4936, mode := 2, code := 4 }) (fun u => (u.sweep 0).code == 5)
    && gives (.sweepStep 0) (sweeping 3 { phase := .driving, stepAt := 4936, mode := 3, code := 32, bit := 5 }) (fun u =>
      (u.sweep 0).code == 16 && (u.sweep 0).bit == 4)
    && gives (.sweepStep 0) (sweeping 2 { phase := .returning, endAt := 4984 }) (fun u => (u.sweep 0).phase == .idle)
    && gives (.sweepGo 0) ((ramp 2).setSweep 0 { phase := .returning, target := 7, endAt := 4990 }) (fun u =>
      (u.sweep 0).back == [(7, 4990)])
    && gives (.sweepStep 0) (live.setSweep 0 { phase := .idle, back := [(7, 4984)] }) (fun u => (u.sweep 0).back == [])
    && accepted watching by0 pk 0x110 && gives (.sweepStop by0 0) (sweeping 2 { phase := .driving }) (fun u => (u.sweep 0).stop
      && (u.sweep 0).endAt == 5001)
    && gives (.sweepEnd 0) (sweeping 2 { phase := .driving, stop := true, endAt := 5000 }) (fun u =>
      u.flag pk SWEEP_RESULT.DONE && raised u pk 0)
    && gives (.sweepEnd 0) (sweeping 2 { phase := .driving, mode := 2, first := some true, code := 3 }) (fun u =>
      u.flag pk SWEEP_RESULT.CROSS && u.fld pk SWEEP_RESULT.CODE == 3 && raised u pk 1)
    && gives (.sweepEnd 0) (sweeping 3 { phase := .driving, mode := 3, bit := 0, stepAt := 4936, code := 9 }) (fun u =>
      u.fld pk SWEEP_RESULT.CODE == 8)) = true := by decide +kernel

/-! ### Pulses, trips, loops -/

/-- Pair 0 of sector 0, with the compares of run 1 of chapter 5's live-update example: period 6250, 0:0 and 3050:16,
dead times of 125 and a least width of 50 ticks. -/
def shaped : State :=
  put live [(pwmpPage 0 0, PWMP_PERIOD.VALUE, 6250), (pwmpPage 0 0, PWMP_CMP.VALUE.at 8, 3050 * 64 + 16),
    (pwmpPage 0 0, PWMP_DEADTIME.DT_RISE, 125 * 64), (pwmpPage 0 0, PWMP_DEADTIME.DT_FALL, 125 * 64),
    (pwmpPage 0 0, PWMP_MIN_PULSE.VALUE, 50 * 64)]

/-- It has wrapped at tick 5000, where its raw signal rises. -/
def pulsing : State := after (.pwmStart 0 0) shaped

/-- That pair at a later tick. -/
def later (s : State) (t : Nat) : State :=
  { s with
    ticks := t
    canvas := t }

/-- Its output A has turned on, after its dead time. -/
def pulsingA : State := after (.deadTimeExpiry 0 0 .a) (later pulsing 5125)

/-- Its raw signal has fallen, at 3050:16. -/
def fallen : State := after (.rawEdge 0 0 false false) (later pulsingA 8050)

theorem witness_PairsFollowTheirCounters :
    (let pk := pwmpPage 0 0
    shaped.present 0 && shaped.mode 0 != PRIME && (shaped.pair 0 0).leader == 16 && !(shaped.pair 0 0).running
    && gives (.pwmStart 0 0) shaped (fun u => (u.pair 0 0).running && u.fld pk PWMP_WRAP.TICK == 5000
      && (u.pair 0 0).endTick == 11250 && (u.pair 0 0).dtRise == 8000)
    && decide (2 ^ 20 < (put shaped [(pk, PWMP_PERIOD.VALUE, 2 ^ 20 + 1)]).fld pk PWMP_PERIOD.VALUE)
    && gives (.pwmStart 0 0) (put shaped [(pk, PWMP_PERIOD.VALUE, 2 ^ 20)]) (fun u => (u.pair 0 0).running)
    && gives (.pwmStart 0 0) (put shaped [(pk, PWMP_PERIOD.VALUE, 3)]) (fun u => (u.pair 0 0).period == 4 && raised u pk 5)
    && gives (.pwmStop 0 0) pulsing (fun u => (u.pair 0 0).stopAsked)
    && (pulsing.pair 0 0).s && (pulsing.pair 0 0).onA == some (5125 * 64)
    && (let s := later (after (.pwmStart 0 0) (put shaped [(pk, PWMP_CMP.VALUE, 6400)])) 5100
      s.riseDue 0 0 false == some (5100 * 64) && gives (.rawEdge 0 0 false true) s (fun u => (u.pair 0 0).s))
    && gives (.deadTimeExpiry 0 0 .a) (later pulsing 5125) (fun u => (u.pair 0 0).a && !(u.pair 0 0).b)
    && (later pulsingA 8050).fallDue 0 0 false == some (8050 * 64 + 16)
    && gives (.rawEdge 0 0 false false) (later pulsingA 8050) (fun u => !(u.pair 0 0).a && !(u.pair 0 0).s
      && (u.pair 0 0).onB == some (8175 * 64 + 16))
    && gives (.deadTimeExpiry 0 0 .b) (later fallen 8175) (fun u => (u.pair 0 0).b)
    && gives (.pwmpWrap 0 0) (later pulsing 11250) (fun u => (u.pair 0 0).wrapTick == 11250 && (u.pair 0 0).wraps == 2)
    && gives (.pwmpWrap 0 0) (later (after (.pwmStop 0 0) pulsing) 11250) (fun u => !(u.pair 0 0).running)
    && (let moved := (later pulsing 5100).setPair 0 0 { pulsing.pair 0 0 with
        s := false
        roseA := false
        riseAtA := some (5100 * 64)
        fallAtA := some (5100 * 64)
        onA := none }
      moved.riseDue 0 0 false == moved.fallDue 0 0 false && moved.isNext 0 0 (moved.riseDue 0 0 false)
      && gives (.rawEdge 0 0 false true) moved (fun u => !(u.pair 0 0).s && (u.pair 0 0).fellA))
    && (let two := (put shaped [(pwmpPage 0 1, PWMP_CFG.SYNC, 0), (pwmpPage 0 1, PWMP_CMP.VALUE.at 8, 64000)]).setPair 0 1 {
        leader := 0 }
      let led := after (.pwmStart 0 0) two
      let both := after (.pwmpWrap 0 1) led
      led.followerDue 0 1 && (both.pair 0 1).running && (both.pair 0 1).wraps == 1
      && gives (.pwmpWrap 0 1) (after (.pwmpWrap 0 0) (later both 11250)) (fun u => (u.pair 0 1).wraps == 2)
      && gives (.pwmpWrap 0 1) (after (.pwmpWrap 0 0) (later (after (.pwmStop 0 0) both) 11250)) (fun u =>
        !(u.pair 0 1).running))
    && (let measured (l : List (Nat × Fld × Nat)) : State := put (later live 8192) l
      gives (.stippleCalibration 0 taps lines) (measured [(pk, PWMP_STIPPLE.TAPS_A, 98), (pk, PWMP_STIPPLE.TAPS_B, 104)]) (fun u =>
        u.fld pk PWMP_STIPPLE.TAPS_A == 100 && (u.pair 0 0).nextB == some 100 && (u.pair 0 0).lockNext)
      && gives (.stippleCalibration 0 taps lines) (measured [(pk, PWMP_STIPPLE.TAPS_A, 95), (pk, PWMP_STIPPLE.TAPS_B, 104),
        (pk, PWMP_STIPPLE.LOCKED, 1)]) (fun u => !u.flag pk PWMP_STIPPLE.LOCKED && raised u pk 6
          && (u.pair 0 0).nextA == none && (u.pair 0 0).nextB == some 100)
      && gives (.stippleCalibration 0 taps lines) ((measured []).setConv 0 3 { live.conv 0 3 with span := 96 }) (fun u =>
        (u.conv 0 3).nextMap == some 100 && (u.conv 0 3).span == 100)
      && gives (.stippleCalibration 0 taps lines) live (fun u => u.fld pk PWMP_STIPPLE.TAPS_A == 0))) = true := by decide +kernel

/-- An interval of output A that must last to 5000:0 is cut there, and B's dead time begins (R92). -/
theorem test_minPulse :
    (let s := live.setPair 0 0 { live.pair 0 0 with
      running := true
      a := true
      intA := some ⟨4990 * 64, 640, false, false⟩
      endTick := 9000
      dtFall := 640 }
    s.isNext 0 0 (s.expiry 0 0 .a) && gives (.minPulseExpiry 0 0 .a) s (fun u => !(u.pair 0 0).a
      && (u.pair 0 0).onB == some (5010 * 64))) = true := by decide +kernel

/-- Pin 2 is a source of pair 4's latch and of pair 5's cycle; `RUN` is left for a fatal trip. -/
def guarded : State :=
  put live [(tripPage 0, TRIP_EXT_CFG.EN, 4), (tripPage 0, TRIP_PAIR_LAT_OTHER.PINS.at 0x100, 4),
    (tripPage 0, TRIP_PAIR_CFG.FATAL.at 0x100, 1), (tripPage 0, TRIP_PAIR_CBC_OTHER.PINS.at 0x140, 4)]

/-- The pin has gone low. -/
def tripped : State := after (.tripSourceActive 0 66 0) guarded

theorem witness_TripsStandUntilCleared :
    (let pk := tripPage 0
    let quietTrip := later (after (.tripPinInactive 0 2) tripped) 5016
    guarded.present 0 && guarded.windowClose 0 4 ≤ guarded.ticks && (guarded.latMask 0 4).getLsbD 66 && (guarded.cbcMask 0 5).getLsbD 66
    && gives (.tripSourceActive 0 66 5) guarded (fun u => u.latched 0 4 && raised u pk 4 && u.mode 0 == HOLD
      && u.fld pk (TRIP_PAIR_CAUSE.TICK.at 0x100) == 5001)
    && gives (.tripPinInactive 0 2) tripped (fun u => u.latched 0 4 && !(u.trip 0).active.getLsbD 66)
    && gives (.tripClearPair 0 4) tripped (fun u => u.latched 0 4 && raised u pk 20)
    && gives (.tripClearPair 0 4) (later quietTrip 5015) (fun u => u.latched 0 4
      && u.flag pk (TRIP_PAIR_STATE.CLEAR_PENDING.at 0x100))
    && quietTrip.quiet 0 (quietTrip.latMask 0 4) && !(later quietTrip 5015).quiet 0 (quietTrip.latMask 0 4)
    && (let c := (put live [(tripPage 0, ⟨0x218 + 0x100, 63, 0⟩, 2 ^ 3)]).setCmp 0 3 { above := true }
      (c.sources 0).getLsbD 3 && gives (.tripSourceActive 0 3 0) c (fun u => u.latched 0 4 && (u.trip 0).active.getLsbD 3))
    && (let b := put quietTrip [(pk, TRIP_BCAST.PAIRS.at 8, 16)]
      let s := b.setTrip 0 { b.trip 0 with active := 2 ^ 73 }
      s.lines == 2 && (List.range 8).all (fun sl => (s.sources sl) &&& ~~~(s.trip sl).active == if sl = 0 then 0 else 2 ^ 73))
    && (List.range 4).all (fun k => !(quietTrip.fld pk (TRIP_BCAST.PAIRS.at (8 * k))).testBit 4)
    && gives (.tripClearPair 0 4) quietTrip (fun u => !u.latched 0 4)
    && gives (.clearPendingComplete 0 4) (put quietTrip [(pk, TRIP_PAIR_STATE.CLEAR_PENDING.at 0x100, 1)]) (fun u => !u.latched 0 4)
    && (put tripped [(pk, TRIP_PAIR_CFG.SAFE_A.at 0x100, 0)]).pin 0 4 .a == .low && !tripped.orderOne 0 4
    && gives (.voteDisagree 0 1 1 0) live (fun u => u.fld pk TRIP_VOTE.COPY == 2 && raised u pk 48 && (u.trip 0).vote == 0
      && copyOf 1 (u.trip 0).latches == 1)
    && gives (.voteDisagree 0 1 0 0) live (fun u => u.fld pk TRIP_VOTE.COPY == 0 && !raised u pk 48)
    && gives (.canvasClockLoss 0) live (fun u => u.timeStands && u.mode 7 == HOLD && u.pairSafe 7 15)
    && gives (.canvasClockReturn 0) (after (.canvasClockLoss 0) live) (fun u => !u.timeStands)) = true := by decide +kernel

/-- A blanking window of pair 4 closes over a source that is still active. -/
theorem test_blankingClose :
    (let s := guarded.setTrip 0 { guarded.trip 0 with
      active := 1#76 <<< 66
      pinsLow := 4
      blankUntil := [(4, 5000)] }
    s.windowClose 0 4 == 5000 && gives (.blankingClose 0 4) s (fun u => u.latched 0 4)) = true := by decide +kernel

/-- The loop of chapter 7's example: slot 0 of sector 0 on converter 2, with REF 20480, LO 0, HI 40000, driving the phase
of pair 2. -/
def loop : State :=
  put { live with ticks := 10003, canvas := 10003 }
    [(loopPage 0 0, LOOP_CFG.EN, 1), (loopPage 0 0, LOOP_CFG.SRC, 2), (loopPage 0 0, LOOP_CFG.TARGET, 1),
      (loopPage 0 0, LOOP_CFG.PAIR, 2), (loopPage 0 0, LOOP_CFG.AW, 1), (loopPage 0 0, LOOP_CFG.DECIM, 1),
      (loopPage 0 0, LOOP_STATUS.CLOSED, 1), (fadcPage 0 2, FADC_SCHED.MODE, 1), (fadcPage 0 2, FADC_SCHED.PERIOD, 100),
      (loopPage 0 0, LOOP_REF.VALUE, 20480), (loopPage 0 0, LOOP_LIMIT.HI, 40000)]

/-- The reference tick of a row of that table: its code, and e and c of the evaluation before. -/
def row (code e c : Int) (grant : Nat) (closed : Bool) (mm : Nat) : State :=
  loop.setSlot 0 0 { loop.slot 0 0 with
    live := ⟨35651584, -33554432, 0, 0, -536870912, 0, 0, 24⟩
    hist := ⟨e, 0, 0, c * 65536, 0, 0⟩
    mirror := ⟨e, 0, 0, c * 65536, 0, 0⟩
    closed := true
    mmRun := mm
    evals := [⟨9999, code, 20480, 0, 409600, 0, 40000, 123, 0, closed, grant, false, false,
      ⟨35651584, -33554432, 0, 0, -536870912, 0, 0, 24⟩, ⟨e, 0, 0, c * 65536, 0, 0⟩, ⟨e, 0, 0, c * 65536, 0, 0⟩⟩] }

/-- The three rows of the table: u is 27200, 27268 and 27238, and c goes from 25600 to 25668 and 25638. -/
theorem test_loop_example :
    (let gets (s : State) (u c : Int) : Bool := gives (.loopEvaluation 0 0 false) s (fun t =>
      (t.slot 0 0).out == some (10004, 2, 1, u.toNat) && (t.slot 0 0).hist.c1 == c * 65536)
    gets (row 1280 0 25600 0 true 0) 27200 25600 && gets (row 1278 0 25600 0 true 0) 27268 25668
    && gets (row 1279 32 25668 0 true 0) 27238 25638) = true := by decide +kernel

theorem witness_LoopsEvaluateTheLaw :
    (let pk := loopPage 0 0
    let s := later loop 10000
    s.referenceTick 0 2 && s.slotTakes 0 0 2 && (List.range 15).all (fun m => !s.slotTakes 0 (m + 1) 2)
    && s.fld pk LOOP_CFG.DECIM == 1
    && gives (.loopClose 0 0) s (fun u => (u.slot 0 0).request == some true)
    && decide (24 ≤ (put s [(pk, LOOP_BSHIFT.VALUE, 24)]).fld pk LOOP_BSHIFT.VALUE)
    && s.fld pk LOOP_CFG.TARGET == 1 && !s.split 0 0 && !unstable (s.staged 0 0)
    && (let asked := put (after (.loopClose 0 0) s) [(pk, LOOP_BSHIFT.VALUE, 24), (pk, LOOP_FF_DECAY.ACTIVE, 1),
        (pk, LOOP_FF_INTENT.VALUE, 100), (pk, LOOP_CFG.DECAY_SHIFT, 3)]
      gives (.fadcSample 0 2 500000000) asked (fun u => (u.slot 0 0).evals.map (fun i => (i.tick, i.code, i.closed, i.ffInt))
        == [(10000, 1280, true, 88)]))
    && gives (.loopEvaluation 0 0 false) (row 1280 0 25600 0 false 0) (fun u => (u.slot 0 0).out == some (10004, 2, 1, 123))
    && gives (.loopEvaluation 0 0 false) (row 1280 0 25600 1 true 0) (fun u => u.fld pk LOOP_STATUS.CAUSE == 1 && raised u pk 0)
    && gives (.loopEvaluation 0 0 true) (row 1280 0 25600 0 true 1) (fun u => u.fld pk LOOP_STATUS.MM_RUN == 2
      && (u.slot 0 0).closed && raised u pk 2)
    && gives (.loopEvaluation 0 0 true) (row 1280 0 25600 0 true 2) (fun u => !(u.slot 0 0).closed
      && u.flag pk LOOP_STATUS.FORCED_OPEN && raised u pk 3)) = true := by decide +kernel

/-! ### Memory arrays, channels, timers, stencil engines -/

/-- Panel 0's DRAM is there. -/
def dram : State :=
  (put run0 [(ddrcPage 0, DDRC_STATE.TRAINED, 1), (ddrcPage 0, DDRC_MODULE.CAPACITY, 16),
    (ddrcPage 0, DDRC_MODULE.RANKS, 1)]).setPanel 0 { dramGroups := 8, dramBanks := 4, dramRows := 2 ^ 18 }

/-- A word of a dirty line of the L2 is lost. -/
def dirtied : State :=
  { after (.stT t0 (.s8 0) clearEnv) (dram.setThread 0 0 { runner with
      stack := [.word (tword 0x98 0x10000000000), .word (n 7)] }) with badWords := [memKey 0 0x10000000008] }

/-- Code below 0x2000 is secure. -/
def secured : State := put run0 [(lifePage, LIFE_SECURE.SIZE, 2)]

/-- Errors of a line. -/
def wrong (k : Nat) : LineErrors where
  rank := 0
  bg := 0
  bank := 0
  row := 5
  symbols := (List.range k).map (fun j => Fin.ofNat 160 j)
  poisoned := false

theorem witness_ArraysFollowTheirUnits :
    (let scr := scrPage 0
    let ddr := ddrcPage 0
    accepted run0 by0 scr 0x100 && !run0.secure by0 && gives (.scrPowerWrite by0 0 2) run0 (fun u =>
      u.fld scr ⟨0x100, 1, 0⟩ == 2 && u.flag scr ⟨0x108, 16, 16⟩)
    && (let s := after (.scrPowerWrite by0 0 2) (words run0 [(0x2000, n 1)])
      gives (.bankPowerDone 0 0) s (fun u => u.fld scr ⟨0x108, 1, 0⟩ == 2 && u.word 0 0x2000 == voidWord && raised u scr 6))
    && accepted run0 by0 scr 0x148
    && (let s := words secured [(0x1C0000, n 1)]
      s.secure by0 && gives (.scrWipe by0 0) s (fun u => u.word 0 0x1C0000 == voidWord && (u.panel 0).wipeBank7))
    && gives (.bank7WipeDone 0) (live.setPanel 0 { live.panel 0 with wipeBank7 := true }) (fun u => raised u scr 7)
    && dram.dramThere 0 0x10000000000 && (dram.marked 0 0).isNone
    && gives (.dramReadComplete 0 0 (wrong 8)) dram (fun u => raised u ddr 0 && u.fld ddr DDRC_CE_LOG.SYMBOLS == 8)
    && gives (.dramReadComplete 0 0 (wrong 9)) dram (fun u => raised u ddr 1 && u.bad 0 0x10000000078)
    && dirtied.spoiled 0 0 && gives (.poisonedEviction 0 0) dirtied (fun u => raised u scr 3 && u.poisoned == [lineKey 0 0])
    && !dirtied.lineLocked 0 (dramBase / 128) && (let held := dirtied.setPanel 0 { dirtied.panel 0 with l2lock := 0x7FFF }
      held.lineLocked 0 (dramBase / 128) && gives (.poisonedEviction 0 0) held (fun u => !raised u scr 3))
    && gives (.dramInitDone 0) (live.setPanel 0 { live.panel 0 with dramInit := true }) (fun u => u.flag ddr DDRC_STATE.TRAINED)
    && dram.flag ddr DDRC_STATE.TRAINED && !dram.flag ddr DDRC_STATE.SELF_REFRESH
    && gives (.dramRefresh 0 true) (live.setPanel 0 { live.panel 0 with dramInit := true }) (fun u => raised u ddr 7)
    && gives (.dramRefresh 0 true) live (fun u => !raised u ddr 7) && gives (.dramRefresh 0 true) dram (fun u => raised u ddr 7) && gives (.writeTimingAdjust 0 true) dram (fun u => raised u ddr 4)
    && gives (.patrolScrubRead 0 (wrong 0)) (put dram [(ddr, DDRC_CFG.SCRUB_HOURS, 1)]) (fun u => (u.panel 0).scrubAt == 1)
    && (let last := dram.dramLines 0 - 1
      gives (.patrolScrubRead 0 (wrong 0)) ((put dram [(ddr, DDRC_CFG.SCRUB_HOURS, 1)]).setPanel 0 { dram.panel 0 with
        scrubAt := last }) (fun u => (u.panel 0).scrubAt == 0 && raised u ddr 3))
    && accepted run0 by0 ddr 0x148 && gives (.ddrcPprGo by0 0) dram (fun u => u.flag ddr DDRC_PPR.BUSY)
    && gives (.pprDone 0 true) (put dram [(ddr, DDRC_PPR.BUSY, 1)]) (fun u => u.flag ddr DDRC_PPR.DONE && raised u ddr 5)
    && gives (.fabricLinkError 0 1) (put live [(jrnlPage 0, JRNL_STATUS.ACTIVE, 1)]) (fun u => raised u (fabPage 0) 2
      && raised u (jrnlPage 0) 2)) = true := by decide +kernel

/-- Channel 31 of panel 0 moves words between scratch banks. -/
def channel (state count : Nat) : State :=
  words (put run0 [(dmaPage 0 31, DMA_CFG.SIZE, 4), (dmaPage 0 31, DMA_SRC.ADDR, 0x40000), (dmaPage 0 31, DMA_DST.ADDR, 0x50000),
    (dmaPage 0 31, DMA_COUNT.COUNT, count), (dmaPage 0 31, DMA_STATUS.STATE, state)]) [(0x40000, x8 9)]

theorem witness_ChannelsMoveElements :
    (let pk := dmaPage 0 31
    accepted (channel 0 2) by0 pk 0x128
    && gives (.dmaStart by0 0 31) (channel 0 2) (fun u => u.fld pk DMA_STATUS.STATE == 1)
    && gives (.dmaStart by0 0 31) (channel 0 0) (fun u => u.fld pk DMA_STATUS.STATE == 0 && raised u pk 0)
    && gives (.dmaStart by0 0 31) (channel 1 2) (fun u => u.flag pk DMA_STATUS.START_REFUSED && raised u pk 3)
    && (let s := (channel 0 2).setPanel 0 { restFrom := some RUN }
      gives (.dmaStart by0 0 31) s (fun u => u.fld pk DMA_STATUS.STATE == 3 && raised u pk 4))
    && gives (.dmaElementDone 0 31 { clearEnv with upsets := [⟨0, 0, 0x40000, true⟩] } 0) (channel 0 2) (fun u =>
      u.mem == (channel 0 2).mem && u.flips.length == 1)
    && gives (.dmaPause by0 0 31 3) (channel 1 2) (fun u => u.fld pk DMA_STATUS.STATE == 2 && (u.dma 0 31).inFlight == 2)
    && gives (.dmaPause by0 0 31 0) (channel 1 2) (fun u => u.fld pk DMA_STATUS.STATE == 3 && raised u pk 4)
    && gives (.dmaResume by0 0 31) (channel 3 2) (fun u => u.fld pk DMA_STATUS.STATE == 1)
    && gives (.dmaResume by0 0 31) (channel 3 0) (fun u => u.fld pk DMA_STATUS.STATE == 0 && raised u pk 0)
    && (let s := channel 1 2
      s.present 0 && s.fld pk DMA_CFG.IDX == 0 && (s.dma 0 31).starter == none && allowed 0x40000 8 && allowed 0x50000 8
      && decide (s.panelSpot 0 0x40000 = .mem 0 0x40000 .bank) && decide (s.panelSpot 0 0x50000 = .mem 0 0x50000 .bank)
      && gives (.dmaElementDone 0 31 clearEnv 0) s (fun u => u.word 0 0x50000 == x8 9 && u.fld pk DMA_COUNT.COUNT == 1
        && u.fld pk DMA_SRC.ADDR == 0x40008 && u.fld pk DMA_STATUS.STATE == 1))
    && gives (.dmaElementDone 0 31 clearEnv 0) (channel 1 1) (fun u => u.fld pk DMA_STATUS.STATE == 0 && raised u pk 0)
    && gives (.dmaElementDone 0 31 clearEnv 0) (put (channel 1 2) [(pk, DMA_SRC.ADDR, 0x40004)]) (fun u =>
      u.fld pk DMA_STATUS.STATE == 4 && u.fld pk DMA_STATUS.ERROR == 2 && raised u pk 1)
    && agentPanel by0 == some 0
    && gives (.dmaAlloc by0 0) (put run0 [(dmaPage 0 32, DMA_ALLOCATED.MASK, 5)]) (fun u => u.fld (dmaPage 0 32) DMA_ALLOCATED.MASK == 7)
    && gives (.dmaAlloc by0 0) (put run0 [(dmaPage 0 32, DMA_ALLOCATED.MASK, 2 ^ 32 - 1)]) (fun u =>
      u.fld (dmaPage 0 32) DMA_ALLOC_REFUSED.COUNT == 1)
    && accepted run0 by0 (dmaPage 0 32) 0x110
    && gives (.dmaFree by0 0 2) (put run0 [(dmaPage 0 32, DMA_ALLOCATED.MASK, 5)]) (fun u => u.fld (dmaPage 0 32) DMA_ALLOCATED.MASK == 1)
    ) = true := by decide +kernel

/-- Timer 3 of panel 0. -/
def timing (count : Nat) : State :=
  put run0 [(tmrPage 0 3, TMR_COUNT.COUNT, count), (tmrPage 0 3, TMR_RELOAD.VALUE, 99), (tmrPage 0 3, TMR_CMP.VALUE, 4),
    (tmrPage 0 3, TMR_STATUS.RUNNING, 1), (tmrPage 0 3, TMR_CFG.CAP_EDGE, 1)]

/-- The timer watches its input, which stands at a level. -/
def watched (level : Bool) : State :=
  (timing 7).setTimer 0 3 { (timing 7).timer 0 3 with
    watch := true
    level := some level }

theorem witness_TimersCountDown :
    (let pk := tmrPage 0 3
    (timing 1).islandRuns 0 && accepted run0 by0 pk 0x130 && accepted run0 by0 (tmrPage 0 16) 0x100 && accepted run0 by0 (tmrPage 0 16) 0x108
    && gives (.tmrStep 0 3) (timing 1) (fun u => u.fld pk TMR_COUNT.COUNT == 0 && raised u pk 0)
    && gives (.tmrStep 0 3) (timing 0) (fun u => u.fld pk TMR_COUNT.COUNT == 99 && u.fld pk TMR_CMP_NOW.VALUE == 4)
    && gives (.tmrStep 0 3) ((timing 0).setTimer 0 3 { (timing 0).timer 0 3 with oneShot := true }) (fun u =>
      !u.flag pk TMR_STATUS.RUNNING)
    && gives (.tmrStep 0 3) run0 (fun u => u.regs == run0.regs)
    && gives (.tmrStart by0 0 3) (timing 7) (fun u => u.fld pk TMR_COUNT.COUNT == 99)
    && gives (.tmrStop by0 0 3) (timing 7) (fun u => !u.flag pk TMR_STATUS.RUNNING)
    && gives (.tmrStop by0 0 3) (run0.startTimer 0 3) (fun u => u.flag pk TMR_STATUS.RUNNING)
    && gives (.tmrGstart by0 0 0x8008) run0 (fun u => u.flag pk TMR_STATUS.RUNNING && u.flag (tmrPage 0 15) TMR_STATUS.RUNNING
      && !u.flag (tmrPage 0 4) TMR_STATUS.RUNNING)
    && gives (.tmrGstop by0 0 8) (timing 7) (fun u => !u.flag pk TMR_STATUS.RUNNING)
    && ((watched false).captureLevel 0 3).isNone
    && gives (.captureEdge 0 3 true) (watched false) (fun u => (u.timer 0 3).captures == [(5000, 5000)])
    && gives (.captureEdge 0 3 true) (put (watched false) [(pk, TMR_CFG.CAP_DIV, 3)]) (fun u => (u.timer 0 3).edges == 1)
    && gives (.captureEdge 0 3 false) (watched true) (fun u => (u.timer 0 3).captures == [] && (u.timer 0 3).accepted == 5000)
    && gives (.captureEdge 0 3 true) (timing 7) (fun u => u.timers == (timing 7).timers)
    && (let driven := (put (watched false) [(pk, TMR_CFG.CAP_SEL, 17)]).setStencil 0 0 { outs := 2 }
      (driven.captureLevel 0 3) == some true && ((driven.sampleCapture 0 3).timer 0 3).captures == [(5000, 5000)]
      && (((put driven [(pk, TMR_CFG.FILT, 4)]).setTimer 0 3 { driven.timer 0 3 with since := some 4990 }).sampleCapture 0 3).timer 0 3
        == { driven.timer 0 3 with since := some 4990 })
    && gives (.timerCapture 0 3) ((timing 7).setTimer 0 3 { (timing 7).timer 0 3 with captures := [(4990, 4990)] }) (fun u =>
      u.fld pk TMR_CAP.COUNT == 7 && u.fld pk TMR_CAP.TICK == 4990 && raised u pk 2)
    && gives (.timerCapture 0 3) ((timing 7).setTimer 0 3 { (timing 7).timer 0 3 with captures := [(4991, 4991)] }) (fun u =>
      (u.timer 0 3).captures.length == 1)
    && gives (.tmrCapRead by0 0 3) (put run0 [(pk, TMR_STATUS.CAPTURED, 1)]) (fun u => !u.flag pk TMR_STATUS.CAPTURED)
    && (let s := put ((timing 7).setTimer 0 3 { (timing 7).timer 0 3 with captures := [(4990, 4990)] }) [(pk, TMR_STATUS.CAPTURED, 1)]
      let u := after (.timerCapture 0 3) s
      (u.timer 0 3).overran && raised u.tickOverruns pk 3 && (u.timer 0 3).took == some 5000
      && gives (.tmrCapRead by0 0 3) u (fun w => w.flag pk TMR_STATUS.CAPTURED && !(w.timer 0 3).overran))
    && ((((watched false).setTimer 0 3 { (watched false).timer 0 3 with since := some 4990 }).sampleCapture 0 3).timer 0 3).since == none
    && agentPanel (.thread ⟨1, 0⟩) == some 1
    && gives (.ratioMeasurement 0 123) run0 (fun u => u.fld (tmrPage 0 16) TMR_RATIO.RATIO == 123)) = true := by decide +kernel

/-- A row of a stencil engine: operation, jump-on-condition code, rows to go to, hold, outputs (R270). -/
def stenRow (op cond yes no hold : Nat) (outs mask : Nat) : Word :=
  BitVec.ofNat 64 (op + 256 * hold + 2 ^ 32 * outs + 2 ^ 40 * mask + 2 ^ 48 * cond + 2 ^ 54 * no + 2 ^ 59 * yes)

/-- Engine 1 of sector 0 in row 0, at the end of the row. -/
def engine (w : Word) (v : Stencil) : State :=
  (run0.setReg (stenPage 0 1) 0x200 w).setStencil 0 1 { v with
    running := true
    next := 5000
    left := 1 }

theorem witness_EnginesRunTheirRows :
    (let pk := stenPage 0 1
    gives (.stencilRowEnd 0 1 0) (engine (stenRow 0 0 7 9 0 0 0) {}) (fun u => (u.stencil 0 1).row == 7 && (u.stencil 0 1).entry == 5000)
    && gives (.stencilRowEnd 0 1 0) (engine (stenRow 0 9 7 9 0 0 0) {}) (fun u => (u.stencil 0 1).row == 9)
    && gives (.stencilRowEnd 0 1 0) (engine (stenRow 4 0 7 9 0 0 0) { tx := [5, 6] }) (fun u => (u.stencil 0 1).sr == 5
      && (u.stencil 0 1).tx == [6])
    && gives (.stencilRowEnd 0 1 0) (put (engine (stenRow 4 0 7 9 0 0 0) {}) [(pk, STEN_CFG.STALL, 1)]) (fun u => (u.stencil 0 1).stalled)
    && gives (.stencilRowEnd 0 1 0) (engine (stenRow 5 0 7 9 0 0 0) { sr := 8 }) (fun u => (u.stencil 0 1).rx == [8] && raised u pk 2)
    && gives (.stenStart 0 1) run0 (fun u => (u.stencil 0 1).startAt == some 5000)
    && gives (.stenStop 0 1) run0 (fun u => (u.stencil 0 1).stopAt == some 5000)
    && gives (.stenStart 0 1) State.reset (fun u => (u.stencil 0 1).startAt == none)
    && (let u := ((run0.setStencil 0 1 { startAt := some 4999 }).stenEdge 0 1).stencil 0 1
      u.running && u.entry == 5000 && u.row == 0 && u.startAt == none)
    && (let u := ((run0.setStencil 0 1 { running := true, stopAt := some 4999 }).stenEdge 0 1).stencil 0 1
      !u.running && u.stopAt == none)
    && gives (.stenGstart 0 3) run0 (fun u => (u.stencil 0 0).startAt == some 5000 && (u.stencil 0 1).startAt == some 5000
      && (u.stencil 0 2).startAt == none)
    && gives (.stenGstop 0 2) run0 (fun u => (u.stencil 0 1).stopAt == some 5000)
    && gives (.stenGclk 0 2) run0 (fun u => (u.stencil 0 1).next == 5000)
    && gives (.stenGclk 0 2) (later run0 5001) (fun u => (u.stencil 0 1).restart)
    && accepted run0 by0 pk 0x118 && gives (.stenClrFifo by0 0 1) (run0.setStencil 0 1 { tx := [1], rx := [2] }) (fun u =>
      (u.stencil 0 1).tx == [] && (u.stencil 0 1).rx == [] && raised u pk 1)
    && gives (.stenTxfWrite 0 1 7) run0 (fun u => (u.stencil 0 1).tx == [7])
    && gives (.stenTxfWrite 0 1 7) (run0.setStencil 0 1 { tx := List.replicate 8 1 }) (fun u => u.flag pk STEN_FLAGS.TX_OVER)
    && gives (.stenRowWrite 0 1 31 5) run0 (fun u => u.reg pk 0x2F8 == 5)
    && gives (.stenRowWrite 0 1 31 5) (engine 0 {}) (fun u => (u.stencil 0 1).rows == [(31, 5)])
    && upsets (.stenRowWrite 0 1 31 7) run0 pk && upsets (.stenRowWrite 0 1 31 (stenRow 0 21 0 0 0 0 0)) run0 pk
    && gives (.stenRxfRead by0 0 1) (run0.setStencil 0 1 { rx := [4, 5] }) (fun u => (u.stencil 0 1).rx == [5])
    && gives (.stenRxfRead by0 0 1) run0 (fun u => u.flag pk STEN_FLAGS.RX_UNDER)) = true := by decide +kernel

/-! ### The intent block and the Ethernet ports -/

/-- An association under which frames come in. -/
def rxSa (pn next : Word) : Association := ⟨false, 0, 0, [], pn, next⟩

/-- Partner 5 of panel 0 on channel 3, whose one target is slot 2 of sector 0 at gain 1; its frames come in on port 0. -/
def partners : State :=
  (put ((run0.setReg (intnPage 0) (0x400 + 160) 0xABCD).setReg (ethPage 0 0) 0xC00 0xABCD)
    [(ethPage 0 0, ETH_RXSC_CFG.EN, 1), (ethPage 0 0, ETH_RXSC_CFG.SA_EN, 1), (ethPage 0 0, ETH_SECY_CFG.VALIDATE, 2),
    (ethPage 0 1, ETH_STATUS.LINK, 1), (intnPage 0, INTN_CFG.ETHERTYPE, 0x88B5), (intnPage 0, INTN_PCFG.VALID.at 160, 1), (intnPage 0, INTN_PCFG.CHANNEL.at 160, 3), (intnPage 0, INTN_PCFG.BURST.at 160, 4),
    (intnPage 0, INTN_PCFG.FRESH_MAX.at 160, 1000), (intnPage 0, INTN_PCFG.RATE.at 160, 100),
    (intnPage 0, INTN_PENV.AMP_MAX.at 160, 100000), (intnPage 0, INTN_PLIM.STEP_MAX.at 160, 100000),
    (intnPage 0, INTN_PLIM.SILENCE.at 160, 10), (intnPage 0, INTN_CFG.PORT_EN, 3), (ethPage 0 0, ETH_STATUS.LINK, 1),
    (intnChannelPage 0, INTN_CCFG.TARGETS.at 24, 1), (intnChannelPage 0, INTN_TGT.GAIN.at 192, 256),
    (intnChannelPage 0, INTN_TGT.SLOT.at 192, 2), (intnPage 0, INTN_PSTAT.ABSENT.at 80, 1)]).setPort
    0 0 { associations := [rxSa 0 0] }

/-- A message: sequence 7, due at this tick, amplitude 1600 (R283). -/
def message (due : Nat) : List Byte :=
  [1, 0, 0, 0, 0, 7, 0, 0, 0, 0, 0, 0, BitVec.ofNat 8 (due / 256), BitVec.ofNat 8 due, 0, 0, 6, 0x40, 0, 0]

/-- It waits in the queue. -/
def queued (s : State) (due : Nat) : State := s.setIntent 0 { queue := [⟨0xABCD, message due, 5000, 5000⟩] }

/-- A frame with a message, under a SecTAG or without one. -/
def intentFrame (tag : Option RxTag) (body : List Byte) : RxFrame :=
  ⟨List.replicate 12 0 ++ [0x88, 0xB5] ++ body, true, tag, []⟩

/-- The SecTAG of this packet number. -/
def tagged (pn : BitVec 32) : RxTag := ⟨0xABCD, true, 0, pn, false, true, true⟩

theorem witness_IntentsPassTheirChecks :
    (let pk := intnPage 0
    partners.portsRun 0 && partners.flag (ethPage 0 0) ETH_STATUS.LINK && partners.partnerOf 0 0xABCD == some 5
    && partners.partnerOf 0 0xABCE == none
    && partners.isIntent 0 0 (intentFrame none [])
    && gives (.intentFrameReceived 0 0 none (intentFrame none (List.replicate 46 0)).bytes) partners (fun u =>
      u.fld pk INTN_DROP.UNSECURED == 1 && raised u pk 4)
    && gives (.rxFrame 0 0 (intentFrame (some (tagged 9)) (message 6000))) partners (fun u =>
      (u.intent 0).queue == [⟨0xABCD, message 6000, 5000, 5000⟩] && (u.budget 0 5).spent == 1
      && (u.port 0 0).associations == [rxSa 10 10])
    && gives (.intentFrameReceived 0 1 none (intentFrame none (List.replicate 46 0)).bytes) partners (fun u =>
      (u.intent 0).later.map Prod.fst == [none] && (u.laterFrames 0).fld pk INTN_DROP.UNSECURED == 1)
    && (partners.portStage 0 0 (some 0xABCE) []).fld pk INTN_LAST_UNKNOWN.SCI == 0xABCE
    && ((put partners [(pk, INTN_PSTAT.QUAR.at 80, 1)]).portStage 0 0 (some 0xABCD) []).fld pk INTN_DROP.QUARANTINED == 1
    && (let u := (partners.setBudget 0 5 { spent := 4 }).portStage 0 0 (some 0xABCD) []
      u.pstat 0 5 INTN_PSTAT.QUAR == 1 && u.pstat 0 5 INTN_PSTAT.LAST_REJECT == 1)
    && ((partners.setIntent 0 { queue := List.replicate 8 ⟨0, [], 0, 0⟩ }).portStage 0 0 (some 0xABCD) []).fld
      pk INTN_DROP.BACKLOG == 1
    && (let s := later (queued partners 6000) 5032
      (s.nextIntent 0).isSome && ((s.tickIntent 0).intent 0).queue == [])
    && gives (.tokenRefill 0 5) (partners.setBudget 0 5 { spent := 4, since := 4900 }) (fun u => (u.budget 0 5).spent == 3
      && (u.budget 0 5).since == 5000)
    && gives (.tokenRefill 0 5) (partners.setBudget 0 5 { spent := 4, since := 4901 }) (fun u => (u.budget 0 5).spent == 4)
    && gives (.intentMessageTaken 0) (queued partners 6000) (fun u => u.contribution 0 5 == 1600 && !u.absent 0 5 && raised u pk 2
      && (u.intent 0).out == [⟨5320, 3, loopPage 0 2, 0x120, 1600, 6000⟩] && u.flight == [])
    && gives (.intentMessageTaken 0) (later (queued partners 6000) 5320) (fun u => (u.intent 0).out == []
      && u.flight.map (fun e => (e.page, e.off, e.data, e.due, e.issued)) == [(loopPage 0 2, 0x120, 1600, some 6000, 5320)])
    && (let s := partners.setIntent 0 { out := [⟨5000, 3, loopPage 0 2, 0x120, 1, 6000⟩, ⟨5001, 3, loopPage 0 2, 0x120, 2, 6000⟩] }
      ((s.issueWrites 0).intent 0).out.length == 1 && (s.issueWrites 0).flight.map (fun e => (e.data, e.due)) == [(1, some 6000)])
    && partners.intentCode 0 5 ⟨0, message 5000, 5000, 5000⟩ == 0 && partners.intentCode 0 5 ⟨0, message 4999, 5000, 5000⟩ == 3
    && partners.intentCode 0 5 ⟨0, message 21000, 5000, 5000⟩ == 0 && partners.intentCode 0 5 ⟨0, message 21001, 5000, 5000⟩ == 4
    && partners.intentCode 0 5 ⟨0, (message 6000).drop 1, 5000, 5000⟩ == 2 && !partners.badFormat 0 5 (message 6000)
    && (put partners [(pk, INTN_PSTAT.SEEN.at 80, 1), (pk, INTN_PSTAT.SEQ.at 80, 7)]).intentCode 0 5 ⟨0, message 6000, 5000, 5000⟩ == 5
    && (put partners [(pk, INTN_PCFG.TIME.at 160, 1)]).intentCode 0 5 ⟨0, message 6000, 5000, 5000⟩ == 8
    && gives (.intentMessageTaken 0) (queued (put partners [(pk, INTN_PCFG.FAULT_LIMIT.at 160, 1)]) 4999) (fun u =>
      u.pstat 0 5 INTN_PSTAT.QUAR == 1 && raised u pk 3)
    && gives (.intentMessageTaken 0) (queued (put partners [(pk, INTN_PCFG.VALID.at 160, 0)]) 6000) (fun u =>
      u.fld pk INTN_DROP.UNKNOWN == 1)
    && (let s := (put partners [(pk, INTN_PSTAT.ABSENT.at 80, 0), (pk, INTN_PCONTRIB.AMP.at 80, 9)]).setBudget 0 5 { lastDue := some 4360 }
      gives (.partnerSilence 0 5) (put s [(intnChannelPage 0, INTN_CCFG.DECAY.at 24, 0)]) (fun u => u.absent 0 5 && raised u pk 1
        && u.flight.map (fun e => (e.off, e.due)) == [(0x120, some 5064)])
      && gives (.partnerSilence 0 5) (put s [(intnChannelPage 0, INTN_CCFG.DECAY.at 24, 1)]) (fun u =>
        u.flight.map (fun e => (e.off, e.due)) == [(0x128, some 5064)])
      && gives (.partnerSilence 0 5) (later s 4999) (fun u => !u.absent 0 5)
      && gives (.partnerSilence 0 5) (queued s 6000) (fun u => !u.absent 0 5 && (u.budget 0 5).lastDue == some 6000))
    && accepted partners by0 pk (0xC00 + 80) && accepted partners by0 pk (0x408 + 160)
    && gives (.quarClear by0 0 5) (put partners [(pk, INTN_PSTAT.QUAR.at 80, 1), (pk, INTN_PSTAT.FAULTS.at 80, 3)]) (fun u =>
      u.pstat 0 5 INTN_PSTAT.QUAR == 0 && u.pstat 0 5 INTN_PSTAT.FAULTS == 0)
    && gives (.partnerValidChange by0 0 5 false) (put partners [(pk, INTN_PSTAT.ABSENT.at 80, 0)]) (fun u => !u.partnerValid 0 5
      && u.absent 0 5 && raised u pk 1)
    && gives (.partnerValidChange by0 0 5 true) (put partners [(pk, INTN_PCFG.VALID.at 160, 0)]) (fun u => u.partnerValid 0 5)) = true := by
  decide +kernel

/-- Port 1 of panel 0 is up, with rings of 4 KiB in bank 1 and bank 2. -/
def port : State :=
  put run0 [(ethPage 0 1, ETH_STATUS.LINK, 1), (ethPage 0 1, ETH_CFG.EN, 1), (ethPage 0 1, ETH_RX_BASE.ADDR, 0x40000 / 128),
    (ethPage 0 1, ETH_RX_BASE.EN, 1), (ethPage 0 1, ETH_RX_SIZE.SIZE, 32), (ethPage 0 1, ETH_TX_BASE.ADDR, 0x80000 / 128),
    (ethPage 0 1, ETH_TX_BASE.EN, 1), (ethPage 0 1, ETH_TX_SIZE.SIZE, 32), (ethPage 0 1, ETH_TX_TAIL.OFFSET, 72)]

/-- A frame of 60 bytes. -/
def frame : RxFrame := ⟨(List.range 60).map (fun k => BitVec.ofNat 8 k), true, none, []⟩

/-- An installed transmit association. -/
def sa (pn : Word) : Association := ⟨true, 0, 0, [], pn, 0⟩

/-- A frame waits for transmission. -/
def sending (more : List (Nat × Fld × Nat)) (a : List Association) : State :=
  (put port more).setPort 0 1 { txq := [⟨3, false, []⟩, ⟨5, false, [1]⟩], associations := a }

theorem witness_PortsFollowTheirConfiguration :
    (let pk := ethPage 0 1
    let secy := [(pk, ETH_SECY_CFG.XPN, 0), (pk, ETH_SECY_CFG.PROTECT, 1), (pk, ETH_SECY_CFG.TX_EN, 1)]
    let auto (mine : Nat) : State := put run0 [(pk, ETH_CFG.EN, 1), (pk, ETH_CFG.AN_EN, 1), (pk, ETH_CFG.SPEED_ADV, mine),
      (pk, ETH_CFG.FEC_ADV, 3)]
    let shows (s : State) (l : LinkState) (up : Bool) (speed fec : Nat) : Bool := gives (.linkStateChange 0 1 l) s (fun u =>
      u.flag pk ETH_STATUS.LINK == up && u.fld pk ETH_STATUS.SPEED_NOW == speed && u.fld pk ETH_STATUS.FEC_NOW == fec)
    let under (mode : Nat) (a : List Association) : State := (put (port.setReg pk 0xC10 0xABCD) [(pk, ETH_RXSC_CFG.EN.at 16, 1),
      (pk, ETH_RXSC_CFG.SA_EN.at 16, 1), (pk, ETH_SECY_CFG.VALIDATE, mode), (pk, ETH_SECY_CFG.REPLAY, 1)]).setPort 0 1
        { associations := a }
    let sa1 : Association := { rxSa 5 5 with channel := 1 }
    let drops (s : State) (t : RxTag) (f : Fld) (kept : Bool) : Bool := gives (.rxFrame 0 1 { frame with tag := some t }) s (fun u =>
      u.fld pk f == 1 && (u.fld pk ETH_RX_HEAD.OFFSET == 0) == !kept)
    let rest : Sent := ⟨⟨0, false, List.replicate 500 0⟩, none, 0, 124⟩
    let cutting (q : List TxFrame) (c : Option Sent) : State := (put port [(pk, ETH_PREEMPT.ACTIVE, 1),
      (pk, ETH_PREEMPT.PREEMPTABLE, 1)]).setPort 0 1 { txq := q, cut := c }
    port.portsRun 0 && wireLength frame == 64
    && shows (put (auto 0) [(pk, ETH_CFG.AN_EN, 0), (pk, ETH_CFG.FORCE_SPEED, 1), (pk, ETH_CFG.FORCE_FEC, 2)]) ⟨true, true, 0, true, true⟩
      true 1 2
    && shows (auto 3) ⟨true, true, 3, true, false⟩ true 1 2 && shows (auto 1) ⟨true, true, 3, true, true⟩ true 0 1
    && shows (auto 2) ⟨true, true, 1, true, true⟩ false 0 0
    && gives (.linkStateChange 0 1 ⟨true, true, 3, true, true⟩) (auto 3) (fun u => raised u pk 0)
    && gives (.rxFrame 0 1 { frame with fcs := false }) port (fun u => u.fld pk ETH_RX_DROPS.FCS == 1)
    && gives (.rxFrame 0 1 { frame with bytes := List.replicate 12 0 ++ [0x88, 0x08] ++ List.replicate 46 0 }) port (fun u =>
      u.fld pk ETH_RX_DROPS.CONTROL == 1 && raised u pk 7)
    && drops (under 2 [sa1]) { tagged 9 with wellFormed := false } ETH_SECY_DROPS.OTHER false
    && drops (under 0 [sa1]) { tagged 9 with encrypted := true } ETH_SECY_DROPS.OTHER false
    && drops (under 2 [sa1]) { tagged 9 with sci := 1 } ETH_SECY_DROPS.NOSCI false
    && drops (under 1 [sa1]) { tagged 9 with sci := 1 } ETH_SECY_DROPS.NOSCI true
    && drops (under 2 []) (tagged 9) ETH_SECY_DROPS.OTHER false && drops (under 1 []) (tagged 9) ETH_SECY_DROPS.OTHER true
    && drops (under 1 [sa1]) (tagged 4) ETH_SECY_DROPS.REPLAY false
    && drops (under 2 [sa1]) { tagged 9 with icv := false } ETH_SECY_DROPS.ICV false
    && drops (under 1 [sa1]) { tagged 9 with icv := false } ETH_SECY_DROPS.ICV true
    && gives (.rxFrame 0 1 { frame with tag := some (tagged 9) }) (under 2 [sa1]) (fun u =>
      (u.port 0 1).associations == [{ rxSa 10 10 with channel := 1 }] && u.word 0 0x40000 == r (60 + 2 ^ 19 + 2 ^ 20))
    && gives (.rxFrame 0 1 { frame with bytes := [] }) port (fun u => u.fld pk ETH_RX_DROPS.LENGTH == 1)
    && gives (.rxFrame 0 1 frame) (put port [(pk, ETH_RX_BASE.EN, 0)]) (fun u => u.fld pk ETH_RX_DROPS.NOBUF == 1)
    && gives (.rxFrame 0 1 frame) port (fun u => u.fld pk ETH_RX_HEAD.OFFSET == 80 && u.word 0 0x40000 == r 60
      && u.word 0 0x40010 == r 0x0706050403020100 && raised u pk 6)
    && gives (.rxFrame 0 1 frame) (put port [(pk, ETH_RX_TAIL.OFFSET, 80)]) (fun u => u.fld pk ETH_RX_DROPS.NOBUF == 1)
    && gives (.rxFrame 0 1 { frame with rivals := [some 0] }) port (fun u => u.word 0 0x40000 == voidWord)
    && gives (.txRecord 0 1) (words port [(0x80000, r (BitVec.ofNat 64 (60 + 5 * 65536)))]) (fun u => u.fld pk ETH_TX_HEAD.OFFSET == 72
      && (u.port 0 1).txq.map (fun f => (f.cls, f.bytes.length)) == [(5, 60)])
    && gives (.txRecord 0 1) (words port [(0x80000, r 59)]) (fun u => u.fld pk ETH_TX_BAD.COUNT == 1 && (u.port 0 1).txq == [])
    && gives (.txRecord 0 1) { words port [(0x80000, r 60)] with badWords := [memKey 0 0x80008] } (fun u =>
      u.fld pk ETH_TX_BAD.COUNT == 1 && u.fld pk ETH_TX_HEAD.OFFSET == 72)
    && (sending [] []).nextFrame 0 1 == some (⟨5, false, [1]⟩, none) && (sending [] []).gateOpen 0 1 5
    && gives (.txFrameSent 0 1 0) (sending [] []) (fun u => (u.port 0 1).txq == [⟨3, false, []⟩]
      && u.fld pk ETH_TX_FRAMES.COUNT == 1)
    && gives (.txFrameSent 0 1 0) (sending secy []) (fun u => (u.port 0 1).txq.length == 2)
    && gives (.txFrameSent 0 1 0) (sending secy [sa 7]) (fun u => (u.port 0 1).associations == [sa 8])
    && gives (.txFrameSent 0 1 0) (sending secy [sa 0xFFFFFFFF]) (fun u => (u.port 0 1).txq.length == 2)
    && gives (.txFrameSent 0 1 0) (sending secy [sa 0xBFFFFFFE]) (fun u => (u.port 0 1).associations == [sa 0xBFFFFFFF])
    && gives (.txFrameSent 0 1 0) (sending secy [sa 0xBFFFFFFF]) (fun u => raised u pk 4)
    && (cutting [rest.frame] none).nextFrame 0 1 == some (rest.frame, none)
    && (cutting [⟨3, false, []⟩] (some rest)).nextFrame 0 1 == some (⟨3, false, []⟩, none)
    && (cutting [] (some rest)).nextFrame 0 1 == some (rest.frame, some rest)
    && gives (.txFrameSent 0 1 400) (cutting [] (some rest)) (fun u => (u.port 0 1).cut == none && u.fld pk ETH_TX_FRAMES.COUNT == 1)
    && (cutting [rest.frame, ⟨3, false, []⟩] none).mayCut 0 1 rest.frame 504 0 124
    && !(cutting [rest.frame, ⟨3, false, []⟩] none).mayCut 0 1 rest.frame 504 0 59
    && accepted port by0 pk 0x120 && accepted port by0 pk 0x158
    && gives (.gclChange by0 0 1) (put port [(pk, ETH_GCL_CFG.ADMIN_LEN, 128), (pk, ETH_GCL_CYCLE.ADMIN, 1000)]) (fun u =>
      u.flag pk ETH_GCL_CFG.PENDING)
    && upsets (.gclChange by0 0 1) (put port [(pk, ETH_GCL_CFG.ADMIN_LEN, 129), (pk, ETH_GCL_CYCLE.ADMIN, 1000)]) pk
    && gives (.gclChangeApplied 0 1 7000) (put port [(pk, ETH_GCL_CFG.PENDING, 1), (pk, ETH_GCL_CFG.ADMIN_LEN, 2),
      (pk, ETH_GCL_CYCLE.ADMIN, 1000), (pk, ETH_GCL_ADMIN.GATES.at 8, 3)]) (fun u => u.fld pk ETH_GCL_CFG.OPER_LEN == 2
        && u.fld pk (ETH_GCL_OPER.GATES.at 8) == 3 && raised u pk 5)
    && gives (.gclChangeApplied 0 1 7001) (put port [(pk, ETH_GCL_CFG.PENDING, 1), (pk, ETH_GCL_CYCLE.ADMIN, 1000)]) (fun u =>
      u.flag pk ETH_GCL_CFG.PENDING)
    && gives (.gateEntryExpiry 0 1 399) (put port [(pk, ETH_GCL_CFG.OPER_LEN, 2), (pk, ETH_GCL_CYCLE.OPER, 1000),
      (pk, ETH_GCL_OPER.INTERVAL, 400)]) (fun u => (u.port 0 1).gatePos == 0)
    && gives (.gateEntryExpiry 0 1 400) (put port [(pk, ETH_GCL_CFG.GATE_EN, 1), (pk, ETH_GCL_CFG.OPER_LEN, 2), (pk, ETH_GCL_CYCLE.OPER, 1000),
      (pk, ETH_GCL_OPER.INTERVAL, 400)]) (fun u => (u.port 0 1).gatePos == 1)
    && gives (.preemptVerifyDone 0 1 false) (put port [(pk, ETH_PREEMPT.VERIFY, 1)]) (fun u => u.fld pk ETH_PREEMPT.VERIFY == 3)
    && gives (.saLoadGo by0 0 1) (put port [(lifePage, LIFE_SECURE.SIZE, 2)]) (fun u => u.flag pk ETH_SA_LOAD.BUSY)
    && gives (.saLoadDone 0 1) (words (put port [(pk, ETH_SA_LOAD.BUSY, 1), (pk, ETH_SA_LOAD.DIR, 1), (pk, ETH_SA_LOAD.RECORD, 1)])
      [(0x1C0040, r 77)]) (fun u => (u.port 0 1).associations.map (fun a => (a.transmit, a.record.head?)) == [(true, some 77)])
    && gives (.saLoadDone 0 1) { put port [(pk, ETH_SA_LOAD.BUSY, 1)] with badWords := [memKey 0 0x1C0038] } (fun u =>
      u.flag pk ETH_SA_LOAD.ERROR)
    && (let role (k t : Nat) : State := later (put port [(pk, ETH_PTP.ROLE, k)]) t
      gives (.ptpIntervalExpiry 0 1 true) (role 2 1250000000) (fun u => (u.port 0 1).pdelays == 1)
      && gives (.ptpIntervalExpiry 0 1 true) (role 2 1249999999) (fun u => (u.port 0 1).pdelays == 0)
      && gives (.ptpIntervalExpiry 0 1 false) (role 1 156250000) (fun u => (u.port 0 1).syncs == 1)
      && gives (.ptpIntervalExpiry 0 1 false) (role 2 156250000) (fun u => (u.port 0 1).missed == 1)
      && gives (.ptpIntervalExpiry 0 1 false) ((put (role 2 156250000) [(pk, ETH_STATUS.PTP_SYNC, 1), (canvPage, CANV_DISC.SOURCE, 2),
        (canvPage, CANV_DISC.PTP_PORT, 1)]).setPort 0 1 { missed := 2 }) (fun u => !u.flag pk ETH_STATUS.PTP_SYNC && raised u pk 2
          && raised u canvPage 7))
    && (let mine := dram.dramThere 0 0x10000000000
      let far := (put port [(pk, ETH_RX_BASE.ADDR, 0x10000000000 / 128)]).setPanel 0 { live.panel 0 with dramInit := true }
      mine && far.ringWaits 0 1 && gives (.rxFrame 0 1 frame) far (fun u => (u.port 0 1).held.length == 1 && u.fld pk ETH_RX_DROPS.NOBUF == 0)
      && !port.ringWaits 0 1
      && ((port.setPort 0 1 { held := [(frame, none, 4000)] }).tickHeld 0 1).fld pk ETH_RX_HEAD.OFFSET == 80)
    && (let busy := (cutting [rest.frame, ⟨3, false, []⟩] none).setPort 0 1 { txq := [rest.frame, ⟨3, false, []⟩], onWire := some rest.frame }
      busy.nextFrame 0 1 == some (rest.frame, none) && busy.takeWire 0 1 == busy
      && ((cutting [⟨3, false, []⟩] none).takeWire 0 1).port 0 1 == { txq := [⟨3, false, []⟩], onWire := some ⟨3, false, []⟩ }
      && gives (.txFrameSent 0 1 124) busy (fun u => (u.port 0 1).cut == some rest && (u.port 0 1).onWire == some ⟨3, false, []⟩
        && u.fld pk ETH_TX_FRAMES.COUNT == 0)
      && ((words (put port [(pk, ETH_TX_BASE.ADDR, 0x1C0000 / 128)]) [(0x1C0000, r 60)]).txWords 0 1 [0]).1 == [none])
    && gives (.pdelayResponse 0 1 123) (put port [(pk, ETH_PTP.ROLE, 2)]) (fun u => u.fld pk ETH_PTP_DELAY.MEAN == 123)
    && gives (.ptpSyncMessage 0 1 9 0) (put port [(pk, ETH_PTP.ROLE, 2)]) (fun u => u.flag pk ETH_STATUS.PTP_SYNC && raised u pk 2)
    && (let d := put port [(pk, ETH_PTP.ROLE, 2), (canvPage, CANV_DISC.SOURCE, 2), (canvPage, CANV_DISC.PTP_PORT, 1)]
      d.fld canvPage CANV_DISC.PTP_PANEL == 0 && !d.flag canvPage CANV_DISC_STATUS.HOLDOVER)) = true := by decide +kernel

/-! ### Continuity -/

/-- Panel 0 journals its first thread, with an epoch of 1250 ticks. -/
def journaling (more : List (Nat × Fld × Nat)) (j : Journal) : State :=
  (put run0 ([(jrnlPage 0, JRNL_CFG.EPOCH, 1), (jrnlPage 0, JRNL_CFG.THREADS, 1), (jrnlPage 0, JRNL_RING_SIZE.SIZE, 8192),
    (jrnlPage 0, JRNL_HOLD_SIZE.SIZE, 8192), (jrnlPage 0, JRNL_RING.ADDR, 0x60000 / 128), (jrnlPage 0, JRNL_MIRROR.ADDR, 0x60000 / 128),
    (jrnlPage 0, JRNL_STATUS.ACTIVE, 1)] ++ more)).setJournal 0 j

theorem witness_BoundariesCaptureThreads :
    (let pk := jrnlPage 0
    let s := journaling [] { epochLen := 1 }
    let hold : HeldWrite := ⟨2, 0x40010, x8 5, false⟩
    s.onGrid 0 && !(later s 5001).onGrid 0 && s.mode 0 == RUN && (s.panel 0).resetting == none && s.ringRoom 0 50
    && (s.handover 0).plannedAt == none && !s.closesEarly 0
    && gives (.epochBoundary 0) s (fun u => (u.journal 0).epoch == 1 && (u.journal 0).openAt == some 5000
      && (u.journal 0).openCkpt.map Checkpoint.thread == [0] && u.flag pk JRNL_STATUS.CLOSING)
    && gives (.epochBoundary 0) (journaling [] { epochLen := 1, openAt := some 3750 }) (fun u => u.flag pk JRNL_STATUS.CLOSE_LATE)
    && gives (.epochBoundary 0) (journaling [(pk, JRNL_RING_SIZE.SIZE, 3)] { epochLen := 1 }) (fun u => u.flag pk JRNL_STATUS.STALLED)
    && gives (.epochBoundary 0) (journaling [(pk, JRNL_RING_SIZE.SIZE, 3)] { epochLen := 1 }) (fun u =>
      (u.journal 0).stalls == [(18, .ring 50)])
    && (let idle := (put run0 [(pk, JRNL_CFG.EPOCH, 1), (hovrPage 0, HOVR_STATE.STATE, 4)]).setHandover 0 { plannedAt := some 5000 }
      idle.onGrid 0 && gives (.epochBoundary 0) idle (fun u => u.fld (hovrPage 0) HOVR_STATE.STATE == 0
        && u.fld (hovrPage 0) HOVR_STATE.REFUSE == 5 && raised u (hovrPage 0) 2))
    && (let full := later (journaling [(pk, JRNL_RING_SIZE.SIZE, 3)] { epochLen := 1, entries := [⟨LOAD, 0, 0, List.replicate 42 0⟩] }) 5001
      full.closesEarly 0 && !full.ringRoom 0 50 && gives (.epochBoundary 0) full (fun u => !raised u pk 1))
    && (later (journaling [(pk, JRNL_HOLD_SIZE.SIZE, 1)] { epochLen := 1, held := [⟨0, 0x40010, x8 5, false⟩] }) 5001).closesEarly 0
    && gives (.epochBoundary 0) (later (journaling [(pk, JRNL_HOLD_SIZE.SIZE, 1)] { epochLen := 1, held := [⟨0, 0x40010, x8 5, false⟩] })
      5001) (fun u => raised u pk 1)
    && gives (.epochBoundary 0) ((put s [(modePage 0, MODE_STATE.MODE, HANDOVER)]).setHandover 0 { returnAt := some 4000 }) (fun u =>
      u.fld (hovrPage 0) HOVR_STATE.STATE == 5)
    && !s.unavailable 1 && !(s.handover 0).planning
    && (let c := journaling [(pk, JRNL_REGION_BASE.EN, 1), (pk, JRNL_REGION_BASE.LOCAL, 0x40), (pk, JRNL_REGION_SIZE.SIZE, 1),
        (pk, JRNL_REGION_MIRROR.MIRROR, 0x50)] { epochLen := 1, epoch := 3, openAt := some 5000, held := [hold] }
      c.region 0 0x40010 == some (0, 0x10)
      && gives (.checkpointClose 0) (put (c.setJournal 0 { c.journal 0 with stalls := [(0, .ring 9)] }) [(pk, JRNL_STATUS.STALLED, 1)])
        (fun u => !u.flag pk JRNL_STATUS.STALLED && (u.journal 0).stalls == [])
      && gives (.checkpointClose 0) c (fun u => (u.journal 0).closed == some 5000 && u.word 1 0x50010 == x8 5 && (u.journal 0).held == []))
    && accepted run0 by0 pk 0x100
    && (let e := put run0 [(pk, JRNL_RING_SIZE.SIZE, 8192), (pk, JRNL_HOLD_SIZE.SIZE, 8192)]
      !e.journalBad 0 && gives (.jrnlEnable by0 0 true) e (fun u => u.flag pk JRNL_CFG.EN && (u.journal 0).starting))
    && run0.journalBad 0 && upsets (.jrnlEnable by0 0 true) run0 pk
    && gives (.jrnlEnable by0 0 false) (put s [(pk, JRNL_CFG.EN, 1)]) (fun u => !u.flag pk JRNL_STATUS.ACTIVE)) = true := by
  decide +kernel

/-- Slice 0 has failed; thread 0 of its last checkpoint is to run on thread 9 of panel 1. -/
def failed (state : Nat) (more : List (Nat × Fld × Nat)) : State :=
  (put run0 ([(modePage 0, MODE_STATE.MODE, HANDOVER), (hovrPage 0, HOVR_STATE.STATE, state), (hovrPage 0, HOVR_MAP0.VALID0, 1),
    (hovrPage 0, HOVR_MAP0.TARGET0, 9)] ++ more)).setJournal 0 { closed := some 3750, threads := 1 }

/-- Its adopted thread. -/
def adopted (state : Nat) (th : Thread) : State := (failed state []).setThread 1 9 { th with adopted := some 0 }

theorem witness_PartnersTakeOver :
    (let pk := hovrPage 0
    accepted live by0 pk 0x118 && accepted live (.thread ⟨1, 0⟩) pk 0x120
    && gives (.hovrKick by0 0) run0 (fun u => (u.handover 0).wdogFrom == 5000)
    && gives (.watchdogExpiry 0) (put run0 [(pk, HOVR_CFG.WDOG, 4)]) (fun u => u.mode 0 == HANDOVER && (u.panel 0).held
      && u.fld pk HOVR_STATE.CAUSE == 3)
    && gives (.watchdogExpiry 0) (put run0 [(pk, HOVR_CFG.WDOG, 5)]) (fun u => u.mode 0 == RUN)
    && (failed 3 []).handoverCheck 0 == 0
    && gives (.hovrAdopt 0) (failed 3 []) (fun u => u.fld pk HOVR_STATE.STATE == 1 && (u.handover 0).restoring)
    && (failed 3 [(pk, HOVR_MAP0.VALID0, 0)]).handoverCheck 0 == 3
    && gives (.hovrAdopt 0) (failed 3 [(pk, HOVR_MAP0.VALID0, 0)]) (fun u => u.fld pk HOVR_STATE.REFUSE == 3 && raised u pk 2)
    && (put run0 [(modePage 1, MODE_STATE.MODE, REST)]).unavailable 1 && !run0.unavailable 1 && (run0.journal 0).closed == none
    && (let s := ((failed 1 []).setHandover 0 { restoring := true })
      gives (.threadRestore 0) s (fun u => !(u.handover 0).restoring)
      && gives (.threadRestore 0) (s.setJournal 0 { closed := some 3750, threads := 1, closedCkpt := [⟨0, runner, []⟩] }) (fun u =>
        (u.thread 1 9).adopted == some 0 && (u.thread 1 9).run == .running && (u.thread 1 9).csp == 0x44000))
    && (adopted 1 runner).carrier 0 0 == some 9 && (adopted 1 runner).carrier 0 1 == none && !(adopted 1 runner).replaying 1 9
    && gives (.threadThrough 0 0) (adopted 1 runner) (fun u => u.fld pk HOVR_STATE.STATE == 2 && raised u pk 3)
    && gives (.threadThrough 0 0) ((adopted 1 runner).setThread 1 8 { runner with adopted := some 1 }) (fun u => (u.thread 1 9).through
      && u.fld pk HOVR_STATE.STATE == 1)
    && gives (.hovrPlanned 0) run0 (fun u => u.fld pk HOVR_STATE.STATE == 4)
    && gives (.hovrRelease (.thread ⟨1, 0⟩) 0) ((failed 2 []).setPanel 0 { live.panel 0 with held := true }) (fun u => !(u.panel 0).held
      && (u.handover 0).released)
    && gives (.hovrReturn 0) ((failed 2 []).setHandover 0 { released := true }) (fun u => (u.handover 0).returnAt == some 5000)
    && gives (.returnComplete 0) ((adopted 5 runner).setThread 0 0 {}) (fun u => u.fld pk HOVR_STATE.STATE == 0 && u.mode 0 == RUN
      && (u.thread 0 0).csp == 0x44000 && (u.thread 1 9).adopted == none)
    && gives (.returnComplete 0) (adopted 5 runner) (fun u => u.fld pk HOVR_STATE.REFUSE == 2 && u.mode 0 == HANDOVER)) = true := by
  decide +kernel

/-! ### Modes, resets, supplies -/

theorem witness_CommandsMoveTheMode :
    (let pk := modePage 0
    let in_ (m u : Nat) : State := put (inMode m) [(pk, MODE_STATE.UNDER, u)]
    let hot (s : State) : State := put s [(tripPage 0, TRIP_OVERRIDE.THERMAL, 1)]
    let now (s : State) (m : Nat) (f : State → Bool) : Bool := f (s.commandNow 0 m)
    let queued (l : List Nat) : State := (inMode HOLD).setPanel 0 { live.panel 0 with orders := l }
    live.blocked 0 == 0 && (hot live).blocked 0 == 2
    && !live.timeStands && gives (.modeRun (.slice 0)) (inMode HOLD) (fun u => u.mode 0 == HOLD && (u.panel 0).orders == [RUN]
      && (u.panel 0).soon == some RUN && u.sectorMode 0 == RUN)
    && gives (.modeRun (.slice 0)) { inMode HOLD with boot := .cold } (fun u => u.mode 0 == RUN)
    && ((queued [RUN]).tickOrders 0).mode 0 == RUN && ((queued [RUN, COMMISSION]).tickOrders 0).mode 0 == COMMISSION
    && now (inMode PRIME) RUN (fun u => u.fld pk MODE_STATE.REFUSED == 1)
    && now (inMode HOLD) RUN (fun u => u.mode 0 == RUN && u.under 0 == RUN && raised u pk 0)
    && now (hot (inMode HOLD)) RUN (fun u => u.mode 0 == HOLD && u.fld pk MODE_STATE.REFUSED == 2)
    && now live COMMISSION (fun u => u.mode 0 == COMMISSION && (u.trip 0).released == 0)
    && now (inMode HOLD) HOLD (fun u => u.regs == (inMode HOLD).regs)
    && now live REST (fun u => u.flag pk MODE_STATE.REST_PENDING && u.mode 0 == RUN)
    && now (in_ HANDOVER RUN) REST (fun u => u.fld pk MODE_STATE.REFUSED == 6)
    && now (in_ HANDOVER RUN) HOLD (fun u => u.mode 0 == HANDOVER && u.under 0 == HOLD)
    && now (hot (in_ HANDOVER HOLD)) RUN (fun u => u.fld pk MODE_STATE.REFUSED == 2)
    && gives (.modeHold (.slice 0)) (live.setPanel 0 { live.panel 0 with commandAt := some (5000, true) }) (fun u =>
      (u.panel 0).orders == [])
    && now ((put (inMode HOLD) [(pk, MODE_STATE.LAST_CAUSE, 2)]).setPanel 0 { live.panel 0 with movedAt := some 5000 }) RUN
      (fun u => u.fld pk MODE_STATE.REFUSED == 3)
    && gives (.modeHold (.package 0x81)) live (fun u => u.mode 0 == HOLD && u.mode 7 == HOLD && u.mode 1 == RUN)) = true := by
  decide +kernel

/-- A slice that rests above `RUN` meets what its wake-up asks (its timers' catching up is a free value). -/
theorem test_restCanLeave :
    (let s := put (inMode REST) [(modePage 0, MODE_STATE.UNDER, RUN)]
    s.mode 0 == REST && s.under 0 != HOLD && s.present 0 && (s.panel 0).movedAt == none && (s.panel 0).commandAt == none) = true := by
  decide +kernel

/-- A start record of thread 4 of panel 0 (R332): entry 0x3000, status 0x10F, and a control stack. -/
def starting : State :=
  put (words run0 [(0x2200, tword 0xA0 0x3000), (0x2208, n 0x10F), (0x2228, n 0x44000)])
    [(modePage 0, MODE_START.ADDR, 0x2000 / 128), (modePage 0, MODE_AUTORUN.MASK, 16)]

theorem witness_ThreadsStartFromTheirRecords :
    (let pk := modePage 0
    let mine : Agent := .thread t0
    let resetting : State := (put starting []).setPanel 0 { live.panel 0 with resetting := some true }
    let still : State := resetting.setThread 0 0 {}
    starting.startGood 0 4 && !starting.startGood 0 5 && starting.present 0 && !(starting.panel 0).held
    && (starting.panel 0).resetting == none
    && accepted starting mine pk 0x128 && accepted starting mine pk 0x100
    && gives (.threadResetStop mine 0 1) starting (fun u => (u.thread 0 0).run == .stopped && (u.thread 0 0).status == 0x100
      && (u.thread 0 1).pc == (starting.thread 0 1).pc)
    && gives (.threadResetStart mine 0 0x30) starting (fun u => (u.thread 0 4).run == .running && (u.thread 0 4).pc == 0x3000
      && (u.thread 0 4).status == 0x10F &&& 0x1F1F && (u.thread 0 4).csp == 0x44000 && (u.thread 0 5).run == .stopped
      && (u.fld pk MODE_THREAD_STATE.BAD_START).testBit 5 && raised u pk 3)
    && (let busy := (put starting [(pk, MODE_START.ADDR, 0x10000000000 / 128)]).setPanel 0 { live.panel 0 with dramInit := true }
      busy.startWaits 0 4 && gives (.threadResetStart mine 0 0x10) busy (fun u => (u.panel 0).starts == [4]))
    && !starting.startWaits 0 4 && !starting.tagLost 0 (0x2200 / 128)
    && gives (.threadResetStart mine 0 0x10) resetting (fun u => (u.thread 0 4).run == .stopped)
    && gives (.modeWarm mine 0) starting (fun u => (u.panel 0).resetting == some true && u.fld pk MODE_PANEL_RESET.LAST == 1
      && u.fld pk MODE_PANEL_RESET.COUNT == 1 && (u.thread 0 0).run == .stopped)
    && gives (.modeWarm mine 0) (inMode PRIME) (fun u => (u.panel 0).resetting == none)
    && still.mode 0 != HANDOVER && (List.range 16).all (fun t => (still.thread 0 t).run == .stopped)
    && gives (.panelWarmResetDone 0) still (fun u => (u.panel 0).resetting == none && (u.thread 0 4).run == .running
      && (u.thread 0 4).pc == 0x3000 && (u.thread 0 5).run == .stopped)
    && !live.flag pk MODE_STATE.REST_PENDING
    && (put live [(pk, MODE_STATE.REST_PENDING, 1)]).restReady 0
    && gives (.restEntryComplete 0) (put live [(pk, MODE_STATE.REST_PENDING, 1)]) (fun u => u.mode 0 == REST && u.under 0 == RUN
      && (u.panel 0).island && (u.panel 0).restTick == 5000 && u.flag (ddrcPage 0) DDRC_STATE.SELF_REFRESH)) = true := by
  decide +kernel

/-- Every rail is up but one bank. -/
def dipping : State := { put live [(fadcPage 2 7, FADC_SCHED.MODE, 1)] with supply := { banksBelow := 0x8, dip := true } }

theorem witness_SuppliesAndResets :
    (let mp := modePkgPage
    let mine : Agent := .thread t0
    accepted live mine mp 0x100
    && gives (.pkgResetCmd mine 0xC01D) live (fun u => u.boot == .priming && u.ticks == 0 && u.mode 3 == PRIME
      && u.fld mp MODE_RESET_CAUSE.CAUSE == 3)
    && gives (.pkgResetCmd mine 0xC01E) live (fun u => u.boot == .done && u.mode 3 == RUN)
    && gives .pkgResetPin live (fun u => u.boot == .priming && u.resetPinLow && u.fld mp MODE_RESET_CAUSE.CAUSE == 2)
    && gives .powerOn { live with boot := .cold } (fun u => u.boot == .priming && u.ticks == 0)
    && (live.railThere (.bank 3) && !live.railBelow (.bank 3) && live.railThere (.core 2))
    && gives (.railBelowWarning (.bank 3)) (put live [(fadcPage 2 7, FADC_SCHED.MODE, 1)]) (fun u => u.railBelow (.bank 3) && raised u mp 0
      && u.supply.dip && u.fld (fadcPage 2 7) FADC_DIP_START.START == 5000 && raised u (fadcPage 2 7) 2)
    && live.supply.taken == none && !live.flag upntPage UPNT_STATUS.DIP_VALID
    && gives (.railBelowWarning (.core 2)) { live with supply := { taken := some [] } } (fun u =>
      u.flag upntPage UPNT_STATUS.DIP_OVERRUN && u.supply.taken == some [])
    && (let v (mv k : Nat) : RailReading := ⟨mv, k⟩
      gives (.railBelowWarning (.core 1) (v 764 64)) live (fun u => raised u mp 0)
      && gives (.railBelowWarning (.core 1) (v 765 64)) live (fun u => !raised u mp 0)
      && gives (.railBelowWarning (.core 1) (v 764 63)) live (fun u => !raised u mp 0)
      && gives (.railBelowReset (.core 3) (v 1649 64)) live (fun u => u.boot == .cold)
      && gives (.railBelowReset (.core 3) (v 1650 64)) live (fun u => u.boot == .done)
      && gives (.railBelowReset (.bank 3) (v 2969 64)) (put live [(mp, MODE_BANKV.V33, 8)]) (fun u => raised u mp 2)
      && gives (.railBelowReset (.bank 3) (v 2969 64)) (put live [(mp, MODE_BANKV.V33, 0)]) (fun u => !raised u mp 2)
      && gives (.railRecovered (.bank 3) (v 3149 1250)) (put dipping [(mp, MODE_BANKV.V33, 8)]) (fun u => !raised u mp 1)
      && gives (.railRecovered (.bank 3) (v 3150 1250)) (put dipping [(mp, MODE_BANKV.V33, 8)]) (fun u => raised u mp 1)
      && gives (.railRecovered (.bank 3) (v 3150 1249)) (put dipping [(mp, MODE_BANKV.V33, 8)]) (fun u => !raised u mp 1)
      && gives (.railBelowReset (.bank 3)) { live with boot := .cold } (fun u => u.supply.banksDown == 8 && u.regs == live.regs))
    && dipping.railBelow (.bank 3)
    && gives (.railBelowWarning (.bank 3)) dipping (fun u => u.mode 0 == RUN && !raised u mp 0)
    && gives (.railRecovered (.bank 3)) (put dipping [(fadcPage 2 7, FADC_DIP_END.OPEN, 1)]) (fun u => u.allRecovered && !u.supply.dip
      && u.fld (fadcPage 2 7) FADC_DIP_END.END == 5000 && raised u mp 1)
    && gives (.railRecovered (.bank 3)) (put dipping [(mp, MODE_SUPPLY.BELOW, 1)]) (fun u => !u.allRecovered && u.supply.dip)
    && gives (.railBelowReset (.core 5)) live (fun u => u.boot == .cold && u.fld mp MODE_RESET_CAUSE.RAIL == 5
      && u.fld mp MODE_RESET_CAUSE.CAUSE == 4)
    && gives (.railRecovered (.bank 3)) (put live [(mp, MODE_SUPPLY.BANK_LOW, 8)]) (fun u => u.fld mp MODE_SUPPLY.BANK_LOW == 0)
    && gives (.railRecovered (.core 2)) live (fun u => !raised u mp 1)
    && gives (.railBelowReset (.bank 3)) live (fun u => u.fld mp MODE_SUPPLY.BANK_LOW == 8 && raised u mp 2
      && u.pin 1 8 .a == .z)
    && gives (.railBelowReset (.bank 3)) { live with supply := { banksDown := 8 } } (fun u => !raised u mp 2)
    && gives (.railRecovered (.bank 3)) { live with supply := { banksDown := 9 } } (fun u => u.supply.banksDown == 1)
    && gives .dipRecordWritten { live with supply := { taken := some [(0, 7)] } } (fun u => u.supply.record == [(0, 7)]
      && u.supply.taken == none && u.flag upntPage UPNT_STATUS.DIP_VALID)
    && live.present 0
    && (let pk := modePage 0
      let thermal (u : State) : Bool := u.flag (tripPage 0) TRIP_OVERRIDE.THERMAL
      gives (.junctionReading 0 (-256)) live (fun u => u.sfld pk MODE_THERMAL.NOW == -256)
      && gives (.junctionReading 0 136) live (fun u => thermal u && u.mode 0 == HOLD && raised u pk 4 && (u.panel 0).warned)
      && gives (.junctionReading 0 135) live (fun u => !thermal u && u.mode 0 == RUN)
      && gives (.junctionReading 0 130) (put live [(tripPage 0, TRIP_OVERRIDE.THERMAL, 1)]) thermal
      && gives (.junctionReading 0 129) (put live [(tripPage 0, TRIP_OVERRIDE.THERMAL, 1)]) (fun u => !thermal u)
      && gives (.junctionReading 0 46) live (fun u => u.flag (fadcPage 0 15) FADC_CAL.CAL_DUE)
      && gives (.junctionReading 0 45) live (fun u => !u.flag (fadcPage 0 15) FADC_CAL.CAL_DUE))) = true := by
  decide +kernel

/-- Gesso of a package, one slice failing its checkers. -/
def gessoOf (bad : GessoSlice) : List GessoSlice := bad :: List.replicate 7 goodSlice

/-- A number in four bytes, least significant first. -/
def four (v : Nat) : List Byte := lowBytes 4 v

/-- An image of two words, its entry the second: magic, version 3, 2 words, entry 1, and the payload at 0x200. -/
def anImage : Image where
  answers := true
  flash := four 0x4B564931 ++ four 3 ++ four 2 ++ four 1 ++ List.replicate 0x1F0 0
    ++ [0x21, 5, 0, 0, 0, 0, 0, 0, 0, 0x21, 6, 0, 0, 0, 0, 0, 0, 0]

/-- What `PrimeEndsInHoldOrResume` asks, with slice 0 failing; nothing fails to sign, the package is blank. -/
theorem witness_PrimeEndsInHoldOrResume :
    (let s := State.reset
    s.boot == .priming && s.slotA == none && s.slotB == none && s.fuses.state == 0
    && (gessoOf goodSlice).length == s.variant.slices && rangesGood anImage && anImage.magic == imageMagic && anImage.payload == [n 5, n 6]
    && anImage.version == 3 && anImage.entry == 1 && !s.restored
    && (List.range 8).all (fun sl => (List.range 16).all (fun p => !s.flag (pwmpPage sl p) PWMP_CFG.AUTOSTART))
    && panelFails { goodSlice with checkers := 0 } && !panelFails goodSlice && !sectorFails goodSlice
    && s.fld (scrPage 0) ⟨0x100, 1, 0⟩ == 0 && s.present 7
    && decide (15000000 ≤ (later s 15000000).ticks) && ((later s 14999999).tickPrime).restored == false
    && (s.thread 0 0).run == .stopped && { s with fuses := { s.fuses with state := 4 } }.lifecycle == 4) = true := by
  decide +kernel

theorem witness_CommitsWriteTheOlderSlot :
    (let pk := upntPage
    let old : Painting := Painting.sealed ⟨slotMarker, .kv8, 4, 0, 0, [], [(3, n 1)]⟩
    let written : State := { live with slotA := some old }
    accepted live by0 pk 0x100 && (live.regs.map Prod.fst).Nodup && live.carriedPanels == []
    && gives (.upntCommit by0) live (fun u => u.flag pk UPNT_STATUS.BUSY && u.slotA.map (Painting.valid .kv8) == some false
      && u.commit.map (fun w => (w.slotB, w.data.gen, w.data.tick)) == some (false, 1, 5000))
    && gives (.upntCommit by0) written (fun u => u.slotA == some old && u.slotB.map (Painting.valid .kv8) == some false && old.valid .kv8
      && u.commit.map (fun w => (w.slotB, w.data.gen, w.data.secure)) == some (true, 5, [(3, n 1)]))
    && (let one := put written [(modePage 3, MODE_STATE.MODE, REST)]
      one.carriedPanels == [3] && gives (.upntCommit by0) one (fun u => u.fld pk UPNT_STATUS.CARRIED == 8))
    && gives (.upntCommit by0) (put live [(pk, UPNT_STATUS.BUSY, 1)]) (fun u => u.commit == none)
    && secured.secure by0 && !live.secure by0 && accepted secured by0 pk 0x100
    && gives (.upntCommitKeys by0) live (fun u => u.commit == none)
    && gives (.upntCommitKeys by0) (words secured [(0x1C0018, n 9)]) (fun u =>
      u.commit.map (fun w => w.data.secure) == some [(3, n 9)])
    && gives (.commitDone true) { live with commit := some ⟨true, old⟩ } (fun u => u.slotB == some old && u.slotA == none
      && u.commit == none && raised u pk 0 && !u.flag pk UPNT_STATUS.FAILED)
    && gives (.commitDone false) { live with commit := some ⟨true, old⟩ } (fun u => u.slotB == none && raised u pk 1
      && u.flag pk UPNT_STATUS.FAILED)
    && gives (.commitDone true) live (fun u => !raised u pk 0)) = true := by decide +kernel

/-- A package in this lifecycle state, its code secure. -/
def inLife (st : Nat) : State := { secured with fuses := { state := st }, image := some (70, 0x11, 0x22) }

theorem witness_LifecycleAndUnlock :
    (let pk := lifePage
    (inLife 0).secure by0 && accepted (inLife 0) by0 pk 0x168
    && gives (.lifeTransition by0 0x5C4A 2) (inLife 0) (fun u => u.fuses.state == 0 && raised u pk 4)
    && gives (.lifeTransition by0 0x5C4A 4) (inLife 4) (fun u => u.fuses.state == 4 && !raised u pk 4)
    && gives (.lifeTransition by0 0x5C4A 3) (inLife 2) (fun u => u.fuses.state == 2 && raised u pk 4)
    && gives (.lifeTransition by0 0x5C4B 1) (inLife 0) (fun u => u.fuses.state == 0 && !raised u pk 4)
    && (inLife 0).image.isSome && (put (inLife 2) [(pk, LIFE_STATE.UNLOCK, 2)]).fld pk LIFE_STATE.UNLOCK == 2
    && ((inLife 0).transition 1).map Fuses.state == some 1 && ((inLife 1).transition 2).map Fuses.state == some 2
    && gives (.lifeTransition by0 0x5C4A 1) (inLife 0) (fun u => u.fuses.state == 0 && u.burn.map Fuses.state == some 1
      && u.wiping && u.boot == .done)
    && (let going := after (.lifeTransition by0 0x5C4A 4) { inLife 2 with variant := .kv2 }
      let near := going.setPanel 1 { going.panel 1 with wipeBank7 := false }
      accepted { inLife 2 with variant := .kv2 } by0 pk 0x168
      && gives (.lifeTransition by0 0x5C4A 3) { inLife 1 with burn := some { state := 2 } } (fun u => u.burn == some { state := 2 })
      && gives (.bank7WipeDone 0) going (fun u => u.fuses.state == 2 && u.burn.isSome)
      && gives (.bank7WipeDone 0) near (fun u => u.fuses.state == 4 && u.burn == none && u.boot == .priming))
    && gives (.advanceFloor by0) (inLife 2) (fun u => u.fuses.floor == 64 && u.fld pk LIFE_BOOT.FLOOR == 64)
    && gives (.advanceFloor by0) (inLife 1) (fun u => u.fuses.floor == 0)
    && gives (.relock by0) (put (inLife 2) [(pk, LIFE_STATE.UNLOCK, 2)]) (fun u => u.fld pk LIFE_STATE.UNLOCK == 0)
    && accepted (inLife 2) .easel pk 0x280
    && gives (.unlockReq 0x0123) (inLife 2) (fun u => u.challenge && u.reg pk 0x1A8 == 0x0123 && u.reg pk 0x180 == 0)
    && gives (.unlockReq 0x0123) (put (inLife 2) [(pk, LIFE_STATE.TRIES, 3)]) (fun u => !u.challenge)
    && gives .unlockSubmit (put (inLife 2) [(pk, LIFE_STATE.TRIES, 3)]) (fun u => raised u pk 3 && u.fld pk LIFE_STATE.TRIES == 3)
    && gives .unlockSubmit (put (inLife 2) [(pk, LIFE_STATE.TRIES, 2)]) (fun u => raised u pk 3
      && u.fld pk LIFE_STATE.TRIES == 3)) = true := by decide +kernel

theorem witness_TamperWipesTheKeys :
    (let pk := lifePage
    let keys : State := words { live with slotA := some (Painting.sealed ⟨slotMarker, .kv8, 4, 0, 0, [], [(3, n 1)]⟩) } [(0x1C0000, n 1), (0x2000, n 2)]
    let set (a : Nat) : State := put keys [(pk, ⟨0x158, 5, 4⟩, a)]
    gives (.tamperSense 2) { set 1 with boot := .cold } (fun u => u.fld pk LIFE_TAMPER_STATUS.COUNT == 0)
    && gives (.tamperSense 2) (set 0) (fun u => raised u pk 5 && u.fld pk LIFE_TAMPER_STATUS.SEEN == 4
      && u.fld pk LIFE_TAMPER_STATUS.COUNT == 1 && u.word 0 0x1C0000 == n 1)
    && gives (.tamperSense 2) { set 0 with fuses := { state := 2 } } (fun u => u.word 0 0x1C0000 == voidWord)
    && gives (.tamperSense 2) (set 1) (fun u => raised u pk 1 && u.word 0 0x1C0000 == voidWord && u.word 0 0x2000 == n 2
      && u.slotA.map Painting.secure == some [])
    && gives (.tamperSense 2) (set 2) (fun u => u.boot == .priming && u.mem == []
      && u.fld modePkgPage MODE_RESET_CAUSE.CAUSE == 5)
    && (set 3).fld pk ⟨0x158, 5, 4⟩ == 3
    && (let again := { after (.tamperSense 2) (set 1) with ticks := 5001 }
      again.wiping && again.tamperBusy.getLsbD 2
      && gives (.tamperSense 2) again (fun u => u.fld pk LIFE_TAMPER_STATUS.COUNT == 2 && u.boot == .done))
    && gives (.bank7WipeDone 3) { live.setPanel 3 { live.panel 3 with wipeBank7 := true } with tamperBusy := 4 } (fun u =>
      u.tamperBusy == 0 && !u.wiping)
    && gives (.tamperSenseEnd 2) (put live [(pk, LIFE_TAMPER_STATUS.NOW, 6), (pk, LIFE_TAMPER_STATUS.SEEN, 6)]) (fun u =>
      u.fld pk LIFE_TAMPER_STATUS.NOW == 2 && u.fld pk LIFE_TAMPER_STATUS.SEEN == 6)) = true := by decide +kernel

/-! ### Easel -/

/-- An access of Easel in progress. -/
def accessing (s : State) (op : Nat) (tagged : Bool) (a : Nat) (w : TWord) : State :=
  { s with jtag := { s.jtag with access := some ⟨op, tagged, 0, a, w⟩ } }

theorem witness_AccessesOfEasel :
    (let s := words live [(0x2000, i (-1))]
    let shut : State := { s with fuses := { state := 2 } }
    let scan : Scan := { board := 0, levels := 1, outputs := 1 }
    let pins : List Nat := [0, 255, 256, 320, 448, 460, 491]
    gives (.samplePreload scan) live (fun u => u.jtag.ir == 0x02)
    && pins.any (fun k => live.hasBall (ballOf k) && !(ballOf k).drives) && pins.any (fun k => live.hasBall (ballOf k) && (ballOf k).drives)
    && pins.any (fun k => decide (ballOf k = .pwm 0 0 .a)) && pins.any (fun k => !{ live with variant := .kv2 }.hasBall (ballOf k))
    && gives .tapReset (accessing s 1 true 0 0) (fun u => u.jtag == {})
    && gives (.clamp 1) live (fun u => u.jtag.ir == 3) && !live.resetPinLow
    && gives (.highz 1) { live with resetPinLow := true } (fun u => u.jtag.ir == 4 && u.jtag.caught == live.jtag.caught)
    && gives (.extest scan) { live with resetPinLow := true } (fun u => u.jtag.ir == 0)
    && gives (.easelAccess (0x4 : BitVec 128)) live (fun u => u.jtag.access == none && u.jtag.ir == 0x10)
    && gives (.easelAccess (2 ^ 126 + 2 ^ 125 + 0x2000 * 2 ^ 72 : BitVec 128)) live (fun u =>
      u.jtag.access == some ⟨1, true, 0, 0x2000, 0⟩)
    && live.jtag.access == none && gives .easelAccessDone live (fun u => u.jtag == live.jtag)
    && gives .easelAccessDone (accessing s 1 true 0x2004 0) (fun u => u.jtag.result == 2 && u.jtag.access == none)
    && s.easelOpen && !shut.easelOpen
    && gives .easelAccessDone (accessing shut 1 true 0x2000 0) (fun u => u.jtag.result == 3 && raised u easlPage 5)
    && gives .easelAccessDone (accessing s 1 true 0x2000 0) (fun u => u.jtag.result == 0 && u.jtag.word == i (-1))
    && gives .easelAccessDone (accessing s 1 false 0x2000 0) (fun u => u.jtag.word == r (-1))
    && gives .easelAccessDone (accessing s 2 true 0x2000 (n 7)) (fun u => u.word 0 0x2000 == n 7)
    && gives .easelAccessDone (accessing { s with badWords := [memKey 0 0x2000] } 1 true 0x2000 0) (fun u => u.jtag.result == 2)
    && (let away := s.setPanel 0 { live.panel 0 with held := true }
      away.panelAway 0 && gives .easelAccessDone (accessing away 1 true 0x2000 0) (fun u => u.jtag.result == 2))
    && s.panelSpot 0 0x10000000000 == .dead
    && (let lost : State := { s with fuses := { state := 3 } }
      lost.easelOpen && !lost.easelSecure && lost.panelSpot 0 0x1C0000 == .mem 0 0x1C0000 .bank
      && gives .easelAccessDone (accessing (words lost [(0x1C0000, n 3)]) 1 true 0x1C0000 0) (fun u => u.jtag.word == 0)
      && gives .easelAccessDone (accessing lost 2 true 0x1C0000 (n 3)) (fun u => u.jtag.result == 3))
    && (let k := tmrPage 0 4
      let a := pageAddr k TMR_RELOAD.VALUE.off
      regionOf 0 a == .page k TMR_RELOAD.VALUE.off && s.easelMay k TMR_RELOAD.VALUE.off && !shut.easelMay k TMR_RELOAD.VALUE.off
      && s.pageThere k
      && gives .easelAccessDone (accessing s 2 true a (r 77)) (fun u => u.fld k TMR_RELOAD.VALUE == 77)
      && gives .easelAccessDone (accessing (put s [(k, TMR_RELOAD.VALUE, 9)]) 1 true a 0) (fun u => u.jtag.word == r 9)
      && gives .easelAccessDone (accessing shut 1 true a 0) (fun u => raised u easlPage 5))
    && (let data := pageAddr easlPage 0x120
      s.easelMay easlPage 0x120 && s.pageThere easlPage && !s.tregOpen
      && gives .easelAccessDone (accessing s 1 true data 0) (fun u => u.jtag.result == 3 && raised u easlPage 5)
      && (let small : State := { s with variant := .kv2 }
        let gone := pageAddr (loopPage 5 0) 0x110
        !small.pageThere (loopPage 5 0) && gives .easelAccessDone (accessing small 1 true gone 0) (fun u => u.jtag.result == 0
          && u.jtag.word == 0)
        && gives .easelAccessDone (accessing small 2 true gone 0) (fun u => u.jtag.result == 2))
      && (let away := s.setPanel 1 { live.panel 1 with held := true }
        let there := 0x110000000000
        memoryOf 0 there == 1 && gives .easelAccessDone (accessing away 1 true there 0) (fun u => u.jtag.result == 2
          && raised u (fabPage 0) 4)))) = true := by decide +kernel

theorem witness_DebugActionsNeedTheirState :
    (let pk := easlPage
    let shut : State := { run0 with fuses := { state := 2 } }
    let develop (s : State) : State := { s with fuses := { state := 1 } }
    let stopped : State := put (starting.setPanel 0 { live.panel 0 with halted := true }) [(pk, EASL_STATUS.HALTED, 1)]
    let treg (sel : Nat) : State := put (stopped.setThread 0 0 { runner with stack := [.word (n 1), .word (n 2)] }) [(pk, EASL_TREG.SEL, sel),
      (pk, EASL_TTAG.TAG, 0x20)]
    !shut.easelOpen && run0.easelOpen && stopped.easelOpen
    && gives (.easlHalt 0) shut (fun u => raised u pk 5 && u.jtag.result == 3 && !(u.panel 0).halting)
    && gives (.easlTregWrite 3) shut (fun u => raised u pk 5) && gives (.easlInject 3) shut (fun u => raised u pk 5)
    && gives (.easlHalt 0) run0 (fun u => (u.panel 0).halting && u.mode 0 == HOLD)
    && gives (.easlHalt 3) (inMode PRIME) (fun u => (u.panel 3).halting && u.mode 3 == PRIME && u.fld pk EASL_CMD.PANEL == 3)
    && gives (.easlHalt 0) (inMode HANDOVER) (fun u => u.mode 0 == HANDOVER && u.under 0 == HOLD)
    && gives (.haltComplete 0) (run0.setPanel 0 { live.panel 0 with halting := true }) (fun u => (u.panel 0).halted
      && (u.fld pk EASL_STATUS.HALTED).testBit 0 && raised u pk 0)
    && !run0.halted 0 && gives (.easlResume 0) run0 (fun u => !raised u pk 2)
    && stopped.halted 0
    && gives (.easlHalt 0) (stopped.setThread 0 0 { runner with stepEnd := some 9 }) (fun u => (u.thread 0 0).stepEnd == some 0)
    && gives (.easlResume 0) stopped (fun u => !(u.panel 0).halted && raised u pk 2 && u.fld pk EASL_STATUS.HALTED == 0)
    && gives (.easlDreset 0) stopped (fun u => (u.panel 0).halted && (u.thread 0 4).pc == 0x3000 && (u.thread 0 5).run == .stopped)
    && gives (.easlStep 0 true 5) stopped (fun u => (u.thread 0 0).stepEnd == some 5 && u.fld pk EASL_STEP.COUNT == 5)
    && gives (.easlStep 0 true 0) stopped (fun u => (u.thread 0 0).stepEnd == none && u.flag pk EASL_STEP.STEP_IRQ)
    && gives (.easlStep 0 false 5) run0 (fun u => u.fld pk EASL_STEP.COUNT == 0)
    && gives (.stepEnd 0) (stopped.setThread 0 0 { runner with stepEnd := some 0 }) (fun u => (u.thread 0 0).stepEnd == none && raised u pk 1)
    && gives (.stepEnd 0) (stopped.setThread 0 0 { runner with stepEnd := some 1 }) (fun u => (u.thread 0 0).stepEnd == some 1)
    && gives (.easlTregWrite 3) run0 (fun u => raised u pk 5)
    && gives (.easlTregWrite 0x4567) (treg 0x200) (fun u => (u.thread 0 0).pc == 0x4567)
    && gives (.easlTregWrite 8) (treg 0x101) (fun u => (u.thread 0 0).stack == [.word (n 1), .word (i 8)])
    && gives (.easlTregWrite 8) (treg 0x10F) (fun u => !raised u pk 5 && (u.thread 0 0).stack.length == 2)
    && gives (.easlTregWrite 8) (treg 0x110) (fun u => raised u pk 5) && gives (.easlTregWrite 8) (treg 0x60) (fun u => raised u pk 5)
    && specialAssigned 0x01 && !specialAssigned 0x5F
    && gives (.easlTregWrite 8) (treg 0x5F) (fun u => raised u pk 5)
    && gives (.easlInject 0x107) (develop run0) (fun u => raised u pk 5)
    && gives (.easlInject 0x102) run0 (fun u => raised u pk 5)
    && gives (.easlInject 0x302) (develop run0) (fun u => (u.core 0 0).inject == some (2, true) && u.flag pk EASL_INJECT.DETECT)
    && gives (.easlInject 0x1B) (develop run0) (fun u => u.fld pk EASL_INJECT.CORE == 3 && (u.core 0 3).inject == none)) = true := by
  decide +kernel

end Sys2Proof.Tests
end

section
/-! The registers of panel pages (R39): where the fields of a register come from, and that the rows of a panel page hold
no RWT field. -/

namespace Sys2Proof.Proofs

open Sys2Proof Sys2Proof.Machine

/-- No field of a list of register rows is RWT. -/
def untimedRows (rows : List RegRow) : Bool := rows.all fun r => r.fields.all fun f => decide (f.acc ≠ .rwt)

/-- The fields that a list of rows gives the register at an offset, placed there: the search that `fieldsAt` runs on the
rows of the head and of the block. -/
def fieldsIn (rows : List RegRow) (off : Nat) : List FieldRow :=
  match rows.find? (fun r => r.holds off) with
  | some r => r.fields.map fun f => { fld := f.fld.at (off - r.first), acc := f.acc, rest := f.rest, reset := f.reset }
  | none => []

theorem exists_row_of_mem_fieldsIn {rows : List RegRow} {off : Nat} {f : FieldRow} (h : f ∈ fieldsIn rows off) :
    ∃ r ∈ rows, ∃ g ∈ r.fields, f.acc = g.acc := by
  unfold fieldsIn at h
  split at h
  next r hfind =>
    obtain ⟨g, hg, rfl⟩ := List.mem_map.mp h
    exact ⟨r, List.mem_of_find?_eq_some hfind, g, hg, rfl⟩
  next => cases h

theorem acc_ne_rwt_of_mem_fieldsIn {rows : List RegRow} (hrows : untimedRows rows = true) {off : Nat} {f : FieldRow}
    (h : f ∈ fieldsIn rows off) : f.acc ≠ .rwt := by
  obtain ⟨r, hr, g, hg, hacc⟩ := exists_row_of_mem_fieldsIn h
  simp only [untimedRows, List.all_eq_true, decide_eq_true_eq] at hrows
  exact hacc ▸ hrows r hr g hg

/-- A register's fields are found in the rows of its page. -/
theorem mem_fieldsIn_of_mem_fieldsAt {pk off : Nat} {f : FieldRow} (h : f ∈ fieldsAt pk off) :
    f ∈ fieldsIn (headRows pk) off ∨ ∃ b i, blockOf pk = some (b, i) ∧ f ∈ fieldsIn (blockRows b) off := by
  unfold fieldsAt at h
  split at h
  next =>
    refine (List.mem_append.mp h).imp id fun hblock => ?_
    split at hblock
    next b i hb => exact ⟨b, i, hb, hblock⟩
    next => cases hblock
  next =>
    split at h
    next b i hb =>
      split at h
      · cases h
      · exact .inr ⟨b, i, hb, h⟩
    next => cases h

theorem untimedRows_append {xs ys : List RegRow} (hx : untimedRows xs = true) (hy : untimedRows ys = true) :
    untimedRows (xs ++ ys) = true := by
  rw [untimedRows, List.all_append, Bool.and_eq_true]
  exact ⟨hx, hy⟩

/-- The common page head holds no RWT field, on any page (R377). -/
theorem untimedRows_headRows (pk : Nat) : untimedRows (headRows pk) = true := by
  refine untimedRows_append (untimedRows_append (by decide) ?events) ?owner
  case events =>
    split
    · split <;> decide
    · rfl
  case owner => split <;> decide

/-- The blocks of the panel windows (R379). -/
def panelBlocks : List Block :=
  [.scr, .ddrc, .evc, .jrnl, .fab, .intnPartner, .intnChannel, .eth, .dma, .dmaAlloc, .tmr, .tmrGlobal]

/-- One line of the page index: it names a panel block if its own block is one and the lines after it do. -/
theorem mem_panelBlocks_of_ite {c : Prop} [Decidable c] {b b' : Block} {i i' : Nat} {rest : Option (Block × Nat)}
    (hline : b' ∈ panelBlocks) (hrest : rest = some (b, i) → b ∈ panelBlocks) :
    (if c then some (b', i') else rest) = some (b, i) → b ∈ panelBlocks := by
  split
  · rintro ⟨⟩
    exact hline
  · exact hrest

theorem mem_panelBlocks_of_panelBlock {n i : Nat} {b : Block} : panelBlock n = some (b, i) → b ∈ panelBlocks := by
  unfold panelBlock
  iterate 14 refine mem_panelBlocks_of_ite (by decide) ?_
  nofun

/-- The register tables of the panel blocks hold no RWT field (R39). -/
theorem untimedRows_of_mem_panelBlocks : ∀ b ∈ panelBlocks, untimedRows (blockRows b) = true := by decide

theorem blockOf_of_isPanelPage {pk : Nat} (h : isPanelPage pk = true) : blockOf pk = panelBlock (pk % 4096) := by
  simp only [isPanelPage, Bool.and_eq_true, decide_eq_true_eq] at h
  obtain ⟨hlo, hhi⟩ := h
  rw [blockOf, if_neg (by omega), if_pos hhi]

theorem acc_ne_rwt_of_isPanelPage {pk off : Nat} (h : isPanelPage pk = true) {f : FieldRow} (hf : f ∈ fieldsAt pk off) :
    f.acc ≠ .rwt := by
  rcases mem_fieldsIn_of_mem_fieldsAt hf with hhead | ⟨b, i, hb, hblock⟩
  · exact acc_ne_rwt_of_mem_fieldsIn (untimedRows_headRows pk) hhead
  · rw [blockOf_of_isPanelPage h] at hb
    exact acc_ne_rwt_of_mem_fieldsIn (untimedRows_of_mem_panelBlocks b (mem_panelBlocks_of_panelBlock hb)) hblock

theorem timedReg_of_isPanelPage {pk : Nat} (h : isPanelPage pk = true) (off : Nat) : timedReg pk off = false := by
  simp only [timedReg, List.any_eq_false, decide_eq_true_eq]
  exact fun f hf => acc_ne_rwt_of_isPanelPage h hf

/-- Offset 0x040 of every page is the reader's copy of `DUE` (R40, R41). -/
theorem readReg_due (s : State) (ag : Agent) (pk : Nat) : (s.readReg ag pk 0x040).1 = s.dueWord (s.duePanel ag) pk := by
  simp [State.readReg, State.readAs]

theorem dueWord_of_isPanelPage {pk : Nat} (h : isPanelPage pk = true) (s : State) (panel : Nat) :
    s.dueWord panel pk = 0 := if_pos h

/-- Settles O7: the rows of panel pages hold no RWT field, and no panel has a copy of `DUE` there. -/
theorem panelPagesHaveNoTimedWrites : Obligations.PanelPagesHaveNoTimedWrites := by
  unfold Obligations.PanelPagesHaveNoTimedWrites
  refine fun pk hpanel => ⟨timedReg_of_isPanelPage hpanel, fun s ag => ?_⟩
  rw [readReg_due, dueWord_of_isPanelPage hpanel]

end Sys2Proof.Proofs
end

section
/-! Tagged words built of a tag and a payload (R169), and the classes that the computing instructions find in them. -/

namespace Sys2Proof.Proofs

open Sys2Proof Sys2Proof.Machine

theorem toNat_tword {tag : Nat} (h : tag < 256) (v : Word) : (tword tag v).toNat = tag * 2 ^ 64 + v.toNat := by
  have hv : v.toNat < 2 ^ 64 := v.isLt
  rw [tword, BitVec.toNat_ofNat, Nat.mod_eq_of_lt h, Nat.mod_eq_of_lt (by omega)]

@[simp] theorem payload_tword (tag : Nat) (v : Word) : payload (tword tag v) = v := by
  apply BitVec.eq_of_toNat_eq
  have hv : v.toNat < 2 ^ 64 := v.isLt
  simp only [payload, tword, BitVec.toNat_setWidth, BitVec.toNat_ofNat]
  omega

theorem tagOf_tword {tag : Nat} (h : tag < 256) (v : Word) : tagOf (tword tag v) = tag := by
  have hv : v.toNat < 2 ^ 64 := v.isLt
  rw [tagOf, toNat_tword h]
  omega

/-- Below the pointer tags a listed tag makes a well-formed word, so its class is decided by the tag alone (R170). -/
theorem isClass_tword {tag : Nat} (hlt : tag < 0x80) (hlisted : tagListed tag = true) (c : Nat) (v : Word) :
    isClass c (tword tag v) = decide (tag / 32 = c) := by
  have hptr : tag / 32 ≠ clsPtr := by simp only [clsPtr]; omega
  have hcode : tag / 32 ≠ clsCode := by simp only [clsCode]; omega
  simp [isClass, malformed, classOf, tagOf_tword (show tag < 256 by omega), hlisted, hptr, hcode]

section

variable {tag : Nat} (h : tag = 0x20 ∨ tag = 0x21) (v w : Word)
include h

theorem isClass_tword_of_int (c : Nat) : isClass c (tword tag v) = decide (clsInt = c) := by
  rcases h with rfl | rfl <;> exact isClass_tword (by decide) (by decide) c v

theorem tagOf_tword_of_int : tagOf (tword tag v) = tag := tagOf_tword (by omega) v

theorem isInt_tword : isInt (tword tag v) = true := isClass_tword_of_int h v clsInt

theorem not_isFix_tword_of_int : isFix (tword tag v) = false := isClass_tword_of_int h v clsFix

theorem isBits_tword_of_int : isBits (tword tag v) = true := by simp [isBits, isInt_tword h v]

theorem sameInt_tword : sameInt (tword tag v) (tword tag w) = true := by
  simp [sameInt, isInt_tword h, tagOf_tword_of_int h]

theorem intVal_tword : intVal (tword tag v) = intOf tag v := by
  simp [intVal, intOf, tagOf_tword_of_int h]

end

theorem isFix_tword {tag : Nat} (h : 0x40 ≤ tag ∧ tag ≤ 0x5F) (v : Word) : isFix (tword tag v) = true := by
  have hclass : tag / 32 = clsFix := by simp only [clsFix]; omega
  have hlisted : tagListed tag = true := by simp [tagListed, h]
  rw [isFix, isClass_tword (by omega) hlisted, hclass, decide_eq_true rfl]

end Sys2Proof.Proofs
end

section
/-! Instructions that run a calculation over renamed operands (R186): what the calculation answers is what the
instruction leaves, and what an exact `INT` result becomes (R188). -/

namespace Sys2Proof.Proofs

open Sys2Proof Sys2Proof.Machine

section

variable {c : Tid → Instr} {len : Nat} {takes : List TWord} {f : Thread → List TWord → Calc} {when : Thread → Prop}
  (hexec : ∀ t s, exec (c t) s = .next (s.calc t len takes.length f))
include hexec

theorem computes_of_calc {out : List TWord} {fl : Nat} (hf : ∀ th, when th → f th takes = .ok (out, fl)) :
    Computes c len takes out fl when := by
  intro s u t rest hready hwhen hstack htakes hout
  rw [List.length_map] at htakes hout
  rw [hexec, (Laws.calc_ready s u t len takes rest f hready ⟨hstack, htakes⟩).1 out fl (hf _ hwhen) hout]

theorem faultsOn_of_calc {code : Nat} (hf : ∀ th, when th → f th takes = .error code) :
    FaultsOn c len takes code when := by
  intro s u t rest hready hwhen hops
  rw [hexec, (Laws.calc_ready s u t len takes rest f hready hops).2 code (hf _ hwhen)]

end

/-- `OV_EN` is bit 10 of `THR_STATUS` (R174). -/
theorem ovEn_eq_getLsbD (th : Thread) : th.ovEn = th.status.getLsbD 10 := rfl

/-- The range test of an `INT` result is the range of its subfield (R188). -/
theorem inside_iff_intFits (tag : Nat) (v : Int) :
    (if tag = 0x21 then decide (0 ≤ v) && decide (v < 2 ^ 64) else decide (-2 ^ 63 ≤ v) && decide (v < 2 ^ 63)) = true
      ↔ intFits tag v := by
  unfold intFits
  split <;> rw [Bool.and_eq_true, decide_eq_true_iff, decide_eq_true_iff]

theorem intResult_of_intFits {tag : Nat} {v : Int} (h : intFits tag v) (th : Thread) :
    intResult th tag v = .ok ([tword tag (BitVec.ofInt 64 v)], 0) :=
  if_pos ((inside_iff_intFits tag v).mpr h)

theorem intResult_of_not_intFits {tag : Nat} {v : Int} (h : ¬ intFits tag v) (th : Thread) :
    intResult th tag v = if th.ovEn then .error OV else .ok ([tword tag (BitVec.ofInt 64 v)], 1) :=
  if_neg (mt (inside_iff_intFits tag v).mp h)

/-- An instruction whose calculation is the exact `INT` result `v` delivers it. -/
theorem delivers_of_intResult {c : Tid → Instr} {takes : List TWord} {f : Thread → List TWord → Calc} {tag : Nat}
    {v : Int} (hexec : ∀ t s, exec (c t) s = .next (s.calc t 1 takes.length f))
    (hf : ∀ th, f th takes = intResult th tag v) : Delivers c takes tag v := by
  refine ⟨fun hfits => ?_, fun hout => ⟨?_, ?_⟩⟩
  · exact computes_of_calc hexec fun th _ => by rw [hf, intResult_of_intFits hfits]
  · exact faultsOn_of_calc hexec fun th hov => by
      rw [hf, intResult_of_not_intFits hout, ovEn_eq_getLsbD, if_pos hov]
  · exact computes_of_calc hexec fun th hov => by
      rw [hf, intResult_of_not_intFits hout, ovEn_eq_getLsbD, hov, if_neg Bool.false_ne_true]

end Sys2Proof.Proofs
end

section
/-! `INT` arithmetic and shifts (R188). -/

namespace Sys2Proof.Proofs

open Sys2Proof Sys2Proof.Machine

section

variable {tag : Nat} (h : tag = 0x20 ∨ tag = 0x21) (x y : Word)
include h

theorem add_delivers : Delivers .add [tword tag y, tword tag x] tag (intOf tag x + intOf tag y) :=
  delivers_of_intResult (f := calcAdd) (fun _ _ => rfl) fun th => by
    simp [calcAdd, sameInt_tword h, tagOf_tword_of_int h, intVal_tword h]

theorem sub_delivers : Delivers .sub [tword tag y, tword tag x] tag (intOf tag x - intOf tag y) :=
  delivers_of_intResult (f := calcSub) (fun _ _ => rfl) fun th => by
    simp [calcSub, sameInt_tword h, tagOf_tword_of_int h, intVal_tword h]

theorem mul_delivers : Delivers .mul [tword tag y, tword tag x] tag (intOf tag x * intOf tag y) :=
  delivers_of_intResult (f := calcMul) (fun _ _ => rfl) fun th => by
    simp [calcMul, sameInt_tword h, tagOf_tword_of_int h, intVal_tword h]

theorem div_delivers (hy : y ≠ 0) :
    Delivers .div [tword tag y, tword tag x] tag ((intOf tag x).tdiv (intOf tag y)) :=
  delivers_of_intResult (f := calcDiv) (fun _ _ => rfl) fun th => by
    simp only [calcDiv, sameInt_tword h, tagOf_tword_of_int h, isInt_tword h, intVal_tword h, payload_tword,
      Bool.true_eq_false, false_and, if_false, if_neg hy, if_true]

/-- A shift by the top word takes its count modulo 64 (R186). -/
theorem calcShift_tword {nt : Nat} (hn : nt = 0x20 ∨ nt = 0x21) (g : Word → Nat → Word) (th : Thread) :
    calcShift g th [tword nt y, tword tag x] = .ok ([tword tag (g x (y.toNat % 64))], 0) := by
  simp [calcShift, isBits_tword_of_int h, isInt_tword hn, tagOf_tword_of_int h, one]

theorem calcShiftImm_tword (g : Word → Nat → Word) (n : Nat) (th : Thread) :
    calcShiftImm g n th [tword tag x] = .ok ([tword tag (g x n)], 0) := by
  simp [calcShiftImm, isBits_tword_of_int h, tagOf_tword_of_int h, one]

theorem shifts_compute {nt : Nat} (hn : nt = 0x20 ∨ nt = 0x21) :
    Computes .shl 1 [tword nt y, tword tag x] [tword tag (x <<< (y.toNat % 64))] 0 anyThread
    ∧ Computes .shr 1 [tword nt y, tword tag x] [tword tag (x >>> (y.toNat % 64))] 0 anyThread
    ∧ Computes .sar 1 [tword nt y, tword tag x] [tword tag (x.sshiftRight (y.toNat % 64))] 0 anyThread :=
  ⟨computes_of_calc (fun _ _ => rfl) fun th _ => calcShift_tword h x y hn shl th,
    computes_of_calc (fun _ _ => rfl) fun th _ => calcShift_tword h x y hn shr th,
    computes_of_calc (fun _ _ => rfl) fun th _ => calcShift_tword h x y hn sar th⟩

/-- Counts of 0 to 63 are listed (R186), so the immediate shifts run their calculation. -/
theorem immediateShifts_compute {n : Byte} (hn : n.toNat < 64) :
    Computes (fun t => .shli t n) 2 [tword tag x] [tword tag (x <<< n.toNat)] 0 anyThread
    ∧ Computes (fun t => .shri t n) 2 [tword tag x] [tword tag (x >>> n.toNat)] 0 anyThread
    ∧ Computes (fun t => .sari t n) 2 [tword tag x] [tword tag (x.sshiftRight n.toNat)] 0 anyThread :=
  ⟨computes_of_calc (fun _ _ => congrArg _ (if_pos hn)) fun th _ => calcShiftImm_tword h x shl n.toNat th,
    computes_of_calc (fun _ _ => congrArg _ (if_pos hn)) fun th _ => calcShiftImm_tword h x shr n.toNat th,
    computes_of_calc (fun _ _ => congrArg _ (if_pos hn)) fun th _ => calcShiftImm_tword h x sar n.toNat th⟩

end

theorem signedUnary_signed (g : Int → Int) (th : Thread) (x : Word) :
    signedUnary g th [tword 0x20 x] = intResult th 0x20 (g x.toInt) := by
  have h : (0x20 : Nat) = 0x20 ∨ (0x20 : Nat) = 0x21 := .inl rfl
  simp [signedUnary, isInt_tword h, tagOf_tword_of_int h, intVal_tword h, intOf]

theorem signedUnary_unsigned (g : Int → Int) (th : Thread) (x : Word) :
    signedUnary g th [tword 0x21 x] = .error TY := by
  have h : (0x21 : Nat) = 0x20 ∨ (0x21 : Nat) = 0x21 := .inr rfl
  simp [signedUnary, tagOf_tword_of_int h, not_isFix_tword_of_int h]

theorem neg_delivers (x : Word) : Delivers .neg [tword 0x20 x] 0x20 (-x.toInt) :=
  delivers_of_intResult (fun _ _ => rfl) fun th => signedUnary_signed (fun v => -v) th x

theorem abs_delivers (x : Word) : Delivers .abs [tword 0x20 x] 0x20 |x.toInt| := by
  rw [Int.abs_eq_natAbs]
  exact delivers_of_intResult (fun _ _ => rfl) fun th => signedUnary_signed (fun v => (v.natAbs : Int)) th x

theorem neg_faultsOn_unsigned (x : Word) : FaultsOn .neg 1 [tword 0x21 x] TY anyThread :=
  faultsOn_of_calc (fun _ _ => rfl) fun th _ => signedUnary_unsigned (fun v => -v) th x

theorem abs_faultsOn_unsigned (x : Word) : FaultsOn .abs 1 [tword 0x21 x] TY anyThread :=
  faultsOn_of_calc (fun _ _ => rfl) fun th _ => signedUnary_unsigned (fun v => (v.natAbs : Int)) th x

/-- The one quotient of signed words that leaves their range (R188). -/
theorem tdiv_least_by_minus_one :
    (intOf 0x20 (BitVec.ofInt 64 (-2 ^ 63))).tdiv (intOf 0x20 (-1)) = 2 ^ 63 := by decide

/-- Settles O13: each instruction's calculation answers its exact result, in range or with what R188 makes of the
overflow, and the shifts answer the shifted payload without a flag. -/
theorem wholeNumbersWrapOrFault : Obligations.WholeNumbersWrapOrFault := by
  unfold Obligations.WholeNumbersWrapOrFault
  intro tag x y h
  have hdiv := div_delivers (.inl rfl) (BitVec.ofInt 64 (-2 ^ 63)) (-1) (by decide)
  rw [tdiv_least_by_minus_one] at hdiv
  exact ⟨add_delivers h x y, sub_delivers h x y, mul_delivers h x y, neg_delivers x, abs_delivers x,
    neg_faultsOn_unsigned x, abs_faultsOn_unsigned x, hdiv, fun _ hn => shifts_compute h x y hn,
    fun _ hn => immediateShifts_compute h x hn⟩

end Sys2Proof.Proofs
end

section
/-! `SAT` (R190). -/

namespace Sys2Proof.Proofs

open Sys2Proof Sys2Proof.Machine

theorem clampInt_eq_max_min {lo hi : Int} (h : lo ≤ hi) (v : Int) : clampInt v lo hi = max lo (min v hi) := by
  unfold clampInt
  split
  · omega
  · split <;> omega

/-- The signed range of `n + 1` bits holds a value. -/
theorem neg_two_pow_le_two_pow_sub_one (n : Nat) : (-2 ^ n : Int) ≤ 2 ^ n - 1 := by
  have hpos : (0 : Int) < 2 ^ n := by positivity
  omega

/-- An unsigned value is never below 0, so only the upper end clamps it. -/
theorem clampInt_unsigned (a n : Nat) : clampInt (a : Int) 0 (2 ^ n - 1) = ((min a (2 ^ n - 1) : Nat) : Int) := by
  have hpos : 1 ≤ 2 ^ n := Nat.one_le_two_pow
  have hcast : ((2 ^ n - 1 : Nat) : Int) = 2 ^ n - 1 := by push_cast [hpos]; rfl
  rw [clampInt_eq_max_min (by omega), ← hcast]
  omega

theorem calcSat_signed {tag : Nat} (h : tag = 0x20 ∨ (0x40 ≤ tag ∧ tag ≤ 0x5F)) (n : Nat) (th : Thread) (x : Word) :
    calcSat n th [tword tag x]
      = .ok ([tword tag (BitVec.ofInt 64 (max (-2 ^ (n - 1)) (min x.toInt (2 ^ (n - 1) - 1))))], 0) := by
  have htag : tagOf (tword tag x) = tag := tagOf_tword (by omega) x
  have hsigned : tag ≠ 0x21 := by omega
  have hclass : isInt (tword tag x) = true ∨ isFix (tword tag x) = true :=
    h.imp (fun hint => isInt_tword (.inl hint) x) (fun hfix => isFix_tword hfix x)
  simp [calcSat, htag, hsigned, hclass, fixVal, wordOfInt, one,
    clampInt_eq_max_min (neg_two_pow_le_two_pow_sub_one (n - 1))]

theorem calcSat_unsigned (n : Nat) (th : Thread) (x : Word) :
    calcSat n th [tword 0x21 x] = .ok ([tword 0x21 (BitVec.ofNat 64 (min x.toNat (2 ^ n - 1)))], 0) := by
  have h : (0x21 : Nat) = 0x20 ∨ (0x21 : Nat) = 0x21 := .inr rfl
  rw [← BitVec.ofInt_natCast, ← clampInt_unsigned]
  simp [calcSat, isInt_tword h, tagOf_tword_of_int h, intVal_tword h, intOf, uint, wordOfInt, one]

/-- Widths of 1 to 64 bits are listed (R190), so `SAT` runs its calculation. -/
theorem exec_sat {n : Byte} (h : 1 ≤ n.toNat ∧ n.toNat ≤ 64) (t : Tid) (s : State) :
    exec (.sat t n) s = .next (s.calc t 2 1 (calcSat n.toNat)) := congrArg _ (if_pos h)

/-- Settles O14: the calculation of `SAT` clamps and keeps the tag, and answers no flag and no fault. -/
theorem satClampsToWidth : Obligations.SatClampsToWidth := by
  unfold Obligations.SatClampsToWidth
  intro n x hlo hhi
  refine ⟨fun tag htag => ?signed, ?unsigned⟩
  case signed => exact computes_of_calc (exec_sat ⟨hlo, hhi⟩) fun th _ => calcSat_signed htag n.toNat th x
  case unsigned => exact computes_of_calc (exec_sat ⟨hlo, hhi⟩) fun th _ => calcSat_unsigned n.toNat th x

end Sys2Proof.Proofs
end

section
/-! PROOFS. Four things that an invariant of every step speaks of: memory, the fuses, what a transition will burn, and the
queue. `fixed` collects them (with the variant); the two `congr` lemmas keep `simp` from rewriting inside a state that only
`fixed` looks at. Used for O3, O4 and O60. -/

namespace Sys2Proof.Proofs

open Sys2Proof Sys2Proof.Machine

structure Fixed where
  variant : Variant
  burn : Option Fuses
  mem : Store TWord
  fuses : Fuses
  pending : List Instr
  ticks : Nat
  canvas : Nat
  canvasNext : Option Nat

def fixed (s : State) : Fixed := ⟨s.variant, s.burn, s.mem, s.fuses, s.pending, s.ticks, s.canvas, s.canvasNext⟩

@[simp] theorem fixed_ite {c : Prop} [Decidable c] (s t : State) : fixed (if c then s else t) = if c then fixed s else fixed t :=
  apply_ite fixed c s t

@[simp] theorem fixed_foldl {α : Type} (f : State → α → State) (h : ∀ u x, fixed (f u x) = fixed u) (l : List α) (s : State) :
    fixed (l.foldl f s) = fixed s := by
  induction l generalizing s with
  | nil => rfl
  | cons x l ih => rw [List.foldl_cons, ih, h]

@[simp] theorem fixed_mk (x0 : Variant) (x1 : Boot) (x2 : Bool) (x3 : Option Fuses) (x4 : Nat) (x5 : Nat) (x6 : Option Nat) (x7 : Store Nat) (x8 : Store Word) (x9 : Shown) (x10 : Store Word) (x11 : List RwcWrite) (x12 : List (Nat × Nat × Nat)) (x13 : List (Nat × Nat × Nat)) (x14 : Store Word) (x15 : Store TWord) (x16 : List Nat) (x17 : List Nat) (x18 : List Flip) (x19 : Nat) (x20 : List Transfer) (x21 : List Queued) (x22 : List Queued) (x23 : List EventTransfer) (x24 : Store Bool) (x25 : Store Bool) (x26 : Store Bool) (x27 : Store Nat) (x28 : Nat) (x29 : Nat) (x30 : Nat) (x31 : Int) (x32 : Option (Nat × BitVec 128)) (x33 : BitVec 16) (x34 : Store Conv) (x35 : List Seen) (x36 : Store Monitor) (x37 : Store Comparator) (x38 : Store Sweep) (x39 : Store Pair) (x40 : Store Trip) (x41 : Store LoopSlot) (x42 : Store Nat) (x43 : Store Nat) (x44 : Store Thread) (x45 : Store Core) (x46 : Store Panel) (x47 : Store Nat) (x48 : Store Dma) (x49 : Store Timer) (x50 : Store Stencil) (x51 : Store (List Pads)) (x52 : Store Intent) (x53 : Store Budget) (x54 : Store EthPort) (x55 : Store Journal) (x56 : Store Handover) (x57 : Option Painting) (x58 : Option Painting) (x59 : Option Commit) (x60 : Supply) (x61 : Fuses) (x62 : Option (Nat × BitVec 384 × BitVec 384)) (x63 : Bool) (x64 : BitVec 6) (x65 : Jtag) (x66 : Bool) (x67 : Nat) (x68 : List Nat) (x69 : List Instr) :
    fixed (State.mk x0 x1 x2 x3 x4 x5 x6 x7 x8 x9 x10 x11 x12 x13 x14 x15 x16 x17 x18 x19 x20 x21 x22 x23 x24 x25 x26 x27 x28 x29 x30 x31 x32 x33 x34 x35 x36 x37 x38 x39 x40 x41 x42 x43 x44 x45 x46 x47 x48 x49 x50 x51 x52 x53 x54 x55 x56 x57 x58 x59 x60 x61 x62 x63 x64 x65 x66 x67 x68 x69) = ⟨x0, x3, x15, x61, x69, x4, x5, x6⟩ := rfl

@[congr] theorem fixed_congr (s : State) : fixed s = fixed s := rfl

@[congr] theorem Fixed.mk_congr (v : Variant) (b : Option Fuses) (m : Store TWord) (f : Fuses) (q : List Instr)
    (t c : Nat) (n : Option Nat) : Fixed.mk v b m f q t c n = Fixed.mk v b m f q t c n := rfl

@[simp] theorem fixed_eta (s : State) : (⟨s.variant, s.burn, s.mem, s.fuses, s.pending, s.ticks, s.canvas, s.canvasNext⟩ : Fixed) = fixed s := by simp only [fixed]

end Sys2Proof.Proofs
end

section
/-! PROOFS. The functions of the model that write neither memory nor fuses, one lemma each in the model's order: what `fixed`
shows stands. Used for O3, O4 and O60. -/

namespace Sys2Proof.Proofs

open Sys2Proof Sys2Proof.Machine

@[simp] theorem fixed_setReg (s : State) (pk off : Nat) (v : Word) : fixed (s.setReg pk off v) = fixed s := by
  unfold State.setReg; simp

@[simp] theorem fixed_setFld (s : State) (pk : Nat) (f : Fld) (v : Nat) : fixed (s.setFld pk f v) = fixed s := by
  unfold State.setFld; simp

@[simp] theorem fixed_markBit (s : State) (pk : Nat) (f : Fld) (i : Nat) : fixed (s.markBit pk f i) = fixed s := by
  unfold State.markBit; simp

@[simp] theorem fixed_mark (s : State) (pk : Nat) (f : Fld) : fixed (s.mark pk f) = fixed s := by
  unfold State.mark; simp

@[simp] theorem fixed_count (s : State) (pk : Nat) (f : Fld) (d : Nat) : fixed (s.count pk f d) = fixed s := by
  unfold State.count; simp

@[simp] theorem fixed_setSfld (s : State) (pk : Nat) (f : Fld) (v : Int) : fixed (s.setSfld pk f v) = fixed s := by
  unfold State.setSfld; simp

@[simp] theorem fixed_setConv (s : State) (sec c : Nat) (v : Conv) : fixed (s.setConv sec c v) = fixed s := by
  unfold State.setConv; simp

@[simp] theorem fixed_setMonitor (s : State) (sec : Nat) (v : Monitor) : fixed (s.setMonitor sec v) = fixed s := by
  unfold State.setMonitor; simp

@[simp] theorem fixed_setCmp (s : State) (sec c : Nat) (v : Comparator) : fixed (s.setCmp sec c v) = fixed s := by
  unfold State.setCmp; simp

@[simp] theorem fixed_setSweep (s : State) (sec : Nat) (v : Sweep) : fixed (s.setSweep sec v) = fixed s := by
  unfold State.setSweep; simp

@[simp] theorem fixed_setPair (s : State) (sec p : Nat) (v : Pair) : fixed (s.setPair sec p v) = fixed s := by
  unfold State.setPair; simp

@[simp] theorem fixed_setTrip (s : State) (sec : Nat) (v : Trip) : fixed (s.setTrip sec v) = fixed s := by
  unfold State.setTrip; simp

@[simp] theorem fixed_setSlot (s : State) (sec n : Nat) (v : LoopSlot) : fixed (s.setSlot sec n v) = fixed s := by
  unfold State.setSlot; simp

@[simp] theorem fixed_setThread (s : State) (p t : Nat) (v : Thread) : fixed (s.setThread p t v) = fixed s := by
  unfold State.setThread; simp

@[simp] theorem fixed_setCore (s : State) (p c : Nat) (v : Core) : fixed (s.setCore p c v) = fixed s := by
  unfold State.setCore; simp

@[simp] theorem fixed_setPanel (s : State) (p : Nat) (v : Panel) : fixed (s.setPanel p v) = fixed s := by
  unfold State.setPanel; simp

@[simp] theorem fixed_setDma (s : State) (p c : Nat) (v : Dma) : fixed (s.setDma p c v) = fixed s := by
  unfold State.setDma; simp

@[simp] theorem fixed_setTimer (s : State) (p n : Nat) (v : Timer) : fixed (s.setTimer p n v) = fixed s := by
  unfold State.setTimer; simp

@[simp] theorem fixed_setStencil (s : State) (sec e : Nat) (v : Stencil) :
    fixed (s.setStencil sec e v) = fixed s := by
  unfold State.setStencil; simp

@[simp] theorem fixed_setIntent (s : State) (p : Nat) (v : Intent) : fixed (s.setIntent p v) = fixed s := by
  unfold State.setIntent; simp

@[simp] theorem fixed_setBudget (s : State) (p i : Nat) (v : Budget) : fixed (s.setBudget p i v) = fixed s := by
  unfold State.setBudget; simp

@[simp] theorem fixed_setPort (s : State) (p n : Nat) (v : EthPort) : fixed (s.setPort p n v) = fixed s := by
  unfold State.setPort; simp

@[simp] theorem fixed_setJournal (s : State) (p : Nat) (v : Journal) : fixed (s.setJournal p v) = fixed s := by
  unfold State.setJournal; simp

@[simp] theorem fixed_setHandover (s : State) (sl : Nat) (v : Handover) : fixed (s.setHandover sl v) = fixed s := by
  unfold State.setHandover; simp

@[simp] theorem fixed_asShown (s : State) : fixed (s.asShown) = fixed s := by unfold State.asShown; simp

@[simp] theorem fixed_showNow (s : State) : fixed (s.showNow) = fixed s := by unfold State.showNow; simp

@[simp] theorem fixed_fresh (s : State) : fixed (s.fresh).2 = fixed s := by unfold State.fresh; simp

@[simp] theorem fixed_noteSpecial (s : State) (p t num : Nat) (flags : Word) :
    fixed (s.noteSpecial p t num flags) = fixed s := by
  unfold State.noteSpecial; simp

@[simp] theorem fixed_clearing (s : State) (p t num : Nat) (v : Word) : fixed (s.clearing p t num v).2 = fixed s := by
  unfold State.clearing; dsimp only; split <;> simp

@[simp] theorem fixed_anything (s : State) (α : Type) [Inhabited α] : fixed (s.anything α).2 = fixed s := by
  unfold State.anything; simp

@[simp] theorem fixed_freeRegs (s : State) (pk : Nat) : fixed (s.freeRegs pk) = fixed s := by
  unfold State.freeRegs; split <;> simp

@[simp] theorem fixed_freeUnit (s : State) (pk : Nat) : fixed (s.freeUnit pk) = fixed s := by
  unfold State.freeUnit; split <;> simp

@[simp] theorem fixed_scramble (s : State) (pk : Nat) : fixed (s.scramble pk) = fixed s := by
  unfold State.scramble; simp

@[simp] theorem fixed_err (s : State) (pk : Nat) : fixed (s.err pk) = fixed s := by unfold State.err; split <;> simp

@[simp] theorem fixed_tickUpset (s : State) : fixed (s.tickUpset) = fixed s := by unfold State.tickUpset; simp

@[simp] theorem fixed_freeWithin (s : State) (lo hi : Nat) : fixed (s.freeWithin lo hi).2 = fixed s := by
  unfold State.freeWithin; simp

@[simp] theorem fixed_endWait (s : State) (p t : Nat) : fixed (s.endWait p t) = fixed s := by
  unfold State.endWait; simp

@[simp] theorem fixed_wakeWaiter (s : State) (p table src : Nat) : fixed (s.wakeWaiter p table src) = fixed s := by
  unfold State.wakeWaiter; simp

@[simp] theorem fixed_arrive (s : State) (p table src : Nat) : fixed (s.arrive p table src) = fixed s := by
  unfold State.arrive; simp

@[simp] theorem fixed_signal (s : State) (pk src : Nat) : fixed (s.signal pk src) = fixed s := by
  unfold State.signal; simp

@[simp] theorem fixed_raise (s : State) (pk b : Nat) : fixed (s.raise pk b) = fixed s := by
  unfold State.raise; split <;> simp

@[simp] theorem fixed_signalEnabled (s before : State) (pk : Nat) : fixed (s.signalEnabled before pk) = fixed s := by
  unfold State.signalEnabled; simp

@[simp] theorem fixed_raiseIf (s : State) (c : Bool) (pk b : Nat) : fixed (s.raiseIf c pk b) = fixed s := by
  unfold State.raiseIf; simp

@[simp] theorem fixed_raiseMask (s : State) (pk : Nat) (mask : Word) : fixed (s.raiseMask pk mask) = fixed s := by
  unfold State.raiseMask; simp

@[simp] theorem fixed_setFault (s : State) (p t code ret : Nat) : fixed (s.setFault p t code ret) = fixed s := by
  unfold State.setFault; dsimp only; split <;> simp

@[simp] theorem fixed_noteBulk (s : State) (p : Nat) : fixed (s.noteBulk p) = fixed s := by unfold State.noteBulk; simp

@[simp] theorem fixed_noteCross (s : State) (p q : Nat) : fixed (s.noteCross p q) = fixed s := by
  unfold State.noteCross; simp

@[simp] theorem fixed_noteOutput (s : State) (p c output : Nat) : fixed (s.noteOutput p c output) = fixed s := by
  unfold State.noteOutput; simp

@[simp] theorem fixed_noteEcc (s : State) (p array port addr : Nat) (ue : Bool) :
    fixed (s.noteEcc p array port addr ue) = fixed s := by
  unfold State.noteEcc; simp

@[simp] theorem fixed_correct (s : State) (p array core port : Nat) (keys : List Nat) :
    fixed (s.correct p array core port keys) = fixed s := by
  unfold State.correct; simp

@[simp] theorem fixed_setL2 (s : State) (p line : Nat) (c : CacheSet) : fixed (s.setL2 p line c) = fixed s := by
  unfold State.setL2; simp

@[simp] theorem fixed_useL2 (s : State) (p line : Nat) (write : Bool) : fixed (s.useL2 p line write) = fixed s := by
  unfold State.useL2; split <;> simp

@[simp] theorem fixed_noteTag (s : State) (p line port : Nat) : fixed (s.noteTag p line port) = fixed s := by
  unfold State.noteTag; simp

@[simp] theorem fixed_hitTag (s : State) (p line port : Nat) : fixed (s.hitTag p line port) = fixed s := by
  unfold State.hitTag; simp

@[simp] theorem fixed_setL1 (s : State) (p c : Nat) (code : Bool) (line : Nat) (v : CacheSet) :
    fixed (s.setL1 p c code line v) = fixed s := by
  unfold State.setL1; simp

@[simp] theorem fixed_dropL1 (s : State) (p c : Nat) (code : Bool) (line : Nat) :
    fixed (s.dropL1 p c code line) = fixed s := by
  unfold State.dropL1; split <;> simp

@[simp] theorem fixed_fillL1 (s : State) (p c : Nat) (code : Bool) (line : Nat) :
    fixed (s.fillL1 p c code line) = fixed s := by
  unfold State.fillL1; (repeat' split) <;> simp

@[simp] theorem fixed_readL1 (s : State) (p c : Nat) (code : Bool) (line : Nat) (keys : List Nat) :
    fixed (s.readL1 p c code line keys).2 = fixed s := by
  unfold State.readL1; (repeat' split) <;> simp

@[simp] theorem fixed_bufferLine (s : State) (p c line : Nat) : fixed (s.bufferLine p c line) = fixed s := by
  unfold State.bufferLine; simp

@[simp] theorem fixed_evict (s : State) (p line : Nat) : fixed (s.evict p line) = fixed s := by
  unfold State.evict; dsimp only; (repeat' split) <;> simp

@[simp] theorem fixed_fillL2 (s : State) (p c line : Nat) : fixed (s.fillL2 p c line) = fixed s := by
  unfold State.fillL2; (repeat' split) <;> simp

@[simp] theorem fixed_throughL2 (s : State) (p addr : Nat) (core : Option Nat) :
    fixed (s.throughL2 p addr core) = fixed s := by
  unfold State.throughL2; (repeat' split) <;> simp

@[simp] theorem fixed_strike (s : State) (p : Nat) (l : List Upset) : fixed (s.strike p l) = fixed s := by
  unfold State.strike; simp

@[simp] theorem fixed_noteMirror (s : State) (p : Nat) : fixed (s.noteMirror p) = fixed s := by
  unfold State.noteMirror; simp

@[simp] theorem fixed_showStalls (s : State) (p : Nat) : fixed (s.showStalls p) = fixed s := by
  unfold State.showStalls; simp

@[simp] theorem fixed_noteStall (s : State) (p : Nat) : fixed (s.noteStall p) = fixed s := by
  unfold State.noteStall; simp

@[simp] theorem fixed_stall (s : State) (p who : Nat) (need : Room) : fixed (s.stall p who need) = fixed s := by
  unfold State.stall; simp

@[simp] theorem fixed_unstall (s : State) (p who : Nat) : fixed (s.unstall p who) = fixed s := by
  unfold State.unstall; simp

@[simp] theorem fixed_settleStalls (s : State) (p : Nat) : fixed (s.settleStalls p) = fixed s := by
  unfold State.settleStalls; simp

@[simp] theorem fixed_streamData (s : State) (p addr : Nat) (words : List TWord) :
    fixed (s.streamData p addr words) = fixed s := by
  unfold State.streamData; simp

@[simp] theorem fixed_holdWrite (s : State) (p t addr : Nat) : fixed (s.holdWrite p t addr) = fixed s := by
  unfold State.holdWrite; simp

@[simp] theorem fixed_noteFlit (s : State) (p : Nat) : fixed (s.noteFlit p) = fixed s := by unfold State.noteFlit; simp

@[simp] theorem fixed_leavePort (s : State) (p : Nat) (ready : Nat) : fixed (s.leavePort p ready).2 = fixed s := by
  unfold State.leavePort; dsimp only; split <;> simp

@[simp] theorem fixed_tickPort (s : State) (p : Nat) : fixed (s.tickPort p) = fixed s := by unfold State.tickPort; simp

@[simp] theorem fixed_noteAccess (s : State) (ag : Agent) (addr : Nat) : fixed (s.noteAccess ag addr) = fixed s := by
  unfold State.noteAccess; split <;> simp

@[simp] theorem fixed_refusePort (s : State) : fixed (s.refusePort) = fixed s := by unfold State.refusePort; simp

@[simp] theorem fixed_turnAway {s error : State} (h : fixed error = fixed s) (ag : Agent) (pk off : Nat) :
    fixed (s.turnAway ag pk off error) = fixed s := by
  unfold State.turnAway; split <;> simp [h]

@[simp] theorem fixed_issue (s : State) (p : Nat) (ag : Agent) (pk off : Nat) (data : Word) (due : Option Nat)
    (addr : Nat) :
    fixed (s.issue p ag pk off data due addr) = fixed s := by
  unfold State.issue; split <;> simp

@[simp] theorem fixed_enqueue (s : State) (e : Queued) : fixed (s.enqueue e) = fixed s := by unfold State.enqueue; simp

@[simp] theorem fixed_lateWrite (s : State) (e : Queued) (lateness : Nat) :
    fixed (s.lateWrite e lateness) = fixed s := by
  unfold State.lateWrite; simp

@[simp] theorem fixed_refuseTimed (s : State) (pk : Nat) : fixed (s.refuseTimed pk) = fixed s := by
  unfold State.refuseTimed; simp

@[simp] theorem fixed_acceptTimed (s : State) (pk off : Nat) (data : Word) (due : Option Nat) (origin seq : Nat) :
    fixed (s.acceptTimed pk off data due origin seq) = fixed s := by
  unfold State.acceptTimed; split <;> simp

@[simp] theorem fixed_clearQueue (s : State) (q : Nat) : fixed (s.clearQueue q) = fixed s := by
  unfold State.clearQueue; simp

@[simp] theorem fixed_skipDue (s : State) (before : Nat) : fixed (s.skipDue before) = fixed s := by
  unfold State.skipDue; simp

/-- A tick whose canvas clock runs counts on, or takes the time that a step has ordered. -/
theorem fixed_tickCanvas {s : State} (h : s.slices.any (fun sl => (s.trip sl).clockMissing) = false) :
    fixed s.tickCanvas
      = { fixed s with ticks := s.ticks + 1, canvas := s.canvasNext.getD (s.canvas + 1), canvasNext := none } := by
  unfold State.tickCanvas
  rw [h, if_neg Bool.false_ne_true]
  dsimp only
  split
  · next hn =>
    rw [fixed_mk, hn]
    rfl
  · next c hn =>
    rw [fixed_skipDue, fixed_mk, hn]
    rfl

/-- A step of canvas time within the range orders the time of the next tick. -/
theorem fixed_stepCanvas {s : State} {delta : Word}
    (h : 0 ≤ (s.canvas : Int) + 1 + delta.toInt ∧ (s.canvas : Int) + 1 + delta.toInt ≤ 2 ^ 62 - 1) :
    fixed (s.stepCanvas delta) = { fixed s with canvasNext := some ((s.canvas : Int) + 1 + delta.toInt).toNat } := by
  unfold State.stepCanvas
  rw [if_pos h, fixed_raise, fixed_setFld]
  rfl

theorem fixed_stepCanvas_refused {s : State} {delta : Word}
    (h : ¬ (0 ≤ (s.canvas : Int) + 1 + delta.toInt ∧ (s.canvas : Int) + 1 + delta.toInt ≤ 2 ^ 62 - 1)) :
    fixed (s.stepCanvas delta) = fixed s := by
  unfold State.stepCanvas
  rw [if_neg h, fixed_raise]

@[simp] theorem fixed_fireAlarm (s : State) (i : Nat) : fixed (s.fireAlarm i) = fixed s := by
  unfold State.fireAlarm; simp

@[simp] theorem fixed_slew (s : State) (offset : Int) : fixed (s.slew offset) = fixed s := by unfold State.slew; simp

@[simp] theorem fixed_tickDiscipline (s : State) : fixed (s.tickDiscipline) = fixed s := by
  unfold State.tickDiscipline; simp

@[simp] theorem fixed_limitSlew (s : State) : fixed (s.limitSlew) = fixed s := by unfold State.limitSlew; simp

@[simp] theorem fixed_tickSyncOut (s : State) : fixed (s.tickSyncOut) = fixed s := by unfold State.tickSyncOut; simp

@[simp] theorem fixed_measure (s : State) (offset : Int) : fixed (s.measure offset) = fixed s := by
  unfold State.measure; simp

@[simp] theorem fixed_setPtpSync (s : State) (p n : Nat) (v : Bool) : fixed (s.setPtpSync p n v) = fixed s := by
  unfold State.setPtpSync; simp

@[simp] theorem fixed_loseSource (s : State) : fixed (s.loseSource) = fixed s := by unfold State.loseSource; simp

@[simp] theorem fixed_fireRing (s : State) (sec c tick : Nat) : fixed (s.fireRing sec c tick) = fixed s := by
  unfold State.fireRing; simp

@[simp] theorem fixed_fireSeen (s : State) (e : Seen) : fixed (s.fireSeen e) = fixed s := by
  unfold State.fireSeen; simp

@[simp] theorem fixed_triggerAt (s : State) (e : Seen) : fixed (s.triggerAt e) = fixed s := by
  unfold State.triggerAt; simp

@[simp] theorem fixed_triggerSource (s : State) (sec src index : Nat) :
    fixed (s.triggerSource sec src index) = fixed s := by
  unfold State.triggerSource; simp

@[simp] theorem fixed_armRing (s : State) (sec c : Nat) : fixed (s.armRing sec c) = fixed s := by
  unfold State.armRing; simp

@[simp] theorem fixed_startRing (s : State) (sec c : Nat) : fixed (s.startRing sec c) = fixed s := by
  unfold State.startRing; simp

@[simp] theorem fixed_freezeAdopted (s : State) (pk : Nat) : fixed (s.freezeAdopted pk) = fixed s := by
  unfold State.freezeAdopted; simp

@[simp] theorem fixed_stream (s : State) (sec c ref : Nat) (code : BitVec 12) :
    fixed (s.stream sec c ref code) = fixed s := by
  unfold State.stream; simp

@[simp] theorem fixed_landOne (s : State) (sec c : Nat) (x : Nat × Word) : fixed (s.landOne sec c x) = fixed s := by
  unfold State.landOne; simp

@[simp] theorem fixed_landResult (s : State) (sec c : Nat) : fixed (s.landResult sec c) = fixed s := by
  unfold State.landResult; simp

@[simp] theorem fixed_freezeLine (s : State) (driver : Nat) : fixed (s.freezeLine driver) = fixed s := by
  unfold State.freezeLine; simp

@[simp] theorem fixed_tickSamples (s : State) : fixed (s.tickSamples) = fixed s := by unfold State.tickSamples; simp

@[simp] theorem fixed_requestCal (s : State) (sec c : Nat) : fixed (s.requestCal sec c) = fixed s := by
  unfold State.requestCal; simp

@[simp] theorem fixed_monitorCode (s : State) (nanovolts : Nat) : fixed (s.monitorCode nanovolts).2 = fixed s := by
  unfold State.monitorCode; dsimp only; split <;> simp

@[simp] theorem fixed_beginConversion (s : State) (sec entry done sum : Nat) (dip : Bool) :
    fixed (s.beginConversion sec entry done sum dip) = fixed s := by
  unfold State.beginConversion; simp

@[simp] theorem fixed_startMonitor (s : State) (sec : Nat) : fixed (s.startMonitor sec) = fixed s := by
  unfold State.startMonitor; simp

@[simp] theorem fixed_changeMonitor (s : State) (sec : Nat) : fixed (s.changeMonitor sec) = fixed s := by
  unfold State.changeMonitor; simp

@[simp] theorem fixed_nextConversion (s : State) (sec i : Nat) : fixed (s.nextConversion sec i) = fixed s := by
  unfold State.nextConversion; simp

@[simp] theorem fixed_unrelease (s : State) (sl : Nat) (mask : BitVec 16) :
    fixed (s.unrelease sl mask) = fixed s := by
  unfold State.unrelease; simp

@[simp] theorem fixed_unreleaseHeld (s : State) (p : Nat) : fixed (s.unreleaseHeld p) = fixed s := by
  unfold State.unreleaseHeld; simp

@[simp] theorem fixed_setMode (s : State) (sl mode under : Nat) : fixed (s.setMode sl mode under) = fixed s := by
  unfold State.setMode; simp

@[simp] theorem fixed_advanceTimer (s : State) (p n periods : Nat) :
    fixed (s.advanceTimer p n periods) = fixed s := by
  unfold State.advanceTimer; simp

@[simp] theorem fixed_stopTimers (s : State) (p : Nat) : fixed (s.stopTimers p) = fixed s := by
  unfold State.stopTimers; simp

@[simp] theorem fixed_slowPeriods (s : State) (since : Nat) : fixed (s.slowPeriods since).2 = fixed s := by
  unfold State.slowPeriods; simp

@[simp] theorem fixed_refuseCommand (s : State) (sl code : Nat) : fixed (s.refuseCommand sl code) = fixed s := by
  unfold State.refuseCommand; simp

@[simp] theorem fixed_openWindow (s : State) (sec p x : Nat) : fixed (s.openWindow sec p x) = fixed s := by
  unfold State.openWindow; simp

@[simp] theorem fixed_cycleTrip (s : State) (sec p : Nat) : fixed (s.cycleTrip sec p) = fixed s := by
  unfold State.cycleTrip; simp

@[simp] theorem fixed_cutIntervals (s : State) (sec p : Nat) : fixed (s.cutIntervals sec p) = fixed s := by
  unfold State.cutIntervals; simp

@[simp] theorem fixed_refuseClear (s : State) (sec p : Nat) : fixed (s.refuseClear sec p) = fixed s := by
  unfold State.refuseClear; simp

@[simp] theorem fixed_registerSources (s : State) : fixed (s.registerSources) = fixed s := by
  unfold State.registerSources; simp

@[simp] theorem fixed_clearTripCounts (s : State) (sec : Nat) : fixed (s.clearTripCounts sec) = fixed s := by
  unfold State.clearTripCounts; simp

@[simp] theorem fixed_setOutputs (s : State) (sec c : Nat) (v : Int) (o : Bool × Bool) (latch : Bool) :
    fixed (s.setOutputs sec c v o latch) = fixed s := by
  unfold State.setOutputs; simp

@[simp] theorem fixed_withdrawGo (s : State) (sec c : Nat) : fixed (s.withdrawGo sec c) = fixed s := by
  unfold State.withdrawGo; simp

@[simp] theorem fixed_tickComparator (s : State) (sec c : Nat) : fixed (s.tickComparator sec c) = fixed s := by
  unfold State.tickComparator; simp

@[simp] theorem fixed_tickComparators (s : State) : fixed (s.tickComparators) = fixed s := by
  unfold State.tickComparators; simp

@[simp] theorem fixed_setOuts (s : State) (sec p x : Nat) (a b : Bool) : fixed (s.setOuts sec p x a b) = fixed s := by
  unfold State.setOuts; simp

@[simp] theorem fixed_noteDropped (s : State) (sec p : Nat) : fixed (s.noteDropped sec p) = fixed s := by
  unfold State.noteDropped; simp

@[simp] theorem fixed_noteStretched (s : State) (sec p : Nat) : fixed (s.noteStretched sec p) = fixed s := by
  unfold State.noteStretched; simp

@[simp] theorem fixed_noteHeld (s : State) (sec p : Nat) : fixed (s.noteHeld sec p) = fixed s := by
  unfold State.noteHeld; simp

@[simp] theorem fixed_holdA (s : State) (sec p : Nat) : fixed (s.holdA sec p) = fixed s := by
  unfold State.holdA; dsimp only; split <;> simp

@[simp] theorem fixed_holdB (s : State) (sec p : Nat) : fixed (s.holdB sec p) = fixed s := by
  unfold State.holdB; dsimp only; split <;> simp

@[simp] theorem fixed_endA (s : State) (sec p x : Nat) : fixed (s.endA sec p x) = fixed s := by unfold State.endA; simp

@[simp] theorem fixed_startA (s : State) (sec p x : Nat) : fixed (s.startA sec p x) = fixed s := by
  unfold State.startA; simp

@[simp] theorem fixed_compRise (s : State) (sec p x : Nat) : fixed (s.compRise sec p x) = fixed s := by
  unfold State.compRise; simp

@[simp] theorem fixed_compFall (s : State) (sec p x : Nat) : fixed (s.compFall sec p x) = fixed s := by
  unfold State.compFall; simp

@[simp] theorem fixed_followA (s : State) (sec p x : Nat) (want : Bool) :
    fixed (s.followA sec p x want) = fixed s := by
  unfold State.followA; simp

@[simp] theorem fixed_followB (s : State) (sec p x : Nat) (want : Bool) :
    fixed (s.followB sec p x want) = fixed s := by
  unfold State.followB; simp

@[simp] theorem fixed_moveS (s : State) (sec p x : Nat) (level : Bool) : fixed (s.moveS sec p x level) = fixed s := by
  unfold State.moveS; simp

@[simp] theorem fixed_moveSB (s : State) (sec p x : Nat) (level : Bool) :
    fixed (s.moveSB sec p x level) = fixed s := by
  unfold State.moveSB; simp

@[simp] theorem fixed_riseFirst (s : State) (sec p x : Nat) : fixed (s.riseFirst sec p x) = fixed s := by
  unfold State.riseFirst; simp

@[simp] theorem fixed_restartUnit (s : State) (sec p x : Nat) : fixed (s.restartUnit sec p x) = fixed s := by
  unfold State.restartUnit; simp

@[simp] theorem fixed_takeConfig (s : State) (sec p : Nat) : fixed (s.takeConfig sec p) = fixed s := by
  unfold State.takeConfig; simp

@[simp] theorem fixed_stopPair (s : State) (sec p : Nat) : fixed (s.stopPair sec p) = fixed s := by
  unfold State.stopPair; simp

@[simp] theorem fixed_tripWrap (s : State) (sec p x : Nat) : fixed (s.tripWrap sec p x) = fixed s := by
  unfold State.tripWrap; simp

@[simp] theorem fixed_takeWrap (s : State) (sec p : Nat) : fixed (s.takeWrap sec p).2 = fixed s := by
  unfold State.takeWrap; simp

@[simp] theorem fixed_takePeriod (s : State) (sec p : Nat) : fixed (s.takePeriod sec p) = fixed s := by
  unfold State.takePeriod; simp

@[simp] theorem fixed_numberWrap (s : State) (sec p n : Nat) : fixed (s.numberWrap sec p n) = fixed s := by
  unfold State.numberWrap; simp

@[simp] theorem fixed_startPair (s : State) (sec p : Nat) : fixed (s.startPair sec p) = fixed s := by
  unfold State.startPair; simp

@[simp] theorem fixed_wrapOn (s : State) (sec p : Nat) : fixed (s.wrapOn sec p) = fixed s := by
  unfold State.wrapOn; simp

@[simp] theorem fixed_wrapOff (s : State) (sec p : Nat) : fixed (s.wrapOff sec p) = fixed s := by
  unfold State.wrapOff; simp

@[simp] theorem fixed_joinLeader (s : State) (sec p : Nat) : fixed (s.joinLeader sec p) = fixed s := by
  unfold State.joinLeader; simp

@[simp] theorem fixed_takeSync (s : State) (sec p : Nat) : fixed (s.takeSync sec p) = fixed s := by
  unfold State.takeSync; simp

@[simp] theorem fixed_startLeader (s : State) (sec p : Nat) : fixed (s.startLeader sec p) = fixed s := by
  unfold State.startLeader; simp

@[simp] theorem fixed_stopLeader (s : State) (sec p : Nat) : fixed (s.stopLeader sec p) = fixed s := by
  unfold State.stopLeader; simp

@[simp] theorem fixed_liveCompare (s : State) (sec p i v : Nat) : fixed (s.liveCompare sec p i v) = fixed s := by
  unfold State.liveCompare; simp

@[simp] theorem fixed_livePhase (s : State) (sec p v : Nat) : fixed (s.livePhase sec p v) = fixed s := by
  unfold State.livePhase; simp

@[simp] theorem fixed_spreadPeriod (sec per n : Nat) :
    ∀ (p : Nat) (s : State), fixed (State.spreadPeriod sec per n p s) = fixed s := by
  induction n with
  | zero => exact fun _ _ => rfl
  | succ n ih =>
    intro p s
    unfold State.spreadPeriod
    exact fixed_foldl _ (fun u q => by dsimp only; split <;> simp [ih]) _ _

@[simp] theorem fixed_livePeriod (s : State) (sec p v : Nat) : fixed (s.livePeriod sec p v) = fixed s := by
  unfold State.livePeriod; dsimp only; (repeat' split) <;> simp

@[simp] theorem fixed_calibratePair (s : State) (sec p : Nat) (taps : Nat × Nat) :
    fixed (s.calibratePair sec p taps) = fixed s := by
  unfold State.calibratePair; simp

@[simp] theorem fixed_calibrateLine (s : State) (sec c taps : Nat) :
    fixed (s.calibrateLine sec c taps) = fixed s := by
  unfold State.calibrateLine; simp

@[simp] theorem fixed_pairConfigured (s : State) (sec p : Nat) : fixed (s.pairConfigured sec p) = fixed s := by
  unfold State.pairConfigured; simp

@[simp] theorem fixed_setHistory (s : State) (sec n : Nat) (h : History) :
    fixed (s.setHistory sec n h) = fixed s := by
  unfold State.setHistory; simp

@[simp] theorem fixed_decaySlot (s : State) (sec n : Nat) : fixed (s.decaySlot sec n) = fixed s := by
  unfold State.decaySlot; simp

@[simp] theorem fixed_closeSlot (s : State) (sec n : Nat) (ff : Int) : fixed (s.closeSlot sec n ff) = fixed s := by
  unfold State.closeSlot; simp

@[simp] theorem fixed_takeReference (s : State) (sec n : Nat) (code : Int) :
    fixed (s.takeReference sec n code) = fixed s := by
  unfold State.takeReference; simp

@[simp] theorem fixed_grantEval (s : State) (sec n : Nat) : fixed (s.grantEval sec n) = fixed s := by
  unfold State.grantEval; dsimp only; split <;> simp

@[simp] theorem fixed_putOutput (s : State) (sec n : Nat) (u : Int) : fixed (s.putOutput sec n u) = fixed s := by
  unfold State.putOutput; simp

@[simp] theorem fixed_landOutput (s : State) (sec n : Nat) : fixed (s.landOutput sec n) = fixed s := by
  unfold State.landOutput; split <;> simp

@[simp] theorem fixed_dropEvals (s : State) (sec n : Nat) : fixed (s.dropEvals sec n) = fixed s := by
  unfold State.dropEvals; simp

@[simp] theorem fixed_tickLoops (s : State) : fixed s.tickLoops = fixed s := by
  unfold State.tickLoops
  exact (fixed_foldl _ (fun u k => by simp) _ _).trans (fixed_foldl _ (fun u k => by simp) _ _)

@[simp] theorem fixed_freeResult (s : State) : fixed (s.freeResult).2 = fixed s := by unfold State.freeResult; simp

@[simp] theorem fixed_manualOutput (s : State) (i : EvalInput) : fixed (s.manualOutput i).2 = fixed s := by
  unfold State.manualOutput; split <;> simp

@[simp] theorem fixed_evalOpen (s : State) (sec n : Nat) (i : EvalInput) : fixed (s.evalOpen sec n i) = fixed s := by
  unfold State.evalOpen; simp

@[simp] theorem fixed_showClosed (s : State) (sec n : Nat) (i : EvalInput) :
    fixed (s.showClosed sec n i) = fixed s := by
  unfold State.showClosed; simp

@[simp] theorem fixed_evalMiss (s : State) (sec n : Nat) (i : EvalInput) : fixed (s.evalMiss sec n i) = fixed s := by
  unfold State.evalMiss; simp

@[simp] theorem fixed_evalMismatch (s : State) (sec n : Nat) (i : EvalInput) :
    fixed (s.evalMismatch sec n i) = fixed s := by
  unfold State.evalMismatch; simp

@[simp] theorem fixed_evalGood (s : State) (sec n : Nat) (i : EvalInput) (r : LawResult) :
    fixed (s.evalGood sec n i r) = fixed s := by
  unfold State.evalGood; simp

@[simp] theorem fixed_evalGranted (s : State) (sec n : Nat) (i : EvalInput) (upset : Bool) :
    fixed (s.evalGranted sec n i upset) = fixed s := by
  unfold State.evalGranted; simp

@[simp] theorem fixed_requestLoop (s : State) (sec n : Nat) (close : Bool) :
    fixed (s.requestLoop sec n close) = fixed s := by
  unfold State.requestLoop; simp

@[simp] theorem fixed_clearLoop (s : State) (sec n : Nat) : fixed (s.clearLoop sec n) = fixed s := by
  unfold State.clearLoop; simp

@[simp] theorem fixed_clearEngine (s : State) (sec g : Nat) : fixed (s.clearEngine sec g) = fixed s := by
  unfold State.clearEngine; simp

@[simp] theorem fixed_resetRegs (s : State) (sel : Nat → Nat → Bool) (hit : Restore → Bool) :
    fixed (s.resetRegs sel hit) = fixed s := by
  unfold State.resetRegs; simp

@[simp] theorem fixed_leaveService (s : State) (p value : Nat) : fixed (s.leaveService p value) = fixed s := by
  unfold State.leaveService; simp

@[simp] theorem fixed_unfill (s : State) (p c : Nat) : fixed (s.unfill p c) = fixed s := by unfold State.unfill; simp

@[simp] theorem fixed_resample (s : State) (p : Nat) (l : List Claim) : fixed (s.resample p l) = fixed s := by
  unfold State.resample; simp

@[simp] theorem fixed_resetThread (s : State) (p t : Nat) : fixed (s.resetThread p t) = fixed s := by
  unfold State.resetThread; simp

@[simp] theorem fixed_readStart (s : State) (p t : Nat) : fixed (s.readStart p t) = fixed s := by
  unfold State.readStart; dsimp only; split <;> simp

@[simp] theorem fixed_loadRecord (s : State) (p t : Nat) : fixed (s.loadRecord p t) = fixed s := by
  unfold State.loadRecord; simp

@[simp] theorem fixed_startThread (s : State) (p t : Nat) : fixed (s.startThread p t) = fixed s := by
  unfold State.startThread; simp

@[simp] theorem fixed_restartThread (s : State) (p t : Nat) : fixed (s.restartThread p t) = fixed s := by
  unfold State.restartThread; simp

@[simp] theorem fixed_runOn (s : State) (q : Nat) (threads : List Nat) : fixed (s.runOn q threads) = fixed s := by
  unfold State.runOn; simp

@[simp] theorem fixed_refusePlan (s : State) (sl q reason state : Nat) :
    fixed (s.refusePlan sl q reason state) = fixed s := by
  unfold State.refusePlan; simp

@[simp] theorem fixed_stopMirror (s : State) (p : Nat) : fixed (s.stopMirror p) = fixed s := by
  unfold State.stopMirror; simp

@[simp] theorem fixed_dropPlan (s : State) (p : Nat) : fixed (s.dropPlan p) = fixed s := by unfold State.dropPlan; simp

@[simp] theorem fixed_emptyThread (s : State) (p t : Nat) : fixed (s.emptyThread p t) = fixed s := by
  unfold State.emptyThread; simp

@[simp] theorem fixed_passPair (s : State) (pk giver : Nat) : fixed (s.passPair pk giver) = fixed s := by
  unfold State.passPair; split <;> simp

@[simp] theorem fixed_setOwnerState (s : State) (pk : Nat) (adopted orphaned : Bool) :
    fixed (s.setOwnerState pk adopted orphaned) = fixed s := by
  unfold State.setOwnerState; simp

@[simp] theorem fixed_resignal (s : State) (pk : Nat) : fixed (s.resignal pk) = fixed s := by
  unfold State.resignal; dsimp only; split
  · rfl
  · exact fixed_foldl _ (fun u b => by (repeat' split) <;> simp) _ _

@[simp] theorem fixed_orphanSlice (s : State) (sl reason : Nat) : fixed (s.orphanSlice sl reason) = fixed s := by
  unfold State.orphanSlice; simp

@[simp] theorem fixed_entitle (s : State) (sl : Nat) (pages : List Nat) : fixed (s.entitle sl pages) = fixed s := by
  unfold State.entitle; simp

@[simp] theorem fixed_adoptSlice (s : State) (sl : Nat) : fixed (s.adoptSlice sl) = fixed s := by
  have hpage : ∀ (u : State) (k : Nat), fixed (match blockOf k with
      | some (.fadc, _) => (u.resignal k).freezeAdopted k
      | _ => u.resignal k) = fixed u := fun u k => by split <;> simp
  unfold State.adoptSlice
  simp only [fixed_raise, fixed_setFld, fixed_setHandover, fixed_setJournal]
  exact (fixed_foldl _ hpage _ _).trans (by simp)

@[simp] theorem fixed_tryHandover (s : State) (sl : Nat) : fixed (s.tryHandover sl) = fixed s := by
  unfold State.tryHandover; simp

@[simp] theorem fixed_loseAdopted (s : State) (p : Nat) : fixed (s.loseAdopted p) = fixed s := by
  unfold State.loseAdopted; simp

@[simp] theorem fixed_endHalt (s : State) (p : Nat) : fixed (s.endHalt p) = fixed s := by unfold State.endHalt; simp

@[simp] theorem fixed_detectInjected (s : State) (p core : Nat) : fixed (s.detectInjected p core) = fixed s := by
  unfold State.detectInjected; simp

@[simp] theorem fixed_parkThread (s : State) (p t : Nat) (why : Park) : fixed (s.parkThread p t why) = fixed s := by
  unfold State.parkThread; simp

@[simp] theorem fixed_loseWord (s : State) (p addr : Nat) : fixed (s.loseWord p addr) = fixed s := by
  unfold State.loseWord; simp

@[simp] theorem fixed_noteFar (s : State) (p q : Nat) : fixed (s.noteFar p q) = fixed s := by
  unfold State.noteFar; simp

@[simp] theorem fixed_noteRemote (s : State) (p a : Nat) : fixed (s.noteRemote p a) = fixed s := by
  unfold State.noteRemote; split <;> simp

@[simp] theorem fixed_countMiss (s : State) (p t : Nat) (l2 : Bool) : fixed (s.countMiss p t l2) = fixed s := by
  unfold State.countMiss; simp

@[simp] theorem fixed_missL2 (s : State) (p t a : Nat) (code : Bool) : fixed (s.missL2 p t a code) = fixed s := by
  unfold State.missL2; simp

@[simp] theorem fixed_readL2 (s : State) (p port line : Nat) : fixed (s.readL2 p port line) = fixed s := by
  unfold State.readL2; simp

@[simp] theorem fixed_noteCollision (s : State) (p winner loser addr : Nat) :
    fixed (s.noteCollision p winner loser addr) = fixed s := by
  unfold State.noteCollision; simp

@[simp] theorem fixed_setColl (s : State) (p t : Nat) : fixed (s.setColl p t) = fixed s := by
  unfold State.setColl; simp

@[simp] theorem fixed_noteBank (s : State) (q port a : Nat) : fixed (s.noteBank q port a) = fixed s := by
  unfold State.noteBank; simp

@[simp] theorem fixed_rivalAt (s : State) (p t addr : Nat) : fixed (s.rivalAt p t addr).2 = fixed s := by
  unfold State.rivalAt; dsimp only; (repeat' split) <;> simp

@[simp] theorem fixed_noteLostWord (s : State) (p port q b a : Nat) (path : Path) :
    fixed (s.noteLostWord p port q b a path) = fixed s := by
  unfold State.noteLostWord; simp

@[simp] theorem fixed_readThrough (s : State) (port q b : Nat) (path : Path) :
    fixed (s.readThrough port q b path) = fixed s := by
  unfold State.readThrough; simp

@[simp] theorem fixed_consume (s : State) (p : Nat) (e : Entry) : fixed (s.consume p e) = fixed s := by
  unfold State.consume; simp

@[simp] theorem fixed_readAhead (s : State) (p c line : Nat) : fixed (s.readAhead p c line) = fixed s := by
  unfold State.readAhead; simp

@[simp] theorem fixed_fetched (s : State) (p t : Nat) : fixed (s.fetched p t) = fixed s := by
  unfold State.fetched; simp

@[simp] theorem fixed_orFlags (s : State) (p t fl : Nat) : fixed (s.orFlags p t fl) = fixed s := by
  unfold State.orFlags; simp

@[simp] theorem fixed_spendSpec (s : State) (p t : Nat) : fixed (s.spendSpec p t) = fixed s := by
  unfold State.spendSpec; simp

@[simp] theorem fixed_mispredict (s : State) (p t : Nat) : fixed (s.mispredict p t) = fixed s := by
  unfold State.mispredict; simp

@[simp] theorem fixed_resolveBranch (s : State) (p t : Nat) (taken : Bool) :
    fixed (s.resolveBranch p t taken) = fixed s := by
  unfold State.resolveBranch; simp

@[simp] theorem fixed_pushReturn (s : State) (p t ret : Nat) : fixed (s.pushReturn p t ret) = fixed s := by
  unfold State.pushReturn; simp

@[simp] theorem fixed_resolveReturn (s : State) (p t target : Nat) :
    fixed (s.resolveReturn p t target) = fixed s := by
  unfold State.resolveReturn; dsimp only; (repeat' split) <;> simp

@[simp] theorem fixed_learnTarget (s : State) (p c a target : Nat) :
    fixed (s.learnTarget p c a target) = fixed s := by
  unfold State.learnTarget; simp

@[simp] theorem fixed_resolveJump (s : State) (p t len target : Nat) :
    fixed (s.resolveJump p t len target) = fixed s := by
  unfold State.resolveJump; dsimp only; (repeat' split) <;> simp

@[simp] theorem fixed_refetch (s : State) (p t : Nat) : fixed (s.refetch p t) = fixed s := by
  unfold State.refetch; simp

@[simp] theorem fixed_setFaultAfter (s : State) (p t code : Nat) : fixed (s.setFaultAfter p t code) = fixed s := by
  unfold State.setFaultAfter; dsimp only; split <;> simp

@[simp] theorem fixed_holdDevice (s : State) (p t a : Nat) (v : Word) (due : Option Nat) :
    fixed (s.holdDevice p t a v due) = fixed s := by
  unfold State.holdDevice; simp

@[simp] theorem fixed_stallEntry (s : State) (p t base : Nat) : fixed (s.stallEntry p t base) = fixed s := by
  unfold State.stallEntry; split <;> simp

@[simp] theorem fixed_spurious (s : State) (p t : Nat) : fixed (s.spurious p t) = fixed s := by
  unfold State.spurious; simp

@[simp] theorem fixed_takeClaim (s : State) (p t : Nat) : fixed (s.takeClaim p t) = fixed s := by
  unfold State.takeClaim; split <;> simp

@[simp] theorem fixed_replayClaim (s : State) (p t : Nat) (w : Word) : fixed (s.replayClaim p t w) = fixed s := by
  unfold State.replayClaim; simp

@[simp] theorem fixed_clearEvc (s : State) (p : Nat) : fixed (s.clearEvc p) = fixed s := by unfold State.clearEvc; simp

@[simp] theorem fixed_presentEvent (s : State) (e : EventTransfer) : fixed (s.presentEvent e) = fixed s := by
  unfold State.presentEvent; simp

@[simp] theorem fixed_tickEvents (s : State) : fixed (s.tickEvents) = fixed s := by unfold State.tickEvents; simp

@[simp] theorem fixed_fillMiss (s : State) (p t : Nat) : fixed (s.fillMiss p t) = fixed s := by
  unfold State.fillMiss; dsimp only; (repeat' split) <;> simp

@[simp] theorem fixed_impreciseError (s : State) (p t addr : Nat) : fixed (s.impreciseError p t addr) = fixed s := by
  unfold State.impreciseError; simp

theorem fixed_of_special {s u : State} {p t num : Nat} {w : Word} (h : s.special p t num = some (w, u)) :
    fixed u = fixed s := by
  unfold State.special at h
  dsimp only at h
  split at h
  all_goals simp only [Option.some.injEq, Prod.mk.injEq, reduceCtorEq] at h
  all_goals rw [← h.2]
  all_goals simp
  split <;> simp

@[simp] theorem fixed_writeFlags (s : State) (p t : Nat) (v : Word) : fixed (s.writeFlags p t v) = fixed s := by
  unfold State.writeFlags; simp

@[simp] theorem fixed_clearCore (s : State) (p t : Nat) : fixed (s.clearCore p t) = fixed s := by
  unfold State.clearCore; simp

@[simp] theorem fixed_clearThread (s : State) (p t : Nat) : fixed (s.clearThread p t) = fixed s := by
  unfold State.clearThread; simp

@[simp] theorem fixed_clearScratchCounts (s : State) (p : Nat) : fixed (s.clearScratchCounts p) = fixed s := by
  unfold State.clearScratchCounts; simp

@[simp] theorem fixed_autoMark (s : State) (p rank d count : Nat) : fixed (s.autoMark p rank d count) = fixed s := by
  unfold State.autoMark; simp

@[simp] theorem fixed_noteCorrected (s : State) (p line : Nat) (errs : LineErrors) :
    fixed (s.noteCorrected p line errs) = fixed s := by
  unfold State.noteCorrected; simp

@[simp] theorem fixed_noteLostLine (s : State) (p line source : Nat) (errs : LineErrors) :
    fixed (s.noteLostLine p line source errs) = fixed s := by
  unfold State.noteLostLine; simp

@[simp] theorem fixed_loseLine (s : State) (p line : Nat) : fixed (s.loseLine p line) = fixed s := by
  unfold State.loseLine; simp

@[simp] theorem fixed_regainLine (s : State) (p line : Nat) : fixed (s.regainLine p line) = fixed s := by
  unfold State.regainLine; simp

@[simp] theorem fixed_readLine (s : State) (p line : Nat) (scrub : Bool) (errs : LineErrors) :
    fixed (s.readLine p line scrub errs) = fixed s := by
  unfold State.readLine; simp

@[simp] theorem fixed_startRepair (s : State) (p : Nat) : fixed (s.startRepair p) = fixed s := by
  unfold State.startRepair; simp

@[simp] theorem fixed_clearDevices (s : State) (p : Nat) : fixed (s.clearDevices p) = fixed s := by
  unfold State.clearDevices; simp

@[simp] theorem fixed_drainDma (s : State) (p c inFlight : Nat) : fixed (s.drainDma p c inFlight) = fixed s := by
  unfold State.drainDma; simp

@[simp] theorem fixed_pauseDma (s : State) (p c inFlight : Nat) : fixed (s.pauseDma p c inFlight) = fixed s := by
  unfold State.pauseDma; simp

@[simp] theorem fixed_allocate (s : State) (p : Nat) : fixed (s.allocate p) = fixed s := by unfold State.allocate; simp

@[simp] theorem fixed_freeDma (s : State) (p c : Nat) : fixed (s.freeDma p c) = fixed s := by
  unfold State.freeDma; simp

@[simp] theorem fixed_reloadTimer (s : State) (p n : Nat) : fixed (s.reloadTimer p n) = fixed s := by
  unfold State.reloadTimer; simp

@[simp] theorem fixed_timerEvents (s : State) (p n : Nat) : fixed (s.timerEvents p n) = fixed s := by
  unfold State.timerEvents; simp

@[simp] theorem fixed_startTimer (s : State) (p n : Nat) : fixed (s.startTimer p n) = fixed s := by
  unfold State.startTimer; simp

@[simp] theorem fixed_stopTimer (s : State) (p n : Nat) : fixed (s.stopTimer p n) = fixed s := by
  unfold State.stopTimer; simp

@[simp] theorem fixed_startTimers (s : State) (p mask : Nat) : fixed (s.startTimers p mask) = fixed s := by
  unfold State.startTimers; simp

@[simp] theorem fixed_haltTimers (s : State) (p mask : Nat) : fixed (s.haltTimers p mask) = fixed s := by
  unfold State.haltTimers; simp

@[simp] theorem fixed_acceptEdge (s : State) (p n : Nat) (rise : Bool) : fixed (s.acceptEdge p n rise) = fixed s := by
  unfold State.acceptEdge; simp

@[simp] theorem fixed_sampleCapture (s : State) (p n : Nat) : fixed (s.sampleCapture p n) = fixed s := by
  unfold State.sampleCapture; split <;> simp

@[simp] theorem fixed_tickCaptures (s : State) : fixed (s.tickCaptures) = fixed s := by unfold State.tickCaptures; simp

@[simp] theorem fixed_chooseCapture (s : State) (p n : Nat) : fixed (s.chooseCapture p n) = fixed s := by
  unfold State.chooseCapture; simp

@[simp] theorem fixed_uncountEdge (s : State) (p n t : Nat) : fixed (s.uncountEdge p n t) = fixed s := by
  unfold State.uncountEdge; simp

@[simp] theorem fixed_takeCapture (s : State) (p n edge : Nat) : fixed (s.takeCapture p n edge) = fixed s := by
  unfold State.takeCapture; simp

@[simp] theorem fixed_noteOverrun (s : State) (p n : Nat) : fixed (s.noteOverrun p n) = fixed s := by
  unfold State.noteOverrun; simp

@[simp] theorem fixed_tickOverruns (s : State) : fixed (s.tickOverruns) = fixed s := by unfold State.tickOverruns; simp

@[simp] theorem fixed_readCapture (s : State) (p n : Nat) : fixed (s.readCapture p n) = fixed s := by
  unfold State.readCapture; simp

@[simp] theorem fixed_enterRow (s : State) (sec e r : Nat) : fixed (s.enterRow sec e r) = fixed s := by
  unfold State.enterRow; simp

@[simp] theorem fixed_stenShift (s : State) (sec e : Nat) (pins : BitVec 16) :
    fixed (s.stenShift sec e pins) = fixed s := by
  unfold State.stenShift; simp

@[simp] theorem fixed_stenPull (s : State) (sec e : Nat) : fixed (s.stenPull sec e) = fixed s := by
  unfold State.stenPull; dsimp only; split <;> simp

@[simp] theorem fixed_stenPush (s : State) (sec e : Nat) : fixed (s.stenPush sec e) = fixed s := by
  unfold State.stenPush; simp

@[simp] theorem fixed_stenEnd (s : State) (sec e op : Nat) (pins : BitVec 16) :
    fixed (s.stenEnd sec e op pins) = fixed s := by
  unfold State.stenEnd; simp

@[simp] theorem fixed_takeRows (s : State) (sec e : Nat) : fixed (s.takeRows sec e) = fixed s := by
  unfold State.takeRows; simp

@[simp] theorem fixed_endRow (s : State) (sec e : Nat) (pins : BitVec 16) :
    fixed (s.endRow sec e pins) = fixed s := by
  unfold State.endRow; simp

@[simp] theorem fixed_startEngine (s : State) (sec e : Nat) : fixed (s.startEngine sec e) = fixed s := by
  unfold State.startEngine; simp

@[simp] theorem fixed_stopEngine (s : State) (sec e : Nat) : fixed (s.stopEngine sec e) = fixed s := by
  unfold State.stopEngine; simp

@[simp] theorem fixed_stenEdge (s : State) (sec e : Nat) : fixed (s.stenEdge sec e) = fixed s := by
  unfold State.stenEdge; simp

@[simp] theorem fixed_restartDivider (s : State) (sec e : Nat) : fixed (s.restartDivider sec e) = fixed s := by
  unfold State.restartDivider; simp

@[simp] theorem fixed_settleDivider (s : State) (sec e : Nat) : fixed (s.settleDivider sec e) = fixed s := by
  unfold State.settleDivider; simp

@[simp] theorem fixed_askStart (s : State) (sec e : Nat) : fixed (s.askStart sec e) = fixed s := by
  unfold State.askStart; simp

@[simp] theorem fixed_askStop (s : State) (sec e : Nat) : fixed (s.askStop sec e) = fixed s := by
  unfold State.askStop; simp

@[simp] theorem fixed_askClock (s : State) (sec e : Nat) : fixed (s.askClock sec e) = fixed s := by
  unfold State.askClock; simp

@[simp] theorem fixed_groupStart (s : State) (sec mask : Nat) : fixed (s.groupStart sec mask) = fixed s := by
  unfold State.groupStart; simp

@[simp] theorem fixed_groupStop (s : State) (sec mask : Nat) : fixed (s.groupStop sec mask) = fixed s := by
  unfold State.groupStop; simp

@[simp] theorem fixed_groupClock (s : State) (sec mask : Nat) : fixed (s.groupClock sec mask) = fixed s := by
  unfold State.groupClock; simp

@[simp] theorem fixed_tickStencilsOut (s : State) : fixed (s.tickStencilsOut) = fixed s := by
  unfold State.tickStencilsOut; simp

@[simp] theorem fixed_tickStencilsIn (s : State) : fixed (s.tickStencilsIn) = fixed s := by
  unfold State.tickStencilsIn; simp

@[simp] theorem fixed_clearFifos (s : State) (sec e : Nat) : fixed (s.clearFifos sec e) = fixed s := by
  unfold State.clearFifos; simp

@[simp] theorem fixed_pushTx (s : State) (sec e : Nat) (w : BitVec 32) : fixed (s.pushTx sec e w) = fixed s := by
  unfold State.pushTx; simp

@[simp] theorem fixed_rxWord (s : State) (sec e : Nat) : fixed (s.rxWord sec e).2 = fixed s := by
  unfold State.rxWord; split <;> simp

@[simp] theorem fixed_popRx (s : State) (sec e : Nat) : fixed (s.popRx sec e) = fixed s := by
  unfold State.popRx; dsimp only; split <;> simp

@[simp] theorem fixed_putRow (s : State) (sec e r : Nat) (w : Word) : fixed (s.putRow sec e r w) = fixed s := by
  unfold State.putRow; simp

@[simp] theorem fixed_tickPads (s : State) : fixed s.tickPads = fixed s := by
  unfold State.tickPads; split <;> simp

@[simp] theorem fixed_setPstat (s : State) (p i : Nat) (f : Fld) (v : Nat) :
    fixed (s.setPstat p i f v) = fixed s := by
  unfold State.setPstat; simp

@[simp] theorem fixed_setChan (s : State) (p c : Nat) (f : Fld) (v : Nat) : fixed (s.setChan p c f v) = fixed s := by
  unfold State.setChan; simp

@[simp] theorem fixed_formSum (s : State) (p c : Nat) : fixed (s.formSum p c) = fixed s := by
  unfold State.formSum; simp

@[simp] theorem fixed_queueWrites (s : State) (p : Nat) (l : List IntentWrite) :
    fixed (s.queueWrites p l) = fixed s := by
  unfold State.queueWrites; simp

@[simp] theorem fixed_issueWrites (s : State) (p : Nat) : fixed (s.issueWrites p) = fixed s := by
  unfold State.issueWrites; simp

@[simp] theorem fixed_issueSum (s : State) (p c due tick : Nat) : fixed (s.issueSum p c due tick) = fixed s := by
  unfold State.issueSum; simp

@[simp] theorem fixed_issueDecay (s : State) (p c due : Nat) : fixed (s.issueDecay p c due) = fixed s := by
  unfold State.issueDecay; simp

@[simp] theorem fixed_makeAbsent (s : State) (p i : Nat) : fixed (s.makeAbsent p i) = fixed s := by
  unfold State.makeAbsent; simp

@[simp] theorem fixed_quarantine (s : State) (p i : Nat) : fixed (s.quarantine p i) = fixed s := by
  unfold State.quarantine; simp

@[simp] theorem fixed_dropIntent (s : State) (p : Nat) (f : Fld) : fixed (s.dropIntent p f) = fixed s := by
  unfold State.dropIntent; simp

@[simp] theorem fixed_dropUnknown (s : State) (p : Nat) (sci : Word) : fixed (s.dropUnknown p sci) = fixed s := by
  unfold State.dropUnknown; simp

@[simp] theorem fixed_queueIntent (s : State) (p i : Nat) (m : IntentMessage) :
    fixed (s.queueIntent p i m) = fixed s := by
  unfold State.queueIntent; simp

@[simp] theorem fixed_portStage (s : State) (p port : Nat) (sci : Option Word) (body : List Byte) :
    fixed (s.portStage p port sci body) = fixed s := by
  unfold State.portStage; (repeat' split) <;> simp

@[simp] theorem fixed_intentArrives (s : State) (p port : Nat) (sci : Option Word) (body : List Byte) :
    fixed (s.intentArrives p port sci body) = fixed s := by
  unfold State.intentArrives; simp

@[simp] theorem fixed_rejectIntent (s : State) (p i code : Nat) : fixed (s.rejectIntent p i code) = fixed s := by
  unfold State.rejectIntent; simp

@[simp] theorem fixed_acceptIntent (s : State) (p i : Nat) (m : IntentMessage) :
    fixed (s.acceptIntent p i m) = fixed s := by
  unfold State.acceptIntent; simp

@[simp] theorem fixed_takeIntent (s : State) (p : Nat) (m : IntentMessage) : fixed (s.takeIntent p m) = fixed s := by
  unfold State.takeIntent; split <;> simp

@[simp] theorem fixed_takeNext (s : State) (p : Nat) (m : IntentMessage) : fixed (s.takeNext p m) = fixed s := by
  unfold State.takeNext; simp

@[simp] theorem fixed_laterFrames (s : State) (p : Nat) : fixed (s.laterFrames p) = fixed s := by
  unfold State.laterFrames; simp

@[simp] theorem fixed_tickIntent (s : State) (p : Nat) : fixed (s.tickIntent p) = fixed s := by
  unfold State.tickIntent; dsimp only; split <;> simp

@[simp] theorem fixed_clearQuar (s : State) (p i : Nat) : fixed (s.clearQuar p i) = fixed s := by
  unfold State.clearQuar; simp

@[simp] theorem fixed_setValid (s : State) (p i : Nat) (valid : Bool) : fixed (s.setValid p i valid) = fixed s := by
  unfold State.setValid; simp

@[simp] theorem fixed_clearIntent (s : State) (p : Nat) : fixed (s.clearIntent p) = fixed s := by
  unfold State.clearIntent; simp

@[simp] theorem fixed_settlePtp (s : State) (p n : Nat) (newRole : Bool) :
    fixed (s.settlePtp p n newRole) = fixed s := by
  unfold State.settlePtp; simp

@[simp] theorem fixed_missSync (s : State) (p n : Nat) : fixed (s.missSync p n) = fixed s := by
  unfold State.missSync; simp

@[simp] theorem fixed_takeWire (s : State) (p n : Nat) : fixed (s.takeWire p n) = fixed s := by
  unfold State.takeWire; simp

@[simp] theorem fixed_settlePreempt (s : State) (p n : Nat) : fixed (s.settlePreempt p n) = fixed s := by
  unfold State.settlePreempt; simp

@[simp] theorem fixed_showLink (s : State) (p n : Nat) (up anDone : Bool) (speed fec : Nat) :
    fixed (s.showLink p n up anDone speed fec) = fixed s := by
  unfold State.showLink; simp

@[simp] theorem fixed_linkDown (s : State) (p n : Nat) : fixed (s.linkDown p n) = fixed s := by
  unfold State.linkDown; simp

@[simp] theorem fixed_fecBlock (s : State) (p n : Nat) : fixed (s.fecBlock p n) = fixed s := by
  unfold State.fecBlock; simp

@[simp] theorem fixed_tickFec (s : State) : fixed (s.tickFec) = fixed s := by unfold State.tickFec; simp

@[simp] theorem fixed_dropSecy (s : State) (p n : Nat) (f : Fld) : fixed (s.dropSecy p n f) = fixed s := by
  unfold State.dropSecy; simp

@[simp] theorem fixed_tagFrame (s : State) (p n : Nat) (sa : Option Association) :
    fixed (s.tagFrame p n sa).2 = fixed s := by
  unfold State.tagFrame; split <;> simp

@[simp] theorem fixed_sendFrame (s : State) (p n : Nat) (f : TxFrame) (tag : Option TxTag) (first cut : Nat) :
    fixed (s.sendFrame p n f tag first cut) = fixed s := by
  unfold State.sendFrame; simp

@[simp] theorem fixed_requestGates (s : State) (p n : Nat) : fixed (s.requestGates p n) = fixed s := by
  unfold State.requestGates; simp

@[simp] theorem fixed_applyGates (s : State) (p n gptp : Nat) : fixed (s.applyGates p n gptp) = fixed s := by
  unfold State.applyGates; simp

@[simp] theorem fixed_nextGate (s : State) (p n gptp : Nat) : fixed (s.nextGate p n gptp) = fixed s := by
  unfold State.nextGate; simp

@[simp] theorem fixed_loadSa (s : State) (p n : Nat) : fixed (s.loadSa p n) = fixed s := by
  unfold State.loadSa; dsimp only; (repeat' split) <;> simp

@[simp] theorem fixed_clearEth (s : State) (p n : Nat) : fixed (s.clearEth p n) = fixed s := by
  unfold State.clearEth; simp

@[simp] theorem fixed_clearFabric (s : State) (p : Nat) : fixed (s.clearFabric p) = fixed s := by
  unfold State.clearFabric; simp

@[simp] theorem fixed_countLate (s : State) (p : Nat) : fixed (s.countLate p) = fixed s := by
  unfold State.countLate; simp

@[simp] theorem fixed_planBoundary (s : State) (p : Nat) : fixed (s.planBoundary p) = fixed s := by
  unfold State.planBoundary; dsimp only; split <;> simp

@[simp] theorem fixed_beginReturn (s : State) (sl : Nat) : fixed (s.beginReturn sl) = fixed s := by
  unfold State.beginReturn; simp

@[simp] theorem fixed_setJournalEn (s : State) (p : Nat) (en : Bool) : fixed (s.setJournalEn p en) = fixed s := by
  unfold State.setJournalEn; simp

@[simp] theorem fixed_clearJournal (s : State) (p : Nat) : fixed (s.clearJournal p) = fixed s := by
  unfold State.clearJournal; simp

@[simp] theorem fixed_kick (s : State) (sl : Nat) : fixed (s.kick sl) = fixed s := by unfold State.kick; simp

@[simp] theorem fixed_fillSlot (s : State) (q t : Nat) (x : Slot) : fixed (s.fillSlot q t x).2 = fixed s := by
  unfold State.fillSlot; (repeat' split) <;> simp

@[simp] theorem fixed_fillStack (s : State) (q t : Nat) (l : List Slot) : fixed (s.fillStack q t l).2 = fixed s := by
  induction l generalizing s with
  | nil => rfl
  | cons x l ih => unfold State.fillStack; simp [ih]

@[simp] theorem fixed_restoreStore (s : State) (q t : Nat) : fixed (s.restoreStore q t) = fixed s := by
  unfold State.restoreStore; dsimp only; (repeat' split) <;> simp

@[simp] theorem fixed_resource (s : State) (q t : Nat) (before : State) :
    fixed (s.resource q t before) = fixed s := by
  unfold State.resource; simp

@[simp] theorem fixed_dueOf (s : State) (panel pk : Nat) : fixed (s.dueOf panel pk).2 = fixed s := by
  unfold State.dueOf
  extract_lets
  split
  · exact (fixed_mk ..).trans (fixed_eta s)
  · split <;> rfl

@[simp] theorem fixed_heldDues (s : State) (sl : Nat) (l : List HeldDevice) :
    fixed (s.heldDues sl l).2 = fixed s := by
  induction l generalizing s with
  | nil => rfl
  | cons h l ih =>
    unfold State.heldDues
    dsimp only
    rw [ih]
    (repeat' split) <;> simp

@[simp] theorem fixed_reissue (s : State) (sl k : Nat) (x : HeldDevice × Option Nat) :
    fixed (s.reissue sl k x) = fixed s := by
  unfold State.reissue; (repeat' split) <;> simp

@[simp] theorem fixed_caughtUp (s : State) (sl : Nat) : fixed (s.caughtUp sl) = fixed s := by
  unfold State.caughtUp; simp

@[simp] theorem fixed_retryHandover (s : State) (sl : Nat) : fixed (s.retryHandover sl) = fixed s := by
  unfold State.retryHandover; simp

@[simp] theorem fixed_planHandover (s : State) (sl : Nat) : fixed (s.planHandover sl) = fixed s := by
  unfold State.planHandover; simp

@[simp] theorem fixed_releasePanel (s : State) (sl : Nat) : fixed (s.releasePanel sl) = fixed s := by
  unfold State.releasePanel; simp

@[simp] theorem fixed_returnSlice (s : State) (sl : Nat) : fixed (s.returnSlice sl) = fixed s := by
  unfold State.returnSlice; simp

@[simp] theorem fixed_returnThread (s : State) (sl t : Nat) (run : Bool) :
    fixed (s.returnThread sl t run) = fixed s := by
  unfold State.returnThread; dsimp only; split <;> simp

@[simp] theorem fixed_beginRest (s : State) (sl : Nat) : fixed (s.beginRest sl) = fixed s := by
  unfold State.beginRest; simp

@[simp] theorem fixed_stopThreads (s : State) (p mask : Nat) : fixed (s.stopThreads p mask) = fixed s := by
  unfold State.stopThreads; simp

@[simp] theorem fixed_startThreads (s : State) (p mask : Nat) : fixed (s.startThreads p mask) = fixed s := by
  unfold State.startThreads; simp

@[simp] theorem fixed_loseCommit (s : State) : fixed (s.loseCommit) = fixed s := by
  unfold State.loseCommit; split <;> simp

@[simp] theorem fixed_showSlots (s : State) : fixed (s.showSlots) = fixed s := by
  unfold State.showSlots; split <;> simp

@[simp] theorem fixed_showFuses (s : State) : fixed (s.showFuses) = fixed s := by unfold State.showFuses; simp

@[simp] theorem fixed_beginDip (s : State) : fixed (s.beginDip) = fixed s := by unfold State.beginDip; simp

@[simp] theorem fixed_endDip (s : State) : fixed (s.endDip) = fixed s := by unfold State.endDip; simp

@[simp] theorem fixed_takeRecord (s : State) : fixed (s.takeRecord) = fixed s := by unfold State.takeRecord; simp

@[simp] theorem fixed_markDue (s : State) (sl : Nat) (celsius : Int) : fixed (s.markDue sl celsius) = fixed s := by
  unfold State.markDue; simp

@[simp] theorem fixed_startCommit (s : State) (keys : Bool) : fixed (s.startCommit keys) = fixed s := by
  unfold State.startCommit; simp

@[simp] theorem fixed_clearDip (s : State) : fixed (s.clearDip) = fixed s := by unfold State.clearDip; simp

@[simp] theorem fixed_relock (s : State) : fixed (s.relock) = fixed s := by unfold State.relock; simp

@[simp] theorem fixed_drawChallenge (s : State) (challenge : BitVec 384) :
    fixed (s.drawChallenge challenge) = fixed s := by
  unfold State.drawChallenge; simp

@[simp] theorem fixed_submitUnlock (s : State) : fixed (s.submitUnlock) = fixed s := by unfold State.submitUnlock; simp

@[simp] theorem fixed_restoreReg (s : State) (key : Nat) (w : Word) : fixed (s.restoreReg key w) = fixed s := by
  unfold State.restoreReg; simp

@[simp] theorem fixed_restore (s : State) : fixed (s.restore) = fixed s := by unfold State.restore; split <;> simp

@[simp] theorem fixed_initStencils (s : State) (sl : Nat) : fixed (s.initStencils sl) = fixed s := by
  unfold State.initStencils; simp

@[simp] theorem fixed_gessoComparators (s : State) (sl : Nat) (g : GessoSlice) :
    fixed (s.gessoComparators sl g) = fixed s := by
  unfold State.gessoComparators; simp

@[simp] theorem fixed_gessoLines (s : State) (sl : Nat) (g : GessoSlice) : fixed (s.gessoLines sl g) = fixed s := by
  unfold State.gessoLines; simp

@[simp] theorem fixed_gessoConverters (s : State) (sl : Nat) (g : GessoSlice) :
    fixed (s.gessoConverters sl g) = fixed s := by
  unfold State.gessoConverters; simp

@[simp] theorem fixed_gessoArrays (s : State) (p : Nat) (g : GessoSlice) : fixed (s.gessoArrays p g) = fixed s := by
  unfold State.gessoArrays; simp

@[simp] theorem fixed_primeDram (s : State) (p : Nat) (g : GessoSlice) : fixed (s.primeDram p g) = fixed s := by
  unfold State.primeDram; simp

@[simp] theorem fixed_primeSlice (s : State) (sl : Nat) (g : GessoSlice) : fixed (s.primeSlice sl g) = fixed s := by
  unfold State.primeSlice; simp

@[simp] theorem fixed_holdFailed (s : State) (p : Nat) : fixed (s.holdFailed p) = fixed s := by
  unfold State.holdFailed; simp

@[simp] theorem fixed_startFirst (s : State) (p : Nat) (x : Image) : fixed (s.startFirst p x) = fixed s := by
  unfold State.startFirst; simp

@[simp] theorem fixed_easel {s : State} {act : State → State} (h : fixed (act s) = fixed s) :
    fixed (s.easel act) = fixed s := by
  unfold State.easel; split <;> simp [h]

@[simp] theorem fixed_showHalted (s : State) (p : Nat) (v : Bool) : fixed (s.showHalted p v) = fixed s := by
  unfold State.showHalted; simp

@[simp] theorem fixed_resumePanel (s : State) (p : Nat) : fixed (s.resumePanel p) = fixed s := by
  unfold State.resumePanel; simp

@[simp] theorem fixed_stepThread (s : State) (thread : Nat) (irq : Bool) (count : Nat) :
    fixed (s.stepThread thread irq count) = fixed s := by
  unfold State.stepThread; simp

@[simp] theorem fixed_injectDifference (s : State) (data : Word) : fixed (s.injectDifference data) = fixed s := by
  unfold State.injectDifference; simp

@[simp] theorem fixed_loadTap (s : State) (ir : BitVec 8) : fixed (s.loadTap ir) = fixed s := by
  unfold State.loadTap; simp

@[simp] theorem fixed_scanBalls (s : State) (x : Scan) : fixed (s.scanBalls x) = fixed s := by
  unfold State.scanBalls; simp

@[simp] theorem fixed_catchBalls (s : State) (board : BitVec 492) : fixed (s.catchBalls board) = fixed s := by
  unfold State.catchBalls; simp

@[simp] theorem fixed_bulkWord (s : State) (p : Nat) : fixed (s.bulkWord p).2 = fixed s := by
  unfold State.bulkWord; split <;> simp

theorem fixed_of_ownWord {s u : State} {pk off : Nat} {w : Word} (h : s.ownWord pk off = some (w, u)) :
    fixed u = fixed s := by
  unfold State.ownWord at h
  dsimp only at h
  repeat' split at h
  all_goals simp only [Option.some.injEq, Prod.mk.injEq, reduceCtorEq] at h
  · rw [← fixed_rxWord s, h]
  · rw [← fixed_bulkWord s, h]
  all_goals rw [← h.2]

@[simp] theorem fixed_readAs (s : State) (ag : Agent) (sec : Bool) (pk off : Nat) :
    fixed (s.readAs ag sec pk off).2 = fixed s := by
  unfold State.readAs
  (repeat' split) <;> try rfl
  next h => exact fixed_of_ownWord h

@[simp] theorem fixed_readReg (s : State) (ag : Agent) (pk off : Nat) : fixed (s.readReg ag pk off).2 = fixed s := by
  unfold State.readReg; simp

@[simp] theorem fixed_readEffect (s : State) (pk off : Nat) : fixed (s.readEffect pk off) = fixed s := by
  unfold State.readEffect; split <;> simp

@[simp] theorem fixed_takeReg (s : State) (ag : Agent) (sec : Bool) (pk off : Nat) :
    fixed (s.takeReg ag sec pk off).2 = fixed s := by
  unfold State.takeReg; simp

@[simp] theorem fixed_relist (s : State) (pk off : Nat) : fixed (s.relist pk off) = fixed s := by
  unfold State.relist; simp

@[simp] theorem fixed_checkWrite (s : State) (pk off : Nat) : fixed (s.checkWrite pk off) = fixed s := by
  unfold State.checkWrite; simp

@[simp] theorem fixed_headEffect (s before : State) (pk off : Nat) (data : Word) :
    fixed (s.headEffect before pk off data) = fixed s := by
  unfold State.headEffect; (repeat' split) <;> simp

@[simp] theorem fixed_withdraw (s : State) (p table src : Nat) : fixed (s.withdraw p table src) = fixed s := by
  unfold State.withdraw; simp

@[simp] theorem fixed_writeSources (s : State) (p table off : Nat) (data : Word) :
    fixed (s.writeSources p table off data) = fixed s := by
  unfold State.writeSources
  extract_lets pk old fields s1 n w0 w1 drop0 drop1 s2 s3 src s4
  have hs3 : fixed s3 = fixed s := by
    simp only [s3]
    split <;> simp [s2, s1]
  simp [s4, hs3]

@[simp] theorem fixed_ethArrival (s before : State) (sec : Bool) (p n pk off : Nat) (data : Word) :
    fixed (s.ethArrival before sec p n pk off data) = fixed s := by
  unfold State.ethArrival; simp

@[simp] theorem fixed_writePartner {s before : State} (h : fixed before = fixed s) (p i off : Nat) (valid : Bool) :
    fixed (s.writePartner before p i off valid) = fixed s := by
  unfold State.writePartner; split <;> simp [h]

@[simp] theorem fixed_freeChallenge (s : State) : fixed s.freeChallenge.2 = fixed s := by
  have hfold : ∀ (l : List Nat) (x : BitVec 384 × State),
      fixed (l.foldl (fun (x : BitVec 384 × State) _ =>
        let (w, u) := x.2.fresh
        ((x.1 <<< 64) ||| w.setWidth 384, u)) x).2 = fixed x.2 := by
    intro l
    induction l with
    | nil => exact fun _ => rfl
    | cons _ l ih => exact fun x => (ih _).trans (fixed_fresh x.2)
  exact hfold _ _

@[simp] theorem fixed_startTrace (s : State) (k : Nat) : fixed (s.startTrace k) = fixed s := by
  unfold State.startTrace; simp

@[simp] theorem fixed_noteRwc (s before : State) (ag : Agent) (sec : Bool) (pk off : Nat) :
    fixed (s.noteRwc before ag sec pk off) = fixed s := by
  unfold State.noteRwc; simp

@[simp] theorem fixed_writeDue (s : State) (ag : Agent) (pk : Nat) (data : Word) :
    fixed (s.writeDue ag pk data) = fixed s := by
  unfold State.writeDue; dsimp only; split <;> simp

@[simp] theorem fixed_notePort (s : State) (t : Transfer) (due : Option Nat) :
    fixed (s.notePort t due) = fixed s := by
  unfold State.notePort; dsimp only; (repeat' split) <;> simp

@[simp] theorem fixed_transferDue (s : State) (t : Transfer) : fixed (s.transferDue t).2 = fixed s := by
  unfold State.transferDue; (repeat' split) <;> simp

@[simp] theorem fixed_dmaCollides (s : State) (p c winner a : Nat) :
    fixed (s.dmaCollides p c winner a) = fixed s := by
  unfold State.dmaCollides; simp

@[simp] theorem fixed_dmaKeeps (s : State) (p c a : Nat) (w : TWord) : fixed (s.dmaKeeps p c a w) = fixed s := by
  unfold State.dmaKeeps; simp

@[simp] theorem fixed_dmaAdvance (s : State) (p c : Nat) : fixed (s.dmaAdvance p c) = fixed s := by
  unfold State.dmaAdvance; simp

@[simp] theorem fixed_loadValue (s : State) (t : Tid) (sec : Bool) (addr : Nat) (noData : Bool) :
    fixed (s.loadValue t sec addr noData).2 = fixed s := by
  unfold State.loadValue; dsimp only; (repeat' split) <;> simp

@[simp] theorem fixed_endAccess (s : State) (result : Nat) : fixed (s.endAccess result) = fixed s := by
  unfold State.endAccess; simp

@[simp] theorem fixed_endRead (s : State) (tagged : Bool) (w : TWord) : fixed (s.endRead tagged w) = fixed s := by
  unfold State.endRead; simp

@[simp] theorem fixed_refuseAccess (s : State) : fixed (s.refuseAccess) = fixed s := by unfold State.refuseAccess; simp

end Sys2Proof.Proofs
end

section
/-! PROOFS. `Onward a b`: from what `fixed` shows in `a`, a step to `b` keeps the queue and the variant, keeps legal fuses
legal and takes them forward, and keeps memory canonical. `Lands` says the same of an access that may stop. Used for O3, O4
and O60. -/

namespace Sys2Proof.Proofs

open Sys2Proof Sys2Proof.Machine

/-- The fuses are legal, and so is what a transition in progress will burn, which is no step back. -/
def Fixed.Legal (a : Fixed) : Prop :=
  a.fuses.state ≤ 4 ∧ a.fuses.floor ≤ 64
    ∧ ∀ f : Fuses, a.burn = some f → a.fuses.state ≤ f.state ∧ f.state ≤ 4 ∧ f.floor ≤ 64

/-- The listed words of memory are canonical. -/
def Fixed.Canonical (a : Fixed) : Prop := Store.wf (fun _ => voidWord) a.mem = true

def Onward (a b : Fixed) : Prop :=
  b.variant = a.variant ∧ b.pending = a.pending ∧ (a.Legal → b.Legal ∧ a.fuses.reaches b.fuses)
    ∧ (a.Canonical → b.Canonical)

@[simp] theorem Onward.refl (a : Fixed) : Onward a a :=
  ⟨rfl, rfl, fun h => ⟨h, le_refl _, le_refl _⟩, id⟩

theorem Onward.trans {a b c : Fixed} (hab : Onward a b) (hbc : Onward b c) : Onward a c := by
  obtain ⟨hv, hp, hl, hc⟩ := hab
  obtain ⟨hv', hp', hl', hc'⟩ := hbc
  refine ⟨hv'.trans hv, hp'.trans hp, fun h => ?_, hc' ∘ hc⟩
  obtain ⟨hb, hs, hf⟩ := hl h
  obtain ⟨hbl, hs', hf'⟩ := hl' hb
  exact ⟨hbl, hs.trans hs', hf.trans hf'⟩

@[simp] theorem onward_foldl {α : Type} {a : Fixed} {f : State → α → State}
    (hf : ∀ u x, Onward (fixed u) (fixed (f u x))) (l : List α) {s : State} (h : Onward a (fixed s)) :
    Onward a (fixed (l.foldl f s)) := by
  induction l generalizing s with
  | nil => exact h
  | cons x l ih => exact ih (h.trans (hf s x))

/-- What an access of an instruction answers goes onward: the state it leaves, or what its stop makes of any state. -/
def Lands {α : Type} (st : α → State) (a : Fixed) : Except Stop α → Prop
  | .ok x => Onward a (fixed (st x))
  | .error e => ∀ u, Onward (fixed u) (fixed (e u))

theorem Lands.of_ok {α : Type} {st : α → State} {a : Fixed} {r : Except Stop α} {x : α} (h : Lands st a r)
    (hr : r = .ok x) : Onward a (fixed (st x)) := by
  subst hr; exact h

theorem Lands.of_error {α : Type} {st : α → State} {a : Fixed} {r : Except Stop α} {e : Stop} (h : Lands st a r)
    (hr : r = .error e) (u : State) : Onward (fixed u) (fixed (e u)) := by
  subst hr; exact h u

theorem Lands.of_onward {α : Type} {st : α → State} {a b : Fixed} {r : Except Stop α} (hab : Onward a b)
    (h : Lands st b r) : Lands st a r := by
  cases r with
  | ok x => exact hab.trans h
  | error e => exact h

@[simp] theorem lands_ok {α : Type} {st : α → State} {a : Fixed} {x : α} :
    Lands st a (.ok x) ↔ Onward a (fixed (st x)) := Iff.rfl

@[simp] theorem lands_error {α : Type} {st : α → State} {a : Fixed} {e : Stop} :
    Lands st a (.error e) ↔ ∀ u, Onward (fixed u) (fixed (e u)) := Iff.rfl

@[simp] theorem fixed_faultStop (p t code : Nat) (u : State) : fixed (faultStop p t code u) = fixed u := by
  unfold faultStop; simp

@[simp] theorem fixed_parkStop (p t : Nat) (why : Park) (u : State) : fixed (parkStop p t why u) = fixed u := by
  unfold parkStop; simp

@[simp] theorem fixed_waitStop (u : State) : fixed (waitStop u) = fixed u := rfl

@[simp] theorem fixed_busStop (p t a : Nat) (u : State) : fixed (busStop p t a u) = fixed u := by
  unfold busStop; simp

@[simp] theorem fixed_pendingStop (p t a : Nat) (u : State) : fixed (pendingStop p t a u) = fixed u := by
  unfold pendingStop; simp

end Sys2Proof.Proofs
end

section
/-! PROOFS. The functions of the model that may write memory or burn fuses, one lemma each in the model's order: the state
goes onward. Used for O3, O4 and O60. -/

namespace Sys2Proof.Proofs

open Sys2Proof Sys2Proof.Machine

@[simp] theorem onward_setWord {a : Fixed} (s : State) (p addr : Nat) (w : TWord) (h : Onward a (fixed s)) :
    Onward a (fixed (s.setWord p addr w)) := by
  obtain ⟨hv, hp, hl, hc⟩ := h
  exact ⟨hv, hp, hl, fun hw => Laws.wf_write _ _ _ _ (hc hw)⟩

@[simp] theorem onward_wipe {a : Fixed} (s : State) (p first size : Nat) (h : Onward a (fixed s)) :
    Onward a (fixed (s.wipe p first size)) := by
  obtain ⟨hv, hp, hl, hc⟩ := h
  exact ⟨hv, hp, hl, fun hw => Laws.wf_filter _ _ _ (hc hw)⟩

@[simp] theorem onward_putMem {a : Fixed} (s : State) (p addr : Nat) (w : TWord) (h : Onward a (fixed s)) :
    Onward a (fixed (s.putMem p addr w)) := by
  unfold State.putMem; split <;> simp [h]

@[simp] theorem onward_loseTagged {a : Fixed} (s : State) (p line : Nat) (h : Onward a (fixed s)) :
    Onward a (fixed (s.loseTagged p line)) := by
  unfold State.loseTagged; simp [h]

@[simp] theorem onward_emptyCaches {a : Fixed} (s : State) (p : Nat) (h : Onward a (fixed s)) :
    Onward a (fixed (s.emptyCaches p)) := by
  unfold State.emptyCaches
  simp only [fixed_foldl, fixed_setCore, implies_true]
  refine onward_foldl (fun u x => ?_) _ h
  (repeat' split) <;> simp

@[simp] theorem onward_ringWrite {a : Fixed} (s : State) (p : Nat) (x0 : List TWord) (h : Onward a (fixed s)) :
    Onward a (fixed (s.ringWrite p x0)) := by
  induction x0 generalizing s with
  | nil => exact h
  | cons w rest ih => exact ih _ (by simp [h])

@[simp] theorem onward_addEntry {a : Fixed} (s : State) (p : Nat) (e : Entry) (h : Onward a (fixed s)) :
    Onward a (fixed (s.addEntry p e)) := by
  unfold State.addEntry; simp [h]

@[simp] theorem onward_enterInput {a : Fixed} (s : State) (p : Nat) (e : Entry) (h : Onward a (fixed s)) :
    Onward a (fixed (s.enterInput p e)) := by
  unfold State.enterInput; simp [h]

@[simp] theorem onward_withEntry {a : Fixed} (s : State) (p t kind : Nat) (payload : List TWord)
    (act : State → State) (hact : ∀ u, Onward (fixed u) (fixed (act u))) (h : Onward a (fixed s)) :
    Onward a (fixed (s.withEntry p t kind payload act)) := by
  unfold State.withEntry
  (repeat' split)
  · exact (onward_enterInput _ _ _ h).trans (hact _)
  · simp [h]
  · exact h.trans (hact s)

@[simp] theorem onward_captureNote {a : Fixed} (s : State) (p : Nat) (e : Entry) (h : Onward a (fixed s)) :
    Onward a (fixed (s.captureNote p e)) := by
  unfold State.captureNote; (repeat' split) <;> simp [h]

@[simp] theorem onward_noteEntry {a : Fixed} (s : State) (p t kind : Nat) (payload : List TWord)
    (h : Onward a (fixed s)) :
    Onward a (fixed (s.noteEntry p t kind payload)) := by
  unfold State.noteEntry; dsimp only; (repeat' split) <;> simp [h]

@[simp] theorem onward_captureLate {a : Fixed} (s : State) (p : Nat) (x0 : Nat) (h : Onward a (fixed s)) :
    Onward a (fixed (s.captureLate p x0)) := by
  induction x0 generalizing s with
  | zero => exact h
  | succ k ih =>
    unfold State.captureLate
    dsimp only
    (repeat' split)
    · exact h
    · exact ih _ (by simp [h])
    · exact h

@[simp] theorem onward_noteData {a : Fixed} (s : State) (p t : Nat) (words : List (Nat × TWord))
    (h : Onward a (fixed s)) :
    Onward a (fixed (s.noteData p t words)) := by
  unfold State.noteData; simp [h]

@[simp] theorem onward_noteDone {a : Fixed} (s : State) (p c : Nat) (h : Onward a (fixed s)) :
    Onward a (fixed (s.noteDone p c)) := by
  unfold State.noteDone; dsimp only; (repeat' split) <;> simp [h]

@[simp] theorem onward_dmaHalt {a : Fixed} (s : State) (p c cause which addr : Nat) (h : Onward a (fixed s)) :
    Onward a (fixed (s.dmaHalt p c cause which addr)) := by
  unfold State.dmaHalt; simp [h]

@[simp] theorem onward_answer {a : Fixed} (s : State) (ag : Agent) (addr : Nat) (err : Bool)
    (h : Onward a (fixed s)) :
    Onward a (fixed (s.answer ag addr err)) := by
  unfold State.answer; (repeat' split) <;> simp [h]

@[simp] theorem onward_answerDropped {a : Fixed} (s : State) (ag : Agent) (addr : Nat) (h : Onward a (fixed s))
    :
    Onward a (fixed (s.answerDropped ag addr)) := by
  unfold State.answerDropped; dsimp only; (repeat' split) <;> simp [h]

@[simp] theorem onward_respond {a : Fixed} (s : State) (ag : Agent) (addr : Nat) (err : Bool)
    (h : Onward a (fixed s)) :
    Onward a (fixed (s.respond ag addr err)) := by
  unfold State.respond; simp [h]

theorem onward_turnAway {a : Fixed} {s error : State} (h : Onward a (fixed s)) (he : Onward a (fixed error))
    (ag : Agent) (pk off : Nat) :
    Onward a (fixed (s.turnAway ag pk off error)) := by
  unfold State.turnAway
  split <;> simp [h, he]

@[simp] theorem onward_writeBy {a : Fixed} (s : State) (ag : Agent) (pk off : Nat) (act : State → State)
    (hact : ∀ u, Onward (fixed u) (fixed (act u))) (h : Onward a (fixed s)) :
    Onward a (fixed (s.writeBy ag pk off act)) := by
  unfold State.writeBy
  split
  · exact onward_respond _ _ _ _ (h.trans (hact s))
  · exact onward_respond _ _ _ _ h
  · exact onward_turnAway h (onward_respond _ _ _ _ h) _ _ _

@[simp] theorem onward_completeDma {a : Fixed} (s : State) (p c : Nat) (h : Onward a (fixed s)) :
    Onward a (fixed (s.completeDma p c)) := by
  unfold State.completeDma; simp [h]

@[simp] theorem onward_resumeDma {a : Fixed} (s : State) (p c : Nat) (h : Onward a (fixed s)) :
    Onward a (fixed (s.resumeDma p c)) := by
  unfold State.resumeDma; dsimp only; (repeat' split) <;> simp [h]

@[simp] theorem onward_wakePanel {a : Fixed} (s : State) (p : Nat) (h : Onward a (fixed s)) :
    Onward a (fixed (s.wakePanel p)) := by
  unfold State.wakePanel
  simp
  refine onward_foldl (fun u x => ?_) _ (by simp [h])
  split <;> simp

@[simp] theorem onward_wake {a : Fixed} (s : State) (sl mode : Nat) (h : Onward a (fixed s)) :
    Onward a (fixed (s.wake sl mode)) := by
  unfold State.wake; simp [h]

@[simp] theorem onward_abandonRest {a : Fixed} (s : State) (sl : Nat) (h : Onward a (fixed s)) :
    Onward a (fixed (s.abandonRest sl)) := by
  unfold State.abandonRest
  split
  · refine onward_foldl (fun u x => ?_) _ (by simp [h])
    split <;> simp
  · exact h

@[simp] theorem onward_protect {a : Fixed} (s : State) (sl cause : Nat) (h : Onward a (fixed s)) :
    Onward a (fixed (s.protect sl cause)) := by
  unfold State.protect
  dsimp only
  (repeat' split) <;> simp [h]

@[simp] theorem onward_setLatch {a : Fixed} (s : State) (sec p : Nat) (by_ : BitVec 76) (sub : Nat)
    (h : Onward a (fixed s)) :
    Onward a (fixed (s.setLatch sec p by_ sub)) := by
  unfold State.setLatch; dsimp only; (repeat' split) <;> simp [h]

@[simp] theorem onward_tripPair {a : Fixed} (s : State) (sec p sub : Nat) (h : Onward a (fixed s)) :
    Onward a (fixed (s.tripPair sec p sub)) := by
  unfold State.tripPair; dsimp only; (repeat' split) <;> simp [h]

@[simp] theorem onward_refresh {a : Fixed} (s : State) (sec sub quiet : Nat) (h : Onward a (fixed s)) :
    Onward a (fixed (s.refresh sec sub quiet)) := by
  unfold State.refresh; dsimp only; (repeat' split) <;> simp [h]

@[simp] theorem onward_spreadLines {a : Fixed} (sub quiet : Nat) (x0 : Nat) (x1 : State)
    (h : Onward a (fixed x1)) :
    Onward a (fixed (State.spreadLines sub quiet x0 x1)) := by
  induction x0 generalizing x1 with
  | zero => exact h
  | succ n ih =>
    have ht : Onward a (fixed (x1.slices.foldl (fun u sl => u.refresh sl sub quiet) x1)) :=
      onward_foldl (fun u sl => by simp) _ h
    unfold State.spreadLines
    dsimp only
    split
    · exact ht
    · exact ih _ ht

@[simp] theorem onward_settleTrips {a : Fixed} (s : State) (sec sub : Nat) (h : Onward a (fixed s)) :
    Onward a (fixed (s.settleTrips sec sub)) := by
  unfold State.settleTrips; dsimp only; (repeat' split) <;> simp [h]

@[simp] theorem onward_clearLatch {a : Fixed} (s : State) (sec p : Nat) (h : Onward a (fixed s)) :
    Onward a (fixed (s.clearLatch sec p)) := by
  unfold State.clearLatch; dsimp only; (repeat' split) <;> simp [h]

@[simp] theorem onward_requestClear {a : Fixed} (s : State) (sec p : Nat) (h : Onward a (fixed s)) :
    Onward a (fixed (s.requestClear sec p)) := by
  unfold State.requestClear; dsimp only; (repeat' split) <;> simp [h]

@[simp] theorem onward_evaluate {a : Fixed} (s : State) (sec c : Nat) (v : Int) (latch : Bool) (sub : Nat)
    (h : Onward a (fixed s)) :
    Onward a (fixed (s.evaluate sec c v latch sub)) := by
  unfold State.evaluate; dsimp only; (repeat' split) <;> simp [h]

@[simp] theorem onward_reevaluate {a : Fixed} (s : State) (sec c : Nat) (h : Onward a (fixed s)) :
    Onward a (fixed (s.reevaluate sec c)) := by
  unfold State.reevaluate; simp [h]

@[simp] theorem onward_requestCheck {a : Fixed} (s : State) (sec c : Nat) (h : Onward a (fixed s)) :
    Onward a (fixed (s.requestCheck sec c)) := by
  unfold State.requestCheck; split <;> simp [h]

@[simp] theorem onward_goSweep {a : Fixed} (s : State) (sec : Nat) (h : Onward a (fixed s)) :
    Onward a (fixed (s.goSweep sec)) := by
  unfold State.goSweep; dsimp only; (repeat' split) <;> simp [h]

@[simp] theorem onward_applyCode {a : Fixed} (s : State) (sec : Nat) (w : Sweep) (h : Onward a (fixed s)) :
    Onward a (fixed (s.applyCode sec w)) := by
  unfold State.applyCode; simp [h]

@[simp] theorem onward_clearBack {a : Fixed} (s : State) (sec : Nat) (h : Onward a (fixed s)) :
    Onward a (fixed (s.clearBack sec)) := by
  unfold State.clearBack; dsimp only; (repeat' split) <;> simp [h]

@[simp] theorem onward_endSweep {a : Fixed} (s : State) (sec : Nat) (result : Option (Nat × Bool))
    (h : Onward a (fixed s)) :
    Onward a (fixed (s.endSweep sec result)) := by
  unfold State.endSweep; split <;> simp [h]

@[simp] theorem onward_resetPanel {a : Fixed} (s : State) (p cause : Nat) (h : Onward a (fixed s)) :
    Onward a (fixed (s.resetPanel p cause)) := by
  unfold State.resetPanel; simp [h]

@[simp] theorem onward_failPanel {a : Fixed} (s : State) (p cause : Nat) (h : Onward a (fixed s)) :
    Onward a (fixed (s.failPanel p cause)) := by
  unfold State.failPanel; split <;> simp [h]

@[simp] theorem onward_tagFails {a : Fixed} (s : State) (p line port : Nat) (h : Onward a (fixed s)) :
    Onward a (fixed (s.tagFails p line port)) := by
  unfold State.tagFails; simp [h]

@[simp] theorem onward_tickTags {a : Fixed} (s : State) (h : Onward a (fixed s)) :
    Onward a (fixed (s.tickTags)) := by
  unfold State.tickTags
  refine onward_foldl (fun u p => ?_) _ h
  split <;> simp

@[simp] theorem onward_mismatch {a : Fixed} (s : State) (p core thread output : Nat) (h : Onward a (fixed s)) :
    Onward a (fixed (s.mismatch p core thread output)) := by
  unfold State.mismatch; simp [h]

@[simp] theorem onward_thirdFault {a : Fixed} (s : State) (p t : Nat) (h : Onward a (fixed s)) :
    Onward a (fixed (s.thirdFault p t)) := by
  unfold State.thirdFault; split <;> simp [h]

theorem lands_readCached (s : State) (p t a : Nat) : Lands id (fixed s) (s.readCached p t a) := by
  unfold State.readCached
  grind [fixed_countMiss, fixed_faultStop, fixed_fillL1, fixed_missL2, fixed_noteEcc, fixed_noteOutput, fixed_readL1, fixed_readL2, onward_tagFails, lands_ok, lands_error, Onward.refl, Onward.trans]

theorem lands_readFar (s : State) (p t q a : Nat) : Lands id (fixed s) (s.readFar p t q a) := by
  unfold State.readFar
  grind [fixed_correct, fixed_faultStop, fixed_noteCross, fixed_noteEcc, fixed_noteFar, fixed_noteOutput, fixed_parkThread, fixed_setThread, onward_tagFails, lands_ok, lands_error, Onward.refl, Onward.trans]

theorem lands_readMem (s : State) (p t q a : Nat) (x0 : Path) : Lands id (fixed s) (s.readMem p t q a x0) := by
  unfold State.readMem
  grind [fixed_correct, fixed_faultStop, fixed_noteEcc, fixed_noteOutput, lands_readCached, lands_readFar, lands_ok, lands_error, Onward.refl, Onward.trans]

theorem lands_readSpot (s : State) (p t : Nat) (sp : Spot) {dead : Except Stop (TWord × State)}
    (hdead : ∀ u, Lands Prod.snd (fixed u) dead) :
    Lands Prod.snd (fixed s) (s.readSpot p t sp dead) := by
  unfold State.readSpot
  grind [fixed_waitStop, lands_readMem, Lands.of_onward, lands_ok, lands_error, Onward.refl, Onward.trans]

theorem lands_readWord (s : State) (p t addr : Nat) : Lands Prod.snd (fixed s) (s.readWord p t addr) := by
  unfold State.readWord
  exact lands_readSpot s p t _ (fun u => by simp)

theorem lands_loseWrite (s : State) (p t winner a : Nat) : Lands id (fixed s) (s.loseWrite p t winner a) := by
  unfold State.loseWrite
  grind [fixed_noteCollision, fixed_setColl, fixed_stall, onward_enterInput, lands_ok, lands_error, Onward.refl, Onward.trans]

theorem lands_putWord (s : State) (p t addr q a : Nat) (path : Path) (w : TWord) :
    Lands id (fixed s) (s.putWord p t addr q a path w) := by
  unfold State.putWord
  grind [fixed_faultStop, fixed_holdWrite, fixed_noteBank, fixed_noteCross, fixed_noteFar, fixed_noteOutput, fixed_stall, fixed_throughL2, onward_setWord, onward_tagFails, lands_ok, lands_error, Onward.refl, Onward.trans]

theorem lands_writeWord (s : State) (p t addr : Nat) (rival : Option (Fin 7)) (w : TWord) :
    Lands id (fixed s) (s.writeWord p t addr rival w) := by
  unfold State.writeWord
  grind [fixed_busStop, fixed_waitStop, lands_loseWrite, lands_putWord, lands_ok, lands_error, Onward.refl, Onward.trans]

theorem lands_pushWord (s : State) (p t addr : Nat) (w : TWord) :
    Lands id (fixed s) (s.pushWord p t addr w) := by
  unfold State.pushWord
  grind [fixed_rivalAt, lands_writeWord, lands_ok, lands_error, Onward.refl, Onward.trans]

theorem lands_readParts (s : State) (p t : Nat) {dead : Except Stop (TWord × State)}
    (hdead : ∀ u, Lands Prod.snd (fixed u) dead) (l : List (Nat × Nat)) :
    Lands Prod.snd (fixed s) (s.readParts p t dead l) := by
  induction l generalizing s with
  | nil => exact Onward.refl _
  | cons x rest ih =>
    unfold State.readParts
    grind [lands_readSpot, Lands.of_onward, lands_ok, lands_error, Onward.refl, Onward.trans]

theorem lands_mergeRead (s : State) (p t base n : Nat) : Lands Prod.snd (fixed s) (s.mergeRead p t base n) := by
  unfold State.mergeRead
  grind [fixed_busStop, fixed_waitStop, fixed_faultStop, fixed_noteRemote, fixed_noteEcc, fixed_correct, fixed_noteOutput, lands_ok, lands_error, Onward.refl]

theorem lands_mergeReads (s : State) (p t : Nat) (l : List (Nat × Nat)) :
    Lands id (fixed s) (s.mergeReads p t l) := by
  induction l generalizing s with
  | nil => exact Onward.refl _
  | cons x rest ih =>
    unfold State.mergeReads
    grind [lands_mergeRead, Lands.of_onward, lands_ok, lands_error, Onward.refl, Onward.trans]

theorem lands_writeEach (s : State) (p t : Nat) (v : Nat) (x0 : List (Nat × Nat)) (x1 : List (Option (Fin 7))) :
    Lands id (fixed s) (s.writeEach p t v x0 x1) := by
  induction x0 generalizing s x1 v with
  | nil => exact Onward.refl _
  | cons x rest ih =>
    unfold State.writeEach
    grind [lands_writeWord, Lands.of_onward, lands_ok, lands_error, Onward.refl, Onward.trans, lands_mergeRead]

theorem lands_writeParts (s : State) (p t : Nat) (env : MemEnv) (v : Nat) (l : List (Nat × Nat)) :
    Lands id (fixed s) (s.writeParts p t env v l) := by
  unfold State.writeParts
  grind [lands_loseWrite, lands_writeEach, Lands.of_onward, lands_ok, lands_error, Onward.refl, Onward.trans, lands_mergeReads]

theorem lands_fillOne (s : State) (p t : Nat) : Lands id (fixed s) (s.fillOne p t) := by
  unfold State.fillOne
  grind [fixed_faultStop, fixed_setThread, lands_readWord, lands_ok, lands_error, Onward.refl, Onward.trans]

theorem lands_fillTo (s : State) (p t n : Nat) (x0 : Nat) : Lands id (fixed s) (s.fillTo p t n x0) := by
  induction x0 generalizing s with
  | zero => exact Onward.refl _
  | succ k ih =>
    unfold State.fillTo
    grind [lands_fillOne, Lands.of_onward, lands_ok, lands_error, Onward.refl, Onward.trans]

theorem lands_need (s : State) (p t n : Nat) : Lands id (fixed s) (s.need p t n) := by
  unfold State.need
  grind [fixed_faultStop, lands_fillTo, lands_ok, lands_error, Onward.refl, Onward.trans]

theorem lands_spillOne (s : State) (p t : Nat) : Lands id (fixed s) (s.spillOne p t) := by
  unfold State.spillOne
  grind [fixed_faultStop, fixed_pendingStop, fixed_setThread, lands_pushWord, lands_ok, lands_error, Onward.refl, Onward.trans]

theorem lands_spillTo (s : State) (p t n : Nat) (x0 : Nat) : Lands id (fixed s) (s.spillTo p t n x0) := by
  induction x0 generalizing s with
  | zero => exact Onward.refl _
  | succ k ih =>
    unfold State.spillTo
    grind [lands_spillOne, Lands.of_onward, lands_ok, lands_error, Onward.refl, Onward.trans]

theorem lands_setStack (s : State) (p t : Nat) (l : List Slot) : Lands id (fixed s) (s.setStack p t l) := by
  unfold State.setStack
  grind [fixed_setThread, lands_spillTo, lands_ok, lands_error, Onward.refl, Onward.trans]

theorem lands_peek (s : State) (p t n : Nat) : Lands Prod.snd (fixed s) (s.peek p t n) := by
  unfold State.peek
  grind [fixed_pendingStop, lands_need, lands_ok, lands_error, Onward.refl, Onward.trans]

theorem ranked_cases (s : State) (p t : Nat) (addrs : List Nat) (wrong : Bool) (e : Stop) :
    s.ranked p t addrs wrong e = e ∨ ∃ code, s.ranked p t addrs wrong e = faultStop p t code := by
  unfold State.ranked
  split
  · split
    · exact .inr ⟨TY, rfl⟩
    · split
      · exact .inr ⟨AC, rfl⟩
      · exact .inl rfl
  · exact .inl rfl

theorem onward_ranked (s : State) (p t : Nat) (addrs : List Nat) (wrong : Bool) {e : Stop}
    (he : ∀ u, Onward (fixed u) (fixed (e u))) (u : State) :
    Onward (fixed u) (fixed (s.ranked p t addrs wrong e u)) := by
  rcases ranked_cases s p t addrs wrong e with h | ⟨code, h⟩
  · rw [h]
    exact he u
  · simp [h]

theorem lands_peekAs (s : State) (p t n : Nat) (accepts : List TWord → Bool) :
    Lands Prod.snd (fixed s) (s.peekAs p t n accepts) := by
  unfold State.peekAs
  grind [lands_peek, Lands.of_onward, lands_ok, lands_error, Onward.refl, Onward.trans, onward_ranked]

theorem lands_replace (s : State) (p t n : Nat) (l : List TWord) : Lands id (fixed s) (s.replace p t n l) := by
  unfold State.replace
  grind [lands_setStack, lands_ok, lands_error, Onward.refl, Onward.trans]

theorem lands_pushControl (s : State) (p t : Nat) (w : TWord) : Lands id (fixed s) (s.pushControl p t w) := by
  unfold State.pushControl
  grind [fixed_faultStop, fixed_setThread, lands_pushWord, lands_ok, lands_error, Onward.refl, Onward.trans]

theorem lands_readEach (s : State) (p t : Nat) (x0 : List Nat) :
    Lands Prod.snd (fixed s) (s.readEach p t x0) := by
  induction x0 generalizing s with
  | nil => exact Onward.refl _
  | cons x rest ih =>
    unfold State.readEach
    grind [fixed_faultStop, lands_readWord, Lands.of_onward, lands_ok, lands_error, Onward.refl, Onward.trans]

theorem lands_popWords (s : State) (p t a : Nat) (tags : List Nat) :
    Lands Prod.snd (fixed s) (s.popWords p t a tags) := by
  unfold State.popWords
  have hr := lands_readEach s p t ((List.range tags.length).map (fun k => a + 8 * k))
  dsimp only
  split
  · next r hok => exact hr.of_ok hok
  · next e herr => exact onward_ranked s p t _ _ (hr.of_error herr)

@[simp] theorem onward_traceEntry {a : Fixed} (s : State) (p t kind pc : Nat) (h : Onward a (fixed s)) :
    Onward a (fixed (s.traceEntry p t kind pc)) := by
  unfold State.traceEntry; dsimp only; (repeat' split) <;> simp [h]

@[simp] theorem onward_traceRetire {a : Fixed} (s : State) (p t kind pc : Nat) (h : Onward a (fixed s)) :
    Onward a (fixed (s.traceRetire p t kind pc)) := by
  unfold State.traceRetire; dsimp only; (repeat' split) <;> simp [h]

@[simp] theorem onward_replayData {a : Fixed} (s : State) (p : Nat) (e : Entry) (h : Onward a (fixed s)) :
    Onward a (fixed (s.replayData p e)) := by
  unfold State.replayData
  split
  · exact h
  · refine onward_foldl (fun u x => ?_) _ h
    split <;> simp

@[simp] theorem onward_replayNotes {a : Fixed} (s : State) (p t : Nat) (x0 : Nat) (h : Onward a (fixed s)) :
    Onward a (fixed (s.replayNotes p t x0)) := by
  induction x0 generalizing s with
  | zero => exact h
  | succ k ih =>
    unfold State.replayNotes
    split
    · exact h
    · refine ih _ ?_
      (repeat' split) <;> simp [h]

theorem lands_fetchLine (s : State) (p t line : Nat) : Lands id (fixed s) (s.fetchLine p t line) := by
  unfold State.fetchLine
  grind [fixed_bufferLine, fixed_fillL1, fixed_missL2, fixed_noteOutput, fixed_readL1, fixed_readL2, onward_tagFails, lands_ok, lands_error, Onward.refl, Onward.trans]

theorem lands_fetchWord (s : State) (p t a : Nat) : Lands id (fixed s) (s.fetchWord p t a) := by
  unfold State.fetchWord
  grind [fixed_busStop, fixed_correct, fixed_faultStop, fixed_noteEcc, fixed_noteOutput, fixed_readAhead, fixed_waitStop, lands_fetchLine, lands_readFar, lands_ok, lands_error, Onward.refl, Onward.trans]

theorem lands_fetch (s : State) (p t len : Nat) : Lands id (fixed s) (s.fetch p t len) := by
  unfold State.fetch
  grind [lands_fetchWord, Lands.of_onward, lands_ok, lands_error, Onward.refl, Onward.trans]

theorem onward_compared {a : Fixed} (after before : State) (inject : Option (Nat × Bool)) (p t : Nat)
    (hb : Onward a (fixed before)) (h : Onward a (fixed after)) :
    Onward a (fixed (after.compared before inject p t)) := by
  unfold State.compared
  (repeat' split) <;> simp [h, hb]

@[simp] theorem onward_instr {a : Fixed} (s : State) (p t len : Nat) (act : State → Except Stop State)
    (hact : ∀ u, Lands id (fixed u) (act u)) (h : Onward a (fixed s)) :
    Onward a (fixed (s.instr p t len act)) := by
  unfold State.instr
  split
  · have hf := lands_fetch s p t len
    split
    · next e hr => exact onward_compared _ _ _ _ _ h (h.trans (hf.of_error hr s))
    · next s1 hr =>
      have h1 : Onward a (fixed s1) := h.trans (hf.of_ok hr)
      refine onward_compared _ _ _ _ _ h ?_
      split
      · next s2 hr2 => exact h1.trans ((hact s1).of_ok hr2)
      · next e hr2 => exact h1.trans ((hact s1).of_error hr2 s1)
  · exact h

@[simp] theorem onward_retire {a : Fixed} (s : State) (p t next kind : Nat) (h : Onward a (fixed s)) :
    Onward a (fixed (s.retire p t next kind)) := by
  unfold State.retire; simp [h]

@[simp] theorem onward_calc {a : Fixed} (s : State) (t : Tid) (len n : Nat)
    (f : Thread → List TWord → Except Nat (List TWord × Nat)) (h : Onward a (fixed s)) :
    Onward a (fixed (s.calc t len n f)) := by
  unfold State.calc
  refine onward_instr _ _ _ _ _ (fun u => ?_) (by simp [h])
  grind [fixed_faultStop, fixed_orFlags, lands_peekAs, lands_replace, onward_retire, Lands.of_onward, lands_ok, lands_error, Onward.refl, Onward.trans]

@[simp] theorem onward_rearrange {a : Fixed} (s : State) (t : Tid) (len n : Nat) (g : List Slot → List Slot)
    (h : Onward a (fixed s)) :
    Onward a (fixed (s.rearrange t len n g)) := by
  unfold State.rearrange
  refine onward_instr _ _ _ _ _ (fun u => ?_) (by simp [h])
  grind [lands_need, lands_setStack, onward_retire, Lands.of_onward, lands_ok, lands_error, Onward.refl, Onward.trans]

@[simp] theorem onward_undefinedOpcode {a : Fixed} (s : State) (t : Tid) (len : Nat) (h : Onward a (fixed s)) :
    Onward a (fixed (s.undefinedOpcode t len)) := by
  unfold State.undefinedOpcode; simp [h]

@[simp] theorem onward_leap {a : Fixed} (s : State) (p t len target kind : Nat) (h : Onward a (fixed s)) :
    Onward a (fixed (s.leap p t len target kind)) := by
  unfold State.leap; simp [h]

@[simp] theorem onward_branchIf {a : Fixed} (s : State) (t : Tid) (disp : Disp) (want : Bool)
    (h : Onward a (fixed s)) :
    Onward a (fixed (s.branchIf t disp want)) := by
  unfold State.branchIf
  refine onward_instr _ _ _ _ _ (fun u => ?_) h
  have hpeek := lands_peek u t.panel.val t.index.val 1
  split
  · next e hr => exact hpeek.of_error hr
  next ws s1 hr =>
  have h1 : Onward (fixed u) (fixed s1) := hpeek.of_ok hr
  have hrep := lands_replace s1 t.panel.val t.index.val 1 []
  split
  · split
    · split
      · next e hr2 => exact hrep.of_error hr2
      next s2 hr2 =>
      have h2 : Onward (fixed u) (fixed s2) := h1.trans (hrep.of_ok hr2)
      dsimp only
      (repeat' split) <;> simp [h2]
    · simp
  · simp

theorem lands_popCode (s : State) (p t : Nat) : Lands Prod.snd (fixed s) (s.popCode p t) := by
  unfold State.popCode
  grind [fixed_faultStop, lands_peek, lands_replace, lands_ok, lands_error, Onward.refl, Onward.trans]

theorem lands_pushRecord (s : State) (p t a r ret : Nat) : Lands id (fixed s) (s.pushRecord p t a r ret) := by
  unfold State.pushRecord
  grind [fixed_faultStop, lands_pushControl, Lands.of_onward, lands_ok, lands_error, Onward.refl, Onward.trans]

theorem lands_popFrame (s : State) (p t : Nat) : Lands Prod.snd (fixed s) (s.popFrame p t) := by
  unfold State.popFrame
  grind [fixed_faultStop, fixed_setThread, lands_popWords, lands_ok, lands_error, Onward.refl, Onward.trans]

theorem lands_loadMemory (s : State) (p t : Nat) (k : LoadKind) (bytes a : Nat) :
    Lands Prod.snd (fixed s) (s.loadMemory p t k bytes a) := by
  have hdead : ∀ u, Lands Prod.snd (fixed u) (.error (busStop p t a) : Except Stop (Nat × State)) := by simp
  have hdead' : ∀ u, Lands Prod.snd (fixed u) (.error (busStop p t a) : Except Stop (TWord × State)) := by simp
  have hparts := lands_readParts s p t hdead' (parts a bytes)
  unfold State.loadMemory
  grind [fixed_busStop, fixed_faultStop, lands_readWord, Lands.of_onward, lands_ok, lands_error, Onward.refl, Onward.trans]

theorem lands_issueLoad (s : State) (p t len a : Nat) : Lands id (fixed s) (s.issueLoad p t len a) := by
  unfold State.issueLoad
  grind [fixed_leavePort, fixed_parkThread, fixed_setThread, lands_setStack, onward_retire, lands_ok, lands_error, Onward.refl, Onward.trans]

theorem lands_loadDevice (s : State) (p t len a : Nat) : Lands id (fixed s) (s.loadDevice p t len a) := by
  unfold State.loadDevice
  grind [fixed_consume, lands_issueLoad, lands_replace, onward_retire, lands_ok, lands_error, Onward.refl, Onward.trans]

@[simp] theorem onward_load {a : Fixed} (s : State) (t : Tid) (disp : Disp) (env : MemEnv) (k : LoadKind)
    (bytes : Nat) (h : Onward a (fixed s)) :
    Onward a (fixed (s.load t disp env k bytes)) := by
  unfold State.load
  refine onward_instr _ _ _ _ _ (fun u => ?_) (by simp [h])
  have hpeek := lands_peek u t.panel.val t.index.val 1
  split
  · next e hr => exact hpeek.of_error hr
  next ws s1 hr =>
  have h1 : Onward (fixed u) (fixed s1) := hpeek.of_ok hr
  split
  · split
    · simp
    split
    · simp
    next b hc =>
    split
    · exact (lands_loadDevice s1 t.panel.val t.index.val (dispLength disp) b).of_onward h1
    have hload := lands_loadMemory s1 t.panel.val t.index.val k bytes b
    split
    · next e hr2 => exact hload.of_error hr2
    next w s2 hr2 =>
    have h2 : Onward (fixed u) (fixed s2) := h1.trans (hload.of_ok hr2)
    have hrep := lands_replace s2 t.panel.val t.index.val 1 [w]
    split
    · next e hr3 => exact hrep.of_error hr3
    next s3 hr3 =>
    exact onward_retire _ _ _ _ _ (h2.trans (hrep.of_ok hr3))
  · simp

@[simp] theorem onward_suppressStore {a : Fixed} (s : State) (p t len : Nat) (x : Entry)
    (h : Onward a (fixed s)) :
    Onward a (fixed (s.suppressStore p t len x)) := by
  unfold State.suppressStore; dsimp only; (repeat' split) <;> simp [h]

theorem lands_issueStore (s : State) (p t len a : Nat) (v : Word) (due : Option Nat) :
    Lands id (fixed s) (s.issueStore p t len a v due) := by
  unfold State.issueStore
  grind [fixed_issue, fixed_parkThread, fixed_setThread, fixed_stall, fixed_waitStop, onward_enterInput, onward_retire, lands_ok, lands_error, Onward.refl, Onward.trans]

theorem lands_storeDevice (s : State) (p t len a : Nat) (v : Word) (due : Option Nat) :
    Lands id (fixed s) (s.storeDevice p t len a v due) := by
  unfold State.storeDevice
  grind [fixed_holdDevice, lands_issueStore, onward_retire, onward_suppressStore, lands_ok, lands_error, Onward.refl, Onward.trans]

@[simp] theorem onward_store {a : Fixed} (s : State) (t : Tid) (disp : Disp) (env : MemEnv) (tagged : Bool)
    (bytes : Nat) (h : Onward a (fixed s)) :
    Onward a (fixed (s.store t disp env tagged bytes)) := by
  unfold State.store
  refine onward_instr _ _ _ _ _ (fun u => ?_) (by simp [h])
  dsimp only
  split
  · next e hr => exact (lands_peekAs u t.panel.val t.index.val 2 _).of_error hr
  next ws s1 hr =>
  have h1 : Onward (fixed u) (fixed s1) := (lands_peekAs u t.panel.val t.index.val 2 _).of_ok hr
  have hrep := lands_replace s1 t.panel.val t.index.val 2 []
  split
  · split
    · simp
    split
    · simp
    next b hc =>
    split
    · next e hr2 => exact hrep.of_error hr2
    next s2 hr2 =>
    have h2 : Onward (fixed u) (fixed s2) := h1.trans (hrep.of_ok hr2)
    split
    · exact (lands_storeDevice s2 t.panel.val t.index.val (dispLength disp) b _ none).of_onward h2
    next ptr v _ _ _ _ =>
    have hw : Lands id (fixed s2) (if tagged then s2.writeWord t.panel.val t.index.val b env.winner v
        else s2.writeParts t.panel.val t.index.val env (payload v).toNat (parts b bytes)) := by
      split
      · exact lands_writeWord ..
      · exact lands_writeParts ..
    split
    · next e hr3 => exact hw.of_error hr3
    next s3 hr3 => exact onward_retire _ _ _ _ _ (h2.trans (hw.of_ok hr3))
  · simp

@[simp] theorem onward_atomic {a : Fixed} (s : State) (t : Tid) (disp : Byte) (env : MemEnv)
    (f : Thread → TWord → TWord → Option TWord) (accepts : Thread → TWord → Bool) (h : Onward a (fixed s)) :
    Onward a (fixed (s.atomic t disp env f accepts)) := by
  unfold State.atomic
  refine onward_instr _ _ _ _ _ (fun u => ?_) (by simp [h])
  dsimp only
  split
  · next e hr => exact (lands_peekAs u t.panel.val t.index.val 2 _).of_error hr
  next ws s1 hr =>
  have h1 : Onward (fixed u) (fixed s1) := (lands_peekAs u t.panel.val t.index.val 2 _).of_ok hr
  split
  · split
    · simp
    split
    · simp
    next b hc =>
    split
    · simp
    have hread := lands_readWord s1 t.panel.val t.index.val b
    split
    · next e hr2 => exact hread.of_error hr2
    next old s2 hr2 =>
    have h2 : Onward (fixed u) (fixed s2) := h1.trans (hread.of_ok hr2)
    split
    · simp
    next w hf =>
    have hwrite := lands_writeWord s2 t.panel.val t.index.val b none w
    split
    · next e hr3 => exact hwrite.of_error hr3
    next s3 hr3 =>
    have h3 : Onward (fixed u) (fixed s3) := h2.trans (hwrite.of_ok hr3)
    have hrep := lands_replace s3 t.panel.val t.index.val 2 [old]
    split
    · next e hr4 => exact hrep.of_error hr4
    next s4 hr4 => exact onward_retire _ _ _ _ _ (h3.trans (hrep.of_ok hr4))
  · simp

theorem lands_elementDone (s : State) (p t n : Nat) (ops : List TWord) :
    Lands id (fixed s) (s.elementDone p t n ops) := by
  unfold State.elementDone
  grind [fixed_setThread, lands_replace, onward_replayNotes, onward_retire, lands_ok, lands_error, Onward.refl, Onward.trans]

@[simp] theorem onward_long {a : Fixed} (s : State) (t : Tid) (k : Nat) (typed : List TWord → Bool)
    (step : State → List TWord → Except Stop (State × List TWord))
    (hstep : ∀ u ws, Lands Prod.fst (fixed u) (step u ws)) (h : Onward a (fixed s)) :
    Onward a (fixed (s.long t k typed step)) := by
  unfold State.long
  refine onward_instr _ _ _ _ _ (fun u => ?_) (by simp [h])
  grind [fixed_faultStop, lands_elementDone, lands_peekAs, lands_replace, onward_retire, Lands.of_onward, lands_ok, lands_error, Onward.refl, Onward.trans]

@[simp] theorem onward_writeFrame {a : Fixed} (s : State) (p t base : Nat) (words : List TWord)
    (h : Onward a (fixed s)) :
    Onward a (fixed (s.writeFrame p t base words)) := by
  unfold State.writeFrame
  refine onward_foldl (fun u x => ?_) _ h
  grind [lands_pushWord, Lands.of_onward, lands_ok, lands_error, Onward.refl, Onward.trans]

@[simp] theorem onward_entryFetch {a : Fixed} (s : State) (p t : Nat) (h : Onward a (fixed s)) :
    Onward a (fixed (s.entryFetch p t)) := by
  unfold State.entryFetch
  grind [fixed_setThread, lands_fetchLine, Lands.of_onward, lands_ok, lands_error, Onward.refl, Onward.trans]

@[simp] theorem onward_beginHandler {a : Fixed} (s : State) (p t vector : Nat) (prio : Option Nat)
    (h : Onward a (fixed s)) :
    Onward a (fixed (s.beginHandler p t vector prio)) := by
  unfold State.beginHandler; simp [h]

@[simp] theorem onward_doubleFault {a : Fixed} (s : State) (p t kind code ret : Nat) (h : Onward a (fixed s)) :
    Onward a (fixed (s.doubleFault p t kind code ret)) := by
  unfold State.doubleFault; dsimp only; (repeat' split) <;> simp [h]

@[simp] theorem onward_enter {a : Fixed} (s : State) (p t kind code source ret vector : Nat) (prio : Option Nat)
    (h : Onward a (fixed s)) :
    Onward a (fixed (s.enter p t kind code source ret vector prio)) := by
  unfold State.enter; split <;> simp [h]

@[simp] theorem onward_interrupt {a : Fixed} (s : State) (p t prio source : Nat) (h : Onward a (fixed s)) :
    Onward a (fixed (s.interrupt p t prio source)) := by
  unfold State.interrupt; dsimp only; (repeat' split) <;> simp [h]

theorem lands_capture (s : State) (p t kind : Nat) (payload : List TWord) :
    Lands id (fixed s) (s.capture p t kind payload) := by
  unfold State.capture
  grind [fixed_stall, onward_enterInput, lands_ok, lands_error, Onward.refl, Onward.trans]

theorem lands_readClaim (s : State) (p t : Nat) : Lands Prod.snd (fixed s) (s.readClaim p t) := by
  unfold State.readClaim
  grind [fixed_consume, fixed_replayClaim, fixed_takeClaim, fixed_waitStop, lands_capture, lands_ok, lands_error, Onward.refl, Onward.trans]

theorem lands_writeOperand (s : State) (p t : Nat) (open_ : Bool) :
    Lands Prod.snd (fixed s) (s.writeOperand p t open_) := by
  unfold State.writeOperand
  grind [fixed_faultStop, lands_peek, lands_replace, lands_ok, lands_error, Onward.refl, Onward.trans]

@[simp] theorem onward_watcherWakes {a : Fixed} (s : State) (p : Nat) (h : Onward a (fixed s)) :
    Onward a (fixed (s.watcherWakes p)) := by
  unfold State.watcherWakes; split <;> simp [h]

@[simp] theorem onward_tickWatcher {a : Fixed} (s : State) (p : Nat) (h : Onward a (fixed s)) :
    Onward a (fixed (s.tickWatcher p)) := by
  unfold State.tickWatcher; dsimp only; (repeat' split) <;> simp [h]

@[simp] theorem onward_answered {a : Fixed} (s : State) (p t kind key : Nat) (w : TWord) (act : State → State)
    (hact : ∀ u, Onward (fixed u) (fixed (act u))) (h : Onward a (fixed s)) :
    Onward a (fixed (s.answered p t kind key w act)) := by
  unfold State.answered
  (repeat' split)
  · exact (onward_enterInput _ _ _ h).trans (hact _)
  · simp [h]
  · exact h.trans (hact s)

@[simp] theorem onward_answerStored {a : Fixed} (s : State) (p i : Nat) (x : StoreInFlight)
    (h : Onward a (fixed s)) :
    Onward a (fixed (s.answerStored p i x)) := by
  unfold State.answerStored; split <;> simp [h]

theorem lands_readSpecial (s : State) (p t num : Nat) : Lands Prod.snd (fixed s) (s.readSpecial p t num) := by
  unfold State.readSpecial
  split
  · exact lands_readClaim ..
  split
  · simp
  next w s1 hsp =>
  have h1 : fixed s1 = fixed s := fixed_of_special hsp
  split
  · simp [h1]
  split
  · split <;> simp
  have hcap := lands_capture s1 p t SPECIAL [raw w]
  split
  · next e hr => exact hcap.of_error hr
  · next s2 hr => exact h1 ▸ hcap.of_ok hr

theorem lands_writeOperandStack (s : State) (p t : Nat) (f : Thread → Thread) :
    Lands id (fixed s) (s.writeOperandStack p t f) := by
  unfold State.writeOperandStack
  grind [fixed_setThread, lands_spillTo, lands_ok, lands_error, Onward.refl, Onward.trans]

theorem lands_complete (s : State) (p t v : Nat) : Lands id (fixed s) (s.complete p t v) := by
  unfold State.complete
  grind [fixed_faultStop, fixed_wakeWaiter, fixed_leaveService, fixed_unfill, fixed_setCore, lands_ok, lands_error, Onward.refl]

theorem lands_writeSpecial (s : State) (p t num : Nat) (v : Word) :
    Lands id (fixed s) (s.writeSpecial p t num v) := by
  unfold State.writeSpecial
  dsimp only
  split <;> (repeat' split) <;> simp [lands_writeOperandStack, lands_complete]

@[simp] theorem onward_srw {a : Fixed} (s : State) (t : Tid) (num : Nat) (want : Word → Bool)
    (h : Onward a (fixed s)) :
    Onward a (fixed (s.srw t num want)) := by
  unfold State.srw
  refine onward_instr _ _ _ _ _ (fun u => ?_) (by simp [h])
  grind [fixed_faultStop, fixed_waitStop, lands_writeOperand, lands_writeSpecial, onward_retire, Lands.of_onward, lands_ok, lands_error, Onward.refl, Onward.trans]

@[simp] theorem onward_callSystem {a : Fixed} (s : State) (t : Tid) (kind n vector : Nat)
    (h : Onward a (fixed s)) :
    Onward a (fixed (s.callSystem t kind n vector)) := by
  unfold State.callSystem
  refine onward_instr _ _ _ _ _ (fun u => ?_) (by simp [h])
  grind [fixed_stallEntry, onward_enter, onward_retire, Lands.of_onward, lands_ok, lands_error, Onward.refl, Onward.trans]

@[simp] theorem onward_orderHalt {a : Fixed} (s : State) (p : Nat) (h : Onward a (fixed s)) :
    Onward a (fixed (s.orderHalt p)) := by
  unfold State.orderHalt; split <;> simp [h]

@[simp] theorem onward_clearBank {a : Fixed} (s : State) (p b : Nat) (h : Onward a (fixed s)) :
    Onward a (fixed (s.clearBank p b)) := by
  unfold State.clearBank; simp [h]

@[simp] theorem onward_wipeBank7 {a : Fixed} (s : State) (p : Nat) (h : Onward a (fixed s)) :
    Onward a (fixed (s.wipeBank7 p)) := by
  unfold State.wipeBank7; simp [h]

@[simp] theorem onward_commandBank {a : Fixed} (s : State) (p b v : Nat) (h : Onward a (fixed s)) :
    Onward a (fixed (s.commandBank p b v)) := by
  unfold State.commandBank; dsimp only; (repeat' split) <;> simp [h]

@[simp] theorem onward_writePower {a : Fixed} (s : State) (sec : Bool) (p : Nat) (data : Word)
    (h : Onward a (fixed s)) :
    Onward a (fixed (s.writePower sec p data)) := by
  unfold State.writePower
  dsimp only
  have h1 := onward_foldl (fun u b => onward_commandBank u p b (data.toNat / 4 ^ b % 4) (Onward.refl _)) (List.range 7) h
  split
  · exact onward_commandBank _ _ _ _ h1
  · exact h1

@[simp] theorem onward_startDma {a : Fixed} (s : State) (ag : Agent) (p c : Nat) (h : Onward a (fixed s)) :
    Onward a (fixed (s.startDma ag p c)) := by
  unfold State.startDma; dsimp only; (repeat' split) <;> simp [h]

@[simp] theorem onward_unpauseDma {a : Fixed} (s : State) (p c : Nat) (h : Onward a (fixed s)) :
    Onward a (fixed (s.unpauseDma p c)) := by
  unfold State.unpauseDma; split <;> simp [h]

@[simp] theorem onward_putRing {a : Fixed} (s : State) (p : Nat) (x0 : List (Nat × TWord))
    (x1 : List (Option (Fin 7))) (h : Onward a (fixed s)) :
    Onward a (fixed (s.putRing p x0 x1).1) := by
  fun_induction State.putRing s p x0 x1 <;> grind [fixed_noteCollision, onward_putMem]

@[simp] theorem onward_putRecord {a : Fixed} (s : State) (p n len : Nat) (places : List (Nat × TWord))
    (rivals : List (Option (Fin 7))) (head : Nat) (h : Onward a (fixed s)) :
    Onward a (fixed (s.putRecord p n len places rivals head)) := by
  have hr := onward_putRing s p places rivals h
  unfold State.putRecord
  refine onward_noteData _ _ _ _ (onward_noteEntry _ _ _ _ _ ?_)
  simp [hr]

@[simp] theorem onward_fileFrame {a : Fixed} (s : State) (p n : Nat) (f : RxFrame) (channel : Option Nat)
    (arrival : Nat) (h : Onward a (fixed s)) :
    Onward a (fixed (s.fileFrame p n f channel arrival)) := by
  unfold State.fileFrame; dsimp only; (repeat' split) <;> simp [h]

@[simp] theorem onward_deliverFrame {a : Fixed} (s : State) (p n : Nat) (f : RxFrame) (channel : Option Nat)
    (h : Onward a (fixed s)) :
    Onward a (fixed (s.deliverFrame p n f channel)) := by
  unfold State.deliverFrame; dsimp only; (repeat' split) <;> simp [h]

@[simp] theorem onward_tickHeld {a : Fixed} (s : State) (p n : Nat) (h : Onward a (fixed s)) :
    Onward a (fixed (s.tickHeld p n)) := by
  unfold State.tickHeld; dsimp only; (repeat' split) <;> simp [h]

@[simp] theorem onward_passFrame {a : Fixed} (s : State) (p n : Nat) (f : RxFrame) (channel : Option Nat)
    (h : Onward a (fixed s)) :
    Onward a (fixed (s.passFrame p n f channel)) := by
  unfold State.passFrame; split <;> simp [h]

/-- The state that the SecY leaves. -/
def secyLeft : Secy → State
  | .drops u => u
  | .passes _ u => u

theorem fixed_left_drops (u : State) : fixed (secyLeft (.drops u)) = fixed u := rfl

theorem fixed_left_passes (c : Option Nat) (u : State) : fixed (secyLeft (.passes c u)) = fixed u := rfl

theorem fixed_secyFails (strict : Bool) (s : State) : fixed (secyLeft (secyFails strict s)) = fixed s := by
  unfold secyFails
  split
  · exact fixed_left_drops s
  · exact fixed_left_passes none s

theorem fixed_verifyFrame (s : State) (p n j : Nat) (t : RxTag) (x : Association) (strict : Bool) :
    fixed (secyLeft (s.verifyFrame p n j t x strict)) = fixed s := by
  unfold State.verifyFrame
  dsimp only
  (repeat' split)
  · rw [fixed_left_drops, fixed_dropSecy]
  · rw [fixed_secyFails, fixed_dropSecy]
  · rw [fixed_left_passes, fixed_raiseIf, fixed_setPort]

theorem fixed_secy (s : State) (p n : Nat) (f : RxFrame) : fixed (secyLeft (s.secy p n f)) = fixed s := by
  unfold State.secy
  dsimp only
  split
  · exact fixed_left_passes none s
  split
  · rw [fixed_left_drops, fixed_dropSecy]
  split
  · split
    · rw [fixed_left_drops, fixed_dropSecy]
    · rw [fixed_left_passes]
  split
  · rw [fixed_secyFails, fixed_dropSecy]
  split
  · rw [fixed_secyFails, fixed_dropSecy]
  · exact fixed_verifyFrame ..

@[simp] theorem onward_receive {a : Fixed} (s : State) (p n : Nat) (f : RxFrame) (h : Onward a (fixed s)) :
    Onward a (fixed (s.receive p n f)) := by
  unfold State.receive
  have hs := fixed_secy s p n f
  dsimp only
  split
  · exact h
  split
  · simp [h]
  split
  · simp [h]
  split
  · simp [h]
  split
  · next u hr =>
    rw [hr] at hs
    exact hs ▸ h
  · next c u hr =>
    rw [hr] at hs
    exact onward_passFrame _ _ _ _ _ (hs ▸ h)

/-- Where an access by an agent that is no core is done or fails, its state goes onward. -/
def Got.goes (a : Fixed) (g : Got) : Prop :=
  (∀ c u, g = .fails c u → Onward a (fixed u)) ∧ ∀ w u, g = .word w u → Onward a (fixed u)

theorem goes_wordBy {a : Fixed} (s : State) (p port addr : Nat) (h : Onward a (fixed s)) :
    Got.goes a (s.wordBy p port addr) := by
  unfold Got.goes State.wordBy
  grind [onward_tagFails, fixed_noteRemote, fixed_noteLostWord, fixed_noteCross, fixed_readThrough]

@[simp] theorem onward_txWords {a : Fixed} (s : State) (p n : Nat) (x0 : List Nat) (h : Onward a (fixed s)) :
    Onward a (fixed (s.txWords p n x0).2) := by
  induction x0 generalizing s with
  | nil => exact h
  | cons off rest ih =>
    have hg : Got.goes a (if 0x1C0000 ≤ s.txAddr p n off ∧ s.txAddr p n off < 0x200000 then .fails 1 s
        else s.wordBy p fabricPort (s.txAddr p n off)) := by
      split
      · exact ⟨by rintro _ _ ⟨⟩; exact h, by rintro _ _ ⟨⟩⟩
      · exact goes_wordBy s p fabricPort _ h
    unfold State.txWords
    split
    · next w u hr => exact ih u (hg.2 w u hr)
    · next c u hr => exact ih u (hg.1 c u hr)
    · exact ih s h

@[simp] theorem onward_readRecord {a : Fixed} (s : State) (p n : Nat) (head : Option Word)
    (h : Onward a (fixed s)) :
    Onward a (fixed (s.readRecord p n head)) := by
  unfold State.readRecord
  cases head <;> dsimp only <;> (repeat' split) <;> simp [h]

@[simp] theorem onward_putCheckpoint {a : Fixed} (s : State) (p : Nat) (c : Checkpoint) (h : Onward a (fixed s))
    :
    Onward a (fixed (s.putCheckpoint p c)) := by
  unfold State.putCheckpoint; simp [h]

@[simp] theorem onward_takeBoundary {a : Fixed} (s : State) (p : Nat) (h : Onward a (fixed s)) :
    Onward a (fixed (s.takeBoundary p)) := by
  unfold State.takeBoundary; dsimp only; (repeat' split) <;> simp [h]

@[simp] theorem onward_boundary {a : Fixed} (s : State) (p : Nat) (h : Onward a (fixed s)) :
    Onward a (fixed (s.boundary p)) := by
  unfold State.boundary; split <;> simp [h]

@[simp] theorem onward_applyHeld {a : Fixed} (s : State) (p : Nat) (l : List HeldWrite) (h : Onward a (fixed s))
    :
    Onward a (fixed (s.applyHeld p l)) := by
  unfold State.applyHeld
  refine onward_foldl (fun u x => ?_) _ h
  split <;> simp

@[simp] theorem onward_planClosed {a : Fixed} (s : State) (p : Nat) (h : Onward a (fixed s)) :
    Onward a (fixed (s.planClosed p)) := by
  unfold State.planClosed; split <;> simp [h]

@[simp] theorem onward_restoreThread {a : Fixed} (s : State) (sl : Nat) (c : Checkpoint)
    (h : Onward a (fixed s)) :
    Onward a (fixed (s.restoreThread sl c)) := by
  unfold State.restoreThread; simp [h]

@[simp] theorem onward_copyMemory {a : Fixed} (s : State) (q src p dst size : Nat) (h : Onward a (fixed s)) :
    Onward a (fixed (s.copyMemory q src p dst size)) := by
  unfold State.copyMemory; simp [h]

@[simp] theorem onward_enterRest {a : Fixed} (s : State) (sl : Nat) (h : Onward a (fixed s)) :
    Onward a (fixed (s.enterRest sl)) := by
  unfold State.enterRest; split <;> simp [h]

@[simp] theorem onward_obey {a : Fixed} (s : State) (sl target : Nat) (h : Onward a (fixed s)) :
    Onward a (fixed (s.obey sl target)) := by
  unfold State.obey; dsimp only; (repeat' split) <;> simp [h]

@[simp] theorem onward_commandNow {a : Fixed} (s : State) (sl target : Nat) (h : Onward a (fixed s)) :
    Onward a (fixed (s.commandNow sl target)) := by
  unfold State.commandNow; split <;> simp [h]

@[simp] theorem onward_obeyAll {a : Fixed} (s : State) (sl : Nat) (orders : List Nat) (h : Onward a (fixed s)) :
    Onward a (fixed (s.obeyAll sl orders)) := by
  unfold State.obeyAll; simp [h]

@[simp] theorem onward_command {a : Fixed} (s : State) (sl target : Nat) (wide : Bool) (h : Onward a (fixed s))
    :
    Onward a (fixed (s.command sl target wide)) := by
  unfold State.command; (repeat' split) <;> simp [h]

@[simp] theorem onward_tickOrders {a : Fixed} (s : State) (sl : Nat) (h : Onward a (fixed s)) :
    Onward a (fixed (s.tickOrders sl)) := by
  unfold State.tickOrders; simp [h]

@[simp] theorem onward_commandAll {a : Fixed} (s : State) (tgt : ModeCmd) (target : Nat)
    (h : Onward a (fixed s)) :
    Onward a (fixed (s.commandAll tgt target)) := by
  unfold State.commandAll
  split
  · simp [h]
  · refine onward_foldl (fun u x => ?_) _ h
    split <;> simp

@[simp] theorem onward_warmReset {a : Fixed} (s : State) (sl : Nat) (h : Onward a (fixed s)) :
    Onward a (fixed (s.warmReset sl)) := by
  unfold State.warmReset; dsimp only; (repeat' split) <;> simp [h]

@[simp] theorem onward_resetPackage {a : Fixed} (s : State) (boot : Boot) (cause rail : Nat)
    (h : Onward a (fixed s)) :
    Onward a (fixed (s.resetPackage boot cause rail)) := by
  have hmem : (fixed (s.resetPackage boot cause rail)) = ⟨s.variant, none, [], s.fuses, s.pending, 0, 0, none⟩ := by
    unfold State.resetPackage
    simp only [fixed_showNow, fixed_showFuses, fixed_showSlots, fixed_setFld, fixed_mk]
    rfl
  obtain ⟨hv, hp, hl, _⟩ := h
  rw [hmem]
  refine ⟨hv, hp, fun ha => ?_, fun _ => Laws.wf_nil _⟩
  obtain ⟨⟨hstate, hfloor, _⟩, hreach⟩ := hl ha
  exact ⟨⟨hstate, hfloor, by rintro g ⟨⟩⟩, hreach⟩

@[simp] theorem onward_packageReset {a : Fixed} (s : State) (cause : Nat) (h : Onward a (fixed s)) :
    Onward a (fixed (s.packageReset cause)) := by
  unfold State.packageReset; simp [h]

@[simp] theorem onward_coldReset {a : Fixed} (s : State) (rail : Nat) (h : Onward a (fixed s)) :
    Onward a (fixed (s.coldReset rail)) := by
  unfold State.coldReset; simp [h]

@[simp] theorem onward_commandReset {a : Fixed} (s : State) (code : Nat) (h : Onward a (fixed s)) :
    Onward a (fixed (s.commandReset code)) := by
  unfold State.commandReset; split <;> simp [h]

@[simp] theorem onward_wipeKeys {a : Fixed} (s : State) (h : Onward a (fixed s)) :
    Onward a (fixed (s.wipeKeys)) := by
  unfold State.wipeKeys; simp [h]

theorem fuses_of_fixed {s u : State} (h : fixed u = fixed s) : u.fuses = s.fuses := congrArg Fixed.fuses h

@[simp] theorem fuses_wipe (s : State) (p first size : Nat) : (s.wipe p first size).fuses = s.fuses := rfl

theorem fuses_wipeBank7 (s : State) (p : Nat) : (s.wipeBank7 p).fuses = s.fuses := by
  have h : fixed (s.wipeBank7 p) = fixed (s.clearBank p 7) := by
    unfold State.wipeBank7
    simp
  exact (fuses_of_fixed h).trans rfl

theorem fuses_wipeKeys (s : State) : s.wipeKeys.fuses = s.fuses := by
  have hfold (l : List Nat) (v : State) : (l.foldl (fun u p => u.wipeBank7 p) v).fuses = v.fuses := by
    induction l generalizing v with
    | nil => rfl
    | cons p l ih => rw [List.foldl_cons, ih, fuses_wipeBank7]
  have hkept : fixed (if s.commit.isSome then
      ((s.loseCommit.setFld upntPage UPNT_STATUS.BUSY 0).setFld upntPage UPNT_STATUS.FAILED 1).raise upntPage 1 else s)
      = fixed s := by
    split <;> simp
  have hwiped : fixed s.wipeKeys = fixed (s.slices.foldl (fun u p => u.wipeBank7 p) (if s.commit.isSome then
      ((s.loseCommit.setFld upntPage UPNT_STATUS.BUSY 0).setFld upntPage UPNT_STATUS.FAILED 1).raise upntPage 1 else s))
      := by
    unfold State.wipeKeys
    simp only [fixed_showSlots, fixed_mk, fixed_eta]
  exact (fuses_of_fixed hwiped).trans ((hfold _ _).trans (fuses_of_fixed hkept))

theorem transition_forward {s : State} {target : Nat} {f : Fuses} (hs : s.fuses.state ≤ 4)
    (h : s.transition target = some f) :
    s.fuses.state ≤ f.state ∧ f.state ≤ 4 ∧ f.floor = s.fuses.floor := by
  unfold State.transition at h
  dsimp only at h
  split at h
  · next hst =>
    obtain ⟨x, _, rfl⟩ := Option.map_eq_some_iff.mp h
    simp [hst]
  · next hst => cases h; simp [hst]
  · next hst => cases h; simp [hst]
  · next hst =>
    split at h <;> cases h
    simp [hst]
  · split at h <;> cases h
    simp [hs]
  · cases h

@[simp] theorem onward_requestTransition {a : Fixed} (s : State) (confirm target : Nat) (h : Onward a (fixed s))
    :
    Onward a (fixed (s.requestTransition confirm target)) := by
  unfold State.requestTransition
  split
  · exact h
  split
  · simp [h]
  next f hf =>
  obtain ⟨hv, hp, hl, hc⟩ := h
  obtain ⟨hv', hp', hl', hc'⟩ := onward_wipeKeys s (Onward.refl (fixed s))
  have hfuses : (fixed s.wipeKeys).fuses = s.fuses := fuses_wipeKeys s
  refine ⟨hv'.trans hv, hp'.trans hp, fun ha => ?_, fun ha => hc' (hc ha)⟩
  obtain ⟨⟨hstate, hfloor, _⟩, hreach⟩ := hl ha
  obtain ⟨hup, htop, hsame⟩ := transition_forward hstate hf
  refine ⟨⟨?_, ?_, ?_⟩, ?_⟩
  · exact hfuses ▸ hstate
  · exact hfuses ▸ hfloor
  · rintro g ⟨⟩
    exact ⟨hfuses ▸ hup, htop, hsame ▸ hfloor⟩
  · exact hfuses ▸ hreach

@[simp] theorem onward_endTransition {a : Fixed} (s : State) (h : Onward a (fixed s)) :
    Onward a (fixed (s.endTransition)) := by
  unfold State.endTransition
  split
  · exact h
  next f hf =>
  refine onward_packageReset _ _ ?_
  obtain ⟨hv, hp, hl, hc⟩ := h
  refine ⟨hv, hp, fun ha => ?_, hc⟩
  obtain ⟨⟨hstate, hfloor, hburn⟩, hreach⟩ := hl ha
  obtain ⟨hup, htop, hfl⟩ := hburn f hf
  refine ⟨⟨htop, max_le hfloor hfl, fun g hg => ?_⟩, hreach.1.trans hup, hreach.2.trans (le_max_left _ _)⟩
  obtain rfl : f = g := Option.some.inj (hf.symm.trans hg)
  exact ⟨le_refl _, htop, hfl⟩

@[simp] theorem onward_advanceFloor {a : Fixed} (s : State) (h : Onward a (fixed s)) :
    Onward a (fixed (s.advanceFloor)) := by
  unfold State.advanceFloor
  split
  · split
    · rw [fixed_setFld]
      obtain ⟨hv, hp, hl, hc⟩ := h
      refine ⟨hv, hp, fun ha => ?_, hc⟩
      obtain ⟨⟨hstate, hfloor, hburn⟩, hreach⟩ := hl ha
      exact ⟨⟨hstate, max_le hfloor (min_le_right _ _), hburn⟩, hreach.1, hreach.2.trans (le_max_left _ _)⟩
    · exact h
  · exact h

@[simp] theorem onward_sense {a : Fixed} (s : State) (i : Nat) (h : Onward a (fixed s)) :
    Onward a (fixed (s.sense i)) := by
  unfold State.sense; dsimp only; (repeat' split) <;> simp [h]

@[simp] theorem onward_endWipes {a : Fixed} (s : State) (h : Onward a (fixed s)) :
    Onward a (fixed (s.endWipes)) := by
  unfold State.endWipes; split <;> simp [h]

@[simp] theorem onward_powerBanks {a : Fixed} (s : State) (p : Nat) (h : Onward a (fixed s)) :
    Onward a (fixed (s.powerBanks p)) := by
  unfold State.powerBanks; dsimp only; (repeat' split) <;> simp [h]

@[simp] theorem onward_endRestore {a : Fixed} (s : State) (h : Onward a (fixed s)) :
    Onward a (fixed (s.endRestore)) := by
  unfold State.endRestore; simp [h]

@[simp] theorem onward_tickPrime {a : Fixed} (s : State) (h : Onward a (fixed s)) :
    Onward a (fixed (s.tickPrime)) := by
  unfold State.tickPrime; split <;> simp [h]

@[simp] theorem onward_loadPayload {a : Fixed} (s : State) (p : Nat) (x : Image) (h : Onward a (fixed s)) :
    Onward a (fixed (s.loadPayload p x)) := by
  unfold State.loadPayload
  refine onward_foldl (fun u e => ?_) _ h
  split <;> simp

@[simp] theorem onward_bootImage {a : Fixed} (s : State) (x : Image) (slotB : Bool) (h : Onward a (fixed s)) :
    Onward a (fixed (s.bootImage x slotB)) := by
  unfold State.bootImage; simp [h]

@[simp] theorem onward_boots {a : Fixed} (s : State) (addr b : Image) (h : Onward a (fixed s)) :
    Onward a (fixed (s.boots addr b)) := by
  unfold State.boots; dsimp only; (repeat' split) <;> simp [h]

@[simp] theorem onward_startSector {a : Fixed} (s : State) (sl : Nat) (h : Onward a (fixed s)) :
    Onward a (fixed (s.startSector sl)) := by
  unfold State.startSector
  dsimp only
  refine onward_settleTrips _ _ _ ?_
  rw [fixed_startMonitor]
  refine onward_foldl (fun u c => by simp) _ ?_
  simp only [fixed_foldl, fixed_askStart, fixed_setFld, fixed_setSlot, fixed_startLeader, fixed_pairConfigured, fixed_ite, ite_self, implies_true]
  exact h

@[simp] theorem onward_leavePrime {a : Fixed} (s : State) (sl : Nat) (h : Onward a (fixed s)) :
    Onward a (fixed (s.leavePrime sl)) := by
  unfold State.leavePrime; simp [h]

@[simp] theorem onward_endPrime {a : Fixed} (s : State) (gesso : List GessoSlice) (addr b : Image)
    (h : Onward a (fixed s)) :
    Onward a (fixed (s.endPrime gesso addr b)) := by
  unfold State.endPrime
  dsimp only
  refine onward_foldl (fun u sl => by simp) _ ?_
  simp only [fixed_mk, fixed_eta]
  refine onward_boots _ _ _ ?_
  simp only [fixed_foldl, fixed_ite, fixed_holdFailed, fixed_primeSlice, ite_self, implies_true]
  split
  · exact h
  · exact onward_endRestore _ h

@[simp] theorem onward_haltPanel {a : Fixed} (s : State) (p : Nat) (h : Onward a (fixed s)) :
    Onward a (fixed (s.haltPanel p)) := by
  unfold State.haltPanel; split <;> simp [h]

@[simp] theorem onward_debugReset {a : Fixed} (s : State) (p : Nat) (h : Onward a (fixed s)) :
    Onward a (fixed (s.debugReset p)) := by
  unfold State.debugReset; split <;> simp [h]

theorem lands_unrecorded (s : State) (p : Nat) (act : State → Except Stop State)
    (hact : ∀ u, Lands id (fixed u) (act u)) :
    Lands id (fixed s) (s.unrecorded p act) := by
  unfold State.unrecorded
  have h1 := hact (s.setJournal p { s.journal p with threads := 0 })
  rw [fixed_setJournal] at h1
  dsimp only
  split
  · next u hr => simpa using h1.of_ok hr
  · next e hr => exact h1.of_error hr

theorem onward_putTreg {a : Fixed} {s u : State} {p t sel tag : Nat} {data : Word} (h : Onward a (fixed s))
    (hu : s.putTreg p t sel tag data = some u) :
    Onward a (fixed u) := by
  unfold State.putTreg at hu
  have h1 := lands_unrecorded s p _ (fun v => lands_writeSpecial v p t sel data)
  dsimp only at hu
  split at hu
  · cases hu
  split at hu
  · split at hu
    · next v hr =>
      cases hu
      exact h.trans (h1.of_ok hr)
    · cases hu
  split at hu <;> cases hu <;> simpa using h

@[simp] theorem onward_writeTreg {a : Fixed} (s : State) (data : Word) (h : Onward a (fixed s)) :
    Onward a (fixed (s.writeTreg data)) := by
  unfold State.writeTreg
  split
  · simp [h]
  · rcases hr : s.putTreg _ _ _ _ data with _ | u
    · simp [h]
    · exact onward_putTreg h hr

@[simp] theorem onward_sectorArrival {a : Fixed} (s before : State) (b : Block) (w i pk off : Nat) (data : Word)
    (h : Onward a (fixed s)) :
    Onward a (fixed (s.sectorArrival before b w i pk off data)) := by
  unfold State.sectorArrival; dsimp only; (repeat' split) <;> simp [h]

@[simp] theorem onward_writeDmaCmd {a : Fixed} (s : State) (ag : Agent) (p c : Nat) (data : Word)
    (h : Onward a (fixed s)) :
    Onward a (fixed (s.writeDmaCmd ag p c data)) := by
  unfold State.writeDmaCmd; dsimp only; (repeat' split) <;> simp [h]

@[simp] theorem onward_writePartner {a : Fixed} {s before : State} (p i off : Nat) (valid : Bool)
    (hb : Onward a (fixed before)) (h : Onward a (fixed s)) :
    Onward a (fixed (s.writePartner before p i off valid)) := by
  unfold State.writePartner
  split <;> simp [h, hb]

@[simp] theorem onward_panelArrival {a : Fixed} (s before : State) (ag : Agent) (sec : Bool) (b : Block)
    (p i pk off : Nat) (data : Word) (hb : Onward a (fixed before)) (h : Onward a (fixed s)) :
    Onward a (fixed (s.panelArrival before ag sec b p i pk off data)) := by
  unfold State.panelArrival
  dsimp only
  split <;> (repeat' split) <;> simp [h, hb]

@[simp] theorem onward_lifeArrival {a : Fixed} (s : State) (sec : Bool) (off : Nat) (data : Word)
    (h : Onward a (fixed s)) :
    Onward a (fixed (s.lifeArrival sec off data)) := by
  unfold State.lifeArrival; dsimp only; (repeat' split) <;> simp [h]

@[simp] theorem onward_easlArrival {a : Fixed} (s before : State) (off : Nat) (data : Word)
    (h : Onward a (fixed s)) :
    Onward a (fixed (s.easlArrival before off data)) := by
  unfold State.easlArrival; dsimp only; (repeat' split) <;> simp [h]

@[simp] theorem onward_packageArrival {a : Fixed} (s before : State) (sec : Bool) (b : Block) (i pk off : Nat)
    (data : Word) (h : Onward a (fixed s)) :
    Onward a (fixed (s.packageArrival before sec b i pk off data)) := by
  unfold State.packageArrival; dsimp only; (repeat' split) <;> simp [h]

@[simp] theorem onward_arrivalEffect {a : Fixed} (s before : State) (ag : Agent) (sec : Bool) (pk off : Nat)
    (data : Word) (hb : Onward a (fixed before)) (h : Onward a (fixed s)) :
    Onward a (fixed (s.arrivalEffect before ag sec pk off data)) := by
  unfold State.arrivalEffect
  dsimp only
  (repeat' split) <;> simp [h, hb]

@[simp] theorem onward_undoRwc {a : Fixed} (s : State) (x : RwcWrite) (h : Onward a (fixed s)) :
    Onward a (fixed (s.undoRwc x)) := by
  unfold State.undoRwc; simp [h]

@[simp] theorem onward_lockFirst {a : Fixed} (s : State) (pk : Nat) (h : Onward a (fixed s)) :
    Onward a (fixed (s.lockFirst pk)) := by
  unfold State.lockFirst; simp [h]

@[simp] theorem onward_arriveWrite {a : Fixed} (s : State) (ag : Agent) (sec : Bool) (pk off : Nat)
    (data : Word) (h : Onward a (fixed s)) :
    Onward a (fixed (s.arriveWrite ag sec pk off data)) := by
  unfold State.arriveWrite; dsimp only; (repeat' split) <;> simp [h]

@[simp] theorem onward_sectorTimed {a : Fixed} (s : State) (b : Block) (w i pk off : Nat) (data : Word)
    (h : Onward a (fixed s)) :
    Onward a (fixed (s.sectorTimed b w i pk off data)) := by
  unfold State.sectorTimed; dsimp only; (repeat' split) <;> simp [h]

@[simp] theorem onward_timedMode {a : Fixed} (s : State) (tgt : ModeCmd) (target : Nat) (h : Onward a (fixed s))
    :
    Onward a (fixed (s.timedMode tgt target)) := by
  unfold State.timedMode; dsimp only; (repeat' split) <;> simp [h]

theorem onward_clock {a b : Fixed} (h : Onward a b) (t c : Nat) (n : Option Nat) :
    Onward a { b with ticks := t, canvas := c, canvasNext := n } := h

@[simp] theorem onward_stepCanvas {a : Fixed} (s : State) (delta : Word) (h : Onward a (fixed s)) :
    Onward a (fixed (s.stepCanvas delta)) := by
  by_cases hr : 0 ≤ (s.canvas : Int) + 1 + delta.toInt ∧ (s.canvas : Int) + 1 + delta.toInt ≤ 2 ^ 62 - 1
  · rw [fixed_stepCanvas hr]
    exact onward_clock h _ _ _
  · rwa [fixed_stepCanvas_refused hr]

@[simp] theorem onward_packageTimed {a : Fixed} (s : State) (b : Block) (i pk off : Nat) (data : Word)
    (h : Onward a (fixed s)) :
    Onward a (fixed (s.packageTimed b i pk off data)) := by
  unfold State.packageTimed; split <;> simp [h]

@[simp] theorem onward_timedEffect {a : Fixed} (s : State) (pk off : Nat) (data : Word) (h : Onward a (fixed s))
    :
    Onward a (fixed (s.timedEffect pk off data)) := by
  unfold State.timedEffect; dsimp only; (repeat' split) <;> simp [h]

@[simp] theorem onward_applyTimed {a : Fixed} (s : State) (e : Queued) (h : Onward a (fixed s)) :
    Onward a (fixed (s.applyTimed e)) := by
  unfold State.applyTimed; split <;> simp [h]

@[simp] theorem onward_applyDue {a : Fixed} (s : State) (q : Nat) (h : Onward a (fixed s)) :
    Onward a (fixed (s.applyDue q)) := by
  unfold State.applyDue; simp [h]

@[simp] theorem onward_tickDue {a : Fixed} (s : State) (h : Onward a (fixed s)) :
    Onward a (fixed (s.tickDue)) := by
  unfold State.tickDue
  refine onward_foldl (fun u q => ?_) _ h
  split <;> simp

@[simp] theorem onward_applyWaiting {a : Fixed} (s : State) (pk : Nat) (h : Onward a (fixed s)) :
    Onward a (fixed (s.applyWaiting pk)) := by
  unfold State.applyWaiting; simp [h]

@[simp] theorem onward_reply {a : Fixed} (s : State) (t : Transfer) (err : Bool) (h : Onward a (fixed s)) :
    Onward a (fixed (s.reply t err)) := by
  unfold State.reply; (repeat' split) <;> simp [h]

@[simp] theorem onward_deliver {a : Fixed} (s : State) (t : Transfer) (h : Onward a (fixed s)) :
    Onward a (fixed (s.deliver t)) := by
  unfold State.deliver
  have hw := onward_arriveWrite s t.agent t.secure t.page t.off t.data h
  split
  · exact onward_turnAway h (onward_reply _ _ _ h) _ _ _
  · exact onward_reply _ _ _ h
  · dsimp only
    (repeat' split)
    · simp [h]
    · simp [h]
    · exact hw
    · exact onward_reply _ _ _ (by simp [hw])
    · exact onward_reply _ _ _ (by simp [hw])

@[simp] theorem onward_tickFlight {a : Fixed} (s : State) (h : Onward a (fixed s)) :
    Onward a (fixed (s.tickFlight)) := by
  unfold State.tickFlight; simp [h]

@[simp] theorem onward_writeNow {a : Fixed} (s : State) (ag : Agent) (pk off : Nat) (data : Word)
    (h : Onward a (fixed s)) :
    Onward a (fixed (s.writeNow ag pk off data)) := by
  unfold State.writeNow; simp [h]

@[simp] theorem onward_dmaPut {a : Fixed} (s : State) (p c : Nat) (tagged : Bool) (w : TWord)
    (x0 : List (Nat × Nat)) (x1 : List (Option (Fin 7))) (x2 : Nat) (h : Onward a (fixed s)) :
    Onward a (fixed (s.dmaPut p c tagged w x0 x1 x2)) := by
  induction x0 generalizing s x1 x2 with
  | nil => exact h
  | cons x rest ih =>
    unfold State.dmaPut
    refine ih _ _ _ ?_
    (repeat' split) <;> simp [h]

theorem Got.goes_fails {a : Fixed} {c : Nat} {u : State} (h : Onward a (fixed u)) :
    Got.goes a (.fails c u) := ⟨by rintro _ _ ⟨⟩; exact h, by rintro _ _ ⟨⟩⟩

theorem Got.goes_word {a : Fixed} {w : TWord} {u : State} (h : Onward a (fixed u)) :
    Got.goes a (.word w u) := ⟨by rintro _ _ ⟨⟩, by rintro _ _ ⟨⟩; exact h⟩

theorem Got.goes_waits {a : Fixed} : Got.goes a .waits := ⟨by rintro _ _ ⟨⟩, by rintro _ _ ⟨⟩⟩

theorem goes_dmaBytesAt {a : Fixed} (s : State) (p : Nat) (l : List (Nat × Nat)) (h : Onward a (fixed s)) :
    Got.goes a (s.dmaBytesAt p l) := by
  induction l generalizing s with
  | nil => exact Got.goes_word h
  | cons x rest ih =>
    have hw : Got.goes a (s.dmaWord p (x.1 / 8 * 8)) := goes_wordBy s p dmaPort _ h
    unfold State.dmaBytesAt
    split
    · exact Got.goes_waits
    · next k u hr => exact Got.goes_fails (hw.1 _ _ hr)
    next w s1 hr =>
    have hrest := ih s1 (hw.2 _ _ hr)
    split
    · exact Got.goes_waits
    · next k u hr2 => exact Got.goes_fails (hrest.1 _ _ hr2)
    · next v s2 hr2 => exact Got.goes_word (hrest.2 _ _ hr2)

theorem goes_dmaRead {a : Fixed} (s : State) (p c bytes : Nat) (tagged element : Bool) (addr : Int)
    (h : Onward a (fixed s)) :
    Got.goes a (s.dmaRead p c bytes tagged element addr) := by
  unfold State.dmaRead
  split
  · exact Got.goes_fails h
  dsimp only
  split
  · split
    · exact Got.goes_word (by simp [h])
    · exact Got.goes_word h
  · split
    · exact goes_wordBy s p dmaPort _ h
    · exact goes_dmaBytesAt s p _ h

theorem goes_dmaMerge {a : Fixed} (s : State) (p : Nat) (l : List (Nat × Nat)) (h : Onward a (fixed s)) :
    Got.goes a (s.dmaMerge p l) := by
  induction l generalizing s with
  | nil => exact Got.goes_word h
  | cons x rest ih =>
    unfold State.dmaMerge
    dsimp only
    split
    · exact Got.goes_waits
    · exact Got.goes_fails (by simp [h])
    · exact Got.goes_fails (by simp [h])
    · exact Got.goes_fails (by simp [h])
    · split
      · exact Got.goes_fails (by simp [h])
      split
      · exact Got.goes_fails (by simp [h])
      split
      · exact Got.goes_fails (by simp [h])
      · exact ih _ (by split <;> simp [h])

theorem goes_dmaWrite {a : Fixed} (s : State) (p c : Nat) (env : MemEnv) (bytes : Nat) (tagged : Bool)
    (addr : Int) (w : TWord) (h : Onward a (fixed s)) :
    Got.goes a (s.dmaWrite p c env bytes tagged addr w) := by
  unfold State.dmaWrite
  split
  · exact Got.goes_fails h
  dsimp only
  split
  · split
    · exact Got.goes_fails (by simp [h])
    · exact Got.goes_word (by simp [h])
  · have hm := goes_dmaMerge s p (parts addr.toNat bytes) h
    split
    · next x s1 hr => exact Got.goes_word (onward_dmaPut _ _ _ _ _ _ _ _ (hm.2 _ _ hr))
    · exact hm

/-- Where an element is done or fails, its state goes onward. -/
def Element.goes (a : Fixed) (g : Element) : Prop :=
  (∀ k c ad u, g = .fails k c ad u → Onward a (fixed u)) ∧ ∀ u, g = .done u → Onward a (fixed u)

theorem goes_dmaElement {a : Fixed} (s : State) (p c k : Nat) (env : MemEnv) (h : Onward a (fixed s)) :
    Element.goes a (s.dmaElement p c k env) := by
  unfold State.dmaElement Element.goes
  dsimp only
  have h0 : Got.goes a (if s.fld (dmaPage p c) DMA_CFG.IDX = 0 then .word 0 s
      else s.dmaRead p c 4 false false (s.fld (dmaPage p c) DMA_INDEX.ADDR * 4 + 4 * k : Nat)) := by
    split
    · exact Got.goes_word h
    · exact goes_dmaRead s p c 4 false false _ h
  split
  · simp
  · next cause u hr => exact ⟨by rintro _ _ _ _ ⟨⟩; exact h0.1 _ _ hr, by rintro _ ⟨⟩⟩
  next x s1 hr =>
  have h1 := h0.2 _ _ hr
  split
  · simp
  · next cause u hr2 => exact ⟨by rintro _ _ _ _ ⟨⟩; exact (goes_dmaRead s1 _ _ _ _ _ _ h1).1 _ _ hr2, by rintro _ ⟨⟩⟩
  next w s2 hr2 =>
  have h2 := (goes_dmaRead s1 _ _ _ _ _ _ h1).2 _ _ hr2
  split
  · simp
  · next cause u hr3 => exact ⟨by rintro _ _ _ _ ⟨⟩; exact (goes_dmaWrite s2 _ _ _ _ _ _ _ h2).1 _ _ hr3, by rintro _ ⟨⟩⟩
  · next v s3 hr3 => exact ⟨by rintro _ _ _ _ ⟨⟩, by rintro _ ⟨⟩; exact (goes_dmaWrite s2 _ _ _ _ _ _ _ h2).2 _ _ hr3⟩

@[simp] theorem onward_dmaBeyond {a : Fixed} (s : State) (p c : Nat) (env : MemEnv) (x0 : List Nat)
    (h : Onward a (fixed s)) :
    Onward a (fixed (s.dmaBeyond p c env x0).2) := by
  induction x0 generalizing s with
  | nil => exact h
  | cons k rest ih =>
    unfold State.dmaBeyond
    split
    · next s1 hr => exact ih s1 ((goes_dmaElement s p c k env h).2 _ hr)
    · exact ih s h

@[simp] theorem onward_dmaAfter {a : Fixed} (s : State) (p c : Nat) (h : Onward a (fixed s)) :
    Onward a (fixed (s.dmaAfter p c)) := by
  unfold State.dmaAfter; dsimp only; (repeat' split) <;> simp [h]

@[simp] theorem onward_dmaFails {a : Fixed} (s : State) (p c which cause addr beyond : Nat) (env : MemEnv)
    (h : Onward a (fixed s)) :
    Onward a (fixed (s.dmaFails p c which cause addr beyond env)) := by
  unfold State.dmaFails; simp [h]

@[simp] theorem onward_answerLoad {a : Fixed} (s : State) (t : Tid) (x : LoadInFlight) (noData : Bool)
    (h : Onward a (fixed s)) :
    Onward a (fixed (s.answerLoad t x noData)) := by
  unfold State.answerLoad; simp [h]

@[simp] theorem onward_tickAnswers {a : Fixed} (s : State) (t : Tid) (h : Onward a (fixed s)) :
    Onward a (fixed (s.tickAnswers t)) := by
  unfold State.tickAnswers
  dsimp only
  refine onward_foldl (fun u x => ?_) _ (onward_foldl (fun u x => ?_) _ h)
  · split <;> simp
  · split <;> simp

@[simp] theorem onward_tickResponses {a : Fixed} (s : State) (h : Onward a (fixed s)) :
    Onward a (fixed (s.tickResponses)) := by
  unfold State.tickResponses
  refine onward_foldl (fun u e => ?_) _ h
  split <;> simp

@[simp] theorem onward_easelPage {a : Fixed} (s : State) (x : EaselAccess) (pk off : Nat)
    (h : Onward a (fixed s)) :
    Onward a (fixed (s.easelPage x pk off)) := by
  unfold State.easelPage; dsimp only; (repeat' split) <;> simp [h]

@[simp] theorem onward_easelMemory {a : Fixed} (s : State) (x : EaselAccess) (h : Onward a (fixed s)) :
    Onward a (fixed (s.easelMemory x)) := by
  unfold State.easelMemory; dsimp only; (repeat' split) <;> simp [h]

@[simp] theorem onward_oweTick {a : Fixed} (s : State) (h : Onward a (fixed s)) :
    Onward a (fixed (s.oweTick)) := by
  unfold State.oweTick
  dsimp only
  refine onward_foldl (fun u sl => ?_) _ ?_
  · refine onward_tickHeld _ _ _ (onward_tickHeld _ _ _ ?_)
    rw [fixed_tickPort]
    refine onward_tickWatcher _ _ ?_
    split <;> simp
  · simp only [fixed_tickEvents, fixed_foldl, fixed_tickIntent, fixed_fireAlarm, implies_true]
    refine onward_tickResponses _ (onward_tickDue _ (onward_tickFlight _ ?_))
    rw [fixed_tickOverruns]
    exact onward_tickTags _ (onward_tickPrime _ h)

@[simp] theorem onward_tickCanvas {a : Fixed} (s : State) (h : Onward a (fixed s)) :
    Onward a (fixed s.tickCanvas) := by
  cases hs : s.slices.any (fun sl => (s.trip sl).clockMissing) with
  | true =>
    unfold State.tickCanvas
    rwa [if_pos hs]
  | false =>
    rw [fixed_tickCanvas hs]
    exact onward_clock h _ _ _

@[simp] theorem onward_tick {a : Fixed} (s : State) (h : Onward a (fixed s)) : Onward a (fixed (s.tick)) := by
  unfold State.tick; split <;> simp [h]

end Sys2Proof.Proofs
end

section
/-! PROOFS. Every command goes on, to a state that is onward, one lemma for each row of the opcode table. Settles O3, O4
and O60. -/

namespace Sys2Proof.Proofs

open Sys2Proof Sys2Proof.Machine

/-- A command goes on to a state that is onward. -/
def Proceeds (a : Fixed) (o : Host.Outcome State Fault Refusal) : Prop := ∃ t, o = .next t ∧ Onward a (fixed t)

@[simp] theorem proceeds_next {a : Fixed} {t : State} : Proceeds a (.next t) ↔ Onward a (fixed t) :=
  ⟨by rintro ⟨_, ⟨⟩, h⟩; exact h, fun h => ⟨t, rfl, h⟩⟩

theorem onward_easel {a : Fixed} (s : State) (act : State → State)
    (hact : ∀ u, Onward (fixed u) (fixed (act u))) (h : Onward a (fixed s)) :
    Onward a (fixed (s.easel act)) := by
  unfold State.easel
  split
  · exact h.trans (hact s)
  · simp [h]

theorem proceeds_execTwqClr (ag : Agent) (queue : Fin 9) (s : State) :
    Proceeds (fixed s) (execTwqClr ag queue s) := by
  unfold execTwqClr; simp

theorem proceeds_execCanvStep (delta : Word) (s : State) : Proceeds (fixed s) (execCanvStep delta s) := by
  unfold execCanvStep; simp

theorem proceeds_execCanvAlarmFire (i : Fin 4) (s : State) : Proceeds (fixed s) (execCanvAlarmFire i s) := by
  unfold execCanvAlarmFire; simp

theorem proceeds_execSyncSourceLost (s : State) : Proceeds (fixed s) (execSyncSourceLost s) := by
  unfold execSyncSourceLost; simp

theorem proceeds_execSyncSourceReturn (s : State) : Proceeds (fixed s) (execSyncSourceReturn s) := by
  unfold execSyncSourceReturn; split <;> simp

theorem proceeds_execSyncFrameReceived (frame : BitVec 128) (sub : Fin 64) (s : State) :
    Proceeds (fixed s) (execSyncFrameReceived frame sub s) := by
  unfold execSyncFrameReceived; (repeat' split) <;> simp

theorem proceeds_execFadcTrigFire (sec : Slice) (c : Fin 16) (s : State) :
    Proceeds (fixed s) (execFadcTrigFire sec c s) := by
  unfold execFadcTrigFire; simp

theorem proceeds_execStreamPayload (sec : Slice) (c : Fin 16) (accepted : Bool) (s : State) :
    Proceeds (fixed s) (execStreamPayload sec c accepted s) := by
  unfold execStreamPayload
  dsimp only
  split
  · simp
  (repeat' split) <;> simp
  all_goals exact onward_foldl (fun u i => by simp) _ (by simp)

theorem proceeds_execFadcRingDroppedClr (ag : Agent) (sec : Slice) (c : Fin 16) (s : State) :
    Proceeds (fixed s) (execFadcRingDroppedClr ag sec c s) := by
  unfold execFadcRingDroppedClr; simp

theorem proceeds_execFadcCalStart (ag : Agent) (sec : Slice) (c : Fin 16) (s : State) :
    Proceeds (fixed s) (execFadcCalStart ag sec c s) := by
  unfold execFadcCalStart; simp

theorem proceeds_execFadcCalDone (sec : Slice) (c : Fin 16) (gain offset : BitVec 16) (s : State) :
    Proceeds (fixed s) (execFadcCalDone sec c gain offset s) := by
  unfold execFadcCalDone; split <;> simp

theorem proceeds_execMadcConversionEnd (sec : Slice) (nanovolts : Nat) (s : State) :
    Proceeds (fixed s) (execMadcConversionEnd sec nanovolts s) := by
  unfold execMadcConversionEnd; dsimp only; (repeat' split) <;> simp

theorem proceeds_execTripSourceActive (sec : Slice) (src : Fin 76) (sub : Fin 64) (s : State) :
    Proceeds (fixed s) (execTripSourceActive sec src sub s) := by
  unfold execTripSourceActive; (repeat' split) <;> simp

theorem proceeds_execTripPinInactive (sec : Slice) (pin : Fin 8) (s : State) :
    Proceeds (fixed s) (execTripPinInactive sec pin s) := by
  unfold execTripPinInactive; simp

theorem proceeds_execBlankingClose (sec : Slice) (p : Fin 16) (s : State) :
    Proceeds (fixed s) (execBlankingClose sec p s) := by
  unfold execBlankingClose; dsimp only; (repeat' split) <;> simp

theorem proceeds_execTripClearPair (sec : Slice) (p : Fin 16) (s : State) :
    Proceeds (fixed s) (execTripClearPair sec p s) := by
  unfold execTripClearPair; simp

theorem proceeds_execClearPendingComplete (sec : Slice) (p : Fin 16) (s : State) :
    Proceeds (fixed s) (execClearPendingComplete sec p s) := by
  unfold execClearPendingComplete; split <;> simp

theorem proceeds_execVoteDisagree (sec : Slice) (copy : Fin 3) (s : State) (latches : BitVec 16)
    (cbc : BitVec 16) :
    Proceeds (fixed s) (execVoteDisagree sec copy s latches cbc) := by
  unfold execVoteDisagree; simp

theorem proceeds_execVoteClr (ag : Agent) (sec : Slice) (s : State) :
    Proceeds (fixed s) (execVoteClr ag sec s) := by
  unfold execVoteClr; simp

theorem proceeds_execCountClr (ag : Agent) (sec : Slice) (s : State) :
    Proceeds (fixed s) (execCountClr ag sec s) := by
  unfold execCountClr; simp

theorem proceeds_execCanvasClockLoss (sec : Slice) (s : State) :
    Proceeds (fixed s) (execCanvasClockLoss sec s) := by
  unfold execCanvasClockLoss; split <;> simp

theorem proceeds_execCanvasClockReturn (sec : Slice) (s : State) :
    Proceeds (fixed s) (execCanvasClockReturn sec s) := by
  unfold execCanvasClockReturn; simp

theorem proceeds_execComparatorCrossing (sec : Slice) (c : Fin 32) (nanovolts : Int) (held : Bool)
    (sub : Fin 64) (s : State) :
    Proceeds (fixed s) (execComparatorCrossing sec c nanovolts held sub s) := by
  unfold execComparatorCrossing; split <;> simp

theorem proceeds_execWcmpCheckStart (ag : Agent) (sec : Slice) (c : Fin 32) (s : State) :
    Proceeds (fixed s) (execWcmpCheckStart ag sec c s) := by
  unfold execWcmpCheckStart; simp

theorem proceeds_execCheckStep (sec : Slice) (c : Fin 32) (above below : Bool) (s : State) :
    Proceeds (fixed s) (execCheckStep sec c above below s) := by
  unfold execCheckStep; dsimp only; (repeat' split) <;> simp

theorem proceeds_execCheckDone (sec : Slice) (c : Fin 32) (s : State) :
    Proceeds (fixed s) (execCheckDone sec c s) := by
  unfold execCheckDone; dsimp only; (repeat' split) <;> simp

theorem proceeds_execSweepGo (sec : Slice) (s : State) : Proceeds (fixed s) (execSweepGo sec s) := by
  unfold execSweepGo; simp

theorem proceeds_execSweepStop (ag : Agent) (sec : Slice) (s : State) :
    Proceeds (fixed s) (execSweepStop ag sec s) := by
  unfold execSweepStop; simp

theorem proceeds_execSweepStep (sec : Slice) (s0 : State) : Proceeds (fixed s0) (execSweepStep sec s0) := by
  unfold execSweepStep
  dsimp only
  have h := onward_clearBack s0 sec (Onward.refl _)
  split
  · exact proceeds_next.mpr h
  · split
    · simp [h]
    · exact proceeds_next.mpr h
  · split
    · exact proceeds_next.mpr h
    split
    · simp [h]
    split
    · simp [h]
    · exact proceeds_next.mpr h
  · split
    · simp [h]
    · exact proceeds_next.mpr h

theorem proceeds_execSweepEnd (sec : Slice) (s : State) : Proceeds (fixed s) (execSweepEnd sec s) := by
  unfold execSweepEnd; dsimp only; (repeat' split) <;> simp

theorem proceeds_execPwmpWrap (sec : Slice) (p : Fin 16) (s : State) :
    Proceeds (fixed s) (execPwmpWrap sec p s) := by
  unfold execPwmpWrap; dsimp only; (repeat' split) <;> simp

theorem proceeds_execPwmStart (sec : Slice) (p : Fin 16) (s : State) :
    Proceeds (fixed s) (execPwmStart sec p s) := by
  unfold execPwmStart; simp

theorem proceeds_execPwmStop (sec : Slice) (p : Fin 16) (s : State) :
    Proceeds (fixed s) (execPwmStop sec p s) := by
  unfold execPwmStop; simp

theorem proceeds_execRawEdge (sec : Slice) (p : Fin 16) (second rise : Bool) (s : State) :
    Proceeds (fixed s) (execRawEdge sec p second rise s) := by
  unfold execRawEdge; dsimp only; (repeat' split) <;> simp

theorem proceeds_execDeadTimeExpiry (sec : Slice) (p : Fin 16) (out : Out) (s : State) :
    Proceeds (fixed s) (execDeadTimeExpiry sec p out s) := by
  unfold execDeadTimeExpiry; dsimp only; (repeat' split) <;> simp

theorem proceeds_execMinPulseExpiry (sec : Slice) (p : Fin 16) (out : Out) (s : State) :
    Proceeds (fixed s) (execMinPulseExpiry sec p out s) := by
  unfold execMinPulseExpiry; dsimp only; (repeat' split) <;> simp

theorem proceeds_execPwmpClrCounts (ag : Agent) (sec : Slice) (p : Fin 16) (s : State) :
    Proceeds (fixed s) (execPwmpClrCounts ag sec p s) := by
  unfold execPwmpClrCounts; simp

theorem proceeds_execStippleCalibration (sec : Slice) (taps : List (Nat × Nat)) (s : State) (lines : List Nat) :
    Proceeds (fixed s) (execStippleCalibration sec taps s lines) := by
  unfold execStippleCalibration; split <;> simp

theorem proceeds_execFadcSample (sec : Slice) (c : Fin 16) (nanovolts : Int) (s : State) :
    Proceeds (fixed s) (execFadcSample sec c nanovolts s) := by
  unfold execFadcSample; split <;> simp

theorem proceeds_execLoopEvaluation (sec : Slice) (n : Fin 16) (upset : Bool) (s : State) :
    Proceeds (fixed s) (execLoopEvaluation sec n upset s) := by
  unfold execLoopEvaluation; dsimp only; (repeat' split) <;> simp

theorem proceeds_execLoopClose (sec : Slice) (n : Fin 16) (s : State) :
    Proceeds (fixed s) (execLoopClose sec n s) := by
  unfold execLoopClose; simp

theorem proceeds_execLoopOpen (sec : Slice) (n : Fin 16) (s : State) :
    Proceeds (fixed s) (execLoopOpen sec n s) := by
  unfold execLoopOpen; simp

theorem proceeds_execLoopClrCounts (ag : Agent) (sec : Slice) (n : Fin 16) (s : State) :
    Proceeds (fixed s) (execLoopClrCounts ag sec n s) := by
  unfold execLoopClrCounts; simp

theorem proceeds_execLengClr (ag : Agent) (sec : Slice) (g : Fin 4) (s : State) :
    Proceeds (fixed s) (execLengClr ag sec g s) := by
  unfold execLengClr; simp

theorem proceeds_execNop (t : Tid) (s : State) : Proceeds (fixed s) (execNop t s) := by
  unfold execNop; simp

theorem proceeds_execDup (t : Tid) (s : State) : Proceeds (fixed s) (execDup t s) := by
  unfold execDup; simp

theorem proceeds_execDrop (t : Tid) (s : State) : Proceeds (fixed s) (execDrop t s) := by
  unfold execDrop; simp

theorem proceeds_execSwap (t : Tid) (s : State) : Proceeds (fixed s) (execSwap t s) := by
  unfold execSwap; simp

theorem proceeds_execOver (t : Tid) (s : State) : Proceeds (fixed s) (execOver t s) := by
  unfold execOver; simp

theorem proceeds_execRot (t : Tid) (s : State) : Proceeds (fixed s) (execRot t s) := by
  unfold execRot; simp

theorem proceeds_execPick (t : Tid) (n : Byte) (s : State) : Proceeds (fixed s) (execPick t n s) := by
  unfold execPick; split <;> simp

theorem proceeds_execRoll (t : Tid) (n : Byte) (s : State) : Proceeds (fixed s) (execRoll t n s) := by
  unfold execRoll; split <;> simp

theorem proceeds_execDropn (t : Tid) (n : Byte) (s : State) : Proceeds (fixed s) (execDropn t n s) := by
  unfold execDropn; split <;> simp

theorem proceeds_execDepth (t : Tid) (s : State) : Proceeds (fixed s) (execDepth t s) := by
  unfold execDepth; simp

theorem proceeds_execLitS (t : Tid) (imm : Lit) (s : State) : Proceeds (fixed s) (execLitS t imm s) := by
  unfold execLitS; simp

theorem proceeds_execLitU (t : Tid) (imm : Lit) (s : State) : Proceeds (fixed s) (execLitU t imm s) := by
  unfold execLitU; simp

theorem proceeds_execLitR (t : Tid) (imm : Word) (s : State) : Proceeds (fixed s) (execLitR t imm s) := by
  unfold execLitR; simp

theorem proceeds_execLitF (t : Tid) (imm : Word) (s : State) : Proceeds (fixed s) (execLitF t imm s) := by
  unfold execLitF; simp

theorem proceeds_execLitC (t : Tid) (disp : BitVec 32) (s : State) :
    Proceeds (fixed s) (execLitC t disp s) := by
  unfold execLitC; simp

theorem proceeds_execLitV (t : Tid) (s : State) : Proceeds (fixed s) (execLitV t s) := by
  unfold execLitV; simp

theorem proceeds_execAdd (t : Tid) (s : State) : Proceeds (fixed s) (execAdd t s) := by
  unfold execAdd; simp

theorem proceeds_execSub (t : Tid) (s : State) : Proceeds (fixed s) (execSub t s) := by
  unfold execSub; simp

theorem proceeds_execNeg (t : Tid) (s : State) : Proceeds (fixed s) (execNeg t s) := by
  unfold execNeg; simp

theorem proceeds_execAbs (t : Tid) (s : State) : Proceeds (fixed s) (execAbs t s) := by
  unfold execAbs; simp

theorem proceeds_execMin (t : Tid) (s : State) : Proceeds (fixed s) (execMin t s) := by
  unfold execMin; simp

theorem proceeds_execMax (t : Tid) (s : State) : Proceeds (fixed s) (execMax t s) := by
  unfold execMax; simp

theorem proceeds_execMul (t : Tid) (s : State) : Proceeds (fixed s) (execMul t s) := by
  unfold execMul; simp

theorem proceeds_execMulh (t : Tid) (s : State) : Proceeds (fixed s) (execMulh t s) := by
  unfold execMulh; simp

theorem proceeds_execDiv (t : Tid) (s : State) : Proceeds (fixed s) (execDiv t s) := by
  unfold execDiv; simp

theorem proceeds_execRem (t : Tid) (s : State) : Proceeds (fixed s) (execRem t s) := by
  unfold execRem; simp

theorem proceeds_execAnd (t : Tid) (s : State) : Proceeds (fixed s) (execAnd t s) := by
  unfold execAnd; simp

theorem proceeds_execOr (t : Tid) (s : State) : Proceeds (fixed s) (execOr t s) := by
  unfold execOr; simp

theorem proceeds_execXor (t : Tid) (s : State) : Proceeds (fixed s) (execXor t s) := by
  unfold execXor; simp

theorem proceeds_execNot (t : Tid) (s : State) : Proceeds (fixed s) (execNot t s) := by
  unfold execNot; simp

theorem proceeds_execShl (t : Tid) (s : State) : Proceeds (fixed s) (execShl t s) := by
  unfold execShl; simp

theorem proceeds_execShr (t : Tid) (s : State) : Proceeds (fixed s) (execShr t s) := by
  unfold execShr; simp

theorem proceeds_execSar (t : Tid) (s : State) : Proceeds (fixed s) (execSar t s) := by
  unfold execSar; simp

theorem proceeds_execShli (t : Tid) (n : Byte) (s : State) : Proceeds (fixed s) (execShli t n s) := by
  unfold execShli; split <;> simp

theorem proceeds_execShri (t : Tid) (n : Byte) (s : State) : Proceeds (fixed s) (execShri t n s) := by
  unfold execShri; split <;> simp

theorem proceeds_execSari (t : Tid) (n : Byte) (s : State) : Proceeds (fixed s) (execSari t n s) := by
  unfold execSari; split <;> simp

theorem proceeds_execEq (t : Tid) (s : State) : Proceeds (fixed s) (execEq t s) := by
  unfold execEq; simp

theorem proceeds_execNe (t : Tid) (s : State) : Proceeds (fixed s) (execNe t s) := by
  unfold execNe; simp

theorem proceeds_execLt (t : Tid) (s : State) : Proceeds (fixed s) (execLt t s) := by
  unfold execLt; simp

theorem proceeds_execLe (t : Tid) (s : State) : Proceeds (fixed s) (execLe t s) := by
  unfold execLe; simp

theorem proceeds_execEqz (t : Tid) (s : State) : Proceeds (fixed s) (execEqz t s) := by
  unfold execEqz; simp

theorem proceeds_execFadd (t : Tid) (s : State) : Proceeds (fixed s) (execFadd t s) := by
  unfold execFadd; simp

theorem proceeds_execFsub (t : Tid) (s : State) : Proceeds (fixed s) (execFsub t s) := by
  unfold execFsub; simp

theorem proceeds_execFmul (t : Tid) (s : State) : Proceeds (fixed s) (execFmul t s) := by
  unfold execFmul; simp

theorem proceeds_execFdiv (t : Tid) (s : State) : Proceeds (fixed s) (execFdiv t s) := by
  unfold execFdiv; simp

theorem proceeds_execFsqrt (t : Tid) (s : State) : Proceeds (fixed s) (execFsqrt t s) := by
  unfold execFsqrt; simp

theorem proceeds_execFneg (t : Tid) (s : State) : Proceeds (fixed s) (execFneg t s) := by
  unfold execFneg; simp

theorem proceeds_execFabs (t : Tid) (s : State) : Proceeds (fixed s) (execFabs t s) := by
  unfold execFabs; simp

theorem proceeds_execFeq (t : Tid) (s : State) : Proceeds (fixed s) (execFeq t s) := by
  unfold execFeq; simp

theorem proceeds_execFlt (t : Tid) (s : State) : Proceeds (fixed s) (execFlt t s) := by
  unfold execFlt; simp

theorem proceeds_execFle (t : Tid) (s : State) : Proceeds (fixed s) (execFle t s) := by
  unfold execFle; simp

theorem proceeds_execCvtIf (t : Tid) (s : State) : Proceeds (fixed s) (execCvtIf t s) := by
  unfold execCvtIf; simp

theorem proceeds_execCvtFi (t : Tid) (s : State) : Proceeds (fixed s) (execCvtFi t s) := by
  unfold execCvtFi; simp

theorem proceeds_execCvtXf (t : Tid) (s : State) : Proceeds (fixed s) (execCvtXf t s) := by
  unfold execCvtXf; simp

theorem proceeds_execRetag (t : Tid) (tag : Byte) (s : State) : Proceeds (fixed s) (execRetag t tag s) := by
  unfold execRetag; split <;> simp

theorem proceeds_execSat (t : Tid) (n : Byte) (s : State) : Proceeds (fixed s) (execSat t n s) := by
  unfold execSat; split <;> simp

theorem proceeds_execAlign (t : Tid) (f : Byte) (s : State) : Proceeds (fixed s) (execAlign t f s) := by
  unfold execAlign; split <;> simp

theorem proceeds_execTag (t : Tid) (s : State) : Proceeds (fixed s) (execTag t s) := by
  unfold execTag; simp

theorem proceeds_execTagset (t : Tid) (tag : Byte) (s : State) : Proceeds (fixed s) (execTagset t tag s) := by
  unfold execTagset; split <;> simp

theorem proceeds_execPtrr (t : Tid) (mask : Byte) (s : State) : Proceeds (fixed s) (execPtrr t mask s) := by
  unfold execPtrr; split <;> simp

theorem proceeds_execBr (t : Tid) (disp : Disp) (s : State) : Proceeds (fixed s) (execBr t disp s) := by
  unfold execBr; simp

theorem proceeds_execBz (t : Tid) (disp : Disp) (s : State) : Proceeds (fixed s) (execBz t disp s) := by
  unfold execBz; simp

theorem proceeds_execBnz (t : Tid) (disp : Disp) (s : State) : Proceeds (fixed s) (execBnz t disp s) := by
  unfold execBnz; simp

theorem proceeds_execJmp (t : Tid) (s : State) : Proceeds (fixed s) (execJmp t s) := by
  unfold execJmp; simp only [proceeds_next]; refine onward_instr _ _ _ _ _ (fun u => ?_) (by simp); grind [fixed_resolveJump, lands_popCode, onward_leap, Lands.of_onward, lands_ok, lands_error, Onward.refl, Onward.trans]

theorem proceeds_execCall (t : Tid) (disp : BitVec 24) (a r : Fin 16) (s : State) :
    Proceeds (fixed s) (execCall t disp a r s) := by
  unfold execCall; simp only [proceeds_next]; refine onward_instr _ _ _ _ _ (fun u => ?_) (by simp); grind [fixed_pushReturn, lands_pushRecord, onward_leap, Lands.of_onward, lands_ok, lands_error, Onward.refl, Onward.trans]

theorem proceeds_execCalli (t : Tid) (a r : Fin 16) (s : State) : Proceeds (fixed s) (execCalli t a r s) := by
  unfold execCalli; simp only [proceeds_next]; refine onward_instr _ _ _ _ _ (fun u => ?_) (by simp); grind [fixed_faultStop, fixed_pushReturn, fixed_resolveJump, lands_popCode, lands_pushRecord, onward_leap, Lands.of_onward, lands_ok, lands_error, Onward.refl, Onward.trans]

theorem proceeds_execRet (t : Tid) (s : State) : Proceeds (fixed s) (execRet t s) := by
  unfold execRet; simp only [proceeds_next]; refine onward_instr _ _ _ _ _ (fun u => ?_) (by simp); grind [fixed_faultStop, fixed_resolveReturn, fixed_setThread, lands_popWords, onward_retire, Lands.of_onward, lands_ok, lands_error, Onward.refl, Onward.trans]

theorem proceeds_execReti (t : Tid) (s : State) : Proceeds (fixed s) (execReti t s) := by
  unfold execReti; simp only [proceeds_next]; refine onward_instr _ _ _ _ _ (fun u => ?_) (by simp); grind [fixed_faultStop, fixed_setThread, lands_popFrame, onward_retire, Lands.of_onward, lands_ok, lands_error, Onward.refl, Onward.trans]

theorem proceeds_execLdT (t : Tid) (disp : Disp) (env : MemEnv) (s : State) :
    Proceeds (fixed s) (execLdT t disp env s) := by
  unfold execLdT; simp

theorem proceeds_execLdR (t : Tid) (disp : Disp) (env : MemEnv) (s : State) :
    Proceeds (fixed s) (execLdR t disp env s) := by
  unfold execLdR; simp

theorem proceeds_execLdS32 (t : Tid) (disp : Disp) (env : MemEnv) (s : State) :
    Proceeds (fixed s) (execLdS32 t disp env s) := by
  unfold execLdS32; simp

theorem proceeds_execLdU32 (t : Tid) (disp : Disp) (env : MemEnv) (s : State) :
    Proceeds (fixed s) (execLdU32 t disp env s) := by
  unfold execLdU32; simp

theorem proceeds_execLdS16 (t : Tid) (disp : Disp) (env : MemEnv) (s : State) :
    Proceeds (fixed s) (execLdS16 t disp env s) := by
  unfold execLdS16; simp

theorem proceeds_execLdU16 (t : Tid) (disp : Disp) (env : MemEnv) (s : State) :
    Proceeds (fixed s) (execLdU16 t disp env s) := by
  unfold execLdU16; simp

theorem proceeds_execLdS8 (t : Tid) (disp : Disp) (env : MemEnv) (s : State) :
    Proceeds (fixed s) (execLdS8 t disp env s) := by
  unfold execLdS8; simp

theorem proceeds_execLdU8 (t : Tid) (disp : Disp) (env : MemEnv) (s : State) :
    Proceeds (fixed s) (execLdU8 t disp env s) := by
  unfold execLdU8; simp

theorem proceeds_execStT (t : Tid) (disp : Disp) (env : MemEnv) (s : State) :
    Proceeds (fixed s) (execStT t disp env s) := by
  unfold execStT; simp

theorem proceeds_execStR (t : Tid) (disp : Disp) (env : MemEnv) (s : State) :
    Proceeds (fixed s) (execStR t disp env s) := by
  unfold execStR; simp

theorem proceeds_execSt32 (t : Tid) (disp : Disp) (env : MemEnv) (s : State) :
    Proceeds (fixed s) (execSt32 t disp env s) := by
  unfold execSt32; simp

theorem proceeds_execSt16 (t : Tid) (disp : Disp) (env : MemEnv) (s : State) :
    Proceeds (fixed s) (execSt16 t disp env s) := by
  unfold execSt16; simp

theorem proceeds_execSt8 (t : Tid) (disp : Disp) (env : MemEnv) (s : State) :
    Proceeds (fixed s) (execSt8 t disp env s) := by
  unfold execSt8; simp

theorem proceeds_execStt (t : Tid) (disp : Disp) (s : State) : Proceeds (fixed s) (execStt t disp s) := by
  unfold execStt
  refine proceeds_next.mpr (onward_instr _ _ _ _ _ (fun u => ?_) (Onward.refl _))
  dsimp only
  split
  · next e hr => exact (lands_peekAs u t.panel.val t.index.val 3 _).of_error hr
  next ws s1 hr =>
  have h1 : Onward (fixed u) (fixed s1) := (lands_peekAs u t.panel.val t.index.val 3 _).of_ok hr
  split
  · split
    · simp
    split
    · simp
    split
    · simp
    split
    · simp
    have hrep := lands_replace s1 t.panel.val t.index.val 3 []
    split
    · next e hr2 => exact hrep.of_error hr2
    next s2 hr2 => exact (lands_storeDevice ..).of_onward (h1.trans (hrep.of_ok hr2))
  · simp

theorem proceeds_execAadd (t : Tid) (disp : Byte) (env : MemEnv) (s : State) :
    Proceeds (fixed s) (execAadd t disp env s) := by
  unfold execAadd; simp

theorem proceeds_execAswap (t : Tid) (disp : Byte) (env : MemEnv) (s : State) :
    Proceeds (fixed s) (execAswap t disp env s) := by
  unfold execAswap; simp

theorem proceeds_execBmove (t : Tid) (env : MemEnv) (s : State) : Proceeds (fixed s) (execBmove t env s) := by
  unfold execBmove
  refine proceeds_next.mpr (onward_long _ _ _ _ _ (fun u ops => ?_) (by simp))
  split
  · next d x =>
    dsimp only
    split
    · simp
    split
    · simp
    have hload := lands_loadMemory u t.panel.val t.index.val .tagged 8 (payload x).toNat
    split
    · next e hr => exact hload.of_error hr
    next w s1 hr =>
    have hwrite := lands_writeWord s1 t.panel.val t.index.val (payload d).toNat env.winner w
    split
    · next e hr2 => exact hwrite.of_error hr2
    · next s2 hr2 => exact (hload.of_ok hr).trans (hwrite.of_ok hr2)
  · simp

theorem proceeds_execBfill (t : Tid) (env : MemEnv) (s : State) : Proceeds (fixed s) (execBfill t env s) := by
  unfold execBfill
  refine proceeds_next.mpr (onward_long _ _ _ _ _ (fun u ops => ?_) (by simp))
  split
  · next d v =>
    split
    · simp
    split
    · simp
    next dst _ =>
    have hwrite := lands_writeWord u t.panel.val t.index.val dst env.winner v
    split
    · next e hr2 => exact hwrite.of_error hr2
    · next s2 hr2 => exact hwrite.of_ok hr2
  · simp

theorem proceeds_execDotx (t : Tid) (env : MemEnv) (s : State) : Proceeds (fixed s) (execDotx t env s) := by
  unfold execDotx
  refine proceeds_next.mpr (onward_long _ _ _ _ _ (fun u ops => ?_) (by simp))
  split
  · next b x acc =>
    dsimp only
    split
    · simp
    split
    · simp
    have hload := lands_loadMemory u t.panel.val t.index.val .tagged 8 (payload x).toNat
    split
    · next e hr => exact hload.of_error hr
    next w s1 hr =>
    have hload2 := lands_loadMemory s1 t.panel.val t.index.val .tagged 8 (payload b).toNat
    split
    · next e hr2 => exact hload2.of_error hr2
    next y s2 hr2 =>
    have h2 : Onward (fixed u) (fixed s2) := (hload.of_ok hr).trans (hload2.of_ok hr2)
    split
    · simp
    · simp [h2]
  · simp

theorem proceeds_execCrc32 (t : Tid) (env : MemEnv) (s : State) : Proceeds (fixed s) (execCrc32 t env s) := by
  unfold execCrc32
  refine proceeds_next.mpr (onward_long _ _ _ _ _ (fun u ops => ?_) (by simp))
  split
  · dsimp only
    split
    · simp
    next src _ =>
    have hload := lands_loadMemory u t.panel.val t.index.val .unsigned 1 src
    split
    · next e hr => exact hload.of_error hr
    next w s1 hr =>
    split
    · simp
    · exact hload.of_ok hr
  · simp

theorem proceeds_execFaultEntry (t : Tid) (upsets : List Upset) (s0 : State) :
    Proceeds (fixed s0) (execFaultEntry t upsets s0) := by
  unfold execFaultEntry
  refine proceeds_next.mpr (onward_compared _ _ _ _ _ (by simp) ?_)
  split
  · simp
  · (repeat' split) <;> simp

theorem proceeds_execInterruptPresentation (t : Tid) (upsets : List Upset) (s0 : State) :
    Proceeds (fixed s0) (execInterruptPresentation t upsets s0) := by
  unfold execInterruptPresentation
  refine proceeds_next.mpr (onward_compared _ _ _ _ _ (by simp) ?_)
  dsimp only
  split
  · simp
  split
  · (repeat' split) <;> simp
  split
  · simp
  split
  · simp
  · exact onward_withEntry _ _ _ _ _ _ (fun u => by simp) (by simp)

theorem proceeds_execEvcClaim (t : Tid) (s : State) : Proceeds (fixed s) (execEvcClaim t s) := by
  unfold execEvcClaim; simp only [proceeds_next]; refine onward_instr _ _ _ _ _ (fun u => ?_) (by simp); grind [lands_readClaim, lands_setStack, onward_retire, Lands.of_onward, lands_ok, lands_error, Onward.refl, Onward.trans]

theorem proceeds_execEvcComplete (t : Tid) (s : State) : Proceeds (fixed s) (execEvcComplete t s) := by
  unfold execEvcComplete
  refine proceeds_next.mpr (onward_instr _ _ _ _ _ (fun u => ?_) (Onward.refl _))
  have hop := lands_writeOperand u t.panel.val t.index.val false
  split
  · next e hr => exact hop.of_error hr
  next v s1 hr =>
  have hcomp := lands_complete s1 t.panel.val t.index.val (v.toNat % 2048)
  split
  · next e hr2 => exact hcomp.of_error hr2
  · next s2 hr2 => exact onward_retire _ _ _ _ _ ((hop.of_ok hr).trans (hcomp.of_ok hr2))

theorem proceeds_execEvcClr (ag : Agent) (p : Slice) (s : State) : Proceeds (fixed s) (execEvcClr ag p s) := by
  unfold execEvcClr; simp

theorem proceeds_execEventArrival (n : Nat) (s : State) : Proceeds (fixed s) (execEventArrival n s) := by
  unfold execEventArrival; split <;> simp

theorem proceeds_execEventPinChange (pin : Fin 16) (low : Bool) (s : State) :
    Proceeds (fixed s) (execEventPinChange pin low s) := by
  unfold execEventPinChange; simp

theorem proceeds_execWatcherWake (p : Slice) (s : State) : Proceeds (fixed s) (execWatcherWake p s) := by
  unfold execWatcherWake; simp

theorem proceeds_execCacheFillComplete (t : Tid) (s : State) :
    Proceeds (fixed s) (execCacheFillComplete t s) := by
  unfold execCacheFillComplete; simp

theorem proceeds_execRemoteDramResponse (t : Tid) (failed : Bool) (s : State) :
    Proceeds (fixed s) (execRemoteDramResponse t failed s) := by
  unfold execRemoteDramResponse; simp

theorem proceeds_execStoreResponse (t : Tid) (s : State) : Proceeds (fixed s) (execStoreResponse t s) := by
  unfold execStoreResponse; split <;> simp

theorem proceeds_execLockstepMismatch (p : Slice) (core thread : Fin 4) (output : Fin 7) (s : State) :
    Proceeds (fixed s) (execLockstepMismatch p core thread output s) := by
  unfold execLockstepMismatch; dsimp only; (repeat' split) <;> simp

theorem proceeds_execSrr (t : Tid) (num : BitVec 16) (s : State) : Proceeds (fixed s) (execSrr t num s) := by
  unfold execSrr; simp only [proceeds_next]; refine onward_instr _ _ _ _ _ (fun u => ?_) (by simp); grind [lands_readSpecial, lands_setStack, onward_retire, Lands.of_onward, lands_ok, lands_error, Onward.refl, Onward.trans]

theorem proceeds_execSrw (t : Tid) (num : BitVec 16) (s : State) : Proceeds (fixed s) (execSrw t num s) := by
  unfold execSrw; simp

theorem proceeds_execCoreClrCore (t : Tid) (s : State) : Proceeds (fixed s) (execCoreClrCore t s) := by
  unfold execCoreClrCore; simp

theorem proceeds_execCoreClrThread (t : Tid) (s : State) : Proceeds (fixed s) (execCoreClrThread t s) := by
  unfold execCoreClrThread; simp

theorem proceeds_execWfe (t : Tid) (s : State) : Proceeds (fixed s) (execWfe t s) := by
  unfold execWfe; simp

theorem proceeds_execFence (t : Tid) (s : State) : Proceeds (fixed s) (execFence t s) := by
  unfold execFence; simp only [proceeds_next]; refine onward_instr _ _ _ _ _ (fun u => ?_) (by simp); grind [fixed_waitStop, onward_retire, Lands.of_onward, lands_ok, lands_error, Onward.refl, Onward.trans]

theorem proceeds_execYield (t : Tid) (s : State) : Proceeds (fixed s) (execYield t s) := by
  unfold execYield; simp

theorem proceeds_execSyscall (t : Tid) (n : Byte) (s : State) : Proceeds (fixed s) (execSyscall t n s) := by
  unfold execSyscall; simp

theorem proceeds_execTrap (t : Tid) (n : Byte) (s : State) : Proceeds (fixed s) (execTrap t n s) := by
  unfold execTrap; simp

theorem proceeds_execBrk (t : Tid) (s : State) : Proceeds (fixed s) (execBrk t s) := by
  unfold execBrk; simp only [proceeds_next]; refine onward_instr _ _ _ _ _ (fun u => ?_) (by simp); grind [fixed_setFault, onward_orderHalt, onward_retire, Lands.of_onward, lands_ok, lands_error, Onward.refl, Onward.trans]

theorem proceeds_execScrPowerWrite (ag : Agent) (p : Slice) (data : Word) (s : State) :
    Proceeds (fixed s) (execScrPowerWrite ag p data s) := by
  unfold execScrPowerWrite; simp

theorem proceeds_execBankPowerDone (p : Slice) (b : Fin 8) (s : State) :
    Proceeds (fixed s) (execBankPowerDone p b s) := by
  unfold execBankPowerDone; dsimp only; (repeat' split) <;> simp

theorem proceeds_execScrWipe (ag : Agent) (p : Slice) (s : State) :
    Proceeds (fixed s) (execScrWipe ag p s) := by
  unfold execScrWipe
  refine proceeds_next.mpr (onward_writeBy _ _ _ _ _ (fun u => ?_) (Onward.refl _))
  split <;> simp

theorem proceeds_execScrClr (ag : Agent) (p : Slice) (s : State) : Proceeds (fixed s) (execScrClr ag p s) := by
  unfold execScrClr; simp

theorem proceeds_execDramReadComplete (p : Slice) (line : Nat) (errs : LineErrors) (s : State) :
    Proceeds (fixed s) (execDramReadComplete p line errs s) := by
  unfold execDramReadComplete; simp

theorem proceeds_execPoisonedEviction (p : Slice) (line : Nat) (s : State) :
    Proceeds (fixed s) (execPoisonedEviction p line s) := by
  unfold execPoisonedEviction; simp

theorem proceeds_execDramInitDone (p : Slice) (s : State) : Proceeds (fixed s) (execDramInitDone p s) := by
  unfold execDramInitDone; split <;> simp

theorem proceeds_execDramRefresh (p : Slice) (doubled : Bool) (s : State) :
    Proceeds (fixed s) (execDramRefresh p doubled s) := by
  unfold execDramRefresh; simp

theorem proceeds_execPatrolScrubRead (p : Slice) (errs : LineErrors) (s : State) :
    Proceeds (fixed s) (execPatrolScrubRead p errs s) := by
  unfold execPatrolScrubRead; simp

theorem proceeds_execWriteTimingAdjust (p : Slice) (outOfRange : Bool) (s : State) :
    Proceeds (fixed s) (execWriteTimingAdjust p outOfRange s) := by
  unfold execWriteTimingAdjust; simp

theorem proceeds_execDdrcPprGo (ag : Agent) (p : Slice) (s : State) :
    Proceeds (fixed s) (execDdrcPprGo ag p s) := by
  unfold execDdrcPprGo; simp

theorem proceeds_execPprDone (p : Slice) (ok : Bool) (s : State) : Proceeds (fixed s) (execPprDone p ok s) := by
  unfold execPprDone; simp

theorem proceeds_execDdrcClrDev (ag : Agent) (p : Slice) (s : State) :
    Proceeds (fixed s) (execDdrcClrDev ag p s) := by
  unfold execDdrcClrDev; simp

theorem proceeds_execDdrcClrCounts (ag : Agent) (p : Slice) (s : State) :
    Proceeds (fixed s) (execDdrcClrCounts ag p s) := by
  unfold execDdrcClrCounts; simp

theorem proceeds_execDmaStart (ag : Agent) (p : Slice) (c : Fin 32) (s : State) :
    Proceeds (fixed s) (execDmaStart ag p c s) := by
  unfold execDmaStart; simp

theorem proceeds_execDmaPause (ag : Agent) (p : Slice) (c : Fin 32) (inFlight : Fin 17) (s : State) :
    Proceeds (fixed s) (execDmaPause ag p c inFlight s) := by
  unfold execDmaPause; simp

theorem proceeds_execDmaResume (ag : Agent) (p : Slice) (c : Fin 32) (s : State) :
    Proceeds (fixed s) (execDmaResume ag p c s) := by
  unfold execDmaResume; simp

theorem proceeds_execDmaAlloc (ag : Agent) (p : Slice) (s : State) :
    Proceeds (fixed s) (execDmaAlloc ag p s) := by
  unfold execDmaAlloc; simp

theorem proceeds_execDmaFree (ag : Agent) (p : Slice) (c : Fin 32) (s : State) :
    Proceeds (fixed s) (execDmaFree ag p c s) := by
  unfold execDmaFree; simp

theorem proceeds_execDmaAllocRefusedClr (ag : Agent) (p : Slice) (s : State) :
    Proceeds (fixed s) (execDmaAllocRefusedClr ag p s) := by
  unfold execDmaAllocRefusedClr; simp

theorem proceeds_execDmaCollClr (ag : Agent) (p : Slice) (c : Fin 32) (s : State) :
    Proceeds (fixed s) (execDmaCollClr ag p c s) := by
  unfold execDmaCollClr; simp

theorem proceeds_execTmrStep (p : Slice) (n : Fin 16) (s : State) : Proceeds (fixed s) (execTmrStep p n s) := by
  unfold execTmrStep; simp

theorem proceeds_execTmrStart (ag : Agent) (p : Slice) (n : Fin 16) (s : State) :
    Proceeds (fixed s) (execTmrStart ag p n s) := by
  unfold execTmrStart; simp

theorem proceeds_execTmrStop (ag : Agent) (p : Slice) (n : Fin 16) (s : State) :
    Proceeds (fixed s) (execTmrStop ag p n s) := by
  unfold execTmrStop; simp

theorem proceeds_execTmrGstart (ag : Agent) (p : Slice) (mask : BitVec 16) (s : State) :
    Proceeds (fixed s) (execTmrGstart ag p mask s) := by
  unfold execTmrGstart; simp

theorem proceeds_execTmrGstop (ag : Agent) (p : Slice) (mask : BitVec 16) (s : State) :
    Proceeds (fixed s) (execTmrGstop ag p mask s) := by
  unfold execTmrGstop; simp

theorem proceeds_execCaptureEdge (p : Slice) (n : Fin 16) (rise : Bool) (s : State) :
    Proceeds (fixed s) (execCaptureEdge p n rise s) := by
  unfold execCaptureEdge; simp

theorem proceeds_execTimerCapture (p : Slice) (n : Fin 16) (s : State) :
    Proceeds (fixed s) (execTimerCapture p n s) := by
  unfold execTimerCapture; dsimp only; (repeat' split) <;> simp

theorem proceeds_execTmrCapRead (ag : Agent) (p : Slice) (n : Fin 16) (s : State) :
    Proceeds (fixed s) (execTmrCapRead ag p n s) := by
  unfold execTmrCapRead; simp

theorem proceeds_execRatioMeasurement (p : Slice) (ratio : BitVec 32) (s : State) :
    Proceeds (fixed s) (execRatioMeasurement p ratio s) := by
  unfold execRatioMeasurement; simp

theorem proceeds_execStencilRowEnd (sec : Slice) (e : Fin 8) (pins : BitVec 16) (s : State) :
    Proceeds (fixed s) (execStencilRowEnd sec e pins s) := by
  unfold execStencilRowEnd; simp

theorem proceeds_execStenStart (sec : Slice) (e : Fin 8) (s : State) :
    Proceeds (fixed s) (execStenStart sec e s) := by
  unfold execStenStart; simp

theorem proceeds_execStenStop (sec : Slice) (e : Fin 8) (s : State) :
    Proceeds (fixed s) (execStenStop sec e s) := by
  unfold execStenStop; simp

theorem proceeds_execStenGstart (sec : Slice) (mask : Byte) (s : State) :
    Proceeds (fixed s) (execStenGstart sec mask s) := by
  unfold execStenGstart; simp

theorem proceeds_execStenGstop (sec : Slice) (mask : Byte) (s : State) :
    Proceeds (fixed s) (execStenGstop sec mask s) := by
  unfold execStenGstop; simp

theorem proceeds_execStenGclk (sec : Slice) (mask : Byte) (s : State) :
    Proceeds (fixed s) (execStenGclk sec mask s) := by
  unfold execStenGclk; simp

theorem proceeds_execStenClrFifo (ag : Agent) (sec : Slice) (e : Fin 8) (s : State) :
    Proceeds (fixed s) (execStenClrFifo ag sec e s) := by
  unfold execStenClrFifo; simp

theorem proceeds_execStenTxfWrite (sec : Slice) (e : Fin 8) (word : BitVec 32) (s : State) :
    Proceeds (fixed s) (execStenTxfWrite sec e word s) := by
  unfold execStenTxfWrite; simp

theorem proceeds_execStenRxfRead (ag : Agent) (sec : Slice) (e : Fin 8) (s : State) :
    Proceeds (fixed s) (execStenRxfRead ag sec e s) := by
  unfold execStenRxfRead; simp

theorem proceeds_execStenRowWrite (sec : Slice) (e : Fin 8) (r : Fin 32) (data : Word) (s : State) :
    Proceeds (fixed s) (execStenRowWrite sec e r data s) := by
  unfold execStenRowWrite; simp

theorem proceeds_execTokenRefill (p : Slice) (i : Fin 64) (s : State) :
    Proceeds (fixed s) (execTokenRefill p i s) := by
  unfold execTokenRefill; simp

theorem proceeds_execIntentMessageTaken (p : Slice) (s : State) :
    Proceeds (fixed s) (execIntentMessageTaken p s) := by
  unfold execIntentMessageTaken; split <;> simp

theorem proceeds_execPartnerSilence (p : Slice) (i : Fin 64) (s : State) :
    Proceeds (fixed s) (execPartnerSilence p i s) := by
  unfold execPartnerSilence; dsimp only; (repeat' split) <;> simp

theorem proceeds_execQuarClear (ag : Agent) (p : Slice) (i : Fin 64) (s : State) :
    Proceeds (fixed s) (execQuarClear ag p i s) := by
  unfold execQuarClear; simp

theorem proceeds_execPartnerValidChange (ag : Agent) (p : Slice) (i : Fin 64) (valid : Bool) (s : State) :
    Proceeds (fixed s) (execPartnerValidChange ag p i valid s) := by
  unfold execPartnerValidChange; simp

theorem proceeds_execIntnClr (ag : Agent) (p : Slice) (s : State) :
    Proceeds (fixed s) (execIntnClr ag p s) := by
  unfold execIntnClr; simp

theorem proceeds_execPtpSyncMessage (p : Slice) (port : Fin 2) (ns : Word) (sub : Fin 64) (s : State) :
    Proceeds (fixed s) (execPtpSyncMessage p port ns sub s) := by
  unfold execPtpSyncMessage; simp

theorem proceeds_execPtpIntervalExpiry (p : Slice) (n : Fin 2) (pdelay : Bool) (s : State) :
    Proceeds (fixed s) (execPtpIntervalExpiry p n pdelay s) := by
  unfold execPtpIntervalExpiry; simp

theorem proceeds_execPdelayResponse (p : Slice) (n : Fin 2) (ps : BitVec 64) (s : State) :
    Proceeds (fixed s) (execPdelayResponse p n ps s) := by
  unfold execPdelayResponse; simp

theorem proceeds_execPreemptVerifyDone (p : Slice) (n : Fin 2) (ok : Bool) (s : State) :
    Proceeds (fixed s) (execPreemptVerifyDone p n ok s) := by
  unfold execPreemptVerifyDone; simp

theorem proceeds_execLinkStateChange (p : Slice) (n : Fin 2) (link : LinkState) (s : State) :
    Proceeds (fixed s) (execLinkStateChange p n link s) := by
  unfold execLinkStateChange; dsimp only; (repeat' split) <;> simp

theorem proceeds_execRxFrame (p : Slice) (n : Fin 2) (frame : RxFrame) (s : State) :
    Proceeds (fixed s) (execRxFrame p n frame s) := by
  unfold execRxFrame; simp

theorem proceeds_execIntentFrameReceived (p : Slice) (port : Fin 2) (tag : Option RxTag) (bytes : List Byte)
    (s : State) :
    Proceeds (fixed s) (execIntentFrameReceived p port tag bytes s) := by
  unfold execIntentFrameReceived; simp

theorem proceeds_execTxRecord (p : Slice) (n : Fin 2) (s : State) :
    Proceeds (fixed s) (execTxRecord p n s) := by
  unfold execTxRecord; dsimp only; (repeat' split) <;> simp

theorem proceeds_execTxFrameSent (p : Slice) (n : Fin 2) (s : State) (cut : Nat) :
    Proceeds (fixed s) (execTxFrameSent p n s cut) := by
  unfold execTxFrameSent; (repeat' split) <;> simp

theorem proceeds_execGclChange (ag : Agent) (p : Slice) (n : Fin 2) (s : State) :
    Proceeds (fixed s) (execGclChange ag p n s) := by
  unfold execGclChange; simp

theorem proceeds_execGclChangeApplied (p : Slice) (n : Fin 2) (gptp : Word) (s : State) :
    Proceeds (fixed s) (execGclChangeApplied p n gptp s) := by
  unfold execGclChangeApplied; simp

theorem proceeds_execGateEntryExpiry (p : Slice) (n : Fin 2) (s : State) (gptp : Word) :
    Proceeds (fixed s) (execGateEntryExpiry p n s gptp) := by
  unfold execGateEntryExpiry; simp

theorem proceeds_execSaLoadGo (ag : Agent) (p : Slice) (n : Fin 2) (s : State) :
    Proceeds (fixed s) (execSaLoadGo ag p n s) := by
  unfold execSaLoadGo; simp

theorem proceeds_execSaLoadDone (p : Slice) (n : Fin 2) (s : State) :
    Proceeds (fixed s) (execSaLoadDone p n s) := by
  unfold execSaLoadDone; simp

theorem proceeds_execEthClr (ag : Agent) (p : Slice) (n : Fin 2) (s : State) :
    Proceeds (fixed s) (execEthClr ag p n s) := by
  unfold execEthClr; simp

theorem proceeds_execFabClr (ag : Agent) (p : Slice) (s : State) : Proceeds (fixed s) (execFabClr ag p s) := by
  unfold execFabClr; simp

theorem proceeds_execFabricLinkError (p : Slice) (link : Fin 3) (s : State) :
    Proceeds (fixed s) (execFabricLinkError p link s) := by
  unfold execFabricLinkError; simp

theorem proceeds_execEpochBoundary (p : Slice) (s : State) : Proceeds (fixed s) (execEpochBoundary p s) := by
  unfold execEpochBoundary; dsimp only; (repeat' split) <;> simp

theorem proceeds_execCheckpointClose (p : Slice) (s : State) :
    Proceeds (fixed s) (execCheckpointClose p s) := by
  unfold execCheckpointClose
  refine proceeds_next.mpr ?_
  dsimp only
  split
  · simp
  split
  · simp
  refine onward_planClosed _ _ ?_
  rw [fixed_settleStalls]
  refine onward_captureLate _ _ _ ?_
  simp

theorem proceeds_execJrnlEnable (ag : Agent) (p : Slice) (en : Bool) (s : State) :
    Proceeds (fixed s) (execJrnlEnable ag p en s) := by
  unfold execJrnlEnable; simp

theorem proceeds_execJrnlClr (ag : Agent) (p : Slice) (s : State) :
    Proceeds (fixed s) (execJrnlClr ag p s) := by
  unfold execJrnlClr; simp

theorem proceeds_execHovrKick (ag : Agent) (sl : Slice) (s : State) :
    Proceeds (fixed s) (execHovrKick ag sl s) := by
  unfold execHovrKick; simp

theorem proceeds_execWatchdogExpiry (sl : Slice) (s : State) :
    Proceeds (fixed s) (execWatchdogExpiry sl s) := by
  unfold execWatchdogExpiry; dsimp only; (repeat' split) <;> simp

theorem proceeds_execThreadRestore (sl : Slice) (s : State) : Proceeds (fixed s) (execThreadRestore sl s) := by
  unfold execThreadRestore; dsimp only; (repeat' split) <;> simp

theorem proceeds_execThreadThrough (sl : Slice) (u : Fin 16) (s : State) :
    Proceeds (fixed s) (execThreadThrough sl u s) := by
  unfold execThreadThrough; split <;> simp

theorem proceeds_execHovrAdopt (sl : Slice) (s : State) : Proceeds (fixed s) (execHovrAdopt sl s) := by
  unfold execHovrAdopt; simp

theorem proceeds_execHovrPlanned (sl : Slice) (s : State) : Proceeds (fixed s) (execHovrPlanned sl s) := by
  unfold execHovrPlanned; simp

theorem proceeds_execHovrRelease (ag : Agent) (sl : Slice) (s : State) :
    Proceeds (fixed s) (execHovrRelease ag sl s) := by
  unfold execHovrRelease; simp

theorem proceeds_execHovrReturn (sl : Slice) (s : State) : Proceeds (fixed s) (execHovrReturn sl s) := by
  unfold execHovrReturn; simp

theorem proceeds_execReturnComplete (sl : Slice) (s : State) :
    Proceeds (fixed s) (execReturnComplete sl s) := by
  unfold execReturnComplete; dsimp only; (repeat' split) <;> simp

theorem proceeds_execRestEntryComplete (sl : Slice) (s : State) :
    Proceeds (fixed s) (execRestEntryComplete sl s) := by
  unfold execRestEntryComplete; split <;> simp

theorem proceeds_execModeCommission (tgt : ModeCmd) (s : State) :
    Proceeds (fixed s) (execModeCommission tgt s) := by
  unfold execModeCommission; simp

theorem proceeds_execModeRun (tgt : ModeCmd) (s : State) : Proceeds (fixed s) (execModeRun tgt s) := by
  unfold execModeRun; simp

theorem proceeds_execModeHold (tgt : ModeCmd) (s : State) : Proceeds (fixed s) (execModeHold tgt s) := by
  unfold execModeHold; simp

theorem proceeds_execModeRest (tgt : ModeCmd) (s : State) : Proceeds (fixed s) (execModeRest tgt s) := by
  unfold execModeRest; simp

theorem proceeds_execModeWarm (ag : Agent) (sl : Slice) (s : State) :
    Proceeds (fixed s) (execModeWarm ag sl s) := by
  unfold execModeWarm; simp

theorem proceeds_execPanelWarmResetDone (p : Slice) (s : State) :
    Proceeds (fixed s) (execPanelWarmResetDone p s) := by
  unfold execPanelWarmResetDone; simp

theorem proceeds_execThreadResetStop (ag : Agent) (sl : Slice) (mask : BitVec 16) (s : State) :
    Proceeds (fixed s) (execThreadResetStop ag sl mask s) := by
  unfold execThreadResetStop; simp

theorem proceeds_execThreadResetStart (ag : Agent) (sl : Slice) (mask : BitVec 16) (s : State) :
    Proceeds (fixed s) (execThreadResetStart ag sl mask s) := by
  unfold execThreadResetStart; simp

theorem proceeds_execPkgResetCmd (ag : Agent) (code : BitVec 16) (s : State) :
    Proceeds (fixed s) (execPkgResetCmd ag code s) := by
  unfold execPkgResetCmd; simp

theorem proceeds_execPkgResetPin (s : State) : Proceeds (fixed s) (execPkgResetPin s) := by
  unfold execPkgResetPin; split <;> simp

theorem proceeds_execPkgResetNRelease (s : State) : Proceeds (fixed s) (execPkgResetNRelease s) := by
  unfold execPkgResetNRelease; simp

theorem proceeds_execPowerOn (s : State) : Proceeds (fixed s) (execPowerOn s) := by
  unfold execPowerOn
  refine proceeds_next.mpr ?_
  split
  · exact onward_clock (Onward.refl (fixed s)) 0 0 s.canvasNext
  · exact Onward.refl _

theorem proceeds_execRailBelowWarning (rail : Rail) (s : State) (reading : RailReading) :
    Proceeds (fixed s) (execRailBelowWarning rail s reading) := by
  unfold execRailBelowWarning; (repeat' split) <;> simp

theorem proceeds_execDipRecordWritten (s : State) : Proceeds (fixed s) (execDipRecordWritten s) := by
  unfold execDipRecordWritten; split <;> simp

theorem proceeds_execRailRecovered (rail : Rail) (s : State) (reading : RailReading) :
    Proceeds (fixed s) (execRailRecovered rail s reading) := by
  unfold execRailRecovered; split <;> simp

theorem proceeds_execRailBelowReset (rail : Rail) (s : State) (reading : RailReading) :
    Proceeds (fixed s) (execRailBelowReset rail s reading) := by
  unfold execRailBelowReset; (repeat' split) <;> simp

theorem proceeds_execJunctionReading (sl : Slice) (celsius : Int) (s : State) :
    Proceeds (fixed s) (execJunctionReading sl celsius s) := by
  unfold execJunctionReading; dsimp only; (repeat' split) <;> simp

theorem proceeds_execUpntCommit (ag : Agent) (s : State) : Proceeds (fixed s) (execUpntCommit ag s) := by
  unfold execUpntCommit; simp

theorem proceeds_execUpntCommitKeys (ag : Agent) (s : State) :
    Proceeds (fixed s) (execUpntCommitKeys ag s) := by
  unfold execUpntCommitKeys; simp

theorem proceeds_execCommitDone (ok : Bool) (s : State) : Proceeds (fixed s) (execCommitDone ok s) := by
  unfold execCommitDone; split <;> simp

theorem proceeds_execUpntDipClr (ag : Agent) (s : State) : Proceeds (fixed s) (execUpntDipClr ag s) := by
  unfold execUpntDipClr; simp

theorem proceeds_execLifeTransition (ag : Agent) (confirm : BitVec 16) (target : Fin 8) (s : State) :
    Proceeds (fixed s) (execLifeTransition ag confirm target s) := by
  unfold execLifeTransition
  refine proceeds_next.mpr (onward_writeBy _ _ _ _ _ (fun u => ?_) (Onward.refl _))
  split <;> simp

theorem proceeds_execAdvanceFloor (ag : Agent) (s : State) : Proceeds (fixed s) (execAdvanceFloor ag s) := by
  unfold execAdvanceFloor
  refine proceeds_next.mpr (onward_writeBy _ _ _ _ _ (fun u => ?_) (Onward.refl _))
  split <;> simp

theorem proceeds_execRelock (ag : Agent) (s : State) : Proceeds (fixed s) (execRelock ag s) := by
  unfold execRelock; simp

theorem proceeds_execUnlockReq (challenge : BitVec 384) (s : State) :
    Proceeds (fixed s) (execUnlockReq challenge s) := by
  unfold execUnlockReq; simp

theorem proceeds_execUnlockSubmit (s : State) : Proceeds (fixed s) (execUnlockSubmit s) := by
  unfold execUnlockSubmit; simp

theorem proceeds_execBank7WipeDone (p : Slice) (s : State) : Proceeds (fixed s) (execBank7WipeDone p s) := by
  unfold execBank7WipeDone; split <;> simp

theorem proceeds_execTamperSense (i : Fin 6) (s : State) : Proceeds (fixed s) (execTamperSense i s) := by
  unfold execTamperSense; split <;> simp

theorem proceeds_execTamperSenseEnd (i : Fin 6) (s : State) : Proceeds (fixed s) (execTamperSenseEnd i s) := by
  unfold execTamperSenseEnd; simp

theorem proceeds_execPrimeEnd (gesso : List GessoSlice) (slotA slotB : Image) (s : State) :
    Proceeds (fixed s) (execPrimeEnd gesso slotA slotB s) := by
  unfold execPrimeEnd; split <;> simp

theorem proceeds_execEaslHalt (p : Slice) (s : State) : Proceeds (fixed s) (execEaslHalt p s) := by
  unfold execEaslHalt
  exact proceeds_next.mpr (onward_easel _ _ (fun u => by simp) (Onward.refl _))

theorem proceeds_execHaltComplete (p : Slice) (s : State) : Proceeds (fixed s) (execHaltComplete p s) := by
  unfold execHaltComplete; simp

theorem proceeds_execEaslResume (p : Slice) (s : State) : Proceeds (fixed s) (execEaslResume p s) := by
  unfold execEaslResume; simp

theorem proceeds_execEaslDreset (p : Slice) (s : State) : Proceeds (fixed s) (execEaslDreset p s) := by
  unfold execEaslDreset
  exact proceeds_next.mpr (onward_easel _ _ (fun u => by simp) (Onward.refl _))

theorem proceeds_execEaslStep (thread : Fin 16) (irq : Bool) (count : BitVec 30) (s : State) :
    Proceeds (fixed s) (execEaslStep thread irq count s) := by
  unfold execEaslStep; simp

theorem proceeds_execStepEnd (p : Slice) (s : State) : Proceeds (fixed s) (execStepEnd p s) := by
  unfold execStepEnd; dsimp only; (repeat' split) <;> simp

theorem proceeds_execEaslTregWrite (data : Word) (s : State) :
    Proceeds (fixed s) (execEaslTregWrite data s) := by
  unfold execEaslTregWrite
  exact proceeds_next.mpr (onward_easel _ _ (fun u => by simp) (Onward.refl _))

theorem proceeds_execEaslInject (data : Word) (s : State) : Proceeds (fixed s) (execEaslInject data s) := by
  unfold execEaslInject; simp

theorem proceeds_execTapReset (s : State) : Proceeds (fixed s) (execTapReset s) := by
  unfold execTapReset; simp

theorem proceeds_execExtest (s : State) (scan : Scan) : Proceeds (fixed s) (execExtest s scan) := by
  unfold execExtest; simp

theorem proceeds_execIdcode (s : State) : Proceeds (fixed s) (execIdcode s) := by
  unfold execIdcode; simp

theorem proceeds_execSamplePreload (s : State) (scan : Scan) :
    Proceeds (fixed s) (execSamplePreload s scan) := by
  unfold execSamplePreload; simp

theorem proceeds_execClamp (s : State) (board : BitVec 492) : Proceeds (fixed s) (execClamp s board) := by
  unfold execClamp; simp

theorem proceeds_execHighz (s : State) (board : BitVec 492) : Proceeds (fixed s) (execHighz s board) := by
  unfold execHighz; simp

theorem proceeds_execBypass (s : State) : Proceeds (fixed s) (execBypass s) := by
  unfold execBypass; simp

theorem proceeds_execTimedWriteDue (queue : Fin 9) (s : State) :
    Proceeds (fixed s) (execTimedWriteDue queue s) := by
  unfold execTimedWriteDue; split <;> simp

theorem proceeds_execUpdatePointApply (page : Page) (s : State) :
    Proceeds (fixed s) (execUpdatePointApply page s) := by
  unfold execUpdatePointApply; dsimp only; (repeat' split) <;> simp

theorem proceeds_execTransferReady (n : Nat) (s : State) : Proceeds (fixed s) (execTransferReady n s) := by
  unfold execTransferReady; (repeat' split) <;> simp

theorem proceeds_execRegisterWrite (ag : Agent) (page : Page) (off : Fin 512) (data : Word) (s : State) :
    Proceeds (fixed s) (execRegisterWrite ag page off data s) := by
  unfold execRegisterWrite; simp

theorem proceeds_execEventSet (ag : Agent) (page : Page) (mask : Word) (s : State) :
    Proceeds (fixed s) (execEventSet ag page mask s) := by
  unfold execEventSet; simp

theorem proceeds_execLockCfg (ag : Agent) (page : Page) (s : State) :
    Proceeds (fixed s) (execLockCfg ag page s) := by
  unfold execLockCfg
  refine proceeds_next.mpr (onward_writeBy _ _ _ _ _ (fun u => ?_) (Onward.refl _))
  dsimp only
  split <;> simp

theorem proceeds_execDmaElementDone (p : Slice) (c : Fin 32) (env : MemEnv) (beyond : Fin 16) (s : State) :
    Proceeds (fixed s) (execDmaElementDone p c env beyond s) := by
  unfold execDmaElementDone
  dsimp only
  split
  · simp
  have he := goes_dmaElement (s.strike p env.upsets) p c 0 env (Onward.refl _)
  rw [fixed_strike] at he
  refine proceeds_next.mpr ?_
  split
  · simp
  · next which cause addr u hr =>
    have hu := he.1 _ _ _ _ hr
    split
    · simp [hu]
    · exact hu
  · next u hr =>
    have hu := he.2 _ hr
    split
    · exact hu
    · simp [hu]

theorem proceeds_execDeviceLoadResponse (t : Tid) (noData : Bool) (s : State) :
    Proceeds (fixed s) (execDeviceLoadResponse t noData s) := by
  unfold execDeviceLoadResponse; (repeat' split) <;> simp

theorem proceeds_execEaselAccess (dr : BitVec 128) (s : State) : Proceeds (fixed s) (execEaselAccess dr s) := by
  unfold execEaselAccess; simp

theorem proceeds_execEaselAccessDone (s : State) : Proceeds (fixed s) (execEaselAccessDone s) := by
  unfold execEaselAccessDone; (repeat' split) <;> simp

/-- Every command goes on to a state that is onward: none stops. -/
theorem proceeds_exec (c : Instr) (s : State) : Proceeds (fixed s) (exec c s) := by
  match c with
  | .registerWrite ag page off data => exact proceeds_execRegisterWrite ag page off data s
  | .eventSet ag page mask => exact proceeds_execEventSet ag page mask s
  | .lockCfg ag page => exact proceeds_execLockCfg ag page s
  | .transferReady n => exact proceeds_execTransferReady n s
  | .timedWriteDue queue => exact proceeds_execTimedWriteDue queue s
  | .updatePointApply page => exact proceeds_execUpdatePointApply page s
  | .twqClr ag queue => exact proceeds_execTwqClr ag queue s
  | .canvStep delta => exact proceeds_execCanvStep delta s
  | .canvAlarmFire ix => exact proceeds_execCanvAlarmFire ix s
  | .syncFrameReceived frame sub => exact proceeds_execSyncFrameReceived frame sub s
  | .ptpSyncMessage p port ns sub => exact proceeds_execPtpSyncMessage p port ns sub s
  | .syncSourceLost => exact proceeds_execSyncSourceLost s
  | .syncSourceReturn => exact proceeds_execSyncSourceReturn s
  | .fadcSample sl c nanovolts => exact proceeds_execFadcSample sl c nanovolts s
  | .fadcCalStart ag sl c => exact proceeds_execFadcCalStart ag sl c s
  | .fadcCalDone sl c gain offset => exact proceeds_execFadcCalDone sl c gain offset s
  | .fadcTrigFire sl c => exact proceeds_execFadcTrigFire sl c s
  | .streamPayload sl c accepted => exact proceeds_execStreamPayload sl c accepted s
  | .fadcRingDroppedClr ag sl c => exact proceeds_execFadcRingDroppedClr ag sl c s
  | .madcConversionEnd sl nanovolts => exact proceeds_execMadcConversionEnd sl nanovolts s
  | .comparatorCrossing sl c nanovolts held sub => exact proceeds_execComparatorCrossing sl c nanovolts held sub s
  | .wcmpCheckStart ag sl c => exact proceeds_execWcmpCheckStart ag sl c s
  | .checkStep sl c above below => exact proceeds_execCheckStep sl c above below s
  | .checkDone sl c => exact proceeds_execCheckDone sl c s
  | .sweepGo sl => exact proceeds_execSweepGo sl s
  | .sweepStep sl => exact proceeds_execSweepStep sl s
  | .sweepEnd sl => exact proceeds_execSweepEnd sl s
  | .sweepStop ag sl => exact proceeds_execSweepStop ag sl s
  | .pwmStart sl p => exact proceeds_execPwmStart sl p s
  | .pwmStop sl p => exact proceeds_execPwmStop sl p s
  | .pwmpWrap sl p => exact proceeds_execPwmpWrap sl p s
  | .rawEdge sl p second rise => exact proceeds_execRawEdge sl p second rise s
  | .deadTimeExpiry sl p out => exact proceeds_execDeadTimeExpiry sl p out s
  | .minPulseExpiry sl p out => exact proceeds_execMinPulseExpiry sl p out s
  | .pwmpClrCounts ag sl p => exact proceeds_execPwmpClrCounts ag sl p s
  | .stippleCalibration sl taps lines => exact proceeds_execStippleCalibration sl taps s lines
  | .tripSourceActive sl src sub => exact proceeds_execTripSourceActive sl src sub s
  | .blankingClose sl p => exact proceeds_execBlankingClose sl p s
  | .tripClearPair sl p => exact proceeds_execTripClearPair sl p s
  | .clearPendingComplete sl p => exact proceeds_execClearPendingComplete sl p s
  | .voteDisagree sl copy latches cbc => exact proceeds_execVoteDisagree sl copy s latches cbc
  | .voteClr ag sl => exact proceeds_execVoteClr ag sl s
  | .countClr ag sl => exact proceeds_execCountClr ag sl s
  | .canvasClockLoss sl => exact proceeds_execCanvasClockLoss sl s
  | .canvasClockReturn sl => exact proceeds_execCanvasClockReturn sl s
  | .loopEvaluation sl n upset => exact proceeds_execLoopEvaluation sl n upset s
  | .loopClose sl n => exact proceeds_execLoopClose sl n s
  | .loopOpen sl n => exact proceeds_execLoopOpen sl n s
  | .loopClrCounts ag sl n => exact proceeds_execLoopClrCounts ag sl n s
  | .lengClr ag sl g => exact proceeds_execLengClr ag sl g s
  | .nop t => exact proceeds_execNop t s
  | .dup t => exact proceeds_execDup t s
  | .drop t => exact proceeds_execDrop t s
  | .swap t => exact proceeds_execSwap t s
  | .over t => exact proceeds_execOver t s
  | .rot t => exact proceeds_execRot t s
  | .pick t n => exact proceeds_execPick t n s
  | .roll t n => exact proceeds_execRoll t n s
  | .dropn t n => exact proceeds_execDropn t n s
  | .depth t => exact proceeds_execDepth t s
  | .litS t imm => exact proceeds_execLitS t imm s
  | .litU t imm => exact proceeds_execLitU t imm s
  | .litR t imm => exact proceeds_execLitR t imm s
  | .litF t imm => exact proceeds_execLitF t imm s
  | .litC t disp => exact proceeds_execLitC t disp s
  | .litV t => exact proceeds_execLitV t s
  | .add t => exact proceeds_execAdd t s
  | .sub t => exact proceeds_execSub t s
  | .neg t => exact proceeds_execNeg t s
  | .abs t => exact proceeds_execAbs t s
  | .min t => exact proceeds_execMin t s
  | .max t => exact proceeds_execMax t s
  | .mul t => exact proceeds_execMul t s
  | .mulh t => exact proceeds_execMulh t s
  | .div t => exact proceeds_execDiv t s
  | .rem t => exact proceeds_execRem t s
  | .and t => exact proceeds_execAnd t s
  | .or t => exact proceeds_execOr t s
  | .xor t => exact proceeds_execXor t s
  | .not t => exact proceeds_execNot t s
  | .shl t => exact proceeds_execShl t s
  | .shr t => exact proceeds_execShr t s
  | .sar t => exact proceeds_execSar t s
  | .shli t n => exact proceeds_execShli t n s
  | .shri t n => exact proceeds_execShri t n s
  | .sari t n => exact proceeds_execSari t n s
  | .eq t => exact proceeds_execEq t s
  | .ne t => exact proceeds_execNe t s
  | .lt t => exact proceeds_execLt t s
  | .le t => exact proceeds_execLe t s
  | .eqz t => exact proceeds_execEqz t s
  | .fadd t => exact proceeds_execFadd t s
  | .fsub t => exact proceeds_execFsub t s
  | .fmul t => exact proceeds_execFmul t s
  | .fdiv t => exact proceeds_execFdiv t s
  | .fsqrt t => exact proceeds_execFsqrt t s
  | .fneg t => exact proceeds_execFneg t s
  | .fabs t => exact proceeds_execFabs t s
  | .feq t => exact proceeds_execFeq t s
  | .flt t => exact proceeds_execFlt t s
  | .fle t => exact proceeds_execFle t s
  | .cvtIf t => exact proceeds_execCvtIf t s
  | .cvtFi t => exact proceeds_execCvtFi t s
  | .cvtXf t => exact proceeds_execCvtXf t s
  | .retag t tag => exact proceeds_execRetag t tag s
  | .sat t n => exact proceeds_execSat t n s
  | .align t f => exact proceeds_execAlign t f s
  | .br t disp => exact proceeds_execBr t disp s
  | .bz t disp => exact proceeds_execBz t disp s
  | .bnz t disp => exact proceeds_execBnz t disp s
  | .jmp t => exact proceeds_execJmp t s
  | .call t disp a r => exact proceeds_execCall t disp a r s
  | .calli t a r => exact proceeds_execCalli t a r s
  | .ret t => exact proceeds_execRet t s
  | .reti t => exact proceeds_execReti t s
  | .ldT t disp env => exact proceeds_execLdT t disp env s
  | .ldR t disp env => exact proceeds_execLdR t disp env s
  | .ldS32 t disp env => exact proceeds_execLdS32 t disp env s
  | .ldU32 t disp env => exact proceeds_execLdU32 t disp env s
  | .ldS16 t disp env => exact proceeds_execLdS16 t disp env s
  | .ldU16 t disp env => exact proceeds_execLdU16 t disp env s
  | .ldS8 t disp env => exact proceeds_execLdS8 t disp env s
  | .ldU8 t disp env => exact proceeds_execLdU8 t disp env s
  | .stT t disp env => exact proceeds_execStT t disp env s
  | .stR t disp env => exact proceeds_execStR t disp env s
  | .st32 t disp env => exact proceeds_execSt32 t disp env s
  | .st16 t disp env => exact proceeds_execSt16 t disp env s
  | .st8 t disp env => exact proceeds_execSt8 t disp env s
  | .stt t disp => exact proceeds_execStt t disp s
  | .aadd t disp env => exact proceeds_execAadd t disp env s
  | .aswap t disp env => exact proceeds_execAswap t disp env s
  | .srr t num => exact proceeds_execSrr t num s
  | .srw t num => exact proceeds_execSrw t num s
  | .tag t => exact proceeds_execTag t s
  | .tagset t tag => exact proceeds_execTagset t tag s
  | .ptrr t mask => exact proceeds_execPtrr t mask s
  | .wfe t => exact proceeds_execWfe t s
  | .fence t => exact proceeds_execFence t s
  | .yield t => exact proceeds_execYield t s
  | .syscall t n => exact proceeds_execSyscall t n s
  | .trap t n => exact proceeds_execTrap t n s
  | .brk t => exact proceeds_execBrk t s
  | .bmove t env => exact proceeds_execBmove t env s
  | .bfill t env => exact proceeds_execBfill t env s
  | .dotx t env => exact proceeds_execDotx t env s
  | .crc32 t env => exact proceeds_execCrc32 t env s
  | .cacheFillComplete t => exact proceeds_execCacheFillComplete t s
  | .deviceLoadResponse t noData => exact proceeds_execDeviceLoadResponse t noData s
  | .storeResponse t => exact proceeds_execStoreResponse t s
  | .faultEntry t upsets => exact proceeds_execFaultEntry t upsets s
  | .lockstepMismatch p core thread output => exact proceeds_execLockstepMismatch p core thread output s
  | .eventArrival n => exact proceeds_execEventArrival n s
  | .interruptPresentation t upsets => exact proceeds_execInterruptPresentation t upsets s
  | .evcClaim t => exact proceeds_execEvcClaim t s
  | .evcComplete t => exact proceeds_execEvcComplete t s
  | .evcClr ag p => exact proceeds_execEvcClr ag p s
  | .watcherWake p => exact proceeds_execWatcherWake p s
  | .eventPinChange pin low => exact proceeds_execEventPinChange pin low s
  | .coreClrCore t => exact proceeds_execCoreClrCore t s
  | .coreClrThread t => exact proceeds_execCoreClrThread t s
  | .scrPowerWrite ag p data => exact proceeds_execScrPowerWrite ag p data s
  | .bankPowerDone p b => exact proceeds_execBankPowerDone p b s
  | .scrWipe ag p => exact proceeds_execScrWipe ag p s
  | .bank7WipeDone p => exact proceeds_execBank7WipeDone p s
  | .scrClr ag p => exact proceeds_execScrClr ag p s
  | .dramReadComplete p line errs => exact proceeds_execDramReadComplete p line errs s
  | .poisonedEviction p line => exact proceeds_execPoisonedEviction p line s
  | .dramInitDone p => exact proceeds_execDramInitDone p s
  | .dramRefresh p doubled => exact proceeds_execDramRefresh p doubled s
  | .patrolScrubRead p errs => exact proceeds_execPatrolScrubRead p errs s
  | .writeTimingAdjust p outOfRange => exact proceeds_execWriteTimingAdjust p outOfRange s
  | .ddrcPprGo ag p => exact proceeds_execDdrcPprGo ag p s
  | .pprDone p ok => exact proceeds_execPprDone p ok s
  | .ddrcClrDev ag p => exact proceeds_execDdrcClrDev ag p s
  | .ddrcClrCounts ag p => exact proceeds_execDdrcClrCounts ag p s
  | .dmaStart ag p c => exact proceeds_execDmaStart ag p c s
  | .dmaPause ag p c inFlight => exact proceeds_execDmaPause ag p c inFlight s
  | .dmaResume ag p c => exact proceeds_execDmaResume ag p c s
  | .dmaElementDone p c env beyond => exact proceeds_execDmaElementDone p c env beyond s
  | .dmaAlloc ag p => exact proceeds_execDmaAlloc ag p s
  | .dmaFree ag p c => exact proceeds_execDmaFree ag p c s
  | .dmaAllocRefusedClr ag p => exact proceeds_execDmaAllocRefusedClr ag p s
  | .dmaCollClr ag p c => exact proceeds_execDmaCollClr ag p c s
  | .tmrStep p n => exact proceeds_execTmrStep p n s
  | .tmrStart ag p n => exact proceeds_execTmrStart ag p n s
  | .tmrStop ag p n => exact proceeds_execTmrStop ag p n s
  | .tmrGstart ag p mask => exact proceeds_execTmrGstart ag p mask s
  | .tmrGstop ag p mask => exact proceeds_execTmrGstop ag p mask s
  | .captureEdge p n rise => exact proceeds_execCaptureEdge p n rise s
  | .timerCapture p n => exact proceeds_execTimerCapture p n s
  | .tmrCapRead ag p n => exact proceeds_execTmrCapRead ag p n s
  | .ratioMeasurement p ratio => exact proceeds_execRatioMeasurement p ratio s
  | .stencilRowEnd sl e pins => exact proceeds_execStencilRowEnd sl e pins s
  | .stenStart sl e => exact proceeds_execStenStart sl e s
  | .stenStop sl e => exact proceeds_execStenStop sl e s
  | .stenClrFifo ag sl e => exact proceeds_execStenClrFifo ag sl e s
  | .stenTxfWrite sl e word => exact proceeds_execStenTxfWrite sl e word s
  | .stenRxfRead ag sl e => exact proceeds_execStenRxfRead ag sl e s
  | .stenRowWrite sl e r data => exact proceeds_execStenRowWrite sl e r data s
  | .stenGstart sl mask => exact proceeds_execStenGstart sl mask s
  | .stenGstop sl mask => exact proceeds_execStenGstop sl mask s
  | .stenGclk sl mask => exact proceeds_execStenGclk sl mask s
  | .intentFrameReceived p port tag bytes => exact proceeds_execIntentFrameReceived p port tag bytes s
  | .tokenRefill p ix => exact proceeds_execTokenRefill p ix s
  | .intentMessageTaken p => exact proceeds_execIntentMessageTaken p s
  | .partnerSilence p ix => exact proceeds_execPartnerSilence p ix s
  | .quarClear ag p ix => exact proceeds_execQuarClear ag p ix s
  | .partnerValidChange ag p ix valid => exact proceeds_execPartnerValidChange ag p ix valid s
  | .intnClr ag p => exact proceeds_execIntnClr ag p s
  | .linkStateChange p n link => exact proceeds_execLinkStateChange p n link s
  | .rxFrame p n frame => exact proceeds_execRxFrame p n frame s
  | .txRecord p n => exact proceeds_execTxRecord p n s
  | .txFrameSent p n cut => exact proceeds_execTxFrameSent p n s cut
  | .gclChange ag p n => exact proceeds_execGclChange ag p n s
  | .gclChangeApplied p n gptp => exact proceeds_execGclChangeApplied p n gptp s
  | .gateEntryExpiry p n gptp => exact proceeds_execGateEntryExpiry p n s gptp
  | .preemptVerifyDone p n ok => exact proceeds_execPreemptVerifyDone p n ok s
  | .saLoadGo ag p n => exact proceeds_execSaLoadGo ag p n s
  | .saLoadDone p n => exact proceeds_execSaLoadDone p n s
  | .ethClr ag p n => exact proceeds_execEthClr ag p n s
  | .fabClr ag p => exact proceeds_execFabClr ag p s
  | .fabricLinkError p link => exact proceeds_execFabricLinkError p link s
  | .epochBoundary p => exact proceeds_execEpochBoundary p s
  | .checkpointClose p => exact proceeds_execCheckpointClose p s
  | .jrnlEnable ag p en => exact proceeds_execJrnlEnable ag p en s
  | .jrnlClr ag p => exact proceeds_execJrnlClr ag p s
  | .hovrKick ag sl => exact proceeds_execHovrKick ag sl s
  | .watchdogExpiry sl => exact proceeds_execWatchdogExpiry sl s
  | .threadRestore sl => exact proceeds_execThreadRestore sl s
  | .threadThrough sl u => exact proceeds_execThreadThrough sl u s
  | .hovrAdopt sl => exact proceeds_execHovrAdopt sl s
  | .hovrPlanned sl => exact proceeds_execHovrPlanned sl s
  | .hovrRelease ag sl => exact proceeds_execHovrRelease ag sl s
  | .hovrReturn sl => exact proceeds_execHovrReturn sl s
  | .returnComplete sl => exact proceeds_execReturnComplete sl s
  | .modeCommission tgt => exact proceeds_execModeCommission tgt s
  | .modeRun tgt => exact proceeds_execModeRun tgt s
  | .modeHold tgt => exact proceeds_execModeHold tgt s
  | .modeRest tgt => exact proceeds_execModeRest tgt s
  | .modeWarm ag sl => exact proceeds_execModeWarm ag sl s
  | .panelWarmResetDone p => exact proceeds_execPanelWarmResetDone p s
  | .threadResetStop ag sl mask => exact proceeds_execThreadResetStop ag sl mask s
  | .threadResetStart ag sl mask => exact proceeds_execThreadResetStart ag sl mask s
  | .pkgResetCmd ag code => exact proceeds_execPkgResetCmd ag code s
  | .pkgResetPin => exact proceeds_execPkgResetPin s
  | .powerOn => exact proceeds_execPowerOn s
  | .primeEnd gesso slotA slotB => exact proceeds_execPrimeEnd gesso slotA slotB s
  | .railBelowWarning rail reading => exact proceeds_execRailBelowWarning rail s reading
  | .dipRecordWritten => exact proceeds_execDipRecordWritten s
  | .railRecovered rail reading => exact proceeds_execRailRecovered rail s reading
  | .railBelowReset rail reading => exact proceeds_execRailBelowReset rail s reading
  | .junctionReading sl celsius => exact proceeds_execJunctionReading sl celsius s
  | .upntCommit ag => exact proceeds_execUpntCommit ag s
  | .upntCommitKeys ag => exact proceeds_execUpntCommitKeys ag s
  | .commitDone ok => exact proceeds_execCommitDone ok s
  | .upntDipClr ag => exact proceeds_execUpntDipClr ag s
  | .lifeTransition ag confirm target => exact proceeds_execLifeTransition ag confirm target s
  | .advanceFloor ag => exact proceeds_execAdvanceFloor ag s
  | .relock ag => exact proceeds_execRelock ag s
  | .unlockReq challenge => exact proceeds_execUnlockReq challenge s
  | .unlockSubmit => exact proceeds_execUnlockSubmit s
  | .tamperSense ix => exact proceeds_execTamperSense ix s
  | .tapReset => exact proceeds_execTapReset s
  | .extest scan => exact proceeds_execExtest s scan
  | .idcode => exact proceeds_execIdcode s
  | .samplePreload scan => exact proceeds_execSamplePreload s scan
  | .clamp board => exact proceeds_execClamp s board
  | .highz board => exact proceeds_execHighz s board
  | .bypass => exact proceeds_execBypass s
  | .easelAccess dr => exact proceeds_execEaselAccess dr s
  | .easlHalt p => exact proceeds_execEaslHalt p s
  | .haltComplete p => exact proceeds_execHaltComplete p s
  | .easlStep thread irq count => exact proceeds_execEaslStep thread irq count s
  | .stepEnd p => exact proceeds_execStepEnd p s
  | .easlResume p => exact proceeds_execEaslResume p s
  | .easlDreset p => exact proceeds_execEaslDreset p s
  | .easlTregWrite data => exact proceeds_execEaslTregWrite data s
  | .easlInject data => exact proceeds_execEaslInject data s
  | .restEntryComplete sl => exact proceeds_execRestEntryComplete sl s
  | .remoteDramResponse t failed => exact proceeds_execRemoteDramResponse t failed s
  | .tripPinInactive sl pin => exact proceeds_execTripPinInactive sl pin s
  | .tamperSenseEnd ix => exact proceeds_execTamperSenseEnd ix s
  | .pkgResetNRelease => exact proceeds_execPkgResetNRelease s
  | .easelAccessDone => exact proceeds_execEaselAccessDone s
  | .ptpIntervalExpiry p n pdelay => exact proceeds_execPtpIntervalExpiry p n pdelay s
  | .pdelayResponse p n ps => exact proceeds_execPdelayResponse p n ps s

theorem onward_of_step {s t : State} (h : step s = .next t) :
    Onward { fixed s with pending := s.pending.tail } (fixed t) := by
  unfold step at h
  split at h
  · next c rest hp =>
    obtain ⟨u, hu, hon⟩ := proceeds_exec c { s with pending := rest }
    obtain rfl : u = t := Host.Outcome.next.inj (hu.symm.trans h)
    rw [hp]
    exact hon
  · next hp =>
    obtain rfl : s.tick = t := Host.Outcome.next.inj h
    have hsame : { fixed s with pending := s.pending.tail } = fixed s := by
      have hnil : (fixed s).pending = [] := hp
      rw [hp, List.tail_nil, ← hnil]
    rw [hsame]
    exact onward_tick s (Onward.refl _)

/-- Settles O3: every command and the tick keep the fuses legal and take them forward (`onward_of_step`), with what a
transition in progress will burn in the invariant. -/
theorem fusesOnlyGoForward : Obligations.FusesOnlyGoForward := by
  unfold Obligations.FusesOnlyGoForward
  intro s t hs hstep
  obtain ⟨hvariant, hpending, hlegal, _⟩ := onward_of_step hstep
  obtain ⟨ht, hreach⟩ := hlegal hs
  exact ⟨ht, hreach, hvariant, hpending⟩

/-- Settles O4: memory is written through `Store.write` and filtered only (`onward_of_step`). -/
theorem memoryStaysCanonical : Obligations.MemoryStaysCanonical := by
  unfold Obligations.MemoryStaysCanonical
  intro s t hs hstep
  obtain ⟨_, _, _, hcanonical⟩ := onward_of_step hstep
  exact hcanonical hs

/-- Settles O60: every command has a next state (`proceeds_exec`). -/
theorem everyCommandCompletes : Obligations.EveryCommandCompletes := by
  unfold Obligations.EveryCommandCompletes Completes
  intro c s
  obtain ⟨t, ht, _⟩ := proceeds_exec c s
  exact ⟨t, ht⟩

end Sys2Proof.Proofs
end

section
/-! PROOFS. The rules of registers and events: what a field reads after a write of its own and of another field, and what
an event that occurs changes. -/

namespace Sys2Proof.Proofs

open Sys2Proof Sys2Proof.Machine

/-! ### Bits of a register -/

theorem testBit_bits (w : Word) (hi lo j : Nat) :
    (bits w hi lo).testBit j = (decide (j < hi + 1 - lo) && w.getLsbD (lo + j)) := by
  unfold bits
  rw [Nat.testBit_mod_two_pow, Nat.testBit_shiftRight, BitVec.testBit_toNat]

/-- A number with `k` bits from `lo` on taken out and others put in. -/
theorem testBit_replace (x lo k v i : Nat) :
    (x - (x >>> lo % 2 ^ k) * 2 ^ lo + (v % 2 ^ k) * 2 ^ lo).testBit i
      = if lo ≤ i ∧ i < lo + k then v.testBit (i - lo) else x.testBit i := by
  have hx : x = 2 ^ lo * (2 ^ k * (x >>> lo / 2 ^ k) + x >>> lo % 2 ^ k) + x % 2 ^ lo := by
    rw [Nat.div_add_mod, Nat.shiftRight_eq_div_pow, Nat.div_add_mod]
  have hmod : x % 2 ^ lo < 2 ^ lo := Nat.mod_lt _ (Nat.two_pow_pos lo)
  have hq : x >>> lo % 2 ^ k < 2 ^ k := Nat.mod_lt _ (Nat.two_pow_pos k)
  have hv : v % 2 ^ k < 2 ^ k := Nat.mod_lt _ (Nat.two_pow_pos k)
  generalize hA : x >>> lo / 2 ^ k = A at hx
  generalize hQ : x >>> lo % 2 ^ k = Q at hx hq ⊢
  generalize hB : x % 2 ^ lo = B at hx hmod
  have hsum : x - Q * 2 ^ lo + (v % 2 ^ k) * 2 ^ lo = 2 ^ lo * (2 ^ k * A + v % 2 ^ k) + B := by
    rw [hx]
    ring_nf
    omega
  rw [hsum, hx]
  by_cases h : i < lo
  · rw [Nat.testBit_two_pow_mul_add _ hmod, Nat.testBit_two_pow_mul_add _ hmod, if_pos h, if_pos h, if_neg (by omega)]
  · rw [Nat.testBit_two_pow_mul_add _ hmod, Nat.testBit_two_pow_mul_add _ hmod, if_neg h, if_neg h,
      Nat.testBit_two_pow_mul_add _ hv, Nat.testBit_two_pow_mul_add _ hq]
    by_cases h2 : i - lo < k
    · rw [if_pos h2, if_pos (by omega), Nat.testBit_mod_two_pow]
      simp [h2]
    · rw [if_neg h2, if_neg h2, if_neg (by omega)]

theorem getLsbD_putBits (w : Word) (hi lo v i : Nat) (hhi : hi < 64) (hlo : lo ≤ hi) :
    (putBits w hi lo v).getLsbD i = if lo ≤ i ∧ i ≤ hi then v.testBit (i - lo) else w.getLsbD i := by
  unfold putBits
  rw [BitVec.getLsbD_ofNat, testBit_replace]
  split
  · rw [if_pos (by omega), decide_eq_true (by omega), Bool.true_and]
  · rw [if_neg (by omega)]
    by_cases h : i < 64
    · simp [h, BitVec.testBit_toNat]
    · simp [h, BitVec.getLsbD_of_ge w i (by omega)]

/-- What a field holds after it is written. -/
theorem bits_putBits_self (w : Word) {hi lo : Nat} (v : Nat) (hhi : hi < 64) (hlo : lo ≤ hi) :
    bits (putBits w hi lo v) hi lo = v % 2 ^ (hi + 1 - lo) := by
  refine Nat.eq_of_testBit_eq fun j => ?_
  rw [testBit_bits, getLsbD_putBits w hi lo v _ hhi hlo, Nat.testBit_mod_two_pow]
  by_cases h : j < hi + 1 - lo
  · rw [if_pos (by omega), Nat.add_sub_cancel_left]
  · simp [h]

/-- A field that shares no bit with the one written stands. -/
theorem bits_putBits_of_disjoint (w : Word) {hi lo hi' lo' : Nat} (v : Nat) (hhi : hi < 64) (hlo : lo ≤ hi)
    (h : hi' < lo ∨ hi < lo') : bits (putBits w hi lo v) hi' lo' = bits w hi' lo' := by
  refine Nat.eq_of_testBit_eq fun j => ?_
  rw [testBit_bits, testBit_bits, getLsbD_putBits w hi lo v _ hhi hlo]
  by_cases hj : j < hi' + 1 - lo'
  · rw [if_neg (by omega)]
  · simp [hj]

/-! ### Registers -/

theorem regKey_ne {q o pk off : Nat} (ho : o < 4096) (hoff : off < 4096) (h : (q, o) ≠ (pk, off)) :
    regKey q o ≠ regKey pk off := by
  unfold regKey
  intro heq
  obtain ⟨rfl, rfl⟩ : q = pk ∧ o = off := by omega
  exact h rfl

@[simp] theorem reg_setReg_self (s : State) (pk off : Nat) (v : Word) : (s.setReg pk off v).reg pk off = v := by
  unfold State.reg State.setReg
  exact Laws.read_write_self ..

theorem reg_setReg_ne (s : State) {q o pk off : Nat} (v : Word) (ho : o < 4096) (hoff : off < 4096)
    (h : (q, o) ≠ (pk, off)) : (s.setReg pk off v).reg q o = s.reg q o := by
  unfold State.reg State.setReg
  exact Laws.read_write_ne _ _ _ _ _ _ (regKey_ne ho hoff h)

/-- The registers are what the store of registers says. -/
theorem reg_of_regs {s u : State} (h : u.regs = s.regs) (q o : Nat) : u.reg q o = s.reg q o := by
  unfold State.reg
  rw [h]

theorem fld_of_reg {s u : State} {pk : Nat} {f : Fld} (h : u.reg pk f.off = s.reg pk f.off) : u.fld pk f = s.fld pk f := by
  unfold State.fld
  rw [h]

theorem reg_setFld_self (s : State) (pk : Nat) (f : Fld) (v : Nat) :
    (s.setFld pk f v).reg pk f.off = putBits (s.reg pk f.off) f.hi f.lo v := by
  unfold State.setFld
  exact reg_setReg_self ..

theorem reg_setFld_ne (s : State) {q o pk : Nat} (f : Fld) (v : Nat) (ho : o < 4096) (hoff : f.off < 4096)
    (h : (q, o) ≠ (pk, f.off)) : (s.setFld pk f v).reg q o = s.reg q o := by
  unfold State.setFld
  exact reg_setReg_ne s _ ho hoff h

/-- A field of a register has at least one bit of the 64, and its register lies in the page. -/
def fits (f : Fld) : Bool := decide (f.hi < 64) && decide (f.lo ≤ f.hi) && decide (f.off < 4096)

theorem fits_iff (f : Fld) : fits f = true ↔ f.hi < 64 ∧ f.lo ≤ f.hi ∧ f.off < 4096 := by
  simp [fits, and_assoc]

/-- Two fields share no bit. -/
def apart (f g : Fld) : Bool := decide (f.off ≠ g.off) || decide (f.hi < g.lo) || decide (g.hi < f.lo)

theorem fld_setFld_self (s : State) (pk : Nat) {f : Fld} (v : Nat) (hf : fits f = true) :
    (s.setFld pk f v).fld pk f = v % 2 ^ (f.hi + 1 - f.lo) := by
  obtain ⟨hhi, hlo, _⟩ := (fits_iff f).mp hf
  unfold State.fld
  rw [reg_setFld_self, bits_putBits_self _ _ hhi hlo]

theorem fld_setFld_of_apart (s : State) (pk : Nat) {f g : Fld} (v : Nat) (hf : fits f = true) (hg : fits g = true)
    (h : apart f g = true) : (s.setFld pk f v).fld pk g = s.fld pk g := by
  obtain ⟨hhi, hlo, hoff⟩ := (fits_iff f).mp hf
  obtain ⟨_, _, hgoff⟩ := (fits_iff g).mp hg
  by_cases ho : f.off = g.off
  · unfold State.fld
    rw [← ho, reg_setFld_self]
    refine bits_putBits_of_disjoint _ _ hhi hlo ?_
    simp [apart, ho] at h
    omega
  · exact fld_of_reg (reg_setFld_ne s f v hgoff hoff fun he => ho (Prod.ext_iff.mp he).2.symm)

theorem fld_setFld_of_page (s : State) {pk q : Nat} {f g : Fld} (v : Nat) (hf : fits f = true) (hg : fits g = true)
    (h : q ≠ pk) : (s.setFld pk f v).fld q g = s.fld q g := by
  obtain ⟨_, _, hoff⟩ := (fits_iff f).mp hf
  obtain ⟨_, _, hgoff⟩ := (fits_iff g).mp hg
  exact fld_of_reg (reg_setFld_ne s f v hgoff hoff fun he => h (Prod.ext_iff.mp he).1)

/-! ### Events -/

theorem thread_setThread_of_key (s : State) (p t q i : Nat) (v : Thread) :
    (s.setThread p t v).thread q i = if q * 16 + i = p * 16 + t then v else s.thread q i := by
  unfold State.thread State.setThread
  split
  · next h => rw [h, Laws.read_write_self]
  · next h => exact Laws.read_write_ne _ _ _ _ _ _ h

/-- Nothing but threads differs, and of them no more than that they no longer park. -/
def OnlyWakes (s u : State) : Prop :=
  u = { s with threads := u.threads } ∧ ∀ p i, { u.thread p i with park := none } = { s.thread p i with park := none }

theorem OnlyWakes.refl (s : State) : OnlyWakes s s := ⟨rfl, fun _ _ => rfl⟩

theorem onlyWakes_endWait (s : State) (p t : Nat) : OnlyWakes s (s.endWait p t) := by
  unfold State.endWait
  split
  · refine ⟨rfl, fun q i => ?_⟩
    rw [thread_setThread_of_key]
    split
    · next h =>
      have hth : s.thread q i = s.thread p t := by
        unfold State.thread
        rw [h]
      rw [hth]
    · rfl
  · exact OnlyWakes.refl s

theorem onlyWakes_wakeWaiter (s : State) (p table src : Nat) : OnlyWakes s (s.wakeWaiter p table src) := by
  unfold State.wakeWaiter
  split
  · exact onlyWakes_endWait ..
  · exact OnlyWakes.refl s

/-- Nothing but the sources of events and what waits for them differs: of the threads no more than that they no longer
park. -/
def OnlyEvents (s u : State) : Prop :=
  u = { s with evArrived := u.evArrived, evPend := u.evPend, events := u.events, threads := u.threads }
  ∧ ∀ p i, { u.thread p i with park := none } = { s.thread p i with park := none }

theorem onlyEvents_arrive (s : State) (p table src : Nat) : OnlyEvents s (s.arrive p table src) := by
  have hwake {a e : Store Bool} {u : State} (h : OnlyWakes { s with evArrived := a, evPend := e } u) :
      OnlyEvents s u := by
    obtain ⟨heq, hth⟩ := h
    exact ⟨by rw [heq], hth⟩
  unfold State.arrive
  dsimp only
  split
  · split
    · exact ⟨rfl, fun _ _ => rfl⟩
    · exact hwake (onlyWakes_endWait ..)
  · exact hwake (e := s.evPend) (onlyWakes_wakeWaiter ..)

theorem onlyEvents_signal (s : State) (pk src : Nat) : OnlyEvents s (s.signal pk src) := by
  unfold State.signal
  split
  · exact ⟨rfl, fun _ _ => rfl⟩
  · dsimp only
    split
    · obtain ⟨heq, hth⟩ := onlyEvents_arrive
        { s with evArrived := Store.write false s.evArrived (evKey (s.holder pk) 0 src) false } (s.holder pk) 0 src
      exact ⟨by rw [heq], hth⟩
    · exact ⟨rfl, fun _ _ => rfl⟩

theorem onlyEvents_signalIf (s : State) (c : Prop) [Decidable c] (pk src : Nat) :
    OnlyEvents s (if c then s.signal pk src else s) := by
  split
  · exact onlyEvents_signal ..
  · exact ⟨rfl, fun _ _ => rfl⟩

/-- An event's bit of `EVENT` is set, and recorded as set in this tick. -/
def marked (s : State) (pk b : Nat) : State :=
  { s.setReg pk 0x020 (BitVec.ofNat 64 (putBit (s.reg pk 0x020).toNat b true)) with
    setNow := Store.write 0 s.setNow (regKey pk 0x020) (Store.read 0 s.setNow (regKey pk 0x020) ||| (1#64 <<< b)) }

/-- An event that occurs: its bit, and what the event controller makes of it; one without a source is none. -/
theorem raise_cases (s : State) (pk b : Nat) :
    (sourceOf pk b = none ∧ s.raise pk b = s)
      ∨ ((sourceOf pk b).isSome = true ∧ OnlyEvents (marked s pk b) (s.raise pk b)) := by
  unfold State.raise
  split
  · next h => exact .inl ⟨h, rfl⟩
  · next src h => exact .inr ⟨by simp [h], onlyEvents_signalIf ..⟩

theorem raise_eq (s : State) (pk b : Nat) :
    s.raise pk b = { s with
      regs := (s.raise pk b).regs, setNow := (s.raise pk b).setNow, evArrived := (s.raise pk b).evArrived,
      evPend := (s.raise pk b).evPend, events := (s.raise pk b).events, threads := (s.raise pk b).threads } := by
  rcases raise_cases s pk b with ⟨_, h⟩ | ⟨_, heq, _⟩
  · rw [h]
  · rw [heq]
    rfl

theorem raise_threads (s : State) (pk b p i : Nat) :
    { (s.raise pk b).thread p i with park := none } = { s.thread p i with park := none } := by
  rcases raise_cases s pk b with ⟨_, h⟩ | ⟨_, _, hth⟩
  · rw [h]
  · exact hth p i

theorem raise_regs (s : State) (pk b : Nat) :
    (s.raise pk b).regs = if (sourceOf pk b).isSome then
      (s.setReg pk 0x020 (BitVec.ofNat 64 (putBit (s.reg pk 0x020).toNat b true))).regs else s.regs := by
  rcases raise_cases s pk b with ⟨hn, h⟩ | ⟨hs, heq, _⟩
  · simp [h, hn]
  · rw [if_pos hs]
    exact (congrArg State.regs heq).trans rfl

theorem ofNat_putBit_true (w : Word) (b : Nat) :
    BitVec.ofNat 64 (putBit w.toNat b true) = w ||| (1#64 <<< b) := by
  refine BitVec.eq_of_getLsbD_eq fun i hi => ?_
  unfold putBit
  rw [if_pos rfl, BitVec.getLsbD_ofNat, Nat.testBit_or, BitVec.testBit_toNat, Nat.one_shiftLeft, Nat.testBit_two_pow,
    BitVec.getLsbD_or, BitVec.getLsbD_shiftLeft]
  by_cases h : b = i
  · simp [h, hi]
  · by_cases h2 : i < b
    · simp [h, hi, h2]
    · simp [h, hi, h2]
      omega

/-- An event sets its bit of `EVENT`. -/
theorem reg_raise_self (s : State) {pk b : Nat} (h : (sourceOf pk b).isSome = true) :
    (s.raise pk b).reg pk 0x020 = s.reg pk 0x020 ||| (1#64 <<< b) := by
  have hregs : (s.raise pk b).regs
      = (s.setReg pk 0x020 (BitVec.ofNat 64 (putBit (s.reg pk 0x020).toNat b true))).regs := by
    rw [raise_regs, if_pos h]
  rw [reg_of_regs hregs, reg_setReg_self, ofNat_putBit_true]

/-- An event sets no other register. -/
theorem reg_raise_ne (s : State) {pk b q o : Nat} (ho : o < 4096) (h : (q, o) ≠ (pk, 0x020)) :
    (s.raise pk b).reg q o = s.reg q o := by
  by_cases hsrc : (sourceOf pk b).isSome = true
  · have hregs : (s.raise pk b).regs
        = (s.setReg pk 0x020 (BitVec.ofNat 64 (putBit (s.reg pk 0x020).toNat b true))).regs := by
      rw [raise_regs, if_pos hsrc]
    rw [reg_of_regs hregs, reg_setReg_ne s _ ho (by decide) h]
  · have hregs : (s.raise pk b).regs = s.regs := by rw [raise_regs, if_neg hsrc]
    exact reg_of_regs hregs q o

theorem raised_raise (s : State) (pk : Nat) {b : Nat} (hb : b < 64) (h : (sourceOf pk b).isSome = true) :
    Raised (s.raise pk b) pk b := by
  unfold Raised
  rw [reg_raise_self s h]
  simp [hb]

end Sys2Proof.Proofs
end

section
/-! PROOFS. What a tick does to time, and a write that sets events. Settles O1, O2, O5, O6 and O9. -/

namespace Sys2Proof.Proofs

open Sys2Proof Sys2Proof.Machine

/-! ### What a tick does to time -/

theorem raise_trips (s : State) (pk b : Nat) : (s.raise pk b).trips = s.trips :=
  (congrArg State.trips (raise_eq s pk b)).trans rfl

theorem raiseIf_trips (s : State) (c : Bool) (pk b : Nat) : (s.raiseIf c pk b).trips = s.trips := by
  unfold State.raiseIf
  split
  · exact raise_trips ..
  · rfl

theorem enterRow_trips (s : State) (sec e r : Nat) : (s.enterRow sec e r).trips = s.trips := by
  unfold State.enterRow
  exact (raiseIf_trips ..).trans rfl

theorem foldl_trips {α : Type} {f : State → α → State} (hf : ∀ u x, (f u x).trips = u.trips) (l : List α) (s : State) :
    (l.foldl f s).trips = s.trips := by
  induction l generalizing s with
  | nil => rfl
  | cons x l ih => rw [List.foldl_cons, ih, hf]

theorem stopEngine_trips (s : State) (sec e : Nat) : (s.stopEngine sec e).trips = s.trips := by
  unfold State.stopEngine State.takeRows
  refine (foldl_trips (fun u x => ?_) _ _).trans rfl
  rfl

theorem startEngine_trips (s : State) (sec e : Nat) : (s.startEngine sec e).trips = s.trips := by
  unfold State.startEngine
  exact (enterRow_trips ..).trans rfl

theorem stenEdge_trips (s : State) (sec e : Nat) : (s.stenEdge sec e).trips = s.trips := by
  have hstop (u : State) (c : Prop) [Decidable c] : (if c then u.stopEngine sec e else u).trips = u.trips := by
    split
    · exact stopEngine_trips ..
    · rfl
  have hstart (u : State) (c : Prop) [Decidable c] : (if c then u.startEngine sec e else u).trips = u.trips := by
    split
    · exact startEngine_trips ..
    · rfl
  unfold State.stenEdge
  exact (hstart ..).trans ((hstop ..).trans rfl)

theorem tickStencilsOut_trips (s : State) : s.tickStencilsOut.trips = s.trips := by
  unfold State.tickStencilsOut
  refine foldl_trips (fun u x => ?_) _ _
  split
  · exact stenEdge_trips ..
  · rfl

theorem tickPads_trips (s : State) : s.tickPads.trips = s.trips := by
  unfold State.tickPads
  split
  · rfl
  · refine foldl_trips (fun u x => ?_) _ _
    rfl

theorem registerSources_eq (s : State) : s.registerSources = { s with trips := s.registerSources.trips } := by
  have h (l : List Nat) (f : State → Nat → State) (hf : ∀ u x, f u x = { u with trips := (f u x).trips }) (u : State) :
      l.foldl f u = { u with trips := (l.foldl f u).trips } := by
    induction l generalizing u with
    | nil => rfl
    | cons x l ih => rw [List.foldl_cons, ih, hf]
  unfold State.registerSources
  exact h _ _ (fun u x => by dsimp only; split <;> rfl) s

/-- What the units do in a tick, after its time has come (R25). -/
def tickUnits (s : State) : State :=
  s.tickStencilsIn.tickCaptures.tickSamples.tickLoops.tickComparators.tickDiscipline.tickSyncOut.tickFec.tickUpset

theorem fixed_tickUnits (s : State) : fixed (tickUnits s) = fixed s := by
  unfold tickUnits
  rw [fixed_tickUpset, fixed_tickFec, fixed_tickSyncOut, fixed_tickDiscipline, fixed_tickComparators, fixed_tickLoops,
    fixed_tickSamples, fixed_tickCaptures, fixed_tickStencilsIn]

/-- A tick that time does not stop: what it leaves of time, and what its end clears and shows. -/
theorem tick_running {s : State} (h : s.timeStands = false) (ho : s.oweTick.timeStands = false) :
    s.tick.ticks = s.oweTick.ticks + 1 ∧ s.tick.canvas = s.oweTick.canvasNext.getD (s.oweTick.canvas + 1)
      ∧ s.tick.canvasNext = none ∧ s.tick.shown.regs = s.tick.regs ∧ s.tick.setNow = [] ∧ s.tick.rwcNow = [] := by
  have hbefore : fixed s.oweTick.tickStencilsOut.tickPads = fixed s.oweTick := by
    rw [fixed_tickPads, fixed_tickStencilsOut]
  have hvariant : s.oweTick.tickStencilsOut.tickPads.variant = s.oweTick.variant := congrArg Fixed.variant hbefore
  have htrips : s.oweTick.tickStencilsOut.tickPads.trips = s.oweTick.trips := by
    rw [tickPads_trips, tickStencilsOut_trips]
  have hruns : s.oweTick.tickStencilsOut.tickPads.slices.any
      (fun sl => (s.oweTick.tickStencilsOut.tickPads.trip sl).clockMissing) = false := by
    unfold State.timeStands at ho
    simpa only [State.slices, State.trip, hvariant, htrips] using (Bool.or_eq_false_iff.mp ho).2
  have hclock := (fixed_tickUnits _).trans (fixed_tickCanvas hruns)
  have hend : s.tick = ({ tickUnits s.oweTick.tickStencilsOut.tickPads.tickCanvas with
      setNow := [], rwcNow := [], bankWrites := [] }).showNow.registerSources := by
    unfold State.tick
    rw [if_neg (by simp [h])]
    rfl
  rw [hend, registerSources_eq]
  refine ⟨(congrArg Fixed.ticks hclock).trans ?_, (congrArg Fixed.canvas hclock).trans ?_,
    congrArg Fixed.canvasNext hclock, rfl, rfl, rfl⟩
  · exact congrArg (fun x => x.ticks + 1) hbefore
  · exact congrArg (fun x => x.canvasNext.getD (x.canvas + 1)) hbefore

theorem step_of_idle {s : State} (h : s.pending = []) : step s = .next s.tick := by
  unfold step
  rw [h]

theorem pending_tick (s : State) : s.tick.pending = s.pending := by
  obtain ⟨_, hpending, _⟩ := onward_tick s (Onward.refl (fixed s))
  exact hpending

/-- Settles O1: both are `step` at a queue that is given. -/
theorem stepRunsTheFrontCommand : Obligations.StepRunsTheFrontCommand :=
  ⟨fun _ _ _ => rfl, fun _ h => step_of_idle h⟩

/-- Settles O2: the stores of the reset state are empty, so that every read gives its default. -/
theorem resetBeginsPrime : Obligations.ResetBeginsPrime := by
  refine ⟨rfl, rfl, rfl, rfl, rfl, rfl, fun sl hsl => ?_, fun _ _ => ⟨rfl, rfl, rfl⟩, fun sec p => ?_, fun _ _ => rfl,
    fun _ _ => rfl, ⟨by decide, by decide, fun f hf => nomatch hf⟩, Laws.wf_nil _⟩
  · interval_cases sl <;> decide
  · have htrip : State.reset.trip sec = {} := rfl
    have hvote : ({} : Trip).vote = 0#16 := by decide
    unfold State.latched
    rw [htrip, hvote, BitVec.getLsbD_zero]

/-- Settles O5, by `tick_running`. -/
theorem tickAdvancesCanvasTime : Obligations.TickAdvancesCanvasTime := by
  unfold Obligations.TickAdvancesCanvasTime
  intro s hp
  refine ⟨fun hs => ?_, fun hs ho => ?_⟩
  · rw [step_of_idle hp]
    unfold State.tick
    rw [if_pos hs]
  · obtain ⟨hticks, hcanvas, hnext, hshown, hset, hrwc⟩ := tick_running hs ho
    refine ⟨s.tick, step_of_idle hp, hticks, hnext, hshown, hset, hrwc, hcanvas.trans ?_⟩
    split <;> next h => rw [h]; rfl

/-- The next tick of a quiet state is at the time that is ordered, and orders none. -/
theorem canvas_of_quiet {s : State} (h : Quiet s) :
    s.tick.canvas = s.canvasNext.getD (s.canvas + 1) ∧ s.tick.canvasNext = none := by
  obtain ⟨hs, ho, _, hcanvas, hnext⟩ := h
  obtain ⟨_, hc, hn, _⟩ := tick_running hs ho
  exact ⟨by rw [hc, hcanvas, hnext], hn⟩

/-- Settles O6: the step orders the time of the next tick (`fixed_stepCanvas`), which `tick_running` takes. -/
theorem canvasStepMovesTheNextTick : Obligations.CanvasStepMovesTheNextTick := by
  unfold Obligations.CanvasStepMovesTheNextTick
  intro s delta
  refine ⟨fun hr => ?_, fun hr => ?_⟩
  · have hstep := fixed_stepCanvas hr
    refine ⟨s.stepCanvas delta, rfl, congrArg Fixed.canvas hstep, fun hp hq => ?_⟩
    have hp1 : (s.stepCanvas delta).pending = [] := (congrArg Fixed.pending hstep).trans hp
    obtain ⟨hc, hn⟩ := canvas_of_quiet hq
    have hordered : (s.stepCanvas delta).canvasNext = _ := congrArg Fixed.canvasNext hstep
    rw [hordered] at hc
    have hcanvas : ((s.stepCanvas delta).tick.canvas : Int) = s.canvas + 1 + delta.toInt := by
      rw [hc]
      exact Int.toNat_of_nonneg hr.1
    refine ⟨_, step_of_idle hp1, hcanvas, fun hq2 => ?_⟩
    obtain ⟨hc2, _⟩ := canvas_of_quiet hq2
    rw [hn] at hc2
    refine ⟨_, step_of_idle ((pending_tick _).trans hp1), ?_⟩
    rw [hc2, ← hcanvas]
    rfl
  · have hstep := fixed_stepCanvas_refused hr
    refine ⟨s.stepCanvas delta, rfl, congrArg Fixed.canvas hstep, congrArg Fixed.canvasNext hstep, ?_⟩
    have heq : s.stepCanvas delta = s.raise canvPage 5 := by
      unfold State.stepCanvas
      exact if_neg hr
    rw [heq]
    exact raised_raise s canvPage (by decide) (by decide)

/-! ### Events and alarms -/

/-- One bit of a mask raises its event alone. -/
theorem raiseMask_one (s : State) (pk : Nat) (b : Fin 64) : s.raiseMask pk (1#64 <<< b.val) = s.raise pk b := by
  have hbit (n : Nat) (hn : n < 64) : bit (1#64 <<< b.val).toNat n = decide (n = b.val) := by
    unfold bit
    rw [BitVec.testBit_toNat]
    have hb := b.isLt
    by_cases h : n = b.val
    · simp [h]
    · by_cases h2 : n < b.val
      · simp [h, h2]
      · simp [h, h2, hn]
        omega
  have hfold (l : List Nat) (hl : ∀ n ∈ l, n < 64) (hnd : l.Nodup) (u : State) :
      l.foldl (fun t n => if bit (1#64 <<< b.val).toNat n then t.raise pk n else t) u
        = if b.val ∈ l then u.raise pk b else u := by
    induction l generalizing u with
    | nil => rfl
    | cons n l ih =>
      obtain ⟨hnot, hnd'⟩ := List.nodup_cons.mp hnd
      rw [List.foldl_cons, ih (fun m hm => hl m (List.mem_cons_of_mem _ hm)) hnd', hbit n (hl n List.mem_cons_self)]
      by_cases h : n = b.val
      · subst h
        simp [hnot]
      · simp [h, Ne.symm h]
  unfold State.raiseMask
  rw [hfold _ (fun n hn => List.mem_range.mp hn) List.nodup_range, if_pos (List.mem_range.mpr b.isLt)]

/-- A write that its page accepts. -/
theorem writeBy_accept {s : State} {ag : Agent} {pk off : Nat} (h : s.verdict ag pk off = .accept) (act : State → State) :
    s.writeBy ag pk off act = (act s).respond ag (pageAddr pk off) false := by
  unfold State.writeBy
  rw [h]

theorem eventsSetTheirBit : EventsSetTheirBit := by
  intro s ag page b hacc hsrc
  have heq := raise_eq s (pageKey page) b
  refine ⟨_, ?_, rfl, reg_raise_self s hsrc, (congrArg State.mem heq).trans rfl, (congrArg State.badWords heq).trans rfl,
    fun pk off ho hne => reg_raise_ne s ho hne, fun p i => raise_threads ..⟩
  exact congrArg Host.Outcome.next (by rw [writeBy_accept hacc, raiseMask_one])

theorem alarmFires : AlarmFires := by
  intro s i
  refine ⟨fun hen hdue harm => ?_, fun h => ?_⟩
  · exact congrArg Host.Outcome.next (if_pos ⟨hen, hdue, harm⟩)
  · refine congrArg Host.Outcome.next (if_neg fun ⟨hen, hdue, harm⟩ => ?_)
    rcases h with h | h | h
    · omega
    · rw [h] at hen
      cases hen
    · omega

/-- Settles O9, by its two parts. -/
theorem eventsAndAlarms : Obligations.EventsAndAlarms := ⟨eventsSetTheirBit, alarmFires⟩

end Sys2Proof.Proofs
end

section
/-! PROOFS. Pages of panels, and writes that a page turns away. Settles O12. -/

namespace Sys2Proof.Proofs

open Sys2Proof Sys2Proof.Machine

/-! ### Pages -/

theorem pageAddr_ne_zero (pk off : Nat) : pageAddr pk off ≠ 0 := by
  unfold pageAddr
  split
  · omega
  · split <;> omega

theorem windowOf_panelPage {a b : Nat} (hb : b < 4096) : windowOf (panelPage a b) = 8 + a := by
  unfold windowOf panelPage
  omega

theorem isPanelPage_panelPage {a b : Nat} (ha : a < 8) (hb : b < 4096) : isPanelPage (panelPage a b) = true := by
  unfold isPanelPage
  rw [windowOf_panelPage hb, decide_eq_true (by omega), decide_eq_true (by omega), Bool.and_self]

theorem holder_panelPage (s : State) {a b : Nat} (ha : a < 8) (hb : b < 4096) : s.holder (panelPage a b) = a := by
  unfold State.holder
  rw [if_pos (isPanelPage_panelPage ha hb), windowOf_panelPage hb, Nat.add_sub_cancel_left]

/-- Only package pages have registers that are reserved. -/
theorem reservedFor_panelPage (ag : Agent) {a b : Nat} (ha : a < 8) (hb : b < 4096) (off : Nat) :
    reservedFor ag (panelPage a b) off = none := by
  have h : isPackagePage (panelPage a b) = false := by
    unfold isPackagePage
    rw [windowOf_panelPage hb]
    simp
    omega
  unfold reservedFor
  rw [h]
  simp

/-- The address of a panel's own page lies below the windows. -/
theorem pageAddr_panelPage_lt {a b : Nat} (ha : a < 8) (hb : b < 4096) (off : Nat) (ho : off < 4096) :
    pageAddr (panelPage a b) off < 0x80000000 := by
  unfold pageAddr
  rw [windowOf_panelPage hb, if_neg (by omega), if_pos (by omega)]
  unfold panelPage
  omega

/-! ### Writes that a page turns away -/

theorem declines_of_writeBy {c : Instr} {s : State} {ag : Agent} {pk off : Nat} {act : State → State}
    (h : exec c s = .next (s.writeBy ag pk off act)) : Declines c s ag pk off := by
  unfold Declines
  rw [h]
  unfold State.writeBy
  constructor <;> intro hv <;> rw [hv]
  rfl

theorem verdict_seq (s : State) (n : Nat) (ag : Agent) (pk off : Nat) :
    ({ s with seq := n } : State).verdict ag pk off = s.verdict ag pk off := rfl

theorem easelMay_seq (s : State) (n pk off : Nat) : ({ s with seq := n } : State).easelMay pk off = s.easelMay pk off :=
  rfl

theorem writeNow_drop {s : State} {ag : Agent} {pk off : Nat} {data : Word} (h : s.verdict ag pk off = .drop) :
    s.writeNow ag pk off data = ({ s with seq := s.seq + 1 } : State).respond ag (pageAddr pk off) false := by
  unfold State.writeNow State.deliver
  dsimp only
  rw [if_neg Bool.false_ne_true, verdict_seq, h]
  dsimp only
  unfold State.reply
  rw [if_neg (pageAddr_ne_zero pk off), if_neg Bool.false_ne_true]
  rfl

theorem writeNow_refuse {s : State} {ag : Agent} {pk off : Nat} {data : Word} (h : s.verdict ag pk off = .refuse) :
    s.writeNow ag pk off data = (
      let u : State := { s with seq := s.seq + 1 }
      if ag = .easel ∧ s.easelMay pk off = false then u.refusePort else u.respond ag (pageAddr pk off) true) := by
  unfold State.writeNow State.deliver
  dsimp only
  rw [if_neg Bool.false_ne_true, verdict_seq, h]
  dsimp only
  unfold State.reply State.turnAway
  rw [if_neg (pageAddr_ne_zero pk off), if_neg Bool.false_ne_true, easelMay_seq]

/-- A panel's page turns away what another panel sends (R24). -/
theorem verdict_of_other_panel {s : State} {ag : Agent} {a b off : Nat} (ha : a < 8) (hb : b < 4096)
    (hag : agentPanel ag ≠ some a) (heasel : ag ≠ .easel) (hint : ∀ p i, ag ≠ .intent p i) :
    s.verdict ag (panelPage a b) off = .refuse := by
  have hholds : decide (agentPanel ag = some (s.holder (panelPage a b))) = false := by
    rw [holder_panelPage s ha hb]
    exact decide_eq_false hag
  unfold State.verdict
  rw [hholds, reservedFor_panelPage ag ha hb off]
  dsimp only
  split
  · rfl
  cases ag with
  | easel => exact absurd rfl heasel
  | intent p i => exact absurd rfl (hint p i)
  | thread t => rfl
  | dma p c => rfl
  | manager p n => rfl

/-- What a thread learns changes neither registers nor memory, where the address is its own panel's. -/
theorem respond_thread_own (s : State) (t : Tid) {addr : Nat} (h : addr < 0x80000000) (err : Bool) :
    (s.respond (.thread t) addr err).regs = s.regs ∧ (s.respond (.thread t) addr err).mem = s.mem := by
  have hnote : s.noteAccess (.thread t) addr = s := by
    unfold State.noteAccess agentPanel
    dsimp only
    rw [if_neg (by omega)]
  unfold State.respond State.answer State.setFault
  rw [hnote]
  dsimp only
  (repeat' split) <;> exact ⟨rfl, rfl⟩

/-- Settles O12: every row but the plain write is a `writeBy`; the plain write is `writeNow`. -/
theorem turnedAwayWritesChangeNothing : Obligations.TurnedAwayWritesChangeNothing := by
  unfold Obligations.TurnedAwayWritesChangeNothing
  intro s ag sl
  have d {c : Instr} {ag : Agent} {pk off : Nat} {act : State → State}
      (h : exec c s = .next (s.writeBy ag pk off act)) : Declines c s ag pk off := declines_of_writeBy h
  refine ⟨fun _ => d rfl, fun _ _ => d rfl, fun _ => d rfl, fun _ => d rfl, fun _ => d rfl, fun _ => d rfl, d rfl,
    fun _ => d rfl, d rfl, d rfl, fun _ => d rfl, fun _ => d rfl, d rfl, d rfl, d rfl, d rfl, d rfl, fun _ _ => d rfl,
    fun _ => d rfl, fun _ => d rfl, d rfl, fun _ => d rfl, fun _ => ⟨d rfl, d rfl⟩, fun _ => ⟨d rfl, d rfl⟩,
    fun _ => d rfl, fun _ => ⟨d rfl, fun _ => d rfl⟩, d rfl, fun _ => ⟨d rfl, d rfl⟩, d rfl, d rfl, d rfl, d rfl, d rfl,
    fun _ => ⟨d rfl, d rfl⟩, fun _ => d rfl, d rfl, d rfl, d rfl, fun _ _ => d rfl, d rfl, d rfl, fun _ => d rfl, d rfl,
    fun _ => d rfl, d rfl, fun _ => d rfl, fun _ => d rfl, fun _ => d rfl, fun page n data => ?_,
    fun a b t ha hb hag heasel hint => ?_⟩
  · exact ⟨fun h => congrArg Host.Outcome.next (writeNow_drop h),
      fun h => congrArg Host.Outcome.next (writeNow_refuse h)⟩
  · exact ⟨verdict_of_other_panel ha hb hag heasel hint,
      respond_thread_own s t (pageAddr_panelPage_lt ha hb _ (by decide)) true⟩

end Sys2Proof.Proofs
end

section
/-! PROOFS. A fetch changes no thread, but that an event of the caches may end its wait. -/

namespace Sys2Proof.Proofs

open Sys2Proof Sys2Proof.Machine

/-! ### What a fetch leaves of the threads -/

/-- Of the threads no more differs than that they no longer park. -/
structure Unparks (s u : State) : Prop where
  thread : ∀ p i, { u.thread p i with park := none } = { s.thread p i with park := none }

theorem Unparks.refl (s : State) : Unparks s s := ⟨fun _ _ => rfl⟩

theorem Unparks.trans {s u v : State} (h : Unparks s u) (h' : Unparks u v) : Unparks s v :=
  ⟨fun p i => (h'.thread p i).trans (h.thread p i)⟩

theorem unparks_of_threads {s u : State} (h : u.threads = s.threads) : Unparks s u := by
  refine ⟨fun p i => ?_⟩
  have ht : u.thread p i = s.thread p i := by
    unfold State.thread
    rw [h]
  rw [ht]

theorem unparks_ite {s u v : State} {c : Prop} [Decidable c] (hu : Unparks s u) (hv : Unparks s v) :
    Unparks s (if c then u else v) := by
  split
  · exact hu
  · exact hv

theorem unparks_foldl {α : Type} {f : State → α → State} (hf : ∀ u x, Unparks u (f u x)) (l : List α) (s : State) :
    Unparks s (l.foldl f s) := by
  induction l generalizing s with
  | nil => exact Unparks.refl s
  | cons x l ih => exact (hf s x).trans (ih _)

theorem unparks_raise (s : State) (pk b : Nat) : Unparks s (s.raise pk b) := ⟨raise_threads s pk b⟩

theorem count_threads (s : State) (pk : Nat) (f : Fld) (n : Nat) : (s.count pk f n).threads = s.threads := rfl

theorem setFld_threads (s : State) (pk : Nat) (f : Fld) (v : Nat) : (s.setFld pk f v).threads = s.threads := by
  simp only [State.setFld, Laws.setReg_threads]

theorem mark_threads (s : State) (pk : Nat) (f : Fld) : (s.mark pk f).threads = s.threads := by
  simp only [State.mark, State.markBit, setFld_threads]

theorem unparks_noteEcc (s : State) (p array port addr : Nat) (ue : Bool) : Unparks s (s.noteEcc p array port addr ue) := by
  unfold State.noteEcc
  extract_lets pk s1
  have hs1 : s1.threads = s.threads := by simp only [s1, setFld_threads, mark_threads]
  clear_value s1
  have hcount (f : Fld) (b : Nat) : Unparks s ((s1.count pk f 1).raise pk b) :=
    (unparks_of_threads ((count_threads s1 pk f 1).trans hs1)).trans (unparks_raise ..)
  exact unparks_ite (unparks_ite (hcount ..) (hcount ..)) (unparks_ite (unparks_ite (hcount ..) (hcount ..))
    (unparks_ite (hcount ..) (unparks_of_threads hs1)))

theorem unparks_correct (s : State) (p array core port : Nat) (keys : List Nat) :
    Unparks s (s.correct p array core port keys) := by
  unfold State.correct
  dsimp only
  refine (unparks_of_threads ?_).trans (unparks_foldl (fun u f => unparks_noteEcc u p array port _ false) _ _)
  rfl

theorem noteOutput_threads (s : State) (p c output : Nat) : (s.noteOutput p c output).threads = s.threads := by
  unfold State.noteOutput
  split <;> rfl

theorem useL2_threads (s : State) (p line : Nat) (write : Bool) : (s.useL2 p line write).threads = s.threads := by
  unfold State.useL2
  split <;> rfl

theorem dropL1_threads (s : State) (p c : Nat) (code : Bool) (line : Nat) :
    (s.dropL1 p c code line).threads = s.threads := by
  unfold State.dropL1
  split <;> rfl

theorem setL1_threads (s : State) (p c : Nat) (code : Bool) (line : Nat) (v : CacheSet) :
    (s.setL1 p c code line v).threads = s.threads := rfl

theorem noteCross_threads (s : State) (p q : Nat) : (s.noteCross p q).threads = s.threads := by
  unfold State.noteCross
  split <;> rfl

theorem unparks_readL1 (s : State) (p c : Nat) (code : Bool) (line : Nat) (keys : List Nat) :
    Unparks s (s.readL1 p c code line keys).2 := by
  unfold State.readL1
  split
  · exact Unparks.refl s
  · split
    · exact (unparks_of_threads (dropL1_threads ..)).trans (unparks_noteEcc ..)
    · refine (unparks_of_threads ?_).trans (unparks_correct _ p (l1Array code) c (1 + c) keys)
      rfl

theorem unparks_readL2 (s : State) (p port line : Nat) : Unparks s (s.readL2 p port line) := by
  unfold State.readL2
  exact ((unparks_correct ..).trans (unparks_of_threads (useL2_threads ..))).trans (unparks_correct ..)

theorem unparks_fillL1 (s : State) (p c : Nat) (code : Bool) (line : Nat) : Unparks s (s.fillL1 p c code line) := by
  unfold State.fillL1
  split
  · exact Unparks.refl s
  · split
    · exact Unparks.refl s
    · dsimp only
      split
      · exact (unparks_of_threads (dropL1_threads ..)).trans (unparks_of_threads (setL1_threads ..))
      · exact unparks_of_threads (setL1_threads ..)

theorem unparks_bufferLine (s : State) (p c line : Nat) : Unparks s (s.bufferLine p c line) := unparks_of_threads rfl

theorem unparks_readAhead (s : State) (p c line : Nat) : Unparks s (s.readAhead p c line) := by
  have h := unparks_readL1 s p c true (line + 1) (wordKeys p (64 * (line + 1)) 8)
  unfold State.readAhead
  exact unparks_ite ((h.trans (unparks_bufferLine ..)).trans (unparks_bufferLine ..)) h

theorem unparks_fetchLine {s u : State} {p t line : Nat} (h : s.fetchLine p t line = .ok u) : Unparks s u := by
  have h1 := unparks_readL1 s p (t / 4) true line (wordKeys p (64 * line) 8)
  unfold State.fetchLine at h
  dsimp only at h
  split at h
  · cases h
    exact unparks_bufferLine ..
  split at h
  · cases h
    exact h1.trans (unparks_bufferLine ..)
  split at h
  · cases h
  split at h
  · cases h
  · rw [← Except.ok.inj h]
    have hout : Unparks s ((s.readL1 p (t / 4) true line (wordKeys p (64 * line) 8)).2.noteOutput p (t / 4) 0) :=
      h1.trans (unparks_of_threads (noteOutput_threads ..))
    have hfill := (hout.trans (unparks_readL2 _ p (1 + t / 4) line)).trans (unparks_fillL1 _ p (t / 4) true line)
    split
    · exact hfill
    · exact hfill.trans (unparks_bufferLine ..)

theorem unparks_readFar {s u : State} {p t q a : Nat} (h : s.readFar p t q a = .ok u) : Unparks s u := by
  unfold State.readFar at h
  dsimp only at h
  split at h
  · cases h
  split at h
  · cases h
  split at h
  · cases h
  · cases h
    exact (unparks_of_threads ((noteCross_threads ..).trans (noteOutput_threads ..))).trans (unparks_correct ..)

theorem unparks_fetchWord {s u : State} {p t a : Nat} (h : s.fetchWord p t a = .ok u) : Unparks s u := by
  unfold State.fetchWord at h
  dsimp only at h
  split at h
  · cases h
  split at h
  · cases h
  · cases h
  · cases h
  · cases h
  · split at h
    · cases h
    · cases h
      exact (unparks_of_threads (noteOutput_threads ..)).trans (unparks_correct ..)
  · exact unparks_readFar h
  · split at h
    · cases h
    next s1 hline =>
    have h1 := unparks_fetchLine hline
    split at h
    · cases h
      exact unparks_ite (h1.trans (unparks_readAhead ..)) h1
    split at h
    · cases h
    · cases h
      exact h1

/-- A fetch that succeeds changes nothing of the threads, but that an event it raises may wake them. -/
theorem unparks_fetch {s u : State} {p t len : Nat} (h : s.fetch p t len = .ok u) : Unparks s u := by
  unfold State.fetch at h
  dsimp only at h
  split at h
  · cases h
  next s1 hfirst =>
  have h1 := unparks_fetchWord hfirst
  split at h
  · cases h
    exact h1
  · exact h1.trans (unparks_fetchWord h)

theorem status_of_ready {s u : State} {t : Tid} {len : Nat} (h : Ready s t len u) : (s.at t).status = (u.at t).status := by
  obtain ⟨_, hfetch, _⟩ := h
  exact (congrArg Thread.status ((unparks_fetch hfetch).thread t.panel t.index)).symm

end Sys2Proof.Proofs
end

section
/-! PROOFS. Instructions that move entries, and literals. Settles O17. -/

namespace Sys2Proof.Proofs

open Sys2Proof Sys2Proof.Machine

/-! ### Instructions that move entries, and literals -/

theorem replaces_of_rearrange {c : Tid → Instr} {len n : Nat} {takes leaves : List Slot} {g : List Slot → List Slot}
    (hexec : ∀ t s, exec (c t) s = .next (s.rearrange t len n g)) (hn : n ≤ takes.length)
    (hg : ∀ rest, g (takes ++ rest) = leaves ++ rest) : Replaces c len takes leaves 0 anyThread := by
  intro s u t rest hready _ hstack _ hleaves
  have hlen : n ≤ (u.at t).stack.length := by
    rw [hstack, List.length_append]
    omega
  have hsmall : (g (u.at t).stack).length ≤ 16 := by
    rw [hstack, hg, List.length_append]
    exact hleaves
  rw [hexec, Laws.rearrange_ready s u t len n g hready hlen hsmall, hstack, hg]

/-- An opcode or immediate that the map does not list. -/
theorem undefinedOpcode_ready {s u : State} {t : Tid} {len : Nat} (h : Ready s t len u) :
    s.undefinedOpcode t len = u.faults t UD := by
  unfold State.undefinedOpcode
  rw [Laws.instr_ready s u t len _ h]
  rfl

theorem faultsOn_of_undefined {c : Tid → Instr} {len : Nat} {takes : List TWord}
    (hexec : ∀ t s, exec (c t) s = .next (s.undefinedOpcode t len)) : FaultsOn c len takes UD anyThread := by
  intro s u t rest hready _ _
  rw [hexec, undefinedOpcode_ready hready]

theorem need_short {s : State} {p i n : Nat} (h : (s.thread p i).depth < n) :
    s.need p i n = .error (faultStop p i SB) := if_pos h

/-- Too few entries for a rearrangement. -/
theorem rearrange_short {s u : State} {t : Tid} {len n : Nat} {g : List Slot → List Slot} (h : Ready s t len u)
    (hd : (u.at t).depth < n) : s.rearrange t len n g = u.faults t SB := by
  unfold State.rearrange
  rw [Laws.instr_ready s u t len _ h, need_short hd]
  rfl

/-- Too few operands for a calculation. -/
theorem calc_short {s u : State} {t : Tid} {len n : Nat} {f : Thread → List TWord → Calc} (h : Ready s t len u)
    (hd : (u.at t).depth < n) : s.calc t len n f = u.faults t SB := by
  have hpeek (acc : List TWord → Bool) :
      u.peekAs t.panel t.index n acc = .error (faultStop t.panel t.index SB) := by
    unfold State.peekAs State.peek
    rw [need_short hd]
    exact if_pos (.inl hd)
  unfold State.calc
  rw [Laws.instr_ready s u t len _ h, hpeek]
  rfl

theorem pickSlots_append {n : Nat} {above : List Slot} (h : above.length = n) (x : Slot) (rest : List Slot) :
    pickSlots n (above ++ [x] ++ rest) = x :: above ++ [x] ++ rest := by
  subst h
  simp [pickSlots]

theorem rollSlots_append {n : Nat} {above : List Slot} (h : above.length = n) (x : Slot) (rest : List Slot) :
    rollSlots n (above ++ [x] ++ rest) = x :: above ++ rest := by
  subst h
  simp [rollSlots, List.eraseIdx_append_of_length_le]

theorem exec_pick {n : Byte} (h : n.toNat < 16) (t : Tid) (s : State) :
    exec (.pick t n) s = .next (s.rearrange t 2 (n.toNat + 1) (pickSlots n.toNat)) := congrArg _ (if_pos h)

theorem exec_roll {n : Byte} (h : n.toNat < 16) (t : Tid) (s : State) :
    exec (.roll t n) s = .next (s.rearrange t 2 (n.toNat + 1) (rollSlots n.toNat)) := congrArg _ (if_pos h)

theorem exec_dropn {n : Byte} (h : 1 ≤ n.toNat ∧ n.toNat ≤ 16) (t : Tid) (s : State) :
    exec (.dropn t n) s = .next (s.rearrange t 2 n.toNat (List.drop n.toNat)) := congrArg _ (if_pos h)

theorem stackMovesRenameEntries : StackMovesRenameEntries := by
  refine ⟨replaces_of_rearrange (fun _ _ => rfl) (Nat.zero_le _) fun _ => rfl,
    fun a => ⟨replaces_of_rearrange (fun _ _ => rfl) le_rfl fun _ => rfl,
      replaces_of_rearrange (fun _ _ => rfl) le_rfl fun _ => rfl⟩,
    fun a b => ⟨replaces_of_rearrange (fun _ _ => rfl) le_rfl fun _ => rfl,
      replaces_of_rearrange (fun _ _ => rfl) le_rfl fun _ => rfl⟩,
    fun a b c => replaces_of_rearrange (fun _ _ => rfl) le_rfl fun _ => rfl,
    fun n above x hn hlen => ⟨replaces_of_rearrange (exec_pick hn) (by simp [hlen]) (pickSlots_append hlen x),
      replaces_of_rearrange (exec_roll hn) (by simp [hlen]) (rollSlots_append hlen x)⟩,
    fun n l h1 h2 hlen => replaces_of_rearrange (exec_dropn ⟨h1, h2⟩) (by omega) fun rest => by simp [← hlen],
    fun s u t n hready => ⟨fun hn => ⟨?_, ?_⟩, fun hn => ?_, fun hd hn => ⟨?_, ?_⟩, fun hd hn => ?_⟩⟩
  · exact congrArg _ ((if_neg (by omega)).trans (undefinedOpcode_ready hready))
  · exact congrArg _ ((if_neg (by omega)).trans (undefinedOpcode_ready hready))
  · exact congrArg _ ((if_neg (by omega)).trans (undefinedOpcode_ready hready))
  · rw [exec_pick hn, rearrange_short hready (by omega)]
  · rw [exec_roll hn, rearrange_short hready (by omega)]
  · rw [exec_dropn ⟨by omega, hn⟩, rearrange_short hready hd]

/-- A code address within 48 bits is taken as it is. -/
theorem ofNat_codeAddr {a : Int} (h0 : 0 ≤ a) (h : a < 2 ^ 48) : BitVec.ofNat 64 (codeAddr a) = BitVec.ofInt 64 a := by
  have hc : (codeAddr a : Int) = a := by
    unfold codeAddr unsign
    rw [Int.emod_eq_of_lt h0 (by exact_mod_cast h)]
    omega
  rw [← BitVec.ofInt_natCast, hc]

/-- Each literal is a calculation over no operand. -/
theorem literalsPushTheirValue : LiteralsPushTheirValue := by
  have push {c : Tid → Instr} {len : Nat} {w : TWord} {f : Thread → List TWord → Calc} {when : Thread → Prop}
      (hexec : ∀ t s, exec (c t) s = .next (s.calc t len 0 f)) (hf : ∀ th, when th → f th [] = one w) :
      Computes c len [] [w] 0 when := computes_of_calc (takes := []) hexec hf
  refine ⟨fun v => ⟨push (fun _ _ => rfl) fun _ _ => rfl, push (fun _ _ => rfl) fun _ _ => rfl⟩,
    fun v => ⟨push (fun _ _ => rfl) fun _ _ => rfl, push (fun _ _ => rfl) fun _ _ => rfl⟩,
    fun v => ⟨push (fun _ _ => rfl) fun _ _ => rfl, push (fun _ _ => rfl) fun _ _ => rfl⟩,
    fun v => ⟨push (fun _ _ => rfl) fun _ _ => rfl, push (fun _ _ => rfl) fun _ _ => rfl,
      push (fun _ _ => rfl) fun _ _ => rfl, push (fun _ _ => rfl) fun _ _ => rfl⟩,
    push (fun _ _ => rfl) fun _ _ => rfl, fun d pc h0 h => push (fun _ _ => rfl) fun th hpc => ?_,
    fun n => push (fun _ _ => rfl) fun th hn => ?_⟩
  · rw [hpc, ofNat_codeAddr h0 h]
  · exact congrArg (fun k => one (uint (BitVec.ofNat 64 k))) hn

/-- Settles O17, by its two parts. -/
theorem stackMovesAndLiterals : Obligations.StackMovesAndLiterals := ⟨stackMovesRenameEntries, literalsPushTheirValue⟩

end Sys2Proof.Proofs
end

section
/-! PROOFS. Pointers, fixed point, division, logic, comparisons and tags. Settles O15, O18, O19 and O20. -/

namespace Sys2Proof.Proofs

open Sys2Proof Sys2Proof.Machine

/-! ### Words of every class -/

/-- A listed tag makes a well-formed word of its class, where a pointer or code payload is an address of 48 bits. -/
theorem malformed_tword {tag : Nat} (hlt : tag < 256) (hlisted : tagListed tag = true) {v : Word}
    (hv : v.toNat < 2 ^ 48 ∨ tag < 0x80) : malformed (tword tag v) = false := by
  have hout : ¬ ((tag / 32 = clsPtr ∨ tag / 32 = clsCode) ∧ 2 ^ 48 ≤ v.toNat) := by
    simp only [clsPtr, clsCode]
    omega
  simpa [malformed, classOf, tagOf_tword hlt, hlisted] using hout

theorem classOf_tword {tag : Nat} (hlt : tag < 256) (v : Word) : classOf (tword tag v) = tag / 32 := by
  rw [classOf, tagOf_tword hlt]

theorem isClass_tword_of_address {tag : Nat} (hlt : tag < 256) (hlisted : tagListed tag = true) {v : Word}
    (hv : v.toNat < 2 ^ 48 ∨ tag < 0x80) (c : Nat) : isClass c (tword tag v) = decide (tag / 32 = c) := by
  rw [isClass, malformed_tword hlt hlisted hv, classOf_tword hlt, Bool.not_false, Bool.and_true]

theorem tagListed_of_fix {tag : Nat} (h : 0x40 ≤ tag ∧ tag ≤ 0x5F) : tagListed tag = true := by simp [tagListed, h]

theorem not_isInt_tword_of_fix {tag : Nat} (h : 0x40 ≤ tag ∧ tag ≤ 0x5F) (v : Word) : isInt (tword tag v) = false := by
  rw [isInt, isClass_tword (by omega) (tagListed_of_fix h), decide_eq_false_iff_not]
  simp only [clsInt]
  omega

theorem sameFix_tword {tag : Nat} (h : 0x40 ≤ tag ∧ tag ≤ 0x5F) (v w : Word) :
    sameFix (tword tag v) (tword tag w) = true := by
  simp [sameFix, isFix_tword h, tagOf_tword (show tag < 256 by omega)]

theorem not_sameInt_tword_of_fix {tag : Nat} (h : 0x40 ≤ tag ∧ tag ≤ 0x5F) (v w : Word) :
    sameInt (tword tag v) (tword tag w) = false := by
  simp [sameInt, not_isInt_tword_of_fix h]

@[simp] theorem fixVal_tword (tag : Nat) (v : Word) : fixVal (tword tag v) = v.toInt := by rw [fixVal, payload_tword]

theorem not_sameInt_left {a : TWord} (h : isInt a = false) (b : TWord) : sameInt a b = false := by simp [sameInt, h]

theorem not_sameFix_left {a : TWord} (h : isFix a = false) (b : TWord) : sameFix a b = false := by simp [sameFix, h]

/-! ### Pointers (R178) -/

/-- The pointer tags: a permission in bits 4:3 (R169). -/
def ptrTag (tag : Nat) : Prop := tag = 0x80 ∨ tag = 0x88 ∨ tag = 0x90 ∨ tag = 0x98

section

variable {perm : Nat} (hp : ptrTag perm) {a : Word} (ha : a.toNat < 2 ^ 48)
include hp

theorem tagOf_tword_of_ptr (v : Word) : tagOf (tword perm v) = perm := by
  rcases hp with rfl | rfl | rfl | rfl <;> exact tagOf_tword (by decide) v

include ha

theorem isClass_tword_of_ptr (c : Nat) : isClass c (tword perm a) = decide (clsPtr = c) := by
  rcases hp with rfl | rfl | rfl | rfl <;>
    exact isClass_tword_of_address (by decide) (by decide) (.inl ha) c

theorem isPtr_tword : isPtr (tword perm a) = true := isClass_tword_of_ptr hp ha clsPtr

theorem not_isInt_tword_of_ptr : isInt (tword perm a) = false := isClass_tword_of_ptr hp ha clsInt

theorem not_isFix_tword_of_ptr : isFix (tword perm a) = false := isClass_tword_of_ptr hp ha clsFix

/-- `ADD` of a pointer and an `INT` moves it. -/
theorem calcAdd_ptr {tag : Nat} (ht : tag = 0x20 ∨ tag = 0x21) (d : Word) (th : Thread) :
    calcAdd th [tword tag d, tword perm a] = movePtr (tword perm a) (intOf tag d) := by
  simp [calcAdd, not_sameInt_left (not_isInt_tword_of_ptr hp ha), not_sameFix_left (not_isFix_tword_of_ptr hp ha),
    isPtr_tword hp ha, isInt_tword ht, intVal_tword ht]

theorem calcSub_ptr {tag : Nat} (ht : tag = 0x20 ∨ tag = 0x21) (d : Word) (th : Thread) :
    calcSub th [tword tag d, tword perm a] = movePtr (tword perm a) (-intOf tag d) := by
  simp [calcSub, not_sameInt_left (not_isInt_tword_of_ptr hp ha), not_sameFix_left (not_isFix_tword_of_ptr hp ha),
    isPtr_tword hp ha, isInt_tword ht, intVal_tword ht]

theorem calcSub_ptr_ptr {q : Nat} (hq : ptrTag q) {b : Word} (hb : b.toNat < 2 ^ 48) (th : Thread) :
    calcSub th [tword q b, tword perm a] = one (tword 0x20 (BitVec.ofInt 64 ((a.toNat : Int) - b.toNat))) := by
  simp [calcSub, not_sameInt_left (not_isInt_tword_of_ptr hp ha), not_sameFix_left (not_isFix_tword_of_ptr hp ha),
    isPtr_tword hp ha, isPtr_tword hq hb, not_isInt_tword_of_ptr hq hb, sint, wordOfInt]

theorem calcPtrr_ptr (mask : Nat) (th : Thread) :
    calcPtrr mask th [tword perm a] = one (tword (perm &&& (0xFF ^^^ mask)) a) := by
  simp [calcPtrr, isPtr_tword hp ha, tagOf_tword_of_ptr hp]

end

/-- A moved pointer keeps its permissions within 48 bits, and takes the access fault outside. -/
theorem movePtr_tword {perm : Nat} (hp : ptrTag perm) (a : Word) (d : Int) :
    movePtr (tword perm a) d = if a.toNat + d < 0 ∨ 2 ^ 48 ≤ a.toNat + d then .error AC
      else one (tword perm (BitVec.ofInt 64 (a.toNat + d))) := by
  simp [movePtr, tagOf_tword_of_ptr hp, wordOfInt]

/-- An instruction whose calculation moves a pointer. -/
theorem moves_of_movePtr {c : Tid → Instr} {f : Thread → List TWord → Calc} {perm : Nat} (hp : ptrTag perm) {a : Word}
    {w : TWord} {d : Int} (hexec : ∀ t s, exec (c t) s = .next (s.calc t 1 2 f))
    (hf : ∀ th, f th [w, tword perm a] = movePtr (tword perm a) d) :
    (0 ≤ a.toNat + d ∧ a.toNat + d < 2 ^ 48 →
      Computes c 1 [w, tword perm a] [tword perm (BitVec.ofInt 64 (a.toNat + d))] 0 anyThread)
    ∧ (a.toNat + d < 0 ∨ 2 ^ 48 ≤ a.toNat + d → FaultsOn c 1 [w, tword perm a] AC anyThread) := by
  refine ⟨fun hin => computes_of_calc hexec fun th _ => ?_, fun hout => faultsOn_of_calc hexec fun th _ => ?_⟩
  · rw [hf, movePtr_tword hp, if_neg (by omega)]
    rfl
  · rw [hf, movePtr_tword hp, if_pos hout]

/-- What `PTRR` leaves of a permission: the bits that the mask does not name. -/
theorem testBit_and_xor_mask {perm : Nat} (hp : perm < 256) (m : Byte) (i : Nat) :
    (perm &&& (0xFF ^^^ m.toNat)).testBit i = true ↔ perm.testBit i = true ∧ m.getLsbD i = false := by
  rw [Nat.testBit_and, Nat.testBit_xor, show (0xFF : Nat) = 2 ^ 8 - 1 from rfl, Nat.testBit_two_pow_sub_one,
    BitVec.testBit_toNat]
  by_cases hi : i < 8
  · simp [hi]
  · have hbit : perm.testBit i = false := Nat.testBit_lt_two_pow
      (hp.trans_le (Nat.pow_le_pow_right (by decide : 0 < 2) (by omega : 8 ≤ i)))
    simp [hbit]

/-- `TAGSET` outside privileged code takes the privileged-instruction fault. -/
theorem faultsOn_tagset (g : Byte) (w : TWord) :
    FaultsOn (fun t => .tagset t g) 2 [w] PV (fun th => th.status.getLsbD 8 = false) := by
  intro s u t rest hready hpriv _
  have hs : ¬ (s.thread t.panel t.index).priv = true := by
    have : (s.thread t.panel t.index).priv = (u.at t).status.getLsbD 8 := by
      rw [← status_of_ready hready]
      rfl
    rw [this, hpriv]
    exact Bool.false_ne_true
  refine (congrArg _ (if_neg hs)).trans ?_
  rw [Laws.instr_ready s u t 2 _ hready]
  rfl

theorem pointersKeepTheirBounds_ptrr {perm : Nat} (hp : ptrTag perm) {a : Word} (ha : a.toNat < 2 ^ 48) {m : Byte}
    (hm : m = 0 ∨ m = 8 ∨ m = 0x10 ∨ m = 0x18) :
    ∃ left : Nat, Computes (fun t => .ptrr t m) 2 [tword perm a] [tword left a] 0 anyThread
      ∧ left / 32 = 4 ∧ left ≤ perm ∧ ∀ i : Nat, left.testBit i = true ↔ perm.testBit i = true ∧ m.getLsbD i = false := by
  have hlt : perm < 256 := by rcases hp with rfl | rfl | rfl | rfl <;> decide
  have hmask : m &&& 0xE7 = 0 := by rcases hm with rfl | rfl | rfl | rfl <;> decide
  refine ⟨perm &&& (0xFF ^^^ m.toNat), ?_, ?_, Nat.and_le_left, testBit_and_xor_mask hlt m⟩
  · exact computes_of_calc (f := calcPtrr m.toNat) (fun _ _ => congrArg _ (if_pos hmask)) fun th _ => calcPtrr_ptr hp ha m.toNat th
  · rcases hp with rfl | rfl | rfl | rfl <;> rcases hm with rfl | rfl | rfl | rfl <;> decide

/-- Settles O15: `ADD` and `SUB` of a pointer and an `INT` are the one move of the pointer, by the value or its negation. -/
theorem pointersKeepTheirBounds : Obligations.PointersKeepTheirBounds := by
  unfold Obligations.PointersKeepTheirBounds
  intro perm tag a d b hp ha hb ht
  refine ⟨?add, ?sub, fun q hq => ?diff, fun m hm => pointersKeepTheirBounds_ptrr hp ha hm, faultsOn_tagset⟩
  case add => exact moves_of_movePtr (f := calcAdd) hp (fun _ _ => rfl) (calcAdd_ptr hp ha ht d)
  case sub =>
    simp only [Int.sub_eq_add_neg]
    exact moves_of_movePtr (f := calcSub) hp (fun _ _ => rfl) (calcSub_ptr hp ha ht d)
  case diff => exact computes_of_calc (f := calcSub) (fun _ _ => rfl) fun th _ => calcSub_ptr_ptr hp ha hq hb th

/-! ### `FIX` arithmetic (R189) and division (R191) -/

theorem clampInt_of_lt {v lo hi : Int} (h : v < lo) : clampInt v lo hi = lo := if_pos h

theorem clampInt_of_gt {v lo hi : Int} (hlo : lo ≤ hi) (h : hi < v) : clampInt v lo hi = hi := by
  rw [clampInt, if_neg (by omega), if_pos h]

theorem fixResult_of_outside {tag : Nat} {v : Int} (h : v < -2 ^ 63 ∨ 2 ^ 63 ≤ v) (th : Thread) :
    fixResult th tag v = if th.ovEn then .error OV
      else .ok ([tword tag (if v < 0 then BitVec.ofInt 64 (-2 ^ 63) else BitVec.ofInt 64 (2 ^ 63 - 1))], 1) := by
  have hclamp : wordOfInt (clampInt v (-2 ^ 63) (2 ^ 63 - 1))
      = if v < 0 then BitVec.ofInt 64 (-2 ^ 63) else BitVec.ofInt 64 (2 ^ 63 - 1) := by
    rcases h with hlow | hhigh
    · rw [clampInt_of_lt hlow, if_pos (by omega)]
      rfl
    · rw [clampInt_of_gt (by decide) (by omega), if_neg (by omega)]
      rfl
  rw [fixResult, if_neg (by omega), hclamp]

/-- An instruction whose calculation is the `FIX` result `v` delivers it, clamped or with the fault. -/
theorem deliversFix_of_fixResult {c : Tid → Instr} {len : Nat} {takes : List TWord} {f : Thread → List TWord → Calc}
    {tag : Nat} {v : Int} (hexec : ∀ t s, exec (c t) s = .next (s.calc t len takes.length f))
    (hf : ∀ th, f th takes = fixResult th tag v) : DeliversFix c len takes tag v := by
  refine ⟨fun hin => ?_, fun hout => ⟨?_, ?_⟩⟩
  · exact computes_of_calc hexec fun th _ => by
      rw [hf, fixResult, if_pos hin]
      rfl
  · exact faultsOn_of_calc hexec fun th hov => by
      rw [hf, fixResult_of_outside hout, ovEn_eq_getLsbD, if_pos hov]
  · exact computes_of_calc hexec fun th hov => by
      rw [hf, fixResult_of_outside hout, ovEn_eq_getLsbD, hov, if_neg Bool.false_ne_true]

theorem roundShift_eq_nearest (v : Int) (f : Nat) : roundShift v f = nearest v f := by
  unfold roundShift nearest
  rcases Nat.eq_zero_or_pos f with rfl | hf
  · rfl
  · rw [if_neg hf.ne', if_pos (show 1 ≤ f from hf)]

section

variable {tag : Nat} (h : 0x40 ≤ tag ∧ tag ≤ 0x5F) (x y : Word)
include h

theorem tagOf_tword_of_fix : tagOf (tword tag x) = tag := tagOf_tword (by omega) x

theorem signedUnary_fix (g : Int → Int) (th : Thread) :
    signedUnary g th [tword tag x] = fixResult th tag (g x.toInt) := by
  simp [signedUnary, not_isInt_tword_of_fix h, isFix_tword h, tagOf_tword_of_fix h]

theorem fix_add : DeliversFix .add 1 [tword tag y, tword tag x] tag (x.toInt + y.toInt) :=
  deliversFix_of_fixResult (f := calcAdd) (fun _ _ => rfl) fun th => by
    simp [calcAdd, not_sameInt_tword_of_fix h, sameFix_tword h, tagOf_tword_of_fix h]

theorem fix_sub : DeliversFix .sub 1 [tword tag y, tword tag x] tag (x.toInt - y.toInt) :=
  deliversFix_of_fixResult (f := calcSub) (fun _ _ => rfl) fun th => by
    simp [calcSub, not_sameInt_tword_of_fix h, sameFix_tword h, tagOf_tword_of_fix h]

theorem fix_neg : DeliversFix .neg 1 [tword tag x] tag (-x.toInt) :=
  deliversFix_of_fixResult (fun _ _ => rfl) fun th => signedUnary_fix h x (fun v => -v) th

theorem fix_abs : DeliversFix .abs 1 [tword tag x] tag |x.toInt| := by
  rw [Int.abs_eq_natAbs]
  exact deliversFix_of_fixResult (fun _ _ => rfl) fun th => signedUnary_fix h x (fun v => (v.natAbs : Int)) th

theorem fix_mul : DeliversFix .mul 1 [tword tag y, tword tag x] tag (nearest (x.toInt * y.toInt) (tag % 32)) :=
  deliversFix_of_fixResult (f := calcMul) (fun _ _ => rfl) fun th => by
    simp [calcMul, not_sameInt_tword_of_fix h, sameFix_tword h, tagOf_tword_of_fix h, fracOf, roundShift_eq_nearest]

theorem fix_div (hy : y ≠ 0) :
    DeliversFix .div 1 [tword tag y, tword tag x] tag ((x.toInt * 2 ^ (tag % 32)).tdiv y.toInt) :=
  deliversFix_of_fixResult (f := calcDiv) (fun _ _ => rfl) fun th => by
    simp [calcDiv, sameFix_tword h, tagOf_tword_of_fix h, not_isInt_tword_of_fix h, show y ≠ 0#64 from hy, fracOf]

theorem fix_align {g : Byte} (hg : g.toNat < 32) :
    DeliversFix (fun t => .align t g) 2 [tword tag x] (0x40 + g.toNat)
      (if tag % 32 < g.toNat then x.toInt * 2 ^ (g.toNat - tag % 32) else nearest x.toInt (tag % 32 - g.toNat)) :=
  deliversFix_of_fixResult (f := calcAlign g.toNat) (fun _ _ => congrArg _ (if_pos hg)) fun th => by
    simp [calcAlign, isFix_tword h, fracOf, tagOf_tword_of_fix h, roundShift_eq_nearest]

end

theorem fixedPointRoundsAndClamps : FixedPointRoundsAndClamps := by
  intro f x y hf
  have h : 0x40 ≤ 0x40 + f ∧ 0x40 + f ≤ 0x5F := ⟨by omega, by omega⟩
  have hfrac : (0x40 + f) % 32 = f := by omega
  have hmul := fix_mul h x y
  have hdiv := fix_div h x y
  have halign {g : Byte} := fix_align h x (g := g)
  rw [hfrac] at hmul hdiv
  simp only [hfrac] at halign
  exact ⟨fix_add h x y, fix_sub h x y, fix_neg h x, fix_abs h x, hmul, hdiv, fun g hg => halign hg⟩

/-- `DZ_EN` is bit 9 of `THR_STATUS` (R174). -/
theorem dzEn_eq_getLsbD (th : Thread) : th.dzEn = th.status.getLsbD 9 := rfl

/-- An instruction whose calculation meets a zero divisor: the fault, or a delivered value with `DZ`. -/
theorem divides_by_zero {c : Tid → Instr} {takes out : List TWord} {f : Thread → List TWord → Calc}
    (hexec : ∀ t s, exec (c t) s = .next (s.calc t 1 takes.length f))
    (hf : ∀ th, f th takes = if th.dzEn then .error DZ else .ok (out, 2)) :
    FaultsOn c 1 takes DZ (fun th => th.status.getLsbD 9 = true)
    ∧ Computes c 1 takes out 2 (fun th => th.status.getLsbD 9 = false) := by
  refine ⟨faultsOn_of_calc hexec fun th hdz => ?_, computes_of_calc hexec fun th hdz => ?_⟩
  · rw [hf, dzEn_eq_getLsbD, if_pos hdz]
  · rw [hf, dzEn_eq_getLsbD, hdz, if_neg Bool.false_ne_true]

section

variable {tag : Nat} (h : tag = 0x20 ∨ tag = 0x21) (x y : Word)
include h

theorem mulh_computes : Computes .mulh 1 [tword tag y, tword tag x]
    [tword tag (BitVec.ofInt 64 (intOf tag x * intOf tag y / 2 ^ 64))] 0 anyThread :=
  computes_of_calc (f := calcMulh) (fun _ _ => rfl) fun th _ => by
    simp [calcMulh, sameInt_tword h, tagOf_tword_of_int h, intVal_tword h, wordOfInt, one]

theorem rem_computes (hy : y ≠ 0) : Computes .rem 1 [tword tag y, tword tag x]
    [tword tag (BitVec.ofInt 64 ((intOf tag x).tmod (intOf tag y)))] 0 anyThread :=
  computes_of_calc (f := calcRem) (fun _ _ => rfl) fun th _ => by
    simp [calcRem, sameInt_tword h, tagOf_tword_of_int h, intVal_tword h, wordOfInt, one, show y ≠ 0#64 from hy]

theorem rem_by_zero (th : Thread) :
    calcRem th [tword tag 0, tword tag x] = if th.dzEn then .error DZ else .ok ([tword tag x], 2) := by
  rw [calcRem, sameInt_tword h, if_neg Bool.false_ne_true.symm, payload_tword, if_pos rfl]

end

/-- What a division by zero delivers, by the class and the sign of the dividend (R191). -/
theorem divByZero_tword {tag : Nat} (hlt : tag < 256) (x : Word) :
    divByZero (tword tag x) = if tag = 0x21 then BitVec.allOnes 64
      else if 0 ≤ x.toInt then BitVec.ofInt 64 (2 ^ 63 - 1) else BitVec.ofInt 64 (-2 ^ 63) := by
  rw [divByZero, tagOf_tword hlt, payload_tword]
  split
  · rfl
  · by_cases hx : 0 ≤ x.toInt
    · rw [if_neg (by omega), if_pos hx]
      rfl
    · rw [if_pos (by omega), if_neg hx]
      rfl

theorem div_by_zero {tag : Nat} (h : tag = 0x20 ∨ tag = 0x21 ∨ (0x40 ≤ tag ∧ tag ≤ 0x5F)) (x : Word) (th : Thread) :
    calcDiv th [tword tag 0, tword tag x] = if th.dzEn then .error DZ
      else .ok ([tword tag (if tag = 0x21 then BitVec.allOnes 64
        else if 0 ≤ x.toInt then BitVec.ofInt 64 (2 ^ 63 - 1) else BitVec.ofInt 64 (-2 ^ 63))], 2) := by
  have hlt : tag < 256 := by omega
  have hsame : ¬ (sameInt (tword tag x) (tword tag 0) = false ∧ sameFix (tword tag x) (tword tag 0) = false) := by
    rcases or_assoc.mpr h with hint | hfix
    · rw [sameInt_tword hint]
      exact fun hand => Bool.noConfusion hand.1
    · rw [sameFix_tword hfix]
      exact fun hand => Bool.noConfusion hand.2
  rw [calcDiv, if_neg hsame, payload_tword, if_pos rfl, tagOf_tword hlt, divByZero_tword hlt]

theorem divisionByZeroIsDefined : DivisionByZeroIsDefined := by
  refine fun x y => ⟨fun tag h => ⟨mulh_computes h x y, fun hy => ⟨div_delivers h x y hy, rem_computes h x y hy⟩, ?_⟩,
    fun tag h => ?_⟩
  · exact divides_by_zero (f := calcRem) (fun _ _ => rfl) (rem_by_zero h x)
  · exact divides_by_zero (f := calcDiv) (fun _ _ => rfl) (div_by_zero h x)

/-- Settles O18, by its two parts. -/
theorem fixedPointAndDivision : Obligations.FixedPointAndDivision := ⟨fixedPointRoundsAndClamps, divisionByZeroIsDefined⟩

/-! ### Logic and comparisons (R186) -/

theorem isRaw_tword (x : Word) : isRaw (tword 0 x) = true := isClass_tword (by decide) (by decide) clsRaw x

section

variable {tag : Nat} (h : tag = 0 ∨ tag = 0x20 ∨ tag = 0x21) (x y : Word)
include h

theorem isBits_tword : isBits (tword tag x) = true := by
  rcases h with rfl | hint
  · rw [isBits, isRaw_tword, Bool.or_true]
  · exact isBits_tword_of_int hint x

theorem tagOf_tword_of_bits : tagOf (tword tag x) = tag := tagOf_tword (by omega) x

theorem calcLogic_tword (g : Word → Word → Word) (th : Thread) :
    calcLogic g th [tword tag y, tword tag x] = .ok ([tword tag (g x y)], 0) := by
  simp [calcLogic, isBits_tword h, tagOf_tword_of_bits h, one]

/-- Operands of unlike tags take the type fault. -/
theorem calcLogic_mismatch (g : Word → Word → Word) {other : Nat} (hne : other ≠ tag) (hlt : other < 0xE0) (th : Thread) :
    calcLogic g th [tword other y, tword tag x] = .error TY := by
  simp [calcLogic, tagOf_tword_of_bits h, tagOf_tword (show other < 256 by omega), hne.symm]

theorem calcNot_tword (th : Thread) : calcNot th [tword tag x] = .ok ([tword tag (~~~x)], 0) := by
  simp [calcNot, isBits_tword h, tagOf_tword_of_bits h, one]

end

theorem calcShift_raw {nt : Nat} (hn : nt = 0x20 ∨ nt = 0x21) (x y : Word) (g : Word → Nat → Word) (th : Thread) :
    calcShift g th [tword nt y, tword 0 x] = .ok ([tword 0 (g x (y.toNat % 64))], 0) := by
  simp [calcShift, isBits_tword (.inl rfl), isInt_tword hn, tagOf_tword_of_bits (.inl rfl), one]

theorem calcShiftImm_raw (x : Word) (g : Word → Nat → Word) (n : Nat) (th : Thread) :
    calcShiftImm g n th [tword 0 x] = .ok ([tword 0 (g x n)], 0) := by
  simp [calcShiftImm, isBits_tword (.inl rfl), tagOf_tword_of_bits (.inl rfl), one]

theorem logicIsBitwise : LogicIsBitwise := by
  intro tag x y h
  have logic {c : Tid → Instr} {g : Word → Word → Word} (hexec : ∀ t s, exec (c t) s = .next (s.calc t 1 2 (calcLogic g))) :
      Computes c 1 [tword tag y, tword tag x] [tword tag (g x y)] 0 anyThread :=
    computes_of_calc hexec fun th _ => calcLogic_tword h x y g th
  have unlike {c : Tid → Instr} {g : Word → Word → Word} (hexec : ∀ t s, exec (c t) s = .next (s.calc t 1 2 (calcLogic g)))
      {other : Nat} (hne : other ≠ tag) (hlt : other < 0xE0) : FaultsOn c 1 [tword other y, tword tag x] TY anyThread :=
    faultsOn_of_calc hexec fun th _ => calcLogic_mismatch h x y g hne hlt th
  refine ⟨logic (g := (· &&& ·)) fun _ _ => rfl, logic (g := (· ||| ·)) fun _ _ => rfl, logic (g := (· ^^^ ·)) fun _ _ => rfl,
    computes_of_calc (f := calcNot) (fun _ _ => rfl) fun th _ => calcNot_tword h x th,
    fun other hne hlt => ⟨unlike (g := (· &&& ·)) (fun _ _ => rfl) hne hlt, unlike (g := (· ||| ·)) (fun _ _ => rfl) hne hlt,
      unlike (g := (· ^^^ ·)) (fun _ _ => rfl) hne hlt⟩,
    fun nt hn => ⟨computes_of_calc (fun _ _ => rfl) fun th _ => calcShift_raw hn x y shl th,
      computes_of_calc (fun _ _ => rfl) fun th _ => calcShift_raw hn x y shr th,
      computes_of_calc (fun _ _ => rfl) fun th _ => calcShift_raw hn x y sar th⟩,
    fun n => ⟨fun hn => ?listed, fun hn => ?unlisted⟩⟩
  case listed =>
    exact ⟨computes_of_calc (fun _ _ => congrArg _ (if_pos hn)) fun th _ => calcShiftImm_raw x shl n.toNat th,
      computes_of_calc (fun _ _ => congrArg _ (if_pos hn)) fun th _ => calcShiftImm_raw x shr n.toNat th,
      computes_of_calc (fun _ _ => congrArg _ (if_pos hn)) fun th _ => calcShiftImm_raw x sar n.toNat th⟩
  case unlisted =>
    have hn' : ¬ n.toNat < 64 := by omega
    exact ⟨faultsOn_of_undefined fun _ _ => congrArg _ (if_neg hn'),
      faultsOn_of_undefined fun _ _ => congrArg _ (if_neg hn'), faultsOn_of_undefined fun _ _ => congrArg _ (if_neg hn')⟩

theorem truth_decide (p : Prop) [Decidable p] : truth (decide p) = bool01 p := by
  unfold truth bool01
  by_cases h : p <;> simp [h, uint]

theorem usable_of_wellFormed {w : TWord} (hw : malformed w = false) (hlt : tagOf w < 0xE0) : usable w = true := by
  have hclass : classOf w ≠ clsVoid := by simp only [classOf, clsVoid]; omega
  simp [usable, hw, hclass]

theorem calcEq_of_usable (want : Bool) {a b : TWord} (ha : usable a = true) (hb : usable b = true) (th : Thread) :
    calcEq want th [b, a] = one (truth (decide (a = b) == want)) := if_pos ⟨ha, hb⟩

section

variable {tag : Nat} (h : tag = 0x20 ∨ tag = 0x21 ∨ (0x40 ≤ tag ∧ tag ≤ 0x5F)) (x y : Word)
include h

/-- An order of two `INT` of one subfield, or of two `FIX` of one fraction count, is the order of their values. -/
theorem calcOrder_tword (g : Int → Int → Bool) (th : Thread) :
    calcOrder g th [tword tag y, tword tag x] = one (truth (g (intOf tag x) (intOf tag y))) := by
  rcases or_assoc.mpr h with hint | hfix
  · simp [calcOrder, sameInt_tword hint, intVal_tword hint]
  · have hne : tag ≠ 0x21 := by omega
    simp [calcOrder, not_sameInt_tword_of_fix hfix, sameFix_tword hfix, intOf, hne]

theorem choose_tword (g : Int → Int → Bool) (th : Thread) :
    choose g th [tword tag y, tword tag x] = one (tword tag (if g (intOf tag x) (intOf tag y) then x else y)) := by
  rw [apply_ite (tword tag)]
  rcases or_assoc.mpr h with hint | hfix
  · simp [choose, sameInt_tword hint, intVal_tword hint]
  · have hne : tag ≠ 0x21 := by omega
    simp [choose, not_sameInt_tword_of_fix hfix, sameFix_tword hfix, intOf, hne]

theorem calcEqz_tword (th : Thread) : calcEqz th [tword tag x] = one (bool01 (x = 0)) := by
  have hclass : isInt (tword tag x) = true ∨ isRaw (tword tag x) = true ∨ isFix (tword tag x) = true :=
    (or_assoc.mpr h).imp (isInt_tword · x) (fun hfix => .inr (isFix_tword hfix x))
  rw [calcEqz, if_pos hclass, payload_tword, truth_decide]

end

theorem calcOrder_ptr {p q : Nat} (hp : ptrTag p) {x y : Word} (hx : x.toNat < 2 ^ 48) (hq : ptrTag q) (hy : y.toNat < 2 ^ 48)
    (g : Int → Int → Bool) (th : Thread) :
    calcOrder g th [tword q y, tword p x] = one (truth (g x.toNat y.toNat)) := by
  simp [calcOrder, not_sameInt_left (not_isInt_tword_of_ptr hp hx), not_sameFix_left (not_isFix_tword_of_ptr hp hx),
    isPtr_tword hp hx, isPtr_tword hq hy]

theorem comparisonsFollowTheClass : ComparisonsFollowTheClass := by
  refine ⟨fun a b ha hb hta htb => ?equality, fun tag x y h => ?ordered, fun x => ?zero, fun p q x y hp hq hx hy => ?pointers⟩
  case equality =>
    have hua := usable_of_wellFormed ha hta
    have hub := usable_of_wellFormed hb htb
    refine ⟨computes_of_calc (f := calcEq true) (fun _ _ => rfl) fun th _ => ?_,
      computes_of_calc (f := calcEq false) (fun _ _ => rfl) fun th _ => ?_⟩
    · rw [calcEq_of_usable true hua hub, ← truth_decide, beq_true]
      rfl
    · rw [calcEq_of_usable false hua hub, ← truth_decide, beq_false, decide_not]
      rfl
  case ordered =>
    refine ⟨computes_of_calc (f := calcOrder fun a b => decide (a < b)) (fun _ _ => rfl) fun th _ => ?_,
      computes_of_calc (f := calcOrder fun a b => decide (a ≤ b)) (fun _ _ => rfl) fun th _ => ?_,
      computes_of_calc (f := calcMin) (fun _ _ => rfl) fun th _ => ?_,
      computes_of_calc (f := calcMax) (fun _ _ => rfl) fun th _ => ?_,
      computes_of_calc (f := calcEqz) (fun _ _ => rfl) fun th _ => calcEqz_tword h x th⟩
    · rw [calcOrder_tword h, truth_decide]
      rfl
    · rw [calcOrder_tword h, truth_decide]
      rfl
    · rw [calcMin, choose_tword h]
      simp only [decide_eq_true_eq, one]
    · rw [calcMax, choose_tword h]
      simp only [decide_eq_true_eq, one]
  case zero =>
    refine computes_of_calc (f := calcEqz) (fun _ _ => rfl) fun th _ => ?_
    rw [calcEqz, if_pos (.inr (.inl (isRaw_tword x))), payload_tword, truth_decide]
    rfl
  case pointers =>
    refine ⟨computes_of_calc (f := calcOrder fun a b => decide (a < b)) (fun _ _ => rfl) fun th _ => ?_,
      computes_of_calc (f := calcOrder fun a b => decide (a ≤ b)) (fun _ _ => rfl) fun th _ => ?_⟩
    · rw [calcOrder_ptr hp hx hq hy, ← truth_decide]
      simp only [Int.ofNat_lt, one]
    · rw [calcOrder_ptr hp hx hq hy, ← truth_decide]
      simp only [Int.ofNat_le, one]

/-- Settles O19, by its two parts. -/
theorem logicAndComparisons : Obligations.LogicAndComparisons := ⟨logicIsBitwise, comparisonsFollowTheClass⟩

/-! ### Tags, and words of no use to an instruction (R170, R171) -/

theorem usable_tword {tag : Nat} (hlisted : tagListed tag = true) (hlt : tag < 0xE0) {x : Word}
    (hx : x.toNat < 2 ^ 48 ∨ tag < 0x80) : usable (tword tag x) = true := by
  have htag : tagOf (tword tag x) = tag := tagOf_tword (by omega) x
  exact usable_of_wellFormed (malformed_tword (by omega) hlisted hx) (by omega)

section

variable {old : Nat} (hlisted : tagListed old = true) {x : Word}
include hlisted

/-- `AS` of a value takes any value tag, and no other. -/
theorem calcRetag_value (hold : old < 0x80) (new : Nat) (th : Thread) :
    calcRetag new th [tword old x] = if new / 32 ≤ 3 then one (tword new x) else .error TY := by
  have hclass : classOf (tword old x) ≤ 3 := by rw [classOf_tword (by omega)]; omega
  simp [calcRetag, usable_tword hlisted (by omega) (.inr hold), hclass]

/-- `AS` of a pointer, a code address or a frame word leaves `RAW` only. -/
theorem calcRetag_other (hold : 0x80 ≤ old ∧ old < 0xE0) (hx : x.toNat < 2 ^ 48) (new : Nat) (th : Thread) :
    calcRetag new th [tword old x] = if new = 0 then one (tword 0 x) else .error TY := by
  have hclass : ¬ classOf (tword old x) ≤ 3 := by rw [classOf_tword (by omega)]; omega
  simp [calcRetag, usable_tword hlisted hold.2 (.inl hx), hclass, raw]

end

theorem exec_retag {new : Byte} (h : tagListed new.toNat = true) (t : Tid) (s : State) :
    exec (.retag t new) s = .next (s.calc t 2 1 (calcRetag new.toNat)) := congrArg _ (if_pos h)

theorem computes_retag {new : Byte} (h : tagListed new.toNat = true) {w out : TWord}
    (hf : ∀ th, calcRetag new.toNat th [w] = one out) : Computes (fun t => .retag t new) 2 [w] [out] 0 anyThread :=
  computes_of_calc (c := fun t => Instr.retag t new) (f := calcRetag new.toNat) (exec_retag h) fun th _ => hf th

theorem faultsOn_retag {new : Byte} (h : tagListed new.toNat = true) {w : TWord} {code : Nat}
    (hf : ∀ th, calcRetag new.toNat th [w] = .error code) : FaultsOn (fun t => .retag t new) 2 [w] code anyThread :=
  faultsOn_of_calc (c := fun t => Instr.retag t new) (f := calcRetag new.toNat) (exec_retag h) fun th _ => hf th

theorem computes_tagset {old : Nat} (new : Byte) {x : Word} (hlisted : tagListed old = true) (hlt : old < 0xE0)
    (hx : x.toNat < 2 ^ 48) : Computes (fun t => .tagset t new) 2 [tword old x] [tword new.toNat x] 0
      (fun th => th.status.getLsbD 8 = true) := by
  intro s u t rest hready hpriv hstack htakes hout
  have hs : (s.thread t.panel t.index).priv = true := by
    have : (s.thread t.panel t.index).priv = (u.at t).status.getLsbD 8 := by
      rw [← status_of_ready hready]
      rfl
    rw [this, hpriv]
  refine (congrArg _ (if_pos hs)).trans ?_
  have hf : calcTagset new.toNat (u.at t) [tword old x] = .ok ([tword new.toNat x], 0) := by
    simp [calcTagset, usable_tword hlisted hlt (.inl hx), one]
  exact congrArg _ ((Laws.calc_ready s u t 2 [tword old x] rest _ hready ⟨hstack, htakes⟩).1 _ _ hf hout)

theorem tagInstructionsKeepThePayload : TagInstructionsKeepThePayload := by
  refine ⟨fun w => computes_of_calc (f := calcTag) (fun _ _ => rfl) fun _ _ => rfl, fun old new x hnew =>
      ⟨fun hlisted hold hsmall => ?value, fun hlisted hold hlarge => ?never, fun hlisted hlo hhi hx => ?other⟩,
    fun new hnew => ?unlisted, fun old new x hlisted hlt hx => computes_tagset new hlisted hlt hx⟩
  case value =>
    refine computes_retag hnew fun th => ?_
    rw [calcRetag_value hlisted hold, if_pos (by omega)]
  case never =>
    refine faultsOn_retag hnew fun th => ?_
    rw [calcRetag_value hlisted hold, if_neg (by omega)]
  case other =>
    refine ⟨fun hzero => computes_retag hnew fun th => ?_, fun hne => faultsOn_retag hnew fun th => ?_⟩
    · rw [calcRetag_other hlisted ⟨hlo, hhi⟩ hx, if_pos (by rw [hzero]; rfl)]
    · have : new.toNat ≠ 0 := fun h => hne (BitVec.eq_of_toNat_eq h)
      rw [calcRetag_other hlisted ⟨hlo, hhi⟩ hx, if_neg this]
  case unlisted =>
    have hn : ¬ tagListed new.toNat = true := by rw [hnew]; exact Bool.false_ne_true
    exact faultsOn_of_undefined (c := fun t => Instr.retag t new) fun _ _ => congrArg _ (if_neg hn)

/-- A word that no computing instruction takes: a malformed one, or one of an empty class. -/
def Empty (w : TWord) : Prop := malformed w = true ∨ 0xE0 ≤ tagOf w

section

variable {w : TWord} (h : Empty w)
include h

theorem not_isClass_of_empty {c : Nat} (hc : c < 7) : isClass c w = false := by
  rw [isClass, Bool.and_eq_false_iff, Bool.not_eq_false']
  refine h.symm.imp (fun htag => decide_eq_false ?_) id
  rw [classOf]
  omega

theorem not_isInt_of_empty : isInt w = false := not_isClass_of_empty h (by decide)
theorem not_isFix_of_empty : isFix w = false := not_isClass_of_empty h (by decide)
theorem not_isRaw_of_empty : isRaw w = false := not_isClass_of_empty h (by decide)
theorem not_isPtr_of_empty : isPtr w = false := not_isClass_of_empty h (by decide)
theorem not_isFlt_of_empty : isFlt w = false := not_isClass_of_empty h (by decide)

theorem not_isBits_of_empty : isBits w = false := by rw [isBits, not_isInt_of_empty h, not_isRaw_of_empty h]; rfl

theorem not_usable_of_empty : usable w = false := by
  rw [usable, Bool.and_eq_false_iff, Bool.not_eq_false']
  refine h.imp id (fun htag => decide_eq_false fun hne => hne ?_)
  have hw : w.toNat < 2 ^ 72 := w.isLt
  simp only [classOf, clsVoid, tagOf] at htag ⊢
  omega

theorem not_sameInt_of_empty (v : TWord) : sameInt w v = false ∧ sameInt v w = false := by
  simp [sameInt, not_isInt_of_empty h]

theorem not_sameFix_of_empty (v : TWord) : sameFix w v = false ∧ sameFix v w = false := by
  simp [sameFix, not_isFix_of_empty h]

end

/-- A calculation over two operands that takes no empty word in either. -/
def RejectsEmptyPair (f : Thread → List TWord → Calc) : Prop :=
  ∀ w v, Empty w → ∀ th, f th [w, v] = .error TY ∧ f th [v, w] = .error TY

/-- A calculation over one operand that takes no empty word. -/
def RejectsEmpty (f : Thread → List TWord → Calc) : Prop := ∀ w, Empty w → ∀ th, f th [w] = .error TY

theorem rejectsEmptyPair_calcAdd : RejectsEmptyPair calcAdd := fun w v h th => by
  simp [calcAdd, not_sameInt_of_empty h, not_sameFix_of_empty h, not_isPtr_of_empty h, not_isInt_of_empty h]

theorem rejectsEmptyPair_calcSub : RejectsEmptyPair calcSub := fun w v h th => by
  simp [calcSub, not_sameInt_of_empty h, not_sameFix_of_empty h, not_isPtr_of_empty h, not_isInt_of_empty h]

theorem rejectsEmptyPair_choose (g : Int → Int → Bool) : RejectsEmptyPair (choose g) := fun w v h th => by
  simp [choose, not_sameInt_of_empty h, not_sameFix_of_empty h]

theorem rejectsEmptyPair_calcMul : RejectsEmptyPair calcMul := fun w v h th => by
  simp [calcMul, not_sameInt_of_empty h, not_sameFix_of_empty h]

theorem rejectsEmptyPair_calcMulh : RejectsEmptyPair calcMulh := fun w v h th => by
  simp [calcMulh, not_sameInt_of_empty h]

theorem rejectsEmptyPair_calcDiv : RejectsEmptyPair calcDiv := fun w v h th => by
  simp [calcDiv, not_sameInt_of_empty h, not_sameFix_of_empty h]

theorem rejectsEmptyPair_calcRem : RejectsEmptyPair calcRem := fun w v h th => by
  simp [calcRem, not_sameInt_of_empty h]

theorem rejectsEmptyPair_calcLogic (g : Word → Word → Word) : RejectsEmptyPair (calcLogic g) := fun w v h th => by
  simp [calcLogic, not_isBits_of_empty h]

theorem rejectsEmptyPair_calcShift (g : Word → Nat → Word) : RejectsEmptyPair (calcShift g) := fun w v h th => by
  simp [calcShift, not_isBits_of_empty h, not_isInt_of_empty h]

theorem rejectsEmptyPair_calcEq (want : Bool) : RejectsEmptyPair (calcEq want) := fun w v h th => by
  simp [calcEq, not_usable_of_empty h]

theorem rejectsEmptyPair_calcOrder (g : Int → Int → Bool) : RejectsEmptyPair (calcOrder g) := fun w v h th => by
  simp [calcOrder, not_sameInt_of_empty h, not_sameFix_of_empty h, not_isPtr_of_empty h]

theorem rejectsEmptyPair_calcFloat2 (g : Word → Word → Word) : RejectsEmptyPair (calcFloat2 g) := fun w v h th => by
  simp [calcFloat2, not_isFlt_of_empty h]

theorem rejectsEmptyPair_calcFdiv : RejectsEmptyPair calcFdiv := fun w v h th => by
  simp [calcFdiv, not_isFlt_of_empty h]

theorem rejectsEmptyPair_calcFloatTest (g : Word → Word → Bool) : RejectsEmptyPair (calcFloatTest g) := fun w v h th => by
  simp [calcFloatTest, not_isFlt_of_empty h]

theorem rejectsEmpty_signedUnary (g : Int → Int) : RejectsEmpty (signedUnary g) := fun w h th => by
  simp [signedUnary, not_isInt_of_empty h, not_isFix_of_empty h]

theorem rejectsEmpty_calcNot : RejectsEmpty calcNot := fun w h th => by simp [calcNot, not_isBits_of_empty h]

theorem rejectsEmpty_calcEqz : RejectsEmpty calcEqz := fun w h th => by
  simp [calcEqz, not_isInt_of_empty h, not_isRaw_of_empty h, not_isFix_of_empty h]

theorem rejectsEmpty_calcFloat1 (g : Word → Word) : RejectsEmpty (calcFloat1 g) := fun w h th => by
  simp [calcFloat1, not_isFlt_of_empty h]

theorem rejectsEmpty_calcCvtIf : RejectsEmpty calcCvtIf := fun w h th => by simp [calcCvtIf, not_isInt_of_empty h]

theorem rejectsEmpty_calcCvtFi : RejectsEmpty calcCvtFi := fun w h th => by simp [calcCvtFi, not_isFlt_of_empty h]

theorem rejectsEmpty_calcCvtXf : RejectsEmpty calcCvtXf := fun w h th => by simp [calcCvtXf, not_isFix_of_empty h]

theorem emptyWordsFaultOnUse : EmptyWordsFaultOnUse := by
  intro w v hw
  have pair {c : Tid → Instr} {f : Thread → List TWord → Calc} (hf : RejectsEmptyPair f)
      (hexec : ∀ t s, exec (c t) s = .next (s.calc t 1 2 f)) : FaultsOn c 1 [w, v] TY anyThread
      ∧ FaultsOn c 1 [v, w] TY anyThread
      ∧ ∀ (s u : State) (t : Tid), Ready s t 1 u → (u.at t).depth < 2 → exec (c t) s = .next (u.faults t SB) :=
    ⟨faultsOn_of_calc hexec fun th _ => (hf w v hw th).1, faultsOn_of_calc hexec fun th _ => (hf w v hw th).2,
      fun s u t hready hd => by rw [hexec, calc_short hready hd]⟩
  have single {c : Tid → Instr} {f : Thread → List TWord → Calc} (hf : RejectsEmpty f)
      (hexec : ∀ t s, exec (c t) s = .next (s.calc t 1 1 f)) : FaultsOn c 1 [w] TY anyThread
      ∧ ∀ (s u : State) (t : Tid), Ready s t 1 u → (u.at t).depth < 1 → exec (c t) s = .next (u.faults t SB) :=
    ⟨faultsOn_of_calc hexec fun th _ => hf w hw th, fun s u t hready hd => by rw [hexec, calc_short hready hd]⟩
  simp only [List.forall_mem_cons, List.not_mem_nil, false_implies, implies_true, and_true]
  exact ⟨⟨pair rejectsEmptyPair_calcAdd fun _ _ => rfl, pair rejectsEmptyPair_calcSub fun _ _ => rfl,
      pair (rejectsEmptyPair_choose _) fun _ _ => rfl, pair (rejectsEmptyPair_choose _) fun _ _ => rfl,
      pair rejectsEmptyPair_calcMul fun _ _ => rfl, pair rejectsEmptyPair_calcMulh fun _ _ => rfl,
      pair rejectsEmptyPair_calcDiv fun _ _ => rfl, pair rejectsEmptyPair_calcRem fun _ _ => rfl,
      pair (rejectsEmptyPair_calcLogic _) fun _ _ => rfl, pair (rejectsEmptyPair_calcLogic _) fun _ _ => rfl,
      pair (rejectsEmptyPair_calcLogic _) fun _ _ => rfl, pair (rejectsEmptyPair_calcShift _) fun _ _ => rfl,
      pair (rejectsEmptyPair_calcShift _) fun _ _ => rfl, pair (rejectsEmptyPair_calcShift _) fun _ _ => rfl,
      pair (rejectsEmptyPair_calcEq _) fun _ _ => rfl, pair (rejectsEmptyPair_calcEq _) fun _ _ => rfl,
      pair (rejectsEmptyPair_calcOrder _) fun _ _ => rfl, pair (rejectsEmptyPair_calcOrder _) fun _ _ => rfl,
      pair (rejectsEmptyPair_calcFloat2 _) fun _ _ => rfl, pair (rejectsEmptyPair_calcFloat2 _) fun _ _ => rfl,
      pair (rejectsEmptyPair_calcFloat2 _) fun _ _ => rfl, pair rejectsEmptyPair_calcFdiv fun _ _ => rfl,
      pair (rejectsEmptyPair_calcFloatTest _) fun _ _ => rfl, pair (rejectsEmptyPair_calcFloatTest _) fun _ _ => rfl,
      pair (rejectsEmptyPair_calcFloatTest _) fun _ _ => rfl⟩,
    ⟨single (rejectsEmpty_signedUnary _) fun _ _ => rfl, single (rejectsEmpty_signedUnary _) fun _ _ => rfl,
      single rejectsEmpty_calcNot fun _ _ => rfl, single rejectsEmpty_calcEqz fun _ _ => rfl,
      single (rejectsEmpty_calcFloat1 _) fun _ _ => rfl, single (rejectsEmpty_calcFloat1 _) fun _ _ => rfl,
      single (rejectsEmpty_calcFloat1 _) fun _ _ => rfl, single rejectsEmpty_calcCvtIf fun _ _ => rfl,
      single rejectsEmpty_calcCvtFi fun _ _ => rfl, single rejectsEmpty_calcCvtXf fun _ _ => rfl⟩⟩

/-- Settles O20, by its two parts. -/
theorem tagsAndEmptyWords : Obligations.TagsAndEmptyWords := ⟨tagInstructionsKeepThePayload, emptyWordsFaultOnUse⟩

end Sys2Proof.Proofs
end

section
/-! PROOFS. Binary64 payloads and their values. Settles O16. -/

namespace Sys2Proof.Proofs

open Sys2Proof Sys2Proof.Machine

/-! ### The value of a binary64 payload (R191)

Without its sign a payload is a number below 2^63, and its value rises with that number. -/

/-- A payload without its sign bit. -/
def fMag (x : Word) : Nat := x.toNat % 2 ^ 63

/-- The value, times 2^1074, of a payload without sign. -/
def magValue (m : Nat) : Nat := (m % 2 ^ 52 + if m / 2 ^ 52 = 0 then 0 else 2 ^ 52) * 2 ^ (m / 2 ^ 52 - 1)

theorem fExp_eq (x : Word) : fExp x = fMag x / 2 ^ 52 := by
  unfold fExp fMag
  omega

theorem fFrac_eq (x : Word) : fFrac x = fMag x % 2 ^ 52 := by
  unfold fFrac fMag
  omega

theorem fMag_lt (x : Word) : fMag x < 2 ^ 63 := Nat.mod_lt _ (by decide)

theorem toNat_eq_sign_add_mag (x : Word) : x.toNat = signWord (fSign x) + fMag x := by
  have hx : x.toNat < 2 ^ 64 := x.isLt
  unfold fSign fMag signWord
  rw [← BitVec.testBit_toNat, Nat.testBit_eq_decide_div_mod_eq]
  by_cases h : x.toNat / 2 ^ 63 % 2 = 1
  · simp only [h, decide_true, if_true]
    omega
  · simp only [h, decide_false, Bool.false_eq_true, if_false]
    omega

theorem fltValue_eq (x : Word) : fltValue x = if fSign x then -(magValue (fMag x) : Int) else magValue (fMag x) := by
  have he := fExp_eq x
  have hf := fFrac_eq x
  unfold fExp at he
  unfold fFrac at hf
  simp only [fltValue, magValue, fSign, he, hf]
  rfl

theorem isNan_iff (x : Word) : isNan x = true ↔ 2047 * 2 ^ 52 < fMag x := by
  have hx := fMag_lt x
  simp only [isNan, fExp_eq, fFrac_eq, Bool.and_eq_true, decide_eq_true_eq]
  omega

theorem toNat_and_magnitude (x : Word) : (x &&& 0x7FFFFFFFFFFFFFFF).toNat = fMag x := by
  rw [BitVec.toNat_and]
  exact Nat.and_two_pow_sub_one_eq_mod x.toNat 63

theorem fltNan_iff (x : Word) : fltNan x ↔ isNan x = true := by
  rw [isNan_iff, fltNan, toNat_and_magnitude]
  exact Iff.rfl

/-- Every NaN that an operation leaves is one. -/
theorem fltNan_fNan (a b : Word) : fltNan (fNan a b) := by
  have hor : (fNan a b &&& 0x7FFFFFFFFFFFFFFF) = 0x7FF8000000000000 |||
      ((Config.nanBits a b &&& 0x8007FFFFFFFFFFFF) &&& 0x7FFFFFFFFFFFFFFF) := by
    rw [fNan, BitVec.and_or_distrib_right]
    rfl
  rw [fltNan, hor, BitVec.toNat_or]
  exact lt_of_lt_of_le (by decide) Nat.left_le_or

theorem isZero_iff (x : Word) : isZero x = true ↔ fMag x = 0 := by rw [isZero, decide_eq_true_iff, fMag]

theorem magValue_zero : magValue 0 = 0 := by simp [magValue]

/-- The next payload has a larger value, within a binade and from one to the next. -/
theorem magValue_lt_succ (m : Nat) : magValue m < magValue (m + 1) := by
  unfold magValue
  by_cases hlast : m % 2 ^ 52 = 2 ^ 52 - 1
  · have hdiv : (m + 1) / 2 ^ 52 = m / 2 ^ 52 + 1 := by omega
    have hmod : (m + 1) % 2 ^ 52 = 0 := by omega
    rw [hdiv, hmod, hlast, Nat.add_sub_cancel, if_neg (Nat.succ_ne_zero _), Nat.zero_add]
    rcases Nat.eq_zero_or_pos (m / 2 ^ 52) with hzero | hpos
    · rw [hzero]
      decide
    · obtain ⟨e, he⟩ : ∃ e, m / 2 ^ 52 = e + 1 := ⟨_, (Nat.sub_add_cancel hpos).symm⟩
      rw [he, if_neg (Nat.succ_ne_zero _), Nat.add_sub_cancel, show 2 ^ (e + 1) = 2 * 2 ^ e from pow_succ' 2 e, ← mul_assoc]
      exact Nat.mul_lt_mul_of_pos_right (by decide) (by positivity)
  · have hdiv : (m + 1) / 2 ^ 52 = m / 2 ^ 52 := by omega
    have hmod : (m + 1) % 2 ^ 52 = m % 2 ^ 52 + 1 := by omega
    rw [hdiv, hmod]
    exact Nat.mul_lt_mul_of_pos_right (by omega) (by positivity)

theorem magValue_strictMono : StrictMono magValue := strictMono_nat_of_lt_succ magValue_lt_succ

theorem magValue_eq_zero {m : Nat} : magValue m = 0 ↔ m = 0 := by
  conv_lhs => rw [← magValue_zero]
  exact magValue_strictMono.injective.eq_iff

theorem magValue_pos {m : Nat} (h : 0 < m) : 0 < magValue m := magValue_zero ▸ magValue_strictMono h

/-! ### Comparisons are comparisons of the values -/

section

variable {a b : Word} (ha : isNan a = false) (hb : isNan b = false)
include ha hb

theorem flt_iff : flt a b = true ↔ fltValue a < fltValue b := by
  have hma := toNat_eq_sign_add_mag a
  have hmb := toNat_eq_sign_add_mag b
  have hlt : magValue (fMag a) < magValue (fMag b) ↔ fMag a < fMag b := magValue_strictMono.lt_iff_lt
  have hgt : magValue (fMag b) < magValue (fMag a) ↔ fMag b < fMag a := magValue_strictMono.lt_iff_lt
  simp only [flt, ha, hb, Bool.not_false, Bool.true_and, fltValue_eq]
  by_cases hzero : isZero a = true ∧ isZero b = true
  · rw [if_pos hzero, (isZero_iff a).mp hzero.1, (isZero_iff b).mp hzero.2, magValue_zero]
    simp
  · rw [if_neg hzero]
    have hpos : 0 < magValue (fMag a) + magValue (fMag b) := by
      rw [isZero_iff, isZero_iff] at hzero
      rcases Nat.eq_zero_or_pos (fMag a) with h0 | h0
      · have := magValue_pos (Nat.pos_of_ne_zero fun h => hzero ⟨h0, h⟩)
        omega
      · have := magValue_pos h0
        omega
    cases hsa : fSign a <;> cases hsb : fSign b <;> rw [hsa] at hma <;> rw [hsb] at hmb <;>
      simp only [signWord, if_true, Bool.false_eq_true, if_false] at hma hmb ⊢
    case false.false =>
      rw [decide_eq_true_iff, Nat.cast_lt, hlt]
      omega
    case false.true =>
      simp only [false_iff]
      omega
    case true.false =>
      simp only [true_iff]
      omega
    case true.true =>
      rw [decide_eq_true_iff, neg_lt_neg_iff, Nat.cast_lt, hgt]
      omega

theorem feq_iff : feq a b = true ↔ fltValue a = fltValue b := by
  have hma := toNat_eq_sign_add_mag a
  have hmb := toNat_eq_sign_add_mag b
  have heq : magValue (fMag a) = magValue (fMag b) ↔ fMag a = fMag b := magValue_strictMono.injective.eq_iff
  have hza : magValue (fMag a) = 0 ↔ fMag a = 0 := magValue_eq_zero
  have hzb : magValue (fMag b) = 0 ↔ fMag b = 0 := magValue_eq_zero
  have hab : a = b ↔ a.toNat = b.toNat := BitVec.toNat_inj.symm
  have hla := fMag_lt a
  have hlb := fMag_lt b
  simp only [feq, ha, hb, Bool.not_false, Bool.true_and, fltValue_eq, Bool.or_eq_true, Bool.and_eq_true,
    decide_eq_true_iff, isZero_iff, hab, ← hza, ← hzb]
  cases hsa : fSign a <;> cases hsb : fSign b <;> rw [hsa] at hma <;> rw [hsb] at hmb <;>
    simp only [signWord, if_true, Bool.false_eq_true, if_false] at hma hmb ⊢
  case false.false => omega
  case false.true => omega
  case true.false => omega
  case true.true => omega

theorem fle_iff : fle a b = true ↔ fltValue a ≤ fltValue b := by
  rw [fle, Bool.or_eq_true, flt_iff ha hb, feq_iff ha hb]
  omega

end

section

variable {a b : Word} (h : isNan a = true ∨ isNan b = true)
include h

theorem flt_of_nan : flt a b = false := by rcases h with h | h <;> simp [flt, h]

theorem feq_of_nan : feq a b = false := by rcases h with h | h <;> simp [feq, h]

theorem fle_of_nan : fle a b = false := by rw [fle, flt_of_nan h, feq_of_nan h]; rfl

theorem fadd_of_nan : fadd a b = fNan a b := if_pos h
theorem fsub_of_nan : fsub a b = fNan a b := if_pos h
theorem fmul_of_nan : fmul a b = fNan a b := if_pos h
theorem fdiv_of_nan : fdiv a b = fNan a b := if_pos h

end

theorem fsqrt_of_nan {a : Word} (h : isNan a = true) : fsqrt a = fNan a a := if_pos h

/-! ### Conversions of integers of up to 53 bits are exact -/

/-- A number of `L` bits. -/
theorem bitLength_bounds {m : Nat} (hm : m ≠ 0) : 2 ^ (bitLength m - 1) ≤ m ∧ m < 2 ^ bitLength m ∧ 1 ≤ bitLength m := by
  rw [bitLength, if_neg hm, Nat.add_sub_cancel]
  exact ⟨Nat.log2_self_le hm, Nat.lt_log2_self, Nat.le_add_left 1 _⟩

/-- A normal payload: exponent field `E` and the significand `q` with its leading one. -/
theorem magValue_normal {E q : Nat} (hE : 1 ≤ E) (hlo : 2 ^ 52 ≤ q) (hhi : q < 2 ^ 53) :
    magValue (E * 2 ^ 52 + (q - 2 ^ 52)) = q * 2 ^ (E - 1) := by
  have hdiv : (E * 2 ^ 52 + (q - 2 ^ 52)) / 2 ^ 52 = E := by omega
  have hmod : (E * 2 ^ 52 + (q - 2 ^ 52)) % 2 ^ 52 = q - 2 ^ 52 := by omega
  rw [magValue, hdiv, hmod, if_neg (by omega), Nat.sub_add_cancel hlo]

theorem fMag_ofNat (s : Bool) {enc : Nat} (h : enc < 2 ^ 63) : fMag (BitVec.ofNat 64 (signWord s + enc)) = enc := by
  rw [fMag, BitVec.toNat_ofNat]
  cases s <;> simp only [signWord, if_true, Bool.false_eq_true, if_false] <;> omega

theorem fSign_ofNat (s : Bool) {enc : Nat} (h : enc < 2 ^ 63) : fSign (BitVec.ofNat 64 (signWord s + enc)) = s := by
  rw [fSign, ← BitVec.testBit_toNat, BitVec.toNat_ofNat, Nat.testBit_eq_decide_div_mod_eq]
  cases s <;> simp only [signWord, if_true, Bool.false_eq_true, if_false, decide_eq_true_iff, decide_eq_false_iff_not] <;>
    omega

/-- The payload that `roundPack` gives a value of at most 53 bits: its exponent field and its significand, of which no
bit is lost. -/
theorem roundPack_exact (s : Bool) {m f : Nat} (hm : m ≠ 0) (hlt : m < 2 ^ 53) (hf : f ≤ 31) :
    ∃ k, k ≤ 52 ∧ 2 ^ 52 ≤ m * 2 ^ k ∧ m * 2 ^ k < 2 ^ 53 ∧ roundPack s m (-(f : Int)) false
      = BitVec.ofNat 64 (signWord s + ((1075 - f - k) * 2 ^ 52 + (m * 2 ^ k - 2 ^ 52))) := by
  obtain ⟨hlow, hhigh, hone⟩ := bitLength_bounds hm
  have hL : bitLength m ≤ 53 := by
    by_contra hgt
    exact absurd (hlow.trans_lt hlt) (Nat.not_lt.mpr (Nat.pow_le_pow_right (by decide) (by omega)))
  obtain ⟨k, hk, hk52⟩ : ∃ k, bitLength m = 53 - k ∧ k ≤ 52 := ⟨53 - bitLength m, by omega, by omega⟩
  have hlo : 2 ^ 52 ≤ m * 2 ^ k := by
    calc 2 ^ 52 = 2 ^ (bitLength m - 1) * 2 ^ k := by rw [← pow_add, show bitLength m - 1 + k = 52 by omega]
      _ ≤ m * 2 ^ k := Nat.mul_le_mul_right _ hlow
  have hhi : m * 2 ^ k < 2 ^ 53 := by
    calc m * 2 ^ k < 2 ^ bitLength m * 2 ^ k := Nat.mul_lt_mul_of_pos_right hhigh (by positivity)
      _ = 2 ^ 53 := by rw [← pow_add, show bitLength m + k = 53 by omega]
  have htop : (bitLength m : Int) + -(f : Int) - 53 = -(f : Int) - k := by omega
  have hshift : (-(f : Int) - (-(f : Int) - k)).toNat = k := by omega
  have hexp : (-(f : Int) - k + 1075).toNat = 1075 - f - k := by omega
  refine ⟨k, hk52, hlo, hhi, ?_⟩
  simp only [roundPack, if_neg hm, htop, if_neg (show ¬ -(f : Int) - k < -1074 by omega),
    if_pos (show -(f : Int) - k ≤ -(f : Int) by omega), hshift, hexp, if_neg (Nat.not_lt.mpr hlo)]
  rw [if_neg (by omega)]

/-- An integer of up to 53 bits, with up to 31 fraction bits, converts without loss. -/
theorem fltValue_roundInt {v : Int} {f : Nat} (hv : v.natAbs < 2 ^ 53) (hf : f ≤ 31) :
    fltValue (roundInt v (-(f : Int)) false) = v * 2 ^ (1074 - f) := by
  unfold roundInt
  by_cases h0 : v = 0
  · rw [if_pos h0, h0, zero_mul]
    decide
  · rw [if_neg h0]
    obtain ⟨k, hk, hlo, hhi, heq⟩ := roundPack_exact (decide (v < 0)) (Int.natAbs_ne_zero.mpr h0) hv hf
    have henc : (1075 - f - k) * 2 ^ 52 + (v.natAbs * 2 ^ k - 2 ^ 52) < 2 ^ 63 := by omega
    have hmag : v.natAbs * 2 ^ k * 2 ^ (1075 - f - k - 1) = v.natAbs * 2 ^ (1074 - f) := by
      rw [mul_assoc, ← pow_add, show k + (1075 - f - k - 1) = 1074 - f by omega]
    rw [heq, fltValue_eq, fSign_ofNat _ henc, fMag_ofNat _ henc, magValue_normal (by omega) hlo hhi, hmag]
    push_cast
    by_cases hneg : v < 0
    · rw [if_pos (decide_eq_true hneg), abs_of_neg hneg, neg_mul, neg_neg]
    · rw [if_neg (by rw [decide_eq_false hneg]; exact Bool.false_ne_true), abs_of_nonneg (by omega)]

theorem fltValue_roundInt_zero {v : Int} (hv : v.natAbs < 2 ^ 53) : fltValue (roundInt v 0 false) = v * 2 ^ 1074 := by
  have h := fltValue_roundInt (f := 0) hv (by decide)
  rwa [Nat.cast_zero, neg_zero, Nat.sub_zero] at h

/-! ### The integer part -/

/-- The significand in place: its value over 2^1074 is the integer part of the value. -/
theorem mul_pow_div_pow (m e k : Nat) :
    m * 2 ^ e / 2 ^ k = if k ≤ e then m * 2 ^ (e - k) else m / 2 ^ (k - e) := by
  split
  · rename_i h
    rw [show 2 ^ e = 2 ^ (e - k) * 2 ^ k by rw [← pow_add, Nat.sub_add_cancel h], ← mul_assoc,
      Nat.mul_div_cancel _ (by positivity)]
  · rename_i h
    rw [show 2 ^ k = 2 ^ (k - e) * 2 ^ e by rw [← pow_add]; congr 1; omega,
      Nat.mul_div_mul_right _ _ (by positivity)]

theorem two_pow_eq_cast (k : Nat) : (2 : Int) ^ k = ((2 ^ k : Nat) : Int) := by push_cast; rfl

theorem magValue_eq_fMant (x : Word) : magValue (fMag x) = fMant x * 2 ^ (fExp x - 1) := by
  rw [magValue, fMant, fFrac_eq, fExp_eq]
  split
  · rw [Nat.add_zero]
  · rfl

theorem ftrunc_eq (x : Word) : ftrunc x = (fltValue x).tdiv (2 ^ 1074) := by
  have hscale : (if 0 ≤ fScale x then (fMant x : Int) * 2 ^ (fScale x).toNat else fMant x / 2 ^ (-fScale x).toNat)
      = ((magValue (fMag x) / 2 ^ 1074 : Nat) : Int) := by
    rw [magValue_eq_fMant, mul_pow_div_pow]
    by_cases hbig : 1074 ≤ fExp x - 1
    · have hs : fScale x = ((fExp x - 1 - 1074 : Nat) : Int) := by
        rw [fScale, if_neg (by omega)]
        omega
      rw [if_pos hbig, if_pos (by omega), hs]
      push_cast
      rfl
    · have hs : fScale x = -((1074 - (fExp x - 1) : Nat) : Int) := by
        unfold fScale
        split <;> omega
      rw [if_neg hbig, if_neg (by omega), hs, neg_neg, Int.toNat_natCast]
      push_cast
      rfl
  rw [ftrunc, hscale, fltValue_eq, two_pow_eq_cast]
  cases fSign x
  · rfl
  · rw [if_pos rfl, if_pos rfl, Int.neg_tdiv]
    rfl

/-- An infinity counts as 2^1024, far beyond the range. -/
theorem fltValue_of_inf {x : Word} (h : isInf x = true) :
    (fltValue x).tdiv (2 ^ 1074) = if fSign x then -2 ^ 1024 else 2 ^ 1024 := by
  have hexp : fExp x = 2047 ∧ fFrac x = 0 := by
    rwa [isInf, Bool.and_eq_true, decide_eq_true_eq, decide_eq_true_eq] at h
  have hmag : magValue (fMag x) / 2 ^ 1074 = 2 ^ 1024 := by
    rw [magValue_eq_fMant, mul_pow_div_pow, if_pos (by omega), fMant, if_neg (by omega), hexp.1, hexp.2, Nat.zero_add,
      ← pow_add]
  rw [fltValue_eq, two_pow_eq_cast, two_pow_eq_cast]
  cases fSign x
  · rw [if_neg Bool.false_ne_true, if_neg Bool.false_ne_true, ← hmag]
    rfl
  · rw [if_pos rfl, if_pos rfl, Int.neg_tdiv, ← hmag]
    rfl

/-! ### The instructions -/

theorem isFlt_tword (x : Word) : isFlt (tword 0x60 x) = true := isClass_tword (by decide) (by decide) clsFlt x

theorem calcFloat2_tword (g : Word → Word → Word) (x y : Word) (th : Thread) :
    calcFloat2 g th [tword 0x60 y, tword 0x60 x] = .ok ([tword 0x60 (g x y)], 0) := by
  simp [calcFloat2, isFlt_tword, one, fword]

theorem calcFloat1_tword (g : Word → Word) (x : Word) (th : Thread) :
    calcFloat1 g th [tword 0x60 x] = .ok ([tword 0x60 (g x)], 0) := by
  simp [calcFloat1, isFlt_tword, one, fword]

theorem calcFloatTest_tword (g : Word → Word → Bool) (x y : Word) (th : Thread) :
    calcFloatTest g th [tword 0x60 y, tword 0x60 x] = .ok ([truth (g x y)], 0) := by
  simp [calcFloatTest, isFlt_tword, one]

theorem isZero_iff_shiftLeft (y : Word) : isZero y = true ↔ y <<< 1 = 0 := by
  rw [isZero_iff, fMag, ← BitVec.toNat_inj, BitVec.toNat_shiftLeft, Nat.shiftLeft_eq]
  show _ ↔ y.toNat * 2 ^ 1 % 2 ^ 64 = 0
  omega

theorem calcFdiv_tword (x y : Word) (th : Thread) :
    calcFdiv th [tword 0x60 y, tword 0x60 x] = .ok ([tword 0x60 (fdiv x y)], if y <<< 1 = 0 then 2 else 0) := by
  simp only [calcFdiv, isFlt_tword, and_self, if_true, payload_tword, fword, isZero_iff_shiftLeft]

/-- A test that compares two values. -/
theorem computes_floatTest {c : Tid → Instr} {g : Word → Word → Bool} {p : Prop} [Decidable p] {x y : Word}
    (hexec : ∀ t s, exec (c t) s = .next (s.calc t 1 2 (calcFloatTest g))) (hg : g x y = true ↔ p) :
    Computes c 1 [tword 0x60 y, tword 0x60 x] [bool01 p] 0 anyThread :=
  computes_of_calc hexec fun th _ => by
    rw [calcFloatTest_tword, ← truth_decide, Bool.eq_iff_iff.mpr (hg.trans decide_eq_true_iff.symm)]

/-- A test that a NaN makes false. -/
theorem computes_floatTest_false {c : Tid → Instr} {g : Word → Word → Bool} {x y : Word}
    (hexec : ∀ t s, exec (c t) s = .next (s.calc t 1 2 (calcFloatTest g))) (hg : g x y = false) :
    Computes c 1 [tword 0x60 y, tword 0x60 x] [tword 0x21 0] 0 anyThread :=
  computes_of_calc hexec fun th _ => by
    rw [calcFloatTest_tword, hg]
    rfl

theorem computes_cvtIf {tag : Nat} (h : tag = 0x20 ∨ tag = 0x21) (x : Word) :
    Computes .cvtIf 1 [tword tag x] [tword 0x60 (roundInt (intOf tag x) 0 false)] 0 anyThread :=
  computes_of_calc (f := calcCvtIf) (fun _ _ => rfl) fun th _ => by
    simp [calcCvtIf, isInt_tword h, intVal_tword h, one, fword]

theorem computes_cvtXf {f : Nat} (hf : f ≤ 31) (x : Word) :
    Computes .cvtXf 1 [tword (0x40 + f) x] [tword 0x60 (roundInt x.toInt (-(f : Int)) false)] 0 anyThread :=
  computes_of_calc (f := calcCvtXf) (fun _ _ => rfl) fun th _ => by
    have h : 0x40 ≤ 0x40 + f ∧ 0x40 + f ≤ 0x5F := ⟨by omega, by omega⟩
    have hfrac : fracOf (tword (0x40 + f) x) = f := by rw [fracOf, tagOf_tword_of_fix h]; omega
    rw [calcCvtXf, if_pos (isFix_tword h x), fixVal_tword, hfrac]
    rfl

/-- Two results beyond the range on one side are clamped, or fault, alike. -/
theorem fixResult_congr {v v' : Int} (h : v < -2 ^ 63 ∧ v' < -2 ^ 63 ∨ 2 ^ 63 ≤ v ∧ 2 ^ 63 ≤ v') (th : Thread) (tag : Nat) :
    fixResult th tag v = fixResult th tag v' := by
  have hside : v < 0 ↔ v' < 0 := by omega
  rw [fixResult_of_outside (by omega), fixResult_of_outside (by omega)]
  simp only [hside]

theorem calcCvtFi_tword {x : Word} (h : isNan x = false) (th : Thread) :
    calcCvtFi th [tword 0x60 x] = fixResult th 0x20 ((fltValue x).tdiv (2 ^ 1074)) := by
  have hlarge : (2 : Int) ^ 63 < 2 ^ 1024 := pow_lt_pow_right₀ (by decide) (by decide)
  simp only [calcCvtFi, isFlt_tword, payload_tword, h, Bool.true_eq_false, Bool.false_eq_true, if_false]
  cases hinf : isInf x
  · rw [if_neg Bool.false_ne_true, ftrunc_eq]
  · rw [if_pos rfl, fltValue_of_inf hinf]
    cases fSign x
    · exact fixResult_congr (.inr ⟨by decide, hlarge.le⟩) th 0x20
    · exact fixResult_congr (.inl ⟨by decide, neg_lt_neg hlarge⟩) th 0x20

/-- Settles O16: each instruction runs its calculation, and the value of a payload rises with the payload, so that the
comparisons of payloads are comparisons of values. -/
theorem floatInstructionsStayInClass : Obligations.FloatInstructionsStayInClass := by
  unfold Obligations.FloatInstructionsStayInClass
  intro x y
  have two {c : Tid → Instr} {g : Word → Word → Word}
      (hexec : ∀ t s, exec (c t) s = .next (s.calc t 1 2 (calcFloat2 g))) :
      Computes c 1 [tword 0x60 y, tword 0x60 x] [tword 0x60 (g x y)] 0 anyThread :=
    computes_of_calc hexec fun th _ => calcFloat2_tword g x y th
  have single {c : Tid → Instr} {g : Word → Word} (hexec : ∀ t s, exec (c t) s = .next (s.calc t 1 1 (calcFloat1 g))) :
      Computes c 1 [tword 0x60 x] [tword 0x60 (g x)] 0 anyThread :=
    computes_of_calc hexec fun th _ => calcFloat1_tword g x th
  simp only [fltNan_iff, Bool.not_eq_true]
  refine ⟨two fun _ _ => rfl, two fun _ _ => rfl, two fun _ _ => rfl,
    computes_of_calc (f := calcFdiv) (fun _ _ => rfl) fun th _ => calcFdiv_tword x y th, single fun _ _ => rfl,
    fun h => ?nanResults, fun h => ?nanRoot, single (g := fneg) fun _ _ => rfl, single (g := fabs) fun _ _ => rfl, fun h => ?nanTests,
    fun hx hy => ?tests, fun tag h => ⟨_, computes_cvtIf h x, fltValue_roundInt_zero⟩,
    fun f hf => ⟨_, computes_cvtXf hf x, fun hv => fltValue_roundInt hv hf, fun h0 => ?fixInt⟩, fun h => ?nanToInt,
    fun h => ?toInt⟩
  case nanResults =>
    rw [fadd_of_nan h, fsub_of_nan h, fmul_of_nan h, fdiv_of_nan h, ← fltNan_iff]
    exact ⟨fltNan_fNan x y, fltNan_fNan x y, fltNan_fNan x y, fltNan_fNan x y⟩
  case nanRoot =>
    rw [fsqrt_of_nan h, ← fltNan_iff]
    exact fltNan_fNan x x
  case nanTests =>
    exact ⟨computes_floatTest_false (g := feq) (fun _ _ => rfl) (feq_of_nan h),
      computes_floatTest_false (g := flt) (fun _ _ => rfl) (flt_of_nan h),
      computes_floatTest_false (g := fle) (fun _ _ => rfl) (fle_of_nan h)⟩
  case tests =>
    exact ⟨computes_floatTest (g := feq) (fun _ _ => rfl) (feq_iff hx hy),
      computes_floatTest (g := flt) (fun _ _ => rfl) (flt_iff hx hy),
      computes_floatTest (g := fle) (fun _ _ => rfl) (fle_iff hx hy)⟩
  case fixInt =>
    subst h0
    exact computes_cvtIf (.inl rfl) x
  case nanToInt =>
    refine computes_of_calc (f := calcCvtFi) (fun _ _ => rfl) fun th _ => ?_
    simp [calcCvtFi, isFlt_tword, h, one, sint]
  case toInt => exact deliversFix_of_fixResult (f := calcCvtFi) (fun _ _ => rfl) (calcCvtFi_tword h)

end Sys2Proof.Proofs
end

section
/-! PROOFS. Retiring an instruction. Settles O21. -/

namespace Sys2Proof.Proofs

open Sys2Proof Sys2Proof.Machine

/-! ### Retiring an instruction (R168, R186)

A thread that neither journals, nor replays, nor traces retires without a trace elsewhere: its own record changes, and
the waits of others for its fetch end. -/

/-- A thread other than `t`. -/
def OtherThread (t : Tid) (p i : Nat) : Prop := p < 8 ∧ i < 16 ∧ (p, i) ≠ (t.panel.val, t.index.val)

theorem key_ne_of_otherThread {t : Tid} {p i : Nat} (h : OtherThread t p i) :
    p * 16 + i ≠ t.panel.val * 16 + t.index.val := by
  obtain ⟨_, hi, hne⟩ := h
  have hlt := t.index.isLt
  intro heq
  exact hne (Prod.ext (by dsimp only; omega) (by dsimp only; omega))

theorem thread_setThread_other {t : Tid} {p i : Nat} (h : OtherThread t p i) (s : State) (v : Thread) :
    (s.setThread t.panel t.index v).thread p i = s.thread p i := by
  rw [thread_setThread_of_key, if_neg (key_ne_of_otherThread h)]

theorem at_setThread (s : State) (t : Tid) (v : Thread) : (s.setThread t.panel t.index v).at t = v :=
  Laws.thread_setThread s t.panel t.index v

/-- Of the state no more differs than that threads other than `t` wait for fewer fetches. -/
structure OnlyYields (s u : State) (t : Tid) : Prop where
  frame : u = { s with threads := u.threads }
  own : u.at t = s.at t
  others : ∀ p i, { u.thread p i with yielded := [] } = { s.thread p i with yielded := [] }

theorem OnlyYields.refl (s : State) (t : Tid) : OnlyYields s s t := ⟨rfl, rfl, fun _ _ => rfl⟩

theorem OnlyYields.trans {s u v : State} {t : Tid} (h : OnlyYields s u t) (h' : OnlyYields u v t) : OnlyYields s v t := by
  refine ⟨?_, h'.own.trans h.own, fun p i => (h'.others p i).trans (h.others p i)⟩
  rw [h'.frame, h.frame]

theorem onlyYields_setYielded (s : State) (t : Tid) {i : Nat} (hi : i ≠ t.index.val) (l : List Nat) :
    OnlyYields s (s.setThread t.panel i { s.thread t.panel i with yielded := l }) t := by
  refine ⟨rfl, ?_, fun q j => ?_⟩
  · unfold State.at
    rw [thread_setThread_of_key, if_neg (by omega)]
  · rw [thread_setThread_of_key]
    split
    · next h =>
      have hth : s.thread q j = s.thread t.panel i := by
        unfold State.thread
        rw [h]
      rw [hth]
    · rfl

theorem onlyYields_foldl {f : State → Nat → State} {t : Tid} {l : List Nat}
    (hf : ∀ u i, i ∈ l → OnlyYields u (f u i) t) (s : State) : OnlyYields s (l.foldl f s) t := by
  induction l generalizing s with
  | nil => exact OnlyYields.refl s t
  | cons i l ih =>
    exact (hf s i List.mem_cons_self).trans (ih (fun u j hj => hf u j (List.mem_cons_of_mem i hj)) (f s i))

theorem onlyYields_fetched (s : State) (t : Tid) : OnlyYields s (s.fetched t.panel t.index) t := by
  unfold State.fetched
  refine onlyYields_foldl (fun u i hi => ?_) s
  split
  · refine onlyYields_setYielded u t ?_ _
    simpa using (List.mem_filter.mp hi).2
  · exact OnlyYields.refl u t

/-- The record of a thread that has retired an instruction: it goes on at `next`. -/
def retiredThread (th : Thread) (next kind : Nat) : Thread := { th with
  pc := next % 2 ^ 48
  retired := th.retired + 1
  yielded := []
  park := none
  arrived := []
  entryLine := none
  group := if kind = 0 then some (th.fetchOf (next - th.pc)) else none }

/-- `Plain` speaks of the registers, the journals and what the thread has adopted. -/
theorem plain_of_eq {s u : State} {t : Tid} (h : Plain s t) (hregs : u.regs = s.regs) (hj : u.journals = s.journals)
    (had : (u.at t).adopted = (s.at t).adopted) : Plain u t := by
  obtain ⟨hjr, hna, htr⟩ := h
  have hflag (pk : Nat) (f : Fld) : u.flag pk f = s.flag pk f := by
    unfold State.flag
    rw [fld_of_reg (reg_of_regs hregs pk f.off)]
  refine ⟨?_, had.trans hna, (hflag ..).trans htr⟩
  unfold State.journaled at hjr ⊢
  have hthread : (u.thread t.panel t.index).adopted = (s.thread t.panel t.index).adopted := had
  rw [hflag, hthread, show u.journal t.panel = s.journal t.panel by unfold State.journal; rw [hj]]
  exact hjr

theorem plain_of_frame {s u : State} {t : Tid} (h : Plain s t) (hu : u = { s with threads := u.threads })
    (had : (u.at t).adopted = (s.at t).adopted) : Plain u t :=
  plain_of_eq h ((congrArg State.regs hu).trans rfl) ((congrArg State.journals hu).trans rfl) had

theorem replayEntries_of_plain {s : State} {t : Tid} (h : Plain s t) : s.replayEntries t.panel t.index = [] := by
  have had : (s.thread t.panel t.index).adopted = none := h.2.1
  unfold State.replayEntries
  rw [had]

/-- A plain thread retires. -/
theorem retire_of_plain {s : State} {t : Tid} (h : Plain s t) (next kind : Nat) :
    OnlyYields (s.setThread t.panel t.index (retiredThread (s.at t) next kind)) (s.retire t.panel t.index next kind) t := by
  have hset : Plain (s.setThread t.panel t.index (retiredThread (s.at t) next kind)) t :=
    plain_of_frame h rfl (by rw [at_setThread]; rfl)
  have hy := onlyYields_fetched (s.setThread t.panel t.index (retiredThread (s.at t) next kind)) t
  have hfetched := plain_of_frame hset hy.frame (by rw [hy.own])
  have htrace : ((s.setThread t.panel t.index (retiredThread (s.at t) next kind)).fetched t.panel t.index).traceRetire
      t.panel t.index kind (next % 2 ^ 48)
      = (s.setThread t.panel t.index (retiredThread (s.at t) next kind)).fetched t.panel t.index :=
    if_pos hfetched.2.2
  have hretire : s.retire t.panel t.index next kind
      = (s.setThread t.panel t.index (retiredThread (s.at t) next kind)).fetched t.panel t.index := by
    calc s.retire t.panel t.index next kind
        = (((s.setThread t.panel t.index (retiredThread (s.at t) next kind)).fetched t.panel t.index).traceRetire
            t.panel t.index kind (next % 2 ^ 48)).replayNotes t.panel t.index
          ((((s.setThread t.panel t.index (retiredThread (s.at t) next kind)).fetched t.panel t.index).traceRetire
            t.panel t.index kind (next % 2 ^ 48)).replayEntries t.panel t.index).length := rfl
      _ = _ := by rw [htrace, replayEntries_of_plain hfetched]; rfl
  rw [hretire]
  exact hy

theorem retire_frame {s : State} {t : Tid} (h : Plain s t) (next kind : Nat) :
    s.retire t.panel t.index next kind = { s with threads := (s.retire t.panel t.index next kind).threads } := by
  have hy := retire_of_plain h next kind
  generalize s.retire t.panel t.index next kind = u at hy ⊢
  exact hy.frame.trans rfl

theorem setFault_of_none {s : State} {t : Tid} (h : (s.at t).fault = none) (code : Nat) :
    s.faults t code = s.setThread t.panel t.index { s.at t with fault := some (code, (s.at t).pc, true) } := by
  have hf : (s.thread t.panel t.index).fault = none := h
  unfold State.faults State.setFault
  dsimp only
  split
  · next x hx => rw [hf] at hx; cases hx
  · rfl

/-- Settles O21: a retiring thread is plain, so that only its record changes and the waits for its fetch end; a fault is a
write of its record. -/
theorem retiringChangesOneThread : Obligations.RetiringChangesOneThread := by
  unfold Obligations.RetiringChangesOneThread
  intro s t len stack fl hplain u
  have hleave : Plain (s.leave t stack fl) t := by
    refine plain_of_frame hplain rfl ?_
    unfold State.leave
    rw [at_setThread]
  have hy : OnlyYields _ u t := retire_of_plain hleave ((s.at t).pc + len) 0
  have hframe : u = { s.leave t stack fl with threads := u.threads } := retire_frame hleave ((s.at t).pc + len) 0
  have hl : s.leave t stack fl = { s with threads := (s.leave t stack fl).threads } := rfl
  clear_value u
  have hown : (s.leave t stack fl).at t
      = { s.at t with stack := stack, flags := (s.at t).flags ||| BitVec.ofNat 64 fl } := at_setThread ..
  refine ⟨?own, fun p i hp hi hne => ?others, ?frame, fun hf code => ⟨?fault, fun p i hp hi hne => ?faultOthers, ?faultFrame⟩⟩
  case own =>
    have hlen : (s.at t).pc + len - (s.at t).pc = len := Nat.add_sub_cancel_left ..
    have h := hy.own
    rw [at_setThread, hown] at h
    refine h.trans ?_
    simp only [retiredThread, hlen, if_true]
    rfl
  case others =>
    refine (hy.others p i).trans ?_
    rw [thread_setThread_other ⟨hp, hi, hne⟩]
    unfold State.leave
    rw [thread_setThread_other ⟨hp, hi, hne⟩]
  case frame => exact hframe.trans (by rw [hl])
  case fault =>
    rw [setFault_of_none hf]
    exact at_setThread ..
  case faultOthers =>
    rw [setFault_of_none hf]
    exact thread_setThread_other ⟨hp, hi, hne⟩ s _
  case faultFrame =>
    rw [setFault_of_none hf]
    rfl

end Sys2Proof.Proofs
end

section
/-! PROOFS. Transfers of control. Settles O22. -/

namespace Sys2Proof.Proofs

open Sys2Proof Sys2Proof.Machine

/-! ### Transfers of control (R157, R186)

Before it retires, a transfer changes what its thread and its core predict, and nothing else. -/

theorem core_setCore_of_key (s : State) (p c q d : Nat) (v : Core) :
    (s.setCore p c v).core q d = if q * 4 + d = p * 4 + c then v else s.core q d := by
  unfold State.core State.setCore
  split
  · next h => rw [h, Laws.read_write_self]
  · next h => exact Laws.read_write_ne _ _ _ _ _ _ h

/-- Only what a thread and the cores predict differs, with the counters of the predictors and the free values taken. -/
structure Steers (s u : State) (t : Tid) : Prop where
  thread : ∃ (h : BitVec 12) (r : List Nat) (i m : Word),
    u.at t = { s.at t with history := h, returns := r, specIssue := i, mispredict := m }
  others : ∀ p i, OtherThread t p i → u.thread p i = s.thread p i
  cores : ∀ p c, { u.core p c with btb := [], targets := [] } = { s.core p c with btb := [], targets := [] }
  frame : u = { s with threads := u.threads, counters := u.counters, cores := u.cores, free := u.free }

theorem Steers.refl (s : State) (t : Tid) : Steers s s t := ⟨⟨_, _, _, _, rfl⟩, fun _ _ _ => rfl, fun _ _ => rfl, rfl⟩

theorem Steers.trans {s u v : State} {t : Tid} (h : Steers s u t) (h' : Steers u v t) : Steers s v t := by
  refine ⟨?_, fun p i hpi => (h'.others p i hpi).trans (h.others p i hpi), fun p c => (h'.cores p c).trans (h.cores p c), ?_⟩
  · obtain ⟨_, _, _, _, hu⟩ := h.thread
    obtain ⟨h', r, i, m, hv⟩ := h'.thread
    exact ⟨h', r, i, m, by rw [hv, hu]⟩
  · rw [h'.frame, h.frame]

theorem steers_setThread (s : State) (t : Tid) (h : BitVec 12) (r : List Nat) (i m : Word) :
    Steers s (s.setThread t.panel t.index
      { s.at t with history := h, returns := r, specIssue := i, mispredict := m }) t :=
  ⟨⟨h, r, i, m, at_setThread ..⟩, fun _ _ hpi => thread_setThread_other hpi s _, fun _ _ => rfl, rfl⟩

theorem steers_fresh (s : State) (t : Tid) : Steers s s.fresh.2 t :=
  ⟨⟨_, _, _, _, rfl⟩, fun _ _ _ => rfl, fun _ _ => rfl, rfl⟩

theorem steers_counters (s : State) (t : Tid) (c : Store Nat) : Steers s { s with counters := c } t :=
  ⟨⟨_, _, _, _, rfl⟩, fun _ _ _ => rfl, fun _ _ => rfl, rfl⟩

theorem steers_mispredict (s : State) (t : Tid) : Steers s (s.mispredict t.panel t.index) t := by
  unfold State.mispredict State.spendSpec
  dsimp only
  refine ((steers_setThread s t _ _ _ _).trans (steers_fresh _ t)).trans (steers_setThread _ t _ _ _ _)

theorem steers_resolveBranch (s : State) (t : Tid) (taken : Bool) :
    Steers s (s.resolveBranch t.panel t.index taken) t := by
  unfold State.resolveBranch
  dsimp only
  split
  · exact Steers.refl s t
  · have hset (c : Store Nat) := (steers_counters s t c).trans (steers_setThread { s with counters := c } t
      (((s.at t).history <<< 1) ||| BitVec.ofNat 12 taken.toNat) (s.at t).returns (s.at t).specIssue (s.at t).mispredict)
    split
    · exact (hset _).trans (steers_mispredict _ t)
    · exact hset _

theorem steers_pushReturn (s : State) (t : Tid) (ret : Nat) : Steers s (s.pushReturn t.panel t.index ret) t := by
  unfold State.pushReturn
  dsimp only
  split
  · exact steers_setThread s t _ _ _ _
  · exact Steers.refl s t

theorem steers_resolveReturn (s : State) (t : Tid) (target : Nat) :
    Steers s (s.resolveReturn t.panel t.index target) t := by
  unfold State.resolveReturn
  dsimp only
  split
  · exact Steers.refl s t
  · split
    · exact Steers.refl s t
    · next top rest _ =>
      have hset := steers_setThread s t (s.at t).history rest (s.at t).specIssue (s.at t).mispredict
      split
      · exact hset
      · exact hset.trans (steers_mispredict _ t)

theorem steers_resolveJump (s : State) (t : Tid) (len target : Nat) :
    Steers s (s.resolveJump t.panel t.index len target) t := by
  unfold State.resolveJump
  dsimp only
  split
  · exact Steers.refl s t
  · split
    · split
      · exact Steers.refl s t
      · exact steers_mispredict s t
    · exact Steers.refl s t

theorem steers_learnTarget (s : State) (t : Tid) (c a target : Nat) : Steers s (s.learnTarget t.panel c a target) t := by
  unfold State.learnTarget
  dsimp only
  refine ⟨⟨_, _, _, _, rfl⟩, fun _ _ _ => rfl, fun p d => ?_, rfl⟩
  rw [core_setCore_of_key]
  split
  · next h =>
    have hc : s.core p d = s.core t.panel c := by
      unfold State.core
      rw [h]
    rw [hc]
  · rfl

/-- A thread that has retired an instruction and goes on at `pc`, with what it now predicts. -/
def goneThread (th : Thread) (h : BitVec 12) (r : List Nat) (g : Option (Nat × Nat)) (i m : Word) (pc : Nat) : Thread :=
  { th with
    history := h
    returns := r
    group := g
    specIssue := i
    mispredict := m
    pc := pc
    retired := th.retired + 1
    park := none
    arrived := []
    entryLine := none
    yielded := [] }

/-- Only the record of a thread differs: it is `w`. -/
structure Sets (s u : State) (t : Tid) (w : Thread) : Prop where
  own : u.at t = w
  others : ∀ p i, OtherThread t p i → u.thread p i = s.thread p i
  frame : u = { s with threads := u.threads }

theorem Sets.refl (s : State) (t : Tid) : Sets s s t (s.at t) := ⟨rfl, fun _ _ _ => rfl, rfl⟩

theorem sets_setThread (s : State) (t : Tid) (w : Thread) : Sets s (s.setThread t.panel t.index w) t w :=
  ⟨at_setThread s t w, fun _ _ h => thread_setThread_other h s w, rfl⟩

theorem Sets.trans {s u v : State} {t : Tid} {w x : Thread} (h : Sets s u t w) (h' : Sets u v t x) : Sets s v t x :=
  ⟨h'.own, fun p i hpi => (h'.others p i hpi).trans (h.others p i hpi), by rw [h'.frame, h.frame]⟩

/-- A plain thread's record is replaced, its transfer steers, and it retires. -/
theorem goes_of_retire {s b v : State} {t : Tid} {w : Thread} {stack : List Slot} {f : Thread → Thread} (hplain : Plain s t)
    (hset : Sets s b t w) (hsteer : Steers b v t) (hw : w.adopted = (s.at t).adopted)
    (hf : ∀ h r g i m pc, goneThread w h r g i m pc = f (goneThread { s.at t with stack := stack } h r g i m pc))
    (next kind : Nat) :
    Goes s (v.retire t.panel t.index next kind) t (next % 2 ^ 48) stack f := by
  obtain ⟨h, r, i, m, hv⟩ := hsteer.thread
  have hframe : v = { s with threads := v.threads, counters := v.counters, cores := v.cores, free := v.free } := by
    rw [hsteer.frame, hset.frame]
  have hpv : Plain v t := by
    refine plain_of_eq hplain ((congrArg State.regs hframe).trans rfl) ((congrArg State.journals hframe).trans rfl) ?_
    rw [hv, hset.own]
    exact hw
  have hy := retire_of_plain hpv next kind
  have hfr := retire_frame hpv next kind
  generalize v.retire t.panel t.index next kind = u at hy hfr ⊢
  refine ⟨?own, fun p j hp hj hne => ?others, fun p c _ _ => ?cores, ?frame⟩
  case own =>
    refine ⟨h, r, if kind = 0 then some ((v.at t).fetchOf (next - (v.at t).pc)) else none, i, m, ?_⟩
    refine hy.own.trans ((at_setThread ..).trans (Eq.trans ?_ (hf h r _ i m _)))
    rw [hv, hset.own]
    rfl
  case others =>
    refine (hy.others p j).trans ?_
    rw [thread_setThread_other ⟨hp, hj, hne⟩, hsteer.others p j ⟨hp, hj, hne⟩, hset.others p j ⟨hp, hj, hne⟩]
  case cores =>
    have hc : u.core p c = v.core p c := by
      unfold State.core
      rw [show u.cores = v.cores from (congrArg State.cores hfr).trans rfl]
    have hb : b.core p c = s.core p c := by
      unfold State.core
      rw [show b.cores = s.cores from (congrArg State.cores hset.frame).trans rfl]
    rw [hc, hsteer.cores p c, hb]
  case frame => rw [hfr, hframe]

/-- What a refetch forgets is the place of the next instruction in its fetch. -/
theorem goes_refetch {s u : State} {t : Tid} {pc : Nat} {stack : List Slot} (h : Goes s u t pc stack id) :
    Goes s (u.refetch t.panel t.index) t pc stack id := by
  obtain ⟨⟨hi, r, g, i, m, hown⟩, hothers, hcores, hframe⟩ := h
  refine ⟨⟨hi, r, none, i, m, ?_⟩, fun p j hp hj hne => ?_, fun p c hp hc => ?_, ?_⟩
  · refine (at_setThread ..).trans ?_
    rw [show u.thread t.panel t.index = _ from hown]
    rfl
  · refine Eq.trans ?_ (hothers p j hp hj hne)
    unfold State.refetch
    rw [thread_setThread_other ⟨hp, hj, hne⟩]
  · exact hcores p c hp hc
  · have hr : u.refetch t.panel t.index = { u with threads := (u.refetch t.panel t.index).threads } := rfl
    generalize u.refetch t.panel t.index = v at hr ⊢
    rw [hr, hframe]

theorem goes_of_leap {s b v : State} {t : Tid} {w : Thread} {stack : List Slot} {f : Thread → Thread} (hplain : Plain s t)
    (hset : Sets s b t w) (hsteer : Steers b v t) (hw : w.adopted = (s.at t).adopted)
    (hf : ∀ h r g i m pc, goneThread w h r g i m pc = f (goneThread { s.at t with stack := stack } h r g i m pc))
    (len target kind : Nat) :
    Goes s (v.leap t.panel t.index len target kind) t (target % 2 ^ 48) stack f := by
  unfold State.leap
  dsimp only
  refine goes_of_retire hplain hset ?_ hw hf target kind
  split
  · exact hsteer.trans (steers_learnTarget v t _ _ _)
  · exact hsteer

/-- An address within 48 bits, named from another by a displacement. -/
theorem codeAddr_eq {a : Int} {target : Nat} (h : target < 2 ^ 48) (hk : ∃ k : Int, a = target + k * 2 ^ 48) :
    codeAddr a = target := by
  obtain ⟨k, rfl⟩ := hk
  have h' : (target : Int) < 2 ^ 48 := by exact_mod_cast h
  rw [codeAddr, unsign, Int.add_mul_emod_self_right, Int.emod_eq_of_lt (Int.natCast_nonneg _) h', Int.toNat_natCast]

/-- The address that a displacement names from the next instruction, where it lies within 48 bits. -/
theorem target_eq {s : State} {t : Tid} {len target : Nat} {d : Int} (h : target < 2 ^ 48)
    (hk : ∃ k : Int, ((s.at t).pc : Int) + len + d = target + k * 2 ^ 48) :
    s.target t.panel t.index len d = target := codeAddr_eq h (by
  obtain ⟨k, hk⟩ := hk
  exact ⟨k, by rw [← hk]; simp [State.after, State.at]⟩)

/-- The operand on top of renamed entries is popped. -/
theorem replace_pop {s : State} {t : Tid} {w : TWord} {rest : List Slot} (h : Operands s t [w] rest) :
    s.replace t.panel t.index 1 [] = .ok (s.setThread t.panel t.index { s.at t with stack := rest }) := by
  obtain ⟨hstack, hlen⟩ := h
  have hs : (s.thread t.panel t.index).stack = .word w :: rest := hstack
  unfold State.replace
  rw [hs]
  exact Laws.setStack_small s t.panel t.index rest (by simp only [List.length_singleton] at hlen; omega)

theorem goes_br {s s1 : State} {t : Tid} {disp : Disp} {target : Nat} (hplain : Plain s1 t) (h : target < 2 ^ 48)
    (hk : ∃ k : Int, ((s1.at t).pc : Int) + dispLength disp + dispValue disp = target + k * 2 ^ 48)
    (hready : Ready s t (dispLength disp) s1) :
    ∃ u : State, exec (.br t disp) s = .next u ∧ Goes s1 u t target (s1.at t).stack id := by
  refine ⟨_, rfl, ?_⟩
  rw [Laws.instr_ready s s1 t _ _ hready]
  have hg := goes_of_leap hplain (Sets.refl s1 t) (Steers.refl s1 t) rfl (fun _ _ _ _ _ _ => rfl) (f := id)
    (stack := (s1.at t).stack) (dispLength disp) target 1
  rw [Nat.mod_eq_of_lt h] at hg
  dsimp only
  rw [target_eq h hk]
  exact hg

/-- What a conditional branch leaves once its operand is popped. -/
def branched (b : State) (t : Tid) (len target next : Nat) (taken : Bool) : State :=
  let s3 := b.resolveBranch t.panel t.index taken
  let wrong := decide ((s3.thread t.panel t.index).mispredict ≠ (b.thread t.panel t.index).mispredict)
  if taken then s3.leap t.panel t.index len target 1
  else
    let s4 := s3.retire t.panel t.index next 0
    if wrong then s4.refetch t.panel t.index else s4

theorem branchIf_eq {s s1 : State} {t : Tid} {disp : Disp} {w : TWord} {rest : List Slot} (hw : isInt w = true)
    (hready : Ready s t (dispLength disp) s1) (hops : Operands s1 t [w] rest) (want : Bool) :
    s.branchIf t disp want = branched (s1.setThread t.panel t.index { s1.at t with stack := rest }) t (dispLength disp)
      (s1.target t.panel t.index (dispLength disp) (dispValue disp)) (s1.after t.panel t.index (dispLength disp))
      (decide (payload w = 0) == want) := by
  have hpeek := Laws.peek_renamed s1 t [w] rest hops
  rw [List.length_singleton] at hpeek
  unfold State.branchIf
  dsimp only
  rw [Laws.instr_ready s s1 t _ _ hready, hpeek]
  dsimp only
  rw [hw, if_pos rfl, replace_pop hops]
  unfold branched
  cases decide (payload w = 0) == want <;> rfl

theorem goes_branched {s b : State} {t : Tid} {stack : List Slot} (hplain : Plain s t)
    (hset : Sets s b t { s.at t with stack := stack }) (len : Nat) {target next : Nat} (taken : Bool) :
    Goes s (branched b t len target next taken) t ((if taken then target else next) % 2 ^ 48) stack id := by
  have hsteer := steers_resolveBranch b t taken
  cases taken
  · have hg := goes_of_retire (f := id) (stack := stack) hplain hset hsteer rfl (fun _ _ _ _ _ _ => rfl) next 0
    unfold branched
    dsimp only
    rw [if_neg Bool.false_ne_true, if_neg Bool.false_ne_true]
    split
    · exact goes_refetch hg
    · exact hg
  · exact goes_of_leap (f := id) (stack := stack) hplain hset hsteer rfl (fun _ _ _ _ _ _ => rfl) len target 1

/-- A conditional branch with an `INT` on top: it is taken where the word is zero as wanted. -/
theorem goes_branchIf {s s1 : State} {t : Tid} {disp : Disp} {target tag : Nat} {x : Word} {rest : List Slot}
    (hplain : Plain s1 t) (h : target < 2 ^ 48)
    (hk : ∃ k : Int, ((s1.at t).pc : Int) + dispLength disp + dispValue disp = target + k * 2 ^ 48)
    (htag : tag = 0x20 ∨ tag = 0x21) (hready : Ready s t (dispLength disp) s1)
    (hops : Operands s1 t [tword tag x] rest) (want : Bool) :
    Goes s1 (s.branchIf t disp want) t
      (if decide (x = 0) = want then target else ((s1.at t).pc + dispLength disp) % 2 ^ 48) rest id := by
  have hg := goes_branched (target := target) (next := (s1.at t).pc + dispLength disp) hplain
    (sets_setThread s1 t { s1.at t with stack := rest }) (dispLength disp) (decide (x = 0) == want)
  rw [branchIf_eq (isInt_tword htag x) hready hops, target_eq h hk, payload_tword]
  simp only [beq_iff_eq] at hg
  rwa [apply_ite (· % 2 ^ 48), Nat.mod_eq_of_lt h] at hg

/-- A conditional branch over a word of another class. -/
theorem branchIf_faults {s s1 : State} {t : Tid} {disp : Disp} {w : TWord} {rest : List Slot} (hw : isClass 1 w = false)
    (hready : Ready s t (dispLength disp) s1) (hops : Operands s1 t [w] rest) (want : Bool) :
    s.branchIf t disp want = s1.faults t TY := by
  have hpeek := Laws.peek_renamed s1 t [w] rest hops
  rw [List.length_singleton] at hpeek
  have hint : isInt w = false := hw
  unfold State.branchIf
  dsimp only
  rw [Laws.instr_ready s s1 t _ _ hready, hpeek]
  dsimp only
  rw [hint, if_neg Bool.false_ne_true]
  rfl

theorem popCode_eq {s : State} {t : Tid} {a : Word} {rest : List Slot} (ha : a.toNat < 2 ^ 48)
    (hops : Operands s t [tword 0xA0 a] rest) :
    s.popCode t.panel t.index = .ok (a.toNat, s.setThread t.panel t.index { s.at t with stack := rest }) := by
  have hpeek := Laws.peek_renamed s t [tword 0xA0 a] rest hops
  rw [List.length_singleton] at hpeek
  have hcode : isClass clsCode (tword 0xA0 a) = true :=
    isClass_tword_of_address (by decide) (by decide) (.inl ha) clsCode
  unfold State.popCode
  rw [hpeek]
  dsimp only
  rw [if_pos hcode, replace_pop hops]
  dsimp only
  rw [payload_tword, Nat.mod_eq_of_lt ha]

theorem popCode_error {s : State} {t : Tid} {w : TWord} {rest : List Slot} (hw : isClass 5 w = false)
    (hops : Operands s t [w] rest) :
    s.popCode t.panel t.index = .error (faultStop t.panel t.index TY) := by
  have hpeek := Laws.peek_renamed s t [w] rest hops
  rw [List.length_singleton] at hpeek
  have hcode : ¬ isClass clsCode w = true := by
    rw [show isClass clsCode w = false from hw]
    exact Bool.false_ne_true
  unfold State.popCode
  rw [hpeek]
  exact if_neg hcode

theorem goes_jmp {s s1 : State} {t : Tid} {a : Word} {rest : List Slot} (hplain : Plain s1 t) (ha : a.toNat < 2 ^ 48)
    (hready : Ready s t 1 s1) (hops : Operands s1 t [tword 0xA0 a] rest) :
    ∃ u : State, exec (.jmp t) s = .next u ∧ Goes s1 u t a.toNat rest id := by
  refine ⟨_, rfl, ?_⟩
  rw [Laws.instr_ready s s1 t _ _ hready, popCode_eq ha hops]
  have hset := sets_setThread s1 t { s1.at t with stack := rest }
  have hg := goes_of_leap (f := id) (stack := rest) hplain hset (steers_resolveJump _ t 1 a.toNat) rfl
    (fun _ _ _ _ _ _ => rfl) 1 a.toNat 4
  rw [Nat.mod_eq_of_lt ha] at hg
  exact hg

theorem jmp_faults {s s1 : State} {t : Tid} {w : TWord} {rest : List Slot} (hw : isClass 5 w = false)
    (hready : Ready s t 1 s1) (hops : Operands s1 t [w] rest) : exec (.jmp t) s = .next (s1.faults t TY) := by
  refine congrArg _ ((Laws.instr_ready s s1 t _ _ hready).trans ?_)
  rw [popCode_error hw hops]
  rfl

/-- Settles O22: each branch retires at the address that its operand chooses, and before that only predicts. -/
theorem branchesFollowTheirOperand : Obligations.BranchesFollowTheirOperand := by
  unfold Obligations.BranchesFollowTheirOperand
  intro s s1 t disp rest hplain len next target htarget hk
  refine ⟨goes_br hplain htarget hk, fun tag x htag hready hops => ⟨⟨_, rfl, ?bz⟩, ⟨_, rfl, ?bnz⟩⟩,
    fun w hw hready hops => ⟨congrArg _ (branchIf_faults hw hready hops true),
      congrArg _ (branchIf_faults hw hready hops false)⟩,
    fun a ha hready hops => goes_jmp hplain ha hready hops, fun w hw hready hops => jmp_faults hw hready hops⟩
  case bz =>
    have hg := goes_branchIf hplain htarget hk htag hready hops true
    simpa only [decide_eq_true_eq] using hg
  case bnz =>
    have hg := goes_branchIf hplain htarget hk htag hready hops false
    by_cases hx : x = 0
    · rw [if_pos hx]
      rwa [decide_eq_true hx, if_neg Bool.false_ne_true.symm] at hg
    · rw [if_neg hx]
      rwa [decide_eq_false hx, if_pos rfl] at hg

end Sys2Proof.Proofs
end

section
/-! PROOFS. Words of scratch banks, and loads from them. Settles O23. -/

namespace Sys2Proof.Proofs

open Sys2Proof Sys2Proof.Machine

/-! ### Words of scratch banks (R180, R221)

A word in which no error stands and that no other port writes is read and written without any trace elsewhere. -/

/-- The core of a thread has no injected difference that awaits an output (R368). -/
def NoInjection (s : State) (t : Tid) : Prop := (s.core t.panel (t.index.val / 4)).inject = none

theorem noInjection_of_ready {s u : State} {t : Tid} {len : Nat} (h : Ready s t len u) : NoInjection u t := h.2.2

theorem noteOutput_of_noInjection {s : State} {t : Tid} (h : NoInjection s t) (output : Nat) :
    s.noteOutput t.panel (t.index.val / 4) output = s := if_pos h

theorem spot_of_plain {s : State} {t : Tid} (h : (s.at t).adopted = none) (a : Nat) :
    s.spot t.panel t.index a = s.panelSpot t.panel a := if_pos h

/-- A bank answers below 2 MiB only (R375). -/
theorem lt_of_panelSpot_bank {s : State} {p a : Nat} (h : s.panelSpot p a = .mem p a .bank) : a < 0x200000 := by
  by_contra hge
  unfold State.panelSpot at h
  have hregion : ∀ b, regionOf p a ≠ .scratch b := by
    intro b hb
    unfold regionOf at hb
    rw [if_neg hge] at hb
    split at hb
    · cases hb
    split at hb
    · cases hb
    split at hb
    · cases hb
    split at hb
    · cases hb
    split at hb <;> cases hb
  generalize regionOf p a = r at h hregion
  cases r with
  | scratch b => exact hregion b rfl
  | page pk off => cases h
  | dram b =>
    simp only [State.spotOf] at h
    split at h
    · cases h
    split at h <;> cases h
  | remote q b =>
    simp only [State.spotOf] at h
    split at h <;> cases h
  | unmapped => cases h

/-- A word that a thread reads or writes without a trace elsewhere: one of `PlainWord`, but that another port may have
written it in this tick. -/
structure Still (s : State) (t : Tid) (a : Nat) : Prop where
  spot : s.panelSpot t.panel a = .mem t.panel a .bank
  good : s.bad t.panel a = false
  clean : s.errorsIn 0 0 [memKey t.panel a] = []

theorem still_of_plainWord {s : State} {t : Tid} {a : Nat} (h : PlainWord s t a) : Still s t a :=
  ⟨h.1, h.2.1, h.2.2.1⟩

theorem adopted_of_plainWord {s : State} {t : Tid} {a : Nat} (h : PlainWord s t a) : (s.at t).adopted = none :=
  h.2.2.2.2.2

theorem journaled_of_plainWord {s : State} {t : Tid} {a : Nat} (h : PlainWord s t a) :
    s.journaled t.panel t.index = false := h.2.2.2.2.1

/-- Where no error stands, nothing is corrected. -/
theorem correct_of_clean {s : State} {p array core : Nat} {keys : List Nat} (h : s.errorsIn array core keys = [])
    (port : Nat) : s.correct p array core port keys = s := by
  unfold State.correct
  dsimp only
  rw [h]
  simp only [List.filter_nil, List.foldl_nil, List.contains_nil, Bool.not_false]
  rw [List.filter_eq_self.mpr fun _ _ => rfl]

theorem readSpot_still {s : State} {t : Tid} {a : Nat} (hinj : NoInjection s t) (h : Still s t a)
    (dead : Except Stop (TWord × State)) :
    s.readSpot t.panel t.index (s.panelSpot t.panel a) dead = .ok (s.word t.panel a, s) := by
  rw [h.spot]
  unfold State.readSpot State.readMem
  dsimp only
  rw [h.good, if_neg Bool.false_ne_true, noteOutput_of_noInjection hinj, correct_of_clean h.clean]

theorem readWord_still {s : State} {t : Tid} {a : Nat} (hinj : NoInjection s t) (had : (s.at t).adopted = none)
    (h : Still s t a) : s.readWord t.panel t.index a = .ok (s.word t.panel a, s) := by
  unfold State.readWord
  rw [spot_of_plain had, readSpot_still hinj h]

/-! #### Writes -/

/-- A word of a bank, written by a thread. -/
def banked (s : State) (t : Tid) (a : Nat) (w : TWord) : State :=
  (s.noteBank t.panel (1 + t.index.val / 4) a).setWord t.panel a w

theorem lostBefore_of_plain {s : State} {t : Tid} (had : (s.at t).adopted = none) :
    s.lostBefore t.panel t.index = false := by
  have h : (s.thread t.panel t.index).adopted = none := had
  unfold State.lostBefore State.replayEntries
  rw [h]
  rfl

theorem holdRoom_of_plain {s : State} {t : Tid} (hj : s.journaled t.panel t.index = false) (a : Nat) :
    s.holdRoom t.panel t.index a = true := by
  unfold State.holdRoom State.holdRooms
  dsimp only
  rw [if_neg (fun h => by rw [hj] at h; exact Bool.false_ne_true h.1)]

theorem holdWrite_of_plain {s : State} {t : Tid} (hj : s.journaled t.panel t.index = false) (a : Nat) :
    s.holdWrite t.panel t.index a = s :=
  if_neg fun h => by rw [hj] at h; exact Bool.false_ne_true h.1

theorem writeWord_bank {s : State} {t : Tid} {a : Nat} (hinj : NoInjection s t) (had : (s.at t).adopted = none)
    (hj : s.journaled t.panel t.index = false) (hspot : s.panelSpot t.panel a = .mem t.panel a .bank) (w : TWord) :
    s.writeWord t.panel t.index a none w = .ok (banked s t a w) := by
  have ha : a < dramBase := (lt_of_panelSpot_bank hspot).trans (by decide)
  have hthrough (u : State) : u.throughL2 t.panel a none = u := if_pos ha
  have hhold : (banked s t a w).holdWrite t.panel t.index a = banked s t a w :=
    holdWrite_of_plain (s := banked s t a w) hj a
  unfold State.writeWord
  rw [spot_of_plain had, hspot]
  dsimp only
  rw [lostBefore_of_plain had, if_pos ⟨rfl, rfl⟩]
  unfold State.beatenBy State.putWord
  dsimp only
  rw [lostBefore_of_plain had, if_neg Bool.false_ne_true, if_neg (fun h => nomatch h.1), if_neg (fun h => nomatch h.1),
    holdRoom_of_plain hj, if_neg (fun h => Bool.false_ne_true h.symm), noteOutput_of_noInjection hinj, if_neg (fun h => nomatch h),
    hthrough]
  exact congrArg Except.ok hhold

/-- No other port has written the word in this tick, so a push meets no rival. -/
theorem pushWord_bank {s : State} {t : Tid} {a : Nat} (hinj : NoInjection s t) (had : (s.at t).adopted = none)
    (hj : s.journaled t.panel t.index = false) (hspot : s.panelSpot t.panel a = .mem t.panel a .bank)
    (hw : ∀ x ∈ s.bankWrites, (x.1, x.2.2) ≠ (t.panel.val, a)) (w : TWord) :
    s.pushWord t.panel t.index a w = .ok (banked s t a w) := by
  have hfind : s.bankWrites.find? (fun x => decide (x.1 = t.panel.val) && decide (x.2.1 < 1 + t.index.val / 4)
      && decide (x.2.2 = a)) = none := by
    refine List.find?_eq_none.mpr fun x hx hp => hw x hx ?_
    simp only [Bool.and_eq_true, decide_eq_true_eq] at hp
    rw [hp.1.1, hp.2]
  have hrival : s.rivalAt t.panel t.index a = (none, s) := by
    unfold State.rivalAt
    rw [spot_of_plain had, hspot]
    dsimp only
    rw [hfind]
  unfold State.pushWord
  rw [hrival]
  exact writeWord_bank hinj had hj hspot w

section

variable (s : State) (t : Tid) (a : Nat) (w : TWord)

/-- What a write to a bank changes. -/
theorem banked_frame : banked s t a w = { s with
    mem := (banked s t a w).mem
    badWords := (banked s t a w).badWords
    poisoned := (banked s t a w).poisoned
    flips := (banked s t a w).flips
    bankWrites := (banked s t a w).bankWrites } := rfl

theorem banked_mem : (banked s t a w).mem = Store.write voidWord s.mem (memKey t.panel a) w := rfl

theorem banked_bankWrites :
    (banked s t a w).bankWrites = (t.panel.val, 1 + t.index.val / 4, a) :: s.bankWrites := rfl

theorem banked_flips : (banked s t a w).flips = s.flips.filter (fun f => decide (f.key ≠ memKey t.panel a)
    || decide (f.array = 2) || decide (f.array = 4)) := rfl

theorem banked_poisoned :
    (banked s t a w).poisoned = s.poisoned.filter (fun j => decide (j ≠ memKey t.panel a / 16)) := rfl

theorem banked_badWords : (banked s t a w).badWords = (if s.poisoned.contains (memKey t.panel a / 16)
    then s.badWords ++ (List.range 16).map (fun i => memKey t.panel a / 16 * 16 + i) else s.badWords).filter
      (fun j => decide (j ≠ memKey t.panel a)) := rfl

theorem word_banked (q b : Nat) :
    (banked s t a w).word q b = if memKey q b = memKey t.panel a then w else s.word q b := by
  unfold State.word
  rw [banked_mem]
  split
  · next h => rw [h, Laws.read_write_self]
  · next h => exact Laws.read_write_ne _ _ _ _ _ _ h

end

theorem onlyWords_banked (s : State) (t : Tid) (a : Nat) (w : TWord) : OnlyWords s (banked s t a w) t.panel [a] := by
  refine ⟨banked_frame s t a w, fun q b hqb => ?_⟩
  rw [word_banked, if_neg]
  simpa using hqb

theorem onlyWords_trans {s u v : State} {p : Nat} {l l' : List Nat} (h : OnlyWords s u p l) (h' : OnlyWords u v p l') :
    OnlyWords s v p (l ++ l') := by
  obtain ⟨hframe, hword⟩ := h
  obtain ⟨hframe', hword'⟩ := h'
  refine ⟨by rw [hframe', hframe], fun q b hqb => ?_⟩
  rw [List.map_append, List.mem_append, not_or] at hqb
  exact (hword' q b hqb.2).trans (hword q b hqb.1)

/-! ### Bytes (R169, R180) -/

theorem memKey_word (p a : Nat) : memKey p (a / 8 * 8) = memKey p a := by
  unfold memKey
  omega

theorem bytesAt_succ (s : State) (p a n : Nat) : s.bytesAt p a (n + 1) = s.bytesAt p a n + s.byteAt p (a + n) * 256 ^ n := by
  simp [State.bytesAt, List.range_succ]

theorem bytesAt_add (s : State) (p a m n : Nat) :
    s.bytesAt p a (m + n) = s.bytesAt p a m + s.bytesAt p (a + m) n * 256 ^ m := by
  induction n with
  | zero => simp [State.bytesAt]
  | succ n ih => rw [← Nat.add_assoc, bytesAt_succ, ih, bytesAt_succ, Nat.add_mul, Nat.add_assoc a, pow_add]; ring

theorem byteAt_within (s : State) (p a i : Nat) (h : a % 8 + i < 8) :
    s.byteAt p (a + i) = (payload (s.word p (a / 8 * 8))).toNat / 2 ^ (8 * (a % 8)) / 256 ^ i % 256 := by
  have hword : (a + i) / 8 * 8 = a / 8 * 8 := by omega
  have hpos : (a + i) % 8 = a % 8 + i := by omega
  rw [State.byteAt, hword, hpos, Nat.mul_add, pow_add, ← Nat.div_div_eq_div_mul, show (256 : Nat) = 2 ^ 8 from rfl,
    ← pow_mul]

theorem two_pow_eight_mul (n : Nat) : 2 ^ (8 * n) = 256 ^ n := by rw [pow_mul]; norm_num

/-- The bytes of one word, in their order. -/
theorem getBytes_word (s : State) (p a n : Nat) (h : a % 8 + n ≤ 8) :
    getBytes (s.word p (a / 8 * 8)) (a % 8) n = s.bytesAt p a n := by
  unfold getBytes
  rw [two_pow_eight_mul n]
  induction n with
  | zero => simp [State.bytesAt, Nat.mod_one]
  | succ n ih => rw [Nat.mod_pow_succ, ih (by omega), bytesAt_succ, byteAt_within s p a n (by omega), Nat.mul_comm]

/-- The words that an access of `n` bytes reaches, as its parts name them. -/
theorem exists_byte_of_mem_parts {a n : Nat} (hn : 0 < n) {x : Nat × Nat} (hx : x ∈ parts a n) :
    ∃ i, i < n ∧ x.1 / 8 * 8 = (a + i) / 8 * 8 := by
  unfold parts at hx
  dsimp only at hx
  split at hx
  · obtain rfl := List.mem_singleton.mp hx
    exact ⟨0, hn, rfl⟩
  · rcases List.mem_cons.mp hx with rfl | hx
    · exact ⟨0, hn, rfl⟩
    · obtain rfl := List.mem_singleton.mp hx
      exact ⟨8 - a % 8, by omega, rfl⟩

/-- Every word of an access is read as it stands. -/
theorem readParts_still {s : State} {t : Tid} {a n : Nat} (hinj : NoInjection s t) (had : (s.at t).adopted = none)
    (hn : n ≤ 8) (h : ∀ x ∈ parts a n, Still s t (x.1 / 8 * 8)) (dead : Except Stop (TWord × State)) :
    s.readParts t.panel t.index dead (parts a n) = .ok (s.bytesAt t.panel a n, s) := by
  have hread {x : Nat × Nat} (hx : x ∈ parts a n) :
      s.readSpot t.panel t.index (s.spot t.panel t.index (x.1 / 8 * 8)) dead = .ok (s.word t.panel (x.1 / 8 * 8), s) := by
    rw [spot_of_plain had, readSpot_still hinj (h x hx)]
  unfold parts at hread ⊢
  dsimp only at hread ⊢
  split at hread
  · next hone =>
    rw [if_pos hone]
    unfold State.readParts State.readParts
    rw [hread (List.mem_singleton_self _)]
    dsimp only
    rw [getBytes_word s t.panel a n (by omega), Nat.zero_mul, Nat.add_zero]
  · next htwo =>
    rw [if_neg htwo]
    unfold State.readParts State.readParts State.readParts
    rw [hread List.mem_cons_self]
    dsimp only
    rw [hread (List.mem_cons_of_mem _ (List.mem_singleton_self _))]
    dsimp only
    rw [getBytes_word s t.panel a _ (by omega), getBytes_word s t.panel (a + (8 - a % 8)) _ (by omega), Nat.zero_mul,
      Nat.add_zero, two_pow_eight_mul, ← bytesAt_add,
      show 8 - a % 8 + (n - (8 - a % 8)) = n by omega]

/-! ### Loads (R180) -/

/-- An access that passes its checks outside device space (R179, R181, R187). -/
theorem checkAccess_of_allowed {s : State} {p t a : Nat} {k : AccessKind} {ptr : TWord} {x : Int} (hx : (a : Int) = x)
    (h : Allowed a k.bytes) (htag : k.tagged = true → a % 8 = 0) (hw : k.write = true → bit (tagOf ptr) 4 = true) :
    s.checkAccess p t k ptr x = .ok a := by
  obtain ⟨hend, hfirst, hlast, hbank⟩ := h
  subst hx
  unfold State.checkAccess
  dsimp only
  rw [Int.toNat_natCast, hfirst, hlast]
  simp only [Bool.or_self, Bool.and_false, Bool.false_eq_true, and_false, or_false, false_and, if_false]
  rw [if_neg (fun hal => hal.2 (by have := htag hal.1; omega)), if_neg (by omega),
    if_neg (fun hwr => by rw [hw hwr.1] at hwr; exact Bool.false_ne_true hwr.2.symm),
    if_neg (fun hb => hbank ⟨hb.1, hb.2.1⟩)]

/-- `THR_FLAGS` stand where no flag is set. -/
theorem leave_zero (s : State) (t : Tid) (stack : List Slot) :
    s.leave t stack 0 = s.setThread t.panel t.index { s.at t with stack := stack } := by
  unfold State.leave
  rw [BitVec.or_zero]

theorem replace_ok {s : State} {t : Tid} {ws out : List TWord} {rest : List Slot} (h : Operands s t ws rest)
    (hout : out.length + rest.length ≤ 16) :
    s.replace t.panel t.index ws.length out
      = .ok (s.setThread t.panel t.index { s.at t with stack := out.map Slot.word ++ rest }) := by
  have hs : (s.thread t.panel t.index).stack = ws.map Slot.word ++ rest := h.1
  have hdrop : (ws.map Slot.word ++ rest).drop ws.length = rest := by
    rw [List.drop_append]
    simp
  unfold State.replace
  rw [hs, hdrop]
  exact Laws.setStack_small s t.panel t.index _ (by simpa using hout)

/-- A load whose address passes its checks, outside device space, leaves what memory delivers. -/
theorem load_eq {s s1 : State} {t : Tid} {disp : Disp} {ptr : TWord} {rest : List Slot} {a bytes : Nat} {k : LoadKind}
    {w : TWord} (hready : Ready s t (dispLength disp) s1) (hops : Operands s1 t [ptr] rest) (hptr : isPtr ptr = true)
    (hcheck : s1.checkAccess t.panel t.index ⟨bytes, decide (k = .tagged), false, decide (k = .raw)⟩ ptr
      ((payload ptr).toNat + dispValue disp) = .ok a) (hdev : deviceSpace a = false)
    (hmem : s1.loadMemory t.panel t.index k bytes a = .ok (w, s1)) :
    s.load t disp clearEnv k bytes = s1.goOn t (dispLength disp) (.word w :: rest) 0 := by
  have hpeek := Laws.peek_renamed s1 t [ptr] rest hops
  have hrep := replace_ok (out := [w]) hops hops.2
  rw [List.length_singleton] at hpeek hrep
  have hstrike : s.strike t.panel clearEnv.upsets = s := rfl
  unfold State.load
  dsimp only
  rw [hstrike, Laws.instr_ready s s1 t _ _ hready, hpeek]
  dsimp only
  rw [hptr, if_neg (fun h => Bool.false_ne_true h.symm), hcheck]
  dsimp only
  rw [hdev, if_neg Bool.false_ne_true, hmem]
  dsimp only
  rw [hrep]
  unfold State.goOn
  rw [leave_zero]
  rfl

theorem not_gone_of_still {s : State} {t : Tid} {a n : Nat} (had : (s.at t).adopted = none)
    (h : ∀ x ∈ parts a n, Still s t (x.1 / 8 * 8)) :
    ((parts a n).any fun x => decide (s.spot t.panel t.index (x.1 / 8 * 8) = .gone)) = false := by
  rw [List.any_eq_false]
  intro x hx
  rw [spot_of_plain had, (h x hx).spot]
  exact fun hd => nomatch of_decide_eq_true hd

/-- An untagged load delivers the bytes as its opcode extends them. -/
theorem loadMemory_still {s : State} {t : Tid} {a n : Nat} {k : LoadKind} (hinj : NoInjection s t)
    (had : (s.at t).adopted = none) (hn : n ≤ 8) (h : ∀ x ∈ parts a n, Still s t (x.1 / 8 * 8)) (hk : k ≠ .tagged) :
    s.loadMemory t.panel t.index k n a = .ok (loadedWord k n (s.bytesAt t.panel a n), s) := by
  unfold State.loadMemory
  rw [not_gone_of_still had h, if_neg Bool.false_ne_true, if_neg hk, readParts_still hinj had hn h]

theorem loadMemory_tagged {s : State} {t : Tid} {a : Nat} (hinj : NoInjection s t) (had : (s.at t).adopted = none)
    (h : ∀ x ∈ parts a 8, Still s t (x.1 / 8 * 8)) (ha : Still s t a)
    (hframe : tagOf (s.word t.panel a) / 32 = 6 → (s.at t).status.getLsbD 8 = true) :
    s.loadMemory t.panel t.index .tagged 8 a = .ok (s.word t.panel a, s) := by
  have hf : frameRefused (s.thread t.panel t.index) (s.word t.panel a) = false := by
    rw [frameRefused, Bool.and_eq_false_iff]
    by_cases hc : tagOf (s.word t.panel a) / 32 = 6
    · exact .inr (congrArg (!·) (hframe hc))
    · exact .inl (decide_eq_false hc)
  unfold State.loadMemory
  rw [not_gone_of_still had h, if_neg Bool.false_ne_true, if_pos rfl, readWord_still hinj had ha]
  dsimp only
  rw [hf, if_neg Bool.false_ne_true]

theorem signed_eq_toInt (w v : Nat) : signed w v = (BitVec.ofNat w v).toInt := by
  rw [signed, BitVec.toInt_eq_toNat_cond, BitVec.toNat_ofNat]
  push_cast
  rfl

theorem loadedWord_signed (n v : Nat) :
    loadedWord .signed n v = tword 0x20 ((BitVec.ofNat (8 * n) v).signExtend 64) := by
  rw [loadedWord, sint, signed_eq_toInt]
  rfl

/-- Settles O23: the words that a load reaches are read as they stand, and their bytes joined in their order. -/
theorem loadsReadLittleEndian : Obligations.LoadsReadLittleEndian := by
  unfold Obligations.LoadsReadLittleEndian
  intro s s1 t disp ptr rest a len p hready hops hptr ha leaves there
  have hinj := noInjection_of_ready hready
  have hat (h : PlainWord s1 t (a / 8 * 8)) : (s1.at t).adopted = none := adopted_of_plainWord h
  have hstill {n : Nat} (hn : 0 < n) (h : there n) : ∀ x ∈ parts a n, Still s1 t (x.1 / 8 * 8) := by
    intro x hx
    obtain ⟨i, hi, heq⟩ := exists_byte_of_mem_parts hn hx
    rw [heq]
    exact still_of_plainWord (h.2 i hi)
  have load (k : LoadKind) {n : Nat} (hn : 0 < n) (hn8 : n ≤ 8) (hk : k ≠ .tagged) (h : there n) :
      s.load t disp clearEnv k n
        = s1.goOn t len (.word (loadedWord k n (s1.bytesAt p a n)) :: rest) 0 := by
    have hcheck := checkAccess_of_allowed (s := s1) (p := t.panel) (t := t.index)
      (k := ⟨n, decide (k = .tagged), false, decide (k = .raw)⟩) (ptr := ptr) ha h.1
      (fun htag => absurd (of_decide_eq_true htag) hk) (fun hw => nomatch hw)
    exact load_eq hready hops hptr hcheck h.1.2.1 (loadMemory_still hinj (hat (h.2 0 hn)) hn8 (hstill hn h) hk)
  refine ⟨fun h hal hframe => ?tagged, fun h => congrArg _ (load .raw (by decide) le_rfl (by decide) h),
    fun h => ⟨?s32, congrArg _ (load .unsigned (by decide) (by decide) (by decide) h)⟩,
    fun h => ⟨?s16, congrArg _ (load .unsigned (by decide) (by decide) (by decide) h)⟩,
    fun h => ⟨?s8, congrArg _ (load .unsigned (by decide) (by decide) (by decide) h)⟩⟩
  case tagged =>
    have hcheck := checkAccess_of_allowed (s := s1) (p := t.panel) (t := t.index)
      (k := ⟨8, decide (LoadKind.tagged = .tagged), false, decide (LoadKind.tagged = .raw)⟩) (ptr := ptr) ha h.1
      (fun _ => hal) (fun hw => nomatch hw)
    have hword : Still s1 t a := by
      have h0 := still_of_plainWord (h.2 0 (by decide))
      rwa [Nat.add_zero, show a / 8 * 8 = a by omega] at h0
    exact congrArg Host.Outcome.next (load_eq hready hops hptr hcheck h.1.2.1
      (loadMemory_tagged hinj (hat (h.2 0 (by decide))) (hstill (by decide) h) hword hframe))
  case s32 =>
    rw [← loadedWord_signed 4]
    exact congrArg Host.Outcome.next (load .signed (by decide) (by decide) (by decide) h)
  case s16 =>
    rw [← loadedWord_signed 2]
    exact congrArg Host.Outcome.next (load .signed (by decide) (by decide) (by decide) h)
  case s8 =>
    rw [← loadedWord_signed 1]
    exact congrArg Host.Outcome.next (load .signed (by decide) (by decide) (by decide) h)

end Sys2Proof.Proofs
end

section
/-! PROOFS. Stores to scratch banks. Settles O24. -/

namespace Sys2Proof.Proofs

open Sys2Proof Sys2Proof.Machine

/-! ### Bytes written into a word (R227) -/

/-- A digit below the place where a number is added is as it was. -/
theorem digit_below {j k : Nat} (h : j < k) (x y : Nat) :
    (x + y * 256 ^ k) / 256 ^ j % 256 = x / 256 ^ j % 256 := by
  have hk : 256 ^ k = 256 ^ j * (256 * 256 ^ (k - j - 1)) := by
    rw [← pow_succ', ← pow_add]
    congr 1
    omega
  rw [hk, show x + y * (256 ^ j * (256 * 256 ^ (k - j - 1))) = x + 256 ^ j * (256 * (y * 256 ^ (k - j - 1))) by ring,
    Nat.add_mul_div_left _ _ (by positivity), Nat.add_mul_mod_self_left]

/-- A digit from that place on is one of the number added. -/
theorem digit_above {j k x : Nat} (h : k ≤ j) (hx : x < 256 ^ k) (y : Nat) :
    (x + y * 256 ^ k) / 256 ^ j = y / 256 ^ (j - k) := by
  rw [show 256 ^ j = 256 ^ k * 256 ^ (j - k) by rw [← pow_add, Nat.add_sub_cancel' h], ← Nat.div_div_eq_div_mul,
    Nat.add_mul_div_right _ _ (by positivity), Nat.div_eq_of_lt hx, Nat.zero_add]

theorem payload_raw (v : Word) : payload (raw v) = v := payload_tword 0 v

/-- Dropping the higher digits keeps the lower ones. -/
theorem digit_mod {k i : Nat} (hi : i < k) (x : Nat) : x % 256 ^ k / 256 ^ i % 256 = x / 256 ^ i % 256 := by
  rw [← digit_below hi (x % 256 ^ k) (x / 256 ^ k), Nat.mod_add_div']

theorem add_mul_lt_mul {x m k n : Nat} (hx : x < m) (hk : k < n) : x + k * m < n * m :=
  calc x + k * m < m + k * m := Nat.add_lt_add_right hx _
    _ = (k + 1) * m := by ring
    _ ≤ n * m := Nat.mul_le_mul_right m hk

/-- A payload with some bytes in the middle replaced. -/
theorem payload_mergeBytes (w : TWord) {pos n : Nat} (h : pos + n ≤ 8) (v : Nat) :
    (payload (mergeBytes w pos n v)).toNat = (payload w).toNat % 256 ^ pos
      + (v % 256 ^ n + (payload w).toNat / 256 ^ (pos + n) * 256 ^ n) * 256 ^ pos := by
  have hw : (payload w).toNat < 256 ^ 8 := (payload w).isLt
  have hone : 256 ^ n - 1 + 1 = 256 ^ n := Nat.sub_add_cancel (Nat.one_le_pow _ _ (by decide))
  unfold mergeBytes getBytes
  dsimp only
  rw [payload_raw, BitVec.toNat_ofNat, two_pow_eight_mul, two_pow_eight_mul, hone, show (2 : Nat) ^ 64 = 256 ^ 8 from rfl]
  generalize (payload w).toNat = x at hw ⊢
  generalize hlo : x % 256 ^ pos = lo
  generalize hhi : x / 256 ^ (pos + n) = hi
  have hx : x = lo + (x / 256 ^ pos % 256 ^ n + hi * 256 ^ n) * 256 ^ pos := by
    rw [← hlo, ← hhi, pow_add, ← Nat.div_div_eq_div_mul, Nat.mod_add_div', Nat.mod_add_div']
  have hlolt : lo < 256 ^ pos := hlo ▸ Nat.mod_lt _ (by positivity)
  have hhilt : hi < 256 ^ (8 - (pos + n)) := by
    rw [← hhi]
    refine Nat.div_lt_of_lt_mul ?_
    rwa [← pow_add, Nat.add_sub_cancel' h]
  have hmid := add_mul_lt_mul (Nat.mod_lt v (show 256 ^ n > 0 by positivity)) hhilt
  have hlt := add_mul_lt_mul hlolt hmid
  rw [← pow_add, ← pow_add, show 8 - (pos + n) + n + pos = 8 by omega] at hlt
  have hsub : x - x / 256 ^ pos % 256 ^ n * 256 ^ pos + v % 256 ^ n * 256 ^ pos
      = lo + (v % 256 ^ n + hi * 256 ^ n) * 256 ^ pos := by
    generalize x / 256 ^ pos % 256 ^ n = mid at hx
    rw [hx, Nat.add_mul, Nat.add_mul]
    omega
  rw [hsub, Nat.mod_eq_of_lt hlt]

/-- The bytes of a word into which some have been merged. -/
theorem byte_mergeBytes (w : TWord) {pos n : Nat} (h : pos + n ≤ 8) (v j : Nat) :
    (payload (mergeBytes w pos n v)).toNat / 256 ^ j % 256
      = if pos ≤ j ∧ j < pos + n then v / 256 ^ (j - pos) % 256 else (payload w).toNat / 256 ^ j % 256 := by
  have hlo : (payload w).toNat % 256 ^ pos < 256 ^ pos := Nat.mod_lt _ (by positivity)
  have hv : v % 256 ^ n < 256 ^ n := Nat.mod_lt _ (by positivity)
  rw [payload_mergeBytes w h]
  by_cases hj : pos ≤ j
  · rw [digit_above hj hlo]
    by_cases hjn : j < pos + n
    · rw [if_pos ⟨hj, hjn⟩, digit_below (by omega), digit_mod (by omega)]
    · rw [if_neg (fun hand => hjn hand.2), digit_above (by omega) hv, Nat.div_div_eq_div_mul, ← pow_add,
        show pos + n + (j - pos - n) = j by omega]
  · rw [if_neg (fun hand => hj hand.1), digit_below (by omega), digit_mod (by omega)]

/-- The bytes of memory after some of one word are written. -/
theorem byteAt_banked (s : State) (t : Tid) {a n : Nat} (h : a % 8 + n ≤ 8) (v x : Nat) :
    (banked s t (a / 8 * 8) (mergeBytes (s.word t.panel (a / 8 * 8)) (a % 8) n v)).byteAt t.panel x
      = if a ≤ x ∧ x < a + n then v / 256 ^ (x - a) % 256 else s.byteAt t.panel x := by
  unfold State.byteAt
  rw [word_banked, two_pow_eight_mul]
  by_cases hx : x / 8 = a / 8
  · rw [hx, if_pos rfl, byte_mergeBytes _ h]
    have hiff : a % 8 ≤ x % 8 ∧ x % 8 < a % 8 + n ↔ a ≤ x ∧ x < a + n := by omega
    rw [show x % 8 - a % 8 = x - a by omega]
    simp only [hiff]
  · have hkey : memKey t.panel (x / 8 * 8) ≠ memKey t.panel (a / 8 * 8) := by
      unfold memKey
      omega
    rw [if_neg hkey, if_neg (by omega)]

theorem tagOf_mergeBytes (w : TWord) (pos n v : Nat) : tagOf (mergeBytes w pos n v) = 0 :=
  tagOf_tword (by decide) _

/-! ### Narrow stores (R180, R227) -/

/-- A write to one word leaves no error in another where there was none. -/
theorem still_banked {s : State} {t : Tid} {a b : Nat} (ha : Still s t a) (hb : Still s t b)
    (w : TWord) : Still (banked s t a w) t b := by
  obtain ⟨hspot, hgood, hclean⟩ := hb
  refine ⟨hspot, ?_, ?_⟩
  · have hpois : s.poisoned.contains (memKey t.panel a / 16) = false := by
      have hga := ha.good
      unfold State.bad at hga
      simp only [Bool.or_eq_false_iff] at hga
      exact hga.1.2
    unfold State.bad at hgood ⊢
    simp only [Bool.or_eq_false_iff] at hgood ⊢
    obtain ⟨⟨hbw, hp⟩, hf⟩ := hgood
    refine ⟨⟨?_, ?_⟩, ?_⟩
    · rw [banked_badWords, hpois, if_neg Bool.false_ne_true]
      rw [List.contains_eq_mem, decide_eq_false_iff_not] at hbw ⊢
      exact fun hmem => hbw (List.mem_filter.mp hmem).1
    · rw [banked_poisoned]
      rw [List.contains_eq_mem, decide_eq_false_iff_not] at hp ⊢
      exact fun hmem => hp (List.mem_filter.mp hmem).1
    · rw [banked_flips]
      rw [List.any_eq_false] at hf ⊢
      exact fun f hmem => hf f (List.mem_filter.mp hmem).1
  · unfold State.errorsIn at hclean ⊢
    rw [banked_flips, List.filter_eq_nil_iff] at *
    exact fun f hmem => hclean f (List.mem_filter.mp hmem).1

theorem mergeRead_still {s : State} {t : Tid} {a : Nat} (hinj : NoInjection s t) (had : (s.at t).adopted = none)
    (h : Still s t a) (n : Nat) : s.mergeRead t.panel t.index a n = .ok (s.word t.panel a, s) := by
  unfold State.mergeRead
  rw [spot_of_plain had, h.spot]
  dsimp only
  split
  · rfl
  · rw [h.good, if_neg Bool.false_ne_true, if_pos rfl, noteOutput_of_noInjection hinj]
    exact congrArg (fun u => Except.ok (_, u)) (correct_of_clean h.clean _)

theorem mergeReads_still {s : State} {t : Tid} (hinj : NoInjection s t) (had : (s.at t).adopted = none)
    {l : List (Nat × Nat)} (h : ∀ x ∈ l, Still s t (x.1 / 8 * 8)) : s.mergeReads t.panel t.index l = .ok s := by
  induction l with
  | nil => rfl
  | cons x l ih =>
    obtain ⟨a, n⟩ := x
    unfold State.mergeReads
    rw [mergeRead_still hinj had (h _ List.mem_cons_self)]
    exact ih fun y hy => h y (List.mem_cons_of_mem _ hy)

/-- The state after the parts of a narrow store are written, in their order. -/
def writtenParts (t : Tid) : State → Nat → List (Nat × Nat) → State
  | s, _, [] => s
  | s, v, (a, n) :: rest =>
    writtenParts t (banked s t (a / 8 * 8) (mergeBytes (s.word t.panel (a / 8 * 8)) (a % 8) n (v % 2 ^ (8 * n))))
      (v / 2 ^ (8 * n)) rest

theorem writeEach_still {s : State} {t : Tid} (hinj : NoInjection s t) (had : (s.at t).adopted = none)
    (hj : s.journaled t.panel t.index = false) {l : List (Nat × Nat)} (h : ∀ x ∈ l, Still s t (x.1 / 8 * 8)) (v : Nat)
    {rivals : List (Option (Fin 7))} (hr : ∀ r ∈ rivals, r = none) :
    s.writeEach t.panel t.index v l rivals = .ok (writtenParts t s v l) := by
  induction l generalizing s v rivals with
  | nil => rfl
  | cons x l ih =>
    obtain ⟨a, n⟩ := x
    have hhead : rivals.headD none = none := by
      cases rivals with
      | nil => rfl
      | cons r l => exact hr r List.mem_cons_self
    have ha : Still s t (a / 8 * 8) := h _ List.mem_cons_self
    unfold State.writeEach
    dsimp only
    rw [mergeRead_still hinj had ha]
    dsimp only
    rw [hhead, writeWord_bank hinj had hj ha.spot]
    dsimp only
    refine (ih (s := banked s t (a / 8 * 8) _) hinj had hj (fun y hy => still_banked ha (h y (List.mem_cons_of_mem _ hy)) _) _
      fun r hmem => hr r (List.mem_of_mem_drop hmem)).trans ?_
    rfl

theorem writeParts_still {s : State} {t : Tid} (hinj : NoInjection s t) (had : (s.at t).adopted = none)
    (hj : s.journaled t.panel t.index = false) {l : List (Nat × Nat)} (h : ∀ x ∈ l, Still s t (x.1 / 8 * 8)) (v : Nat) :
    s.writeParts t.panel t.index clearEnv v l = .ok (writtenParts t s v l) := by
  have each {rivals : List (Option (Fin 7))} (hr : ∀ r ∈ rivals, r = none) :=
    writeEach_still hinj had hj h v hr
  unfold State.writeParts
  rw [mergeReads_still hinj had h]
  dsimp only
  split
  · exact each (by simp [clearEnv])
  · exact each (by simp)

theorem onlyWords_mono {s u : State} {p : Nat} {l l' : List Nat} (h : OnlyWords s u p l) (hl : ∀ a ∈ l, a ∈ l') :
    OnlyWords s u p l' :=
  ⟨h.1, fun q b hqb => h.2 q b fun hmem => hqb (by
    obtain ⟨a, ha, heq⟩ := List.mem_map.mp hmem
    exact List.mem_map.mpr ⟨a, hl a ha, heq⟩)⟩

/-- What a narrow store leaves: its bytes in place, in words tagged `RAW`, and nothing else of memory changed. -/
theorem writtenParts_spec (s : State) (t : Tid) {a n : Nat} (hn : 0 < n) (hn8 : n ≤ 8) (v : Nat) :
    OnlyWords s (writtenParts t s v (parts a n)) t.panel [a / 8 * 8, (a + n - 1) / 8 * 8]
    ∧ (∀ i, i < n → tagOf ((writtenParts t s v (parts a n)).word t.panel ((a + i) / 8 * 8)) = 0)
    ∧ ∀ x, (writtenParts t s v (parts a n)).byteAt t.panel x
        = if a ≤ x ∧ x < a + n then v / 256 ^ (x - a) % 256 else s.byteAt t.panel x := by
  unfold parts
  dsimp only
  split
  · next hone =>
    unfold writtenParts writtenParts
    refine ⟨onlyWords_mono (onlyWords_banked s t _ _) (by simp), fun i hi => ?_, fun x => ?_⟩
    · rw [show (a + i) / 8 * 8 = a / 8 * 8 by omega, word_banked, if_pos rfl, tagOf_mergeBytes]
    · rw [byteAt_banked s t (by omega), two_pow_eight_mul]
      split
      · rw [digit_mod (by omega)]
      · rfl
  · next htwo =>
    unfold writtenParts writtenParts writtenParts
    have hlast : (a + (8 - a % 8)) / 8 * 8 = (a + n - 1) / 8 * 8 := by omega
    have hkey : memKey t.panel (a / 8 * 8) ≠ memKey t.panel ((a + (8 - a % 8)) / 8 * 8) := by
      unfold memKey
      omega
    refine ⟨onlyWords_mono (onlyWords_trans (onlyWords_banked s t _ _) (onlyWords_banked _ t _ _))
      (by simp [hlast]), fun i hi => ?_, fun x => ?_⟩
    · rw [word_banked]
      by_cases hfirst : i < 8 - a % 8
      · rw [show (a + i) / 8 * 8 = a / 8 * 8 by omega, if_neg hkey, word_banked, if_pos rfl, tagOf_mergeBytes]
      · rw [show (a + i) / 8 * 8 = (a + (8 - a % 8)) / 8 * 8 by omega, if_pos rfl, tagOf_mergeBytes]
    · rw [byteAt_banked _ t (by omega), byteAt_banked s t (by omega), two_pow_eight_mul, two_pow_eight_mul]
      by_cases hsecond : a + (8 - a % 8) ≤ x ∧ x < a + (8 - a % 8) + (n - (8 - a % 8))
      · rw [if_pos hsecond, if_pos (by omega), digit_mod (by omega), Nat.div_div_eq_div_mul, ← pow_add,
          show 8 - a % 8 + (x - (a + (8 - a % 8))) = x - a by omega]
      · rw [if_neg hsecond]
        by_cases hfirst : a ≤ x ∧ x < a + (8 - a % 8)
        · rw [if_pos hfirst, if_pos (by omega), digit_mod (by omega)]
        · rw [if_neg hfirst, if_neg (by omega)]

/-- What a store takes: a pointer, and for untagged bytes an `INT` or `RAW`; a `FRAME` word from privileged code only. -/
def storeAccepts (th : Thread) (tagged : Bool) (ptr v : TWord) : Bool :=
  isPtr ptr && (tagged || isBits v) && !(tagged && frameRefused th v)

/-- A store whose operands and address pass their checks, outside device space, writes memory and retires. -/
theorem store_eq {s s1 m : State} {t : Tid} {disp : Disp} {ptr v : TWord} {rest : List Slot} {a bytes : Nat} {tagged : Bool}
    (hready : Ready s t (dispLength disp) s1) (hops : Operands s1 t [ptr, v] rest)
    (hacc : storeAccepts (s1.at t) tagged ptr v = true)
    (hcheck : s1.checkAccess t.panel t.index ⟨bytes, tagged, true, decide (tagged = false) && decide (bytes = 8)⟩ ptr
      ((payload ptr).toNat + dispValue disp) = .ok a) (hdev : deviceSpace a = false)
    (hmem : (if tagged then
        (s1.setThread t.panel t.index { s1.at t with stack := rest }).writeWord t.panel t.index a none v
      else (s1.setThread t.panel t.index { s1.at t with stack := rest }).writeParts t.panel t.index clearEnv
        (payload v).toNat (parts a bytes)) = .ok m) :
    s.store t disp clearEnv tagged bytes = m.retire t.panel t.index ((s1.at t).pc + dispLength disp) 0 := by
  have hpeek (acc : List TWord → Bool) := Laws.peekAs_renamed s1 t [ptr, v] rest acc hops
  have hrep := replace_ok (out := []) hops (by have := hops.2; simp only [List.length_cons, List.length_nil] at this ⊢; omega)
  simp only [List.length_cons, List.length_nil, Nat.zero_add, Nat.reduceAdd] at hpeek hrep
  have hstrike : s.strike t.panel clearEnv.upsets = s := rfl
  have hfit : (isPtr ptr && (tagged || isBits v) && !(tagged && frameRefused (s1.thread t.panel t.index) v)) = true := hacc
  unfold State.store
  dsimp only
  rw [hstrike, Laws.instr_ready s s1 t _ _ hready, hpeek]
  dsimp only
  rw [if_neg (fun h => Bool.false_ne_true (h.symm.trans hfit)), hcheck]
  dsimp only
  rw [hrep]
  dsimp only
  rw [hdev, if_neg Bool.false_ne_true]
  have hmem' := hmem
  simp only [List.map_nil, List.nil_append] at hmem' ⊢
  rw [show clearEnv.winner = none from rfl, hmem']
  rfl

/-- A write to a bank does not meet the stack, so the two commute. -/
theorem onlyWords_goOn {s m : State} {t : Tid} {l : List Nat} {stack : List Slot}
    (h : OnlyWords (s.setThread t.panel t.index { s.at t with stack := stack }) m t.panel l) :
    ∃ m', OnlyWords s m' t.panel l ∧ (∀ q b, m'.word q b = m.word q b)
      ∧ ∀ len, m.retire t.panel t.index ((s.at t).pc + len) 0 = m'.goOn t len stack 0 := by
  obtain ⟨hframe, hword⟩ := h
  have hm : m = { s with
      mem := m.mem
      badWords := m.badWords
      poisoned := m.poisoned
      flips := m.flips
      bankWrites := m.bankWrites }.setThread t.panel t.index { s.at t with stack := stack } := hframe
  refine ⟨{ s with
      mem := m.mem
      badWords := m.badWords
      poisoned := m.poisoned
      flips := m.flips
      bankWrites := m.bankWrites }, ⟨rfl, fun q b hqb => hword q b hqb⟩, fun _ _ => rfl, fun len => ?_⟩
  unfold State.goOn
  rw [leave_zero]
  exact congrArg (fun u : State => u.retire t.panel t.index ((s.at t).pc + len) 0) hm

theorem journaled_setThread {s : State} {t : Tid} {w : Thread} (hw : w.adopted = (s.at t).adopted) :
    (s.setThread t.panel t.index w).journaled t.panel t.index = s.journaled t.panel t.index := by
  unfold State.journaled
  rw [Laws.thread_setThread, hw]
  rfl

theorem still_setThread {s : State} {t : Tid} {a : Nat} (h : Still s t a) (w : Thread) :
    Still (s.setThread t.panel t.index w) t a := ⟨h.spot, h.good, h.clean⟩

theorem not_frameRefused_of_priv {th : Thread} {w : TWord} (h : tagOf w / 32 = 6 → th.status.getLsbD 8 = true) :
    frameRefused th w = false := by
  rw [frameRefused, Bool.and_eq_false_iff]
  by_cases hc : tagOf w / 32 = 6
  · exact .inr (congrArg (!·) (h hc))
  · exact .inl (decide_eq_false hc)

theorem plainWords_of_parts {s : State} {t : Tid} {a n : Nat} (hn : 0 < n)
    (h : ∀ i : Nat, i < n → PlainWord s t ((a + i) / 8 * 8)) : ∀ x ∈ parts a n, PlainWord s t (x.1 / 8 * 8) := by
  intro x hx
  obtain ⟨i, hi, heq⟩ := exists_byte_of_mem_parts hn hx
  rw [heq]
  exact h i hi

/-- Popping operands changes nothing that a write to a plain word depends on. -/
theorem popped_of_plainWord {s s1 : State} {t : Tid} {len a : Nat} (hready : Ready s t len s1) (h : PlainWord s1 t a)
    (rest : List Slot) :
    NoInjection (s1.setThread t.panel t.index { s1.at t with stack := rest }) t
    ∧ ((s1.setThread t.panel t.index { s1.at t with stack := rest }).at t).adopted = none
    ∧ (s1.setThread t.panel t.index { s1.at t with stack := rest }).journaled t.panel t.index = false := by
  have hinj : NoInjection s1 t := noInjection_of_ready hready
  refine ⟨hinj, ?_, ?_⟩
  · rw [at_setThread]
    exact adopted_of_plainWord h
  · rw [journaled_setThread (by rfl)]
    exact journaled_of_plainWord h

section

variable {s s1 : State} {t : Tid} {disp : Disp} {ptr v : TWord} {rest : List Slot} {a : Nat}
  (hready : Ready s t (dispLength disp) s1) (hops : Operands s1 t [ptr, v] rest) (hptr : isClass 4 ptr = true)
  (hwrite : (tagOf ptr).testBit 4 = true) (ha : (a : Int) = (payload ptr).toNat + dispValue disp)
include hready hops hptr hwrite ha

theorem tagged_store (hallow : Allowed a 8) (hal : a % 8 = 0) (hword : PlainWord s1 t a)
    (hframe : tagOf v / 32 = 6 → (s1.at t).status.getLsbD 8 = true) :
    ∃ m, OnlyWords s1 m t.panel [a] ∧ m.word t.panel a = v
      ∧ exec (.stT t disp clearEnv) s = .next (m.goOn t (dispLength disp) rest 0) := by
  have hb : bit (tagOf ptr) 4 = true := hwrite
  have hcheck := checkAccess_of_allowed (s := s1) (p := t.panel) (t := t.index)
    (k := ⟨8, true, true, decide (true = false) && decide (8 = 8)⟩) (ptr := ptr) ha hallow (fun _ => hal) (fun _ => hb)
  have hacc : storeAccepts (s1.at t) true ptr v = true := by
    rw [storeAccepts, show isPtr ptr = true from hptr, not_frameRefused_of_priv hframe]
    rfl
  obtain ⟨hinj, had, hj⟩ := popped_of_plainWord hready hword rest
  have hmem : (s1.setThread t.panel t.index { s1.at t with stack := rest }).writeWord t.panel t.index a none v
      = .ok (banked (s1.setThread t.panel t.index { s1.at t with stack := rest }) t a v) :=
    writeWord_bank hinj had hj (still_of_plainWord hword).spot v
  have hrun := store_eq (tagged := true) hready hops hacc hcheck hallow.2.1 hmem
  have hval : (banked (s1.setThread t.panel t.index { s1.at t with stack := rest }) t a v).word t.panel a = v := by
    rw [word_banked, if_pos rfl]
  obtain ⟨m, honly, hsame, hgo⟩ := onlyWords_goOn (onlyWords_banked _ t a v)
  exact ⟨m, honly, (hsame ..).trans hval, congrArg Host.Outcome.next (hrun.trans (hgo _))⟩

/-- A store of `n` untagged bytes. -/
theorem narrow_store {n : Nat} (hn : 0 < n) (hn8 : n ≤ 8) (hv : isClass 0 v = true ∨ isClass 1 v = true)
    (hallow : Allowed a n) (hwords : ∀ i : Nat, i < n → PlainWord s1 t ((a + i) / 8 * 8)) :
    ∃ m, OnlyWords s1 m t.panel [a / 8 * 8, (a + n - 1) / 8 * 8]
      ∧ (∀ i : Nat, i < n → tagOf (m.word t.panel ((a + i) / 8 * 8)) = 0)
      ∧ (∀ x : Nat, m.byteAt t.panel x =
          if a ≤ x ∧ x < a + n then (payload v).toNat / 256 ^ (x - a) % 256 else s1.byteAt t.panel x)
      ∧ s.store t disp clearEnv false n = m.goOn t (dispLength disp) rest 0 := by
  have hb : bit (tagOf ptr) 4 = true := hwrite
  have hcheck := checkAccess_of_allowed (s := s1) (p := t.panel) (t := t.index)
    (k := ⟨n, false, true, decide (false = false) && decide (n = 8)⟩) (ptr := ptr) ha hallow (fun h => nomatch h)
    (fun _ => hb)
  have hbits : isBits v = true := Bool.or_eq_true_iff.mpr hv.symm
  have hacc : storeAccepts (s1.at t) false ptr v = true := by
    rw [storeAccepts, show isPtr ptr = true from hptr, hbits]
    rfl
  obtain ⟨hinj, had, hj⟩ := popped_of_plainWord hready (hwords 0 hn) rest
  have hmem : (s1.setThread t.panel t.index { s1.at t with stack := rest }).writeParts t.panel t.index clearEnv
      (payload v).toNat (parts a n)
      = .ok (writtenParts t (s1.setThread t.panel t.index { s1.at t with stack := rest }) (payload v).toNat (parts a n)) :=
    writeParts_still hinj had hj
      (fun x hx => still_setThread (still_of_plainWord (plainWords_of_parts hn hwords x hx)) _) _
  have hrun := store_eq (tagged := false) hready hops hacc hcheck hallow.2.1 hmem
  obtain ⟨honly, htags, hbytes⟩ :=
    writtenParts_spec (s1.setThread t.panel t.index { s1.at t with stack := rest }) t hn hn8 (payload v).toNat (a := a)
  obtain ⟨m, honly', hsame, hgo⟩ := onlyWords_goOn honly
  refine ⟨m, honly', fun i hi => ?_, fun x => ?_, hrun.trans (hgo _)⟩
  · rw [hsame]
    exact htags i hi
  · refine Eq.trans ?_ (hbytes x)
    unfold State.byteAt
    rw [hsame]

end

/-- Settles O24: a store writes the words that its parts name and retires. -/
theorem storesWriteTheirBytes : Obligations.StoresWriteTheirBytes := by
  unfold Obligations.StoresWriteTheirBytes
  intro s s1 t disp ptr v rest a len p hready hops hptr hwrite ha
  refine ⟨tagged_store hready hops hptr hwrite ha, fun c n hc hv hallow hwords => ?_⟩
  have run (hn : 0 < n) (hn8 : n ≤ 8) (hexec : exec (c t disp clearEnv) s = .next (s.store t disp clearEnv false n)) :
      ∃ m, OnlyWords s1 m p [a / 8 * 8, (a + n - 1) / 8 * 8]
        ∧ (∀ i : Nat, i < n → tagOf (m.word p ((a + i) / 8 * 8)) = 0)
        ∧ (∀ x : Nat, m.byteAt p x =
            if a ≤ x ∧ x < a + n then (payload v).toNat / 256 ^ (x - a) % 256 else s1.byteAt p x)
        ∧ exec (c t disp clearEnv) s = .next (m.goOn t len rest 0) := by
    obtain ⟨m, honly, htags, hbytes, hstore⟩ := narrow_store hready hops hptr hwrite ha hn hn8 hv hallow hwords
    exact ⟨m, honly, htags, hbytes, hexec.trans (congrArg Host.Outcome.next hstore)⟩
  simp only [List.mem_cons, Prod.mk.injEq, List.not_mem_nil, or_false] at hc
  rcases hc with ⟨rfl, rfl⟩ | ⟨rfl, rfl⟩ | ⟨rfl, rfl⟩ | ⟨rfl, rfl⟩
  · exact run (by decide) le_rfl rfl
  · exact run (by decide) (by decide) rfl
  · exact run (by decide) (by decide) rfl
  · exact run (by decide) (by decide) rfl

end Sys2Proof.Proofs
end

section
/-! PROOFS. Atomic instructions. Settles O25. -/

namespace Sys2Proof.Proofs

open Sys2Proof Sys2Proof.Machine

/-! ### Atomics (R184, R222) -/

/-- What an atomic instruction takes. -/
def atomicFits (acc : TWord → Bool) (ptr v : TWord) : Bool := isPtr ptr && acc v

section

variable {s s1 : State} {t : Tid} {disp : Byte} {ptr v : TWord} {rest : List Slot} {env : MemEnv}
  {f : Thread → TWord → TWord → Option TWord} {acc : Thread → TWord → Bool}
  (hready : Ready s t 2 s1) (hops : Operands s1 t [ptr, v] rest) (henv : env.upsets = [])
include hready hops henv

/-- An operand that the instruction does not take. -/
theorem atomic_unfit (h : atomicFits (acc (s1.at t)) ptr v = false) : s.atomic t disp env f acc = s1.faults t TY := by
  have hpeek (fit : List TWord → Bool) := Laws.peekAs_renamed s1 t [ptr, v] rest fit hops
  simp only [List.length_cons, List.length_nil, Nat.zero_add, Nat.reduceAdd] at hpeek
  unfold State.atomic
  dsimp only
  rw [henv, show s.strike t.panel [] = s from rfl, Laws.instr_ready s s1 t _ _ hready, hpeek]
  dsimp only
  rw [if_pos (show (isPtr ptr && acc (s1.thread t.panel t.index) v) = false from h)]
  rfl

variable (hfit : atomicFits (acc (s1.at t)) ptr v = true)
include hfit

/-- An address that fails its checks. -/
theorem atomic_fails {code : Nat} (h : s1.checkAccess t.panel t.index ⟨8, true, true, false⟩ ptr
    ((payload ptr).toNat + disp.toInt) = .error code) : s.atomic t disp env f acc = s1.faults t code := by
  have hpeek (fit : List TWord → Bool) := Laws.peekAs_renamed s1 t [ptr, v] rest fit hops
  simp only [List.length_cons, List.length_nil, Nat.zero_add, Nat.reduceAdd] at hpeek
  unfold State.atomic
  dsimp only
  rw [henv, show s.strike t.panel [] = s from rfl, Laws.instr_ready s s1 t _ _ hready, hpeek]
  dsimp only
  rw [if_neg (fun hn => Bool.false_ne_true (hn.symm.trans hfit)), h]
  rfl

variable {a : Nat} (hcheck : s1.checkAccess t.panel t.index ⟨8, true, true, false⟩ ptr
  ((payload ptr).toNat + disp.toInt) = .ok a)
include hcheck

/-- An address outside the scratch banks. -/
theorem atomic_outside (h : 0x200000 ≤ a) : s.atomic t disp env f acc = s1.faults t AC := by
  have hpeek (fit : List TWord → Bool) := Laws.peekAs_renamed s1 t [ptr, v] rest fit hops
  simp only [List.length_cons, List.length_nil, Nat.zero_add, Nat.reduceAdd] at hpeek
  unfold State.atomic
  dsimp only
  rw [henv, show s.strike t.panel [] = s from rfl, Laws.instr_ready s s1 t _ _ hready, hpeek]
  dsimp only
  rw [if_neg (fun hn => Bool.false_ne_true (hn.symm.trans hfit)), hcheck]
  dsimp only
  rw [if_pos h]
  rfl

variable (ha : a < 0x200000) (hword : PlainWord s1 t a)
include ha hword

/-- The stored word does not match. -/
theorem atomic_mismatch (h : f (s1.at t) v (s1.word t.panel a) = none) :
    s.atomic t disp env f acc = s1.faults t TY := by
  have hpeek (fit : List TWord → Bool) := Laws.peekAs_renamed s1 t [ptr, v] rest fit hops
  simp only [List.length_cons, List.length_nil, Nat.zero_add, Nat.reduceAdd] at hpeek
  have hf : f (s1.thread t.panel t.index) v (s1.word t.panel a) = none := h
  unfold State.atomic
  dsimp only
  rw [henv, show s.strike t.panel [] = s from rfl, Laws.instr_ready s s1 t _ _ hready, hpeek]
  dsimp only
  rw [if_neg (fun hn => Bool.false_ne_true (hn.symm.trans hfit)), hcheck]
  dsimp only
  rw [if_neg (by omega), readWord_still (noInjection_of_ready hready) (adopted_of_plainWord hword)
    (still_of_plainWord hword)]
  dsimp only
  rw [hf]
  rfl

/-- The word is exchanged for another, and the old one is left. -/
theorem atomic_done {w : TWord} (h : f (s1.at t) v (s1.word t.panel a) = some w) :
    s.atomic t disp env f acc = (banked s1 t a w).goOn t 2 (.word (s1.word t.panel a) :: rest) 0 := by
  have hpeek (fit : List TWord → Bool) := Laws.peekAs_renamed s1 t [ptr, v] rest fit hops
  have hops' : Operands (banked s1 t a w) t [ptr, v] rest := hops
  have hrep := replace_ok (out := [s1.word t.panel a]) hops' (by
    have := hops.2
    simp only [List.length_cons, List.length_nil] at this ⊢
    omega)
  simp only [List.length_cons, List.length_nil, Nat.zero_add, Nat.reduceAdd] at hpeek hrep
  have hf : f (s1.thread t.panel t.index) v (s1.word t.panel a) = some w := h
  have hinj := noInjection_of_ready hready
  have had := adopted_of_plainWord hword
  unfold State.atomic
  dsimp only
  rw [henv, show s.strike t.panel [] = s from rfl, Laws.instr_ready s s1 t _ _ hready, hpeek]
  dsimp only
  rw [if_neg (fun hn => Bool.false_ne_true (hn.symm.trans hfit)), hcheck]
  dsimp only
  rw [if_neg (by omega), readWord_still hinj had (still_of_plainWord hword)]
  dsimp only
  rw [hf]
  dsimp only
  rw [writeWord_bank hinj had (journaled_of_plainWord hword) (still_of_plainWord hword).spot]
  dsimp only
  rw [hrep]
  unfold State.goOn
  rw [leave_zero]
  rfl

end

/-- A misaligned address of a tagged access (R179, R187). -/
theorem checkAccess_misaligned {s : State} {p t a : Nat} {k : AccessKind} {ptr : TWord} {x : Int} (hx : (a : Int) = x)
    (htag : k.tagged = true) (ha : a % 8 ≠ 0) : s.checkAccess p t k ptr x = .error AL := by
  subst hx
  exact if_pos ⟨.inl htag, by omega⟩

/-- An atomic at an address above the scratch banks and outside device space passes the checks before its own. -/
theorem checkAccess_above {s : State} {p t a : Nat} {ptr : TWord} {x : Int} (hx : (a : Int) = x)
    (hwrite : (tagOf ptr).testBit 4 = true) (hal : a % 8 = 0) (hlo : 0x200000 ≤ a) (hend : a + 8 ≤ 2 ^ 48)
    (hdev : deviceSpace a = false) : s.checkAccess p t ⟨8, true, true, false⟩ ptr x = .ok a := by
  have hlast : deviceSpace (a + 8 - 1) = false := by
    simp only [deviceSpace, Bool.and_eq_false_iff, decide_eq_false_iff_not] at hdev ⊢
    omega
  exact checkAccess_of_allowed hx ⟨hend, hdev, hlast, by omega⟩ (fun _ => hal) (fun _ => hwrite)

theorem not_frameRefused_of_isInt {th : Thread} {w : TWord} (h : isClass 1 w = true) : frameRefused th w = false := by
  have hc : classOf w = 1 := of_decide_eq_true (Bool.and_eq_true_iff.mp h).1
  rw [frameRefused, hc]
  rfl

/-- Settles O25: an atomic reads its word, and either writes another or takes the fault of the word it finds. -/
theorem atomicsActOnScratchBanks : Obligations.AtomicsActOnScratchBanks := by
  unfold Obligations.AtomicsActOnScratchBanks
  intro s s1 t disp ptr v rest a p hready hops hptr hwrite ha old
  have hp : isPtr ptr = true := hptr
  have hswapFit (hv : isClass 1 v = true) :
      atomicFits ((fun th v => !frameRefused th v) (s1.at t)) ptr v = true := by
    simp only [atomicFits, hp, not_frameRefused_of_isInt hv, Bool.not_false, Bool.and_self]
  have haddFit (hv : isClass 1 v = true) : atomicFits ((fun _ v => isInt v) (s1.at t)) ptr v = true :=
    Bool.and_eq_true_iff.mpr ⟨hp, hv⟩
  refine ⟨fun hlow hal hallow hword => ⟨fun tag x y htag hv hold => ?add, fun hv hmis => ?mismatch, fun hpriv => ?swap,
      fun hpriv hframe => ?refused⟩,
    fun hv hal env henv => ?misaligned, fun hv hal hlo hend hdev env henv => ?outside⟩
  case add =>
    have hcheck := checkAccess_of_allowed (s := s1) (p := t.panel) (t := t.index) (k := ⟨8, true, true, false⟩)
      (ptr := ptr) ha hallow (fun _ => hal) (fun _ => hwrite)
    have hf : (if sameInt v old then some (tword (tagOf v) (payload v + payload old)) else none)
        = some (tword tag (x + y)) := by
      rw [hv, hold, sameInt_tword htag, if_pos rfl, tagOf_tword_of_int htag, payload_tword, payload_tword]
    have hint : isClass 1 v = true := hv ▸ isInt_tword htag x
    refine ⟨banked s1 t a (tword tag (x + y)), onlyWords_banked .., by rw [word_banked, if_pos rfl], ?_⟩
    exact congrArg Host.Outcome.next
      (atomic_done (acc := fun _ v => isInt v) hready hops rfl (haddFit hint) hcheck hlow hword hf)
  case mismatch =>
    have hcheck := checkAccess_of_allowed (s := s1) (p := t.panel) (t := t.index) (k := ⟨8, true, true, false⟩)
      (ptr := ptr) ha hallow (fun _ => hal) (fun _ => hwrite)
    have hsame : sameInt v old = false := by
      rw [sameInt, Bool.and_eq_false_iff, Bool.and_eq_false_iff, decide_eq_false_iff_not]
      exact hmis.imp .inr id
    have hf : (if sameInt v old then some (tword (tagOf v) (payload v + payload old)) else none) = none := by
      rw [hsame, if_neg Bool.false_ne_true]
    exact congrArg Host.Outcome.next
      (atomic_mismatch (acc := fun _ v => isInt v) hready hops rfl (haddFit hv) hcheck hlow hword hf)
  case swap =>
    have hcheck := checkAccess_of_allowed (s := s1) (p := t.panel) (t := t.index) (k := ⟨8, true, true, false⟩)
      (ptr := ptr) ha hallow (fun _ => hal) (fun _ => hwrite)
    have hnone (w : TWord) : frameRefused (s1.at t) w = false := not_frameRefused_of_priv fun _ => hpriv
    have hf : (if frameRefused (s1.at t) old then none else some v) = some v := by
      rw [hnone, if_neg Bool.false_ne_true]
    have hfit : atomicFits ((fun th v => !frameRefused th v) (s1.at t)) ptr v = true := by
      simp only [atomicFits, hp, hnone, Bool.not_false, Bool.and_self]
    refine ⟨banked s1 t a v, onlyWords_banked .., by rw [word_banked, if_pos rfl], ?_⟩
    exact congrArg Host.Outcome.next
      (atomic_done (acc := fun th v => !frameRefused th v) hready hops rfl hfit hcheck hlow hword hf)
  case refused =>
    have hrefused {w : TWord} (hw : tagOf w / 32 = 6) : frameRefused (s1.at t) w = true :=
      Bool.and_eq_true_iff.mpr ⟨decide_eq_true hw, congrArg (!·) hpriv⟩
    by_cases hv : tagOf v / 32 = 6
    · have hfit : atomicFits ((fun th v => !frameRefused th v) (s1.at t)) ptr v = false := by
        simp only [atomicFits, hrefused hv, Bool.not_true, Bool.and_false]
      exact congrArg Host.Outcome.next (atomic_unfit (acc := fun th v => !frameRefused th v) hready hops rfl hfit)
    · have hcheck := checkAccess_of_allowed (s := s1) (p := t.panel) (t := t.index) (k := ⟨8, true, true, false⟩)
        (ptr := ptr) ha hallow (fun _ => hal) (fun _ => hwrite)
      have hfit : atomicFits ((fun th v => !frameRefused th v) (s1.at t)) ptr v = true := by
        simp only [atomicFits, hp, not_frameRefused_of_priv (fun h => absurd h hv), Bool.not_false, Bool.and_self]
      have hf : (if frameRefused (s1.at t) old then none else some v) = none :=
        if_pos (hrefused (hframe.resolve_left hv))
      exact congrArg Host.Outcome.next
        (atomic_mismatch (acc := fun th v => !frameRefused th v) hready hops rfl hfit hcheck hlow hword hf)
  case misaligned =>
    have hcheck := checkAccess_misaligned (s := s1) (p := t.panel) (t := t.index) (k := ⟨8, true, true, false⟩)
      (ptr := ptr) ha rfl hal
    exact ⟨congrArg Host.Outcome.next (atomic_fails (acc := fun _ v => isInt v) hready hops henv (haddFit hv) hcheck),
      congrArg Host.Outcome.next
        (atomic_fails (acc := fun th v => !frameRefused th v) hready hops henv (hswapFit hv) hcheck)⟩
  case outside =>
    have hcheck := checkAccess_above (s := s1) (p := t.panel) (t := t.index) (ptr := ptr) ha hwrite hal hlo hend hdev
    exact ⟨congrArg Host.Outcome.next (atomic_outside (acc := fun _ v => isInt v) hready hops henv (haddFit hv) hcheck hlo),
      congrArg Host.Outcome.next
        (atomic_outside (acc := fun th v => !frameRefused th v) hready hops henv (hswapFit hv) hcheck hlo)⟩

end Sys2Proof.Proofs
end

section
/-! PROOFS. The control stack, calls and returns. Settles O26. -/

namespace Sys2Proof.Proofs

open Sys2Proof Sys2Proof.Machine

/-! ### The control stack (R177) -/

/-- An access of a stack outside device space and bank 7. -/
theorem stackAddr_of_allowed {s : State} {p t a n b : Nat} (h : Allowed a n) (hn : n ≤ 32) (hlo : a ≤ b)
    (hhi : b + 8 ≤ a + n) :
    s.stackAddr p t b = true := by
  obtain ⟨_, hfirst, hlast, hbank⟩ := h
  have hdev : deviceSpace b = false := by
    simp only [deviceSpace, Bool.and_eq_false_iff, decide_eq_false_iff_not] at hfirst hlast ⊢
    omega
  have hb : (decide (b < 0x200000) && decide (0x1C0000 ≤ b)) = false := by
    rw [Bool.and_eq_false_iff, decide_eq_false_iff_not, decide_eq_false_iff_not]
    omega
  unfold State.stackAddr
  rw [hdev, hb]
  rfl

/-- A word pushed on the control stack, in a plain word of a bank. -/
theorem pushControl_eq {s : State} {t : Tid} {a : Nat} (hinj : NoInjection s t) (had : (s.at t).adopted = none)
    (hj : s.journaled t.panel t.index = false) (hcsp : (s.at t).csp.toNat = a + 8) (hlo : (s.at t).csLo.toNat ≤ a)
    (haddr : s.stackAddr t.panel t.index a = true) (hspot : s.panelSpot t.panel a = .mem t.panel a .bank)
    (hw : ∀ x ∈ s.bankWrites, (x.1, x.2.2) ≠ (t.panel.val, a)) (w : TWord) :
    s.pushControl t.panel t.index w = .ok ((banked s t a w).setThread t.panel t.index
      { s.at t with csp := BitVec.ofNat 64 a }) := by
  have hc : (s.thread t.panel t.index).csp.toNat = a + 8 := hcsp
  have hl : (s.thread t.panel t.index).csLo.toNat ≤ a := hlo
  unfold State.pushControl
  dsimp only
  rw [hc, Nat.add_sub_cancel, if_neg (by omega), haddr, if_neg (fun h => Bool.false_ne_true h.symm),
    pushWord_bank hinj had hj hspot hw]
  rfl

/-- A write to a bank and one of a thread's record do not meet. -/
theorem banked_setThread (s : State) (t : Tid) (v : Thread) (a : Nat) (w : TWord) :
    banked (s.setThread t.panel t.index v) t a w = (banked s t a w).setThread t.panel t.index v := rfl

/-- A thread that pushes two words on its control stack, in plain words of the banks. -/
structure PushesTwo (s : State) (t : Tid) (a : Nat) : Prop where
  noInjection : NoInjection s t
  notAdopted : (s.at t).adopted = none
  notJournaled : s.journaled t.panel t.index = false
  csp : (s.at t).csp.toNat = a + 16
  csLo : (s.at t).csLo.toNat ≤ a
  allowed : Allowed a 16
  upper : s.panelSpot t.panel (a + 8) = .mem t.panel (a + 8) .bank
  lower : s.panelSpot t.panel a = .mem t.panel a .bank
  writes : ∀ x ∈ s.bankWrites, (x.1, x.2.2) ≠ (t.panel.val, a + 8) ∧ (x.1, x.2.2) ≠ (t.panel.val, a)

/-- The state with a call record below the control stack pointer. -/
def recorded (s : State) (t : Tid) (a depth ret : Nat) : State :=
  banked (banked s t (a + 8) (tword 0xC5 (BitVec.ofNat 64 depth))) t a (tword 0xC4 (BitVec.ofNat 64 (ret % 2 ^ 48)))

theorem recorded_setThread (s : State) (t : Tid) (v : Thread) (a depth ret : Nat) :
    recorded (s.setThread t.panel t.index v) t a depth ret = (recorded s t a depth ret).setThread t.panel t.index v := rfl

theorem pushRecord_eq {s : State} {t : Tid} {a n r ret : Nat} (h : PushesTwo s t a) (hn : n ≤ (s.at t).depth) :
    s.pushRecord t.panel t.index n r ret = .ok ((recorded s t a ((s.at t).depth - n + r) ret).setThread
      t.panel t.index { s.at t with csp := BitVec.ofNat 64 a }) := by
  have hc : (s.thread t.panel t.index).csp.toNat = a + 16 := h.csp
  have ha : a + 16 ≤ 2 ^ 48 := h.allowed.1
  have hdepth : n ≤ (s.thread t.panel t.index).depth := hn
  have hlo : (s.thread t.panel t.index).csLo.toNat ≤ a := h.csLo
  have hfull : (s.thread t.panel t.index).recordFull = false := by
    unfold Thread.recordFull
    rw [Bool.or_eq_false_iff, decide_eq_false_iff_not, decide_eq_false_iff_not]
    omega
  have haddr (u : State) (b : Nat) (hb : a ≤ b) (hb' : b + 8 ≤ a + 16) : u.stackAddr t.panel t.index b = true :=
    stackAddr_of_allowed h.allowed (by decide) hb hb'
  have hguard : (s.stackAddr t.panel t.index (a + 16 - 8) && s.stackAddr t.panel t.index (a + 16 - 16)) = true := by
    rw [haddr s _ (by omega) (by omega), haddr s _ (by omega) (by omega)]
    rfl
  have hfirst := pushControl_eq (a := a + 8) h.noInjection h.notAdopted h.notJournaled h.csp (h.csLo.trans (by omega))
    (haddr s _ (by omega) (by omega)) h.upper (fun x hx => (h.writes x hx).1)
    (tword 0xC5 (BitVec.ofNat 64 ((s.at t).depth - n + r)))
  have hown : (((banked s t (a + 8) (tword 0xC5 (BitVec.ofNat 64 ((s.at t).depth - n + r)))).setThread t.panel t.index
      { s.at t with csp := BitVec.ofNat 64 (a + 8) }).at t) = { s.at t with csp := BitVec.ofNat 64 (a + 8) } :=
    at_setThread ..
  have hsecond := pushControl_eq (a := a)
    (s := (banked s t (a + 8) (tword 0xC5 (BitVec.ofNat 64 ((s.at t).depth - n + r)))).setThread t.panel t.index
      { s.at t with csp := BitVec.ofNat 64 (a + 8) }) h.noInjection (by rw [hown]; exact h.notAdopted)
    (by rw [journaled_setThread (by rfl)]; exact h.notJournaled)
    (by rw [hown, BitVec.toNat_ofNat]; omega) (by rw [hown]; exact h.csLo)
    (haddr _ _ (by omega) (by omega)) h.lower ?writes (tword 0xC4 (BitVec.ofNat 64 (ret % 2 ^ 48)))
  case writes =>
    intro x hx
    rcases List.mem_cons.mp (show x ∈ (t.panel.val, 1 + t.index.val / 4, a + 8) :: s.bankWrites from hx) with rfl | hx
    · intro heq
      have hne : a + 8 = a := (Prod.mk.inj heq).2
      omega
    · exact (h.writes x hx).2
  unfold State.pushRecord
  dsimp only
  rw [hfull, if_neg (fun hor => hor.elim (Nat.not_lt.mpr hdepth) Bool.false_ne_true), hc, hguard,
    if_neg (fun h => Bool.false_ne_true h.symm)]
  rw [show (s.thread t.panel t.index).depth = (s.at t).depth from rfl, hfirst]
  dsimp only
  rw [hsecond, hown, banked_setThread, Laws.setThread_setThread]
  rfl

theorem pushRecord_error {s : State} {t : Tid} {n r ret : Nat} (hn : (s.at t).depth < n) :
    s.pushRecord t.panel t.index n r ret = .error (faultStop t.panel t.index SB) := if_pos (.inl hn)

/-- What the record's two words leave of the rest. -/
theorem recorded_spec (s : State) (t : Tid) {a : Nat} (depth ret : Nat) :
    OnlyWords s (recorded s t a depth ret) t.panel [a + 8, a]
    ∧ (recorded s t a depth ret).word t.panel (a + 8) = tword 0xC5 (BitVec.ofNat 64 depth)
    ∧ (recorded s t a depth ret).word t.panel a = tword 0xC4 (BitVec.ofNat 64 (ret % 2 ^ 48)) := by
  have hkey : memKey t.panel (a + 8) ≠ memKey t.panel a := by
    unfold memKey
    omega
  unfold recorded
  refine ⟨onlyWords_trans (onlyWords_banked ..) (onlyWords_banked ..), ?_, ?_⟩
  · rw [word_banked, if_neg hkey, word_banked, if_pos rfl]
  · rw [word_banked, if_pos rfl]

theorem at_recorded (s : State) (t : Tid) (a depth ret : Nat) : (recorded s t a depth ret).at t = s.at t := rfl

theorem plain_recorded {s : State} {t : Tid} (h : Plain s t) (a depth ret : Nat) : Plain (recorded s t a depth ret) t :=
  plain_of_eq h rfl rfl rfl

/-- After its record a call predicts, and retires at its target. -/
theorem goes_called {s v : State} {t : Tid} {a depth ret len target : Nat} {w : Thread} {stack : List Slot}
    (hplain : Plain s t) (hw : w = { s.at t with stack := stack, csp := BitVec.ofNat 64 a })
    (hsteer : Steers ((recorded s t a depth ret).setThread t.panel t.index w) v t) (htarget : target < 2 ^ 48) :
    Goes (recorded s t a depth ret) (v.leap t.panel t.index len target 2) t target stack
      (fun th => { th with csp := BitVec.ofNat 64 a }) := by
  have hplain' := plain_recorded hplain a depth ret
  have hat := at_recorded s t a depth ret
  generalize recorded s t a depth ret = m at hplain' hat hsteer ⊢
  have hg := goes_of_leap (f := fun th => { th with csp := BitVec.ofNat 64 a }) (stack := stack)
    hplain' (sets_setThread m t w) hsteer (by rw [hw, hat]) (by
      intro _ _ _ _ _ _
      rw [hw, hat]
      rfl) len target 2
  rwa [Nat.mod_eq_of_lt htarget] at hg

/-- The words below the control stack pointer are plain, whatever stands on the operand stack. -/
theorem pushesTwo_of_plainWord {s s1 u : State} {t : Tid} {len : Nat} {v : Thread} (hready : Ready s t len s1)
    (hset : Sets s1 u t v)
    (h16 : 16 ≤ (s1.at t).csp.toNat) (hlo : (s1.at t).csLo.toNat ≤ (s1.at t).csp.toNat - 16)
    (hupper : PlainWord s1 t ((s1.at t).csp.toNat - 8)) (hlower : PlainWord s1 t ((s1.at t).csp.toNat - 16))
    (hallow : Allowed ((s1.at t).csp.toNat - 16) 16) (hcsp : v.csp = (s1.at t).csp)
    (hcs : v.csLo = (s1.at t).csLo) (had : v.adopted = (s1.at t).adopted) :
    PushesTwo u t ((s1.at t).csp.toNat - 16) := by
  obtain ⟨hown, _, hframe⟩ := hset
  have hinj : NoInjection u t := by
    have hcores : u.cores = s1.cores := (congrArg State.cores hframe).trans rfl
    unfold NoInjection State.core
    rw [hcores]
    exact noInjection_of_ready hready
  have hspot (b : Nat) : u.panelSpot t.panel b = s1.panelSpot t.panel b :=
    (congrArg (fun x : State => x.panelSpot t.panel b) hframe).trans rfl
  have hbw : u.bankWrites = s1.bankWrites := (congrArg State.bankWrites hframe).trans rfl
  have height : (s1.at t).csp.toNat - 16 + 8 = (s1.at t).csp.toNat - 8 := by omega
  obtain ⟨huspot, _, _, huw, hj, hna⟩ := hupper
  obtain ⟨hlspot, _, _, hlw, _, _⟩ := hlower
  refine ⟨hinj, ?_, ?_, ?_, ?_, hallow, ?_, (hspot _).trans hlspot, fun x hx => ⟨?_, hlw x (hbw ▸ hx)⟩⟩
  · rw [hown, had]
    exact hna
  · have hth : (u.thread t.panel t.index).adopted = (s1.thread t.panel t.index).adopted := by
      rw [show u.thread t.panel t.index = v from hown, had]
      rfl
    unfold State.journaled State.journal State.flag at hj ⊢
    rw [hth, fld_of_reg (reg_of_regs ((congrArg State.regs hframe).trans rfl) _ _),
      show u.journals = s1.journals from (congrArg State.journals hframe).trans rfl]
    exact hj
  · rw [hown, hcsp]
    omega
  · rw [hown, hcs]
    exact hlo
  · rw [height, hspot]
    exact huspot
  · rw [height]
    exact huw x (hbw ▸ hx)

theorem goes_call {s s1 : State} {t : Tid} {a r : Fin 16} {disp : BitVec 24} {b target : Nat} (hplain : Plain s1 t)
    (hready : Ready s t 5 s1) (hpush : PushesTwo s1 t b) (ha : a.val ≤ (s1.at t).depth) (htarget : target < 2 ^ 48)
    (hk : ∃ k : Int, ((s1.at t).pc : Int) + 5 + disp.toInt = target + k * 2 ^ 48) :
    ∃ u : State, exec (.call t disp a r) s = .next u
      ∧ Goes (recorded s1 t b ((s1.at t).depth - a + r) ((s1.at t).pc + 5)) u t target (s1.at t).stack
        (fun th => { th with csp := BitVec.ofNat 64 b }) := by
  refine ⟨(((recorded s1 t b ((s1.at t).depth - a + r) ((s1.at t).pc + 5)).setThread t.panel t.index
      { s1.at t with csp := BitVec.ofNat 64 b }).pushReturn t.panel t.index (((s1.at t).pc + 5) % 2 ^ 48)).leap
        t.panel t.index 5 target 2, congrArg Host.Outcome.next ((Laws.instr_ready s s1 t _ _ hready).trans ?_), ?_⟩
  · rw [show s1.after t.panel t.index 5 = (s1.at t).pc + 5 from rfl, pushRecord_eq hpush ha, target_eq (len := 5) htarget hk]
  · exact goes_called hplain rfl (steers_pushReturn _ t _) htarget

/-- A call through an operand: the `CODE` word is popped before the record is pushed. -/
theorem goes_calli {s s1 : State} {t : Tid} {a r : Fin 16} {b : Nat} {c : Word} {rest : List Slot} (hplain : Plain s1 t)
    (hready : Ready s t 2 s1) (hops : Operands s1 t [tword 0xA0 c] rest) (hc : c.toNat < 2 ^ 48)
    (hfull : (s1.at t).recordFull = false)
    (hpush : PushesTwo (s1.setThread t.panel t.index { s1.at t with stack := rest }) t b)
    (ha : a.val + 1 ≤ (s1.at t).depth) :
    ∃ u : State, exec (.calli t a r) s = .next u
      ∧ Goes (recorded s1 t b ((s1.at t).depth - 1 - a + r) ((s1.at t).pc + 2)) u t c.toNat rest
        (fun th => { th with csp := BitVec.ofNat 64 b }) := by
  have hdepth : ((s1.setThread t.panel t.index { s1.at t with stack := rest }).at t).depth = (s1.at t).depth - 1 := by
    have hstack : (s1.at t).stack = [.word (tword 0xA0 c)] ++ rest := hops.1
    rw [at_setThread]
    unfold Thread.depth
    rw [hstack]
    simp [Thread.inMemory]
  have hrec := pushRecord_eq (n := a) (r := r) (ret := (s1.at t).pc + 2) hpush (by rw [hdepth]; omega)
  rw [hdepth, recorded_setThread, at_setThread, Laws.setThread_setThread] at hrec
  have hshort : ¬ ((s1.thread t.panel t.index).depth < a.val + 1 ∨ (s1.thread t.panel t.index).recordFull = true) := by
    rintro (h | h)
    · exact absurd ha (Nat.not_le.mpr h)
    · rw [show (s1.thread t.panel t.index).recordFull = false from hfull] at h
      cases h
  refine ⟨((((recorded s1 t b ((s1.at t).depth - 1 - a + r) ((s1.at t).pc + 2)).setThread t.panel t.index
      { s1.at t with stack := rest, csp := BitVec.ofNat 64 b }).pushReturn t.panel t.index
        (((s1.at t).pc + 2) % 2 ^ 48)).resolveJump t.panel t.index 2 c.toNat).leap t.panel t.index 2 c.toNat 2,
    congrArg Host.Outcome.next ((Laws.instr_ready s s1 t _ _ hready).trans ?_), ?_⟩
  · rw [if_neg hshort, popCode_eq hc hops]
    dsimp only
    rw [show s1.after t.panel t.index 2 = (s1.at t).pc + 2 from rfl, hrec]
  · exact goes_called hplain rfl ((steers_pushReturn _ t _).trans (steers_resolveJump _ t _ _)) hc

theorem callsPushTheirRecord : CallsPushTheirRecord := by
  intro s s1 t a r hplain csp p h16 hlo hupper hlower hallow called
  have hrecord (depth ret : Nat) : OnlyWords s1 (recorded s1 t (csp - 16) depth ret) p [csp - 8, csp - 16]
      ∧ (recorded s1 t (csp - 16) depth ret).word p (csp - 8) = tword 0xC5 (BitVec.ofNat 64 depth)
      ∧ (recorded s1 t (csp - 16) depth ret).word p (csp - 16) = tword 0xC4 (BitVec.ofNat 64 (ret % 2 ^ 48)) := by
    have h := recorded_spec s1 t (a := csp - 16) depth ret
    rwa [show csp - 16 + 8 = csp - 8 by omega] at h
  have hpush {len : Nat} {u : State} {v : Thread} (hready : Ready s t len s1) (hset : Sets s1 u t v)
      (hcsp : v.csp = (s1.at t).csp) (hcs : v.csLo = (s1.at t).csLo) (had : v.adopted = (s1.at t).adopted) :
      PushesTwo u t (csp - 16) :=
    pushesTwo_of_plainWord hready hset h16 hlo hupper hlower hallow hcsp hcs had
  refine ⟨fun disp target hready htarget hk => ⟨fun ha => ?call, fun ha => ?callShort⟩,
    fun c rest hc hready hops => ⟨fun ha => ?calli, fun ha => ?calliShort⟩⟩
  case call =>
    obtain ⟨u, hexec, hgoes⟩ := goes_call (r := r) hplain hready
      (hpush hready (Sets.refl s1 t) rfl rfl rfl) ha htarget hk
    obtain ⟨honly, hdepth, hret⟩ := hrecord ((s1.at t).depth - a + r) ((s1.at t).pc + 5)
    exact ⟨u, hexec, _, honly, hdepth, hret, hgoes⟩
  case callShort =>
    refine congrArg Host.Outcome.next ((Laws.instr_ready s s1 t _ _ hready).trans ?_)
    rw [pushRecord_error ha]
    rfl
  case calli =>
    have hfull : (s1.at t).recordFull = false := by
      unfold Thread.recordFull
      rw [Bool.or_eq_false_iff, decide_eq_false_iff_not, decide_eq_false_iff_not]
      omega
    obtain ⟨u, hexec, hgoes⟩ := goes_calli (r := r) hplain hready hops hc hfull (hpush hready (sets_setThread s1 t _) rfl rfl rfl) ha
    obtain ⟨honly, hdepth, hret⟩ := hrecord ((s1.at t).depth - 1 - a + r) ((s1.at t).pc + 2)
    exact ⟨u, hexec, _, honly, hdepth, hret, hgoes⟩
  case calliShort =>
    refine congrArg Host.Outcome.next ((Laws.instr_ready s s1 t _ _ hready).trans ?_)
    rw [if_pos (Or.inl (show (s1.thread t.panel t.index).depth < a.val + 1 from ha))]
    rfl

/-! ### Returns (R177, R198) -/

theorem readEach_still {s : State} {t : Tid} {addrs : List Nat} (hinj : NoInjection s t) (had : (s.at t).adopted = none)
    (h : ∀ a ∈ addrs, s.stackAddr t.panel t.index a = true ∧ Still s t a) :
    s.readEach t.panel t.index addrs = .ok (addrs.map (s.word t.panel), s) := by
  induction addrs with
  | nil => rfl
  | cons a rest ih =>
    obtain ⟨haddr, hstill⟩ := h a List.mem_cons_self
    unfold State.readEach
    rw [haddr, if_neg (fun hn => Bool.false_ne_true hn.symm), readWord_still hinj had hstill]
    dsimp only
    rw [ih fun b hb => h b (List.mem_cons_of_mem a hb)]
    rfl

/-- A thread whose next words on the control stack are plain. -/
structure PopsPlain (s : State) (t : Tid) (a n : Nat) : Prop where
  noInjection : NoInjection s t
  notAdopted : (s.at t).adopted = none
  words : ∀ k, k < n → Still s t (a + 8 * k)
  allowed : Allowed a (8 * n)
  few : n ≤ 4

theorem popWords_eq {s : State} {t : Tid} {a : Nat} {tags : List Nat} (h : PopsPlain s t a tags.length) :
    s.popWords t.panel t.index a tags
      = .ok ((List.range tags.length).map (fun k => s.word t.panel (a + 8 * k)), s) := by
  have hfew := h.few
  have hread := readEach_still (addrs := (List.range tags.length).map fun k => a + 8 * k) h.noInjection h.notAdopted (by
    intro b hb
    obtain ⟨k, hk, rfl⟩ := List.mem_map.mp hb
    have hlt := List.mem_range.mp hk
    exact ⟨stackAddr_of_allowed h.allowed (by omega) (by omega) (by omega), h.words k hlt⟩)
  unfold State.popWords
  dsimp only
  rw [hread, List.map_map]
  rfl

section

variable {s s1 : State} {t : Tid} {a : Nat} (hplain : Plain s1 t) (hready : Ready s t 1 s1)
include hready

/-- What `RET` does with the two words of the record. -/
theorem ret_eq (hcsp : (s1.at t).csp.toNat = a) (hhi : a + 16 ≤ (s1.at t).csHi.toNat) (hpops : PopsPlain s1 t a 2) :
    exec (.ret t) s = .next (
      if tagOf (s1.word t.panel (a + 8 * 0)) ≠ 0xC4 ∨ tagOf (s1.word t.panel (a + 8 * 1)) ≠ 0xC5 then s1.faults t TY
      else if (payload (s1.word t.panel (a + 8 * 1))).toNat ≠ (s1.at t).depth then s1.faults t SI
      else ((s1.setThread t.panel t.index { s1.at t with csp := BitVec.ofNat 64 (a + 16) }).resolveReturn t.panel t.index
        ((payload (s1.word t.panel (a + 8 * 0))).toNat % 2 ^ 48)).retire t.panel t.index
          ((payload (s1.word t.panel (a + 8 * 0))).toNat % 2 ^ 48) 3) := by
  have hc : (s1.thread t.panel t.index).csp.toNat = a := hcsp
  have hh : a + 16 ≤ (s1.thread t.panel t.index).csHi.toNat := hhi
  have hshort : (s1.thread t.panel t.index).controlShort 2 = false := by
    unfold Thread.controlShort
    rw [decide_eq_false_iff_not, hc]
    omega
  have hpop := popWords_eq (tags := [0xC4, 0xC5]) hpops
  rw [show (List.range [0xC4, 0xC5].length).map (fun k => s1.word t.panel (a + 8 * k))
    = [s1.word t.panel (a + 8 * 0), s1.word t.panel (a + 8 * 1)] from rfl] at hpop
  refine congrArg Host.Outcome.next ((Laws.instr_ready s s1 t _ _ hready).trans ?_)
  generalize s1.word t.panel (a + 8 * 0) = ra at hpop ⊢
  generalize s1.word t.panel (a + 8 * 1) = d at hpop ⊢
  rw [hshort, if_neg Bool.false_ne_true, hc, hpop]
  dsimp only
  by_cases htag : tagOf ra ≠ 0xC4 ∨ tagOf d ≠ 0xC5
  · rw [if_pos htag, if_pos htag]
    rfl
  · rw [if_neg htag, if_neg htag]
    by_cases hd : (payload d).toNat ≠ (s1.at t).depth
    · rw [if_pos hd, if_pos (show (payload d).toNat ≠ (s1.thread t.panel t.index).depth from hd)]
      rfl
    · rw [if_neg hd, if_neg (show ¬ (payload d).toNat ≠ (s1.thread t.panel t.index).depth from hd)]
      rfl

/-- What privileged `RETI` does with the four words of the frame, outside a double-fault handler. -/
theorem reti_eq (hcsp : (s1.at t).csp.toNat = a) (hhi : a + 32 ≤ (s1.at t).csHi.toNat) (hpops : PopsPlain s1 t a 4)
    (hpriv : (s1.at t).status.getLsbD 8 = true) (hdouble : (s1.at t).double = false) :
    exec (.reti t) s = .next (
      if tagOf (s1.word t.panel (a + 8 * 0)) ≠ 0xC3 ∨ tagOf (s1.word t.panel (a + 8 * 1)) ≠ 0xC2
          ∨ tagOf (s1.word t.panel (a + 8 * 2)) ≠ 0xC1 ∨ tagOf (s1.word t.panel (a + 8 * 3)) ≠ 0xC0 then s1.faults t TY
      else if (payload (s1.word t.panel (a + 8 * 0))).toNat ≠ (s1.at t).depth then s1.faults t SI
      else (s1.setThread t.panel t.index { s1.at t with
          csp := BitVec.ofNat 64 (a + 32), status := payload (s1.word t.panel (a + 8 * 1)) &&& statusMask }).retire
        t.panel t.index ((payload (s1.word t.panel (a + 8 * 2))).toNat % 2 ^ 48) 6) := by
  have hc : (s1.thread t.panel t.index).csp.toNat = a := hcsp
  have hh : a + 32 ≤ (s1.thread t.panel t.index).csHi.toNat := hhi
  have hp : (s1.thread t.panel t.index).priv = true := hpriv
  have hd : (s1.thread t.panel t.index).double = false := hdouble
  have hshort : (s1.thread t.panel t.index).controlShort 4 = false := by
    unfold Thread.controlShort
    rw [decide_eq_false_iff_not, hc]
    omega
  have hpop := popWords_eq (tags := [0xC3, 0xC2, 0xC1, 0xC0]) hpops
  rw [show (List.range [0xC3, 0xC2, 0xC1, 0xC0].length).map (fun k => s1.word t.panel (a + 8 * k))
    = [s1.word t.panel (a + 8 * 0), s1.word t.panel (a + 8 * 1), s1.word t.panel (a + 8 * 2),
      s1.word t.panel (a + 8 * 3)] from rfl] at hpop
  have hframe : s1.popFrame t.panel t.index = .ok ([s1.word t.panel (a + 8 * 0), s1.word t.panel (a + 8 * 1),
      s1.word t.panel (a + 8 * 2), s1.word t.panel (a + 8 * 3)],
      s1.setThread t.panel t.index { s1.at t with csp := BitVec.ofNat 64 (a + 32) }) := by
    unfold State.popFrame
    dsimp only
    rw [hd, if_neg Bool.false_ne_true, hshort, if_neg Bool.false_ne_true, hc, hpop]
    rfl
  refine congrArg Host.Outcome.next ((Laws.instr_ready s s1 t _ _ hready).trans ?_)
  generalize s1.word t.panel (a + 8 * 0) = d at hframe ⊢
  generalize s1.word t.panel (a + 8 * 1) = st at hframe ⊢
  generalize s1.word t.panel (a + 8 * 2) = ra at hframe ⊢
  generalize s1.word t.panel (a + 8 * 3) = h at hframe ⊢
  rw [hp, if_neg (fun hn => Bool.false_ne_true hn.symm), hframe]
  dsimp only
  by_cases htag : tagOf d ≠ 0xC3 ∨ tagOf st ≠ 0xC2 ∨ tagOf ra ≠ 0xC1 ∨ tagOf h ≠ 0xC0
  · rw [if_pos htag, if_pos htag]
    rfl
  · rw [if_neg htag, if_neg htag]
    by_cases hdepth : (payload d).toNat ≠ (s1.at t).depth
    · rw [if_pos hdepth, if_pos (show (payload d).toNat ≠ (s1.thread t.panel t.index).depth from hdepth)]
      rfl
    · rw [if_neg hdepth, if_neg (show ¬ (payload d).toNat ≠ (s1.thread t.panel t.index).depth from hdepth)]
      dsimp only
      rw [Laws.thread_setThread, Laws.setThread_setThread]

theorem reti_unprivileged (hpriv : (s1.at t).status.getLsbD 8 = false) :
    exec (.reti t) s = .next (s1.faults t PV) := by
  have hp : (s1.thread t.panel t.index).priv = false := hpriv
  refine congrArg Host.Outcome.next ((Laws.instr_ready s s1 t _ _ hready).trans ?_)
  rw [hp, if_pos rfl]
  rfl

end

theorem returnsCheckBeforeReturning : ReturnsCheckBeforeReturning := by
  intro s s1 t hplain hready csp w hhi hwords hallow
  have hpops {n : Nat} (hn : n ≤ 4) (hal : Allowed csp (8 * n)) : PopsPlain s1 t csp n :=
    ⟨noInjection_of_ready hready, adopted_of_plainWord (hwords 0 (by decide)),
      fun k hk => still_of_plainWord (hwords k (by omega)), hal, hn⟩
  have hallow2 : Allowed csp (8 * 2) := by
    obtain ⟨hend, hfirst, hlast, hbank⟩ := hallow
    refine ⟨by omega, hfirst, ?_, by omega⟩
    simp only [deviceSpace, Bool.and_eq_false_iff, decide_eq_false_iff_not] at hfirst hlast ⊢
    omega
  refine ⟨?ret, reti_unprivileged hready, fun hpriv hdouble => ?reti⟩
  case ret =>
    have hret := ret_eq hready (a := csp) rfl (by omega) (hpops (by decide) hallow2)
    refine ⟨fun h0 h1 hd => ⟨_, hret, ?_⟩, fun htag => hret.trans (congrArg _ (if_pos htag)), fun h0 h1 hd => hret.trans ?_⟩
    · rw [if_neg (not_or.mpr ⟨not_not.mpr h0, not_not.mpr h1⟩), if_neg (not_not.mpr hd)]
      have hg := goes_of_retire (f := fun th => { th with csp := BitVec.ofNat 64 (csp + 16) }) (stack := (s1.at t).stack)
        hplain (sets_setThread s1 t { s1.at t with csp := BitVec.ofNat 64 (csp + 16) })
        (steers_resolveReturn _ t ((payload (w 0)).toNat % 2 ^ 48)) rfl (fun _ _ _ _ _ _ => rfl)
        ((payload (w 0)).toNat % 2 ^ 48) 3
      rwa [Nat.mod_mod] at hg
    · rw [if_neg (not_or.mpr ⟨not_not.mpr h0, not_not.mpr h1⟩), if_pos hd]
  case reti =>
    have hreti := reti_eq hready (a := csp) rfl hhi (hpops le_rfl hallow) hpriv hdouble
    intro good
    have hbad : ¬ good ↔ tagOf (w 0) ≠ 0xC3 ∨ tagOf (w 1) ≠ 0xC2 ∨ tagOf (w 2) ≠ 0xC1 ∨ tagOf (w 3) ≠ 0xC0 := by
      simp only [good, not_and_or]
    refine ⟨fun hgood hd => ⟨_, hreti, ?_⟩, fun htag => hreti.trans (congrArg _ (if_pos (hbad.mp htag))),
      fun hgood hd => hreti.trans ?_⟩
    · rw [if_neg (mt hbad.mpr (not_not.mpr hgood)), if_neg (not_not.mpr hd)]
      have hg := goes_of_retire (stack := (s1.at t).stack)
        (f := fun th => { th with csp := BitVec.ofNat 64 (csp + 32), status := payload (w 1) &&& 0x1F1F })
        hplain (sets_setThread s1 t { s1.at t with
          csp := BitVec.ofNat 64 (csp + 32), status := payload (w 1) &&& statusMask })
        (Steers.refl _ t) rfl (fun _ _ _ _ _ _ => rfl) ((payload (w 2)).toNat % 2 ^ 48) 6
      rwa [Nat.mod_mod] at hg
    · rw [if_neg (mt hbad.mpr (not_not.mpr hgood)), if_pos hd]

/-- Settles O26, by its two parts. -/
theorem callsAndReturns : Obligations.CallsAndReturns := ⟨callsPushTheirRecord, returnsCheckBeforeReturning⟩

end Sys2Proof.Proofs
end

section
/-! PROOFS. Claims and completions of events. Settles O35. -/

namespace Sys2Proof.Proofs

open Sys2Proof Sys2Proof.Machine

/-! ### Counts, and instructions that only push a word -/

theorem satAdd_eq_min (w n d : Nat) : satAdd w n d = min (n + d) (2 ^ w - 1) := by
  unfold satAdd
  have : 0 < 2 ^ w := Nat.two_pow_pos w
  split <;> omega

/-- A count that has grown. -/
theorem fld_count_self (s : State) (pk : Nat) {f : Fld} (d : Nat) (hf : fits f = true) :
    (s.count pk f d).fld pk f = min (s.fld pk f + d) (2 ^ (f.hi + 1 - f.lo) - 1) := by
  have hpos : 0 < 2 ^ (f.hi + 1 - f.lo) := Nat.two_pow_pos _
  unfold State.count
  rw [fld_setFld_self s pk _ hf, satAdd_eq_min, Nat.mod_eq_of_lt (by omega)]

theorem testBit_putBit (n i j : Nat) (v : Bool) :
    (putBit n i v).testBit j = if j = i then v else n.testBit j := by
  unfold putBit
  cases v with
  | true =>
    rw [if_pos rfl, Nat.testBit_or, Nat.one_shiftLeft, Nat.testBit_two_pow]
    by_cases h : j = i
    · simp [h]
    · simp [h, Ne.symm h]
  | false =>
    rw [if_neg (by decide)]
    cases h : n.testBit i with
    | true =>
      have hone : n >>> i % 2 ^ 1 = 1 := by
        have := Nat.toNat_testBit n i
        rw [h, ← Nat.shiftRight_eq_div_pow] at this
        exact this.symm
      have hrep := testBit_replace n i 1 0 j
      rw [hone] at hrep
      rw [if_pos rfl, Nat.one_shiftLeft]
      simp only [Nat.one_mul, Nat.zero_mod, Nat.zero_mul, Nat.add_zero, Nat.zero_testBit] at hrep
      rw [hrep]
      by_cases hj : j = i
      · rw [if_pos (by omega), if_pos hj]
      · rw [if_neg (by omega), if_neg hj]
    | false =>
      rw [if_neg (by decide)]
      by_cases hj : j = i
      · rw [if_pos hj, hj, h]
      · rw [if_neg hj]

/-- A thread's own record is as good as its copy. -/
theorem retire_setThread_self {s : State} {t : Tid} {v : Thread} (h : v = s.at t) (next kind : Nat) :
    (s.setThread t.panel t.index v).retire t.panel t.index next kind = s.retire t.panel t.index next kind := by
  unfold State.retire
  dsimp only
  rw [Laws.thread_setThread, Laws.setThread_setThread, h]
  rfl

/-- Of two writes of the operand stack the later one stands. -/
theorem goOn_setThread (s : State) (t : Tid) (len : Nat) (stack rest : List Slot) (fl : Nat) :
    (s.setThread t.panel t.index { s.at t with stack := stack }).goOn t len rest fl = s.goOn t len rest fl := by
  unfold State.goOn State.leave
  rw [at_setThread, Laws.setThread_setThread]

theorem not_replaying_of_plain {s : State} {t : Tid} (h : Plain s t) : s.replaying t.panel t.index = false := by
  unfold State.replaying
  rw [replayEntries_of_plain h]
  rfl

theorem capture_of_plain {s : State} {t : Tid} (h : Plain s t) (kind : Nat) (l : List TWord) :
    s.capture t.panel t.index kind l = .ok s := if_neg (fun hj => Bool.false_ne_true (h.1.symm.trans hj))

/-- An entry pushed on at most 15 renamed ones. -/
theorem setStack_push {s : State} {t : Tid} (h : (s.at t).stack.length ≤ 15) (w : TWord) :
    s.setStack t.panel t.index (.word w :: (s.at t).stack)
        = .ok (s.leave t (.word w :: (s.at t).stack) 0) := by
  rw [leave_zero]
  exact Laws.setStack_small s t.panel t.index _ (by simpa using Nat.lt_succ_of_le h)

/-! ### Claims (R209, R210) -/

/-- What a claim takes above: the priority of the thread's last claim. -/
def lastPrio (s : State) (t : Tid) : Nat :=
  match s.lastClaim t.panel t.index with
  | some x => x.prio
  | none => 0

theorem claimable_eq (s : State) (t : Tid) :
    s.claimable t.panel t.index
      = if (s.core t.panel (t.index.val / 4)).prio.length < 16 then s.best t.panel t.index (lastPrio s t) else none := rfl

/-- A claim of a plain thread. -/
theorem readClaim_of_plain {s : State} {t : Tid} (h : Plain s t) :
    s.readClaim t.panel t.index = .ok (s.claimWord t.panel t.index, s.takeClaim t.panel t.index) := by
  unfold State.readClaim
  rw [not_replaying_of_plain h, if_neg Bool.false_ne_true]
  dsimp only
  rw [capture_of_plain h]

section

variable {s s1 : State} {t : Tid} (hready : Ready s t 3 s1) (hplain : Plain s1 t)
include hready hplain

/-- Both instructions that claim, with the state that the claim leaves. -/
theorem claim_returns (hroom : (s1.at t).stack.length ≤ 15) {u : State} {w : Word}
    (hword : s1.claimWord t.panel t.index = w) (htake : s1.takeClaim t.panel t.index = u) (hu : u.at t = s1.at t) :
    exec (.evcClaim t) s = .next (u.goOn t 3 (.word (tword 0x21 w) :: (s1.at t).stack) 0)
      ∧ exec (.srr t 0x50) s = .next (u.goOn t 3 (.word (tword 0x21 w) :: (s1.at t).stack) 0) := by
  have hread := readClaim_of_plain hplain
  rw [hword, htake] at hread
  have hpush := setStack_push (s := u) (t := t) (by rw [hu]; exact hroom) (tword 0x21 w)
  have hstack : (u.thread t.panel t.index).stack = (s1.at t).stack := congrArg Thread.stack hu
  rw [hu] at hpush
  have hpc : s1.after t.panel t.index 3 = (u.at t).pc + 3 := by rw [hu]; rfl
  constructor
  · refine congrArg Host.Outcome.next ((Laws.instr_ready s s1 t _ _ hready).trans ?_)
    rw [hread]
    dsimp only
    rw [hstack, show uint w = tword 0x21 w from rfl, hpush, hpc]
    rfl
  · refine congrArg Host.Outcome.next ((Laws.instr_ready s s1 t _ _ hready).trans ?_)
    rw [show s1.readSpecial t.panel t.index (BitVec.toNat 0x50) = s1.readClaim t.panel t.index from rfl, hread]
    dsimp only
    rw [hstack, show uint w = tword 0x21 w from rfl, hpush, hpc]
    rfl

end

/-- The state in which a source has been claimed. -/
def claimed (s : State) (t : Tid) (table src : Nat) : State :=
  { s with
    evServ := Store.write false s.evServ (evKey t.panel table src) true
    evPend := if s.srcEdge t.panel table src then Store.write false s.evPend (evKey t.panel table src) false else s.evPend
    cores := Store.write {} s.cores (t.panel * 4 + t.index.val / 4) { s.core t.panel (t.index.val / 4) with
      prio := ⟨t.index, table * 1024 + src, s.srcPrio t.panel table src⟩
        :: (s.core t.panel (t.index.val / 4)).prio } }

theorem takeClaim_some {s : State} {t : Tid} {table src : Nat} (h : s.claimable t.panel t.index = some (table, src)) :
    s.takeClaim t.panel t.index = claimed s t table src := by
  unfold State.takeClaim
  rw [h]
  rfl

theorem prio_claimed (s : State) (t : Tid) (table src : Nat) :
    ((claimed s t table src).core t.panel (t.index.val / 4)).prio
      = ⟨t.index, 1024 * table + src, s.srcPrio t.panel table src⟩ :: (s.core t.panel (t.index.val / 4)).prio := by
  rw [Nat.mul_comm 1024]
  exact congrArg Core.prio (Laws.read_write_self ({} : Core) s.cores (t.panel * 4 + t.index.val / 4) _)

theorem inService_claimed (s : State) (t : Tid) (table src : Nat) :
    (claimed s t table src).inService t.panel table src = true := by
  exact Laws.read_write_self false s.evServ (evKey t.panel table src) true

theorem srcPending_claimed {s : State} {t : Tid} {table src : Nat} (hedge : s.srcEdge t.panel table src = true) :
    (claimed s t table src).srcPending t.panel table src = false := by
  have hread : Store.read false (claimed s t table src).evPend (evKey t.panel table src) = false := by
    unfold claimed
    dsimp only
    rw [if_pos hedge, Laws.read_write_self]
  unfold State.srcPending
  rw [if_pos (show (claimed s t table src).srcEdge t.panel table src = true from hedge), hread, Bool.and_false]

/-- A claim that finds nothing, or no room. -/
theorem takeClaim_none {s : State} {t : Tid} (h : s.claimable t.panel t.index = none) :
    let u := s.takeClaim t.panel t.index
    u.fld (evcPage t.panel 0) EVC_SPURIOUS.COUNT = min (s.fld (evcPage t.panel 0) EVC_SPURIOUS.COUNT + 1) (2 ^ 32 - 1)
    ∧ (16 ≤ (s.core t.panel (t.index.val / 4)).prio.length →
      (u.fld (evcPage t.panel 0) EVC_STATE.STACK_FULL).testBit (t.index.val / 4) = true)
    ∧ u = { s with regs := u.regs } := by
  have hspur : s.takeClaim t.panel t.index = s.spurious t.panel t.index := by
    unfold State.takeClaim
    rw [h]
  have hcount := fld_count_self s (evcPage t.panel 0) (f := EVC_SPURIOUS.COUNT) 1 (by decide)
  have hc : t.index.val / 4 < 4 := by omega
  dsimp only
  rw [hspur]
  by_cases hroom : (s.core t.panel (t.index.val / 4)).prio.length < 16
  · have heq : s.spurious t.panel t.index = s.count (evcPage t.panel 0) EVC_SPURIOUS.COUNT 1 := if_pos hroom
    rw [heq]
    exact ⟨hcount, fun hle => absurd hroom (by omega), rfl⟩
  · have heq : s.spurious t.panel t.index = _ := if_neg hroom
    rw [heq]
    refine ⟨?_, fun _ => ?_, rfl⟩
    · rw [fld_setFld_of_apart _ _ _ (by decide) (by decide) (by decide)]
      exact hcount
    · rw [fld_setFld_self _ _ _ (by decide), Nat.testBit_mod_two_pow, testBit_putBit, if_pos rfl]
      exact Bool.and_eq_true_iff.mpr ⟨decide_eq_true (show t.index.val / 4 < 4 from hc), rfl⟩

theorem claimsTakeIntoService : ClaimsTakeIntoService := by
  unfold ClaimsTakeIntoService
  intro s s1 t hready hplain hroom
  have hlen : s1.claimable t.panel t.index
      = if (s1.core t.panel (t.index.val / 4)).prio.length < 16 then s1.best t.panel t.index (lastPrio s1 t) else none :=
    claimable_eq s1 t
  refine ⟨fun table src hfree hbest => ?_, fun hnone => ?_⟩
  · have hclaim : s1.claimable t.panel t.index = some (table, src) := by
      rw [hlen, if_pos hfree]
      exact hbest
    refine ⟨claimed s1 t table src, ?_, prio_claimed .., inService_claimed .., srcPending_claimed, rfl⟩
    refine claim_returns hready hplain hroom ?_ (takeClaim_some hclaim) rfl
    unfold State.claimWord
    rw [hclaim]
    dsimp only
    unfold claimValue
    rw [Nat.mul_comm 1024, Nat.add_assoc]
  · have hclaim : s1.claimable t.panel t.index = none := by
      rw [hlen]
      rcases hnone with hbest | hfull
      · split
        · exact hbest
        · rfl
      · rw [if_neg (by omega)]
    obtain ⟨hcount, hfull, hframe⟩ := takeClaim_none hclaim
    refine ⟨s1.takeClaim t.panel t.index, ?_, hcount, hfull, hframe⟩
    refine claim_returns hready hplain hroom ?_ rfl ((congrArg (State.at · t) hframe).trans rfl)
    unfold State.claimWord
    rw [hclaim]

/-! ### Completions (R211) -/

/-- What an unprivileged thread takes. -/
theorem writeOperand_unprivileged {s : State} {t : Tid} (h : (s.at t).status.getLsbD 8 = false) :
    s.writeOperand t.panel t.index false = .error (faultStop t.panel t.index PV) := if_pos ⟨h, rfl⟩

/-- The operand of a privileged write, popped. -/
theorem writeOperand_of_bits {s : State} {t : Tid} {w : TWord} {rest : List Slot} {open_ : Bool}
    (hops : Operands s t [w] rest) (hpriv : (s.at t).status.getLsbD 8 = true ∨ open_ = true) (hbits : isBits w = true) :
    s.writeOperand t.panel t.index open_
      = .ok (payload w, s.setThread t.panel t.index { s.at t with stack := rest }) := by
  have hpeek := Laws.peek_renamed s t [w] rest hops
  have hrep := replace_ok (out := []) hops (by
    have := hops.2
    simp only [List.length_cons, List.length_nil] at this ⊢
    omega)
  simp only [List.length_cons, List.length_nil, Nat.zero_add] at hpeek hrep
  unfold State.writeOperand
  rw [if_neg ?_, hpeek]
  · dsimp only
    rw [if_neg (fun h => Bool.false_ne_true (h.symm.trans hbits)), hrep]
    rfl
  · rintro ⟨hp, ho⟩
    rcases hpriv with h | h
    · have hp' : (s.at t).status.getLsbD 8 = false := hp
      exact Bool.false_ne_true (hp'.symm.trans h)
    · exact Bool.false_ne_true (ho.symm.trans h)

/-- A completion of the thread's last claim. -/
def completed (s : State) (t : Tid) (x : Claim) : State :=
  (((s.setCore t.panel (t.index.val / 4) { s.core t.panel (t.index.val / 4) with
    prio := (s.core t.panel (t.index.val / 4)).prio.erase x }).unfill t.panel (t.index.val / 4)).leaveService
      t.panel x.value).wakeWaiter t.panel (x.value / 1024) (x.value % 1024)

theorem complete_last {s : State} {t : Tid} {x : Claim} {v : Nat} (hv : v ≠ 0x3FF)
    (hlast : s.lastClaim t.panel t.index = some x) (hx : x.value = v) :
    s.complete t.panel t.index v = .ok (completed s t x) := by
  subst hx
  unfold State.complete
  rw [if_neg hv, hlast]
  exact if_pos rfl

theorem complete_other {s : State} {t : Tid} {v : Nat} (hv : v ≠ 0x3FF)
    (hlast : ∀ x, s.lastClaim t.panel t.index = some x → x.value ≠ v) :
    s.complete t.panel t.index v = .error (faultStop t.panel t.index SO) := by
  unfold State.complete
  rw [if_neg hv]
  cases h : s.lastClaim t.panel t.index with
  | none => rfl
  | some x => exact if_neg (hlast x h)

theorem unfill_frame (s : State) (p c : Nat) : s.unfill p c = { s with regs := (s.unfill p c).regs } := by
  unfold State.unfill
  split <;> rfl

theorem leaveService_frame (s : State) (p v : Nat) :
    s.leaveService p v = { s with evServ := (s.leaveService p v).evServ } := by
  unfold State.leaveService
  split <;> rfl

/-- The stack of claims without one. -/
def withoutClaim (s : State) (t : Tid) (x : Claim) : State :=
  s.setCore t.panel (t.index.val / 4) { s.core t.panel (t.index.val / 4) with
    prio := (s.core t.panel (t.index.val / 4)).prio.erase x }

theorem prio_withoutClaim (s : State) (t : Tid) (x : Claim) :
    ((withoutClaim s t x).core t.panel (t.index.val / 4)).prio = (s.core t.panel (t.index.val / 4)).prio.erase x :=
  congrArg Core.prio (Laws.read_write_self ({} : Core) s.cores (t.panel * 4 + t.index.val / 4) _)

/-- A completion leaves everything but the stack of claims, `STACK_FULL`, the service of its source and waits for an
event. -/
theorem completed_frame (s : State) (t : Tid) (x : Claim) :
    completed s t x = { withoutClaim s t x with
      regs := (completed s t x).regs
      evServ := (completed s t x).evServ
      threads := (completed s t x).threads }
    ∧ { (completed s t x).at t with park := none } = { s.at t with park := none } := by
  have hunfill := unfill_frame (withoutClaim s t x) t.panel (t.index.val / 4)
  have hleave := leaveService_frame ((withoutClaim s t x).unfill t.panel (t.index.val / 4)) t.panel x.value
  obtain ⟨hframe, hthreads⟩ := onlyWakes_wakeWaiter (((withoutClaim s t x).unfill t.panel (t.index.val / 4)).leaveService
    t.panel x.value) t.panel (x.value / 1024) (x.value % 1024)
  have hown := hthreads t.panel t.index
  change completed s t x = _ at hframe
  change { (completed s t x).thread t.panel t.index with park := none } = _ at hown
  generalize completed s t x = w at hframe hown ⊢
  generalize ((withoutClaim s t x).unfill t.panel (t.index.val / 4)).leaveService t.panel x.value = v at *
  generalize (withoutClaim s t x).unfill t.panel (t.index.val / 4) = u at *
  have hat : v.at t = s.at t :=
    (congrArg (State.at · t) hleave).trans ((congrArg (State.at · t) hunfill).trans rfl)
  refine ⟨?_, hown.trans (congrArg (fun th : Thread => { th with park := none }) hat)⟩
  rw [hframe, hleave, hunfill]

theorem inService_completed {s : State} {t : Tid} {x : Claim}
    (h : ∀ k < 4, ∀ y ∈ ((completed s t x).core t.panel k).prio, y.value ≠ x.value) :
    (completed s t x).inService t.panel (x.value / 1024) (x.value % 1024) = false := by
  have hcore (k : Nat) : (completed s t x).core t.panel k = (withoutClaim s t x).core t.panel k :=
    (congrArg (State.core · t.panel k) (completed_frame s t x).1).trans rfl
  simp only [hcore] at h
  have hunfill := unfill_frame (withoutClaim s t x) t.panel (t.index.val / 4)
  obtain ⟨hframe, -⟩ := onlyWakes_wakeWaiter (((withoutClaim s t x).unfill t.panel (t.index.val / 4)).leaveService
    t.panel x.value) t.panel (x.value / 1024) (x.value % 1024)
  change completed s t x = _ at hframe
  generalize completed s t x = w at hframe ⊢
  generalize (withoutClaim s t x).unfill t.panel (t.index.val / 4) = u at *
  have hnone : ¬ ((List.range 4).any fun c => (u.core t.panel c).prio.any fun y => decide (y.value = x.value)) = true := by
    simp only [List.any_eq_true, List.mem_range, decide_eq_true_eq, not_exists, not_and]
    intro k hk y hy
    rw [hunfill] at hy
    exact h k hk y hy
  have hserv : u.leaveService t.panel x.value
      = { u with evServ := Store.write false u.evServ (evKey t.panel (x.value / 1024) (x.value % 1024)) false } :=
    if_neg hnone
  rw [hframe, hserv]
  exact Laws.read_write_self false u.evServ _ false

section

variable {s s1 : State} {t : Tid} {w : TWord} {rest : List Slot} (hready : Ready s t 3 s1)
include hready

theorem evcComplete_unprivileged (h : (s1.at t).status.getLsbD 8 = false) :
    exec (.evcComplete t) s = .next (s1.faults t PV) := by
  refine congrArg Host.Outcome.next ((Laws.instr_ready s s1 t _ _ hready).trans ?_)
  rw [writeOperand_unprivileged h]
  rfl

variable (hbits : isBits w = true) (hops : Operands s1 t [w] rest) (hpriv : (s1.at t).status.getLsbD 8 = true)
include hbits hops hpriv

/-- A completion that ends in a state with the operand popped. -/
theorem evcComplete_next {u : State} (h : (s1.setThread t.panel t.index { s1.at t with stack := rest }).complete
    t.panel t.index ((payload w).toNat % 2048) = .ok u) (hu : { u.at t with park := none } = { s1.at t with
      stack := rest
      park := none }) :
    exec (.evcComplete t) s = .next (u.goOn t 3 rest 0) := by
  have hstack : (u.at t).stack = rest := congrArg Thread.stack hu
  have hpc : (s1.at t).pc = (u.at t).pc := (congrArg Thread.pc hu).symm
  refine congrArg Host.Outcome.next ((Laws.instr_ready s s1 t _ _ hready).trans ?_)
  rw [writeOperand_of_bits hops (.inl hpriv) hbits]
  dsimp only
  rw [h]
  dsimp only
  unfold State.goOn
  rw [leave_zero, retire_setThread_self (by rw [← hstack])]
  unfold State.after
  rw [show (s1.thread t.panel t.index).pc = (s1.at t).pc from rfl, hpc]

theorem evcComplete_fault {code : Nat} (h : (s1.setThread t.panel t.index { s1.at t with stack := rest }).complete
    t.panel t.index ((payload w).toNat % 2048) = .error (faultStop t.panel t.index code)) :
    exec (.evcComplete t) s = .next (s1.faults t code) := by
  refine congrArg Host.Outcome.next ((Laws.instr_ready s s1 t _ _ hready).trans ?_)
  rw [writeOperand_of_bits hops (.inl hpriv) hbits]
  dsimp only
  rw [h]
  rfl

end

theorem completionsFollowClaims : CompletionsFollowClaims := by
  unfold CompletionsFollowClaims
  intro s s1 t tag v rest hready hplain htag hops
  have hbits : isBits (tword tag v) = true := isBits_tword htag v
  have hvalue : payload (tword tag v) = v := payload_tword tag v
  generalize tword tag v = w at hops hbits hvalue
  subst hvalue
  refine ⟨evcComplete_unprivileged hready, fun hpriv => ⟨fun hv => ?_, fun x hv hlast hx => ?_, fun hv hother => ?_⟩⟩
  · have hdone := evcComplete_next hready hbits hops hpriv (if_pos hv)
      (congrArg (fun th : Thread => { th with park := none }) (at_setThread s1 t _))
    rw [hdone, goOn_setThread]
  · obtain ⟨hframe, hown⟩ := completed_frame (s1.setThread t.panel t.index { s1.at t with stack := rest }) t x
    have hprio := (congrArg (fun u : State => (u.core t.panel (t.index.val / 4)).prio) hframe).trans
      (prio_withoutClaim (s1.setThread t.panel t.index { s1.at t with stack := rest }) t x)
    have hnext := evcComplete_next hready hbits hops hpriv (complete_last hv (hlast.symm ▸ rfl) hx)
      (hown.trans (congrArg (fun th : Thread => { th with park := none }) (at_setThread s1 t _)))
    exact ⟨_, hnext, hprio, inService_completed, (congrArg State.mem hframe).trans rfl,
      (congrArg State.evPend hframe).trans rfl, (congrArg State.evArrived hframe).trans rfl⟩
  · exact evcComplete_fault hready hbits hops hpriv (complete_other hv fun x hx => hother x hx)

/-- Settles O35. -/
theorem claimsAndCompletions : Obligations.ClaimsAndCompletions := ⟨claimsTakeIntoService, completionsFollowClaims⟩

end Sys2Proof.Proofs
end

section
/-! PROOFS. Pages and their events, and what an event, a count or a mark leaves. -/

namespace Sys2Proof.Proofs

open Sys2Proof Sys2Proof.Machine

/-! ### The block of a page, and the events that have a source (R206, R405) -/

theorem blockOf_sectorPage {s n : Nat} (hs : s < 8) (hn : n < 4096) : blockOf (sectorPage s n) = sectorBlock n := by
  have hw : windowOf (sectorPage s n) = s := by unfold windowOf sectorPage; omega
  have hm : sectorPage s n % 4096 = n := by unfold sectorPage; omega
  unfold blockOf
  rw [hw, hm, if_pos hs]

theorem blockOf_panelPage {p n : Nat} (hp : p < 8) (hn : n < 4096) : blockOf (panelPage p n) = panelBlock n := by
  have hw : windowOf (panelPage p n) = 8 + p := windowOf_panelPage hn
  have hm : panelPage p n % 4096 = n := by unfold panelPage; omega
  unfold blockOf
  rw [hw, hm, if_neg (by omega), if_pos (by omega)]

theorem blockOf_packagePage {n : Nat} (hn : n < 4096) : blockOf (packagePage n) = packageBlock n := by
  have hw : windowOf (packagePage n) = 16 := by unfold windowOf packagePage; omega
  have hm : packagePage n % 4096 = n := by unfold packagePage; omega
  unfold blockOf
  rw [hw, hm, if_neg (by decide), if_neg (by decide), if_pos rfl]

theorem panelPage_inj {p q m n : Nat} (hm : m < 4096) (hn : n < 4096) :
    panelPage p m = panelPage q n ↔ p = q ∧ m = n := by
  unfold panelPage
  omega

theorem sectorPage_inj {p q m n : Nat} (hm : m < 4096) (hn : n < 4096) :
    sectorPage p m = sectorPage q n ↔ p = q ∧ m = n := by
  unfold sectorPage
  omega

/-- The timers' events have sources. -/
theorem source_tmr {p n b : Nat} (hp : p < 8) (hn : n < 16) (hb : b ≤ 4) : (sourceOf (tmrPage p n) b).isSome = true := by
  have hblock : blockOf (tmrPage p n) = some (.tmr, n) := by
    unfold tmrPage
    rw [blockOf_panelPage hp (by omega)]
    unfold panelBlock
    simp (disch := omega) only [if_neg, if_pos, Nat.add_sub_cancel_left]
  unfold sourceOf
  rw [hblock]
  dsimp only
  split <;> simp_all

/-! ### Fields through events, counts and marks -/

theorem flag_eq (s : State) (pk : Nat) (f : Fld) : s.flag pk f = (s.fld pk f != 0) := rfl

theorem fld_of_regs {s u : State} (h : u.regs = s.regs) (pk : Nat) (f : Fld) : u.fld pk f = s.fld pk f :=
  fld_of_reg (reg_of_regs h pk f.off)

theorem fld_raise (s : State) (pk b q : Nat) {f : Fld} (hf : fits f = true) (hoff : f.off ≠ 0x020) :
    (s.raise pk b).fld q f = s.fld q f :=
  fld_of_reg (reg_raise_ne s ((fits_iff f).mp hf).2.2 fun h => hoff (Prod.mk.inj h).2)

theorem fld_raiseIf (s : State) (c : Bool) (pk b q : Nat) {f : Fld} (hf : fits f = true) (hoff : f.off ≠ 0x020) :
    (s.raiseIf c pk b).fld q f = s.fld q f := by
  unfold State.raiseIf
  split
  · exact fld_raise s pk b q hf hoff
  · rfl

/-- What does not concern registers, events or threads is as it was before an event. -/
theorem raise_keeps {α : Type} (g : State → α) (s : State) (pk b : Nat)
    (hg : ∀ u r n a e v t, g { u with regs := r, setNow := n, evArrived := a, evPend := e, events := v, threads := t }
      = g u) : g (s.raise pk b) = g s := by
  rw [raise_eq]
  exact hg ..

theorem raiseIf_keeps {α : Type} (g : State → α) (s : State) (c : Bool) (pk b : Nat)
    (hg : ∀ u r n a e v t, g { u with regs := r, setNow := n, evArrived := a, evPend := e, events := v, threads := t }
      = g u) : g (s.raiseIf c pk b) = g s := by
  unfold State.raiseIf
  split
  · exact raise_keeps g s pk b hg
  · rfl

/-- An event that stands is not cleared by another. -/
theorem raised_raise_of_raised {s : State} {pk b : Nat} (h : Raised s pk b) (q c : Nat) : Raised (s.raise q c) pk b := by
  unfold Raised at h ⊢
  by_cases hsrc : (sourceOf q c).isSome = true
  · by_cases hq : pk = q
    · subst hq
      rw [reg_raise_self s hsrc, BitVec.getLsbD_or, h, Bool.true_or]
    · rw [reg_raise_ne s (by decide) fun he => hq (Prod.mk.inj he).1]
      exact h
  · have hregs : (s.raise q c).regs = s.regs := by rw [raise_regs, if_neg hsrc]
    rw [reg_of_regs hregs]
    exact h

theorem raised_raiseIf_of_raised {s : State} {pk b : Nat} (h : Raised s pk b) (v : Bool) (q c : Nat) :
    Raised (s.raiseIf v q c) pk b := by
  unfold State.raiseIf
  split
  · exact raised_raise_of_raised h q c
  · exact h

theorem raised_raiseIf (s : State) {v : Bool} (hv : v = true) (pk : Nat) {b : Nat} (hb : b < 64)
    (h : (sourceOf pk b).isSome = true) : Raised (s.raiseIf v pk b) pk b := by
  rw [hv]
  exact raised_raise s pk hb h

theorem raised_of_reg {s u : State} {pk b : Nat} (h : u.reg pk 0x020 = s.reg pk 0x020) :
    Raised u pk b ↔ Raised s pk b := by
  unfold Raised
  rw [h]

theorem raised_of_regs {s u : State} {pk b : Nat} (h : u.regs = s.regs) : Raised u pk b ↔ Raised s pk b :=
  raised_of_reg (reg_of_regs h pk 0x020)

theorem raised_setFld (s : State) (q : Nat) {f : Fld} (v pk b : Nat) (hf : fits f = true) (hoff : f.off ≠ 0x020) :
    Raised (s.setFld q f v) pk b ↔ Raised s pk b :=
  raised_of_reg (reg_setFld_ne s f v (by decide) ((fits_iff f).mp hf).2.2 fun h => hoff (Prod.mk.inj h).2.symm)

theorem mark_eq (s : State) (pk : Nat) (f : Fld) :
    s.mark pk f = { s.setFld pk f (putBit (s.fld pk f) 0 true) with setNow := (s.mark pk f).setNow } := rfl

theorem fld_mark_of_apart (s : State) (pk : Nat) {f g : Fld} (hf : fits f = true) (hg : fits g = true)
    (h : apart f g = true) : (s.mark pk f).fld pk g = s.fld pk g :=
  fld_setFld_of_apart s pk _ hf hg h

theorem flag_mark_self (s : State) (pk : Nat) {f : Fld} (hf : fits f = true) : (s.mark pk f).flag pk f = true := by
  have hfit := (fits_iff f).mp hf
  have hself : (s.mark pk f).fld pk f = putBit (s.fld pk f) 0 true % 2 ^ (f.hi + 1 - f.lo) := fld_setFld_self s pk _ hf
  have hbit : ((s.mark pk f).fld pk f).testBit 0 = true := by
    rw [hself, Nat.testBit_mod_two_pow, testBit_putBit, if_pos rfl, Bool.and_true]
    exact decide_eq_true (by omega)
  rw [flag_eq, bne_iff_ne]
  intro hzero
  rw [hzero, Nat.zero_testBit] at hbit
  exact Bool.false_ne_true hbit

end Sys2Proof.Proofs
end

section
/-! PROOFS. The timers. Settles O45. -/

namespace Sys2Proof.Proofs

open Sys2Proof Sys2Proof.Machine

/-! ### Timers (R259 to R264) -/

theorem timer_setTimer_self (s : State) (p n : Nat) (v : Timer) : (s.setTimer p n v).timer p n = v :=
  Laws.read_write_self ({} : Timer) s.timers (p * 16 + n) v

theorem timer_setTimer_ne (s : State) {p n q m : Nat} (v : Timer) (h : q * 16 + m ≠ p * 16 + n) :
    (s.setTimer p n v).timer q m = s.timer q m :=
  Laws.read_write_ne ({} : Timer) ({} : Timer) s.timers (p * 16 + n) (q * 16 + m) v h

theorem setTimer_setTimer (s : State) (p n : Nat) (v w : Timer) :
    (s.setTimer p n v).setTimer p n w = s.setTimer p n w :=
  congrArg (fun m => { s with timers := m }) (Laws.write_write ({} : Timer) ({} : Timer) s.timers (p * 16 + n) v w)

theorem fld_setTimer (s : State) (p n : Nat) (v : Timer) (pk : Nat) (f : Fld) :
    (s.setTimer p n v).fld pk f = s.fld pk f := rfl

theorem timer_setFld (s : State) (pk : Nat) (f : Fld) (x p n : Nat) : (s.setFld pk f x).timer p n = s.timer p n := rfl

theorem timer_setReg (s : State) (pk off : Nat) (w : Word) (p n : Nat) :
    (s.setReg pk off w).timer p n = s.timer p n := rfl

theorem timer_mark (s : State) (pk : Nat) (f : Fld) (p n : Nat) : (s.mark pk f).timer p n = s.timer p n := rfl

theorem timer_of_key {p n q m : Nat} (h : p * 16 + n = q * 16 + m) (s : State) : s.timer p n = s.timer q m :=
  congrArg (Store.read ({} : Timer) s.timers) h

theorem fld_tmr_lt (s : State) (pk : Nat) (f : Fld) : s.fld pk f < 2 ^ (f.hi + 1 - f.lo) :=
  Nat.mod_lt _ (Nat.two_pow_pos _)

/-- A timer takes the values of its registers. -/
structure Fresh (s u : State) (p m : Nat) : Prop where
  count : u.fld (tmrPage p m) TMR_COUNT.COUNT = s.fld (tmrPage p m) TMR_RELOAD.VALUE
  cmp : u.fld (tmrPage p m) TMR_CMP_NOW.VALUE = s.fld (tmrPage p m) TMR_CMP.VALUE
  presc : (u.timer p m).presc = s.fld (tmrPage p m) TMR_CFG.PRESC
  oneShot : (u.timer p m).oneShot = s.flag (tmrPage p m) TMR_CFG.ONE_SHOT

theorem fresh_reloadTimer (s : State) (p n : Nat) : Fresh s (s.reloadTimer p n) p n := by
  have hlt (f : Fld) : s.fld (tmrPage p n) f % 2 ^ (f.hi + 1 - f.lo) = s.fld (tmrPage p n) f :=
    Nat.mod_eq_of_lt (fld_tmr_lt ..)
  unfold State.reloadTimer
  dsimp only
  refine ⟨?_, ?_, ?_, ?_⟩
  · rw [fld_setTimer, fld_setFld_of_apart _ _ _ (by decide) (by decide) (by decide), fld_setFld_self _ _ _ (by decide)]
    exact hlt TMR_RELOAD.VALUE
  · rw [fld_setTimer, fld_setFld_self _ _ _ (by decide)]
    exact hlt TMR_CMP.VALUE
  · rw [timer_setTimer_self]
  · rw [timer_setTimer_self]

/-- Fields that a reload does not write. -/
theorem fld_reloadTimer (s : State) (p n : Nat) {f : Fld} (hf : fits f = true)
    (hc : apart TMR_COUNT.COUNT f = true) (hn : apart TMR_CMP_NOW.VALUE f = true) :
    (s.reloadTimer p n).fld (tmrPage p n) f = s.fld (tmrPage p n) f := by
  unfold State.reloadTimer
  dsimp only
  rw [fld_setTimer, fld_setFld_of_apart _ _ _ (by decide) hf hn, fld_setFld_of_apart _ _ _ (by decide) hf hc]

section

variable {s : State} {p : Slice} {n : Fin 16}

theorem fld_timerEvents (s : State) (p n q : Nat) {f : Fld} (hf : fits f = true) (hoff : f.off ≠ 0x020) :
    (s.timerEvents p n).fld q f = s.fld q f := by
  unfold State.timerEvents
  rw [fld_raiseIf _ _ _ _ _ hf hoff, fld_raiseIf _ _ _ _ _ hf hoff]

theorem timerEvents_raises (s : State) (p : Slice) (n : Fin 16) :
    (s.fld (tmrPage p n) TMR_COUNT.COUNT = 0 → Raised (s.timerEvents p n) (tmrPage p n) 0)
    ∧ (s.fld (tmrPage p n) TMR_COUNT.COUNT = s.fld (tmrPage p n) TMR_CMP_NOW.VALUE →
      Raised (s.timerEvents p n) (tmrPage p n) 1) := by
  refine ⟨fun h => ?_, fun h => ?_⟩
  · exact raised_raiseIf_of_raised (raised_raiseIf s (decide_eq_true h) _ (by decide)
      (source_tmr p.isLt n.isLt (by decide))) _ _ _
  · exact raised_raiseIf _ (decide_eq_true h) _ (by decide) (source_tmr p.isLt n.isLt (by decide))

theorem timerEvents_keeps {α : Type} (g : State → α) (s : State) (p n : Nat)
    (hg : ∀ u r n a e v t, g { u with regs := r, setNow := n, evArrived := a, evPend := e, events := v, threads := t }
      = g u) : g (s.timerEvents p n) = g s := by
  unfold State.timerEvents
  rw [raiseIf_keeps g _ _ _ _ hg, raiseIf_keeps g _ _ _ _ hg]

theorem fresh_timerEvents {u : State} (h : Fresh s u p n) : Fresh s (u.timerEvents p n) p n := by
  have htimer : (u.timerEvents p n).timer p n = u.timer p n :=
    timerEvents_keeps (State.timer · p n) u p n fun _ _ _ _ _ _ _ => rfl
  exact ⟨(fld_timerEvents _ _ _ _ (by decide) (by decide)).trans h.count,
    (fld_timerEvents _ _ _ _ (by decide) (by decide)).trans h.cmp, (congrArg Timer.presc htimer).trans h.presc,
    (congrArg Timer.oneShot htimer).trans h.oneShot⟩

theorem tmrStep_stands (h : s.flag (tmrPage p n) TMR_STATUS.RUNNING = false ∨ s.islandRuns p = false) :
    Idles (.tmrStep p n) s := congrArg Host.Outcome.next (if_pos h)

section

variable (hrun : s.flag (tmrPage p n) TMR_STATUS.RUNNING = true) (hisl : s.islandRuns p = true)
include hrun hisl

theorem exec_tmrStep : exec (.tmrStep p n) s = .next (
    if 0 < s.fld (tmrPage p n) TMR_COUNT.COUNT then
      (s.setFld (tmrPage p n) TMR_COUNT.COUNT (s.fld (tmrPage p n) TMR_COUNT.COUNT - 1)).timerEvents p n
    else if (s.timer p n).oneShot then s.setFld (tmrPage p n) TMR_STATUS.RUNNING 0
    else (s.reloadTimer p n).timerEvents p n) := by
  refine congrArg Host.Outcome.next (if_neg ?_)
  rw [hrun, hisl]
  exact fun h => h.elim Bool.false_ne_true.symm Bool.false_ne_true.symm

theorem tmrStep_counts (h : 0 < s.fld (tmrPage p n) TMR_COUNT.COUNT) :
    Gives (.tmrStep p n) s (fun u => u.fld (tmrPage p n) TMR_COUNT.COUNT = s.fld (tmrPage p n) TMR_COUNT.COUNT - 1
      ∧ u.flag (tmrPage p n) TMR_STATUS.RUNNING = true
      ∧ (s.fld (tmrPage p n) TMR_COUNT.COUNT = 1 → Raised u (tmrPage p n) 0)
      ∧ (s.fld (tmrPage p n) TMR_CMP_NOW.VALUE + 1 = s.fld (tmrPage p n) TMR_COUNT.COUNT → Raised u (tmrPage p n) 1)
      ∧ u.mem = s.mem) := by
  refine ⟨_, (exec_tmrStep hrun hisl).trans (congrArg Host.Outcome.next (if_pos h)), ?_⟩
  have hlt : s.fld (tmrPage p n) TMR_COUNT.COUNT < 2 ^ 32 := fld_tmr_lt ..
  have hcount : (s.setFld (tmrPage p n) TMR_COUNT.COUNT (s.fld (tmrPage p n) TMR_COUNT.COUNT - 1)).fld (tmrPage p n)
      TMR_COUNT.COUNT = s.fld (tmrPage p n) TMR_COUNT.COUNT - 1 := by
    rw [fld_setFld_self _ _ _ (by decide)]
    exact Nat.mod_eq_of_lt (by show _ < 2 ^ 32; omega)
  have hother {f : Fld} (hf : fits f = true) (ha : apart TMR_COUNT.COUNT f = true) :
      (s.setFld (tmrPage p n) TMR_COUNT.COUNT (s.fld (tmrPage p n) TMR_COUNT.COUNT - 1)).fld (tmrPage p n) f
        = s.fld (tmrPage p n) f := fld_setFld_of_apart s _ _ (by decide) hf ha
  obtain ⟨hzero, hcmp⟩ := timerEvents_raises
    (s.setFld (tmrPage p n) TMR_COUNT.COUNT (s.fld (tmrPage p n) TMR_COUNT.COUNT - 1)) p n
  rw [hcount] at hzero hcmp
  rw [hother (by decide) (by decide)] at hcmp
  refine ⟨?_, ?_, fun hone => hzero (by omega), fun heq => hcmp (by omega), ?_⟩
  · rw [fld_timerEvents _ _ _ _ (by decide) (by decide)]
    exact hcount
  · rw [flag_eq, fld_timerEvents _ _ _ _ (by decide) (by decide), hother (by decide) (by decide)]
    exact hrun
  · exact timerEvents_keeps State.mem _ p n fun _ _ _ _ _ _ _ => rfl

theorem tmrStep_ends (h : s.fld (tmrPage p n) TMR_COUNT.COUNT = 0) (hone : (s.timer p n).oneShot = true) :
    exec (.tmrStep p n) s = .next (s.setFld (tmrPage p n) TMR_STATUS.RUNNING 0) := by
  rw [exec_tmrStep hrun hisl, if_neg (by omega), if_pos hone]

theorem tmrStep_reloads (h : s.fld (tmrPage p n) TMR_COUNT.COUNT = 0) (hone : (s.timer p n).oneShot = false) :
    Gives (.tmrStep p n) s (fun u => Fresh s u p n ∧ u.flag (tmrPage p n) TMR_STATUS.RUNNING = true
      ∧ (s.fld (tmrPage p n) TMR_RELOAD.VALUE = 0 → Raised u (tmrPage p n) 0)
      ∧ (s.fld (tmrPage p n) TMR_RELOAD.VALUE = s.fld (tmrPage p n) TMR_CMP.VALUE → Raised u (tmrPage p n) 1)) := by
  have hexec : exec (.tmrStep p n) s = .next ((s.reloadTimer p n).timerEvents p n) := by
    rw [exec_tmrStep hrun hisl, if_neg (by omega), hone, if_neg Bool.false_ne_true]
  have hfresh := fresh_reloadTimer s p n
  obtain ⟨hzero, hcmp⟩ := timerEvents_raises (s.reloadTimer p n) p n
  rw [hfresh.count] at hzero hcmp
  rw [hfresh.cmp] at hcmp
  refine ⟨_, hexec, fresh_timerEvents hfresh, ?_, hzero, hcmp⟩
  rw [flag_eq, fld_timerEvents _ _ _ _ (by decide) (by decide), fld_reloadTimer s p n (by decide) (by decide) (by decide)]
  exact hrun

end

/-! ### Starts and stops -/

theorem startTimer_spec (s : State) (p n : Nat) :
    Fresh s (s.startTimer p n) p n ∧ (s.startTimer p n).flag (tmrPage p n) TMR_STATUS.RUNNING = true
    ∧ ((s.startTimer p n).timer p n).startAt = some s.ticks := by
  have hfresh := fresh_reloadTimer s p n
  have hfld {f : Fld} (hf : fits f = true) (ha : apart TMR_STATUS.RUNNING f = true) :
      (s.startTimer p n).fld (tmrPage p n) f = (s.reloadTimer p n).fld (tmrPage p n) f := by
    unfold State.startTimer
    dsimp only
    rw [fld_setTimer, fld_setFld_of_apart _ _ _ (by decide) hf ha]
  have htimer : (s.startTimer p n).timer p n = { (s.reloadTimer p n).timer p n with startAt := some s.ticks } := by
    unfold State.startTimer
    dsimp only
    rw [timer_setTimer_self, timer_setFld]
  refine ⟨⟨(hfld (by decide) (by decide)).trans hfresh.count, (hfld (by decide) (by decide)).trans hfresh.cmp, ?_, ?_⟩,
    ?_, ?_⟩
  · rw [htimer]
    exact hfresh.presc
  · rw [htimer]
    exact hfresh.oneShot
  · have hrun : (s.startTimer p n).fld (tmrPage p n) TMR_STATUS.RUNNING = 1 := by
      unfold State.startTimer
      dsimp only
      rw [fld_setTimer, fld_setFld_self _ _ _ (by decide)]
      rfl
    rw [flag_eq, hrun]
    rfl
  · rw [htimer]

/-- What does not change of another timer as one is started or stopped. -/
structure TimerStands (s u : State) (p m : Nat) : Prop where
  timer : u.timer p m = s.timer p m
  regs : ∀ off < 4096, u.reg (tmrPage p m) off = s.reg (tmrPage p m) off

theorem TimerStands.fld {s u : State} {p m : Nat} (h : TimerStands s u p m) {f : Fld} (hf : fits f = true) :
    u.fld (tmrPage p m) f = s.fld (tmrPage p m) f :=
  fld_of_reg (h.regs f.off ((fits_iff f).mp hf).2.2)

theorem TimerStands.trans {s u v : State} {p m : Nat} (h : TimerStands s u p m) (h' : TimerStands u v p m) :
    TimerStands s v p m :=
  ⟨h'.timer.trans h.timer, fun off ho => (h'.regs off ho).trans (h.regs off ho)⟩

theorem tmrPage_inj {p q m n : Nat} (hm : m < 16) (hn : n < 16) : tmrPage p m = tmrPage q n ↔ p = q ∧ m = n := by
  unfold tmrPage
  rw [panelPage_inj (by omega) (by omega)]
  omega

theorem tmrPage_ne {p n m : Nat} (hn : n < 16) (hm : m < 16) (h : m ≠ n) : tmrPage p m ≠ tmrPage p n :=
  fun he => h ((tmrPage_inj hm hn).mp he).2

theorem timerStands_setFld (s : State) {p n m : Nat} (hn : n < 16) (hm : m < 16) (h : m ≠ n) {f : Fld} (v : Nat)
    (hf : fits f = true) : TimerStands s (s.setFld (tmrPage p n) f v) p m :=
  ⟨rfl, fun _ ho => reg_setFld_ne s f v ho ((fits_iff f).mp hf).2.2
    fun he => tmrPage_ne hn hm h (Prod.mk.inj he).1⟩

theorem timerStands_setTimer (s : State) {p n m : Nat} (h : m ≠ n) (v : Timer) :
    TimerStands s (s.setTimer p n v) p m :=
  ⟨timer_setTimer_ne s v (by omega), fun _ _ => rfl⟩

theorem timerStands_startTimer (s : State) {p n m : Nat} (hn : n < 16) (hm : m < 16) (h : m ≠ n) :
    TimerStands s (s.startTimer p n) p m :=
  ((((timerStands_setFld s hn hm h _ (by decide)).trans (timerStands_setFld _ hn hm h _ (by decide))).trans
    (timerStands_setTimer _ h _)).trans (timerStands_setFld _ hn hm h _ (by decide))).trans
    (timerStands_setTimer _ h _)

theorem timerStands_stopTimer (s : State) {p n m : Nat} (hn : n < 16) (hm : m < 16) (h : m ≠ n) :
    TimerStands s (s.stopTimer p n) p m := by
  unfold State.stopTimer
  split
  · exact ⟨rfl, fun _ _ => rfl⟩
  · exact timerStands_setFld s hn hm h _ (by decide)

/-- The timers of a mask, started one by one: those of the list are fresh, and the others stand. -/
theorem startTimers_spec (p : Slice) (l : List Nat) {s u : State}
    (hu : l.foldl (fun u n => u.startTimer p n) s = u) (hnd : l.Nodup) (hlt : ∀ n ∈ l, n < 16) {m : Nat} (hm : m < 16) :
    (m ∈ l → Fresh s u p m ∧ u.flag (tmrPage p m) TMR_STATUS.RUNNING = true)
    ∧ (m ∉ l → TimerStands s u p m) := by
  induction l generalizing s with
  | nil =>
    cases hu
    exact ⟨fun h => absurd h List.not_mem_nil, fun _ => ⟨rfl, fun _ _ => rfl⟩⟩
  | cons n l ih =>
    rw [List.foldl_cons] at hu
    obtain ⟨hnl, hnd'⟩ := List.nodup_cons.mp hnd
    have hn : n < 16 := hlt n List.mem_cons_self
    obtain ⟨hin, hout⟩ := ih hu hnd' (fun k hk => hlt k (List.mem_cons_of_mem _ hk))
    by_cases hmn : m = n
    · subst hmn
      obtain ⟨hfresh, hrun, -⟩ := startTimer_spec s p m
      have hst := hout hnl
      refine ⟨fun _ => ⟨⟨?_, ?_, ?_, ?_⟩, ?_⟩, fun h => absurd List.mem_cons_self h⟩
      · exact (hst.fld (by decide)).trans hfresh.count
      · exact (hst.fld (by decide)).trans hfresh.cmp
      · exact (congrArg Timer.presc hst.timer).trans hfresh.presc
      · exact (congrArg Timer.oneShot hst.timer).trans hfresh.oneShot
      · rw [flag_eq, hst.fld (by decide)]
        exact hrun
    · have hst := timerStands_startTimer s (p := p) hn hm hmn
      refine ⟨fun h => ?_, fun h => hst.trans (hout fun hl => h (List.mem_cons_of_mem _ hl))⟩
      obtain ⟨hfresh, hrun⟩ := hin ((List.mem_cons.mp h).resolve_left hmn)
      exact ⟨⟨hfresh.count.trans (hst.fld (by decide)), hfresh.cmp.trans (hst.fld (by decide)),
        hfresh.presc.trans (hst.fld (by decide)), hfresh.oneShot.trans (by rw [flag_eq, hst.fld (by decide)]; rfl)⟩, hrun⟩

/-- What a stop leaves of its timer. -/
theorem stopTimer_running (s : State) (p n : Nat) :
    (s.stopTimer p n).flag (tmrPage p n) TMR_STATUS.RUNNING
      = (s.flag (tmrPage p n) TMR_STATUS.RUNNING && decide ((s.timer p n).startAt = some s.ticks)) := by
  unfold State.stopTimer
  split
  · next h => rw [decide_eq_true h, Bool.and_true]
  · next h =>
    rw [decide_eq_false h, Bool.and_false, flag_eq, fld_setFld_self _ _ _ (by decide)]
    rfl

theorem stopTimer_ticks (s : State) (p n : Nat) : (s.stopTimer p n).ticks = s.ticks := by
  unfold State.stopTimer
  split <;> rfl

theorem haltTimers_spec (p : Slice) (l : List Nat) {s u : State}
    (hu : l.foldl (fun u n => u.stopTimer p n) s = u) (hnd : l.Nodup) (hlt : ∀ n ∈ l, n < 16) {m : Nat} (hm : m < 16) :
    u.flag (tmrPage p m) TMR_STATUS.RUNNING = (s.flag (tmrPage p m) TMR_STATUS.RUNNING
        && (!decide (m ∈ l) || decide ((s.timer p m).startAt = some s.ticks)))
    ∧ (m ∉ l → TimerStands s u p m) := by
  induction l generalizing s with
  | nil =>
    cases hu
    exact ⟨by simp, fun _ => ⟨rfl, fun _ _ => rfl⟩⟩
  | cons n l ih =>
    rw [List.foldl_cons] at hu
    obtain ⟨hnl, hnd'⟩ := List.nodup_cons.mp hnd
    have hn : n < 16 := hlt n List.mem_cons_self
    obtain ⟨hrun, hout⟩ := ih hu hnd' (fun k hk => hlt k (List.mem_cons_of_mem _ hk))
    by_cases hmn : m = n
    · subst hmn
      refine ⟨?_, fun h => absurd List.mem_cons_self h⟩
      rw [flag_eq, (hout hnl).fld (by decide), ← flag_eq, stopTimer_running]
      simp
    · have hst := timerStands_stopTimer s (p := p) hn hm hmn
      refine ⟨?_, fun h => hst.trans (hout fun hl => h (List.mem_cons_of_mem _ hl))⟩
      rw [hrun, flag_eq, hst.fld (by decide), hst.timer, stopTimer_ticks]
      simp [hmn, flag_eq]

theorem mem_maskThreads {m : BitVec 16} (i : Nat) : i ∈ maskThreads m.toNat ↔ i < 16 ∧ m.getLsbD i = true := by
  unfold maskThreads bit
  rw [List.mem_filter, List.mem_range]
  rfl

theorem nodup_maskThreads (m : Nat) : (maskThreads m).Nodup := List.nodup_range.filter _

end

/-- A write that acts at its page, as an act on the state. -/
theorem acceptsTo_of_writeBy {c : Instr} {s : State} {ag : Agent} {pk off : Nat} {act : State → State}
    {post : State → Prop} (h : exec c s = .next (s.writeBy ag pk off act)) (hpost : post (act s)) :
    AcceptsTo c s ag pk off post :=
  fun hv => ⟨act s, h.trans (congrArg Host.Outcome.next (writeBy_accept hv act)), hpost⟩

theorem accepts_of_writeBy {c : Instr} {s t : State} {ag : Agent} {pk off : Nat} {act : State → State}
    (h : exec c s = .next (s.writeBy ag pk off act)) (ht : act s = t) : Accepts c s ag pk off t :=
  fun hv => h.trans (congrArg Host.Outcome.next ((writeBy_accept hv act).trans (by rw [ht])))

/-! ### Capture (R262, R263) -/

theorem filtered_iff (s : State) (p n since : Nat) :
    s.filtered p n since = true ↔ s.fld (tmrPage p n) TMR_CFG.FILT = 0
      ∨ since + 2 ^ s.fld (tmrPage p n) TMR_CFG.FILT ≤ s.ticks := by
  unfold State.filtered
  rw [Bool.or_eq_true, decide_eq_true_eq, decide_eq_true_eq]

theorem bits_halves_high {c : Nat} (h : c < 2 ^ 32) (e : Nat) :
    bits (BitVec.ofNat 64 (c * 2 ^ 32 + e % 2 ^ 32)) 63 32 = c := by
  unfold bits
  rw [BitVec.toNat_ofNat, Nat.shiftRight_eq_div_pow]
  omega

theorem bits_halves_low (c e : Nat) :
    bits (BitVec.ofNat 64 (c * 2 ^ 32 + e % 2 ^ 32)) 31 0 = e % 2 ^ 32 := by
  unfold bits
  rw [BitVec.toNat_ofNat, Nat.shiftRight_zero]
  omega

section

variable (s : State) (p : Slice) (n : Fin 16) (edge : Nat)

/-- The word of `TMR_CAP` after a capture. -/
theorem reg_takeCapture : (s.takeCapture p n edge).reg (tmrPage p n) 0x128
    = BitVec.ofNat 64 (s.fld (tmrPage p n) TMR_COUNT.COUNT * 2 ^ 32 + edge % 2 ^ 32) := by
  unfold State.takeCapture
  dsimp only
  rw [reg_raise_ne _ (by decide) (fun h => absurd (Prod.mk.inj h).2 (by decide)),
    reg_setFld_ne _ _ _ (by decide) (by decide) (fun h => absurd (Prod.mk.inj h).2 (by decide)), reg_setReg_self]

theorem fld_takeCapture_count :
    (s.takeCapture p n edge).fld (tmrPage p n) TMR_CAP.COUNT = s.fld (tmrPage p n) TMR_COUNT.COUNT := by
  have hlt : s.fld (tmrPage p n) TMR_COUNT.COUNT < 2 ^ 32 := fld_tmr_lt ..
  have hreg := reg_takeCapture s p n edge
  generalize s.fld (tmrPage p n) TMR_COUNT.COUNT = c at *
  generalize s.takeCapture p n edge = u at *
  unfold State.fld
  rw [show TMR_CAP.COUNT.off = 0x128 from rfl, hreg]
  exact bits_halves_high hlt edge

theorem fld_takeCapture_tick : (s.takeCapture p n edge).fld (tmrPage p n) TMR_CAP.TICK = edge % 2 ^ 32 := by
  have hreg := reg_takeCapture s p n edge
  generalize s.fld (tmrPage p n) TMR_COUNT.COUNT = c at *
  generalize s.takeCapture p n edge = u at *
  unfold State.fld
  rw [show TMR_CAP.TICK.off = 0x128 from rfl, hreg]
  exact bits_halves_low c edge

theorem timer_takeCapture : (s.takeCapture p n edge).timer p n = { s.timer p n with
    took := some s.ticks
    overran := s.flag (tmrPage p n) TMR_STATUS.CAPTURED } := by
  unfold State.takeCapture
  dsimp only
  rw [raise_keeps (State.timer · p n) _ _ _ fun _ _ _ _ _ _ _ => rfl, timer_setFld, timer_setReg,
    timer_setTimer_self]

theorem captured_takeCapture : (s.takeCapture p n edge).flag (tmrPage p n) TMR_STATUS.CAPTURED = true := by
  unfold State.takeCapture
  dsimp only
  rw [flag_eq, fld_raise _ _ _ _ (by decide) (by decide), fld_setFld_self _ _ _ (by decide)]
  rfl

theorem raised_takeCapture : Raised (s.takeCapture p n edge) (tmrPage p n) 2 := by
  unfold State.takeCapture
  exact raised_raise _ _ (by decide) (source_tmr p.isLt n.isLt (by decide))

end

theorem raised_mark (s : State) (q : Nat) {f : Fld} (pk b : Nat) (hf : fits f = true) (hoff : f.off ≠ 0x020) :
    Raised (s.mark q f) pk b ↔ Raised s pk b := raised_setFld s q _ pk b hf hoff

theorem flag_mark_of_flag {s : State} {pk : Nat} {f : Fld} (h : s.flag pk f = true) (q : Nat) (hf : fits f = true) :
    (s.mark q f).flag pk f = true := by
  by_cases hq : pk = q
  · rw [hq]
    exact flag_mark_self s q hf
  · rw [flag_eq, show (s.mark q f).fld pk f = s.fld pk f from fld_setFld_of_page s _ hf hf hq]
    exact h

/-- What an overrun that is noted leaves: nothing takes it back. -/
structure Overrun (u : State) (p n : Nat) : Prop where
  flag : u.flag (tmrPage p n) TMR_STATUS.OVERRUN = true
  raised : Raised u (tmrPage p n) 3
  seen : (u.timer p n).overran = false

theorem overrun_noteOverrun_self (s : State) (p : Slice) (n : Fin 16) : Overrun (s.noteOverrun p n) p n := by
  unfold State.noteOverrun
  refine ⟨?_, raised_raise _ _ (by decide) (source_tmr p.isLt n.isLt (by decide)), ?_⟩
  · rw [flag_eq, fld_raise _ _ _ _ (by decide) (by decide), ← flag_eq]
    exact flag_mark_self _ _ (by decide)
  · rw [raise_keeps (State.timer · p n) _ _ _ fun _ _ _ _ _ _ _ => rfl, timer_mark,
      timer_setTimer_self]

theorem overrun_noteOverrun_of_overrun {u : State} {p n : Nat} (h : Overrun u p n) (q m : Nat) :
    Overrun (u.noteOverrun q m) p n := by
  unfold State.noteOverrun
  refine ⟨?_, raised_raise_of_raised ?_ _ _, ?_⟩
  · rw [flag_eq, fld_raise _ _ _ _ (by decide) (by decide), ← flag_eq]
    exact flag_mark_of_flag h.flag _ (by decide)
  · rw [raised_mark _ _ _ _ (by decide) (by decide)]
    exact h.raised
  · rw [raise_keeps (State.timer · p n) _ _ _ fun _ _ _ _ _ _ _ => rfl, timer_mark]
    by_cases hkey : p * 16 + n = q * 16 + m
    · rw [timer_of_key hkey, timer_setTimer_self]
    · rw [timer_setTimer_ne _ _ hkey]
      exact h.seen

/-- A fold that reaches a property at one of its entries and keeps it. -/
theorem foldl_reaches {α : Type} {f : State → α → State} {P : State → Prop} (hkeep : ∀ u x, P u → P (f u x)) {l : List α}
    (h : ∃ x ∈ l, ∀ u, P (f u x)) (s : State) : P (l.foldl f s) := by
  have hstay (l : List α) : ∀ u, P u → P (l.foldl f u) := by
    induction l with
    | nil => exact fun _ hu => hu
    | cons x l ih => exact fun u hu => ih _ (hkeep u x hu)
  obtain ⟨x, hx, hreach⟩ := h
  obtain ⟨before, after, rfl⟩ := List.append_of_mem hx
  rw [List.foldl_append, List.foldl_cons]
  exact hstay after _ (hreach _)

/-- What a store does not give by default stands in it. -/
theorem mem_of_read_ne {α : Type} {d : α} {m : Store α} {k : Nat} (h : Store.read d m k ≠ d) :
    (k, Store.read d m k) ∈ m := by
  induction m with
  | nil => exact absurd rfl h
  | cons e m ih =>
    obtain ⟨j, v⟩ := e
    unfold Store.read at h ⊢
    split
    · next hj =>
      subst hj
      exact List.mem_cons_self
    · next hj =>
      rw [if_neg hj] at h
      exact List.mem_cons_of_mem _ (ih h)

theorem tickOverruns_notes {s : State} {p : Slice} {n : Fin 16} (h : (s.timer p n).overran = true) :
    Overrun s.tickOverruns p n := by
  unfold State.tickOverruns
  have hmem : (p.val * 16 + n.val, s.timer p n) ∈ s.timers :=
    mem_of_read_ne fun he => by
      have hd : (s.timer p n).overran = ({} : Timer).overran := congrArg Timer.overran he
      rw [h] at hd
      exact Bool.false_ne_true hd.symm
  refine foldl_reaches (P := fun u => Overrun u p n) (fun u x hu => ?_) ⟨_, hmem, fun u => ?_⟩ s
  · split
    · exact overrun_noteOverrun_of_overrun hu ..
    · exact hu
  · rw [if_pos h, show (p.val * 16 + n.val) / 16 = p.val by omega, show (p.val * 16 + n.val) % 16 = n.val by omega]
    exact overrun_noteOverrun_self u p n

section

variable {s : State} {p : Slice} {n : Fin 16} {rise : Bool}

/-- The edges that `CAP_EDGE` chooses. -/
def chosenEdge (s : State) (p : Slice) (n : Fin 16) (rise : Bool) : Prop :=
  s.fld (tmrPage p n) TMR_CFG.CAP_EDGE = 3 ∨ (s.fld (tmrPage p n) TMR_CFG.CAP_EDGE = 1 ∧ rise = true)
    ∨ (s.fld (tmrPage p n) TMR_CFG.CAP_EDGE = 2 ∧ rise = false)

/-- A level that the device gives, and that differs from the accepted one. -/
theorem sampleCapture_differs (hlevel : s.captureLevel p n = some rise) (hold : (s.timer p n).level = some (!rise)) :
    s.sampleCapture p n = if s.filtered p n ((s.timer p n).since.getD s.ticks) then s.acceptEdge p n rise
      else s.setTimer p n { s.timer p n with since := some ((s.timer p n).since.getD s.ticks) } := by
  unfold State.sampleCapture
  rw [hlevel]
  dsimp only
  rw [hold, if_neg (by cases rise <;> decide), if_neg (fun h => Option.some_ne_none _ h)]

theorem captureEdge_taken (hp : s.present p = true) (hw : (s.timer p n).watch = true) (hl : s.captureLevel p n = none)
    (hne : (s.timer p n).level ≠ some rise) (hf : s.filtered p n (s.timer p n).accepted = true) :
    exec (.captureEdge p n rise) s = .next (s.acceptEdge p n rise) := by
  refine congrArg Host.Outcome.next (if_neg ?_)
  rw [hp, hw, hl, hf]
  simp [hne]

theorem captureEdge_stands (h : ¬ (s.present p = true ∧ (s.timer p n).watch = true ∧ s.captureLevel p n = none
    ∧ (s.timer p n).level ≠ some rise ∧ s.filtered p n (s.timer p n).accepted = true)) :
    Idles (.captureEdge p n rise) s := by
  refine congrArg Host.Outcome.next (if_pos ?_)
  by_contra hc
  simp only [not_or, Bool.not_eq_false, not_not] at hc
  exact h hc

theorem timerCapture_rest {at_ edge : Nat} {rest : List (Nat × Nat)} (hcap : (s.timer p n).captures = (at_, edge) :: rest)
    (hdue : at_ + 10 ≤ s.ticks) (hisl : s.islandRuns p = false) :
    exec (.timerCapture p n) s = .next (s.setTimer p n { s.timer p n with
      captures := rest
      edges := if at_ < (s.timer p n).chosen then (s.timer p n).edges else s.fld (tmrPage p n) TMR_CFG.CAP_DIV }) := by
  refine congrArg Host.Outcome.next ?_
  rw [hcap]
  dsimp only
  rw [if_neg (by omega), if_pos hisl]
  unfold State.uncountEdge
  dsimp only
  rw [timer_setTimer_self, fld_setTimer, setTimer_setTimer]
  split <;> rfl

theorem timerCapture_takes {at_ edge : Nat} {rest : List (Nat × Nat)} (hcap : (s.timer p n).captures = (at_, edge) :: rest)
    (hdue : at_ + 10 ≤ s.ticks) (hisl : s.islandRuns p = true) :
    Gives (.timerCapture p n) s (fun u => (u.timer p n).captures = rest
      ∧ u.fld (tmrPage p n) TMR_CAP.COUNT = s.fld (tmrPage p n) TMR_COUNT.COUNT
      ∧ u.fld (tmrPage p n) TMR_CAP.TICK = edge % 2 ^ 32
      ∧ u.flag (tmrPage p n) TMR_STATUS.CAPTURED = true ∧ Raised u (tmrPage p n) 2
      ∧ (u.timer p n).took = some s.ticks
      ∧ (u.timer p n).overran = s.flag (tmrPage p n) TMR_STATUS.CAPTURED) := by
  have hexec : exec (.timerCapture p n) s
      = .next ((s.setTimer p n { s.timer p n with captures := rest }).takeCapture p n edge) := by
    refine congrArg Host.Outcome.next ?_
    rw [hcap]
    dsimp only
    rw [if_neg (by omega), if_neg (fun h => Bool.false_ne_true (h.symm.trans hisl))]
  have htimer := timer_takeCapture (s.setTimer p n { s.timer p n with captures := rest }) p n edge
  rw [timer_setTimer_self] at htimer
  refine ⟨_, hexec, ?_, fld_takeCapture_count .., fld_takeCapture_tick .., captured_takeCapture .., raised_takeCapture ..,
    ?_, ?_⟩
  · rw [htimer]
  · rw [htimer]
    rfl
  · rw [htimer]
    rfl

end

/-- Settles O45. -/
theorem timersCountDown : Obligations.TimersCountDown := by
  unfold Obligations.TimersCountDown
  intro s ag p n
  dsimp only
  refine ⟨tmrStep_stands, fun hrun hisl => ⟨tmrStep_counts hrun hisl, tmrStep_ends hrun hisl, fun h0 hone => ?_⟩, ?_, ?_,
    fun m => ⟨?_, ?_⟩, fun rise => ⟨fun h => ?_, fun h => ?_, fun hlevel hold => ⟨fun hlong => ?_, fun hlong => ?_⟩,
    fun hlevel => ?_⟩, fun hcap => ?_, fun at_ edge rest hcap => ⟨fun hdue => ?_, timerCapture_rest hcap,
    timerCapture_takes hcap⟩, fun hover => ?_, fun hag hp => ?_, fun hag => ?_, fun ratio => ⟨fun h => ?_, fun h => ?_⟩⟩
  · obtain ⟨u, hexec, ⟨hc, hn, hp, ho⟩, hrest⟩ := tmrStep_reloads hrun hisl h0 hone
    exact ⟨u, hexec, ⟨hc, hn, hp, ho⟩, hrest⟩
  · obtain ⟨⟨hc, hn, hp, ho⟩, hrun, hstart⟩ := startTimer_spec s p n
    exact acceptsTo_of_writeBy rfl ⟨⟨hc, hn, hp, ho⟩, hrun, hstart⟩
  · exact accepts_of_writeBy rfl rfl
  · refine acceptsTo_of_writeBy rfl fun i => ?_
    have hspec := startTimers_spec p (maskThreads m.toNat) (s := s) rfl (nodup_maskThreads _)
      (fun k hk => ((mem_maskThreads k).mp hk).1) i.isLt
    rw [mem_maskThreads] at hspec
    obtain ⟨hin, hout⟩ := hspec
    refine ⟨fun hi => ?_, fun hi => ?_⟩
    · obtain ⟨⟨hc, hn, hp, ho⟩, hrun⟩ := hin ⟨i.isLt, hi⟩
      exact ⟨⟨hc, hn, hp, ho⟩, hrun⟩
    · obtain ⟨htimer, hregs⟩ := hout fun h => Bool.false_ne_true (hi.symm.trans h.2)
      exact ⟨htimer, hregs⟩
  · refine acceptsTo_of_writeBy rfl fun i => ?_
    have hspec := (haltTimers_spec p (maskThreads m.toNat) (s := s) rfl (nodup_maskThreads _)
      (fun k hk => ((mem_maskThreads k).mp hk).1) i.isLt).1
    rw [show decide (i.val ∈ maskThreads m.toNat) = m.getLsbD i by
      rw [Bool.eq_iff_iff, decide_eq_true_eq, mem_maskThreads]
      exact and_iff_right i.isLt] at hspec
    exact hspec
  · refine captureEdge_stands ?_
    rw [filtered_iff]
    exact h
  · obtain ⟨hp, hw, hl, hne, hlong⟩ := h
    exact captureEdge_taken hp hw hl hne ((filtered_iff ..).mpr hlong)
  · rw [sampleCapture_differs hlevel hold, if_pos ((filtered_iff ..).mpr hlong)]
    rfl
  · rw [sampleCapture_differs hlevel hold, if_neg (fun h => hlong ((filtered_iff ..).mp h))]
  · unfold State.sampleCapture
    rw [hlevel]
  · refine congrArg Host.Outcome.next ?_
    rw [hcap]
  · refine congrArg Host.Outcome.next ?_
    rw [hcap]
    exact if_pos hdue
  · obtain ⟨hflag, hraised, hseen⟩ := tickOverruns_notes hover
    exact ⟨hflag, hraised, hseen⟩
  · refine congrArg Host.Outcome.next (if_pos ⟨?_, hp⟩)
    exact decide_eq_true hag
  · refine congrArg Host.Outcome.next (if_neg fun h => hag ?_)
    exact of_decide_eq_true h.1
  · exact congrArg Host.Outcome.next (if_pos h)
  · exact congrArg Host.Outcome.next (if_neg fun he => Bool.false_ne_true (h.symm.trans he))

end Sys2Proof.Proofs
end

section
/-! PROOFS. Divider restarts of the stencil engines. Refutes O46. -/

namespace Sys2Proof.Proofs

open Sys2Proof Sys2Proof.Machine

/-! ### Divider restarts of engines that enter a row (R274) -/

/-- At tick 0 engine 0 of sector 0 runs and has entered its row at this very tick. -/
def enteringRow : State :=
  (State.reset.setFld (modePage 0) MODE_STATE.MODE RUN).setStencil 0 0 { running := true, entry := 0 }

/-- A row entered at this tick has had this tick's edge: the divider's next edge lies a clock later. -/
theorem next_restartDivider_of_entry {s : State} {sec e : Nat} (hrun : (s.stencil sec e).running = true)
    (hentry : (s.stencil sec e).entry = s.ticks) :
    ((s.restartDivider sec e).stencil sec e).next = s.ticks + s.engineClock sec e := by
  unfold State.restartDivider
  dsimp only
  rw [if_pos ⟨hrun, hentry⟩]
  exact congrArg Stencil.next (Laws.read_write_self ({} : Stencil) s.stencils (sec * 8 + e) _)

theorem live_enteringRow : enteringRow.present 0 = true ∧ enteringRow.mode 0 ≠ PRIME := by decide

theorem group_enteringRow : enteringRow.group 0 1 = [0] := by decide

theorem exec_stenGclk_enteringRow : exec (.stenGclk 0 1) enteringRow = .next (enteringRow.restartDivider 0 0) := by
  have hlive : enteringRow.stenLive 0 = true :=
    Bool.and_eq_true_iff.mpr ⟨live_enteringRow.1, decide_eq_true live_enteringRow.2⟩
  have hask : enteringRow.askClock 0 0 = enteringRow.restartDivider 0 0 := by
    unfold State.askClock
    rw [if_neg (fun h => Bool.false_ne_true (h.symm.trans hlive))]
    exact if_pos rfl
  refine congrArg Host.Outcome.next ?_
  unfold State.groupClock
  rw [show ((0 : Slice) : Nat) = 0 from rfl, show (1 : Byte).toNat = 1 from rfl, group_enteringRow]
  exact hask

/-- Refutes O46: `STEN_GCLK` at the tick at which a running engine has entered a row leaves the engine's next edge a clock
later, not at this tick. -/
theorem not_enginesRunTheirRows : ¬ Obligations.EnginesRunTheirRows := by
  unfold Obligations.EnginesRunTheirRows
  intro h
  obtain ⟨-, -, -, -, -, hgroup, -⟩ := h enteringRow .easel 0 0
  obtain ⟨-, -, u, hexec, -, hengines⟩ := hgroup 1 live_enteringRow
  obtain ⟨hnext, -, -⟩ := hengines 0
  have hu : enteringRow.restartDivider 0 0 = u := Host.Outcome.next.inj (exec_stenGclk_enteringRow.symm.trans hexec)
  have hclock : ((enteringRow.restartDivider 0 0).stencil 0 0).next = 0 + enteringRow.engineClock 0 0 :=
    next_restartDivider_of_entry rfl rfl
  have hzero : (u.stencil 0 0).next = 0 := hnext ⟨rfl, by decide⟩ rfl
  rw [← hu, hclock] at hzero
  unfold State.engineClock at hzero
  omega

end Sys2Proof.Proofs
end

section
/-! PROOFS. A dropped claim and a lost tag each wake a waiting thread. Refutes O49 and O52. -/

namespace Sys2Proof.Proofs

open Sys2Proof Sys2Proof.Machine

/-! ### A claim that a thread's reset drops wakes another thread (R208, R332) -/

/-- Thread 0 of panel 0 has claimed source 5, which has come again and is routed to thread 1, parked in `WFE`. -/
def claimedAgain : State :=
  { ((State.reset.setReg (evcPage 0 0) 0x410 0x0000022100000000).setCore 0 0
      { prio := [{ thread := 0, value := 5, prio := 1 }] }).setThread 0 1 { park := some .wfe } with
    evPend := [(evKey 0 0 5, true)]
    evServ := [(evKey 0 0 5, true)] }

theorem verdict_claimedAgain : claimedAgain.verdict .easel (modePage 0) 0x128 = .accept := by decide

theorem stopThreads_claimedAgain : claimedAgain.stopThreads 0 1 = claimedAgain.resetThread 0 0 := by
  unfold State.stopThreads
  rw [if_pos (by decide), show maskThreads 1 = [0] by decide]
  rfl

/-- The state in which a reset of a thread has dropped the one claim of its core (R332). -/
def releasedFrom (s : State) (p t : Nat) (x : Claim) : State :=
  ((s.setCore p (t / 4) { s.core p (t / 4) with prio := [] }).unfill p (t / 4)).leaveService p x.value

theorem resetThread_of_claim {s : State} {p t : Nat} {x : Claim} (hprio : (s.core p (t / 4)).prio = [x])
    (hx : x.thread = t) (hstalls : (s.journal p).stalls = []) :
    ∃ ps th, s.resetThread p t = State.wakeWaiter
      (State.setThread { releasedFrom s p t x with panels := ps } p t th) p (x.value / 1024) (x.value % 1024) := by
  unfold State.resetThread
  simp only [hprio, List.filter_cons, hx, ne_eq, not_true_eq_false, decide_false, decide_true, if_true,
    List.filter_nil, List.foldl_cons, List.foldl_nil, Bool.false_eq_true, if_false]
  change ∃ ps th, State.resample
    (State.unstall (State.setThread (State.setPanel (releasedFrom s p t x) _ _) _ _ _) _ _) _ _ = _
  unfold State.resample State.unstall
  rw [if_pos]
  · exact ⟨_, _, rfl⟩
  · unfold releasedFrom
    rw [unfill_frame, leaveService_frame]
    show List.all (s.journal p).stalls _ = true
    rw [hstalls]
    rfl

theorem park_wakeWaiter {s : State} {p table src i : Nat} (hpend : s.srcPending p table src = true)
    (hserv : s.inService p table src = false) (hthread : s.srcThread p table src = i)
    (hpark : (s.thread p i).park = some .wfe) : ((s.wakeWaiter p table src).thread p i).park = none := by
  unfold State.wakeWaiter State.endWait
  rw [if_pos ⟨hpend, hserv⟩, hthread, if_pos hpark, thread_setThread_of_key, if_pos rfl]

theorem park_claimedAgain : ((claimedAgain.resetThread 0 0).thread 0 1).park = none := by
  obtain ⟨ps, th, h⟩ := resetThread_of_claim (s := claimedAgain) (p := 0) (t := 0) rfl rfl rfl
  have hpend : (releasedFrom claimedAgain 0 0 ⟨0, 5, 1⟩).srcPending 0 0 5 = true := by decide
  have hserv : (releasedFrom claimedAgain 0 0 ⟨0, 5, 1⟩).inService 0 0 5 = false := by decide
  have hthread : (releasedFrom claimedAgain 0 0 ⟨0, 5, 1⟩).srcThread 0 0 5 = 1 := by decide
  have hpark : ((releasedFrom claimedAgain 0 0 ⟨0, 5, 1⟩).thread 0 1).park = some .wfe := by decide
  rw [h]
  refine park_wakeWaiter hpend hserv hthread ?_
  rw [thread_setThread_of_key, if_neg (by decide)]
  exact hpark

/-- Refutes O52: a thread that the mask leaves out leaves its wait for an event where a source that a stopped thread had
claimed has come again and is routed to it. -/
theorem not_threadsStartFromTheirRecords : ¬ Obligations.ThreadsStartFromTheirRecords := by
  unfold Obligations.ThreadsStartFromTheirRecords
  intro h
  obtain ⟨hmask, -⟩ := h claimedAgain .easel 0
  obtain ⟨-, hable⟩ := hmask 1
  obtain ⟨hstop, -⟩ := hable (by decide)
  obtain ⟨u, hexec, hu⟩ := hstop verdict_claimedAgain
  obtain ⟨-, hother⟩ := hu 1
  have hstopped : claimedAgain.stopThreads 0 1 = u :=
    Host.Outcome.next.inj ((accepts_of_writeBy (c := .threadResetStop .easel 0 1) rfl rfl
      verdict_claimedAgain).symm.trans hexec)
  have hsame := congrArg Thread.park (hother (by decide))
  rw [← hstopped, stopThreads_claimedAgain] at hsame
  exact absurd (park_claimedAgain.symm.trans hsame) (by decide)

/-! ### A boundary that meets a lost tag wakes a thread (R240, R303) -/

/-- At tick 0 journaling is on for panel 0 with its ring in DRAM, and the tag of the ring's first line is lost; the
event of such a loss is routed to thread 1, parked in `WFE`. -/
def ringTagLost : State :=
  let s := (Tests.put State.reset [(jrnlPage 0, JRNL_STATUS.ACTIVE, 1), (jrnlPage 0, JRNL_CFG.EPOCH, 1),
    (jrnlPage 0, JRNL_RING.ADDR, dramBase / 128), (jrnlPage 0, JRNL_RING_SIZE.SIZE, 1)]).setReg (scrPage 0) 0x028 8
  let s1 := (s.setReg (evcPage 0 0) (0x400 + 8 * 233) 0x0000022100000000).setThread 0 1 { park := some .wfe }
  { s1.setPanel 0 { l2 := [(0, { ways := [(0, dramBase / 128 + 1)] })] } with flips := [⟨4, 0, memKey 0 dramBase, true⟩] }

theorem exec_epochBoundary_ringTagLost : exec (.epochBoundary 0) ringTagLost = .next (ringTagLost.takeBoundary 0) := by
  refine congrArg Host.Outcome.next ?_
  have hmode : ringTagLost.mode 0 ≠ HANDOVER := by decide
  have hrest : ¬ (ringTagLost.mode 0 = REST ∨ (ringTagLost.panel 0).resetting.isSome = true) := by decide
  have hgrid : ringTagLost.onGrid 0 = true ∧
      (ringTagLost.flag (jrnlPage 0) JRNL_STATUS.ACTIVE = true ∨ (ringTagLost.journal 0).starting = true) := by decide
  refine (if_neg hmode).trans ((if_neg hrest).trans ((if_pos hgrid).trans ?_))
  exact if_neg (by decide)

theorem park_takeBoundary_ringTagLost : ((ringTagLost.takeBoundary 0).thread 0 1).park = none := by decide +kernel

/-- Refutes O49: a boundary whose record in the ring meets a lost tag of the L2 raises the event of the loss, which
ends the wait of a thread parked in `WFE`. -/
theorem not_boundariesCaptureThreads : ¬ Obligations.BoundariesCaptureThreads := by
  unfold Obligations.BoundariesCaptureThreads
  intro h
  obtain ⟨-, -, -, -, -, -, -, htake, -⟩ := h ringTagLost .easel 0
  obtain ⟨u, hexec, -, -, -, -, -, -, -, -, -, -, hthreads⟩ := htake (by decide) (by decide) rfl (by decide) rfl
    (by decide) rfl
  have hu : ringTagLost.takeBoundary 0 = u := Host.Outcome.next.inj (exec_epochBoundary_ringTagLost.symm.trans hexec)
  have hsame : ((ringTagLost.takeBoundary 0).thread 0 1).park = (ringTagLost.thread 0 1).park := by
    unfold State.thread
    rw [hu, hthreads]
  exact absurd (park_takeBoundary_ringTagLost.symm.trans hsame) (by decide)

end Sys2Proof.Proofs
end

section
/-! PROOFS. Registers of a page with bits cleared. -/

namespace Sys2Proof.Proofs

open Sys2Proof Sys2Proof.Machine

/-! ### Registers of a page with bits cleared -/

/-- The bits that a list of registers and masks names at an offset. -/
def maskAt (l : List (Nat × Word)) (o : Nat) : Word := l.foldr (fun x w => if x.1 = o then x.2 ||| w else w) 0#64

@[simp] theorem maskAt_nil (o : Nat) : maskAt [] o = 0#64 := rfl

theorem maskAt_cons (x : Nat × Word) (l : List (Nat × Word)) (o : Nat) :
    maskAt (x :: l) o = if x.1 = o then x.2 ||| maskAt l o else maskAt l o := rfl

theorem maskAt_singleton (off : Nat) (m : Word) (o : Nat) : maskAt [(off, m)] o = if off = o then m else 0#64 := by
  rw [maskAt_cons, maskAt_nil, BitVec.or_zero]

theorem maskAt_append (l m : List (Nat × Word)) (o : Nat) : maskAt (l ++ m) o = maskAt l o ||| maskAt m o := by
  induction l with
  | nil => exact BitVec.zero_or.symm
  | cons x l ih =>
    rw [List.cons_append, maskAt_cons, maskAt_cons, ih]
    split
    · exact (BitVec.or_assoc ..).symm
    · rfl

theorem maskAt_of_perm {l m : List (Nat × Word)} (h : l.Perm m) (o : Nat) : maskAt l o = maskAt m o := by
  induction h with
  | nil => rfl
  | cons x _ ih => rw [maskAt_cons, maskAt_cons, ih]
  | swap x y l =>
    simp only [maskAt_cons]
    split <;> split
    · rw [← BitVec.or_assoc, ← BitVec.or_assoc, BitVec.or_comm y.2]
    · rfl
    · rfl
    · rfl
  | trans _ _ h₁ h₂ => exact h₁.trans h₂

theorem maskAt_of_not_mem {l : List (Nat × Word)} {o : Nat} (h : o ∉ l.map Prod.fst) : maskAt l o = 0#64 := by
  induction l with
  | nil => rfl
  | cons x l ih =>
    rw [List.map_cons, List.mem_cons, not_or] at h
    rw [maskAt_cons, if_neg (Ne.symm h.1), ih h.2]

/-- Where no register is named twice, the mask is the one listed. -/
theorem lookup_getD_eq_maskAt {l : List (Nat × Word)} (h : (l.map Prod.fst).Nodup) (o : Nat) :
    (l.lookup o).getD 0 = maskAt l o := by
  induction l with
  | nil => rfl
  | cons x l ih =>
    rw [List.map_cons, List.nodup_cons] at h
    rw [List.lookup_cons, maskAt_cons]
    by_cases hx : x.1 = o
    · subst hx
      rw [if_pos rfl, maskAt_of_not_mem h.1, beq_self_eq_true]
      exact BitVec.or_zero.symm
    · rw [if_neg hx, beq_false_of_ne (Ne.symm hx)]
      exact ih h.2

/-- The bits of a field. -/
def fldMask (f : Fld) : Word := ~~~(putBits (BitVec.allOnes 64) f.hi f.lo 0)

theorem putBits_zero (w : Word) {f : Fld} (hf : fits f = true) : putBits w f.hi f.lo 0 = w &&& ~~~fldMask f := by
  obtain ⟨hhi, hlo, -⟩ := (fits_iff f).mp hf
  refine BitVec.eq_of_getLsbD_eq (fun i hi => ?_)
  rw [fldMask, BitVec.not_not, BitVec.getLsbD_and, getLsbD_putBits _ _ _ _ _ hhi hlo, getLsbD_putBits _ _ _ _ _ hhi hlo]
  split
  · rw [Nat.zero_testBit, Bool.and_false]
  · rw [BitVec.getLsbD_allOnes, decide_eq_true hi, Bool.and_true]

/-- Only registers differ, and of a page's registers only that the listed bits are 0. -/
structure Cleared (s u : State) (pk : Nat) (l : List (Nat × Word)) : Prop where
  regs : u = s.withRegs u.regs
  reg : ∀ k o, o < 4096 → u.reg k o = if k = pk then s.reg k o &&& ~~~maskAt l o else s.reg k o

theorem Cleared.refl (s : State) (pk : Nat) : Cleared s s pk [] where
  regs := rfl
  reg k o _ := by
    rw [maskAt_nil, show ~~~(0#64) = BitVec.allOnes 64 from rfl, BitVec.and_allOnes, ite_self]

/-- Bits of a register cleared besides. -/
theorem Cleared.masked {s u v : State} {pk off : Nat} {l : List (Nat × Word)} {m : Word} (h : Cleared s u pk l)
    (hoff : off < 4096) (hv : v = u.setReg pk off (u.reg pk off &&& ~~~m)) : Cleared s v pk (l ++ [(off, m)]) where
  regs := by
    rw [hv, h.regs]
    rfl
  reg k o ho := by
    rw [hv]
    by_cases hk : (k, o) = (pk, off)
    · obtain ⟨rfl, rfl⟩ := Prod.mk.inj hk
      rw [reg_setReg_self, h.reg _ _ ho, if_pos rfl, if_pos rfl, maskAt_append, maskAt_singleton,
        if_pos rfl, BitVec.and_assoc, ← BitVec.not_or]
    · rw [reg_setReg_ne _ _ ho hoff hk, h.reg _ _ ho]
      by_cases hp : k = pk
      · subst hp
        have hne : off ≠ o := fun he => hk (by rw [he])
        rw [if_pos rfl, if_pos rfl, maskAt_append, maskAt_singleton, if_neg hne, BitVec.or_zero]
      · rw [if_neg hp, if_neg hp]

theorem Cleared.setReg {s u : State} {pk : Nat} {l : List (Nat × Word)} (h : Cleared s u pk l) {off : Nat}
    (hoff : off < 4096) : Cleared s (u.setReg pk off 0) pk (l ++ [(off, BitVec.allOnes 64)]) := by
  refine h.masked hoff ?_
  rw [show ~~~(BitVec.allOnes 64) = 0#64 from rfl, BitVec.and_zero]
  rfl

theorem Cleared.setFld {s u : State} {pk : Nat} {l : List (Nat × Word)} (h : Cleared s u pk l) (f : Fld)
    (hf : fits f = true) : Cleared s (u.setFld pk f 0) pk (l ++ [(f.off, fldMask f)]) :=
  h.masked ((fits_iff f).mp hf).2.2 (congrArg (u.setReg pk f.off) (putBits_zero _ hf))

theorem Cleared.foldl {s : State} {pk : Nat} {α : Type} {f : State → α → State} {g : α → List (Nat × Word)} {is : List α}
    (hf : ∀ u l i, i ∈ is → Cleared s u pk l → Cleared s (f u i) pk (l ++ g i)) {u : State} {l : List (Nat × Word)}
    (h : Cleared s u pk l) : Cleared s (is.foldl f u) pk (l ++ is.flatMap g) := by
  induction is generalizing u l with
  | nil =>
    rw [List.flatMap_nil, List.append_nil]
    exact h
  | cons i is ih =>
    rw [List.flatMap_cons, ← List.append_assoc]
    exact ih (fun u l j hj => hf u l j (List.mem_cons_of_mem i hj)) (hf u l i List.mem_cons_self h)

/-- A field that lies at an index, with its mask. -/
theorem Cleared.setFldAt {s u : State} {pk : Nat} {l : List (Nat × Word)} (h : Cleared s u pk l) (f : Fld) {d : Nat}
    {m : Word} (hd : d ≤ 0x3F0) (hf : fits f = true) (hoff : f.off ≤ 0xC0F) (hm : fldMask f = m) :
    Cleared s (u.setFld pk (f.at d) 0) pk (l ++ [(f.off + d, m)]) := by
  obtain ⟨hhi, hlo, -⟩ := (fits_iff f).mp hf
  exact hm ▸ h.setFld (f.at d) ((fits_iff _).mpr ⟨hhi, hlo, show f.off + d < 4096 by omega⟩)

/-- Registers cleared one after another. -/
theorem Cleared.setRegs {s : State} {pk : Nat} (is : List Nat) (off : Nat → Nat) (hoff : ∀ i ∈ is, off i < 4096) :
    Cleared s (is.foldl (fun u i => u.setReg pk (off i) 0) s) pk (is.map (fun i => (off i, BitVec.allOnes 64))) := by
  have h := Cleared.foldl (g := fun i => [(off i, BitVec.allOnes 64)]) (fun u l i hi hu => hu.setReg (hoff i hi))
    (Cleared.refl s pk) (is := is)
  rwa [List.nil_append, ← List.map_eq_flatMap] at h

/-- A row that clears what the statement lists. -/
theorem clears_of_cleared {c : Instr} {s : State} {ag : Agent} {pk off : Nat} {act : State → State}
    {l zeroed : List (Nat × Word)} (hexec : exec c s = .next (s.writeBy ag pk off act)) (h : Cleared s (act s) pk l)
    (hnodup : (zeroed.map Prod.fst).Nodup) (hl : ∀ o, maskAt l o = maskAt zeroed o) : Clears c s ag pk off zeroed := by
  intro hv
  refine ⟨(act s).regs, hexec.trans (congrArg Host.Outcome.next ?_), fun k o ho => ?_⟩
  · rw [writeBy_accept hv, ← h.regs]
  · rw [lookup_getD_eq_maskAt hnodup, ← hl]
    exact h.reg k o ho

theorem clearTripCounts_cleared (s : State) (sec : Nat) : Cleared s (s.clearTripCounts sec) (tripPage sec)
    ((List.range 16).map (fun p => (0x238 + 0x40 * p, BitVec.allOnes 64))) :=
  Cleared.setRegs (List.range 16) (fun p => 0x238 + 0x40 * p) (fun p hp => by rw [List.mem_range] at hp; omega)

theorem clearDevices_cleared (s : State) (p : Nat) : Cleared s (s.clearDevices p) (ddrcPage p)
    ((List.range 10).map (fun i => (0x150 + 8 * i, BitVec.allOnes 64))) :=
  Cleared.setRegs (List.range 10) (fun i => 0x150 + 8 * i) (fun i hi => by rw [List.mem_range] at hi; omega)

/-- The counts of a partner of the intent block, as they are cleared. -/
def partnerMasks (i : Nat) : List (Nat × Word) :=
  [(0xC08 + 16 * i, 0xFFFFFFFF00000000), (0xC00 + 16 * i, 0xFF000000)]

theorem clearPartner_cleared {s u : State} {p i : Nat} {l : List (Nat × Word)} (h : Cleared s u (intnPage p) l)
    (hi : i < 64) : Cleared s ((u.setPstat p i INTN_PCONTRIB.REJECTS 0).setPstat p i INTN_PSTAT.GAPS 0) (intnPage p)
      (l ++ partnerMasks i) := by
  have h₂ := (h.setFldAt INTN_PCONTRIB.REJECTS (d := 16 * i) (m := 0xFFFFFFFF00000000) (by omega) (by decide) (by decide)
    (by decide)).setFldAt INTN_PSTAT.GAPS (d := 16 * i) (m := 0xFF000000) (by omega) (by decide) (by decide) (by decide)
  rw [List.append_assoc] at h₂
  exact h₂

theorem clearIntent_cleared (s : State) (p : Nat) : Cleared s (s.clearIntent p) (intnPage p)
    ([(0x108, BitVec.allOnes 64)] ++ (List.range 64).flatMap partnerMasks) := by
  have h := (Cleared.refl s (intnPage p)).setReg (off := 0x108) (by decide)
  unfold State.clearIntent
  generalize hl : List.range 64 = l
  refine Cleared.foldl (g := partnerMasks) (fun u m i hi hu => clearPartner_cleared hu ?_) h
  exact List.mem_range.mp (hl ▸ hi)

/-- The four counts of a queue of timed writes. -/
theorem clearQueue_cleared (s : State) (q : Fin 9) : Cleared s (s.clearQueue q) (queuePage q)
    [(0x100 + queueShift q, 0x1FF0000), (0x108 + queueShift q, 0xFFFFFFFF), (0x110 + queueShift q, 0xFFFFFFFF),
      (0x118 + queueShift q, 0xFFFFFFFF)] := by
  have hd : queueShift q ≤ 0x3F0 := by
    unfold queueShift
    split <;> decide
  exact ((((Cleared.refl s (queuePage q)).setFldAt TWQ_LEVEL.HIGH_WATER hd (by decide) (by decide) (by decide)).setFldAt
    TWQ_DISCARDED.DISCARDED hd (by decide) (by decide) (by decide)).setFldAt
    TWQ_APPLIED_LATE.APPLIED_LATE hd (by decide) (by decide) (by decide)).setFldAt
    TWQ_REFUSED.REFUSED hd (by decide) (by decide) (by decide)

theorem nodup_intentOffsets : (((0x108, BitVec.allOnes 64) :: (List.range 64).flatMap (fun i =>
    [(0xC00 + 16 * i, (0xFF000000 : Word)), (0xC08 + 16 * i, 0xFFFFFFFF <<< 32)])).map Prod.fst).Nodup := by decide +kernel

theorem clearsOfPages : ClearsOfPages := by
  unfold ClearsOfPages
  intro s ag sl
  have start (pk : Nat) : Cleared s s pk [] := Cleared.refl s pk
  have same {l : List (Nat × Word)} (o : Nat) : maskAt l o = maskAt l o := rfl
  refine ⟨fun q => ?_, fun c => ?_, fun p => ?_, ?_, ?_, fun n => ?_, fun g => ?_, ?_, ?_, ?_, ?_, ?_, fun c => ?_, ?_,
    fun n => ?_, ?_, ?_, ?_⟩
  · refine clears_of_cleared rfl (clearQueue_cleared s q) ?_ same
    unfold queueShift
    split <;> decide
  · exact clears_of_cleared rfl ((start _).setFld FADC_RING_DROPPED.DROPPED (by decide)) (by decide) same
  · exact clears_of_cleared rfl ((start _).setReg (by decide)) (by decide) same
  · exact clears_of_cleared rfl ((start _).setReg (by decide)) (by decide) same
  · exact clears_of_cleared rfl (clearTripCounts_cleared s sl) (by decide) same
  · exact clears_of_cleared rfl ((((start _).setReg (by decide)).setReg (by decide)).setReg (by decide)) (by decide) same
  · exact clears_of_cleared rfl ((((start _).setReg (by decide)).setReg (by decide)).setReg (by decide)) (by decide) same
  · exact clears_of_cleared rfl (((start _).setFld EVC_SPURIOUS.COUNT (by decide)).setFld EVC_ORDER.COUNT (by decide))
      (by decide) same
  · exact clears_of_cleared rfl ((((start _).setReg (by decide)).setReg (by decide)).setFld SCR_COLL.COUNT (by decide))
      (by decide) same
  · exact clears_of_cleared rfl (clearDevices_cleared s sl) (by decide) same
  · exact clears_of_cleared rfl ((start _).setReg (by decide)) (by decide) same
  · exact clears_of_cleared rfl ((start _).setFld DMA_ALLOC_REFUSED.COUNT (by decide)) (by decide) same
  · exact clears_of_cleared rfl ((start _).setFld DMA_COLL.COUNT (by decide)) (by decide) same
  · refine clears_of_cleared rfl (clearIntent_cleared s sl) nodup_intentOffsets (maskAt_of_perm ?_)
    exact List.Perm.cons _ (List.Perm.flatMap_left _ (fun i _ => List.Perm.swap _ _ []))
  · exact clears_of_cleared rfl (Cleared.setRegs _ id (by decide)) (by decide) same
  · exact clears_of_cleared rfl (Cleared.setRegs _ id (by decide)) (by decide) same
  · refine clears_of_cleared rfl (((start _).setFld JRNL_COUNTS.EARLY (by decide)).setFld JRNL_COUNTS.LATE (by decide))
      (by decide) (fun o => ?_)
    rw [maskAt_singleton]
    by_cases h : 0x140 = o
    · subst h
      rfl
    · exact (if_neg h).symm ▸ ((if_neg h).trans (if_neg h))
  · refine clears_of_cleared rfl (((start _).setFld UPNT_STATUS.DIP_VALID (by decide)).setFld UPNT_STATUS.DIP_OVERRUN
      (by decide)) (by decide) (fun o => ?_)
    rw [maskAt_singleton]
    by_cases h : 0x108 = o
    · subst h
      rfl
    · exact (if_neg h).symm ▸ ((if_neg h).trans (if_neg h))

end Sys2Proof.Proofs
end

section
/-! PROOFS. Writes of special registers, and the counts that a core clears. Settles O31. -/

namespace Sys2Proof.Proofs

open Sys2Proof Sys2Proof.Machine

/-! ### Writes of special registers -/

/-- The thread's operand popped. -/
def popped (s : State) (t : Tid) (rest : List Slot) : State :=
  s.setThread t.panel t.index { s.at t with stack := rest }

theorem at_popped (s : State) (t : Tid) (rest : List Slot) : (popped s t rest).at t = { s.at t with stack := rest } :=
  at_setThread ..

theorem goOn_popped (s : State) (t : Tid) (len : Nat) (rest stack : List Slot) (fl : Nat) :
    (popped s t rest).goOn t len stack fl = s.goOn t len stack fl := goOn_setThread ..

section
variable {s s1 : State} {t : Tid} {w : TWord} {rest : List Slot} {num : Nat} {want : Word → Bool}
variable (hready : Ready s t 3 s1)
include hready

/-- An `SRW` whose write is done retires with its operand popped. -/
theorem srw_next (hops : Operands s1 t [w] rest) (hpriv : (s1.at t).status.getLsbD 8 = true ∨ decide (num = 0x09) = true)
    (hbits : isBits w = true) (hnum : specialAssigned num = true) (hshort : spillShort (s1.at t) num = false)
    (hwant : want (payload w) = true) {u : State}
    (hwrite : (popped s1 t rest).writeSpecial t.panel t.index num (payload w) = .ok u)
    (hpc : (u.at t).pc = (s1.at t).pc) {stack : List Slot} (hstack : (u.at t).stack = stack) :
    s.srw t num want = u.goOn t 3 stack 0 := by
  have hpop : s1.writeOperand t.panel t.index (decide (num = 0x09)) = .ok (payload w, popped s1 t rest) :=
    writeOperand_of_bits hops hpriv hbits
  refine (Laws.instr_ready s s1 t _ _ hready).trans ?_
  rw [if_neg (by rw [hnum]; exact Bool.noConfusion),
    if_neg (by rw [show s1.thread t.panel t.index = s1.at t from rfl, hshort]; exact Bool.noConfusion), hpop]
  dsimp only
  rw [if_neg (by rw [hwant]; exact Bool.noConfusion), hwrite]
  dsimp only
  unfold State.goOn
  rw [leave_zero, retire_setThread_self (by rw [← hstack])]
  unfold State.after
  rw [show (s1.thread t.panel t.index).pc = (s1.at t).pc from rfl, hpc]

end

/-! ### `CORE_CLR` (R167) -/

/-- The core's count of slow entries cleared. -/
def slowCleared (s : State) (t : Tid) : State :=
  s.setCore t.panel (t.index.val / 4) { s.core t.panel (t.index.val / 4) with entrySlow := 0 }

/-- The thread's counts cleared. -/
def countsCleared (s : State) (t : Tid) : State :=
  s.setThread t.panel t.index { s.at t with
    specIssue := 0
    mispredict := 0
    misses := 0
    parked := 0
    hasParked := false }

theorem slowCleared_popped (s : State) (t : Tid) (rest : List Slot) :
    slowCleared (popped s t rest) t = popped (slowCleared s t) t rest := rfl

theorem countsCleared_popped (s : State) (t : Tid) (rest : List Slot) :
    countsCleared (popped s t rest) t = popped (countsCleared s t) t rest := by
  unfold countsCleared popped
  rw [at_setThread, at_setThread, Laws.setThread_setThread, Laws.setThread_setThread]

/-- What a write of `CORE_CLR` clears. -/
def coreCleared (s : State) (t : Tid) (v : Word) : State :=
  let u := if bit v.toNat 1 then slowCleared s t else s
  if bit v.toNat 0 then countsCleared u t else u

theorem coreCleared_popped (s : State) (t : Tid) (rest : List Slot) (v : Word) :
    coreCleared (popped s t rest) t v = popped (coreCleared s t v) t rest := by
  unfold coreCleared
  dsimp only
  split <;> split
  · rw [slowCleared_popped, countsCleared_popped]
  · exact countsCleared_popped ..
  · rfl
  · rfl

theorem pc_coreCleared (s : State) (t : Tid) (v : Word) : ((coreCleared s t v).at t).pc = (s.at t).pc := by
  unfold coreCleared
  dsimp only
  split <;> split
  · exact (congrArg Thread.pc (at_setThread (slowCleared s t) t _)).trans rfl
  · exact (congrArg Thread.pc (at_setThread s t _)).trans rfl
  · rfl
  · rfl

theorem srw_coreClr {s s1 : State} {t : Tid} {tag : Nat} {v : Word} {rest : List Slot} {want : Word → Bool}
    (hready : Ready s t 3 s1) (hpriv : (s1.at t).status.getLsbD 8 = true) (htag : tag = 0 ∨ tag = 0x20 ∨ tag = 0x21)
    (hops : Operands s1 t [tword tag v] rest) (hwant : want v = true) :
    s.srw t 0x4B want = (coreCleared s1 t v).goOn t 3 rest 0 := by
  have hvalue : payload (tword tag v) = v := payload_tword tag v
  have hwrite : (popped s1 t rest).writeSpecial t.panel t.index 0x4B v = .ok (coreCleared (popped s1 t rest) t v) := rfl
  rw [coreCleared_popped] at hwrite
  refine (srw_next hready hops (.inl hpriv) (isBits_tword htag v) rfl ?_ (by rw [hvalue]; exact hwant)
    (by rw [hvalue]; exact hwrite) ?_ ?_).trans (goOn_popped ..)
  · unfold spillShort
    rw [show decide ((0x4B : Nat) ≤ 3) = false from rfl, Bool.and_false, Bool.false_and, Bool.false_and]
  · rw [at_popped]
    exact pc_coreCleared s1 t v
  · rw [at_popped]

theorem coreCleared_one (s : State) (t : Tid) : coreCleared s t 1 = countsCleared s t := by
  unfold coreCleared
  rw [if_neg (by decide : ¬ bit (1 : Word).toNat 1 = true), if_pos (by decide : bit (1 : Word).toNat 0 = true)]

theorem coreCleared_two (s : State) (t : Tid) : coreCleared s t 2 = slowCleared s t := by
  unfold coreCleared
  rw [if_pos (by decide : bit (2 : Word).toNat 1 = true), if_neg (by decide : ¬ bit (2 : Word).toNat 0 = true)]

theorem coreCleared_three (s : State) (t : Tid) : coreCleared s t 3 = countsCleared (slowCleared s t) t := by
  unfold coreCleared
  rw [if_pos (by decide : bit (3 : Word).toNat 1 = true), if_pos (by decide : bit (3 : Word).toNat 0 = true)]

theorem exec_coreClrCore (t : Tid) (s : State) :
    exec (.coreClrCore t) s = .next (s.srw t 0x4B (fun v => bit v.toNat 1)) := rfl

theorem exec_coreClrThread (t : Tid) (s : State) :
    exec (.coreClrThread t) s = .next (s.srw t 0x4B (fun v => bit v.toNat 0)) := rfl

theorem exec_srw (t : Tid) (num : BitVec 16) (s : State) :
    exec (.srw t num) s = .next (s.srw t num.toNat (fun _ => true)) := rfl

theorem coreClearsItsCounts : CoreClearsItsCounts := by
  unfold CoreClearsItsCounts
  intro s s1 t tag rest hready hpriv htag
  have clears {v : Word} {want : Word → Bool} (hops : Operands s1 t [tword tag v] rest) (hwant : want v = true) :=
    srw_coreClr hready hpriv htag hops hwant
  have h16 : (0x4B : BitVec 16).toNat = 0x4B := rfl
  dsimp only
  rw [exec_coreClrCore, exec_coreClrThread, exec_srw, h16]
  refine ⟨fun hops => ?_, fun hops => ?_, fun hops => ?_⟩
  · rw [clears hops (by decide), clears hops (by decide), coreCleared_two]
    exact ⟨rfl, rfl⟩
  · rw [clears hops (by decide), clears hops (by decide), coreCleared_one]
    exact ⟨rfl, rfl⟩
  · rw [clears hops (by decide), clears hops (by decide), coreCleared_three]
    exact ⟨rfl, rfl⟩

/-- Settles O31: each clear of a page is a chain of registers and fields set to 0, which leaves every other bit; that of
a core ends in the core's or the thread's counts at 0. -/
theorem clearsClearOnlyTheirCounts : Obligations.ClearsClearOnlyTheirCounts := ⟨clearsOfPages, coreClearsItsCounts⟩

end Sys2Proof.Proofs
end

section
/-! PROOFS. Reads of special registers. -/

namespace Sys2Proof.Proofs

open Sys2Proof Sys2Proof.Machine

/-! ### Reads of special registers (R167, R174, R186, R214) -/

/-- A register of the plain list is read as it stands. -/
theorem special_of_plainSpecials {s : State} {t : Tid} {n : Nat} {w : Word} (h : (n, w) ∈ plainSpecials s t) :
    s.special t.panel t.index n = some (w, s) ∧ n ≠ 0x50 := by
  have hid : coreId t.panel t.index = BitVec.ofNat 64 (256 * t.panel + 16 * (t.index / 4) + t.index % 4) := by
    unfold coreId
    congr 1
    omega
  have hdouble : BitVec.ofNat 64 (s.at t).double.toNat = if (s.at t).double then 1 else 0 := by
    cases (s.at t).double <;> rfl
  simp only [plainSpecials, List.mem_cons, Prod.mk.injEq, List.not_mem_nil, or_false] at h
  rw [← hid, ← hdouble] at h
  rcases h with ⟨rfl, rfl⟩ | ⟨rfl, rfl⟩ | ⟨rfl, rfl⟩ | ⟨rfl, rfl⟩ | ⟨rfl, rfl⟩ | ⟨rfl, rfl⟩ | ⟨rfl, rfl⟩ | ⟨rfl, rfl⟩
    | ⟨rfl, rfl⟩ | ⟨rfl, rfl⟩ | ⟨rfl, rfl⟩ | ⟨rfl, rfl⟩ | ⟨rfl, rfl⟩ | ⟨rfl, rfl⟩ | ⟨rfl, rfl⟩ | ⟨rfl, rfl⟩ | ⟨rfl, rfl⟩
    | ⟨rfl, rfl⟩ | ⟨rfl, rfl⟩ | ⟨rfl, rfl⟩ | ⟨rfl, rfl⟩ | ⟨rfl, rfl⟩ | ⟨rfl, rfl⟩ <;> exact ⟨rfl, by decide⟩

theorem specialAssigned_eq_false {n : Nat} (h : 0x0A ≤ n ∧ n < 0x40 ∨ 0x4C ≤ n ∧ n < 0x50 ∨ 0x55 ≤ n) :
    specialAssigned n = false := by
  rw [← Bool.not_eq_true, specialAssigned, Bool.or_eq_true, Bool.or_eq_true, Bool.and_eq_true, Bool.and_eq_true,
    decide_eq_true_eq, decide_eq_true_eq, decide_eq_true_eq, decide_eq_true_eq, decide_eq_true_eq]
  omega

/-- A number that names no register is not read. -/
theorem special_of_unassigned (s : State) (p t : Nat) {n : Nat} (h : specialAssigned n = false) : s.special p t n = none := by
  unfold State.special
  split
  any_goals exact Bool.noConfusion h
  rfl

/-- A plain thread's read of a special register is not journaled. -/
theorem readSpecial_of_special {s u : State} {t : Tid} {n : Nat} {w : Word} (hs : Plain s t) (hu : Plain u t) (hn : n ≠ 0x50)
    (h : s.special t.panel t.index n = some (w, u)) : s.readSpecial t.panel t.index n = .ok (w, u) := by
  unfold State.readSpecial
  rw [if_neg hn, h]
  dsimp only
  rw [not_replaying_of_plain hs, capture_of_plain hu]
  split
  · rfl
  · rfl

section
variable {s s1 : State} {t : Tid} (hready : Ready s t 3 s1)
include hready

/-- An `SRR` whose register is read pushes what it reads. -/
theorem srr_next (hroom : (s1.at t).stack.length ≤ 15) {num : BitVec 16} {w : Word} {u : State}
    (hread : s1.readSpecial t.panel t.index num.toNat = .ok (w, u)) (hstack : (u.at t).stack = (s1.at t).stack)
    (hpc : (u.at t).pc = (s1.at t).pc) :
    exec (.srr t num) s = .next (u.goOn t 3 (.word (tword 0x21 w) :: (s1.at t).stack) 0) := by
  have hpush := setStack_push (s := u) (t := t) (by rw [hstack]; exact hroom) (tword 0x21 w)
  refine congrArg Host.Outcome.next ((Laws.instr_ready s s1 t _ _ hready).trans ?_)
  rw [hread]
  dsimp only
  rw [show (u.thread t.panel t.index).stack = (u.at t).stack from rfl, show uint w = tword 0x21 w from rfl, hpush]
  dsimp only
  rw [hstack]
  unfold State.goOn State.after
  rw [show (s1.thread t.panel t.index).pc = (s1.at t).pc from rfl, hpc]

theorem srr_faults {num : BitVec 16} (hnum : specialAssigned num.toNat = false) :
    exec (.srr t num) s = .next (s1.faults t UD) := by
  have h50 : num.toNat ≠ 0x50 := fun h => by rw [h] at hnum; exact absurd hnum (by decide)
  refine congrArg Host.Outcome.next ((Laws.instr_ready s s1 t _ _ hready).trans ?_)
  unfold State.readSpecial
  rw [if_neg h50, special_of_unassigned _ _ _ hnum]
  rfl

end

theorem specialRegistersRead : SpecialRegistersRead := by
  unfold SpecialRegistersRead
  intro s s1 t num hready hplain hroom
  refine ⟨fun w hw => ?_, fun hnum => ?_, fun hnum => ?_, fun hnum => ?_, fun hnum => ?_⟩
  · obtain ⟨hspecial, h50⟩ := special_of_plainSpecials hw
    exact srr_next hready hroom (readSpecial_of_special hplain hplain h50 hspecial) rfl rfl
  · let c := s1.core t.panel (t.index.val / 4)
    let u := s1.fresh.2.setCore t.panel (t.index.val / 4) { c with cycles := c.cycles + s1.fresh.1 }
    have hu : Plain u t := plain_of_eq hplain rfl rfl rfl
    refine ⟨c.cycles + s1.fresh.1, u, srr_next hready hroom (readSpecial_of_special hplain hu ?_ ?_) rfl rfl, ?_, rfl⟩
    · rw [hnum]; decide
    · rw [hnum]; rfl
    · exact congrArg Core.cycles (Laws.read_write_self ({} : Core) s1.cores (t.panel * 4 + t.index.val / 4) _)
  · let d := if (s1.at t).hasParked then s1.fresh else (0, s1)
    let th := { s1.at t with parked := (s1.at t).parked + d.1, hasParked := (s1.at t).park.isSome }
    let u := d.2.setThread t.panel t.index th
    have hd : d.2 = { s1 with free := d.2.free } := by
      show (if (s1.at t).hasParked then s1.fresh else (0, s1)).2
        = { s1 with free := (if (s1.at t).hasParked then s1.fresh else (0, s1)).2.free }
      split <;> rfl
    have hat : u.at t = th := at_setThread ..
    have hu : Plain u t := by
      refine plain_of_eq hplain ?_ ?_ ((congrArg Thread.adopted hat).trans rfl)
      · show d.2.regs = s1.regs
        rw [hd]
      · show d.2.journals = s1.journals
        rw [hd]
    refine ⟨th.parked, u, srr_next hready hroom (readSpecial_of_special hplain hu ?_ ?_)
      ((congrArg Thread.stack hat).trans rfl) ((congrArg Thread.pc hat).trans rfl), congrArg Thread.parked hat, fun hpark => ?_, ?_⟩
    · rw [hnum]; decide
    · rw [hnum]; rfl
    · have hd0 : d = (0, s1) := if_neg (fun h => Bool.false_ne_true (hpark.symm.trans h))
      refine ⟨?_, ?_⟩
      · show (s1.at t).parked + d.1 = _
        rw [hd0]
        exact BitVec.add_zero _
      · show d.2.free = _
        rw [hd0]
    · show d.2.setThread t.panel t.index th = _
      rw [hd]
      rfl
  · refine ⟨s1.topWord t.panel t.index, srr_next hready hroom (readSpecial_of_special hplain hplain ?_ ?_) rfl rfl,
      fun hprio => ?_⟩
    · rw [hnum]; decide
    · rw [hnum]; rfl
    · unfold State.topWord State.lastClaim
      rw [hprio]
      simp only [List.find?_nil, List.filter_nil, List.length_nil, Nat.zero_mul, Nat.zero_add]
      rfl
  · exact srr_faults hready (specialAssigned_eq_false hnum)

end Sys2Proof.Proofs
end

section
/-! PROOFS. Writes of special registers. -/

namespace Sys2Proof.Proofs

open Sys2Proof Sys2Proof.Machine

/-! ### Writes of special registers (R167, R174, R186, R214) -/

theorem spillShort_of_num (th : Thread) {num : Nat} (h : num = 0 ∨ 3 < num) : spillShort th num = false := by
  rw [← Bool.not_eq_true]
  unfold spillShort
  simp only [Bool.and_eq_true, decide_eq_true_eq]
  omega

theorem spillShort_of_unprivileged {th : Thread} (h : th.status.getLsbD 8 = false) (num : Nat) :
    spillShort th num = false := by
  unfold spillShort
  rw [show th.priv = false from h]
  rfl

section
variable {s s1 : State} {t : Tid} (hready : Ready s t 3 s1)
include hready

theorem srw_unassigned {num : Nat} (hnum : specialAssigned num = false) (want : Word → Bool) :
    s.srw t num want = s1.faults t UD :=
  (Laws.instr_ready s s1 t _ _ hready).trans (by rw [if_pos hnum]; rfl)

theorem srw_unprivileged {num : Nat} (hpriv : (s1.at t).status.getLsbD 8 = false) (hnum : specialAssigned num = true)
    (h9 : num ≠ 0x09) (want : Word → Bool) : s.srw t num want = s1.faults t PV := by
  refine (Laws.instr_ready s s1 t _ _ hready).trans ?_
  rw [if_neg (by rw [hnum]; exact Bool.noConfusion),
    if_neg (by rw [show s1.thread t.panel t.index = s1.at t from rfl, spillShort_of_unprivileged hpriv]; exact Bool.noConfusion),
    decide_eq_false h9, writeOperand_unprivileged hpriv]
  rfl

variable {w : TWord} {rest : List Slot} (hops : Operands s1 t [w] rest) (hbits : isBits w = true)
include hops hbits

/-- A privileged write of a register that needs no spill leaves what it does without the pop of its operand. -/
theorem srw_writes (hpriv : (s1.at t).status.getLsbD 8 = true) {num : Nat} (hnum : specialAssigned num = true)
    (h3 : num = 0 ∨ 3 < num) {u : State} (hwrite : (popped s1 t rest).writeSpecial t.panel t.index num (payload w)
      = .ok (popped u t rest)) (hpc : (u.at t).pc = (s1.at t).pc) :
    s.srw t num (fun _ => true) = u.goOn t 3 rest 0 := by
  refine (srw_next hready hops (.inl hpriv) hbits hnum (spillShort_of_num _ h3) rfl hwrite ?_ ?_).trans (goOn_popped ..)
  · rw [at_popped]
    exact hpc
  · rw [at_popped]

/-- A write of a register of the thread. -/
theorem srw_sets (hpriv : (s1.at t).status.getLsbD 8 = true) {num : Nat} (hnum : specialAssigned num = true)
    (h3 : num = 0 ∨ 3 < num) {f : Thread → Thread} (hf : ∀ th l, f { th with stack := l } = { f th with stack := l })
    (hpc : ∀ th, (f th).pc = th.pc) (hwrite : (popped s1 t rest).writeSpecial t.panel t.index num (payload w)
      = .ok ((popped s1 t rest).setThread t.panel t.index (f ((popped s1 t rest).at t)))) :
    s.srw t num (fun _ => true) = (s1.setThread t.panel t.index (f (s1.at t))).goOn t 3 rest 0 := by
  refine srw_writes hready hops hbits hpriv hnum h3 (hwrite.trans (congrArg Except.ok ?_)) ?_
  · rw [at_popped, hf]
    unfold popped
    rw [at_setThread, Laws.setThread_setThread, Laws.setThread_setThread]
  · rw [at_setThread, hpc]

end

/-- What a write of 1 to flags clears: all that are named, or those that hardware has not set in this tick (R8). -/
def Clearing (s : State) (p who num : Nat) (v k : Word) : Prop :=
  let kept := Store.read 0 s.setNow (specialKey p who num) &&& v
  k = v ∨ (kept ≠ 0 ∧ k = v &&& ~~~kept)

theorem clearing_spec (s : State) (p who num : Nat) (v : Word) :
    Clearing s p who num v (s.clearing p who num v).1
      ∧ (s.clearing p who num v).2 = { s with free := (s.clearing p who num v).2.free } := by
  unfold Clearing State.clearing
  dsimp only
  split
  · exact ⟨.inl rfl, rfl⟩
  · next hkept =>
    refine ⟨?_, rfl⟩
    dsimp only
    split
    · exact .inr ⟨hkept, rfl⟩
    · exact .inl rfl

theorem clearing_popped (s : State) (t : Tid) (rest : List Slot) (p who num : Nat) (v : Word) :
    (popped s t rest).clearing p who num v = ((s.clearing p who num v).1, popped (s.clearing p who num v).2 t rest) := by
  unfold State.clearing
  dsimp only
  split
  · next h => rw [if_pos (show Store.read 0 s.setNow (specialKey p who num) &&& v = 0 from h)]
  · next h => rw [if_neg (show ¬ Store.read 0 s.setNow (specialKey p who num) &&& v = 0 from h)]; rfl

/-- A write of `THR_FLAGS` clears flags and stores `COLL_EV`; a thread can leave its wait for an event. -/
theorem writeFlags_spec (s : State) (t : Tid) (v : Word) :
    let u := s.writeFlags t.panel t.index v
    let k := (s.clearing t.panel t.index 0x09 (v &&& 7)).1
    { u.at t with park := none }
        = { s.at t with flags := ((s.at t).flags &&& ~~~k &&& 7) ||| (v &&& 0x100), park := none }
      ∧ u.regs = s.regs ∧ u.mem = s.mem := by
  obtain ⟨-, hfree⟩ := clearing_spec s t.panel t.index 0x09 (v &&& 7)
  have hregs : (s.clearing t.panel t.index 0x09 (v &&& 7)).2.regs = s.regs := (congrArg State.regs hfree).trans rfl
  have hmem : (s.clearing t.panel t.index 0x09 (v &&& 7)).2.mem = s.mem := (congrArg State.mem hfree).trans rfl
  dsimp only
  unfold State.writeFlags
  dsimp only
  generalize s.clearing t.panel t.index 0x09 (v &&& 7) = c at hregs hmem
  have hat := at_setThread c.2 t { s.at t with flags := ((s.at t).flags &&& ~~~c.1 &&& 7) ||| (v &&& 0x100) }
  split
  · obtain ⟨hframe, hthreads⟩ := onlyEvents_arrive (c.2.setThread t.panel t.index
      { s.at t with flags := ((s.at t).flags &&& ~~~c.1 &&& 7) ||| (v &&& 0x100) }) t.panel 0 (496 + t.index)
    refine ⟨(hthreads t.panel t.index).trans ?_, (congrArg State.regs hframe).trans hregs,
      (congrArg State.mem hframe).trans hmem⟩
    exact congrArg (fun th : Thread => { th with park := none }) hat
  · exact ⟨congrArg (fun th : Thread => { th with park := none }) hat, hregs, hmem⟩

section
variable {s s1 : State} {t : Tid} {w : TWord} {rest : List Slot} (hready : Ready s t 3 s1)
variable (hops : Operands s1 t [w] rest) (hbits : isBits w = true)
include hready hops hbits

theorem srw_flags : ∃ (k : Word) (u : State),
    Clearing s1 t.panel t.index 0x09 (payload w &&& 7) k
    ∧ s.srw t 0x09 (fun _ => true) = u.goOn t 3 rest 0
    ∧ (u.at t).flags = ((s1.at t).flags &&& ~~~k &&& 7) ||| (payload w &&& 0x100)
    ∧ u.regs = s1.regs ∧ u.mem = s1.mem := by
  obtain ⟨hflags, hregs, hmem⟩ := writeFlags_spec (popped s1 t rest) t (payload w)
  obtain ⟨hk, -⟩ := clearing_spec s1 t.panel t.index 0x09 (payload w &&& 7)
  have hwrite : (popped s1 t rest).writeSpecial t.panel t.index 0x09 (payload w)
      = .ok ((popped s1 t rest).writeFlags t.panel t.index (payload w)) := rfl
  rw [clearing_popped, at_popped] at hflags
  generalize (popped s1 t rest).writeFlags t.panel t.index (payload w) = u at *
  exact ⟨_, u, hk, srw_next hready hops (.inr rfl) hbits rfl (spillShort_of_num _ (.inr (by decide))) rfl hwrite
    ((congrArg Thread.pc hflags).trans rfl) ((congrArg Thread.stack hflags).trans rfl),
    (congrArg Thread.flags hflags).trans rfl, hregs, hmem⟩

variable (hpriv : (s1.at t).status.getLsbD 8 = true)
include hpriv

theorem srw_status : s.srw t 0x00 (fun _ => true)
    = (s1.setThread t.panel t.index { s1.at t with status := payload w &&& 0x1F1F }).goOn t 3 rest 0 :=
  srw_sets (f := fun th => { th with status := payload w &&& 0x1F1F }) hready hops hbits hpriv rfl (.inl rfl)
    (fun _ _ => rfl) (fun _ => rfl) rfl

/-- The addresses of the control stack, of the vectors and of the fault stack. -/
theorem srw_address {num : Nat} (f : Word → Thread → Thread) (hnum : specialAssigned num = true) (h3 : 3 < num)
    (hf : ∀ a th l, f a { th with stack := l } = { f a th with stack := l }) (hpc : ∀ a th, (f a th).pc = th.pc)
    (hwrite : ∀ (u : State) (v : Word), u.writeSpecial t.panel t.index num v
      = .ok (u.setThread t.panel t.index (f (v &&& 0x0000FFFFFFFFFFF8) (u.thread t.panel t.index)))) :
    s.srw t num (fun _ => true)
      = (s1.setThread t.panel t.index (f (payload w &&& 0x0000FFFFFFFFFFF8) (s1.at t))).goOn t 3 rest 0 :=
  srw_sets (f := f (payload w &&& 0x0000FFFFFFFFFFF8)) hready hops hbits hpriv hnum (.inr h3) (hf _) (hpc _) (hwrite _ _)

theorem srw_lock (h : payload w &&& 0xFFFF ≠ 0xFFFF) : s.srw t 0x48 (fun _ => true)
    = (s1.setPanel t.panel { s1.panel t.panel with l2lock := payload w &&& 0xFFFF }).goOn t 3 rest 0 :=
  srw_writes hready hops hbits hpriv rfl (.inr (by decide)) (if_neg h) rfl

theorem srw_lock_all (h : payload w &&& 0xFFFF = 0xFFFF) : s.srw t 0x48 (fun _ => true)
    = (s1.fresh.2.setPanel t.panel { s1.panel t.panel with l2lock := s1.fresh.1 &&& 0xFFFF }).goOn t 3 rest 0 :=
  srw_writes hready hops hbits hpriv rfl (.inr (by decide)) (if_pos h) rfl

theorem srw_fill : s.srw t 0x49 (fun _ => true) = (s1.setCore t.panel (t.index / 4)
    { s1.core t.panel (t.index / 4) with l2fill := payload w &&& 0xFFFF }).goOn t 3 rest 0 :=
  srw_writes hready hops hbits hpriv rfl (.inr (by decide)) rfl rfl

theorem srw_lockstep : ∃ (k : Word) (u : State),
    Clearing s1 t.panel 0 0x4A (payload w &&& 0x8000000000000000) k
    ∧ s.srw t 0x4A (fun _ => true) = u.goOn t 3 rest 0
    ∧ u = { s1.setPanel t.panel { s1.panel t.panel with lockstep := (s1.panel t.panel).lockstep &&& ~~~k } with
        free := u.free } := by
  obtain ⟨hk, hfree⟩ := clearing_spec s1 t.panel 0 0x4A (payload w &&& 0x8000000000000000)
  have hpop := clearing_popped s1 t rest t.panel 0 0x4A (payload w &&& 0x8000000000000000)
  generalize s1.clearing t.panel 0 0x4A (payload w &&& 0x8000000000000000) = c at hk hfree hpop
  refine ⟨c.1, c.2.setPanel t.panel { c.2.panel t.panel with lockstep := (c.2.panel t.panel).lockstep &&& ~~~c.1 }, hk,
    srw_writes hready hops hbits hpriv rfl (.inr (by decide)) ?_ ?_, ?_⟩
  · unfold State.writeSpecial
    dsimp only
    rw [hpop]
    rfl
  · rw [hfree]
    rfl
  · rw [hfree]
    rfl

theorem srw_imprecise : ∃ (k : Word) (u : State),
    Clearing s1 t.panel t.index 0x53 (payload w &&& 0xC000000000000000) k
    ∧ s.srw t 0x53 (fun _ => true) = u.goOn t 3 rest 0
    ∧ u = { s1.setThread t.panel t.index { s1.at t with imprecise := (s1.at t).imprecise &&& ~~~k } with
        free := u.free } := by
  obtain ⟨hk, hfree⟩ := clearing_spec s1 t.panel t.index 0x53 (payload w &&& 0xC000000000000000)
  have hpop := clearing_popped s1 t rest t.panel t.index 0x53 (payload w &&& 0xC000000000000000)
  generalize s1.clearing t.panel t.index 0x53 (payload w &&& 0xC000000000000000) = c at hk hfree hpop
  refine ⟨c.1, c.2.setThread t.panel t.index { s1.at t with imprecise := (s1.at t).imprecise &&& ~~~c.1 }, hk,
    srw_writes hready hops hbits hpriv rfl (.inr (by decide)) ?_ ?_, ?_⟩
  · unfold State.writeSpecial
    dsimp only
    rw [hpop, show (popped s1 t rest).thread t.panel t.index = { s1.at t with stack := rest } from at_popped ..]
    refine congrArg Except.ok ?_
    unfold popped
    rw [at_setThread, Laws.setThread_setThread, Laws.setThread_setThread]
  · rw [at_setThread]
  · rw [hfree]
    rfl

/-- Read-only registers keep their value. -/
theorem srw_readOnly {num : Nat} (h : num ∈ [0x40, 0x41, 0x42, 0x43, 0x44, 0x45, 0x46, 0x47, 0x50, 0x52, 0x54]) :
    s.srw t num (fun _ => true) = s1.goOn t 3 rest 0 := by
  have hwrite : (popped s1 t rest).writeSpecial t.panel t.index num (payload w) = .ok (popped s1 t rest)
      ∧ specialAssigned num = true ∧ 3 < num := by
    simp only [List.mem_cons, List.not_mem_nil, or_false] at h
    rcases h with rfl | rfl | rfl | rfl | rfl | rfl | rfl | rfl | rfl | rfl | rfl <;> exact ⟨rfl, rfl, by decide⟩
  obtain ⟨hsame, hnum, h3⟩ := hwrite
  exact srw_writes hready hops hbits hpriv hnum (.inr h3) hsame rfl

end

theorem specialRegistersWrite : SpecialRegistersWrite := by
  unfold SpecialRegistersWrite
  intro s s1 t num tag v rest hready hplain htag hops
  have hbits : isBits (tword tag v) = true := isBits_tword htag v
  have hvalue : payload (tword tag v) = v := payload_tword tag v
  generalize tword tag v = w at hops hbits hvalue
  subst hvalue
  dsimp only
  rw [exec_srw]
  refine ⟨fun hpriv => ⟨?_, ?_, ?_, ?_, ?_, ?_, ?_, ?_, ?_, ?_, ?_, ?_⟩, ?_, ?_, ?_⟩
  · rintro rfl
    exact congrArg Host.Outcome.next (srw_status hready hops hbits hpriv)
  · rintro rfl
    exact congrArg Host.Outcome.next (srw_address hready hops hbits hpriv (fun a th => { th with csp := a }) rfl
      (by decide) (fun _ _ _ => rfl) (fun _ _ => rfl) (fun _ _ => rfl))
  · rintro rfl
    exact congrArg Host.Outcome.next (srw_address hready hops hbits hpriv (fun a th => { th with csLo := a }) rfl
      (by decide) (fun _ _ _ => rfl) (fun _ _ => rfl) (fun _ _ => rfl))
  · rintro rfl
    exact congrArg Host.Outcome.next (srw_address hready hops hbits hpriv (fun a th => { th with csHi := a }) rfl
      (by decide) (fun _ _ _ => rfl) (fun _ _ => rfl) (fun _ _ => rfl))
  · rintro rfl
    exact congrArg Host.Outcome.next (srw_address hready hops hbits hpriv (fun a th => { th with vbase := a }) rfl
      (by decide) (fun _ _ _ => rfl) (fun _ _ => rfl) (fun _ _ => rfl))
  · rintro rfl
    exact congrArg Host.Outcome.next (srw_address hready hops hbits hpriv (fun a th => { th with fsp := a }) rfl
      (by decide) (fun _ _ _ => rfl) (fun _ _ => rfl) (fun _ _ => rfl))
  · rintro rfl hways
    exact congrArg Host.Outcome.next (srw_lock hready hops hbits hpriv hways)
  · rintro rfl hways
    exact ⟨_, _, congrArg Host.Outcome.next (srw_lock_all hready hops hbits hpriv hways), rfl⟩
  · rintro rfl
    exact congrArg Host.Outcome.next (srw_fill hready hops hbits hpriv)
  · rintro rfl
    obtain ⟨k, u, hk, hu, hframe⟩ := srw_lockstep hready hops hbits hpriv
    exact ⟨k, u, hk, congrArg Host.Outcome.next hu, hframe⟩
  · rintro rfl
    obtain ⟨k, u, hk, hu, hframe⟩ := srw_imprecise hready hops hbits hpriv
    exact ⟨k, u, hk, congrArg Host.Outcome.next hu, hframe⟩
  · exact fun hnum => congrArg Host.Outcome.next (srw_readOnly hready hops hbits hpriv hnum)
  · rintro rfl
    obtain ⟨k, u, hk, hu, hflags⟩ := srw_flags hready hops hbits
    exact ⟨k, u, hk, congrArg Host.Outcome.next hu, hflags⟩
  · intro hpriv h9 hnum
    refine congrArg Host.Outcome.next (srw_unprivileged hready hpriv hnum (fun h => h9 ?_) _)
    exact BitVec.eq_of_toNat_eq h
  · exact fun hnum => congrArg Host.Outcome.next (srw_unassigned hready hnum _)

end Sys2Proof.Proofs
end

section
/-! PROOFS. Spills of the operand stack into plain words. Settles O30. -/

namespace Sys2Proof.Proofs

open Sys2Proof Sys2Proof.Machine

/-! ### Spills of the operand stack into plain words (R151, R176) -/

/-- Words stored one after another, as a spill stores the entries, deepest first. -/
def spilledInto (t : Tid) : State → Nat → List TWord → State
  | s, _, [] => s
  | s, a, w :: ws => spilledInto t (banked s t a w) (a + 8) ws

/-- Words of a scratch bank that take spilled entries. -/
structure SpillsPlain (s : State) (t : Tid) (a n : Nat) : Prop where
  inject : NoInjection s t
  spot : ∀ k < n, s.panelSpot t.panel (a + 8 * k) = .mem t.panel (a + 8 * k) .bank
  fresh : ∀ k < n, ∀ x ∈ s.bankWrites, (x.1, x.2.2) ≠ (t.panel.val, a + 8 * k)
  low : ∀ k < n, a + 8 * k < 0x1C0000

theorem SpillsPlain.next {s : State} {t : Tid} {a n : Nat} (h : SpillsPlain s t a (n + 1)) (w : TWord) :
    SpillsPlain (banked s t a w) t (a + 8) n where
  inject := h.inject
  spot k hk := by
    rw [Nat.add_assoc, Nat.add_comm 8, ← Nat.mul_succ]
    exact h.spot (k + 1) (by omega)
  fresh k hk x hx := by
    rw [Nat.add_assoc, Nat.add_comm 8, ← Nat.mul_succ]
    rw [banked_bankWrites, List.mem_cons] at hx
    rcases hx with rfl | hx
    · intro heq
      have : a = a + 8 * (k + 1) := (Prod.mk.inj heq).2
      omega
    · exact h.fresh (k + 1) (by omega) x hx
  low k hk := by
    have := h.low (k + 1) (by omega)
    omega

theorem stackAddr_of_low (s : State) (p t : Nat) {a : Nat} (h : a < 0x1C0000) : s.stackAddr p t a = true := by
  have hdev : deviceSpace a = false := by
    rw [deviceSpace, Bool.and_eq_false_iff, decide_eq_false_iff_not]
    exact .inl (by omega)
  unfold State.stackAddr
  rw [hdev, decide_eq_false (show ¬ 0x1C0000 ≤ a by omega), Bool.and_false]
  rfl

/-- One entry spilled. -/
theorem spillOne_plain {s : State} {t : Tid} {a n : Nat} {th : Thread} {l : List Slot} {w : TWord}
    (h : SpillsPlain s t a (n + 1)) (had : th.adopted = none)
    (hj : (s.setThread t.panel t.index th).journaled t.panel t.index = false) (hpriv : th.status.getLsbD 8 = true)
    (hosp : th.osp.toNat = a) (hhi : a + 8 ≤ th.osHi.toNat) (hstack : th.stack = l ++ [.word w]) :
    (s.setThread t.panel t.index th).spillOne t.panel t.index
      = .ok ((banked s t a w).setThread t.panel t.index { th with osp := BitVec.ofNat 64 (a + 8), stack := l }) := by
  have hat : (s.setThread t.panel t.index th).thread t.panel t.index = th := Laws.thread_setThread ..
  have hpush := pushWord_bank (s := s.setThread t.panel t.index th) (t := t) (a := a) h.inject
    (by rw [at_setThread]; exact had) hj (h.spot 0 (Nat.succ_pos n)) (h.fresh 0 (Nat.succ_pos n)) w
  have haddr : (s.setThread t.panel t.index th).stackAddr t.panel t.index a = true :=
    stackAddr_of_low _ _ _ (h.low 0 (Nat.succ_pos n))
  have hframe : frameRefused th w = false := not_frameRefused_of_priv (fun _ => hpriv)
  have hlast : th.stack.getLast? = some (.word w) := by rw [hstack, List.getLast?_append, List.getLast?_singleton]; rfl
  unfold State.spillOne
  rw [hat]
  dsimp only
  rw [hlast, hosp]
  dsimp only
  rw [if_neg (by omega), hframe, if_neg Bool.false_ne_true, haddr, if_neg (by decide), hpush, banked_setThread]
  dsimp only
  rw [Laws.thread_setThread, Laws.setThread_setThread, hstack, List.dropLast_concat]

theorem spillTo_plain {t : Tid} (ws : List TWord) {s : State} {a : Nat} {th : Thread} (h : SpillsPlain s t a ws.length)
    (had : th.adopted = none) (hj : (s.setThread t.panel t.index th).journaled t.panel t.index = false)
    (hpriv : th.status.getLsbD 8 = true) (hosp : th.osp.toNat = a) (hhi : a + 8 * ws.length ≤ th.osHi.toNat)
    (hstack : th.stack = ws.reverse.map Slot.word) :
    (s.setThread t.panel t.index th).spillTo t.panel t.index 0 ws.length
      = .ok ((spilledInto t s a ws).setThread t.panel t.index
          { th with osp := BitVec.ofNat 64 (a + 8 * ws.length), stack := [] }) := by
  induction ws generalizing s a th with
  | nil =>
    have hth : th = { th with osp := BitVec.ofNat 64 (a + 8 * 0), stack := [] } := by
      rw [Nat.mul_zero, Nat.add_zero, ← hosp, BitVec.ofNat_toNat, BitVec.setWidth_eq,
        ← show th.stack = [] from hstack]
    exact congrArg (fun x => Except.ok (s.setThread t.panel t.index x)) hth
  | cons w ws ih =>
    rw [List.length_cons] at h hhi
    have htop := th.osHi.isLt
    rw [List.reverse_cons, List.map_append] at hstack
    have hone := spillOne_plain h had hj hpriv hosp (by omega) hstack
    have hlen : ¬ ((s.setThread t.panel t.index th).thread t.panel t.index).stack.length ≤ 0 := by
      rw [Laws.thread_setThread, hstack, List.length_append]
      exact Nat.not_le.mpr (Nat.succ_pos _)
    rw [List.length_cons, State.spillTo, if_neg hlen, hone]
    dsimp only
    have hj' : ((banked s t a w).setThread t.panel t.index
        { th with osp := BitVec.ofNat 64 (a + 8), stack := ws.reverse.map Slot.word }).journaled t.panel t.index = false := by
      have hsame := journaled_setThread (s := (banked s t a w).setThread t.panel t.index th) (t := t)
        (w := { th with osp := BitVec.ofNat 64 (a + 8), stack := ws.reverse.map Slot.word }) (by rw [at_setThread])
      rw [Laws.setThread_setThread] at hsame
      exact hsame.trans hj
    rw [ih (th := { th with osp := BitVec.ofNat 64 (a + 8), stack := ws.reverse.map Slot.word }) (h.next w) had hj' hpriv
      (by rw [BitVec.toNat_ofNat, Nat.mod_eq_of_lt (by omega)]) (by show _ ≤ th.osHi.toNat; omega) rfl,
      Nat.mul_succ, Nat.add_comm (8 * ws.length), ← Nat.add_assoc]
    rfl

/-- Nothing but the spilled words differs, and they are read back in their order. -/
theorem spilledInto_spec (t : Tid) (ws : List TWord) (s : State) (a : Nat) :
    OnlyWords s (spilledInto t s a ws) t.panel ((List.range ws.length).map (fun k => a + 8 * k))
      ∧ ∀ k < ws.length, some ((spilledInto t s a ws).word t.panel (a + 8 * k)) = ws[k]? := by
  induction ws generalizing s a with
  | nil => exact ⟨⟨rfl, fun _ _ _ => rfl⟩, fun k hk => absurd hk (Nat.not_lt_zero k)⟩
  | cons w ws ih =>
    obtain ⟨honly, hread⟩ := ih (banked s t a w) (a + 8)
    have hrest : ∀ k, a + 8 + 8 * k = a + 8 * (k + 1) := fun k => by omega
    refine ⟨?_, fun k hk => ?_⟩
    · have h := onlyWords_trans (onlyWords_banked s t a w) honly
      rw [List.length_cons, List.range_succ_eq_map, List.map_cons, List.map_map, Nat.mul_zero, Nat.add_zero]
      simp only [hrest] at h
      exact h
    · cases k with
      | zero =>
        have hout : memKey t.panel a ∉ ((List.range ws.length).map (fun k => a + 8 + 8 * k)).map (memKey t.panel) := by
          rw [List.map_map, List.mem_map]
          rintro ⟨k, -, hk⟩
          unfold memKey at hk
          simp only [Function.comp] at hk
          omega
        rw [Nat.mul_zero, Nat.add_zero, List.getElem?_cons_zero]
        exact congrArg some ((honly.2 t.panel a hout).trans ((word_banked ..).trans (if_pos rfl)))
      | succ k =>
        rw [List.getElem?_cons_succ, ← hrest]
        exact hread k (Nat.lt_of_succ_lt_succ hk)

/-! ### Writes of the operand stack's addresses (R176) -/

section
variable {s s1 : State} {t : Tid} {w : TWord} {below : List TWord}
variable (hready : Ready s t 3 s1) (hops : Operands s1 t [w] (below.map Slot.word))
  (hpriv : (s1.at t).status.getLsbD 8 = true)
  (hhi : (s1.at t).osp.toNat + 8 * below.length ≤ (s1.at t).osHi.toNat)
  (hwords : ∀ k : Nat, k < below.length → PlainWord s1 t ((s1.at t).osp.toNat + 8 * k))
  (hallow : Allowed (s1.at t).osp.toNat (8 * below.length))
include hready hwords hallow

theorem spillsPlain_of_allowed : SpillsPlain s1 t (s1.at t).osp.toNat below.length where
  inject := noInjection_of_ready hready
  spot k hk := (hwords k hk).1
  fresh k hk := (hwords k hk).2.2.2.1
  low k hk := by
    obtain ⟨-, -, -, hbank⟩ := hallow
    have := lt_of_panelSpot_bank (hwords k hk).1
    omega

variable (hplain : Plain s1 t)
include hpriv hhi hplain

/-- The write of one of the three, after its operand is popped. -/
theorem writeOperandStack_plain (f : Thread → Thread) :
    (popped s1 t (below.map Slot.word)).writeOperandStack t.panel t.index f
      = .ok ((spilledInto t s1 (s1.at t).osp.toNat below.reverse).setThread t.panel t.index
          (f { s1.at t with osp := BitVec.ofNat 64 ((s1.at t).osp.toNat + 8 * below.length), stack := [] })) := by
  have hspills := spillsPlain_of_allowed hready hwords hallow
  have hlen : ((popped s1 t (below.map Slot.word)).thread t.panel t.index).stack.length = below.reverse.length := by
    rw [show (popped s1 t (below.map Slot.word)).thread t.panel t.index = _ from at_popped .., List.length_reverse]
    exact List.length_map ..
  have hj : (popped s1 t (below.map Slot.word)).journaled t.panel t.index = false :=
    (journaled_setThread (w := { s1.at t with stack := below.map Slot.word }) rfl).trans hplain.1
  have hspill := spillTo_plain below.reverse (th := { s1.at t with stack := below.map Slot.word })
    (by rw [List.length_reverse]; exact hspills) hplain.2.1 hj hpriv rfl (by rw [List.length_reverse]; exact hhi)
    (by rw [List.reverse_reverse])
  unfold State.writeOperandStack
  rw [hlen]
  unfold popped
  rw [hspill, List.length_reverse]
  dsimp only
  rw [Laws.thread_setThread, Laws.setThread_setThread]

variable (hbits : isBits w = true)
include hops hbits

theorem srw_operandStack {num : Nat} (f : Thread → Thread) (hnum : specialAssigned num = true)
    (hwrite : (popped s1 t (below.map Slot.word)).writeSpecial t.panel t.index num (payload w)
      = (popped s1 t (below.map Slot.word)).writeOperandStack t.panel t.index f) {th : Thread}
    (hth : f { s1.at t with osp := BitVec.ofNat 64 ((s1.at t).osp.toNat + 8 * below.length), stack := [] }
      = { th with stack := [] }) (hpc : th.pc = (s1.at t).pc) :
    s.srw t num (fun _ => true)
      = ((spilledInto t s1 (s1.at t).osp.toNat below.reverse).setThread t.panel t.index th).goOn t 3 [] 0 := by
  have hshort : spillShort (s1.at t) num = false := by
    rw [← Bool.not_eq_true]
    unfold spillShort
    rw [hops.1]
    simp only [Bool.and_eq_true, decide_eq_true_eq, List.map_cons, List.map_nil, List.cons_append, List.nil_append,
      List.length_cons, List.length_map]
    omega
  have hdone := writeOperandStack_plain hready hpriv hhi hwords hallow hplain f
  rw [hth] at hdone
  refine (srw_next hready hops (.inl hpriv) hbits hnum hshort rfl (hwrite.trans hdone) ?_ (stack := []) ?_).trans ?_
  · exact (congrArg Thread.pc (at_setThread ..)).trans hpc
  · exact congrArg Thread.stack (at_setThread ..)
  · have h := goOn_popped ((spilledInto t s1 (s1.at t).osp.toNat below.reverse).setThread t.panel t.index th) t 3 [] [] 0
    unfold popped at h
    rw [at_setThread, Laws.setThread_setThread] at h
    exact h

end

theorem operandStackWritesSpillFirst : OperandStackWritesSpillFirst := by
  unfold OperandStackWritesSpillFirst
  intro s s1 t tag v below hready hplain htag hpriv hops
  have hbits : isBits (tword tag v) = true := isBits_tword htag v
  have hvalue : payload (tword tag v) = v := payload_tword tag v
  generalize tword tag v = w at hops hbits hvalue
  subst hvalue
  intro p osp addr n hhi hwords hallow
  obtain ⟨honly, hread⟩ := spilledInto_spec t below.reverse s1 osp
  rw [List.length_reverse] at honly hread
  refine ⟨spilledInto t s1 osp below.reverse, honly, hread, ?_, ?_, ?_⟩
  · exact congrArg Host.Outcome.next (srw_operandStack hready hops hpriv hhi hwords hallow hplain hbits
      (fun th => { th with osp := addr }) (th := { s1.at t with osp := addr }) rfl rfl rfl rfl)
  · exact congrArg Host.Outcome.next (srw_operandStack hready hops hpriv hhi hwords hallow hplain hbits
      (fun th => { th with osLo := addr }) (th := { s1.at t with
        osp := BitVec.ofNat 64 (osp + 8 * n)
        osLo := addr }) rfl rfl rfl rfl)
  · exact congrArg Host.Outcome.next (srw_operandStack hready hops hpriv hhi hwords hallow hplain hbits
      (fun th => { th with osHi := addr }) (th := { s1.at t with
        osp := BitVec.ofNat 64 (osp + 8 * n)
        osHi := addr }) rfl rfl rfl rfl)

/-- Settles O30: each register by its number; a write of the operand stack's addresses by induction on the entries that
it spills. -/
theorem specialRegistersReadAndWrite : Obligations.SpecialRegistersReadAndWrite :=
  ⟨specialRegistersRead, specialRegistersWrite, operandStackWritesSpillFirst⟩

end Sys2Proof.Proofs
end

section
/-! PROOFS. Signed fields and the discipline of canvas time. Settles O8. -/

namespace Sys2Proof.Proofs

open Sys2Proof Sys2Proof.Machine

/-! ### Signed fields -/

/-- The low bits of an integer within their range have that integer as their two's complement value. -/
theorem signed_unsign {w : Nat} {v : Int} (hlo : -2 ^ w ≤ 2 * v) (hhi : 2 * v < 2 ^ w) :
    signed w (unsign w v % 2 ^ w) = v := by
  have hpow : (0 : Int) < 2 ^ w := by positivity
  have hcast : ((2 ^ w : Nat) : Int) = 2 ^ w := by push_cast; rfl
  have hmod := Int.emod_nonneg v hpow.ne'
  have hlt := Int.emod_lt_of_pos v hpow
  have hunsign : unsign w v % 2 ^ w = (v % 2 ^ w).toNat := Nat.mod_eq_of_lt (by unfold unsign; omega)
  have hval : signed w (unsign w v % 2 ^ w)
      = if 2 * (v % 2 ^ w) < 2 ^ w then v % 2 ^ w else v % 2 ^ w - 2 ^ w := by
    have htoNat : ((v % 2 ^ w).toNat : Int) = v % 2 ^ w := Int.toNat_of_nonneg hmod
    unfold signed
    rw [Nat.mod_mod, hunsign]
    dsimp only
    rw [htoNat]
    exact if_congr (by omega) rfl rfl
  rw [hval]
  rcases le_or_gt 0 v with h | h
  · rw [Int.emod_eq_of_lt h (by omega), if_pos hhi]
  · have hv : v % 2 ^ w = v + 2 ^ w := by
      rw [← Int.add_emod_right, Int.emod_eq_of_lt (by omega) (by omega)]
    rw [hv, if_neg (by omega), Int.add_sub_cancel]

/-- A signed field reads as the value written, where the field can hold it. -/
theorem sfld_setSfld_self (s : State) (pk : Nat) {f : Fld} {v : Int} (hf : fits f = true)
    (hlo : -2 ^ (f.hi + 1 - f.lo) ≤ 2 * v) (hhi : 2 * v < 2 ^ (f.hi + 1 - f.lo)) :
    (s.setSfld pk f v).sfld pk f = v := by
  unfold State.sfld State.setSfld
  rw [fld_setFld_self s pk _ hf, signed_unsign hlo hhi]

theorem signed_bounds (w n : Nat) : -2 ^ w ≤ 2 * signed w n ∧ 2 * signed w n < 2 ^ w := by
  have hlt : n % 2 ^ w < 2 ^ w := Nat.mod_lt _ (by positivity)
  have hcast : ((2 ^ w : Nat) : Int) = 2 ^ w := by push_cast; rfl
  unfold signed
  generalize n % 2 ^ w = m at hlt
  dsimp only
  split <;> omega

theorem sfld_of_fld {s u : State} {pk : Nat} {f : Fld} (h : u.fld pk f = s.fld pk f) : u.sfld pk f = s.sfld pk f :=
  congrArg (signed (f.hi + 1 - f.lo)) h

theorem clampInt_spec {v lo hi : Int} (h : lo ≤ hi) : lo ≤ clampInt v lo hi ∧ clampInt v lo hi ≤ hi := by
  unfold clampInt
  split
  · omega
  · split <;> omega

/-! ### The discipline of canvas time (R28, R30 to R34) -/

theorem source_canv {b : Nat} (hb : b ≤ 9) : (sourceOf canvPage b).isSome = true := by
  interval_cases b <;> rfl

theorem tickDiscipline_step {s : State} (hgoal : s.adjGoal.natAbs ≤ 25000) :
    ((s.tickDiscipline).sfld canvPage CANV_DISC_STATUS.FREQ_ADJ - s.sfld canvPage CANV_DISC_STATUS.FREQ_ADJ).natAbs ≤ 1 := by
  unfold State.tickDiscipline
  generalize hnow : s.sfld canvPage CANV_DISC_STATUS.FREQ_ADJ = now
  dsimp only
  split
  · rw [hnow, Int.sub_self]; exact Nat.zero_le 1
  · next hmoves =>
    obtain ⟨hmin, hmax⟩ : -2 ^ 16 ≤ 2 * now ∧ 2 * now < 2 ^ 16 := by
      rw [← hnow]
      exact signed_bounds 16 _
    have hne : s.adjGoal ≠ now := fun h => hmoves (.inr (.inr (.inl h)))
    change (State.sfld (s.setSfld canvPage CANV_DISC_STATUS.FREQ_ADJ (if now < s.adjGoal then now + 1 else now - 1))
      canvPage CANV_DISC_STATUS.FREQ_ADJ - now).natAbs ≤ 1
    rw [sfld_setSfld_self s canvPage rfl]
    · split <;> omega
    · change -2 ^ 16 ≤ _
      split <;> omega
    · change _ < 2 ^ 16
      split <;> omega

theorem tickDiscipline_of_recent {s : State} (h : s.ticks < s.lastAdj + 25000) : s.tickDiscipline = s :=
  if_pos (.inr (.inr (.inr h)))

theorem loseSource_of_source {s : State} (hsource : s.fld canvPage CANV_DISC.SOURCE ≠ 0)
    (hhold : s.flag canvPage CANV_DISC_STATUS.HOLDOVER = false) :
    s.loseSource = (
      let u := (s.setFld canvPage CANV_DISC_STATUS.HOLDOVER 1).raise canvPage 7
      if s.fld canvPage CANV_DISC.SOURCE = 2 then
        u.setPtpSync (s.fld canvPage CANV_DISC.PTP_PANEL) (s.fld canvPage CANV_DISC.PTP_PORT) false
      else u) := by
  refine if_neg (not_or.mpr ⟨hsource, ?_⟩)
  rw [hhold]
  exact Bool.false_ne_true

/-- What a measurement's slew leaves: the registers stand, and the goal lies within the limit, on the side that takes
the offset toward zero. -/
structure Slews (s u : State) (o : Int) : Prop where
  regs : u.regs = s.regs
  canvas : u.canvas = s.canvas
  bad : u.syncBad = s.syncBad
  bounded : u.adjGoal.natAbs ≤ 5000 * s.fld canvPage CANV_DISC.SLEW_LIMIT
  toward : let limit := s.slewLimit
    let now := clampInt (s.sfld canvPage CANV_DISC_STATUS.FREQ_ADJ) (-limit) limit
    (0 < o → u.adjGoal ≤ now) ∧ (o < 0 → now ≤ u.adjGoal) ∧ (64000 < o → u.adjGoal = -limit)
      ∧ (o < -64000 → u.adjGoal = limit)

theorem slews_slew {s : State} (hhold : s.flag canvPage CANV_DISC_STATUS.HOLDOVER = false) (o : Int) :
    Slews s (s.slew o) o := by
  have hlimit : s.slewLimit = 5000 * s.fld canvPage CANV_DISC.SLEW_LIMIT := rfl
  obtain ⟨hlo, hhi⟩ := clampInt_spec (v := s.sfld canvPage CANV_DISC_STATUS.FREQ_ADJ)
    (lo := -s.slewLimit) (hi := s.slewLimit) (by omega)
  unfold State.slew
  rw [hhold, if_neg Bool.false_ne_true]
  generalize hnow : clampInt (s.sfld canvPage CANV_DISC_STATUS.FREQ_ADJ) (-s.slewLimit) s.slewLimit = now at *
  have goal : ∀ (u : State) (g : Int), u.regs = s.regs → u.canvas = s.canvas → u.syncBad = s.syncBad →
      -s.slewLimit ≤ g → g ≤ s.slewLimit → (0 < o → g ≤ now) → (o < 0 → now ≤ g) →
      (64000 < o → g = -s.slewLimit) → (o < -64000 → g = s.slewLimit) → Slews s { u with adjGoal := g } o := by
    intro u g hr hc hb h1 h2 h3 h4 h5 h6
    refine ⟨hr, hc, hb, ?_, ?_⟩
    · change g.natAbs ≤ _
      omega
    · dsimp only
      rw [hnow]
      exact ⟨h3, h4, h5, h6⟩
  dsimp only
  split
  · exact goal s _ rfl rfl rfl (by omega) (by omega) (by omega) (by omega) (by omega) (by omega)
  split
  · exact goal s _ rfl rfl rfl (by omega) (by omega) (by omega) (by omega) (by omega) (by omega)
  split
  · exact goal s _ rfl rfl rfl (by omega) (by omega) (by omega) (by omega) (by omega) (by omega)
  generalize (s.fresh.1.toNat : Int) = v
  split
  · have h0 := Int.emod_nonneg v (b := now + s.slewLimit + 1) (by omega)
    have h1 := Int.emod_lt_of_pos v (b := now + s.slewLimit + 1) (by omega)
    exact goal s.fresh.2 _ rfl rfl rfl (by omega) (by omega) (by omega) (by omega) (by omega) (by omega)
  · have h0 := Int.emod_nonneg v (b := s.slewLimit - now + 1) (by omega)
    have h1 := Int.emod_lt_of_pos v (b := s.slewLimit - now + 1) (by omega)
    exact goal s.fresh.2 _ rfl rfl rfl (by omega) (by omega) (by omega) (by omega) (by omega) (by omega)

/-- A measurement of the offset: what the registers then hold, and the goal slewed to. -/
structure Measures (s u : State) (o : Int) : Prop where
  canvas : u.canvas = s.canvas
  bad : u.syncBad = s.syncBad
  adj : u.fld canvPage CANV_DISC_STATUS.FREQ_ADJ = s.fld canvPage CANV_DISC_STATUS.FREQ_ADJ
  offset : u.sfld canvPage CANV_DISC_STATUS.OFFSET = o
  bounded : u.adjGoal.natAbs ≤ 5000 * s.fld canvPage CANV_DISC.SLEW_LIMIT
  toward : let limit := s.slewLimit
    let now := clampInt (s.sfld canvPage CANV_DISC_STATUS.FREQ_ADJ) (-limit) limit
    (0 < o → u.adjGoal ≤ now) ∧ (o < 0 → now ≤ u.adjGoal) ∧ (64000 < o → u.adjGoal = -limit)
      ∧ (o < -64000 → u.adjGoal = limit)

/-- What a measurement shows in the registers before the discipline slews. -/
def shownOffset (s : State) (o : Int) (far locked : Nat) (run : Nat) (raise8 raise6 : Bool) : State :=
  (({ ((s.setSfld canvPage CANV_DISC_STATUS.OFFSET o).setFld canvPage CANV_DISC_STATUS.OVER_LIMIT far).setFld canvPage
    CANV_DISC_STATUS.LOCKED locked with syncRun := run }).raiseIf raise8 canvPage 8).raiseIf raise6 canvPage 6

theorem fld_syncRun (s : State) (n pk : Nat) (f : Fld) : ({ s with syncRun := n }).fld pk f = s.fld pk f := rfl

theorem fld_shownOffset (s : State) (o : Int) (far locked run : Nat) (b8 b6 : Bool) {f : Fld} (hf : fits f = true)
    (hoff : f.off ≠ 0x020) (h1 : apart CANV_DISC_STATUS.OFFSET f = true) (h2 : apart CANV_DISC_STATUS.OVER_LIMIT f = true)
    (h3 : apart CANV_DISC_STATUS.LOCKED f = true) :
    (shownOffset s o far locked run b8 b6).fld canvPage f = s.fld canvPage f := by
  unfold shownOffset
  rw [fld_raiseIf _ _ _ _ _ hf hoff, fld_raiseIf _ _ _ _ _ hf hoff, fld_syncRun, fld_setFld_of_apart _ _ _ rfl hf h3,
    fld_setFld_of_apart _ _ _ rfl hf h2]
  exact fld_setFld_of_apart _ _ _ rfl hf h1

theorem sfld_offset_shownOffset (s : State) {o : Int} (hlo : -2 ^ 31 ≤ o) (hhi : o ≤ 2 ^ 31 - 1)
    (far locked run : Nat) (b8 b6 : Bool) :
    (shownOffset s o far locked run b8 b6).sfld canvPage CANV_DISC_STATUS.OFFSET = o := by
  refine (sfld_of_fld (s := s.setSfld canvPage CANV_DISC_STATUS.OFFSET o) ?_).trans
    (sfld_setSfld_self s canvPage rfl ?_ ?_)
  · unfold shownOffset
    rw [fld_raiseIf _ _ _ _ _ rfl (by decide), fld_raiseIf _ _ _ _ _ rfl (by decide), fld_syncRun,
      fld_setFld_of_apart _ _ _ rfl rfl rfl, fld_setFld_of_apart _ _ _ rfl rfl rfl]
  · change -2 ^ 32 ≤ _
    omega
  · change _ < 2 ^ 32
    omega

theorem measure_eq (s : State) (offset : Int) : ∃ far locked run b8 b6, s.measure offset
    = (shownOffset s (clampInt offset (-2 ^ 31) (2 ^ 31 - 1)) far locked run b8 b6).slew
      (clampInt offset (-2 ^ 31) (2 ^ 31 - 1)) := by
  unfold State.measure shownOffset
  generalize clampInt offset (-2 ^ 31) (2 ^ 31 - 1) = o
  exact ⟨_, _, _, _, _, rfl⟩

theorem canvas_setFld (s : State) (pk : Nat) (f : Fld) (v : Nat) : (s.setFld pk f v).canvas = s.canvas := rfl

theorem syncBad_setFld (s : State) (pk : Nat) (f : Fld) (v : Nat) : (s.setFld pk f v).syncBad = s.syncBad := rfl

theorem canvas_raiseIf (s : State) (c : Bool) (pk b : Nat) : (s.raiseIf c pk b).canvas = s.canvas :=
  raiseIf_keeps State.canvas s c pk b fun _ _ _ _ _ _ _ => rfl

theorem syncBad_raiseIf (s : State) (c : Bool) (pk b : Nat) : (s.raiseIf c pk b).syncBad = s.syncBad :=
  raiseIf_keeps State.syncBad s c pk b fun _ _ _ _ _ _ _ => rfl

theorem canvas_shownOffset (s : State) (o : Int) (far locked run : Nat) (b8 b6 : Bool) :
    (shownOffset s o far locked run b8 b6).canvas = s.canvas := by
  unfold shownOffset State.setSfld
  rw [canvas_raiseIf, canvas_raiseIf]
  dsimp only
  rw [canvas_setFld, canvas_setFld, canvas_setFld]

theorem syncBad_shownOffset (s : State) (o : Int) (far locked run : Nat) (b8 b6 : Bool) :
    (shownOffset s o far locked run b8 b6).syncBad = s.syncBad := by
  unfold shownOffset State.setSfld
  rw [syncBad_raiseIf, syncBad_raiseIf]
  dsimp only
  rw [syncBad_setFld, syncBad_setFld, syncBad_setFld]

theorem measures_measure {s : State} (hhold : s.flag canvPage CANV_DISC_STATUS.HOLDOVER = false) (offset : Int) :
    Measures s (s.measure offset) (clampInt offset (-2 ^ 31) (2 ^ 31 - 1)) := by
  obtain ⟨far, locked, run, b8, b6, hmeasure⟩ := measure_eq s offset
  obtain ⟨hlo, hhi⟩ := clampInt_spec (v := offset) (lo := -2 ^ 31) (hi := 2 ^ 31 - 1) (by omega)
  rw [hmeasure]
  generalize clampInt offset (-2 ^ 31) (2 ^ 31 - 1) = o at *
  have hoffset := sfld_offset_shownOffset s hlo hhi far locked run b8 b6
  have hfld := fun {f} => fld_shownOffset s o far locked run b8 b6 (f := f)
  have hcanvas := canvas_shownOffset s o far locked run b8 b6
  have hbad := syncBad_shownOffset s o far locked run b8 b6
  generalize shownOffset s o far locked run b8 b6 = u at *
  have hadj := hfld (f := CANV_DISC_STATUS.FREQ_ADJ) rfl (by decide) rfl rfl rfl
  have hlimit := hfld (f := CANV_DISC.SLEW_LIMIT) rfl (by decide) rfl rfl rfl
  have hslew : u.slewLimit = s.slewLimit := by unfold State.slewLimit; rw [hlimit]
  have hheld : u.flag canvPage CANV_DISC_STATUS.HOLDOVER = false := by
    rw [flag_eq, hfld (f := CANV_DISC_STATUS.HOLDOVER) rfl (by decide) rfl rfl rfl, ← flag_eq, hhold]
  obtain ⟨hregs, hcanvas', hbad', hbounded, htoward⟩ := slews_slew hheld o
  rw [hslew, sfld_of_fld hadj] at htoward
  rw [hlimit] at hbounded
  exact ⟨hcanvas'.trans hcanvas, hbad'.trans hbad, (fld_of_regs hregs _ _).trans hadj,
    (sfld_of_fld (fld_of_regs hregs _ _)).trans hoffset, hbounded, htoward⟩

/-- The second bad frame in a row loses the source. -/
theorem loseSource_of_badFrame {s : State} (hsource : s.fld canvPage CANV_DISC.SOURCE = 1)
    (hhold : s.flag canvPage CANV_DISC_STATUS.HOLDOVER = false) (n : Nat) :
    let t := (({ s with syncBad := n }).raise canvPage 9).loseSource
    t.flag canvPage CANV_DISC_STATUS.HOLDOVER = true
      ∧ t.fld canvPage CANV_DISC_STATUS.FREQ_ADJ = s.fld canvPage CANV_DISC_STATUS.FREQ_ADJ := by
  have hfld : ∀ {f : Fld}, fits f = true → f.off ≠ 0x020 →
      (({ s with syncBad := n }).raise canvPage 9).fld canvPage f = s.fld canvPage f := fun hf hoff =>
    (fld_raise _ _ _ _ hf hoff).trans (fld_of_regs rfl _ _)
  generalize ({ s with syncBad := n }).raise canvPage 9 = u at hfld
  have hs : u.fld canvPage CANV_DISC.SOURCE = 1 := (hfld rfl (by decide)).trans hsource
  have hh : u.flag canvPage CANV_DISC_STATUS.HOLDOVER = false := by
    rw [flag_eq, hfld rfl (by decide), ← flag_eq, hhold]
  rw [loseSource_of_source (by omega) hh]
  dsimp only
  rw [if_neg (by omega), flag_eq, fld_raise _ _ _ _ rfl (by decide), fld_setFld_self _ _ _ rfl,
    fld_raise _ _ _ _ rfl (by decide), fld_setFld_of_apart _ _ _ rfl rfl rfl, hfld rfl (by decide)]
  exact ⟨rfl, rfl⟩

theorem syncFrame_bad {s : State} {frame : BitVec 128} (sub : Fin 64) (hsource : s.fld canvPage CANV_DISC.SOURCE = 1)
    (hbad : frame.extractLsb' 112 16 ≠ 0xE5A3#16 ∨ frame.extractLsb' 0 16 ≠ syncCheck frame) :
    exec (.syncFrameReceived frame sub) s = .next (
      let s1 := ({ s with syncBad := s.syncBad + 1 }).raise canvPage 9
      if 2 ≤ s1.syncBad then s1.loseSource else s1) := by
  change execSyncFrameReceived frame sub s = _
  unfold execSyncFrameReceived
  rw [if_neg (by omega), if_pos hbad]

theorem syncFrame_good {s : State} {frame : BitVec 128} (sub : Fin 64) (hsource : s.fld canvPage CANV_DISC.SOURCE = 1)
    (hgood : ¬ (frame.extractLsb' 112 16 ≠ 0xE5A3#16 ∨ frame.extractLsb' 0 16 ≠ syncCheck frame)) :
    exec (.syncFrameReceived frame sub) s = .next (({ s with syncBad := 0 }).measure
      ((s.canvas * 64 + sub.val : Nat) - ((frame.extractLsb' 48 64).toNat * 64
        + s.fld canvPage CANV_SYNC_DELAY.DELAY : Nat))) := by
  change execSyncFrameReceived frame sub s = _
  unfold execSyncFrameReceived
  rw [if_neg (by omega), if_neg hgood]

theorem syncBad_badFrame (s : State) (n : Nat) : (({ s with syncBad := n }).raise canvPage 9).syncBad = n :=
  raise_keeps State.syncBad _ _ _ fun _ _ _ _ _ _ _ => rfl

/-- Settles O8, by the cases of a sync frame and of what a measurement slews to. -/
theorem disciplineFollowsItsSource : Obligations.DisciplineFollowsItsSource := by
  unfold Obligations.DisciplineFollowsItsSource
  intro s
  refine ⟨fun hgoal => ⟨tickDiscipline_step hgoal, tickDiscipline_of_recent⟩,
    fun hsource hhold => congrArg Host.Outcome.next (loseSource_of_source hsource hhold),
    fun hhold => if_pos hhold, ?_⟩
  intro frame sub hsource
  refine ⟨fun hbad hrun => ?_, fun hbad hrun hhold => ?_, fun hgood hhold => ?_⟩
  · rw [syncFrame_bad sub hsource hbad, hrun]
    dsimp only
    rw [syncBad_badFrame]
    rfl
  · refine ⟨_, syncFrame_bad sub hsource hbad, ?_⟩
    dsimp only
    rw [syncBad_badFrame, if_pos (by omega)]
    exact loseSource_of_badFrame hsource hhold _
  · have hclean : ({ s with syncBad := 0 } : State).flag canvPage CANV_DISC_STATUS.HOLDOVER = false := hhold
    obtain ⟨hcanvas, hclear, hadj, hoffset, hbounded, htoward⟩ := measures_measure hclean
      ((s.canvas * 64 + sub.val : Nat) - ((frame.extractLsb' 48 64).toNat * 64
        + s.fld canvPage CANV_SYNC_DELAY.DELAY : Nat))
    refine ⟨_, syncFrame_good sub hsource hgood, hclear, hcanvas, hadj, hbounded, ?_, hoffset⟩
    rw [← hoffset] at htoward
    exact htoward

end Sys2Proof.Proofs
end

section
/-! PROOFS. The wipe of the keys, and the slots that it leaves. -/

namespace Sys2Proof.Proofs

open Sys2Proof Sys2Proof.Machine

/-! ### Wipes of memory -/

theorem read_filter {α : Type} (d : α) (m : Store α) (keep : Nat → Bool) (k : Nat) :
    Store.read d (m.filter (fun e => keep e.1)) k = if keep k then Store.read d m k else d := by
  induction m with
  | nil => exact (ite_self d).symm
  | cons e m ih =>
    obtain ⟨j, v⟩ := e
    rw [List.filter_cons]
    by_cases hj : keep j = true
    · rw [if_pos hj]
      by_cases hjk : j = k
      · subst hjk
        rw [if_pos hj]
        change (if j = j then v else _) = if j = j then v else _
        rw [if_pos rfl, if_pos rfl]
      · change (if j = k then v else _) = if keep k then (if j = k then v else _) else d
        rw [if_neg hjk, if_neg hjk]
        exact ih
    · rw [if_neg hj, ih]
      by_cases hk : keep k = true
      · have hjk : j ≠ k := fun h => hj (h ▸ hk)
        change _ = if keep k then (if j = k then v else _) else d
        rw [if_neg hjk]
      · rw [if_neg hk, if_neg hk]

theorem word_wipe (s : State) (p first size q a : Nat) :
    (s.wipe p first size).word q a
      = if memKey p first ≤ memKey q a ∧ memKey q a < memKey p (first + size) then voidWord else s.word q a := by
  refine (read_filter voidWord s.mem (fun k => decide (k < memKey p first) || decide (memKey p (first + size) ≤ k))
    (memKey q a)).trans ?_
  by_cases h : memKey p first ≤ memKey q a ∧ memKey q a < memKey p (first + size)
  · rw [if_pos h, if_neg]
    rw [Bool.or_eq_true, decide_eq_true_eq, decide_eq_true_eq]
    omega
  · rw [if_neg h, if_pos]
    · rfl
    · rw [Bool.or_eq_true, decide_eq_true_eq, decide_eq_true_eq]
      omega

/-! ### The wipe of the keys (R355, R357) -/

theorem word_clearBank7 (s : State) {p q a : Nat} (ha : a < 2 ^ 48) :
    (s.clearBank p 7).word q a = if q = p ∧ 0x1C0000 ≤ a ∧ a < 0x200000 then voidWord else s.word q a := by
  refine (word_wipe s p (7 * 0x40000) 0x40000 q a).trans (if_congr ?_ rfl rfl)
  unfold memKey
  omega

theorem wipeBank7_keeps {α : Type} (g : State → α) (s : State) (p : Nat)
    (hg : ∀ u r n m b po fl pa, g { u with regs := r, setNow := n, mem := m, badWords := b, poisoned := po, flips := fl, panels := pa } = g u) :
    g (s.wipeBank7 p) = g s :=
  hg s _ _ _ _ _ _ _

theorem word_wipeBank7 (s : State) {p q a : Nat} (ha : a < 2 ^ 48) :
    (s.wipeBank7 p).word q a = if q = p ∧ 0x1C0000 ≤ a ∧ a < 0x200000 then voidWord else s.word q a := by
  have hmem : (s.wipeBank7 p).mem = (s.clearBank p 7).mem := rfl
  exact (congrArg (Store.read voidWord · (memKey q a)) hmem).trans (word_clearBank7 s ha)

theorem panel_setPanel_self (s : State) (p : Nat) (v : Panel) : (s.setPanel p v).panel p = v :=
  Laws.read_write_self _ _ _ _

theorem panel_setPanel_ne (s : State) {p q : Nat} (v : Panel) (h : q ≠ p) : (s.setPanel p v).panel q = s.panel q :=
  Laws.read_write_ne _ _ _ _ _ _ h

theorem panel_setFld (s : State) (pk : Nat) (f : Fld) (v q : Nat) : (s.setFld pk f v).panel q = s.panel q := rfl

theorem wipe_wipeBank7 (s : State) (p q : Nat) :
    ((s.wipeBank7 p).panel q).wipeBank7 = (decide (q = p) || (s.panel q).wipeBank7) := by
  unfold State.wipeBank7
  rw [panel_setFld]
  by_cases h : q = p
  · rw [h, panel_setPanel_self, decide_eq_true rfl, Bool.true_or]
  · rw [panel_setPanel_ne _ _ h, decide_eq_false h, Bool.false_or]
    rfl

theorem reg_wipeBank7 (s : State) (p : Nat) {q o : Nat} (ho : o < 4096) (hq : q ≠ scrPage p) :
    (s.wipeBank7 p).reg q o = s.reg q o := by
  unfold State.wipeBank7
  exact (reg_setFld_ne _ _ _ ho (by change 0x108 < 4096; decide) (fun h => hq (Prod.mk.inj h).1)).trans rfl

theorem setFld_keeps {α : Type} (g : State → α) (s : State) (pk : Nat) (f : Fld) (v : Nat)
    (hg : ∀ u r, g { u with regs := r } = g u) : g (s.setFld pk f v) = g s := hg s _

theorem showSlots_keeps {α : Type} (g : State → α) (s : State) (hg : ∀ u r, g { u with regs := r } = g u) :
    g s.showSlots = g s := by
  unfold State.showSlots
  split <;> simp only [setFld_keeps g _ _ _ _ hg]

theorem reg_showSlots (s : State) {q o : Nat} (ho : o < 4096) (hq : q ≠ upntPage) : s.showSlots.reg q o = s.reg q o := by
  have hne : ∀ (u : State) (f : Fld) (v : Nat), f.off < 4096 → (u.setFld upntPage f v).reg q o = u.reg q o :=
    fun u f v hf => reg_setFld_ne u f v ho hf fun h => hq (Prod.mk.inj h).1
  unfold State.showSlots
  split
  · rw [hne _ _ _ (by decide), hne _ _ _ (by decide), hne _ _ _ (by decide)]
  · rw [hne _ _ _ (by decide), hne _ _ _ (by decide), hne _ _ _ (by decide), hne _ _ _ (by decide),
      hne _ _ _ (by decide)]

/-- A slot without its secure sub-slot. -/
def bareSlot (v : Variant) (x : Option Painting) : Option Painting :=
  x.map (fun p => if p.valid v then ({ p with secure := [] }).sealed else ({ p with secure := [] }).spoiled)

/-- The state with its commit given up, which ends in failure. -/
def commitGivenUp (s : State) : State :=
  if s.commit.isSome then
    ((s.loseCommit.setFld upntPage UPNT_STATUS.BUSY 0).setFld upntPage UPNT_STATUS.FAILED 1).raise upntPage 1 else s

/-- The state with bank 7 of every panel wiped. -/
def banksWiped (s : State) : State := s.slices.foldl (fun u p => u.wipeBank7 p) (commitGivenUp s)

theorem wipeKeys_eq (s : State) : s.wipeKeys = ({ banksWiped s with
    slotA := bareSlot s.variant (banksWiped s).slotA,
    slotB := bareSlot s.variant (banksWiped s).slotB }).showSlots := rfl

theorem loseCommit_keeps {α : Type} (g : State → α) (s : State)
    (hg : ∀ u c a b, g { u with commit := c, slotA := a, slotB := b } = g u) : g s.loseCommit = g s := by
  unfold State.loseCommit
  split
  · rfl
  · split
    · exact hg s _ s.slotA _
    · exact hg s _ _ s.slotB

theorem commitGivenUp_keeps {α : Type} (g : State → α) (s : State)
    (hraise : ∀ u r n a e v t, g { u with regs := r, setNow := n, evArrived := a, evPend := e, events := v, threads := t }
      = g u) (hslots : ∀ u c a b, g { u with commit := c, slotA := a, slotB := b } = g u) :
    g (commitGivenUp s) = g s := by
  unfold commitGivenUp
  split
  · have hregs : ∀ u r, g { u with regs := r } = g u := fun u r =>
      hraise u r u.setNow u.evArrived u.evPend u.events u.threads
    rw [raise_keeps g _ _ _ hraise, setFld_keeps g _ _ _ _ hregs, setFld_keeps g _ _ _ _ hregs]
    exact loseCommit_keeps g s hslots
  · rfl

theorem foldl_keeps {α β : Type} (g : State → α) {f : State → β → State} (hf : ∀ u x, g (f u x) = g u) (l : List β)
    (s : State) : g (l.foldl f s) = g s := by
  induction l generalizing s with
  | nil => rfl
  | cons x l ih => rw [List.foldl_cons, ih, hf]

theorem banksWiped_keeps {α : Type} (g : State → α) (s : State)
    (hg : ∀ u r n m b po fl pa, g { u with regs := r, setNow := n, mem := m, badWords := b, poisoned := po, flips := fl, panels := pa } = g u) :
    g (banksWiped s) = g (commitGivenUp s) :=
  foldl_keeps g (fun u p => wipeBank7_keeps g u p hg) _ _

/-- What concerns neither registers, events, threads, memory, panels nor slots is as it was before the keys are wiped. -/
theorem wipeKeys_keeps {α : Type} (g : State → α) (s : State)
    (hraise : ∀ u r n a e v t, g { u with regs := r, setNow := n, evArrived := a, evPend := e, events := v, threads := t }
      = g u) (hslots : ∀ u c a b, g { u with commit := c, slotA := a, slotB := b } = g u)
    (hwipe : ∀ u r n m b po fl pa, g { u with regs := r, setNow := n, mem := m, badWords := b, poisoned := po, flips := fl, panels := pa } = g u) :
    g s.wipeKeys = g s := by
  rw [wipeKeys_eq, showSlots_keeps g _ fun u r => hraise u r u.setNow u.evArrived u.evPend u.events u.threads]
  refine (hslots (banksWiped s) (banksWiped s).commit _ _).trans ?_
  rw [banksWiped_keeps g s hwipe, commitGivenUp_keeps g s hraise hslots]

theorem slots_commitGivenUp (s : State) :
    (commitGivenUp s).slotA = s.loseCommit.slotA ∧ (commitGivenUp s).slotB = s.loseCommit.slotB
      ∧ (commitGivenUp s).commit = none := by
  unfold commitGivenUp
  cases hc : s.commit with
  | none =>
    have hkeep : s.loseCommit = s := by unfold State.loseCommit; rw [hc]
    rw [hkeep]
    exact ⟨rfl, rfl, hc⟩
  | some c =>
    have hnone : s.loseCommit.commit = none := by
      unfold State.loseCommit
      rw [hc]
      dsimp only
      split <;> rfl
    rw [Option.isSome_some, if_pos rfl, raise_keeps State.slotA _ _ _ fun _ _ _ _ _ _ _ => rfl,
      raise_keeps State.slotB _ _ _ fun _ _ _ _ _ _ _ => rfl, raise_keeps State.commit _ _ _ fun _ _ _ _ _ _ _ => rfl]
    exact ⟨rfl, rfl, hnone⟩

theorem slots_wipeKeys (s : State) :
    s.wipeKeys.slotA = bareSlot s.variant s.loseCommit.slotA ∧ s.wipeKeys.slotB = bareSlot s.variant s.loseCommit.slotB
      ∧ s.wipeKeys.commit = none := by
  obtain ⟨ha, hb, hc⟩ := slots_commitGivenUp s
  rw [wipeKeys_eq, showSlots_keeps State.slotA _ fun _ _ => rfl, showSlots_keeps State.slotB _ fun _ _ => rfl,
    showSlots_keeps State.commit _ fun _ _ => rfl, ← ha, ← hb, ← hc]
  dsimp only
  rw [banksWiped_keeps State.slotA s fun _ _ _ _ _ _ _ _ => rfl, banksWiped_keeps State.slotB s fun _ _ _ _ _ _ _ _ => rfl,
    banksWiped_keeps State.commit s fun _ _ _ _ _ _ _ _ => rfl]
  exact ⟨rfl, rfl, rfl⟩

theorem secure_of_bareSlot {v : Variant} {y : Option Painting} {x : Painting} (h : bareSlot v y = some x) : x.secure = [] := by
  obtain ⟨p, -, hp⟩ := Option.map_eq_some_iff.mp h
  rw [← hp]
  split <;> rfl

theorem valid_sealed (v : Variant) (x : Painting) :
    (x.sealed).valid v = (decide (x.marker = slotMarker) && decide (x.variant = v)) := by
  have hsum : x.sealed.crc = x.sealed.sum := rfl
  unfold Painting.valid
  rw [decide_eq_true hsum, Bool.and_true]
  rfl

theorem valid_spoiled (v : Variant) (x : Painting) : (x.spoiled).valid v = false := by
  have hsum : x.spoiled.crc ≠ x.spoiled.sum := fun h => by
    have hnot : ~~~x.sum = x.sum := h
    have hbit := congrArg (fun w : BitVec 32 => w.getLsbD 0) hnot
    rw [BitVec.getLsbD_not] at hbit
    cases hx : x.sum.getLsbD 0 <;> rw [hx] at hbit <;> cases hbit
  unfold Painting.valid
  rw [decide_eq_false hsum, Bool.and_false]

theorem valid_bareSlot (v : Variant) (x : Option Painting) : (bareSlot v x).map (Painting.valid v) = x.map (Painting.valid v) := by
  cases x with
  | none => rfl
  | some p =>
    change some (Painting.valid v (if p.valid v then _ else _)) = some _
    congr 1
    by_cases hp : p.valid v = true
    · rw [if_pos hp, valid_sealed, hp]
      unfold Painting.valid at hp
      exact (Bool.and_eq_true_iff.mp hp).1
    · rw [if_neg hp, valid_spoiled]
      exact (Bool.eq_false_iff.mpr hp).symm

/-- What is wiped with the keys, and what stands. -/
theorem foldl_wipeBank7_spec (l : List Nat) {s u : State} (hu : l.foldl (fun v p => v.wipeBank7 p) s = u) :
    (∀ q, (u.panel q).wipeBank7 = (decide (q ∈ l) || (s.panel q).wipeBank7))
      ∧ ∀ q a : Nat, a < 2 ^ 48 →
        u.word q a = if q ∈ l ∧ 0x1C0000 ≤ a ∧ a < 0x200000 then voidWord else s.word q a := by
  induction l generalizing s with
  | nil =>
    subst hu
    exact ⟨fun q => by simp, fun q a _ => by simp⟩
  | cons p l ih =>
    rw [List.foldl_cons] at hu
    obtain ⟨hpanel, hword⟩ := ih hu
    refine ⟨fun q => ?_, fun q a ha => ?_⟩
    · rw [hpanel, wipe_wipeBank7, ← Bool.or_assoc]
      congr 1
      by_cases hq : q = p <;> simp [hq]
    · rw [hword q a ha, word_wipeBank7 s ha]
      by_cases hq : q = p <;> by_cases hl : q ∈ l <;> by_cases hr : 0x1C0000 ≤ a ∧ a < 0x200000 <;> simp [hq, hl, hr]

theorem mem_slices (s : State) (p : Nat) : p ∈ s.slices ↔ s.present p = true := by
  unfold State.slices State.present
  rw [List.mem_range, decide_eq_true_eq]

theorem present_lt {s : State} {p : Nat} (h : s.present p = true) : p < 8 := by
  have hp := of_decide_eq_true h
  have hle : ∀ v : Variant, v.slices ≤ 8 := fun v => by cases v <;> decide
  exact lt_of_lt_of_le hp (hle s.variant)

theorem wipe_wipeKeys (s : State) {p : Nat} (h : s.present p = true) : (s.wipeKeys.panel p).wipeBank7 = true := by
  have hpanel := (foldl_wipeBank7_spec s.slices (s := commitGivenUp s) rfl).1 p
  rw [wipeKeys_eq]
  refine (congrArg Panel.wipeBank7 (showSlots_keeps (State.panel · p) _ fun _ _ => rfl)).trans ?_
  refine hpanel.trans ?_
  rw [decide_eq_true ((mem_slices s p).mpr h), Bool.true_or]

theorem word_wipeKeys (s : State) {p a : Nat} (ha : a < 2 ^ 48) :
    s.wipeKeys.word p a = if s.present p = true ∧ 0x1C0000 ≤ a ∧ a < 0x200000 then voidWord else s.word p a := by
  have hword := (foldl_wipeBank7_spec s.slices (s := commitGivenUp s) rfl).2 p a ha
  rw [wipeKeys_eq]
  refine (showSlots_keeps (State.word · p a) _ fun _ _ => rfl).trans (hword.trans ?_)
  exact if_congr (and_congr_left' (mem_slices s p)) rfl (commitGivenUp_keeps (State.word · p a) s
    (fun _ _ _ _ _ _ _ => rfl) (fun _ _ _ _ => rfl))

theorem reg_commitGivenUp (s : State) {q o : Nat} (ho : o < 4096) (hq : q ≠ upntPage) :
    (commitGivenUp s).reg q o = s.reg q o := by
  have hkey : ∀ x : Nat, (q, o) ≠ (upntPage, x) := fun x h => hq (Prod.mk.inj h).1
  unfold commitGivenUp
  split
  · rw [reg_raise_ne _ ho (hkey _), reg_setFld_ne _ _ _ ho (by decide) (hkey _),
      reg_setFld_ne _ _ _ ho (by decide) (hkey _)]
    exact loseCommit_keeps (State.reg · q o) s fun _ _ _ _ => rfl
  · rfl

theorem reg_wipeKeys (s : State) {q o : Nat} (ho : o < 4096) (hq : q ≠ upntPage)
    (hscr : ∀ p : Nat, s.present p = true → q ≠ scrPage p) : s.wipeKeys.reg q o = s.reg q o := by
  rw [wipeKeys_eq, reg_showSlots _ ho hq]
  refine Eq.trans ?_ (reg_commitGivenUp s ho hq)
  change (s.slices.foldl (fun u p => u.wipeBank7 p) (commitGivenUp s)).reg q o = _
  have hscr' : ∀ p ∈ s.slices, q ≠ scrPage p := fun p hp => hscr p ((mem_slices s p).mp hp)
  generalize s.slices = l at hscr'
  generalize commitGivenUp s = u
  induction l generalizing u with
  | nil => rfl
  | cons p l ih =>
    rw [List.foldl_cons, ih (fun x hx => hscr' x (List.mem_cons_of_mem _ hx)),
      reg_wipeBank7 _ _ ho (hscr' p List.mem_cons_self)]

theorem lifePage_ne_scrPage (p : Nat) (hp : p < 8) : lifePage ≠ scrPage p := by
  unfold lifePage scrPage packagePage panelPage
  omega

theorem reg_life_wipeKeys (s : State) {o : Nat} (ho : o < 4096) : s.wipeKeys.reg lifePage o = s.reg lifePage o :=
  reg_wipeKeys s ho (by decide) fun p hp => lifePage_ne_scrPage p (present_lt hp)

end Sys2Proof.Proofs
end

section
/-! PROOFS. What a reset of the package leaves. -/

namespace Sys2Proof.Proofs

open Sys2Proof Sys2Proof.Machine

/-! ### Resets of the package (R25, R331, R335) -/

/-- What a reset of the package begins with, before its causes and the states of slots and fuses are shown. -/
def resetBase (s : State) (boot : Boot) : State :=
  { State.reset with
    boot := boot, variant := s.variant, slotA := s.loseCommit.slotA, slotB := s.loseCommit.slotB,
    supply := { record := s.supply.record, banksDown := s.supply.banksDown }, fuses := s.fuses, evtLow := s.evtLow,
    trips := (s.trips.map (fun e => (e.1, ({ pinsLow := e.2.pinsLow } : Trip)))).filter (fun e => decide (e.2 ≠ {})),
    evArrived := s.evtSources,
    jtag := s.jtag, resetPinLow := s.resetPinLow, free := s.free, pending := s.pending }

/-- The causes of a reset and the state of the dip record, shown. -/
def resetCaused (s : State) (boot : Boot) (cause rail : Nat) : State :=
  ((((resetBase s boot).setFld modePkgPage MODE_RESET_CAUSE.CAUSE cause).setFld modePkgPage
    MODE_RESET_CAUSE.RAIL rail).setFld upntPage UPNT_STATUS.DIP_VALID s.keptDip.1.toNat).setFld upntPage
    UPNT_STATUS.DIP_OVERRUN s.keptDip.2.toNat

theorem resetPackage_eq (s : State) (boot : Boot) (cause rail : Nat) :
    s.resetPackage boot cause rail = (resetCaused s boot cause rail).showSlots.showFuses.showNow := rfl

theorem showFuses_keeps {α : Type} (g : State → α) (s : State) (hg : ∀ u r, g { u with regs := r } = g u) :
    g s.showFuses = g s := by
  have hset : ∀ u pk off v, g (State.setReg u pk off v) = g u := fun u _ _ _ => hg u _
  have hfold : ∀ (u : State) (l : List Nat),
      g (l.foldl (fun v p => (v.setFld (scrPage p) SCR_POWER.BANK7 2).setFld (scrPage p) ⟨0x108, 15, 14⟩ 2) u) = g u :=
    fun u l => foldl_keeps g (fun v p => by rw [setFld_keeps g _ _ _ _ hg, setFld_keeps g _ _ _ _ hg]) l u
  unfold State.showFuses
  dsimp only
  split
  · rw [hfold, hset, setFld_keeps g _ _ _ _ hg, setFld_keeps g _ _ _ _ hg, setFld_keeps g _ _ _ _ hg]
  · rw [hset, setFld_keeps g _ _ _ _ hg, setFld_keeps g _ _ _ _ hg, setFld_keeps g _ _ _ _ hg]

theorem resetPackage_keeps {α : Type} (g : State → α) (s : State) (boot : Boot) (cause rail : Nat)
    (hg : ∀ u r, g { u with regs := r } = g u) (hshown : ∀ u x, g { u with shown := x } = g u) :
    g (s.resetPackage boot cause rail) = g (resetBase s boot) := by
  have hnow : ∀ u : State, g u.showNow = g u := fun u => hshown u _
  rw [resetPackage_eq, hnow, showFuses_keeps g _ hg, showSlots_keeps g _ hg]
  unfold resetCaused
  rw [setFld_keeps g _ _ _ _ hg, setFld_keeps g _ _ _ _ hg, setFld_keeps g _ _ _ _ hg, setFld_keeps g _ _ _ _ hg]

theorem reg_foldl {β : Type} {f : State → β → State} {q o : Nat} {l : List β}
    (hf : ∀ x ∈ l, ∀ u : State, (f u x).reg q o = u.reg q o) (s : State) : (l.foldl f s).reg q o = s.reg q o := by
  induction l generalizing s with
  | nil => rfl
  | cons x l ih =>
    rw [List.foldl_cons, ih fun y hy => hf y (List.mem_cons_of_mem x hy), hf x List.mem_cons_self]

theorem reg_showFuses (s : State) {q o : Nat} (ho : o < 4096) (hq : q ≠ lifePage)
    (hscr : ∀ p : Nat, s.present p = true → q ≠ scrPage p) : s.showFuses.reg q o = s.reg q o := by
  have hne : ∀ (u : State) (pk : Nat) (f : Fld) (v : Nat), q ≠ pk → f.off < 4096 → (u.setFld pk f v).reg q o = u.reg q o :=
    fun u pk f v hpk hf => reg_setFld_ne u f v ho hf fun h => hpk (Prod.mk.inj h).1
  have hid : ∀ (u : State) (v : Word), (u.setReg lifePage LIFE_ID.ID.off v).reg q o = u.reg q o :=
    fun u v => reg_setReg_ne u v ho (by decide) fun h => hq (Prod.mk.inj h).1
  have hfold : ∀ u : State, u.slices = s.slices → (u.slices.foldl (fun v p =>
      (v.setFld (scrPage p) SCR_POWER.BANK7 2).setFld (scrPage p) ⟨0x108, 15, 14⟩ 2) u).reg q o = u.reg q o := by
    intro u hu
    rw [hu]
    refine reg_foldl (fun p hp v => ?_) u
    have hp' : q ≠ scrPage p := hscr p ((mem_slices s p).mp hp)
    rw [hne _ _ _ _ hp' (by decide), hne _ _ _ _ hp' (by decide)]
  have hslices : ∀ (u : State) (pk off : Nat) (v : Word), (u.setReg pk off v).slices = u.slices := fun _ _ _ _ => rfl
  have hslices' : ∀ (u : State) (pk : Nat) (f : Fld) (v : Nat), (u.setFld pk f v).slices = u.slices := fun _ _ _ _ => rfl
  unfold State.showFuses
  dsimp only
  split
  · rw [hfold _ (by rw [hslices, hslices', hslices', hslices']), hid, hne _ _ _ _ hq (by decide),
      hne _ _ _ _ hq (by decide), hne _ _ _ _ hq (by decide)]
  · rw [hid, hne _ _ _ _ hq (by decide), hne _ _ _ _ hq (by decide), hne _ _ _ _ hq (by decide)]

theorem fld_modePkg_resetPackage (s : State) (boot : Boot) (cause rail : Nat) {f : Fld} (hf : fits f = true) :
    (s.resetPackage boot cause rail).fld modePkgPage f = (resetCaused s boot cause rail).fld modePkgPage f := by
  obtain ⟨-, -, hoff⟩ := (fits_iff f).mp hf
  have hscr : ∀ p : Nat, modePkgPage ≠ scrPage p ∨ 8 ≤ p := fun p => by
    unfold modePkgPage scrPage packagePage panelPage
    omega
  rw [resetPackage_eq]
  refine fld_of_reg (Eq.trans (reg_showFuses _ hoff (by decide) fun p hp => ?_) (reg_showSlots _ hoff (by decide)))
  exact (hscr p).resolve_right (by have := present_lt hp; omega)

theorem cause_resetPackage (s : State) (boot : Boot) {cause : Nat} (rail : Nat) (hcause : cause < 8) :
    (s.resetPackage boot cause rail).fld modePkgPage MODE_RESET_CAUSE.CAUSE = cause := by
  rw [fld_modePkg_resetPackage _ _ _ _ rfl]
  unfold resetCaused
  rw [fld_setFld_of_page _ _ rfl rfl (by decide), fld_setFld_of_page _ _ rfl rfl (by decide),
    fld_setFld_of_apart _ _ _ rfl rfl rfl, fld_setFld_self _ _ _ rfl]
  exact Nat.mod_eq_of_lt hcause

theorem rail_resetPackage (s : State) (boot : Boot) (cause : Nat) {rail : Nat} (hrail : rail < 8) :
    (s.resetPackage boot cause rail).fld modePkgPage MODE_RESET_CAUSE.RAIL = rail := by
  rw [fld_modePkg_resetPackage _ _ _ _ rfl]
  unfold resetCaused
  rw [fld_setFld_of_page _ _ rfl rfl (by decide), fld_setFld_of_page _ _ rfl rfl (by decide), fld_setFld_self _ _ _ rfl]
  exact Nat.mod_eq_of_lt hrail

theorem mode_resetPackage (s : State) (boot : Boot) (cause rail : Nat) {sl : Nat} (hsl : sl < 8) :
    (s.resetPackage boot cause rail).mode sl = PRIME := by
  have hpkg : modePage sl ≠ modePkgPage := by unfold modePage modePkgPage packagePage; omega
  have hupnt : modePage sl ≠ upntPage := by unfold modePage upntPage packagePage; omega
  have hlife : modePage sl ≠ lifePage := by unfold modePage lifePage packagePage; omega
  have hscr : ∀ p : Nat, modePage sl ≠ scrPage p ∨ 8 ≤ p := fun p => by
    unfold modePage scrPage packagePage panelPage
    omega
  have hset : ∀ (u : State) (pk : Nat) (f : Fld) (v : Nat), modePage sl ≠ pk → fits f = true →
      (u.setFld pk f v).fld (modePage sl) MODE_STATE.MODE = u.fld (modePage sl) MODE_STATE.MODE :=
    fun u pk f v h hf => fld_setFld_of_page _ _ hf rfl h
  have hcaused : (resetCaused s boot cause rail).fld (modePage sl) MODE_STATE.MODE = PRIME := by
    unfold resetCaused
    rw [hset _ _ _ _ hupnt rfl, hset _ _ _ _ hupnt rfl, hset _ _ _ _ hpkg rfl, hset _ _ _ _ hpkg rfl]
    change bits (defaultWord (modePage sl) 0x108) 2 0 = 0
    interval_cases sl <;> rfl
  rw [resetPackage_eq]
  refine Eq.trans (fld_of_reg (Eq.trans (reg_showFuses _ (by decide) hlife fun p hp => ?_)
    (reg_showSlots _ (by decide) hupnt))) hcaused
  exact (hscr p).resolve_right (by have := present_lt hp; omega)

theorem loseCommit_of_none {s : State} (h : s.commit = none) : s.loseCommit = s := by
  unfold State.loseCommit
  rw [h]

/-- A reset of the package begins `PRIME`. -/
theorem primed_resetPackage (s : State) (boot : Boot) {cause : Nat} (rail : Nat) (hcause : cause < 8) :
    Primed s (s.resetPackage boot cause rail) cause := by
  have keeps {α : Type} (g : State → α) (hg : ∀ u r, g { u with regs := r } = g u)
      (hshown : ∀ u x, g { u with shown := x } = g u) := resetPackage_keeps g s boot cause rail hg hshown
  have hslots : s.commit = none → (s.resetPackage boot cause rail).slotA = s.slotA
      ∧ (s.resetPackage boot cause rail).slotB = s.slotB := fun hnone => by
    rw [keeps State.slotA (fun _ _ => rfl) fun _ _ => rfl, keeps State.slotB (fun _ _ => rfl) fun _ _ => rfl]
    unfold resetBase
    rw [loseCommit_of_none hnone]
    exact ⟨rfl, rfl⟩
  refine ⟨keeps State.ticks ?_ ?_, keeps State.canvas ?_ ?_, keeps State.mem ?_ ?_, keeps State.flight ?_ ?_,
    keeps State.twq ?_ ?_, fun sl hsl => mode_resetPackage s boot cause rail hsl,
    fun p t => (congrArg Thread.run (keeps (State.thread · p t) ?_ ?_)).trans rfl, cause_resetPackage s boot rail hcause,
    keeps State.fuses ?_ ?_, keeps (fun u => u.supply.record) ?_ ?_, keeps (fun u => u.supply.banksDown) ?_ ?_,
    keeps State.burn ?_ ?_, keeps State.evtLow ?_ ?_, keeps State.pending ?_ ?_, hslots⟩
  all_goals exact fun _ _ => rfl

end Sys2Proof.Proofs
end

section
/-! PROOFS. Lifecycle transitions, the rollback floor and the unlock of Easel. Settles O56. -/

namespace Sys2Proof.Proofs

open Sys2Proof Sys2Proof.Machine

/-! ### Lifecycle transitions (R354, R355) -/

theorem source_life {b : Nat} (hb : b ≤ 5) : (sourceOf lifePage b).isSome = true := by
  interval_cases b <;> rfl

/-- The table of R354 has a row for the target, and what it requires holds. -/
def MayMove (s : State) (target : Fin 8) : Prop :=
  (s.fuses.state = 0 ∧ target.val = 1 ∧ s.image.isSome = true) ∨ (s.fuses.state = 1 ∧ target.val = 2)
    ∨ (s.fuses.state = 1 ∧ target.val = 3)
    ∨ (s.fuses.state = 2 ∧ target.val = 3 ∧ s.fld lifePage LIFE_STATE.UNLOCK = 2) ∨ (s.fuses.state ≠ 4 ∧ target.val = 4)

/-- The fuses that a transition burns. -/
def Burns (s : State) (target : Fin 8) (f : Fuses) : Prop :=
  f.state = target ∧ f.floor = s.fuses.floor ∧ f.id = s.fuses.id
    ∧ (target.val = 1 → ∀ x : Nat × BitVec 384 × BitVec 384, s.image = some x →
      f.keyHash = some x.2.1 ∧ f.debugHash = some x.2.2)
    ∧ (target.val ≠ 1 → f.keyHash = s.fuses.keyHash ∧ f.debugHash = s.fuses.debugHash)

theorem burns_of_state (s : State) {target : Fin 8} (h : target.val ≠ 1) :
    Burns s target { s.fuses with state := target } :=
  ⟨rfl, rfl, rfl, fun h1 => absurd h1 h, fun _ => ⟨rfl, rfl⟩⟩

/-- The rows of the table of R354, by the target. -/
theorem transition_eq (s : State) (target : Fin 8) : s.transition target =
    if target.val = 1 ∧ s.fuses.state = 0 then
      s.image.map (fun x => { s.fuses with state := 1, keyHash := some x.2.1, debugHash := some x.2.2 })
    else if (target.val = 2 ∧ s.fuses.state = 1) ∨ (target.val = 3 ∧ s.fuses.state = 1)
      ∨ (target.val = 3 ∧ s.fuses.state = 2 ∧ s.unlock = 2) ∨ (target.val = 4 ∧ s.fuses.state ≠ 4)
    then some { s.fuses with state := target } else none := by
  unfold State.transition
  dsimp only
  generalize s.fuses.state = st
  fin_cases target <;> rcases st with _ | _ | _ | _ | _ | st <;> simp

theorem transition_of_not_may {s : State} {target : Fin 8} (h : ¬ MayMove s target) : s.transition target = none := by
  rw [transition_eq]
  unfold MayMove at h
  have hunlock : s.unlock = s.fld lifePage LIFE_STATE.UNLOCK := rfl
  by_cases h1 : target.val = 1 ∧ s.fuses.state = 0
  · rw [if_pos h1, Option.map_eq_none_iff, ← Option.not_isSome_iff_eq_none]
    exact fun him => h (.inl ⟨h1.2, h1.1, him⟩)
  · rw [if_neg h1, if_neg]
    rw [hunlock]
    omega

theorem transition_of_may {s : State} {target : Fin 8} (h : MayMove s target) :
    ∃ f, s.transition target = some f ∧ Burns s target f := by
  rw [transition_eq]
  have hunlock : s.unlock = s.fld lifePage LIFE_STATE.UNLOCK := rfl
  unfold MayMove at h
  by_cases h1 : target.val = 1 ∧ s.fuses.state = 0
  · obtain ⟨x, hx⟩ := Option.isSome_iff_exists.mp (show s.image.isSome = true by
      rcases h with ⟨_, _, himage⟩ | h | h | h | h
      · exact himage
      all_goals omega)
    rw [if_pos h1, hx]
    refine ⟨_, rfl, h1.1.symm, rfl, rfl, fun _ y hy => ?_, fun hne => absurd h1.1 hne⟩
    obtain rfl : x = y := Option.some.inj (hx.symm.trans hy)
    exact ⟨rfl, rfl⟩
  · rw [if_neg h1, if_pos (by rw [hunlock]; omega)]
    exact ⟨_, rfl, burns_of_state s (by omega)⟩

theorem isSome_newestSlot (s : State) :
    s.newestSlot.isSome = (decide (s.slotA.map (Painting.valid s.variant) = some true)
      || decide (s.slotB.map (Painting.valid s.variant) = some true)) := by
  have hvalid : ∀ x : Option Painting,
      (validSlot s.variant x).isSome = decide (x.map (Painting.valid s.variant) = some true) := fun x => by
    cases x with
    | none => rfl
    | some p => by_cases hp : p.valid s.variant = true <;> simp [validSlot, Option.filter, hp]
  rw [← hvalid, ← hvalid]
  unfold State.newestSlot
  cases validSlot s.variant s.slotA <;> cases validSlot s.variant s.slotB <;> try rfl
  dsimp only
  split <;> rfl

theorem requestTransition_stands {s : State} {confirm : BitVec 16} (h : confirm ≠ 0x5C4A ∨ s.burn.isSome = true)
    (target : Nat) : s.requestTransition confirm.toNat target = s := by
  refine if_pos (h.imp (fun hne heq => hne (BitVec.eq_of_toNat_eq heq)) id)

theorem requestTransition_refused {s : State} {target : Fin 8} (hburn : s.burn = none) (h : ¬ MayMove s target) :
    s.requestTransition (0x5C4A : BitVec 16).toNat target = s.raise lifePage 4 := by
  unfold State.requestTransition
  rw [hburn, if_neg (by decide), transition_of_not_may h]

theorem requestTransition_taken {s : State} {target : Fin 8} {f : Fuses} (hburn : s.burn = none)
    (h : s.transition target = some f) : s.requestTransition (0x5C4A : BitVec 16).toNat target = { s.wipeKeys with burn := some f } := by
  unfold State.requestTransition
  rw [hburn, if_neg (by decide), h]

theorem secure_slots_wipeKeys {s : State} {x : Painting} (h : s.wipeKeys.slotA = some x ∨ s.wipeKeys.slotB = some x) :
    x.secure = [] := by
  obtain ⟨ha, hb, -⟩ := slots_wipeKeys s
  rw [ha, hb] at h
  exact h.elim secure_of_bareSlot secure_of_bareSlot

theorem boot_wipeKeys (s : State) : s.wipeKeys.boot = s.boot :=
  wipeKeys_keeps State.boot s (fun _ _ _ _ _ _ _ => rfl) (fun _ _ _ _ => rfl) (fun _ _ _ _ _ _ _ _ => rfl)

theorem variant_wipeKeys (s : State) : s.wipeKeys.variant = s.variant :=
  wipeKeys_keeps State.variant s (fun _ _ _ _ _ _ _ => rfl) (fun _ _ _ _ => rfl) (fun _ _ _ _ _ _ _ _ => rfl)

/-- Wiping the keys leaves which slots are valid. -/
theorem valid_slots_wipeKeys {s : State} (h : s.commit = none) :
    (s.newestSlot.isSome = s.wipeKeys.newestSlot.isSome)
      ∧ (s.wipeKeys.slotA.map (Painting.valid s.variant) = s.slotA.map (Painting.valid s.variant))
      ∧ (s.wipeKeys.slotB.map (Painting.valid s.variant) = s.slotB.map (Painting.valid s.variant)) := by
  obtain ⟨ha, hb, -⟩ := slots_wipeKeys s
  rw [loseCommit_of_none h] at ha hb
  rw [isSome_newestSlot, isSome_newestSlot, variant_wipeKeys, ha, hb, valid_bareSlot, valid_bareSlot]
  exact ⟨rfl, rfl, rfl⟩

theorem lifeTransition_taken {s : State} {ag : Agent} {target : Fin 8} (hsec : s.secure ag = true) (hburn : s.burn = none)
    (hmay : MayMove s target) : AcceptsTo (.lifeTransition ag 0x5C4A target) s ag lifePage 0x168 (fun u =>
      u.boot = s.boot ∧ u.fuses = s.fuses
      ∧ (∀ p : Nat, s.present p = true → (u.panel p).wipeBank7 = true
        ∧ ∀ a : Nat, 0x1C0000 ≤ a → a < 0x200000 → u.word p a = voidWord)
      ∧ (∀ x : Painting, u.slotA = some x ∨ u.slotB = some x → x.secure = [])
      ∧ (s.commit = none → (s.newestSlot.isSome = u.newestSlot.isSome)
        ∧ (u.slotA.map (Painting.valid s.variant) = s.slotA.map (Painting.valid s.variant))
        ∧ (u.slotB.map (Painting.valid s.variant) = s.slotB.map (Painting.valid s.variant)))
      ∧ ∃ f : Fuses, u.burn = some f ∧ Burns s target f) := by
  obtain ⟨f, hf, hburns⟩ := transition_of_may hmay
  refine acceptsTo_of_writeBy rfl ?_
  rw [if_pos hsec]
  rw [requestTransition_taken hburn hf]
  refine ⟨boot_wipeKeys s, fuses_wipeKeys s, fun p hp => ⟨wipe_wipeKeys s hp, fun a h1 h2 => ?_⟩,
    fun x hx => secure_slots_wipeKeys hx, valid_slots_wipeKeys, f, rfl, hburns⟩
  exact (word_wipeKeys s (by omega)).trans (if_pos ⟨hp, h1, h2⟩)

theorem lifeTransition_refused {s : State} {ag : Agent} {target : Fin 8} (hsec : s.secure ag = true)
    (hburn : s.burn = none) (hmay : ¬ MayMove s target) :
    AcceptsTo (.lifeTransition ag 0x5C4A target) s ag lifePage 0x168 (fun u => Raised u lifePage 4
      ∧ u.burn = none ∧ u.fuses = s.fuses ∧ u.mem = s.mem ∧ u.boot = s.boot ∧ u.slotA = s.slotA ∧ u.slotB = s.slotB) := by
  refine acceptsTo_of_writeBy rfl ?_
  rw [if_pos hsec]
  rw [requestTransition_refused hburn hmay]
  have keeps {α : Type} (g : State → α) := raise_keeps g s lifePage 4
  refine ⟨raised_raise s lifePage (by decide) (source_life (by decide)), (keeps State.burn ?_).trans hburn,
    keeps State.fuses ?_, keeps State.mem ?_, keeps State.boot ?_, keeps State.slotA ?_, keeps State.slotB ?_⟩
  all_goals exact fun _ _ _ _ _ _ _ => rfl

/-! ### The end of a wipe of bank 7 (R225, R355, R357) -/

/-- The wipe of a panel's bank 7 has ended. -/
def bankWiped (s : State) (p : Nat) : State :=
  (if (s.setPanel p { s.panel p with wipeBank7 := false }).bankCmd p 7
      = (s.setPanel p { s.panel p with wipeBank7 := false }).bankState p 7
    then (s.setPanel p { s.panel p with wipeBank7 := false }).setFld (scrPage p) (bankBusy 7) 0
    else s.setPanel p { s.panel p with wipeBank7 := false }).raise (scrPage p) 7

theorem exec_bank7WipeDone {s : State} {p : Slice} (h : (s.panel p).wipeBank7 = true) :
    exec (.bank7WipeDone p) s = .next (bankWiped s p).endWipes :=
  congrArg Host.Outcome.next (if_neg (by rw [h]; exact Bool.noConfusion))

theorem bankWiped_keeps {α : Type} (g : State → α) (s : State) (p : Nat)
    (hraise : ∀ u r n a e v t, g { u with regs := r, setNow := n, evArrived := a, evPend := e, events := v, threads := t }
      = g u) : g (bankWiped s p) = g (s.setPanel p { s.panel p with wipeBank7 := false }) := by
  unfold bankWiped
  rw [raise_keeps g _ _ _ hraise]
  split
  · exact setFld_keeps g _ _ _ _ fun u r => hraise u r u.setNow u.evArrived u.evPend u.events u.threads
  · rfl

/-- Some other panel's bank 7 is still being wiped. -/
def OthersWipe (s : State) (p : Nat) : Prop :=
  ∃ q : Nat, q ≠ p ∧ s.present q = true ∧ (s.panel q).wipeBank7 = true

theorem wiping_iff (s : State) : s.wiping = true ↔ ∃ q, s.present q = true ∧ (s.panel q).wipeBank7 = true := by
  unfold State.wiping
  rw [List.any_eq_true]
  exact exists_congr fun q => and_congr_left' (mem_slices s q)

theorem wiping_bankWiped (s : State) (p : Nat) : (bankWiped s p).wiping = true ↔ OthersWipe s p := by
  have hsame : (bankWiped s p).wiping = (s.setPanel p { s.panel p with wipeBank7 := false }).wiping :=
    bankWiped_keeps State.wiping s p fun _ _ _ _ _ _ _ => rfl
  rw [hsame, wiping_iff]
  constructor
  · rintro ⟨q, hq, hw⟩
    by_cases hqp : q = p
    · rw [hqp, panel_setPanel_self] at hw
      exact Bool.noConfusion hw
    · rw [panel_setPanel_ne _ _ hqp] at hw
      exact ⟨q, hqp, hq, hw⟩
  · rintro ⟨q, hqp, hq, hw⟩
    refine ⟨q, hq, ?_⟩
    rw [panel_setPanel_ne _ _ hqp]
    exact hw

theorem bank7WipeDone_more {s : State} {p : Slice} {f : Fuses} (hburn : s.burn = some f)
    (hwipe : (s.panel p).wipeBank7 = true) (hmore : OthersWipe s p) :
    Gives (.bank7WipeDone p) s (fun u => u.burn = some f ∧ u.fuses = s.fuses ∧ u.boot = s.boot) := by
  refine ⟨_, exec_bank7WipeDone hwipe, ?_⟩
  unfold State.endWipes
  rw [if_pos ((wiping_bankWiped s p).mpr hmore)]
  exact ⟨(bankWiped_keeps State.burn s p fun _ _ _ _ _ _ _ => rfl).trans hburn,
    bankWiped_keeps State.fuses s p fun _ _ _ _ _ _ _ => rfl, bankWiped_keeps State.boot s p fun _ _ _ _ _ _ _ => rfl⟩

theorem endTransition_of_burn {s : State} {f : Fuses} (h : s.burn = some f) :
    ∃ cause < 8, s.endTransition
      = State.packageReset { s.fresh.2 with fuses := { f with floor := max s.fuses.floor f.floor } } cause := by
  refine ⟨1 + s.fresh.1.toNat % 5, by omega, ?_⟩
  unfold State.endTransition
  rw [h]

theorem boot_resetPackage (s : State) (boot : Boot) (cause rail : Nat) : (s.resetPackage boot cause rail).boot = boot :=
  resetPackage_keeps State.boot s boot cause rail (fun _ _ => rfl) fun _ _ => rfl

theorem bank7WipeDone_last {s : State} {p : Slice} {f : Fuses} (hburn : s.burn = some f)
    (hwipe : (s.panel p).wipeBank7 = true) (hlast : ¬ OthersWipe s p) :
    Gives (.bank7WipeDone p) s (fun u => u.boot = .priming ∧ u.burn = none ∧ u.mem = []
      ∧ u.fuses = { f with floor := max s.fuses.floor f.floor } ∧ ∀ sl : Nat, sl < 8 → u.mode sl = PRIME) := by
  refine ⟨_, exec_bank7WipeDone hwipe, ?_⟩
  unfold State.endWipes
  rw [if_neg (fun h => hlast ((wiping_bankWiped s p).mp h))]
  have hb : (bankWiped s p).burn = some f := (bankWiped_keeps State.burn s p fun _ _ _ _ _ _ _ => rfl).trans hburn
  have hf : (bankWiped s p).fuses = s.fuses := bankWiped_keeps State.fuses s p fun _ _ _ _ _ _ _ => rfl
  generalize bankWiped s p = v at *
  obtain ⟨cause, hcause, heq⟩ := endTransition_of_burn (s := { v with tamperBusy := 0 }) hb
  rw [heq, ← hf]
  clear heq
  unfold State.packageReset
  generalize hw : ({ ({ v with tamperBusy := 0 } : State).fresh.2 with
    fuses := { f with floor := max ({ v with tamperBusy := 0 } : State).fuses.floor f.floor } } : State) = w
  obtain ⟨-, -, hmem, -, -, hmode, -, -, hfuses, -, -, hnone, -⟩ := primed_resetPackage w .priming 0 hcause
  exact ⟨boot_resetPackage _ _ _ _, hnone, hmem, hfuses.trans (congrArg State.fuses hw).symm, hmode⟩

/-! ### The floor, and the unlock of Easel (R355, R356) -/

theorem advanceFloor_stands {s : State} (h : s.image = none ∨ s.fuses.state ≠ 2) : s.advanceFloor = s := by
  unfold State.advanceFloor
  rcases h with h | h
  · rw [h]
  · cases s.image with
    | none => rfl
    | some x => exact if_neg h

theorem advanceFloor_of_image {s : State} {x : Nat × BitVec 384 × BitVec 384} (himage : s.image = some x)
    (hstate : s.fuses.state = 2) : s.advanceFloor = ({ s with fuses := { s.fuses with
      floor := max s.fuses.floor (min x.1 64) } }).setFld lifePage LIFE_BOOT.FLOOR (max s.fuses.floor (min x.1 64)) := by
  unfold State.advanceFloor
  rw [himage]
  exact if_pos hstate

theorem advanceFloor_raises {s : State} {ag : Agent} {x : Nat × BitVec 384 × BitVec 384} (hsec : s.secure ag = true)
    (himage : s.image = some x) (hstate : s.fuses.state = 2) :
    AcceptsTo (.advanceFloor ag) s ag lifePage 0x168 (fun u =>
      u.fuses = { s.fuses with floor := max s.fuses.floor (min x.1 64) } ∧ u.mem = s.mem
      ∧ u.fld lifePage LIFE_BOOT.FLOOR = max s.fuses.floor (min x.1 64) % 256) := by
  refine acceptsTo_of_writeBy rfl ?_
  rw [if_pos hsec, advanceFloor_of_image himage hstate]
  generalize max s.fuses.floor (min x.1 64) = n
  generalize hv : ({ s with fuses := { s.fuses with floor := n } } : State) = v
  have hfuses : v.fuses = { s.fuses with floor := n } := (congrArg State.fuses hv).symm
  have hmem : v.mem = s.mem := (congrArg State.mem hv).symm
  exact ⟨hfuses, hmem, fld_setFld_self v lifePage n rfl⟩

theorem relock_locks (s : State) (ag : Agent) :
    AcceptsTo (.relock ag) s ag lifePage 0x168 (fun u => u.fld lifePage LIFE_STATE.UNLOCK = 0
      ∧ u.fld lifePage LIFE_STATE.TRIES = s.fld lifePage LIFE_STATE.TRIES ∧ u.mem = s.mem ∧ u.fuses = s.fuses) :=
  acceptsTo_of_writeBy rfl ⟨fld_setFld_self s lifePage 0 rfl, fld_setFld_of_apart s lifePage 0 rfl rfl rfl, rfl, rfl⟩

/-- Registers of a page written one by one, at offsets that differ. -/
theorem reg_foldl_setReg {β : Type} (pk : Nat) (off : β → Nat) (v : β → Word) {l : List β}
    (hoff : ∀ x ∈ l, off x < 4096) (hinj : (l.map off).Nodup) (s : State) :
    (∀ x ∈ l, (l.foldl (fun u x => u.setReg pk (off x) (v x)) s).reg pk (off x) = v x)
      ∧ ∀ q o : Nat, o < 4096 → (q = pk → o ∉ l.map off) →
        (l.foldl (fun u x => u.setReg pk (off x) (v x)) s).reg q o = s.reg q o := by
  induction l generalizing s with
  | nil => exact ⟨fun x hx => absurd hx List.not_mem_nil, fun q o _ _ => rfl⟩
  | cons y l ih =>
    rw [List.map_cons, List.nodup_cons] at hinj
    have hy : off y < 4096 := hoff y List.mem_cons_self
    obtain ⟨hset, hother⟩ := ih (fun x hx => hoff x (List.mem_cons_of_mem y hx)) hinj.2 (s.setReg pk (off y) (v y))
    rw [List.foldl_cons]
    refine ⟨fun x hx => ?_, fun q o ho hq => ?_⟩
    · rcases List.mem_cons.mp hx with rfl | hx
      · rw [hother pk _ hy fun _ => hinj.1, reg_setReg_self]
      · exact hset x hx
    · have hne : (q, o) ≠ (pk, off y) := fun h => by
        obtain ⟨hqp, hoy⟩ := Prod.mk.inj h
        exact hq hqp (by rw [hoy, List.map_cons]; exact List.mem_cons_self)
      rw [hother q o ho fun h hm => hq h (by rw [List.map_cons]; exact List.mem_cons_of_mem _ hm),
        reg_setReg_ne _ _ ho hy hne]

theorem beWord_six (x : BitVec 384) {w : Nat} (hw : w < 6) : beWord x.toNat 6 w = x.extractLsb' (64 * (5 - w)) 64 := by
  apply BitVec.eq_of_toNat_eq
  unfold beWord
  rw [BitVec.toNat_ofNat, BitVec.extractLsb'_toNat, Nat.shiftRight_eq_div_pow, show 6 - 1 - w = 5 - w by omega]

theorem unlockReq_draws {s : State} (h : s.fld lifePage LIFE_STATE.TRIES ≠ 3) (x : BitVec 384) :
    AcceptsTo (.unlockReq x) s .easel lifePage 0x280 (fun u => u.challenge = true ∧ u.fuses = s.fuses
      ∧ (∀ w : Nat, w < 6 → u.reg lifePage (0x180 + 8 * w) = x.extractLsb' (64 * (5 - w)) 64)
      ∧ ∀ k o : Nat, o < 4096 → k ≠ lifePage ∨ o < 0x180 ∨ 0x1B0 ≤ o → u.reg k o = s.reg k o) := by
  refine acceptsTo_of_writeBy rfl ?_
  have hdraw : s.drawChallenge x = (List.range 6).foldl
      (fun u w => u.setReg lifePage (0x180 + 8 * w) (beWord x.toNat 6 w)) { s with challenge := true } := if_neg h
  rw [hdraw]
  obtain ⟨hset, hother⟩ := reg_foldl_setReg lifePage (0x180 + 8 * ·) (beWord x.toNat 6) (l := List.range 6)
    (by decide) (by decide) { s with challenge := true }
  have keeps {α : Type} (g : State → α) := foldl_keeps g
    (f := fun (u : State) w => u.setReg lifePage (0x180 + 8 * w) (beWord x.toNat 6 w))
  refine ⟨keeps State.challenge (fun _ _ => rfl) _ _, keeps State.fuses (fun _ _ => rfl) _ _,
    fun w hw => ?_, fun k o ho hk => ?_⟩
  · exact (hset w (List.mem_range.mpr hw)).trans (beWord_six x hw)
  · refine (hother k o ho fun hkl hm => ?_).trans rfl
    obtain ⟨w, hw, hwo⟩ := List.mem_map.mp hm
    have hw6 := List.mem_range.mp hw
    omega

/-- The response to the challenge passes the checks of R356. -/
def GoodResponse (s : State) : Prop :=
  s.challenge = true ∧ s.fld lifePage LIFE_UNLOCK.SCOPE < 2
    ∧ s.fuses.debugHash = some (sha384 (beBytes (s.response 0 12) 96))
    ∧ ecdsaVerify (BitVec.ofNat 768 (s.response 0 12)) (s.unlockDigest (s.fld lifePage LIFE_UNLOCK.SCOPE))
      (BitVec.ofNat 768 (s.response 12 12)) = true

theorem unlockGood_iff (s : State) : s.unlockGood (s.fld lifePage LIFE_UNLOCK.SCOPE) = true ↔ GoodResponse s := by
  unfold State.unlockGood GoodResponse
  dsimp only
  rw [Bool.and_eq_true, Bool.and_eq_true, Bool.and_eq_true, decide_eq_true_eq, decide_eq_true_eq, and_assoc, and_assoc]

theorem submitUnlock_exhausted {s : State} (h : s.fld lifePage LIFE_STATE.TRIES = 3) :
    s.submitUnlock = ({ s with challenge := false }).raise lifePage 3 := if_pos h

theorem submitUnlock_good {s : State} (h : s.fld lifePage LIFE_STATE.TRIES ≠ 3) (hgood : GoodResponse s) :
    s.submitUnlock = (({ s with challenge := false }).setFld lifePage LIFE_STATE.UNLOCK
      (s.fld lifePage LIFE_UNLOCK.SCOPE + 1)).raise lifePage 2 :=
  (if_neg h).trans (if_pos ((unlockGood_iff s).mpr hgood))

theorem submitUnlock_bad {s : State} (h : s.fld lifePage LIFE_STATE.TRIES ≠ 3) (hbad : ¬ GoodResponse s) :
    s.submitUnlock = (({ s with challenge := false }).setFld lifePage LIFE_STATE.TRIES (s.tries + 1)).raise lifePage 3 :=
  (if_neg h).trans (if_neg fun hgood => hbad ((unlockGood_iff s).mp hgood))

/-- An event of the lifecycle page leaves the challenge and the fields of `LIFE_STATE`. -/
theorem lifeState_raise (u : State) {b : Nat} (hb : b ≤ 5) : Raised (u.raise lifePage b) lifePage b
    ∧ (u.raise lifePage b).challenge = u.challenge
    ∧ (u.raise lifePage b).fld lifePage LIFE_STATE.TRIES = u.fld lifePage LIFE_STATE.TRIES
    ∧ (u.raise lifePage b).fld lifePage LIFE_STATE.UNLOCK = u.fld lifePage LIFE_STATE.UNLOCK :=
  ⟨raised_raise u lifePage (by omega) (source_life hb), raise_keeps State.challenge u _ _ fun _ _ _ _ _ _ _ => rfl,
    fld_raise _ _ _ _ rfl (by decide), fld_raise _ _ _ _ rfl (by decide)⟩

theorem unlockSubmit_exhausted {s : State} (h : s.fld lifePage LIFE_STATE.TRIES = 3) :
    AcceptsTo .unlockSubmit s .easel lifePage 0x280 (fun u => Raised u lifePage 3 ∧ u.challenge = false
      ∧ u.fld lifePage LIFE_STATE.TRIES = 3 ∧ u.fld lifePage LIFE_STATE.UNLOCK = s.fld lifePage LIFE_STATE.UNLOCK) := by
  refine acceptsTo_of_writeBy rfl ?_
  rw [submitUnlock_exhausted h]
  obtain ⟨hraised, hchal, htries, hunlock⟩ := lifeState_raise { s with challenge := false } (b := 3) (by omega)
  exact ⟨hraised, hchal, htries.trans h, hunlock⟩

theorem unlockSubmit_good {s : State} (h : s.fld lifePage LIFE_STATE.TRIES ≠ 3) (hgood : GoodResponse s) :
    AcceptsTo .unlockSubmit s .easel lifePage 0x280 (fun u => Raised u lifePage 2 ∧ u.challenge = false
      ∧ u.fld lifePage LIFE_STATE.UNLOCK = s.fld lifePage LIFE_UNLOCK.SCOPE + 1
      ∧ u.fld lifePage LIFE_STATE.TRIES = s.fld lifePage LIFE_STATE.TRIES) := by
  refine acceptsTo_of_writeBy rfl ?_
  rw [submitUnlock_good h hgood]
  obtain ⟨hraised, hchal, htries, hunlock⟩ := lifeState_raise (({ s with challenge := false }).setFld lifePage
    LIFE_STATE.UNLOCK (s.fld lifePage LIFE_UNLOCK.SCOPE + 1)) (b := 2) (by omega)
  refine ⟨hraised, hchal, hunlock.trans ((fld_setFld_self _ _ _ rfl).trans (Nat.mod_eq_of_lt ?_)),
    htries.trans (fld_setFld_of_apart _ _ _ rfl rfl rfl)⟩
  obtain ⟨-, hscope, -⟩ := hgood
  change _ < 4
  omega

theorem unlockSubmit_bad {s : State} (h : s.fld lifePage LIFE_STATE.TRIES ≠ 3) (hbad : ¬ GoodResponse s) :
    AcceptsTo .unlockSubmit s .easel lifePage 0x280 (fun u => Raised u lifePage 3 ∧ u.challenge = false
      ∧ u.fld lifePage LIFE_STATE.TRIES = s.fld lifePage LIFE_STATE.TRIES + 1
      ∧ u.fld lifePage LIFE_STATE.UNLOCK = s.fld lifePage LIFE_STATE.UNLOCK) := by
  refine acceptsTo_of_writeBy rfl ?_
  rw [submitUnlock_bad h hbad]
  obtain ⟨hraised, hchal, htries, hunlock⟩ := lifeState_raise (({ s with challenge := false }).setFld lifePage
    LIFE_STATE.TRIES (s.tries + 1)) (b := 3) (by omega)
  refine ⟨hraised, hchal, htries.trans ((fld_setFld_self _ _ _ rfl).trans (Nat.mod_eq_of_lt ?_)),
    hunlock.trans (fld_setFld_of_apart _ _ _ rfl rfl rfl)⟩
  have hlt := fld_tmr_lt s lifePage LIFE_STATE.TRIES
  change s.fld lifePage LIFE_STATE.TRIES < 4 at hlt
  change s.fld lifePage LIFE_STATE.TRIES + 1 < 4
  omega

/-- Settles O56, by the rows of the table of R354 and the three ends of a `SUBMIT`. -/
theorem lifecycleAndUnlock : Obligations.LifecycleAndUnlock := by
  unfold Obligations.LifecycleAndUnlock
  intro s ag
  refine ⟨fun confirm target => ⟨fun h => ?_, fun hsec hconf hburn hmay => ?_, fun hsec hconf hburn hmay => ?_⟩,
    fun p f hburn hwipe => ⟨fun hmore => bank7WipeDone_more hburn hwipe hmore,
      fun hlast => bank7WipeDone_last hburn hwipe hlast⟩,
    fun h => ?_, fun x hsec himage hstate => advanceFloor_raises hsec himage hstate, relock_locks s ag,
    fun x => ⟨fun h => accepts_of_writeBy rfl (if_pos h), fun h => unlockReq_draws h x⟩,
    fun h => unlockSubmit_exhausted h, fun h hgood => unlockSubmit_good h hgood, fun h hbad => unlockSubmit_bad h hbad⟩
  · refine accepts_of_writeBy rfl ?_
    split
    · next hsec =>
      exact requestTransition_stands (h.resolve_left (by rw [hsec]; exact Bool.noConfusion)) target
    · rfl
  · subst hconf
    exact lifeTransition_refused hsec hburn hmay
  · subst hconf
    exact lifeTransition_taken hsec hburn hmay
  · refine accepts_of_writeBy rfl ?_
    split
    · next hsec => exact advanceFloor_stands (h.resolve_left (by rw [hsec]; exact Bool.noConfusion))
    · rfl

end Sys2Proof.Proofs
end

section
/-! PROOFS. Tamper sensors and their responses. Settles O57. -/

namespace Sys2Proof.Proofs

open Sys2Proof Sys2Proof.Machine

/-! ### Tamper (R355, R357) -/

/-- A sensing is marked in `SEEN` and `NOW`, and counted. -/
def sensed (s : State) (i : Nat) : State :=
  ((s.markBit lifePage LIFE_TAMPER_STATUS.SEEN i).setFld lifePage LIFE_TAMPER_STATUS.NOW
    (putBit (s.fld lifePage LIFE_TAMPER_STATUS.NOW) i true)).count lifePage LIFE_TAMPER_STATUS.COUNT 1

/-- A state's response to a sensing that has been marked. -/
def respondTo (s u : State) (i action : Nat) : State :=
  if action = 0 then u.raise lifePage 5
  else if s.wiping ∧ s.tamperBusy.getLsbD i then u
  else if action = 2 then
    (({ u.wipeKeys with tamperBusy := BitVec.ofNat 6 (putBit (if s.wiping then s.tamperBusy.toNat else 0) i true) }).raise
      lifePage 1).packageReset 5
  else ({ u.wipeKeys with tamperBusy := BitVec.ofNat 6 (putBit (if s.wiping then s.tamperBusy.toNat else 0) i true) }).raise
    lifePage 1

theorem sense_eq (s : State) (i : Nat) : s.sense i = if s.tamperAction i = 3
    then respondTo s (sensed s i).fresh.2 i (0 + (sensed s i).fresh.1.toNat % 3)
    else respondTo s (sensed s i) i (s.tamperAction i) := by
  unfold State.sense respondTo sensed
  dsimp only
  by_cases h : s.tamperAction i = 3
  · rw [if_pos h, if_pos h]
    rfl
  · rw [if_neg h, if_neg h]

/-- `LIFE_TAMPER_STATUS` after a sensing. -/
structure Marked (s u : State) (i : Nat) : Prop where
  count : u.fld lifePage LIFE_TAMPER_STATUS.COUNT = min (s.fld lifePage LIFE_TAMPER_STATUS.COUNT + 1) (2 ^ 32 - 1)
  bits : ∀ j : Nat, j < 6 →
    (u.fld lifePage LIFE_TAMPER_STATUS.SEEN).testBit j
      = ((s.fld lifePage LIFE_TAMPER_STATUS.SEEN).testBit j || decide (j = i))
    ∧ (u.fld lifePage LIFE_TAMPER_STATUS.NOW).testBit j
      = ((s.fld lifePage LIFE_TAMPER_STATUS.NOW).testBit j || decide (j = i))

theorem Marked.of_reg {s u v : State} {i : Nat} (h : Marked s u i) (hreg : v.reg lifePage 0x160 = u.reg lifePage 0x160) :
    Marked s v i := by
  obtain ⟨hcount, hbits⟩ := h
  have hfld : ∀ {f : Fld}, f.off = 0x160 → v.fld lifePage f = u.fld lifePage f := fun hf => fld_of_reg (by rw [hf, hreg])
  refine ⟨(hfld rfl).trans hcount, fun j hj => ?_⟩
  rw [hfld (f := LIFE_TAMPER_STATUS.SEEN) rfl, hfld (f := LIFE_TAMPER_STATUS.NOW) rfl]
  exact hbits j hj

theorem testBit_putBit_mod (n i j : Nat) (hj : j < 6) :
    (putBit n i true % 2 ^ 6).testBit j = (n.testBit j || decide (j = i)) := by
  rw [Nat.testBit_mod_two_pow, testBit_putBit, decide_eq_true hj, Bool.true_and]
  by_cases h : j = i
  · rw [if_pos h, decide_eq_true h, Bool.or_true]
  · rw [if_neg h, decide_eq_false h, Bool.or_false]

theorem fld_markBit (s : State) (pk : Nat) (f : Fld) (i q : Nat) (g : Fld) :
    (s.markBit pk f i).fld q g = (s.setFld pk f (putBit (s.fld pk f) i true)).fld q g := rfl

theorem marked_sensed (s : State) (i : Nat) : Marked s (sensed s i) i := by
  unfold sensed
  refine ⟨?_, fun j hj => ⟨?_, ?_⟩⟩
  · rw [fld_count_self _ _ _ rfl, fld_setFld_of_apart _ _ _ rfl rfl rfl, fld_markBit,
      fld_setFld_of_apart _ _ _ rfl rfl rfl]
    rfl
  · unfold State.count
    rw [fld_setFld_of_apart _ _ _ rfl rfl rfl, fld_setFld_of_apart _ _ _ rfl rfl rfl, fld_markBit,
      fld_setFld_self _ _ _ rfl]
    exact testBit_putBit_mod _ i j hj
  · unfold State.count
    rw [fld_setFld_of_apart _ _ _ rfl rfl rfl, fld_setFld_self _ _ _ rfl]
    exact testBit_putBit_mod _ i j hj

theorem sensed_keeps {α : Type} (g : State → α) (s : State) (i : Nat)
    (hg : ∀ u r n, g { u with regs := r, setNow := n } = g u) : g (sensed s i) = g s := by
  have hregs : ∀ u r, g { u with regs := r } = g u := fun u r => hg u r u.setNow
  unfold sensed State.count
  rw [setFld_keeps g _ _ _ _ hregs, setFld_keeps g _ _ _ _ hregs]
  exact hg s _ _

/-- No slot holds keys. -/
def Keyless (u : State) : Prop := ∀ x : Painting, u.slotA = some x ∨ u.slotB = some x → x.secure = []

/-- What a sensing is with respect to the state before: the marks of R357, nothing else. -/
structure Sensed (s u : State) (i : Nat) : Prop where
  marked : Marked s u i
  variant : u.variant = s.variant
  boot : u.boot = s.boot
  fuses : u.fuses = s.fuses
  mem : u.mem = s.mem
  slots : u.slotA = s.slotA ∧ u.slotB = s.slotB

theorem sensed_sensed (s : State) (i : Nat) : Sensed s (sensed s i) i := by
  refine ⟨marked_sensed s i, sensed_keeps State.variant s i ?_, sensed_keeps State.boot s i ?_,
    sensed_keeps State.fuses s i ?_, sensed_keeps State.mem s i ?_, sensed_keeps State.slotA s i ?_,
    sensed_keeps State.slotB s i ?_⟩
  all_goals exact fun _ _ _ => rfl

theorem Sensed.fresh {s u : State} {i : Nat} (h : Sensed s u i) : Sensed s u.fresh.2 i := by
  obtain ⟨hmarked, hvariant, hboot, hfuses, hmem, hslots⟩ := h
  exact ⟨hmarked.of_reg rfl, hvariant, hboot, hfuses, hmem, hslots⟩

theorem Sensed.raise {s u : State} {i : Nat} (h : Sensed s u i) (b : Nat) : Sensed s (u.raise lifePage b) i := by
  obtain ⟨hmarked, hvariant, hboot, hfuses, hmem, hslotA, hslotB⟩ := h
  have keeps {α : Type} (g : State → α) := raise_keeps g u lifePage b
  refine ⟨hmarked.of_reg (reg_raise_ne u (by decide) (by decide)), (keeps State.variant ?_).trans hvariant,
    (keeps State.boot ?_).trans hboot, (keeps State.fuses ?_).trans hfuses, (keeps State.mem ?_).trans hmem,
    (keeps State.slotA ?_).trans hslotA, (keeps State.slotB ?_).trans hslotB⟩
  all_goals exact fun _ _ _ _ _ _ _ => rfl

/-- The keys have been wiped by a sensor's response, which is marked. -/
structure KeysWiped (s u : State) (i : Nat) : Prop where
  marked : Marked s u i
  raised : Raised u lifePage 1
  keyless : Keyless u
  commit : u.commit = none
  boot : u.boot = s.boot
  fuses : u.fuses = s.fuses
  void : ∀ p a : Nat, s.present p = true → 0x1C0000 ≤ a → a < 0x200000 → u.word p a = voidWord
  stands : ∀ p a : Nat, a < 0x1C0000 ∨ 0x200000 ≤ a → a < 2 ^ 48 → u.word p a = s.word p a

theorem keysWiped_of_sensed {s u : State} {i : Nat} (h : Sensed s u i) (busy : BitVec 6) :
    KeysWiped s (({ u.wipeKeys with tamperBusy := busy }).raise lifePage 1) i := by
  obtain ⟨hmarked, hvariant, hboot, hfuses, hmem, -⟩ := h
  have hreg := reg_life_wipeKeys u (o := 0x160) (by decide)
  obtain ⟨-, -, hcommit⟩ := slots_wipeKeys u
  have hkeyless : Keyless u.wipeKeys := fun x hx => secure_slots_wipeKeys hx
  have hword : ∀ p a : Nat, a < 2 ^ 48 → u.wipeKeys.word p a
      = if s.present p = true ∧ 0x1C0000 ≤ a ∧ a < 0x200000 then voidWord else s.word p a := fun p a ha => by
    rw [word_wipeKeys u ha]
    unfold State.present State.word
    rw [hvariant, hmem]
  have hboot' := (boot_wipeKeys u).trans hboot
  have hfuses' := (fuses_wipeKeys u).trans hfuses
  generalize u.wipeKeys = v at *
  have keeps {α : Type} (g : State → α) := raise_keeps g { v with tamperBusy := busy } lifePage 1
  have ha := keeps State.slotA fun _ _ _ _ _ _ _ => rfl
  have hb := keeps State.slotB fun _ _ _ _ _ _ _ => rfl
  have hw : ∀ p a, (({ v with tamperBusy := busy }).raise lifePage 1).word p a = v.word p a :=
    fun p a => keeps (State.word · p a) fun _ _ _ _ _ _ _ => rfl
  refine ⟨hmarked.of_reg ((reg_raise_ne _ (by decide) (by decide)).trans hreg),
    raised_raise _ lifePage (by decide) (source_life (by decide)), fun x hx => hkeyless x (by rwa [ha, hb] at hx),
    (keeps State.commit fun _ _ _ _ _ _ _ => rfl).trans hcommit, (keeps State.boot fun _ _ _ _ _ _ _ => rfl).trans hboot',
    (keeps State.fuses fun _ _ _ _ _ _ _ => rfl).trans hfuses', fun p a hp h1 h2 => ?_, fun p a hout ha48 => ?_⟩
  · exact (hw p a).trans ((hword p a (by omega)).trans (if_pos ⟨hp, h1, h2⟩))
  · exact (hw p a).trans ((hword p a ha48).trans (if_neg fun h => by omega))

/-- The package has been reset by a sensor's response. -/
structure ResetBySensor (s u : State) : Prop where
  boot : u.boot = .priming
  mem : u.mem = []
  keyless : Keyless u
  cause : u.fld modePkgPage MODE_RESET_CAUSE.CAUSE = 5
  fuses : u.fuses = s.fuses
  mode : ∀ sl : Nat, sl < 8 → u.mode sl = PRIME

theorem resetBySensor_of_keysWiped {s v : State} {i : Nat} (h : KeysWiped s v i) : ResetBySensor s (v.packageReset 5) := by
  obtain ⟨-, -, hkeyless, hcommit, -, hfuses, -, -⟩ := h
  obtain ⟨-, -, hmem, -, -, hmode, -, hcause, hfuses', -, -, -, -, -, hslots⟩ :=
    primed_resetPackage v .priming 0 (cause := 5) (by decide)
  obtain ⟨ha, hb⟩ := hslots hcommit
  exact ⟨boot_resetPackage _ _ _ _, hmem, fun x hx => hkeyless x (by rwa [← ha, ← hb]), hcause, hfuses'.trans hfuses, hmode⟩

/-- The sensor's response is running. -/
def RunsAgain (s : State) (i : Nat) : Prop := s.wiping = true ∧ s.tamperBusy.getLsbD i = true

theorem respondTo_zero (s u : State) (i : Nat) : respondTo s u i 0 = u.raise lifePage 5 := if_pos rfl

theorem respondTo_again {s : State} {i action : Nat} (h : RunsAgain s i) (hact : action ≠ 0) (u : State) :
    respondTo s u i action = u := (if_neg hact).trans (if_pos h)

theorem respondTo_wipes {s u : State} {i action : Nat} (h : ¬ RunsAgain s i) (hact : action ≠ 0) (h2 : action ≠ 2)
    (hu : Sensed s u i) : KeysWiped s (respondTo s u i action) i := by
  unfold RunsAgain at h
  unfold respondTo
  rw [if_neg hact, if_neg h, if_neg h2]
  exact keysWiped_of_sensed hu _

theorem respondTo_resets {s u : State} {i : Nat} (h : ¬ RunsAgain s i) (hu : Sensed s u i) :
    ResetBySensor s (respondTo s u i 2) := by
  unfold RunsAgain at h
  unfold respondTo
  rw [if_neg (by decide), if_neg h, if_pos rfl]
  exact resetBySensor_of_keysWiped (keysWiped_of_sensed hu _)

theorem exec_tamperSense {s : State} (hcold : s.boot ≠ .cold) (i : Fin 6) :
    exec (.tamperSense i) s = .next (s.sense i) := congrArg Host.Outcome.next (if_neg hcold)

theorem sense_of_action {s : State} {i action : Nat} (h : s.tamperAction i = action) (h3 : action ≠ 3) :
    s.sense i = respondTo s (sensed s i) i action := by
  rw [sense_eq, h, if_neg h3]

/-- An action that no code names acts as one of the others. -/
theorem sense_of_hostError {s : State} {i : Nat} (h : s.tamperAction i = 3) :
    (Marked s (s.sense i) i ∨ (s.sense i).boot = .priming) ∧ (s.sense i).fuses = s.fuses
      ∧ (Keyless (s.sense i) ∨ ((s.sense i).slotA = s.slotA ∧ (s.sense i).slotB = s.slotB ∧ (s.sense i).mem = s.mem)) := by
  rw [sense_eq, if_pos h]
  have hsensed := (sensed_sensed s i).fresh
  have hact : 0 + (sensed s i).fresh.1.toNat % 3 < 3 := by omega
  generalize (sensed s i).fresh.2 = u at hsensed
  generalize 0 + (sensed s i).fresh.1.toNat % 3 = action at hact
  by_cases h0 : action = 0
  · obtain ⟨hmarked, -, -, hfuses, hmem, ha, hb⟩ := hsensed.raise 5
    rw [h0, respondTo_zero]
    exact ⟨.inl hmarked, hfuses, .inr ⟨ha, hb, hmem⟩⟩
  by_cases hagain : RunsAgain s i
  · obtain ⟨hmarked, -, -, hfuses, hmem, ha, hb⟩ := hsensed
    rw [respondTo_again hagain h0]
    exact ⟨.inl hmarked, hfuses, .inr ⟨ha, hb, hmem⟩⟩
  by_cases h2 : action = 2
  · obtain ⟨hboot, -, hkeyless, -, hfuses, -⟩ := respondTo_resets hagain hsensed
    rw [h2]
    exact ⟨.inr hboot, hfuses, .inl hkeyless⟩
  · obtain ⟨hmarked, -, hkeyless, -, -, hfuses, -, -⟩ := respondTo_wipes hagain h0 h2 hsensed
    exact ⟨.inl hmarked, hfuses, .inl hkeyless⟩

/-- The last wipe of a bank 7 ends every response, where no transition waits for it. -/
theorem bank7WipeDone_ends {s : State} {p : Slice} (hburn : s.burn = none) (hwipe : (s.panel p).wipeBank7 = true)
    (hlast : ¬ OthersWipe s p) : Gives (.bank7WipeDone p) s (fun u => u.tamperBusy = 0 ∧ u.wiping = false) := by
  refine ⟨_, exec_bank7WipeDone hwipe, ?_⟩
  unfold State.endWipes
  have hwiping : (bankWiped s p).wiping = false :=
    Bool.eq_false_iff.mpr fun h => hlast ((wiping_bankWiped s p).mp h)
  have hb : (bankWiped s p).burn = none := (bankWiped_keeps State.burn s p fun _ _ _ _ _ _ _ => rfl).trans hburn
  generalize bankWiped s p = v at hwiping hb
  rw [hwiping, if_neg Bool.false_ne_true]
  unfold State.endTransition
  dsimp only
  rw [hb]
  exact ⟨rfl, hwiping⟩

theorem tamperSenseEnd_clears (s : State) (i : Fin 6) : Gives (.tamperSenseEnd i) s (fun u =>
    u.fld lifePage LIFE_TAMPER_STATUS.SEEN = s.fld lifePage LIFE_TAMPER_STATUS.SEEN
    ∧ u.fld lifePage LIFE_TAMPER_STATUS.COUNT = s.fld lifePage LIFE_TAMPER_STATUS.COUNT ∧ u.mem = s.mem
    ∧ ∀ j : Nat, j < 6 → (u.fld lifePage LIFE_TAMPER_STATUS.NOW).testBit j
        = ((s.fld lifePage LIFE_TAMPER_STATUS.NOW).testBit j && decide (j ≠ i.val))) := by
  refine ⟨_, rfl, fld_setFld_of_apart _ _ _ rfl rfl rfl, fld_setFld_of_apart _ _ _ rfl rfl rfl, rfl, fun j hj => ?_⟩
  rw [fld_setFld_self _ _ _ rfl]
  refine (Nat.testBit_mod_two_pow _ 6 j).trans ?_
  rw [testBit_putBit, decide_eq_true hj, Bool.true_and]
  by_cases h : j = i.val
  · rw [if_pos h, decide_eq_false (not_not_intro h), Bool.and_false]
  · rw [if_neg h, decide_eq_true h, Bool.and_true]

/-- Settles O57, by the sensor's action and whether its response runs. -/
theorem tamperWipesTheKeys : Obligations.TamperWipesTheKeys := by
  unfold Obligations.TamperWipesTheKeys
  intro s i
  refine ⟨fun hcold => congrArg Host.Outcome.next (if_pos hcold), fun hcold => ⟨fun hact => ?_, fun hact => ?_,
    fun hact hagain => ?_, fun hact hagain => ?_, fun hact hagain => ?_⟩,
    fun p hburn hwipe hothers => bank7WipeDone_ends hburn hwipe ?_, tamperSenseEnd_clears s i⟩
  · refine ⟨_, exec_tamperSense hcold i, ?_⟩
    rw [sense_of_action hact (by decide), respondTo_zero]
    obtain ⟨⟨hcount, hbits⟩, -, -, -, hmem, hslots⟩ := (sensed_sensed s i).raise 5
    exact ⟨⟨hcount, hbits⟩, raised_raise _ lifePage (by decide) (source_life (by decide)), hmem, hslots⟩
  · obtain ⟨hmarked, hfuses, hkeys⟩ := sense_of_hostError (i := i.val) hact
    exact ⟨_, exec_tamperSense hcold i, hmarked.imp_left fun ⟨hcount, hbits⟩ => ⟨hcount, hbits⟩, hfuses, hkeys⟩
  · refine ⟨_, exec_tamperSense hcold i, ?_⟩
    obtain ⟨⟨hcount, hbits⟩, -, hboot, -, hmem, ha, hb⟩ := sensed_sensed s i
    rcases hact with hact | hact
    all_goals
      rw [sense_of_action hact (by decide), respondTo_again hagain (by decide)]
      exact ⟨⟨hcount, hbits⟩, hmem, ha, hb, hboot⟩
  · refine ⟨_, exec_tamperSense hcold i, ?_⟩
    rw [sense_of_action hact (by decide)]
    obtain ⟨⟨hcount, hbits⟩, hraised, hkeyless, hcommit, hboot, -, hvoid, hstands⟩ :=
      respondTo_wipes (action := 1) hagain (by decide) (by decide) (sensed_sensed s i)
    exact ⟨⟨hcount, hbits⟩, hraised, hkeyless, hcommit, hboot, hvoid, hstands⟩
  · refine ⟨_, exec_tamperSense hcold i, ?_⟩
    rw [sense_of_action hact (by decide)]
    obtain ⟨hboot, hmem, hkeyless, hcause, hfuses, hmode⟩ := respondTo_resets hagain (sensed_sensed s i)
    exact ⟨hboot, hmem, hkeyless, hcause, hfuses, hmode⟩
  · rintro ⟨q, hqp, hq, hw⟩
    rw [hothers q hqp hq] at hw
    exact Bool.noConfusion hw

end Sys2Proof.Proofs
end

section
/-! PROOFS. Commits of the underpainting. Settles O55. -/

namespace Sys2Proof.Proofs

open Sys2Proof Sys2Proof.Machine

/-! ### What a commit captures (R336, R337) -/

theorem putBits_bits_self (w : Word) (hi lo : Nat) : putBits w hi lo (bits w hi lo) = w := by
  have hle : w.toNat >>> lo % 2 ^ (hi + 1 - lo) * 2 ^ lo ≤ w.toNat :=
    calc w.toNat >>> lo % 2 ^ (hi + 1 - lo) * 2 ^ lo ≤ w.toNat >>> lo * 2 ^ lo := Nat.mul_le_mul_right _ (Nat.mod_le _ _)
      _ ≤ w.toNat := by rw [Nat.shiftRight_eq_div_pow]; exact Nat.div_mul_le_self _ _
  unfold putBits bits
  rw [Nat.mod_mod, Nat.sub_add_cancel hle, BitVec.ofNat_toNat, BitVec.setWidth_eq]

theorem keepU_default (k o : Nat) : keepU k o (defaultWord k o) = defaultWord k o := by
  unfold keepU
  generalize fieldsAt k o = l
  generalize defaultWord k o = w
  induction l with
  | nil => rfl
  | cons f l ih =>
    rw [List.foldl_cons]
    split
    · rw [putBits_bits_self]
      exact ih
    · exact ih

theorem read_map_filter {α : Type} (d : α) (m : Store α) (g : Nat → α → α) (keep : Nat × α → Bool) {k : Nat}
    (hnodup : (m.map Prod.fst).Nodup) (hd : g k d = d) (hkeep : ∀ v, keep (k, g k v) = false → g k v = d) :
    Store.read d ((m.map (fun e => (e.1, g e.1 e.2))).filter keep) k = g k (Store.read d m k) := by
  induction m with
  | nil => exact hd.symm
  | cons e m ih =>
    obtain ⟨j, v⟩ := e
    rw [List.map_cons, List.nodup_cons] at hnodup
    have hread : Store.read d ((j, v) :: m) k = if j = k then v else Store.read d m k := rfl
    have hrest := ih hnodup.2
    rw [List.map_cons, hread]
    by_cases hjk : j = k
    · subst hjk
      rw [if_pos rfl]
      by_cases hk : keep (j, g j v) = true
      · rw [List.filter_cons_of_pos hk]
        exact if_pos rfl
      · have habsent : Store.read d m j = d := by
          by_contra hne
          exact hnodup.1 (List.mem_map.mpr ⟨_, mem_of_read_ne hne, rfl⟩)
        rw [List.filter_cons_of_neg hk, hrest, habsent, hd, hkeep v (Bool.eq_false_iff.mpr hk)]
    · rw [if_neg hjk, ← hrest]
      by_cases hk : keep (j, g j v) = true
      · rw [List.filter_cons_of_pos hk]
        exact if_neg hjk
      · rw [List.filter_cons_of_neg hk]

theorem read_place_ne {α : Type} (d : α) {k i : Nat} (v : α) (m : Store α) (h : i ≠ k) :
    Store.read d (Store.place k v m) i = Store.read d m i := by
  induction m with
  | nil => exact if_neg fun hk => h hk.symm
  | cons e m ih =>
    obtain ⟨j, w⟩ := e
    unfold Store.place
    split
    · exact if_neg fun hk => h hk.symm
    · change (if j = i then w else _) = if j = i then w else _
      rw [ih]

theorem read_joinStores (d : Word) (a b : Store Word) {i : Nat} (h : ∀ e ∈ b, i ≠ e.1) :
    Store.read d (joinStores a b) i = Store.read d a i := by
  unfold joinStores
  induction b generalizing a with
  | nil => rfl
  | cons e b ih =>
    rw [List.foldl_cons, ih _ fun x hx => h x (List.mem_cons_of_mem e hx), read_place_ne d _ _ (h e List.mem_cons_self)]

theorem regKey_div {k o : Nat} (ho : o < 4096) : regKey k o / 4096 = k ∧ regKey k o % 4096 = o := by
  unfold regKey
  omega

theorem read_captureU {s : State} {sel : Nat → Bool} {k o : Nat} (ho : o < 4096) (hu : hasU k o = true)
    (hsel : sel k = true) (hnodup : (s.regs.map Prod.fst).Nodup) :
    Store.read (defaultWord k o) (s.captureU sel) (regKey k o) = keepU k o (s.reg k o) := by
  obtain ⟨hdiv, hmod⟩ := regKey_div (k := k) ho
  refine (read_map_filter (defaultWord k o) s.regs (fun i v => keepU (i / 4096) (i % 4096) v) _ hnodup ?_
    (fun v hv => ?_)).trans ?_
  · rw [hdiv, hmod, keepU_default]
  · dsimp only at hv ⊢
    rw [hdiv, hmod, hsel, hu, Bool.true_and, Bool.true_and, decide_eq_false_iff_not, not_not] at hv
    rw [hdiv, hmod, hv]
  · rw [hdiv, hmod]
    rfl

/-- A page of a panel whose own fields the commit carries over. -/
def carriesPage (s : State) (pk : Nat) : Bool := isPanelPage pk && s.carriedPanels.contains (windowOf pk - 8)

/-- The fields of a commit. -/
def commitFields (s : State) : Store Word :=
  joinStores (s.captureU (fun pk => !carriesPage s pk))
    ((s.newestSlot.elim [] (fun x => x.2.fields)).filter (fun e => carriesPage s (e.1 / 4096)))

theorem read_commitFields {s : State} {k o : Nat} (ho : o < 4096) (hu : hasU k o = true)
    (hnodup : (s.regs.map Prod.fst).Nodup) (hcarry : carriesPage s k = false) :
    Store.read (defaultWord k o) (commitFields s) (regKey k o) = keepU k o (s.reg k o) := by
  unfold commitFields
  rw [read_joinStores _ _ _ fun e he hk => ?_, read_captureU ho hu (by rw [hcarry]; rfl) hnodup]
  have hpage := (List.mem_filter.mp he).2
  rw [← hk, (regKey_div ho).1, hcarry] at hpage
  exact Bool.noConfusion hpage

theorem carriesPage_of_none {s : State} (h : s.carriedPanels = []) (k : Nat) : carriesPage s k = false := by
  unfold carriesPage
  rw [h]
  exact Bool.and_false _

theorem carriesPage_of_one {s : State} {p k : Nat} (h : s.carriedPanels = [p]) (hk : windowOf k ≠ 8 + p) :
    carriesPage s k = false := by
  unfold carriesPage
  rw [h, Bool.and_eq_false_iff]
  by_cases hpanel : isPanelPage k = true
  · right
    unfold isPanelPage at hpanel
    rw [Bool.and_eq_true, decide_eq_true_eq, decide_eq_true_eq] at hpanel
    rw [List.contains_eq_mem, decide_eq_false_iff_not, List.mem_singleton]
    omega
  · exact .inl (Bool.eq_false_iff.mpr hpanel)

/-! ### The start and the end of a commit (R337, R345) -/

/-- A commit takes slot B. -/
def takesB (s : State) : Bool := s.newestSlot.elim false (fun x => !x.1)

/-- What a commit writes. -/
def commitData (s : State) (secure : Store TWord) : Painting :=
  Painting.sealed ⟨slotMarker, s.variant, s.newestSlot.elim 1 (fun x => (x.2.gen + 1) % 2 ^ 32), s.canvas % 2 ^ 62, 0,
    commitFields s, secure⟩

/-- The slot of a commit that has started is invalid. -/
def slotTaken (s : State) (secure : Store TWord) : State :=
  if takesB s then
    { s with slotB := some (commitData s secure).spoiled, commit := some ⟨takesB s, commitData s secure⟩ }
  else { s with slotA := some (commitData s secure).spoiled, commit := some ⟨takesB s, commitData s secure⟩ }

theorem startCommit_eq {s : State} (keys : Bool) (h : s.flag upntPage UPNT_STATUS.BUSY = false) :
    s.startCommit keys = (((slotTaken s (if keys then s.captureKeys else s.newestSlot.elim [] (fun x => x.2.secure))).setFld
      upntPage UPNT_STATUS.BUSY 1).setFld upntPage UPNT_STATUS.CARRIED
        (s.carriedPanels.map (fun p => 2 ^ p)).sum).showSlots := by
  unfold State.startCommit slotTaken commitData takesB commitFields carriesPage
  rw [h, if_neg Bool.false_ne_true]
  cases s.newestSlot <;> rfl

/-- The fields of the underpainting's page that the status of the slots does not show. -/
theorem fld_showSlots (s : State) {f : Fld} (hf : fits f = true) (ha : apart UPNT_STATUS.A_VALID f = true)
    (hb : apart UPNT_STATUS.B_VALID f = true) (hn : apart UPNT_STATUS.NEWEST f = true)
    (hg : apart UPNT_STATUS.GEN f = true) (ht : apart UPNT_COMMITTED.TICK f = true) :
    s.showSlots.fld upntPage f = s.fld upntPage f := by
  unfold State.showSlots
  split
  · rw [fld_setFld_of_apart _ _ _ rfl hf hn, fld_setFld_of_apart _ _ _ rfl hf hb, fld_setFld_of_apart _ _ _ rfl hf ha]
  · rw [fld_setFld_of_apart _ _ _ rfl hf ht, fld_setFld_of_apart _ _ _ rfl hf hg, fld_setFld_of_apart _ _ _ rfl hf hn,
      fld_setFld_of_apart _ _ _ rfl hf hb, fld_setFld_of_apart _ _ _ rfl hf ha]

theorem slotTaken_keeps {α : Type} (g : State → α) (s : State) (secure : Store TWord)
    (hg : ∀ u c a b, g { u with commit := c, slotA := a, slotB := b } = g u) : g (slotTaken s secure) = g s := by
  unfold slotTaken
  split
  · exact hg s _ s.slotA _
  · exact hg s _ _ s.slotB

theorem valid_commitData (s : State) (secure : Store TWord) :
    (commitData s secure).valid s.variant = true ∧ (commitData s secure).spoiled.valid s.variant = false := by
  constructor
  · unfold commitData
    rw [valid_sealed, decide_eq_true rfl, decide_eq_true rfl]
    rfl
  · exact valid_spoiled _ _

theorem slots_slotTaken (s : State) (secure : Store TWord) :
    (takesB s = true → (slotTaken s secure).slotA = s.slotA
        ∧ (slotTaken s secure).slotB.map (Painting.valid s.variant) = some false)
      ∧ (takesB s = false → (slotTaken s secure).slotB = s.slotB
        ∧ (slotTaken s secure).slotA.map (Painting.valid s.variant) = some false)
      ∧ (slotTaken s secure).commit = some ⟨takesB s, commitData s secure⟩ := by
  obtain ⟨-, hspoiled⟩ := valid_commitData s secure
  unfold slotTaken
  generalize commitData s secure = data at hspoiled
  have hmap : (some data.spoiled).map (Painting.valid s.variant) = some false := congrArg some hspoiled
  cases takesB s
  · exact ⟨fun h => Bool.noConfusion h, fun _ => ⟨rfl, hmap⟩, rfl⟩
  · exact ⟨fun _ => ⟨rfl, hmap⟩, fun h => Bool.noConfusion h, rfl⟩

theorem startCommit_starts {s : State} (keys : Bool) {secure : Store TWord}
    (hsecure : (if keys then s.captureKeys else s.newestSlot.elim [] (fun x => x.2.secure)) = secure)
    (h : s.flag upntPage UPNT_STATUS.BUSY = false) {u : State} (hu : s.startCommit keys = u) :
    u.flag upntPage UPNT_STATUS.BUSY = true ∧ u.mem = s.mem ∧ u.threads = s.threads
      ∧ (takesB s = true → u.slotA = s.slotA ∧ u.slotB.map (Painting.valid s.variant) = some false)
      ∧ (takesB s = false → u.slotB = s.slotB ∧ u.slotA.map (Painting.valid s.variant) = some false)
      ∧ u.commit = some ⟨takesB s, commitData s secure⟩
      ∧ u.fld upntPage UPNT_STATUS.CARRIED = (s.carriedPanels.map (fun p => 2 ^ p)).sum % 2 ^ 8 := by
  rw [startCommit_eq keys h, hsecure] at hu
  obtain ⟨hB, hA, hcommit⟩ := slots_slotTaken s secure
  have hmem := slotTaken_keeps State.mem s secure fun _ _ _ _ => rfl
  have hthreads := slotTaken_keeps State.threads s secure fun _ _ _ _ => rfl
  generalize slotTaken s secure = v at *
  generalize (s.carriedPanels.map (fun p => 2 ^ p)).sum = mask at *
  have hbusy : u.fld upntPage UPNT_STATUS.BUSY = 1 := by
    rw [← hu, fld_showSlots _ rfl rfl rfl rfl rfl rfl, fld_setFld_of_apart _ _ _ rfl rfl rfl, fld_setFld_self _ _ _ rfl]
    rfl
  have hcarried : u.fld upntPage UPNT_STATUS.CARRIED = mask % 2 ^ 8 := by
    rw [← hu, fld_showSlots _ rfl rfl rfl rfl rfl rfl, fld_setFld_self _ _ _ rfl]
    rfl
  have keeps {α : Type} (g : State → α) (hg : ∀ w r, g { w with regs := r } = g w) : g u = g v := by
    rw [← hu, showSlots_keeps g _ hg, setFld_keeps g _ _ _ _ hg, setFld_keeps g _ _ _ _ hg]
  rw [keeps State.mem fun _ _ => rfl, keeps State.threads fun _ _ => rfl, keeps State.slotA fun _ _ => rfl,
    keeps State.slotB fun _ _ => rfl, keeps State.commit fun _ _ => rfl]
  refine ⟨?_, hmem, hthreads, hB, hA, hcommit, hcarried⟩
  rw [flag_eq, hbusy]
  rfl

/-- What a commit that starts leaves, as the statement of the obligation has it. -/
def CommitStarts (s : State) (secure : Store TWord) (u : State) : Prop :=
  u.flag upntPage UPNT_STATUS.BUSY = true ∧ u.mem = s.mem ∧ u.threads = s.threads
  ∧ (takesB s = true → u.slotA = s.slotA ∧ u.slotB.map (Painting.valid s.variant) = some false)
  ∧ (takesB s = false → u.slotB = s.slotB ∧ u.slotA.map (Painting.valid s.variant) = some false)
  ∧ ∃ w : Commit, u.commit = some w ∧ w.slotB = takesB s ∧ w.data.valid s.variant = true ∧ w.data.secure = secure
    ∧ w.data.tick = s.canvas % 2 ^ 62
    ∧ w.data.gen = s.newestSlot.elim 1 (fun x => (x.2.gen + 1) % 2 ^ 32)
    ∧ ((s.regs.map Prod.fst).Nodup → s.carriedPanels = [] →
        u.fld upntPage UPNT_STATUS.CARRIED = 0
        ∧ ∀ k o : Nat, o < 4096 → hasU k o = true →
          Store.read (defaultWord k o) w.data.fields (regKey k o) = keepU k o (s.reg k o))
    ∧ ∀ p : Nat, p < 8 → (s.regs.map Prod.fst).Nodup → s.carriedPanels = [p] →
        u.fld upntPage UPNT_STATUS.CARRIED = 2 ^ p
        ∧ ∀ k o : Nat, o < 4096 → hasU k o = true → windowOf k ≠ 8 + p →
          Store.read (defaultWord k o) w.data.fields (regKey k o) = keepU k o (s.reg k o)

theorem commitStarts_startCommit {s : State} (keys : Bool) {secure : Store TWord}
    (hsecure : (if keys then s.captureKeys else s.newestSlot.elim [] (fun x => x.2.secure)) = secure)
    (h : s.flag upntPage UPNT_STATUS.BUSY = false) : CommitStarts s secure (s.startCommit keys) := by
  obtain ⟨hbusy, hmem, hthreads, hB, hA, hcommit, hcarried⟩ := startCommit_starts keys hsecure h rfl
  refine ⟨hbusy, hmem, hthreads, hB, hA, _, hcommit, rfl, (valid_commitData s secure).1, rfl, rfl, rfl,
    fun hnodup hnone => ⟨?_, fun k o ho hu => ?_⟩, fun p hp hnodup hone => ⟨?_, fun k o ho hu hk => ?_⟩⟩
  · rw [hcarried, hnone]
    rfl
  · exact read_commitFields ho hu hnodup (carriesPage_of_none hnone k)
  · rw [hcarried, hone, List.map_singleton, List.sum_singleton]
    exact Nat.mod_eq_of_lt (Nat.pow_lt_pow_right (by decide) hp)
  · exact read_commitFields ho hu hnodup (carriesPage_of_one hone hk)

theorem source_upnt {b : Nat} (hb : b ≤ 2) : (sourceOf upntPage b).isSome = true := by
  interval_cases b <;> rfl

/-- A commit that ends leaves its slot written, or as it was, where it failed. -/
def commitEnded (s : State) (ok : Bool) (c : Commit) : State :=
  { (if ok = false then s
    else if c.slotB then { s with slotB := some c.data } else { s with slotA := some c.data }) with commit := none }

theorem commitEnded_spec (s : State) (ok : Bool) (c : Commit) : (commitEnded s ok c).commit = none
    ∧ (commitEnded s ok c).mem = s.mem
    ∧ (commitEnded s ok c).slotA = (if ok = true ∧ c.slotB = false then some c.data else s.slotA)
    ∧ (commitEnded s ok c).slotB = (if ok = true ∧ c.slotB = true then some c.data else s.slotB) := by
  unfold commitEnded
  cases ok <;> cases c.slotB <;> exact ⟨rfl, rfl, rfl, rfl⟩

theorem commitDone_ends {s : State} (ok : Bool) {c : Commit} (h : s.commit = some c) :
    Gives (.commitDone ok) s (fun u => u.commit = none ∧ u.mem = s.mem
      ∧ u.flag upntPage UPNT_STATUS.BUSY = false ∧ u.flag upntPage UPNT_STATUS.FAILED = !ok
      ∧ u.slotA = (if ok = true ∧ c.slotB = false then some c.data else s.slotA)
      ∧ u.slotB = (if ok = true ∧ c.slotB = true then some c.data else s.slotB)
      ∧ Raised u upntPage (if ok then 0 else 1)) := by
  have hexec : exec (.commitDone ok) s = .next ((((commitEnded s ok c).setFld upntPage UPNT_STATUS.BUSY 0).setFld upntPage
      UPNT_STATUS.FAILED (!ok).toNat).showSlots.raise upntPage (if ok then 0 else 1)) := by
    change execCommitDone ok s = _
    unfold execCommitDone commitEnded
    rw [h]
  obtain ⟨hcommit, hmem, hslotA, hslotB⟩ := commitEnded_spec s ok c
  have hb : (if ok then 0 else 1) ≤ 2 := by cases ok <;> decide
  generalize commitEnded s ok c = v at *
  generalize (if ok then 0 else 1) = b at *
  refine ⟨_, hexec, ?_⟩
  generalize hu : ((v.setFld upntPage UPNT_STATUS.BUSY 0).setFld upntPage UPNT_STATUS.FAILED (!ok).toNat).showSlots = u
  have keeps {α : Type} (g : State → α) (hg : ∀ w r n a e x t, g { w with regs := r, setNow := n, evArrived := a, evPend := e, events := x, threads := t } = g w) :
      g (u.raise upntPage b) = g v := by
    have hregs : ∀ w r, g { w with regs := r } = g w := fun w r =>
      hg w r w.setNow w.evArrived w.evPend w.events w.threads
    rw [raise_keeps g _ _ _ hg, ← hu, showSlots_keeps g _ hregs, setFld_keeps g _ _ _ _ hregs, setFld_keeps g _ _ _ _ hregs]
  have hbusy : (u.raise upntPage b).fld upntPage UPNT_STATUS.BUSY = 0 := by
    rw [fld_raise _ _ _ _ rfl (by decide), ← hu, fld_showSlots _ rfl rfl rfl rfl rfl rfl,
      fld_setFld_of_apart _ _ _ rfl rfl rfl, fld_setFld_self _ _ _ rfl]
    rfl
  have hfailed : (u.raise upntPage b).fld upntPage UPNT_STATUS.FAILED = (!ok).toNat % 2 := by
    rw [fld_raise _ _ _ _ rfl (by decide), ← hu, fld_showSlots _ rfl rfl rfl rfl rfl rfl, fld_setFld_self _ _ _ rfl]
    rfl
  rw [flag_eq, flag_eq, hbusy, hfailed, keeps State.commit fun _ _ _ _ _ _ _ => rfl,
    keeps State.mem fun _ _ _ _ _ _ _ => rfl, keeps State.slotA fun _ _ _ _ _ _ _ => rfl,
    keeps State.slotB fun _ _ _ _ _ _ _ => rfl]
  refine ⟨hcommit, hmem, rfl, ?_, hslotA, hslotB, raised_raise u upntPage (by omega) (source_upnt hb)⟩
  cases ok <;> rfl

/-- Settles O55, by what the start of a commit captures and what its end leaves. -/
theorem commitsWriteTheOlderSlot : Obligations.CommitsWriteTheOlderSlot := by
  unfold Obligations.CommitsWriteTheOlderSlot
  intro s ag
  have hbusy : s.flag upntPage UPNT_STATUS.BUSY = true → ∀ keys, s.startCommit keys = s := fun h keys => if_pos h
  refine ⟨fun h => ⟨accepts_of_writeBy rfl (hbusy h false), accepts_of_writeBy rfl ?_⟩,
    fun hsec => accepts_of_writeBy rfl ?_, fun h => ?_, fun h hsec => ?_,
    fun ok => ⟨fun hnone => ?_, fun c hc => commitDone_ends ok hc⟩⟩
  · split
    · exact hbusy h true
    · rfl
  · rw [hsec]
    exact if_neg Bool.false_ne_true
  · have hstarts : CommitStarts s (s.newestSlot.elim [] (fun x => x.2.secure)) (s.startCommit false) :=
      commitStarts_startCommit false rfl h
    exact acceptsTo_of_writeBy rfl hstarts
  · have hstarts : CommitStarts s s.captureKeys (if s.secure ag then s.startCommit true else s) := by
      rw [if_pos hsec]
      exact commitStarts_startCommit true rfl h
    exact acceptsTo_of_writeBy rfl hstarts
  · change execCommitDone ok s = _
    unfold execCommitDone
    rw [hnone]

end Sys2Proof.Proofs
end

section
/-! PROOFS. What steps inside the panels and steps of a mode leave as it was. -/

namespace Sys2Proof.Proofs

open Sys2Proof Sys2Proof.Machine

/-! ### Steps inside the panels

What a panel's units do to each other leaves every register outside the panels' windows and every other unit. -/

/-- What a function of the state says does not depend on registers, events, memory or the panels' units. -/
def Outer {α : Type} (g : State → α) : Prop :=
  ∀ w r n a e v t c pa d tm j h f m b po fl o, g { w with regs := r, setNow := n, evArrived := a, evPend := e, events := v, threads := t, cores := c, panels := pa, dmas := d, timers := tm, journals := j, handovers := h, free := f, mem := m, badWords := b, poisoned := po, flips := fl, outputs := o } = g w

/-- What a function of a panel says does not depend on its caches, its rest, its traffic, or a tag entry met. -/
def OuterPanel {α : Type} (h : Panel → α) : Prop :=
  ∀ p l i r w b t, h { p with l2 := l, island := i, restFrom := r, watched := w, hasBulk := b, tagHit := t } = h p

theorem Outer.regs {α : Type} {g : State → α} (hg : Outer g) (w : State) (r : Store Word) : g { w with regs := r } = g w :=
  hg w r _ _ _ _ _ _ _ _ _ _ _ _ _ _ _ _ _

theorem Outer.panels {α : Type} {g : State → α} (hg : Outer g) (w : State) (p : Store Panel) :
    g { w with panels := p } = g w := hg w _ _ _ _ _ _ _ p _ _ _ _ _ _ _ _ _ _

theorem Outer.raise {α : Type} {g : State → α} (hg : Outer g) (w : State) (pk b : Nat) : g (w.raise pk b) = g w :=
  raise_keeps g w pk b fun u r n a e v t => hg u r n a e v t _ _ _ _ _ _ _ _ _ _ _ _

theorem Outer.trips : Outer State.trips := fun _ _ _ _ _ _ _ _ _ _ _ _ _ _ _ _ _ _ _ => rfl

theorem Outer.ticks : Outer State.ticks := fun _ _ _ _ _ _ _ _ _ _ _ _ _ _ _ _ _ _ _ => rfl

theorem Outer.variant : Outer State.variant := fun _ _ _ _ _ _ _ _ _ _ _ _ _ _ _ _ _ _ _ => rfl

theorem Outer.convs : Outer State.convs := fun _ _ _ _ _ _ _ _ _ _ _ _ _ _ _ _ _ _ _ => rfl

/-- A page of a panel's window, but that of its own event controller. -/
def unitPage (pk : Nat) : Bool := isPanelPage pk && decide (pk % 4096 ≠ 2)

theorem unitPage_of_not_isPanelPage {pk : Nat} (h : isPanelPage pk = false) : unitPage pk = false := by
  unfold unitPage
  rw [h, Bool.false_and]

theorem unitPage_panelPage {p n : Nat} (hp : p < 8) (hn : n < 4096) (hne : n ≠ 2 := by decide) :
    unitPage (panelPage p n) = true := by
  unfold unitPage
  rw [isPanelPage_panelPage hp hn, Bool.true_and, decide_eq_true_eq]
  unfold panelPage
  omega

theorem unitPage_evcPage {p : Nat} : unitPage (evcPage p 0) = false := by
  have h : evcPage p 0 % 4096 = 2 := by
    unfold evcPage panelPage
    omega
  unfold unitPage
  rw [decide_eq_false (fun hne => hne h), Bool.and_false]

/-- A state that a step inside the panels leaves. -/
structure Inward (s u : State) : Prop where
  keeps : ∀ {α : Type} (g : State → α), Outer g → g u = g s
  regs : ∀ q o : Nat, o < 4096 → unitPage q = false → u.reg q o = s.reg q o
  panel : ∀ {α : Type} (h : Panel → α), OuterPanel h → ∀ k, h (u.panel k) = h (s.panel k)
  runs : ∀ k, (s.panel k).island = false → (u.panel k).island = false

namespace Inward
variable {s u v : State}

theorem refl (s : State) : Inward s s :=
  ⟨fun _ _ => rfl, fun _ _ _ _ => rfl, fun _ _ _ => rfl, fun _ hk => hk⟩

theorem trans (h : Inward s u) (h' : Inward u v) : Inward s v :=
  ⟨fun g hg => (h'.keeps g hg).trans (h.keeps g hg), fun q o ho hq => (h'.regs q o ho hq).trans (h.regs q o ho hq),
    fun f hf k => (h'.panel f hf k).trans (h.panel f hf k), fun k hk => h'.runs k (h.runs k hk)⟩

theorem ite {c : Prop} [Decidable c] {t e : State} (ht : c → Inward s t) (he : ¬ c → Inward s e) :
    Inward s (if c then t else e) := by
  split
  · next hc => exact ht hc
  · next hc => exact he hc

theorem foldl {β : Type} {f : State → β → State} {l : List β} (h : Inward s u)
    (hf : ∀ x ∈ l, ∀ w, Inward w (f w x)) : Inward s (l.foldl f u) := by
  induction l generalizing u with
  | nil => exact h
  | cons x l ih => exact ih (h.trans (hf x List.mem_cons_self u)) fun y hy => hf y (List.mem_cons_of_mem x hy)

/-- Fields that no function of what lies outside depends on, other than registers and panels. -/
theorem inner (s : State) (n : Store Word) (a e : Store Bool) (v : List EventTransfer) (t : Store Thread) (c : Store Core)
    (d : Store Dma) (tm : Store Timer) (j : Store Journal) (h : Store Handover) (f : Nat) (m : Store TWord)
    (b po : List Nat) (fl : List Flip) (o : List (Nat × Nat × Nat)) :
    Inward s { s with setNow := n, evArrived := a, evPend := e, events := v, threads := t, cores := c, dmas := d, timers := tm, journals := j, handovers := h, free := f, mem := m, badWords := b, poisoned := po, flips := fl, outputs := o } :=
  ⟨fun _ hg => hg s s.regs n a e v t c s.panels d tm j h f m b po fl o, fun _ _ _ _ => rfl, fun _ _ _ => rfl, fun _ hk => hk⟩

theorem of_setReg (s : State) {pk off : Nat} (hpk : unitPage pk = true) (hoff : off < 4096) (x : Word) :
    Inward s (s.setReg pk off x) := by
  refine ⟨fun g hg => hg s _ _ _ _ _ _ _ _ _ _ _ _ _ _ _ _ _ _, fun q o ho hq => ?_, fun _ _ _ => rfl,
    fun _ hk => hk⟩
  refine reg_setReg_ne s x ho hoff fun h => ?_
  rw [(Prod.mk.inj h).1, hpk] at hq
  exact Bool.noConfusion hq

theorem of_setPanel (s : State) (p : Nat) {x : Panel}
    (hx : ∀ {α : Type} (h : Panel → α), OuterPanel h → h x = h (s.panel p))
    (hi : (s.panel p).island = false → x.island = false) : Inward s (s.setPanel p x) := by
  refine ⟨fun g hg => hg s _ _ _ _ _ _ _ _ _ _ _ _ _ _ _ _ _ _, fun _ _ _ _ => rfl, fun h hh k => ?_, fun k hi' => ?_⟩ <;>
    by_cases hk : k = p
  · rw [hk, panel_setPanel_self, hx h hh]
  · rw [panel_setPanel_ne _ _ hk]
  · rw [hk, panel_setPanel_self, hi (hk ▸ hi')]
  · rwa [panel_setPanel_ne _ _ hk]

theorem setReg (h : Inward s u) {pk off : Nat} (hpk : unitPage pk = true) (hoff : off < 4096) (x : Word) :
    Inward s (u.setReg pk off x) := h.trans (of_setReg u hpk hoff x)

theorem setFld (h : Inward s u) {pk : Nat} (hpk : unitPage pk = true) (f : Fld) (x : Nat)
    (hf : f.off < 4096 := by decide) : Inward s (u.setFld pk f x) := h.setReg hpk hf _

theorem count (h : Inward s u) {pk : Nat} (hpk : unitPage pk = true) (f : Fld) (x : Nat)
    (hf : f.off < 4096 := by decide) : Inward s (u.count pk f x) := h.setFld hpk f _ hf

theorem mark (h : Inward s u) {pk : Nat} (hpk : unitPage pk = true) (f : Fld)
    (hf : f.off < 4096 := by decide) : Inward s (u.mark pk f) := by
  rw [mark_eq]
  exact (h.setFld hpk f _ hf).trans (inner _ _ _ _ _ _ _ _ _ _ _ _ _ _ _ _ _)

theorem raise (h : Inward s u) {pk : Nat} (hpk : unitPage pk = true) (b : Nat) : Inward s (u.raise pk b) := by
  refine h.trans ⟨fun g hg => raise_keeps g u pk b fun w r n a e x t =>
    hg w r n a e x t _ _ _ _ _ _ _ _ _ _ _ _, fun q o ho hq => reg_raise_ne u ho fun hk => ?_, fun f _ k => ?_,
    fun k hk => (congrArg Panel.island (raise_keeps (State.panel · k) u pk b fun _ _ _ _ _ _ _ => rfl)).trans hk⟩
  · rw [(Prod.mk.inj hk).1, hpk] at hq
    exact Bool.noConfusion hq
  · exact congrArg f (raise_keeps (State.panel · k) u pk b fun _ _ _ _ _ _ _ => rfl)

theorem raiseIf (h : Inward s u) (c : Bool) {pk : Nat} (hpk : unitPage pk = true) (b : Nat) :
    Inward s (u.raiseIf c pk b) := by
  unfold State.raiseIf
  split
  · exact h.raise hpk b
  · exact h

theorem setPanel (h : Inward s u) (p : Nat) {x : Panel}
    (hx : ∀ {α : Type} (f : Panel → α), OuterPanel f → f x = f (u.panel p))
    (hi : (u.panel p).island = false → x.island = false := by exact id) : Inward s (u.setPanel p x) :=
  h.trans (of_setPanel u p hx hi)

theorem setDma (h : Inward s u) (p c : Nat) (x : Dma) : Inward s (u.setDma p c x) :=
  h.trans (inner _ _ _ _ _ _ _ _ _ _ _ _ _ _ _ _ _)

theorem setTimer (h : Inward s u) (p c : Nat) (x : Timer) : Inward s (u.setTimer p c x) :=
  h.trans (inner _ _ _ _ _ _ _ _ _ _ _ _ _ _ _ _ _)

theorem setJournal (h : Inward s u) (p : Nat) (x : Journal) : Inward s (u.setJournal p x) :=
  h.trans (inner _ _ _ _ _ _ _ _ _ _ _ _ _ _ _ _ _)

theorem setHandover (h : Inward s u) (p : Nat) (x : Handover) : Inward s (u.setHandover p x) :=
  h.trans (inner _ _ _ _ _ _ _ _ _ _ _ _ _ _ _ _ _)

theorem setCore (h : Inward s u) (p c : Nat) (x : Core) : Inward s (u.setCore p c x) :=
  h.trans (inner _ _ _ _ _ _ _ _ _ _ _ _ _ _ _ _ _)

theorem setWord (h : Inward s u) (p a : Nat) (w : TWord) : Inward s (u.setWord p a w) :=
  h.trans (inner _ _ _ _ _ _ _ _ _ _ _ _ _ _ _ _ _)

theorem flips (h : Inward s u) (l : List Flip) : Inward s { u with flips := l } :=
  h.trans (inner _ _ _ _ _ _ _ _ _ _ _ _ _ _ _ _ _)

theorem unitPage_of_lt {p n : Nat} (hp : p < 8) (hn : n < 4096 := by decide) (hne : n ≠ 2 := by decide) :
    unitPage (panelPage p n) = true := unitPage_panelPage hp hn hne

/-! #### Memory and its caches -/

theorem noteEcc (h : Inward s u) {p : Nat} (hp : p < 8) (array port addr : Nat) (ue : Bool) :
    Inward s (u.noteEcc p array port addr ue) := by
  have hpk : unitPage (scrPage p) = true := unitPage_panelPage hp (by decide)
  have hlast := ((((h.mark hpk SCR_ECC_LAST.VALID).setFld hpk SCR_ECC_LAST.UE ue.toNat).setFld hpk SCR_ECC_LAST.ARRAY
    array).setFld hpk SCR_ECC_LAST.PORT port).setFld hpk SCR_ECC_LAST.ADDR (addr % 2 ^ 48)
  unfold State.noteEcc
  refine .ite (fun _ => .ite (fun _ => ?_) fun _ => ?_) fun _ => .ite (fun _ => .ite (fun _ => ?_) fun _ => ?_) fun _ =>
    .ite (fun _ => ?_) fun _ => hlast
  · exact (hlast.count hpk SCR_ECC_COUNTS.SCR_UE 1).raise hpk 1
  · exact (hlast.count hpk SCR_ECC_COUNTS.SCR_CE 1).raise hpk 0
  · exact (hlast.count hpk SCR_ECC_COUNTS.L2_UE 1).raise hpk 3
  · exact (hlast.count hpk SCR_ECC_COUNTS.L2_CE 1).raise hpk 2
  · exact (hlast.count hpk SCR_L1_COUNT.COUNT 1).raise hpk 4

theorem setL2 (h : Inward s u) (p line : Nat) (c : CacheSet) : Inward s (u.setL2 p line c) :=
  h.setPanel p fun _ hf => hf (u.panel p) _ (u.panel p).island (u.panel p).restFrom (u.panel p).watched
    (u.panel p).hasBulk (u.panel p).tagHit

theorem useL2 (h : Inward s u) (p line : Nat) (write : Bool) : Inward s (u.useL2 p line write) := by
  unfold State.useL2
  split
  · exact h
  · exact h.setL2 ..

theorem hitTag (h : Inward s u) {p : Nat} (hp : p < 8) (line port : Nat) : Inward s (u.hitTag p line port) :=
  (h.noteEcc hp 4 port _ true).setPanel p fun _ hf => hf _ _ _ _ _ _ _

theorem dropL1 (h : Inward s u) (p c : Nat) (code : Bool) (line : Nat) : Inward s (u.dropL1 p c code line) := by
  unfold State.dropL1
  split
  · exact h
  · exact (h.setCore ..).flips _

theorem throughL2 (h : Inward s u) (p addr : Nat) : Inward s (u.throughL2 p addr none) :=
  .ite (fun _ => h) fun _ => (h.useL2 ..).foldl fun _ _ w => .ite (fun _ => refl w) fun _ => (refl w).dropL1 ..

theorem putMem (h : Inward s u) {p : Nat} (hp : p < 8) (a : Nat) (w : TWord) : Inward s (u.putMem p a w) :=
  .ite (fun _ => h.hitTag hp ..) fun _ => (h.throughL2 ..).setWord ..

/-! #### The journal -/

theorem partner_lt {p : Nat} (hp : p < 8) : partner p < 8 := by
  interval_cases p <;> decide

theorem ringWrite {p : Nat} (hp : p < 8) (l : List TWord) (h : Inward s u) : Inward s (u.ringWrite p l) := by
  induction l generalizing u with
  | nil => exact h
  | cons w l ih => exact ih (((h.putMem hp _ w).putMem (partner_lt hp) _ w).setJournal p _)

theorem noteBulk (h : Inward s u) (p : Nat) : Inward s (u.noteBulk p) :=
  h.setPanel p fun _ hf => hf (u.panel p) (u.panel p).l2 (u.panel p).island (u.panel p).restFrom (u.panel p).watched _
    (u.panel p).tagHit

theorem noteMirror (h : Inward s u) (p : Nat) : Inward s (u.noteMirror p) := (h.noteBulk p).noteBulk _

theorem addEntry (h : Inward s u) {p : Nat} (hp : p < 8) (e : Entry) : Inward s (u.addEntry p e) :=
  (ringWrite hp _ (h.noteMirror p)).setJournal p _

theorem noteStall (h : Inward s u) {p : Nat} (hp : p < 8) : Inward s (u.noteStall p) :=
  have hpk : unitPage (jrnlPage p) = true := unitPage_panelPage hp (by decide)
  .ite (fun _ => h) fun _ => (h.setFld hpk JRNL_STATUS.STALLED 1).raise hpk 3

theorem streamData (h : Inward s u) (p a : Nat) (l : List TWord) : Inward s (u.streamData p a l) :=
  (h.noteMirror p).setJournal p _

theorem captureNote (h : Inward s u) {p : Nat} (hp : p < 8) (e : Entry) : Inward s (u.captureNote p e) := by
  unfold State.captureNote
  refine .ite (fun _ => ?_) fun _ => h.addEntry hp e
  split
  · exact (h.addEntry hp e).streamData ..
  · exact h.addEntry hp e

theorem noteEntry (h : Inward s u) {p : Nat} (hp : p < 8) (t kind : Nat) (l : List TWord) :
    Inward s (u.noteEntry p t kind l) :=
  .ite (fun _ => h) fun _ => .ite (fun _ => h.captureNote hp _) fun _ => (h.setJournal p _).noteStall hp

theorem noteData (h : Inward s u) {p : Nat} (hp : p < 8) (t : Nat) (l : List (Nat × TWord)) :
    Inward s (u.noteData p t l) :=
  h.foldl fun _ _ w => (refl w).noteEntry hp ..

/-! #### Channels, timers and rests -/

theorem noteDone (h : Inward s u) {p : Nat} (hp : p < 8) (c : Nat) : Inward s (u.noteDone p c) := by
  unfold State.noteDone
  dsimp only
  split
  · exact ((h.setDma ..).noteEntry hp ..).noteData hp ..
  · exact h.setDma ..

theorem unitPage_dmaPage {p c : Nat} (hp : p < 8) (hc : c < 32) : unitPage (dmaPage p c) = true :=
  unitPage_panelPage hp (by omega) (by omega)

theorem completeDma (h : Inward s u) {p c : Nat} (hp : p < 8) (hc : c < 32) : Inward s (u.completeDma p c) :=
  have hpk := unitPage_dmaPage hp hc
  ((h.setFld hpk DMA_STATUS.STATE 0).raise hpk 0).noteDone hp c

theorem resumeDma (h : Inward s u) {p c : Nat} (hp : p < 8) (hc : c < 32) : Inward s (u.resumeDma p c) :=
  have h1 := h.setDma p c { u.dma p c with restPaused := false }
  .ite (fun _ => h1) fun _ => .ite (fun _ => h1.completeDma hp hc) fun _ =>
    .ite (fun _ => h1.setFld (unitPage_dmaPage hp hc) DMA_STATUS.STATE 1) fun _ => h1

theorem resumeAll (h : Inward s u) {p : Nat} (hp : p < 8) :
    Inward s ((List.range 32).foldl (fun t c => if (t.dma p c).restPaused then t.resumeDma p c else t) u) :=
  h.foldl fun _ hc w => .ite (fun _ => (refl w).resumeDma hp (List.mem_range.mp hc)) fun _ => refl w

theorem unitPage_tmrPage {p n : Nat} (hp : p < 8) (hn : n < 17) : unitPage (tmrPage p n) = true :=
  unitPage_panelPage hp (by omega) (by omega)

theorem advanceTimer (h : Inward s u) {p n : Nat} (hp : p < 8) (hn : n < 16) (periods : Nat) :
    Inward s (u.advanceTimer p n periods) := by
  have hpk := unitPage_tmrPage hp (n := n) (by omega)
  unfold State.advanceTimer
  refine .ite (fun _ => h) fun _ => ?_
  exact ((((((h.setFld hpk TMR_COUNT.COUNT _).setFld hpk TMR_CMP_NOW.VALUE _).setFld hpk TMR_STATUS.RUNNING _).setTimer
    p n _).mark hpk TMR_STATUS.MADE_UP).raiseIf _ hpk 0).raiseIf _ hpk 1 |>.raise hpk 4

theorem slowPeriods (h : Inward s u) (since : Nat) : Inward s (u.slowPeriods since).2 :=
  h.trans (inner _ _ _ _ _ _ _ _ _ _ _ _ _ _ _ _ _)

end Inward

/-- The clock island of a panel runs again, and its timers know the periods that have passed. -/
def islandStarted (s : State) (p : Nat) : State :=
  (((s.slowPeriods (s.panel p).restTick).2.setPanel p
    { s.panel p with island := false, restFrom := none, watched := [] }).setFld (ddrcPage p) DDRC_STATE.SELF_REFRESH 0).setFld
    (tmrPage p 16) TMR_REST.PERIODS (min (s.slowPeriods (s.panel p).restTick).1 (2 ^ 32 - 1))

/-- The timers of a panel that wakes have caught up. -/
def timersAdvanced (s : State) (p : Nat) : State :=
  (List.range 16).foldl (fun t i => t.advanceTimer p i (s.slowPeriods (s.panel p).restTick).1) (islandStarted s p)

/-- The channels of a panel that a rest has paused resume. -/
def channelsResumed (s : State) (p : Nat) : State :=
  (List.range 32).foldl (fun t c => if (t.dma p c).restPaused then t.resumeDma p c else t) s

theorem wakePanel_eq (s : State) (p : Nat) : s.wakePanel p = (channelsResumed (timersAdvanced s p) p).setHandover p
    { (channelsResumed (timersAdvanced s p) p).handover p with
      wdogFrom := (channelsResumed (timersAdvanced s p) p).ticks } := rfl

namespace Inward
variable {s u v : State}

theorem islandStarted (h : Inward s u) {p : Nat} (hp : p < 8) : Inward s (Proofs.islandStarted u p) := by
  have hslow := h.slowPeriods (u.panel p).restTick
  have hpanel : (u.slowPeriods (u.panel p).restTick).2.panel p = u.panel p := rfl
  unfold Proofs.islandStarted
  generalize (u.slowPeriods (u.panel p).restTick).2 = w at hslow hpanel
  have hrest : Inward s (w.setPanel p { u.panel p with island := false, restFrom := none, watched := [] }) :=
    hslow.setPanel p (fun _ hf => by
      rw [hpanel]
      exact hf (u.panel p) (u.panel p).l2 _ _ _ (u.panel p).hasBulk (u.panel p).tagHit) fun _ => rfl
  have hddrc : unitPage (ddrcPage p) = true := unitPage_panelPage hp (by decide)
  exact (hrest.setFld hddrc DDRC_STATE.SELF_REFRESH 0).setFld (unitPage_tmrPage hp (n := 16) (by decide))
    TMR_REST.PERIODS _

theorem timersAdvanced (h : Inward s u) {p : Nat} (hp : p < 8) : Inward s (Proofs.timersAdvanced u p) :=
  (h.islandStarted hp).foldl fun _ hi w => (refl w).advanceTimer hp (List.mem_range.mp hi) _

theorem channelsResumed (h : Inward s u) {p : Nat} (hp : p < 8) : Inward s (Proofs.channelsResumed u p) := h.resumeAll hp

theorem wakePanel (h : Inward s u) {p : Nat} (hp : p < 8) : Inward s (u.wakePanel p) := by
  rw [wakePanel_eq]
  exact ((h.timersAdvanced hp).channelsResumed hp).setHandover p _

end Inward

/-! ### Steps of a slice's mode -/

/-- What a function of the state says does not depend on what a step of a mode changes. -/
structure OuterMode {α : Type} (g : State → α) : Prop where
  outer : Outer g
  trips : ∀ w x, g { w with trips := x } = g w

/-- What a function of a panel says does not depend on what a step of its slice's mode notes. -/
structure OuterModePanel {α : Type} (h : Panel → α) : Prop where
  outer : OuterPanel h
  notes : ∀ p x c m, h { p with soon := x, causeAt := c, movedAt := m } = h p

/-- A state that a step of a slice's mode leaves: besides the units of the panels it concerns the slice's `MODE_STATE`
and events, the loss of the clock at its trip network, and which pairs are released. -/
structure ModeStep (sl : Nat) (s u : State) : Prop where
  keeps : ∀ {α : Type} (g : State → α), OuterMode g → g u = g s
  regs : ∀ q o : Nat, o < 4096 → unitPage q = false → (q ≠ modePage sl ∨ (o ≠ 0x108 ∧ o ≠ 0x020)) →
    (q ≠ tripPage sl ∨ o ≠ 0x140) → u.reg q o = s.reg q o
  trip : ∀ f : Fld, fits f = true → apart TRIP_OVERRIDE.CLOCK_LOST f = true →
    u.fld (tripPage sl) f = s.fld (tripPage sl) f
  raised : ∀ b : Nat, Raised s (modePage sl) b → Raised u (modePage sl) b
  panel : ∀ {α : Type} (h : Panel → α), OuterModePanel h → ∀ k, h (u.panel k) = h (s.panel k)
  network : ∀ k : Nat, ∃ r, u.trip k = { s.trip k with released := r }
  runs : ∀ k, (s.panel k).island = false → (u.panel k).island = false

theorem isPanelPage_packagePage {n : Nat} (hn : n < 4096) : isPanelPage (packagePage n) = false := by
  have hw : windowOf (packagePage n) = 16 := by unfold windowOf packagePage; omega
  unfold isPanelPage
  rw [hw]
  rfl

theorem isPanelPage_sectorPage {s n : Nat} (hs : s < 8) (hn : n < 4096) : isPanelPage (sectorPage s n) = false := by
  have hw : windowOf (sectorPage s n) = s := by unfold windowOf sectorPage; omega
  unfold isPanelPage
  rw [hw, decide_eq_false (by omega)]
  rfl

theorem isPanelPage_modePage {sl : Nat} (hsl : sl < 8) : isPanelPage (modePage sl) = false :=
  isPanelPage_packagePage (by omega)

theorem isPanelPage_tripPage {sl : Nat} (hsl : sl < 8) : isPanelPage (tripPage sl) = false :=
  isPanelPage_sectorPage hsl (by decide)

theorem tripPage_ne_modePage {sl k : Nat} (hsl : sl < 8) : tripPage sl ≠ modePage k := by
  unfold tripPage modePage sectorPage packagePage
  omega

namespace ModeStep
variable {sl : Nat} {s u v : State}

theorem refl (sl : Nat) (s : State) : ModeStep sl s s :=
  ⟨fun _ _ => rfl, fun _ _ _ _ _ _ => rfl, fun _ _ _ => rfl, fun _ h => h, fun _ _ _ => rfl,
    fun k => ⟨(s.trip k).released, rfl⟩, fun _ hk => hk⟩

theorem trans (h : ModeStep sl s u) (h' : ModeStep sl u v) : ModeStep sl s v := by
  refine ⟨fun g hg => (h'.keeps g hg).trans (h.keeps g hg),
    fun q o ho hq hm ht => (h'.regs q o ho hq hm ht).trans (h.regs q o ho hq hm ht),
    fun f hf ha => (h'.trip f hf ha).trans (h.trip f hf ha), fun b hb => h'.raised b (h.raised b hb),
    fun f hf k => (h'.panel f hf k).trans (h.panel f hf k), fun k => ?_, fun k hk => h'.runs k (h.runs k hk)⟩
  obtain ⟨r, hr⟩ := h.network k
  obtain ⟨r', hr'⟩ := h'.network k
  exact ⟨r', by rw [hr', hr]⟩

theorem of_inward (hsl : sl < 8) (h : Inward s u) (htrips : u.trips = s.trips) : ModeStep sl s u := by
  refine ⟨fun g hg => h.keeps g hg.outer, fun q o ho hq _ _ => h.regs q o ho hq, fun f hf _ => ?_, fun b hb => ?_,
    fun f hf => h.panel f hf.outer, fun k => ⟨(s.trip k).released, ?_⟩, h.runs⟩
  · exact fld_of_reg (h.regs _ _ ((fits_iff f).mp hf).2.2 (unitPage_of_not_isPanelPage (isPanelPage_tripPage hsl)))
  · exact (raised_of_reg (h.regs _ _ (by decide) (unitPage_of_not_isPanelPage (isPanelPage_modePage hsl)))).mpr hb
  · change Store.read {} u.trips k = _
    rw [htrips]
    rfl

theorem inward (h : ModeStep sl s u) (hsl : sl < 8) (h' : Inward u v) : ModeStep sl s v :=
  h.trans (of_inward hsl h' (h'.keeps _ Outer.trips))

/-- A field of `MODE_STATE`. -/
theorem setFld (h : ModeStep sl s u) (hsl : sl < 8) {f : Fld} (x : Nat) (hf : f.off = 0x108 := by rfl) :
    ModeStep sl s (u.setFld (modePage sl) f x) := by
  have hreg : ∀ q o, o < 4096 → (q ≠ modePage sl ∨ o ≠ 0x108) → (u.setFld (modePage sl) f x).reg q o = u.reg q o :=
    fun q o ho hq => reg_setFld_ne u f x ho (by omega) fun h => by
      obtain ⟨h1, h2⟩ := Prod.mk.inj h
      omega
  refine h.trans ⟨fun g hg => hg.outer.regs u _, fun q o ho _ hq _ => hreg q o ho ?_,
    fun g hg _ => fld_of_reg (hreg _ _ ((fits_iff g).mp hg).2.2 (.inl (tripPage_ne_modePage hsl))),
    fun b hb => (raised_of_reg (hreg _ _ (by decide) (.inr (by decide)))).mpr hb, fun _ _ _ => rfl,
    fun k => ⟨_, rfl⟩, fun _ hk => hk⟩
  omega

theorem raise (h : ModeStep sl s u) (hsl : sl < 8) (b : Nat) : ModeStep sl s (u.raise (modePage sl) b) := by
  have hreg : ∀ q o, o < 4096 → (q ≠ modePage sl ∨ o ≠ 0x020) → (u.raise (modePage sl) b).reg q o = u.reg q o :=
    fun q o ho hq => reg_raise_ne u ho fun h => by
      obtain ⟨h1, h2⟩ := Prod.mk.inj h
      omega
  refine h.trans ⟨fun g hg => hg.outer.raise u _ b,
    fun q o ho _ hq _ => hreg q o ho ?_,
    fun g hg _ => fld_of_reg (hreg _ _ ((fits_iff g).mp hg).2.2 (.inl (tripPage_ne_modePage hsl))),
    fun c hc => raised_raise_of_raised hc _ _,
    fun f _ k => congrArg f (raise_keeps (State.panel · k) u _ b fun _ _ _ _ _ _ _ => rfl),
    fun k => ⟨(u.trip k).released, raise_keeps (State.trip · k) u _ b fun _ _ _ _ _ _ _ => rfl⟩,
    fun k hk => (congrArg Panel.island (raise_keeps (State.panel · k) u _ b fun _ _ _ _ _ _ _ => rfl)).trans hk⟩
  omega

theorem raiseIf (h : ModeStep sl s u) (hsl : sl < 8) (c : Bool) (b : Nat) :
    ModeStep sl s (u.raiseIf c (modePage sl) b) := by
  unfold State.raiseIf
  split
  · exact h.raise hsl b
  · exact h

theorem setPanel (h : ModeStep sl s u) (p : Nat) {x : Panel}
    (hx : ∀ {α : Type} (f : Panel → α), OuterModePanel f → f x = f (u.panel p))
    (hi : (u.panel p).island = false → x.island = false := by exact id) : ModeStep sl s (u.setPanel p x) := by
  refine h.trans ⟨fun g hg => hg.outer.panels u _, fun _ _ _ _ _ _ => rfl, fun _ _ _ => rfl,
    fun _ hb => hb, fun f hf k => ?_, fun k => ⟨_, rfl⟩, fun k hi' => ?_⟩ <;> by_cases hk : k = p
  · rw [hk, panel_setPanel_self, hx f hf]
  · rw [panel_setPanel_ne _ _ hk]
  · rw [hk, panel_setPanel_self, hi (hk ▸ hi')]
  · rwa [panel_setPanel_ne _ _ hk]

theorem unrelease (h : ModeStep sl s u) (k : Nat) (m : BitVec 16) : ModeStep sl s (u.unrelease k m) := by
  refine h.trans ⟨fun g hg => hg.trips u _, fun _ _ _ _ _ _ => rfl, fun _ _ _ => rfl, fun _ hb => hb, fun _ _ _ => rfl,
    fun j => ?_, fun _ hk => hk⟩
  by_cases hj : j = k
  · exact ⟨_, by rw [hj]; exact Laws.read_write_self _ _ _ _⟩
  · exact ⟨(u.trip j).released, Laws.read_write_ne _ _ _ _ _ _ hj⟩

/-- The loss of the clock is no longer shown. -/
theorem clearClockLost (h : ModeStep sl s u) (hsl : sl < 8) :
    ModeStep sl s (u.setFld (tripPage sl) TRIP_OVERRIDE.CLOCK_LOST 0) := by
  have hreg : ∀ q o, o < 4096 → (q ≠ tripPage sl ∨ o ≠ 0x140) →
      (u.setFld (tripPage sl) TRIP_OVERRIDE.CLOCK_LOST 0).reg q o = u.reg q o :=
    fun q o ho hq => reg_setFld_ne u _ 0 ho (by decide) fun h => by
      obtain ⟨h1, h2⟩ := Prod.mk.inj h
      exact hq.elim (fun hne => hne h1) (fun hne => hne h2)
  exact h.trans ⟨fun g hg => hg.outer.regs u _, fun q o ho _ _ hq => hreg q o ho hq,
    fun g hg ha => fld_setFld_of_apart u _ 0 rfl hg ha,
    fun b hb => (raised_of_reg (hreg _ _ (by decide) (.inl (tripPage_ne_modePage hsl).symm))).mpr hb, fun _ _ _ => rfl,
    fun k => ⟨_, rfl⟩, fun _ hk => hk⟩

/-! #### Modes, rests and protective causes -/

theorem setMode (h : ModeStep sl s u) (hsl : sl < 8) (mode under : Nat) : ModeStep sl s (u.setMode sl mode under) := by
  have hmoved := (((h.setPanel sl (x := { u.panel sl with soon := none }) fun _ hf =>
    hf.notes (u.panel sl) none (u.panel sl).causeAt (u.panel sl).movedAt).setFld hsl (f := MODE_STATE.MODE) mode).setFld hsl
    (f := MODE_STATE.UNDER) under).raiseIf hsl (decide (u.mode sl ≠ mode) || decide (u.under sl ≠ under)) 0
  unfold State.setMode
  dsimp only
  generalize (State.raiseIf _ _ _ 0) = w at hmoved ⊢
  have hreleased : ModeStep sl s (if w.shownMode sl = RUN then w else w.unrelease sl 0xFFFF) := by
    split
    · exact hmoved
    · exact hmoved.unrelease sl _
  generalize (if w.shownMode sl = RUN then w else w.unrelease sl 0xFFFF) = x at hreleased ⊢
  split
  · exact hreleased.clearClockLost hsl
  · exact hreleased

theorem abandonRest (h : ModeStep sl s u) (hsl : sl < 8) : ModeStep sl s (u.abandonRest sl) := by
  unfold State.abandonRest
  split
  · have hpending := (h.setFld hsl (f := MODE_STATE.REST_PENDING) 0).setPanel sl
      (x := { u.panel sl with restFrom := none }) fun _ hf => hf.outer (u.panel sl) (u.panel sl).l2 (u.panel sl).island none
        (u.panel sl).watched (u.panel sl).hasBulk (u.panel sl).tagHit
    exact hpending.inward hsl ((Inward.refl _).channelsResumed hsl)
  · exact h

theorem wake (h : ModeStep sl s u) (hsl : sl < 8) (mode : Nat) : ModeStep sl s (u.wake sl mode) :=
  ((h.inward hsl ((Inward.refl u).wakePanel hsl)).setMode hsl mode mode).raise hsl 5

theorem refuseCommand (h : ModeStep sl s u) (hsl : sl < 8) (code : Nat) : ModeStep sl s (u.refuseCommand sl code) :=
  (h.setFld hsl (f := MODE_STATE.REFUSED) code).raise hsl 1

end ModeStep

/-- A protective cause has been noted, and a command of the same tick refused. -/
def causeNoted (s : State) (sl cause : Nat) : State :=
  let pk := modePage sl
  let last := s.fld pk MODE_STATE.LAST_CAUSE
  let pn := s.panel sl
  let code := if pn.causeAt = some s.ticks ∧ last < cause then last else cause
  let moves := s.movable sl || decide (s.commanded sl = some true)
  let s0 := ((s.setFld pk MODE_STATE.LAST_CAUSE code).setPanel sl { pn with
    causeAt := some s.ticks
    movedAt := if moves then some s.ticks else pn.movedAt }).raise pk 2
  if moves && (s.commanded sl).isSome then s0.refuseCommand sl (refusedBy code) else s0

theorem protect_eq (s : State) (sl cause : Nat) : s.protect sl cause =
    if s.mode sl = PRIME then s
    else if s.mode sl = COMMISSION ∨ s.mode sl = RUN then ((causeNoted s sl cause).abandonRest sl).setMode sl HOLD HOLD
    else if s.mode sl = HOLD then (causeNoted s sl cause).abandonRest sl
    else if s.mode sl = REST then (causeNoted s sl cause).wake sl HOLD
    else (causeNoted s sl cause).setMode sl HANDOVER HOLD := rfl

namespace ModeStep
variable {sl : Nat} {s u v : State}

theorem causeNoted (h : ModeStep sl s u) (hsl : sl < 8) (cause : Nat) : ModeStep sl s (Proofs.causeNoted u sl cause) := by
  have hnoted : ∀ code moved, ModeStep sl s (((u.setFld (modePage sl) MODE_STATE.LAST_CAUSE code).setPanel sl
      { u.panel sl with causeAt := some u.ticks, movedAt := moved }).raise (modePage sl) 2) := fun code moved =>
    ((h.setFld hsl (f := MODE_STATE.LAST_CAUSE) code).setPanel sl fun _ hf =>
      hf.notes (u.panel sl) (u.panel sl).soon _ _).raise hsl 2
  unfold Proofs.causeNoted
  dsimp only
  split
  · exact (hnoted _ _).refuseCommand hsl _
  · exact hnoted _ _

theorem protect (h : ModeStep sl s u) (hsl : sl < 8) (cause : Nat) : ModeStep sl s (u.protect sl cause) := by
  have hnoted := h.causeNoted hsl cause
  rw [protect_eq]
  split
  · exact h
  split
  · exact (hnoted.abandonRest hsl).setMode hsl HOLD HOLD
  split
  · exact hnoted.abandonRest hsl
  split
  · exact hnoted.wake hsl HOLD
  · exact hnoted.setMode hsl HANDOVER HOLD

end ModeStep

theorem fld_setMode (s : State) {sl mode under : Nat} (hsl : sl < 8) {f : Fld} (hf : fits f = true) (hoff : f.off = 0x108) :
    (s.setMode sl mode under).fld (modePage sl) f
      = ((s.setFld (modePage sl) MODE_STATE.MODE mode).setFld (modePage sl) MODE_STATE.UNDER under).fld (modePage sl) f := by
  have hclear : ∀ u : State, (u.setFld (tripPage sl) TRIP_OVERRIDE.CLOCK_LOST 0).fld (modePage sl) f = u.fld (modePage sl) f :=
    fun u => fld_setFld_of_page u 0 rfl hf (tripPage_ne_modePage hsl).symm
  have hun : ∀ (u : State) (m : BitVec 16), (u.unrelease sl m).fld (modePage sl) f = u.fld (modePage sl) f := fun _ _ => rfl
  have hpanel : ∀ (u : State) (p : Panel) (a b : Nat), (((u.setPanel sl p).setFld (modePage sl) MODE_STATE.MODE a).setFld
      (modePage sl) MODE_STATE.UNDER b).fld (modePage sl) f
      = ((u.setFld (modePage sl) MODE_STATE.MODE a).setFld (modePage sl) MODE_STATE.UNDER b).fld (modePage sl) f :=
    fun _ _ _ _ => rfl
  rw [← hpanel s { s.panel sl with soon := none }]
  unfold State.setMode
  dsimp only
  split
  · rw [hclear]
    split
    · rw [fld_raiseIf _ _ _ _ _ hf (by omega)]
    · rw [hun, fld_raiseIf _ _ _ _ _ hf (by omega)]
  · split
    · rw [fld_raiseIf _ _ _ _ _ hf (by omega)]
    · rw [hun, fld_raiseIf _ _ _ _ _ hf (by omega)]

theorem mode_setMode (s : State) {sl mode : Nat} (under : Nat) (hsl : sl < 8) (hmode : mode < 8) :
    (s.setMode sl mode under).mode sl = mode := by
  unfold State.mode
  rw [fld_setMode s hsl rfl rfl, fld_setFld_of_apart _ _ _ rfl rfl rfl, fld_setFld_self _ _ _ rfl]
  exact Nat.mod_eq_of_lt hmode

theorem under_setMode (s : State) {sl under : Nat} (mode : Nat) (hsl : sl < 8) (hunder : under < 8) :
    (s.setMode sl mode under).under sl = under := by
  unfold State.under
  rw [fld_setMode s hsl rfl rfl, fld_setFld_self _ _ _ rfl]
  exact Nat.mod_eq_of_lt hunder

theorem mode_protect_of_run {s : State} {sl : Nat} (hsl : sl < 8) (h : s.mode sl = COMMISSION ∨ s.mode sl = RUN)
    (cause : Nat) : (s.protect sl cause).mode sl = HOLD := by
  have hprime : s.mode sl ≠ PRIME := by
    unfold COMMISSION RUN at h
    unfold PRIME
    omega
  rw [protect_eq, if_neg hprime, if_pos h]
  exact mode_setMode _ _ hsl (by decide)

end Sys2Proof.Proofs
end

section
/-! PROOFS. Dips, rails and the resets that they cause. -/

namespace Sys2Proof.Proofs

open Sys2Proof Sys2Proof.Machine

/-! ### Converters of the sectors -/

theorem fadcPage_inj {sl c k d : Nat} (hc : c < 16) (hd : d < 16) : fadcPage sl c = fadcPage k d ↔ sl = k ∧ c = d := by
  unfold fadcPage sectorPage
  omega

theorem source_fadc {sl c b : Nat} (hsl : sl < 8) (hc : c < 16) (hb : b ≤ 8) :
    (sourceOf (fadcPage sl c) b).isSome = true := by
  have hblock : blockOf (fadcPage sl c) = some (.fadc, c) := by
    unfold fadcPage
    rw [blockOf_sectorPage hsl (by omega)]
    interval_cases c <;> rfl
  unfold sourceOf
  rw [hblock]
  dsimp only
  rw [if_pos hb]
  rfl

theorem mem_converters (s : State) (sl c : Nat) : (sl, c) ∈ s.converters ↔ s.present sl = true ∧ c < 16 := by
  unfold State.converters
  rw [List.mem_flatMap]
  simp only [mem_slices, List.mem_map, List.mem_range, Prod.mk.injEq]
  constructor
  · rintro ⟨k, hk, d, hd, rfl, rfl⟩
    exact ⟨hk, hd⟩
  · rintro ⟨hk, hd⟩
    exact ⟨sl, hk, c, hd, rfl, rfl⟩

theorem lt_of_mem_converters (s : State) : ∀ x ∈ s.converters, x.1 < 8 ∧ x.2 < 16 := fun x hx => by
  obtain ⟨hsl, hc⟩ := (mem_converters s x.1 x.2).mp hx
  exact ⟨present_lt hsl, hc⟩

/-- What a function of the state says does not depend on registers, events, threads or converters. -/
def OuterConv {α : Type} (g : State → α) : Prop :=
  ∀ w r n a e v t c f x, g { w with regs := r, setNow := n, evArrived := a, evPend := e, events := v, threads := t, convs := c, freezeLines := f, seen := x } = g w

/-- A state that triggers and marks of the converters leave. -/
structure ConvStep (s u : State) : Prop where
  keeps : ∀ {α : Type} (g : State → α), OuterConv g → g u = g s
  regs : ∀ q o : Nat, o < 4096 → (∀ sl c, sl < 8 → c < 16 → q ≠ fadcPage sl c) → u.reg q o = s.reg q o
  raised : ∀ pk b : Nat, Raised s pk b → Raised u pk b

/-- A step that, of the converters' registers, changes events and what arms a ring. -/
structure TrigStep (s u : State) : Prop extends ConvStep s u where
  fld : ∀ (pk : Nat) (f : Fld), fits f = true → f.off ≠ 0x020 → f.off ≠ 0x140 → u.fld pk f = s.fld pk f

namespace ConvStep
variable {s u v : State}

theorem refl (s : State) : ConvStep s s := ⟨fun _ _ => rfl, fun _ _ _ _ => rfl, fun _ _ h => h⟩

theorem trans (h : ConvStep s u) (h' : ConvStep u v) : ConvStep s v :=
  ⟨fun g hg => (h'.keeps g hg).trans (h.keeps g hg), fun q o ho hq => (h'.regs q o ho hq).trans (h.regs q o ho hq),
    fun pk b hb => h'.raised pk b (h.raised pk b hb)⟩

theorem setFld (h : ConvStep s u) {sl c : Nat} (hsl : sl < 8) (hc : c < 16) (f : Fld) (x : Nat) (hf : fits f = true)
    (hoff : f.off ≠ 0x020) : ConvStep s (u.setFld (fadcPage sl c) f x) := by
  refine h.trans ⟨fun g hg => hg u _ _ _ _ _ _ _ _ _, fun q o ho hq => ?_, fun pk b hb => (raised_setFld u _ x pk b hf hoff).mpr hb⟩
  exact reg_setFld_ne u f x ho ((fits_iff f).mp hf).2.2 fun h => hq sl c hsl hc (Prod.mk.inj h).1

theorem raise (h : ConvStep s u) {sl c : Nat} (hsl : sl < 8) (hc : c < 16) (b : Nat) : ConvStep s (u.raise (fadcPage sl c) b) := by
  refine h.trans ⟨fun g hg => raise_keeps g u _ b fun w r n a e x t => hg w r n a e x t _ _ _,
    fun q o ho hq => reg_raise_ne u ho fun h => hq sl c hsl hc (Prod.mk.inj h).1, fun pk d hd => raised_raise_of_raised hd _ _⟩

theorem setConv (h : ConvStep s u) (sl c : Nat) (x : Conv) : ConvStep s (u.setConv sl c x) :=
  h.trans ⟨fun _ hg => hg u u.regs u.setNow u.evArrived u.evPend u.events u.threads _ u.freezeLines u.seen,
    fun _ _ _ _ => rfl, fun _ _ hb => hb⟩

theorem lines (h : ConvStep s u) (x : Store Nat) : ConvStep s { u with freezeLines := x } :=
  h.trans ⟨fun _ hg => hg u u.regs u.setNow u.evArrived u.evPend u.events u.threads u.convs x u.seen,
    fun _ _ _ _ => rfl, fun _ _ hb => hb⟩

theorem ite {c : Prop} [Decidable c] {t e : State} (ht : c → ConvStep s t) (he : ¬ c → ConvStep s e) :
    ConvStep s (if c then t else e) := by
  split
  · next hc => exact ht hc
  · next hc => exact he hc

theorem foldl {β : Type} {f : State → β → State} {l : List β} (h : ConvStep s u)
    (hf : ∀ x ∈ l, ∀ w, ConvStep w (f w x)) : ConvStep s (l.foldl f u) := by
  induction l generalizing u with
  | nil => exact h
  | cons x l ih => exact ih (h.trans (hf x List.mem_cons_self u)) fun y hy => hf y (List.mem_cons_of_mem x hy)

end ConvStep

theorem fld_setConv (s : State) (sl c : Nat) (x : Conv) (pk : Nat) (f : Fld) : (s.setConv sl c x).fld pk f = s.fld pk f :=
  rfl

theorem fld_freezeLines (s : State) (x : Store Nat) (pk : Nat) (f : Fld) :
    ({ s with freezeLines := x }).fld pk f = s.fld pk f := rfl

namespace TrigStep
variable {s u v : State}

theorem refl (s : State) : TrigStep s s := ⟨.refl s, fun _ _ _ _ _ => rfl⟩

theorem trans (h : TrigStep s u) (h' : TrigStep u v) : TrigStep s v :=
  ⟨h.toConvStep.trans h'.toConvStep, fun pk f hf h1 h2 => (h'.fld pk f hf h1 h2).trans (h.fld pk f hf h1 h2)⟩

theorem foldl {β : Type} {f : State → β → State} {l : List β} (h : TrigStep s u)
    (hf : ∀ x ∈ l, ∀ w, TrigStep w (f w x)) : TrigStep s (l.foldl f u) := by
  induction l generalizing u with
  | nil => exact h
  | cons x l ih => exact ih (h.trans (hf x List.mem_cons_self u)) fun y hy => hf y (List.mem_cons_of_mem x hy)

theorem fireRing (s : State) {sl c : Nat} (hsl : sl < 8) (hc : c < 16) (tick : Nat) : TrigStep s (s.fireRing sl c tick) := by
  have harm : ConvStep s (s.setFld (fadcPage sl c) FADC_TRIG.ARM 0) :=
    ConvStep.setFld (.refl s) hsl hc FADC_TRIG.ARM 0 rfl (by decide)
  have hfld : ∀ (pk : Nat) (f : Fld), fits f = true → f.off ≠ 0x020 → f.off ≠ 0x140 →
      (s.setFld (fadcPage sl c) FADC_TRIG.ARM 0).fld pk f = s.fld pk f := fun pk f hf _ h2 =>
    fld_of_reg (reg_setFld_ne s _ 0 ((fits_iff f).mp hf).2.2 (by decide) fun h => h2 (Prod.mk.inj h).2)
  have hconv := harm.setConv sl c { s.conv sl c with trigger := some tick }
  generalize hw : (s.setFld (fadcPage sl c) FADC_TRIG.ARM 0).setConv sl c { s.conv sl c with trigger := some tick } = w
    at hconv
  have hfld' : ∀ (pk : Nat) (f : Fld), fits f = true → f.off ≠ 0x020 → f.off ≠ 0x140 →
      (w.raise (fadcPage sl c) 6).fld pk f = s.fld pk f := fun pk f hf h1 h2 => by
    rw [fld_raise _ _ _ _ hf h1, ← hw, fld_setConv, hfld pk f hf h1 h2]
  have hraised := hconv.raise hsl hc 6
  unfold State.fireRing
  dsimp only
  rw [hw]
  generalize w.raise (fadcPage sl c) 6 = v at *
  split
  · split
    · exact ⟨hraised.lines _, fun pk f hf h1 h2 => (fld_freezeLines _ _ _ _).trans (hfld' pk f hf h1 h2)⟩
    · exact ⟨hraised, hfld'⟩
  · exact refl s

theorem fireSeen (s : State) {e : Seen} (he : e.sector < 8) : TrigStep s (s.fireSeen e) := by
  refine (refl s).foldl fun c hc w => ?_
  split
  · exact fireRing w he (List.mem_range.mp hc) _
  · exact refl w

theorem triggerSource (s : State) {sl : Nat} (hsl : sl < 8) (src index : Nat) : TrigStep s (s.triggerSource sl src index) := by
  have hseen : ∀ x : List Seen, TrigStep s { s with seen := x } := fun x =>
    ⟨⟨fun g hg => hg s _ _ _ _ _ _ _ _ _, fun _ _ _ _ => rfl, fun _ _ hb => hb⟩, fun _ _ _ _ _ => rfl⟩
  unfold State.triggerSource State.triggerAt
  dsimp only
  split
  · exact (hseen _).trans (fireSeen _ hsl)
  · exact hseen _

end TrigStep

/-! ### Dips (R61, R340) -/

/-- A converter notes the begin of a dip, unless it is in mode 0. -/
def noteDip (u : State) (x : Nat × Nat) : State :=
  if u.fld (fadcPage x.1 x.2) FADC_SCHED.MODE = 0 then u
  else ((u.setFld (fadcPage x.1 x.2) FADC_DIP_START.START (u.canvas % 2 ^ 62)).setFld (fadcPage x.1 x.2)
    FADC_DIP_END.OPEN 1).raise (fadcPage x.1 x.2) 2

/-- A converter notes the end of a dip that it has noted. -/
def noteDipEnd (u : State) (x : Nat × Nat) : State :=
  if u.flag (fadcPage x.1 x.2) FADC_DIP_END.OPEN then
    (u.setFld (fadcPage x.1 x.2) FADC_DIP_END.END (u.canvas % 2 ^ 62)).setFld (fadcPage x.1 x.2) FADC_DIP_END.OPEN 0
  else u

theorem beginDip_of_none {s : State} (h : s.supply.dip = false) : s.beginDip
    = (s.converters.foldl noteDip { s with supply := { s.supply with dip := true } }).slices.foldl
      (fun u sl => u.triggerSource sl 6 0)
      (s.converters.foldl noteDip { s with supply := { s.supply with dip := true } }) := by
  unfold State.beginDip
  rw [h, if_neg Bool.false_ne_true]
  rfl

theorem endDip_eq (s : State) : s.endDip
    = s.converters.foldl noteDipEnd { s with supply := { s.supply with dip := false } } := rfl

theorem convStep_noteDip (u : State) {x : Nat × Nat} (hx : x.1 < 8 ∧ x.2 < 16) : ConvStep u (noteDip u x) :=
  .ite (fun _ => .refl u) fun _ => (((ConvStep.refl u).setFld hx.1 hx.2 FADC_DIP_START.START _ rfl (by decide)).setFld
    hx.1 hx.2 FADC_DIP_END.OPEN 1 rfl (by decide)).raise hx.1 hx.2 2

theorem convStep_noteDipEnd (u : State) {x : Nat × Nat} (hx : x.1 < 8 ∧ x.2 < 16) : ConvStep u (noteDipEnd u x) :=
  .ite (fun _ => ((ConvStep.refl u).setFld hx.1 hx.2 FADC_DIP_END.END _ rfl (by decide)).setFld hx.1 hx.2
    FADC_DIP_END.OPEN 0 rfl (by decide)) fun _ => .refl u

/-- A dip's begin is noted at a converter, unless that is in mode 0. -/
structure DipNoted (u : State) (sl c tick : Nat) : Prop where
  start : u.fld (fadcPage sl c) FADC_DIP_START.START = tick % 2 ^ 62
  opened : u.flag (fadcPage sl c) FADC_DIP_END.OPEN = true
  raised : Raised u (fadcPage sl c) 2

theorem DipNoted.trig {u v : State} {sl c tick : Nat} (h : DipNoted u sl c tick) (h' : TrigStep u v) :
    DipNoted v sl c tick := by
  obtain ⟨hstart, hopen, hraised⟩ := h
  refine ⟨(h'.fld _ _ rfl (by decide) (by decide)).trans hstart, ?_, h'.raised _ _ hraised⟩
  rw [flag_eq, h'.fld _ _ rfl (by decide) (by decide), ← flag_eq, hopen]

theorem fld_noteDip (u : State) {f : Fld} (x : Nat × Nat) (pk : Nat) (hf : fits f = true) (hoff : f.off ≠ 0x020)
    (h1 : apart FADC_DIP_START.START f = true) (h2 : apart FADC_DIP_END.OPEN f = true) :
    (noteDip u x).fld pk f = u.fld pk f := by
  have hset : ∀ (w : State) (g : Fld) (y : Nat), fits g = true → apart g f = true →
      (w.setFld (fadcPage x.1 x.2) g y).fld pk f = w.fld pk f := fun w g y hg ha => by
    by_cases hpk : pk = fadcPage x.1 x.2
    · rw [hpk, fld_setFld_of_apart _ _ _ hg hf ha]
    · rw [fld_setFld_of_page _ _ hg hf hpk]
  unfold noteDip
  split
  · rfl
  · rw [fld_raise _ _ _ _ hf hoff, hset _ _ _ rfl h2, hset _ _ _ rfl h1]

theorem noteDip_notes (u : State) {sl c : Nat} (hsl : sl < 8) (hc : c < 16)
    (hmode : u.fld (fadcPage sl c) FADC_SCHED.MODE ≠ 0) : DipNoted (noteDip u (sl, c)) sl c u.canvas := by
  unfold noteDip
  rw [if_neg hmode]
  refine ⟨?_, ?_, raised_raise _ _ (by decide) (source_fadc hsl hc (by decide))⟩
  · rw [fld_raise _ _ _ _ rfl (by decide), fld_setFld_of_apart _ _ _ rfl rfl rfl, fld_setFld_self _ _ _ rfl]
    exact Nat.mod_mod _ _
  · rw [flag_eq, fld_raise _ _ _ _ rfl (by decide), fld_setFld_self _ _ _ rfl]
    rfl

theorem dipNoted_noteDip {u : State} {sl c : Nat} (hsl : sl < 8) (hc : c < 16) {x : Nat × Nat} (hx : x.1 < 8 ∧ x.2 < 16)
    (hmode : u.fld (fadcPage sl c) FADC_SCHED.MODE ≠ 0) (h : DipNoted u sl c u.canvas) :
    DipNoted (noteDip u x) sl c u.canvas := by
  by_cases heq : x = (sl, c)
  · rw [heq]
    exact noteDip_notes u hsl hc hmode
  · have hpk : fadcPage sl c ≠ fadcPage x.1 x.2 := fun h => heq (by
      obtain ⟨h1, h2⟩ := (fadcPage_inj hc hx.2).mp h
      exact Prod.ext h1.symm h2.symm)
    have hfld : ∀ f : Fld, fits f = true → f.off ≠ 0x020 → (noteDip u x).fld (fadcPage sl c) f = u.fld (fadcPage sl c) f := by
      intro f hf hoff
      unfold noteDip
      split
      · rfl
      · rw [fld_raise _ _ _ _ hf hoff, fld_setFld_of_page _ _ rfl hf hpk, fld_setFld_of_page _ _ rfl hf hpk]
    obtain ⟨hstart, hopen, hraised⟩ := h
    refine ⟨(hfld _ rfl (by decide)).trans hstart, ?_, (convStep_noteDip u hx).raised _ _ hraised⟩
    rw [flag_eq, hfld _ rfl (by decide), ← flag_eq, hopen]

/-- What the begin of a dip leaves, and what it notes. -/
structure DipBegun (s u : State) : Prop where
  keeps : ∀ {α : Type} (g : State → α), OuterConv g → (∀ w x, g { w with supply := { w.supply with dip := x } } = g w) →
    g u = g s
  regs : ∀ q o : Nat, o < 4096 → (∀ sl c, sl < 8 → c < 16 → q ≠ fadcPage sl c) → u.reg q o = s.reg q o
  raised : ∀ pk b : Nat, Raised s pk b → Raised u pk b
  dip : u.supply.dip = true
  noted : s.supply.dip = false → ∀ sl c : Nat, s.present sl = true → c < 16 →
    s.fld (fadcPage sl c) FADC_SCHED.MODE ≠ 0 → DipNoted u sl c s.canvas

theorem trigStep_slices {l : List Nat} (hl : ∀ sl ∈ l, sl < 8) (s : State) : TrigStep s (l.foldl (fun u sl => u.triggerSource sl 6 0) s) :=
  (TrigStep.refl s).foldl fun sl hsl w => TrigStep.triggerSource w (hl sl hsl) 6 0

theorem dipBegun_beginDip (s : State) : DipBegun s s.beginDip := by
  by_cases hdip : s.supply.dip = true
  · have hstands : s.beginDip = s := if_pos hdip
    rw [hstands]
    exact ⟨fun _ _ _ => rfl, fun _ _ _ _ => rfl, fun _ _ h => h, hdip, fun h => by rw [hdip] at h; exact Bool.noConfusion h⟩
  · have hconv := lt_of_mem_converters s
    rw [beginDip_of_none (Bool.eq_false_iff.mpr hdip)]
    have htrig := trigStep_slices
      (l := (s.converters.foldl noteDip { s with supply := { s.supply with dip := true } }).slices)
      (fun sl h => present_lt ((mem_slices _ sl).mp h)) (s.converters.foldl noteDip { s with supply := { s.supply with dip := true } })
    have hstep : ConvStep { s with supply := { s.supply with dip := true } }
        (s.converters.foldl noteDip { s with supply := { s.supply with dip := true } }) :=
      (ConvStep.refl _).foldl fun x hx w => convStep_noteDip w (hconv x hx)
    have hall := hstep.trans htrig.toConvStep
    refine ⟨fun g hg hs => (hall.keeps g hg).trans (hs s true), hall.regs, hall.raised,
      hall.keeps (fun u => u.supply.dip) fun _ _ _ _ _ _ _ _ _ _ => rfl, fun _ sl c hsl hc hmode => ?_⟩
    refine DipNoted.trig ?_ htrig
    have hcanvas : ∀ (u : State) (x : Nat × Nat), (noteDip u x).canvas = u.canvas := fun u x => by
      unfold noteDip
      split
      · rfl
      · rw [raise_keeps State.canvas _ _ _ fun _ _ _ _ _ _ _ => rfl, canvas_setFld, canvas_setFld]
    have hinv : ∀ l : List (Nat × Nat), (∀ x ∈ l, x.1 < 8 ∧ x.2 < 16) → ∀ u : State,
        u.fld (fadcPage sl c) FADC_SCHED.MODE ≠ 0 → DipNoted u sl c u.canvas ∨ (sl, c) ∈ l →
        DipNoted (l.foldl noteDip u) sl c u.canvas := by
      intro l
      induction l with
      | nil => exact fun _ u _ h => h.resolve_right List.not_mem_nil
      | cons x l ih =>
        intro hl u hmode h
        have hx := hl x List.mem_cons_self
        have hmode' : (noteDip u x).fld (fadcPage sl c) FADC_SCHED.MODE ≠ 0 := by
          rwa [fld_noteDip u x _ rfl (by decide) rfl rfl]
        rw [List.foldl_cons, ← hcanvas u x]
        refine ih (fun y hy => hl y (List.mem_cons_of_mem x hy)) _ hmode' ?_
        rw [hcanvas]
        rcases h with h | h
        · exact .inl (dipNoted_noteDip (present_lt hsl) hc hx hmode h)
        · rcases List.mem_cons.mp h with rfl | h
          · exact .inl (noteDip_notes u (present_lt hsl) hc hmode)
          · exact .inr h
    exact hinv s.converters hconv _ hmode (.inr ((mem_converters s sl c).mpr ⟨hsl, hc⟩))

/-- What the end of a dip leaves, and what it notes. -/
structure DipEnded (s u : State) : Prop where
  regs : ∀ q o : Nat, o < 4096 → (∀ sl c, sl < 8 → c < 16 → q ≠ fadcPage sl c) → u.reg q o = s.reg q o
  raised : ∀ pk b : Nat, Raised s pk b → Raised u pk b
  supply : u.supply = { s.supply with dip := false }
  noted : ∀ sl c : Nat, s.present sl = true → c < 16 → s.flag (fadcPage sl c) FADC_DIP_END.OPEN = true →
    u.fld (fadcPage sl c) FADC_DIP_END.END = s.canvas % 2 ^ 62 ∧ u.flag (fadcPage sl c) FADC_DIP_END.OPEN = false

/-- Its own fields after a converter notes the end of a dip. -/
theorem noteDipEnd_self (u : State) (x : Nat × Nat) :
    (noteDipEnd u x).flag (fadcPage x.1 x.2) FADC_DIP_END.OPEN = false
      ∧ (u.flag (fadcPage x.1 x.2) FADC_DIP_END.OPEN = true →
        (noteDipEnd u x).fld (fadcPage x.1 x.2) FADC_DIP_END.END = u.canvas % 2 ^ 62) := by
  unfold noteDipEnd
  split
  · refine ⟨?_, fun _ => ?_⟩
    · rw [flag_eq, fld_setFld_self _ _ _ rfl]
      rfl
    · rw [fld_setFld_of_apart _ _ _ rfl rfl rfl, fld_setFld_self _ _ _ rfl]
      exact Nat.mod_mod _ _
  · next h => exact ⟨Bool.eq_false_iff.mpr h, fun hopen => absurd hopen h⟩

theorem fld_noteDipEnd_ne (u : State) {x : Nat × Nat} {pk : Nat} (h : pk ≠ fadcPage x.1 x.2) {f : Fld} (hf : fits f = true) :
    (noteDipEnd u x).fld pk f = u.fld pk f := by
  unfold noteDipEnd
  split
  · rw [fld_setFld_of_page _ _ rfl hf h, fld_setFld_of_page _ _ rfl hf h]
  · rfl

theorem canvas_noteDipEnd (u : State) (x : Nat × Nat) : (noteDipEnd u x).canvas = u.canvas := by
  unfold noteDipEnd
  split
  · rw [canvas_setFld, canvas_setFld]
  · rfl

/-- A converter that notes the end of a dip does so once. -/
theorem foldl_noteDipEnd {sl c : Nat} (hc : c < 16) (l : List (Nat × Nat)) (hl : ∀ x ∈ l, x.1 < 8 ∧ x.2 < 16) (u : State)
    (h : u.flag (fadcPage sl c) FADC_DIP_END.OPEN = true ∧ (sl, c) ∈ l
      ∨ u.flag (fadcPage sl c) FADC_DIP_END.OPEN = false
        ∧ u.fld (fadcPage sl c) FADC_DIP_END.END = u.canvas % 2 ^ 62) :
    (l.foldl noteDipEnd u).fld (fadcPage sl c) FADC_DIP_END.END = u.canvas % 2 ^ 62
      ∧ (l.foldl noteDipEnd u).flag (fadcPage sl c) FADC_DIP_END.OPEN = false := by
  induction l generalizing u with
  | nil =>
    obtain ⟨hclosed, hend⟩ := h.resolve_left fun h => List.not_mem_nil h.2
    exact ⟨hend, hclosed⟩
  | cons x l ih =>
    rw [List.foldl_cons, ← canvas_noteDipEnd u x]
    refine ih (fun y hy => hl y (List.mem_cons_of_mem x hy)) _ ?_
    rw [canvas_noteDipEnd]
    by_cases hx : (sl, c) = x
    · obtain ⟨hclosed, hend⟩ := noteDipEnd_self u x
      subst hx
      refine .inr ⟨hclosed, ?_⟩
      rcases h with ⟨hopen, -⟩ | ⟨hshut, hend'⟩
      · exact hend hopen
      · have hstands : noteDipEnd u (sl, c) = u := if_neg (by rw [hshut]; exact Bool.false_ne_true)
        rw [hstands, hend']
    · have hpk : fadcPage sl c ≠ fadcPage x.1 x.2 := fun h => hx (by
        obtain ⟨h1, h2⟩ := (fadcPage_inj hc (hl x List.mem_cons_self).2).mp h
        exact Prod.ext h1 h2)
      rw [flag_eq, fld_noteDipEnd_ne u hpk rfl, fld_noteDipEnd_ne u hpk rfl, ← flag_eq]
      exact h.imp_left fun ⟨hopen, hm⟩ => ⟨hopen, (List.mem_cons.mp hm).resolve_left hx⟩

theorem dipEnded_endDip (s : State) : DipEnded s s.endDip := by
  have hconv := lt_of_mem_converters s
  have hstep : ConvStep { s with supply := { s.supply with dip := false } } s.endDip :=
    (ConvStep.refl _).foldl fun x hx w => convStep_noteDipEnd w (hconv x hx)
  refine ⟨hstep.regs, hstep.raised, hstep.keeps State.supply fun _ _ _ _ _ _ _ _ _ _ => rfl, fun sl c hsl hc hopen => ?_⟩
  exact foldl_noteDipEnd hc s.converters hconv _ (.inl ⟨hopen, (mem_converters s sl c).mpr ⟨hsl, hc⟩⟩)

/-! ### Rails (R339 to R342) -/

theorem source_modePkg {b : Nat} (hb : b ≤ 2) : (sourceOf modePkgPage b).isSome = true := by
  interval_cases b <;> rfl

theorem packagePage_ne_fadcPage (n : Nat) {sl c : Nat} (hsl : sl < 8) (hc : c < 16) : packagePage n ≠ fadcPage sl c := by
  unfold fadcPage packagePage sectorPage
  omega

/-- A rail has been seen below its warning level, below its reset level, or back, for as long as it must. -/
def SeenLow (s : State) (r : Rail) (x : RailReading) : Prop := x.millivolts < (s.railLevels r).1 ∧ 64 ≤ x.ticks
def SeenUnder (s : State) (r : Rail) (x : RailReading) : Prop := x.millivolts < (s.railLevels r).2.1 ∧ 64 ≤ x.ticks
def SeenBack (s : State) (r : Rail) (x : RailReading) : Prop :=
  (s.railLevels r).1 + (s.railLevels r).2.2 ≤ x.millivolts ∧ 1250 ≤ x.ticks

theorem underWarning_iff (s : State) (r : Rail) (x : RailReading) : s.underWarning r x = true ↔ SeenLow s r x := by
  unfold State.underWarning SeenLow
  rw [Bool.and_eq_true, decide_eq_true_eq, decide_eq_true_eq]

theorem underReset_iff (s : State) (r : Rail) (x : RailReading) : s.underReset r x = true ↔ SeenUnder s r x := by
  unfold State.underReset SeenUnder
  rw [Bool.and_eq_true, decide_eq_true_eq, decide_eq_true_eq]

theorem railBack_iff (s : State) (r : Rail) (x : RailReading) : s.railBack r x = true ↔ SeenBack s r x := by
  unfold State.railBack SeenBack
  rw [Bool.and_eq_true, decide_eq_true_eq, decide_eq_true_eq]

/-- The rail counts as below its warning level. -/
def railFallen (s : State) : Rail → State
  | .core r => s.setFld modePkgPage MODE_SUPPLY.BELOW (putBit (s.fld modePkgPage MODE_SUPPLY.BELOW) r true)
  | .bank b => ({ s with supply := { s.supply with
      banksBelow := BitVec.ofNat 16 (putBit s.supply.banksBelow.toNat b true) } }).markBit modePkgPage MODE_SUPPLY.BANK_DIP b

theorem railBelowWarning_idles {s : State} {r : Rail} {x : RailReading}
    (h : ¬ SeenLow s r x ∨ s.boot = .cold ∨ s.railThere r = false ∨ s.railBelow r = true) :
    Idles (.railBelowWarning r x) s := by
  refine congrArg Host.Outcome.next (if_pos ?_)
  rw [← underWarning_iff, Bool.not_eq_true] at h
  tauto

theorem exec_railBelowWarning {s : State} {r : Rail} {x : RailReading} (hlow : SeenLow s r x) (hcold : s.boot ≠ .cold)
    (hthere : s.railThere r = true) (hbelow : s.railBelow r = false) :
    exec (.railBelowWarning r x) s = .next ((railFallen s r).raise modePkgPage 0).beginDip.takeRecord := by
  have hcond : ¬ (s.boot = .cold ∨ s.railThere r = false ∨ s.railBelow r = true ∨ s.underWarning r x = false) := by
    rw [(underWarning_iff s r x).mpr hlow, hthere, hbelow]
    simpa using hcold
  refine congrArg Host.Outcome.next ((if_neg hcond).trans ?_)
  cases r <;> rfl

theorem testBit_putBit_self (n i : Nat) (v : Bool) : (putBit n i v).testBit i = v := by
  rw [testBit_putBit, if_pos rfl]

theorem getLsbD_ofNat_putBit (w : BitVec 16) (i j : Nat) (v : Bool) (hj : j < 16) :
    (BitVec.ofNat 16 (putBit w.toNat i v)).getLsbD j = if j = i then v else w.getLsbD j := by
  rw [BitVec.getLsbD_ofNat, decide_eq_true hj, Bool.true_and, testBit_putBit]
  rfl

theorem railBelow_railFallen (s : State) (r : Rail) : (railFallen s r).railBelow r = true := by
  cases r with
  | core n =>
    change bit ((s.setFld modePkgPage MODE_SUPPLY.BELOW (putBit (s.fld modePkgPage MODE_SUPPLY.BELOW) n true)).fld
      modePkgPage MODE_SUPPLY.BELOW) n = true
    rw [fld_setFld_self _ _ _ rfl]
    refine (Nat.testBit_mod_two_pow _ 7 _).trans ?_
    rw [testBit_putBit_self, decide_eq_true n.isLt]
    rfl
  | bank b => exact (getLsbD_ofNat_putBit s.supply.banksBelow b b true b.isLt).trans (if_pos rfl)

theorem markBit_keeps {α : Type} (g : State → α) (s : State) (pk : Nat) (f : Fld) (i : Nat)
    (hregs : ∀ u x n, g { u with regs := x, setNow := n } = g u) : g (s.markBit pk f i) = g s := hregs s _ _

theorem railFallen_keeps {α : Type} (g : State → α) (s : State) (r : Rail) (hregs : ∀ u x n, g { u with regs := x, setNow := n } = g u)
    (hbelow : ∀ u x, g { u with supply := { u.supply with banksBelow := x } } = g u) : g (railFallen s r) = g s := by
  cases r with
  | core n => exact hregs s _ s.setNow
  | bank b =>
    exact (markBit_keeps g _ _ _ _ hregs).trans (hbelow s _)

theorem reg_railFallen (s : State) (r : Rail) {q o : Nat} (ho : o < 4096) (hq : q ≠ modePkgPage) :
    (railFallen s r).reg q o = s.reg q o := by
  have hset : ∀ (u : State) (f : Fld) (v : Nat), f.off < 4096 → (u.setFld modePkgPage f v).reg q o = u.reg q o :=
    fun u f v hf => reg_setFld_ne u f v ho hf fun h => hq (Prod.mk.inj h).1
  cases r with
  | core n => exact hset s _ _ (by decide)
  | bank b => exact (hset _ MODE_SUPPLY.BANK_DIP _ (by decide)).trans rfl

/-- Whether a rail counts as below its warning level is in `MODE_SUPPLY` and the states of the banks. -/
theorem railBelow_congr {s u : State} (hreg : u.reg modePkgPage 0x108 = s.reg modePkgPage 0x108)
    (hbanks : u.supply.banksBelow = s.supply.banksBelow) (r : Rail) : u.railBelow r = s.railBelow r := by
  cases r with
  | core n =>
    have hfld : u.fld modePkgPage MODE_SUPPLY.BELOW = s.fld modePkgPage MODE_SUPPLY.BELOW := fld_of_reg hreg
    exact congrArg (bit · n) hfld
  | bank b => exact congrArg (·.getLsbD b) hbanks

theorem allRecovered_congr {s u : State} (hreg : u.reg modePkgPage 0x108 = s.reg modePkgPage 0x108)
    (hbanks : u.supply.banksBelow = s.supply.banksBelow) : u.allRecovered = s.allRecovered := by
  have hfld : u.fld modePkgPage MODE_SUPPLY.BELOW = s.fld modePkgPage MODE_SUPPLY.BELOW := fld_of_reg hreg
  unfold State.allRecovered
  rw [hfld, hbanks]

/-- What the record of a dip leaves: it is taken, or its loss is shown. -/
structure RecordTaken (s u : State) : Prop where
  keeps : ∀ {α : Type} (g : State → α), (∀ w r, g { w with regs := r } = g w) →
    (∀ w x, g { w with supply := { w.supply with taken := x } } = g w) → g u = g s
  regs : ∀ q o : Nat, o < 4096 → q ≠ upntPage → u.reg q o = s.reg q o
  taken : s.flag upntPage UPNT_STATUS.DIP_VALID = false → s.supply.taken = none → u.supply.taken.isSome = true
  overrun : s.flag upntPage UPNT_STATUS.DIP_VALID = true ∨ s.supply.taken.isSome = true →
    u.flag upntPage UPNT_STATUS.DIP_OVERRUN = true ∧ u.supply.taken = s.supply.taken

theorem recordTaken_takeRecord (s : State) : RecordTaken s s.takeRecord := by
  unfold State.takeRecord
  split
  · next h =>
    refine ⟨fun g hr _ => hr s _, fun q o ho hq => reg_setFld_ne s _ 1 ho (by decide) fun h => hq (Prod.mk.inj h).1,
      fun hvalid hnone => ?_, fun _ => ⟨?_, rfl⟩⟩
    · rw [hvalid, hnone] at h
      exact absurd h (by decide)
    · rw [flag_eq, fld_setFld_self _ _ _ rfl]
      rfl
  · next h =>
    generalize s.dipWords = d
    exact ⟨fun g _ hs => hs s _, fun _ _ _ _ => rfl, fun _ _ => rfl, fun hheld => absurd hheld h⟩

theorem railBelowWarning_dips {s : State} {r : Rail} {x : RailReading} (hlow : SeenLow s r x) (hcold : s.boot ≠ .cold)
    (hthere : s.railThere r = true) (hbelow : s.railBelow r = false) : Gives (.railBelowWarning r x) s (fun u =>
      u.railBelow r = true ∧ Raised u modePkgPage 0 ∧ u.supply.dip = true ∧ u.mem = s.mem
      ∧ (s.flag upntPage UPNT_STATUS.DIP_VALID = false → s.supply.taken = none → u.supply.taken.isSome = true)
      ∧ (s.flag upntPage UPNT_STATUS.DIP_VALID = true ∨ s.supply.taken.isSome = true →
        u.flag upntPage UPNT_STATUS.DIP_OVERRUN = true ∧ u.supply.taken = s.supply.taken)
      ∧ (s.supply.dip = false → ∀ sl c : Nat, s.present sl = true → c < 16 →
        s.fld (fadcPage sl c) FADC_SCHED.MODE ≠ 0 →
        u.fld (fadcPage sl c) FADC_DIP_START.START = s.canvas % 2 ^ 62
        ∧ u.flag (fadcPage sl c) FADC_DIP_END.OPEN = true ∧ Raised u (fadcPage sl c) 2)) := by
  refine ⟨_, exec_railBelowWarning hlow hcold hthere hbelow, ?_⟩
  -- the rail counts as below, with its event
  have hfell := railBelow_railFallen s r
  have hfallen {α : Type} (g : State → α) := railFallen_keeps g s r
  have hfallenReg := fun q o => reg_railFallen s r (q := q) (o := o)
  have hmem := hfallen State.mem (fun _ _ _ => rfl) fun _ _ => rfl
  have hcanvas := hfallen State.canvas (fun _ _ _ => rfl) fun _ _ => rfl
  have hvariant := hfallen State.variant (fun _ _ _ => rfl) fun _ _ => rfl
  have htaken := hfallen (fun u => u.supply.taken) (fun _ _ _ => rfl) fun _ _ => rfl
  have hdipKept := hfallen (fun u => u.supply.dip) (fun _ _ _ => rfl) fun _ _ => rfl
  generalize railFallen s r = a at *
  have hraiseReg : ∀ q o, o < 4096 → (q, o) ≠ (modePkgPage, 0x020) → (a.raise modePkgPage 0).reg q o = a.reg q o :=
    fun q o ho hq => reg_raise_ne a ho hq
  have hraised : Raised (a.raise modePkgPage 0) modePkgPage 0 :=
    raised_raise a modePkgPage (by decide) (source_modePkg (by decide))
  have hraise {α : Type} (g : State → α) := raise_keeps g a modePkgPage 0
  have hmem' := (hraise State.mem fun _ _ _ _ _ _ _ => rfl).trans hmem
  have hcanvas' := (hraise State.canvas fun _ _ _ _ _ _ _ => rfl).trans hcanvas
  have hvariant' := (hraise State.variant fun _ _ _ _ _ _ _ => rfl).trans hvariant
  have hsupply := hraise State.supply fun _ _ _ _ _ _ _ => rfl
  generalize a.raise modePkgPage 0 = b at *
  -- the dip begins
  obtain ⟨hkeeps, hregs, hraises, hdip, hnoted⟩ := dipBegun_beginDip b
  have hpkg : ∀ o, o < 4096 → b.beginDip.reg modePkgPage o = b.reg modePkgPage o := fun o ho =>
    hregs _ o ho fun sl c hsl hc => packagePage_ne_fadcPage 24 hsl hc
  have hupnt : ∀ o, o < 4096 → b.beginDip.reg upntPage o = b.reg upntPage o := fun o ho =>
    hregs _ o ho fun sl c hsl hc => packagePage_ne_fadcPage 32 hsl hc
  have hbmem := hkeeps State.mem (fun _ _ _ _ _ _ _ _ _ _ => rfl) fun _ _ => rfl
  have hbtaken := hkeeps (fun u => u.supply.taken) (fun _ _ _ _ _ _ _ _ _ _ => rfl) fun _ _ => rfl
  have hbbelow := hkeeps (fun u => u.supply.banksBelow) (fun _ _ _ _ _ _ _ _ _ _ => rfl) fun _ _ => rfl
  generalize b.beginDip = c at *
  -- its record is taken
  obtain ⟨hrkeeps, hrregs, hrtaken, hroverrun⟩ := recordTaken_takeRecord c
  have hrdip := hrkeeps (fun u => u.supply.dip) (fun _ _ => rfl) fun _ _ => rfl
  have hrbelow := hrkeeps (fun u => u.supply.banksBelow) (fun _ _ => rfl) fun _ _ => rfl
  have hrmem := hrkeeps State.mem (fun _ _ => rfl) fun _ _ => rfl
  generalize c.takeRecord = u at *
  have hheld : c.supply.taken = s.supply.taken := by rw [hbtaken, hsupply, htaken]
  have hvalid : c.flag upntPage UPNT_STATUS.DIP_VALID = s.flag upntPage UPNT_STATUS.DIP_VALID := by
    have hfld : c.fld upntPage UPNT_STATUS.DIP_VALID = s.fld upntPage UPNT_STATUS.DIP_VALID := fld_of_reg (by
      rw [hupnt _ (by decide), hraiseReg _ _ (by decide) (by decide), hfallenReg _ _ (by decide) (by decide)])
    rw [flag_eq, flag_eq, hfld]
  rw [hvalid, hheld] at hrtaken hroverrun
  refine ⟨?_, ?_, hrdip.trans hdip, hrmem.trans (hbmem.trans hmem'), hrtaken, hroverrun, fun hnone sl k hsl hk hmode => ?_⟩
  · have hbanks : u.supply.banksBelow = a.supply.banksBelow := by rw [hrbelow, hbbelow, hsupply]
    rw [railBelow_congr (s := a) _ hbanks, hfell]
    rw [hrregs _ _ (by decide) (by decide), hpkg _ (by decide), hraiseReg _ _ (by decide) (by decide)]
  · exact (raised_of_reg (hrregs _ _ (by decide) (by decide))).mpr (hraises _ _ hraised)
  · have hfadc : ∀ o, o < 4096 → u.reg (fadcPage sl k) o = c.reg (fadcPage sl k) o := fun o ho =>
      hrregs _ o ho (packagePage_ne_fadcPage 32 (present_lt hsl) hk).symm
    have hpkgne : fadcPage sl k ≠ modePkgPage := (packagePage_ne_fadcPage 24 (present_lt hsl) hk).symm
    have hpresent : b.present sl = true := by
      unfold State.present at hsl ⊢
      rw [hvariant']
      exact hsl
    have hmode' : b.fld (fadcPage sl k) FADC_SCHED.MODE ≠ 0 := by
      rwa [fld_of_reg (s := s) (f := FADC_SCHED.MODE)]
      rw [hraiseReg _ _ (by decide) fun h => hpkgne (Prod.mk.inj h).1, hfallenReg _ _ (by decide) hpkgne]
    obtain ⟨hstart, hopen, hraised2⟩ := hnoted (by rw [hsupply, hdipKept, hnone]) sl k hpresent hk hmode'
    refine ⟨(fld_of_reg (hfadc _ (by decide))).trans (hstart.trans (by rw [hcanvas'])), ?_,
      (raised_of_reg (hfadc _ (by decide))).mpr hraised2⟩
    rw [flag_eq, fld_of_reg (hfadc FADC_DIP_END.OPEN.off (by decide)), ← flag_eq, hopen]

/-- A bank counts neither as below its warning level nor as down. -/
def bankRestored (s : State) (b : Fin 16) : State :=
  { s with supply := { s.supply with
    banksBelow := BitVec.ofNat 16 (putBit s.supply.banksBelow.toNat b false),
    banksDown := BitVec.ofNat 16 (putBit s.supply.banksDown.toNat b false) } }

/-- The rail no longer counts as below its warning level. -/
def railBackUp (s : State) : Rail → State
  | .core r => (s.setFld modePkgPage MODE_SUPPLY.BELOW (putBit (s.fld modePkgPage MODE_SUPPLY.BELOW) r false)).markBit
      modePkgPage MODE_SUPPLY.DIP_SEEN r
  | .bank b => (bankRestored s b).setFld modePkgPage MODE_SUPPLY.BANK_LOW
      (putBit (s.fld modePkgPage MODE_SUPPLY.BANK_LOW) b false)

theorem railRecovered_idles {s : State} {r : Rail} {x : RailReading} (h : ¬ SeenBack s r x) :
    Idles (.railRecovered r x) s := by
  rw [← railBack_iff, Bool.not_eq_true] at h
  exact congrArg Host.Outcome.next (if_pos h)

theorem railRecovered_core_idles {s : State} {n : Fin 7} {x : RailReading} (h : s.railBelow (.core n) = false) :
    Idles (.railRecovered (.core n) x) s := by
  change Host.Outcome.next (if s.railBack (.core n) x = false then s
    else if s.railBelow (.core n) = false then (if s.railBelow (.core n) then _ else s) else _) = _
  rw [h, if_pos rfl, if_neg Bool.false_ne_true, ite_self]

theorem exec_railRecovered_bank {s : State} {b : Fin 16} {x : RailReading} (hback : SeenBack s (.bank b) x)
    (h : s.railBelow (.bank b) = false) : exec (.railRecovered (.bank b) x) s = .next (railBackUp s (.bank b)) := by
  have hseen := (railBack_iff s (.bank b) x).mpr hback
  exact congrArg Host.Outcome.next ((if_neg (by rw [hseen]; exact Bool.noConfusion)).trans (if_pos h))

theorem exec_railRecovered {s : State} {r : Rail} {x : RailReading} (hback : SeenBack s r x) (h : s.railBelow r = true) :
    exec (.railRecovered r x) s = .next (
      if ((railBackUp s r).raise modePkgPage 1).allRecovered then ((railBackUp s r).raise modePkgPage 1).endDip
      else (railBackUp s r).raise modePkgPage 1) := by
  have hseen := (railBack_iff s r x).mpr hback
  have hnot : ¬ s.railBack r x = false := by rw [hseen]; exact Bool.noConfusion
  have hwas : ¬ s.railBelow r = false := by rw [h]; exact Bool.noConfusion
  cases r with
  | core n =>
    change Host.Outcome.next (if s.railBack (.core n) x = false then s
      else if s.railBelow (.core n) = false then (if s.railBelow (.core n) then railBackUp s (.core n) else s)
      else if ((if s.railBelow (.core n) then railBackUp s (.core n) else s).raise modePkgPage 1).allRecovered
        then ((if s.railBelow (.core n) then railBackUp s (.core n) else s).raise modePkgPage 1).endDip
        else (if s.railBelow (.core n) then railBackUp s (.core n) else s).raise modePkgPage 1) = _
    rw [if_neg hnot, if_neg hwas, if_pos h]
  | bank b => exact congrArg Host.Outcome.next ((if_neg hnot).trans (if_neg hwas))

theorem railBelow_railBackUp (s : State) (r : Rail) : (railBackUp s r).railBelow r = false := by
  cases r with
  | core n =>
    change bit (((s.setFld modePkgPage MODE_SUPPLY.BELOW (putBit (s.fld modePkgPage MODE_SUPPLY.BELOW) n false)).markBit
      modePkgPage MODE_SUPPLY.DIP_SEEN n).fld modePkgPage MODE_SUPPLY.BELOW) n = false
    rw [fld_markBit, fld_setFld_of_apart _ _ _ rfl rfl rfl, fld_setFld_self _ _ _ rfl]
    refine (Nat.testBit_mod_two_pow _ 7 _).trans ?_
    rw [testBit_putBit_self]
    exact Bool.and_false _
  | bank b => exact (getLsbD_ofNat_putBit s.supply.banksBelow b b false b.isLt).trans (if_pos rfl)

/-- What the recovery of a rail leaves, besides the dip. -/
structure BackUp (s u : State) : Prop where
  regs : ∀ q o : Nat, o < 4096 → q ≠ modePkgPage → u.reg q o = s.reg q o
  canvas : u.canvas = s.canvas
  variant : u.variant = s.variant
  dip : u.supply.dip = s.supply.dip

theorem backUp_railBackUp (s : State) (r : Rail) : BackUp s (railBackUp s r) := by
  have hset : ∀ (u : State) (f : Fld) (v q o : Nat), f.off < 4096 → o < 4096 → q ≠ modePkgPage →
      (u.setFld modePkgPage f v).reg q o = u.reg q o :=
    fun u f v q o hf ho hq => reg_setFld_ne u f v ho hf fun h => hq (Prod.mk.inj h).1
  cases r with
  | core n =>
    have hmark : ∀ (u : State) (q o : Nat), o < 4096 → q ≠ modePkgPage →
        (u.markBit modePkgPage MODE_SUPPLY.DIP_SEEN n).reg q o = u.reg q o := fun u q o ho hq =>
      hset u MODE_SUPPLY.DIP_SEEN _ q o (by decide) ho hq
    have hbelow := fun q o => hset s MODE_SUPPLY.BELOW (putBit (s.fld modePkgPage MODE_SUPPLY.BELOW) n false) q o (by decide)
    have keeps {α : Type} (g : State → α) := setFld_keeps g s modePkgPage MODE_SUPPLY.BELOW
      (putBit (s.fld modePkgPage MODE_SUPPLY.BELOW) n false)
    have hcanvas := keeps State.canvas fun _ _ => rfl
    have hvariant := keeps State.variant fun _ _ => rfl
    have hdip := keeps (fun u => u.supply.dip) fun _ _ => rfl
    unfold railBackUp
    dsimp only
    generalize s.setFld modePkgPage MODE_SUPPLY.BELOW (putBit (s.fld modePkgPage MODE_SUPPLY.BELOW) n false) = v at *
    exact ⟨fun q o ho hq => (hmark v q o ho hq).trans (hbelow q o ho hq),
      (markBit_keeps State.canvas v _ _ _ fun _ _ _ => rfl).trans hcanvas,
      (markBit_keeps State.variant v _ _ _ fun _ _ _ => rfl).trans hvariant,
      (markBit_keeps (fun u => u.supply.dip) v _ _ _ fun _ _ _ => rfl).trans hdip⟩
  | bank b =>
    have hreg : ∀ q o, (bankRestored s b).reg q o = s.reg q o := fun _ _ => rfl
    have hcanvas : (bankRestored s b).canvas = s.canvas := rfl
    have hvariant : (bankRestored s b).variant = s.variant := rfl
    have hdip : (bankRestored s b).supply.dip = s.supply.dip := rfl
    unfold railBackUp
    dsimp only
    generalize bankRestored s b = v at *
    exact ⟨fun q o ho hq => (hset v MODE_SUPPLY.BANK_LOW _ q o (by decide) ho hq).trans (hreg q o), hcanvas, hvariant, hdip⟩

theorem BackUp.raise {s u : State} (h : BackUp s u) (b : Nat) : BackUp s (u.raise modePkgPage b) := by
  obtain ⟨hregs, hcanvas, hvariant, hdip⟩ := h
  have keeps {α : Type} (g : State → α) := raise_keeps g u modePkgPage b
  exact ⟨fun q o ho hq => (reg_raise_ne u ho fun h => hq (Prod.mk.inj h).1).trans (hregs q o ho hq),
    (keeps State.canvas fun _ _ _ _ _ _ _ => rfl).trans hcanvas,
    (keeps State.variant fun _ _ _ _ _ _ _ => rfl).trans hvariant,
    (keeps (fun u => u.supply.dip) fun _ _ _ _ _ _ _ => rfl).trans hdip⟩

theorem railRecovered_ends {s : State} {r : Rail} {x : RailReading} (hback : SeenBack s r x) (h : s.railBelow r = true) :
    Gives (.railRecovered r x) s (fun u => u.railBelow r = false ∧ Raised u modePkgPage 1
      ∧ (u.allRecovered = true → u.supply.dip = false ∧ ∀ sl c : Nat, s.present sl = true → c < 16 →
        s.flag (fadcPage sl c) FADC_DIP_END.OPEN = true →
        u.fld (fadcPage sl c) FADC_DIP_END.END = s.canvas % 2 ^ 62 ∧ u.flag (fadcPage sl c) FADC_DIP_END.OPEN = false)
      ∧ (u.allRecovered = false → u.supply.dip = s.supply.dip)) := by
  refine ⟨_, exec_railRecovered hback h, ?_⟩
  have hraised : Raised ((railBackUp s r).raise modePkgPage 1) modePkgPage 1 :=
    raised_raise _ modePkgPage (by decide) (source_modePkg (by decide))
  have hup : ((railBackUp s r).raise modePkgPage 1).railBelow r = false :=
    (railBelow_congr (reg_raise_ne _ (by decide) (by decide))
      (congrArg Supply.banksBelow (raise_keeps State.supply _ _ _ fun _ _ _ _ _ _ _ => rfl)) r).trans
      (railBelow_railBackUp s r)
  obtain ⟨hregs, hcanvas, hvariant, hdip⟩ := (backUp_railBackUp s r).raise 1
  generalize (railBackUp s r).raise modePkgPage 1 = b at *
  split
  · next hall =>
    obtain ⟨heregs, heraised, hsupply, hnoted⟩ := dipEnded_endDip b
    have hpkg : b.endDip.reg modePkgPage 0x108 = b.reg modePkgPage 0x108 :=
      heregs _ _ (by decide) fun sl c hsl hc => packagePage_ne_fadcPage 24 hsl hc
    have hbanks : b.endDip.supply.banksBelow = b.supply.banksBelow := by rw [hsupply]
    refine ⟨(railBelow_congr hpkg hbanks r).trans hup, heraised _ _ hraised, fun _ => ⟨by rw [hsupply],
      fun sl c hsl hc hopen => ?_⟩, fun hnot => ?_⟩
    · have hpresent : b.present sl = true := by
        unfold State.present at hsl ⊢
        rw [hvariant]
        exact hsl
      have hfld : b.fld (fadcPage sl c) FADC_DIP_END.OPEN = s.fld (fadcPage sl c) FADC_DIP_END.OPEN :=
        fld_of_reg (hregs _ _ (by decide) (packagePage_ne_fadcPage 24 (present_lt hsl) hc).symm)
      rw [← hcanvas]
      exact hnoted sl c hpresent hc (by rw [flag_eq, hfld, ← flag_eq, hopen])
    · rw [allRecovered_congr hpkg hbanks, hall] at hnot
      exact Bool.noConfusion hnot
  · next hall => exact ⟨hup, hraised, fun h => absurd h hall, fun _ => hdip⟩

theorem railBackUp_bank (s : State) (b : Fin 16) :
    (railBackUp s (.bank b)).supply.dip = s.supply.dip
      ∧ (∀ k : Nat, k < 16 → (railBackUp s (.bank b)).supply.banksDown.getLsbD k
        = if k = b then false else s.supply.banksDown.getLsbD k)
      ∧ ((railBackUp s (.bank b)).fld modePkgPage MODE_SUPPLY.BANK_LOW).testBit b = false := by
  have hdip : (bankRestored s b).supply.dip = s.supply.dip := rfl
  have hdown : ∀ k : Nat, k < 16 → (bankRestored s b).supply.banksDown.getLsbD k
      = if k = b then false else s.supply.banksDown.getLsbD k := fun k hk =>
    getLsbD_ofNat_putBit s.supply.banksDown b k false hk
  unfold railBackUp
  dsimp only
  generalize bankRestored s b = v at *
  refine ⟨hdip, hdown, ?_⟩
  rw [fld_setFld_self _ _ _ rfl]
  refine (Nat.testBit_mod_two_pow _ 16 _).trans ?_
  rw [testBit_putBit_self]
  exact Bool.and_false _

/-! #### Resets by rails -/

theorem railBelowReset_idles {s : State} {r : Rail} {x : RailReading} (h : ¬ SeenUnder s r x ∨ s.railThere r = false) :
    Idles (.railBelowReset r x) s := by
  rw [← underReset_iff, Bool.not_eq_true] at h
  exact congrArg Host.Outcome.next (if_pos h.symm)

theorem exec_railBelowReset {s : State} {r : Rail} {x : RailReading} (hunder : SeenUnder s r x)
    (hthere : s.railThere r = true) : ¬ (s.railThere r = false ∨ s.underReset r x = false) := by
  rw [(underReset_iff s r x).mpr hunder, hthere]
  exact fun h => h.elim Bool.noConfusion Bool.noConfusion

theorem railBelowReset_core_cold {s : State} {n : Fin 7} {x : RailReading} (h : s.boot = .cold) :
    Idles (.railBelowReset (.core n) x) s := by
  change Host.Outcome.next (if s.railThere (.core n) = false ∨ s.underReset (.core n) x = false then s
    else if s.boot = .cold then s else s.coldReset n) = _
  rw [if_pos h, ite_self]

theorem railBelowReset_core {s : State} {n : Fin 7} {x : RailReading} (hunder : SeenUnder s (.core n) x)
    (hcold : s.boot ≠ .cold) : Gives (.railBelowReset (.core n) x) s (fun u => u.boot = .cold ∧ Primed s u 4
      ∧ u.fld modePkgPage MODE_RESET_CAUSE.RAIL = n) := by
  refine ⟨s.coldReset n, congrArg Host.Outcome.next ((if_neg (exec_railBelowReset hunder rfl)).trans (if_neg hcold)), ?_⟩
  exact ⟨boot_resetPackage _ _ _ _, primed_resetPackage s .cold n (by decide),
    rail_resetPackage s .cold 4 (by have := n.isLt; omega)⟩

theorem railBelowReset_bank_down {s : State} {b : Fin 16} {x : RailReading}
    (h : s.supply.banksDown.getLsbD b = true) : Idles (.railBelowReset (.bank b) x) s := by
  change Host.Outcome.next (if s.railThere (.bank b) = false ∨ s.underReset (.bank b) x = false then s
    else if s.supply.banksDown.getLsbD b = true then s else _) = _
  rw [if_pos h, ite_self]

/-- A bank's rail is below its reset level. -/
def bankFallen (s : State) (b : Fin 16) : State :=
  { s with supply := { s.supply with banksDown := BitVec.ofNat 16 (putBit s.supply.banksDown.toNat b true) } }

/-- A bank that is down leaves its pins undriven. -/
theorem pin_of_bankDown {u : State} {b : Fin 16} (h : u.supply.banksDown.getLsbD b = true) {p : Nat} (out : Out)
    (hlo : 8 * (b.val % 2) ≤ p) (hhi : p < 8 * (b.val % 2) + 8) : u.pin (b.val / 2) p out = .z := by
  have hbank : bankOf (b.val / 2) p = b.val := by unfold bankOf; omega
  have horder : u.orderOne (b.val / 2) p = true := by
    unfold State.orderOne
    rw [hbank, h]
    rfl
  unfold State.pin
  dsimp only
  rw [horder, if_pos rfl]

theorem railBelowReset_bank {s : State} {b : Fin 16} {x : RailReading} (hunder : SeenUnder s (.bank b) x)
    (hthere : s.railThere (.bank b) = true) (hup : s.supply.banksDown.getLsbD b = false) :
    Gives (.railBelowReset (.bank b) x) s (fun u => u.supply.banksDown.getLsbD b = true ∧ u.boot = s.boot
      ∧ (s.boot = .cold → u.regs = s.regs)
      ∧ (s.boot ≠ .cold → (u.fld modePkgPage MODE_SUPPLY.BANK_LOW).testBit b = true ∧ Raised u modePkgPage 2)
      ∧ ∀ (p : Nat) (out : Out), 8 * (b.val % 2) ≤ p → p < 8 * (b.val % 2) + 8 → u.pin (b.val / 2) p out = .z) := by
  have hdown : (bankFallen s b).supply.banksDown.getLsbD b = true :=
    (getLsbD_ofNat_putBit s.supply.banksDown b b true b.isLt).trans (if_pos rfl)
  have hexec : exec (.railBelowReset (.bank b) x) s = .next (if s.boot = .cold then bankFallen s b
      else ((bankFallen s b).setFld modePkgPage MODE_SUPPLY.BANK_LOW
        (putBit (s.fld modePkgPage MODE_SUPPLY.BANK_LOW) b true)).raise modePkgPage 2) :=
    congrArg Host.Outcome.next ((if_neg (exec_railBelowReset hunder hthere)).trans
      (if_neg (by rw [hup]; exact Bool.false_ne_true)))
  refine ⟨_, hexec, ?_⟩
  have hboot : (bankFallen s b).boot = s.boot := rfl
  have hregs : (bankFallen s b).regs = s.regs := rfl
  generalize bankFallen s b = v at *
  by_cases hcold : s.boot = .cold
  · rw [if_pos hcold]
    exact ⟨hdown, hboot, fun _ => hregs, fun h => absurd hcold h, fun p out h1 h2 => pin_of_bankDown hdown out h1 h2⟩
  · rw [if_neg hcold]
    have hsupply := raise_keeps State.supply (v.setFld modePkgPage MODE_SUPPLY.BANK_LOW
      (putBit (s.fld modePkgPage MODE_SUPPLY.BANK_LOW) b true)) modePkgPage 2 fun _ _ _ _ _ _ _ => rfl
    have hdown' : (((v.setFld modePkgPage MODE_SUPPLY.BANK_LOW
        (putBit (s.fld modePkgPage MODE_SUPPLY.BANK_LOW) b true)).raise modePkgPage 2).supply.banksDown).getLsbD b = true := by
      rw [hsupply]
      exact hdown
    refine ⟨hdown', ?_, fun h => absurd h hcold,
      fun _ => ⟨?_, raised_raise _ modePkgPage (by decide) (source_modePkg (by decide))⟩,
      fun p out h1 h2 => pin_of_bankDown hdown' out h1 h2⟩
    · exact (raise_keeps State.boot _ _ _ fun _ _ _ _ _ _ _ => rfl).trans hboot
    · rw [fld_raise _ _ _ _ rfl (by decide), fld_setFld_self _ _ _ rfl]
      refine (Nat.testBit_mod_two_pow _ 16 _).trans ?_
      rw [testBit_putBit_self, decide_eq_true b.isLt]
      rfl

theorem railLevels_eq (s : State) (r : Rail) : s.railLevels r = match r with
    | .core n => (match n.val with
      | 0 => (715, 690, 10)
      | 1 | 2 => (765, 740, 10)
      | 3 => (1710, 1650, 10)
      | 5 => (1060, 1030, 10)
      | _ => (860, 830, 10))
    | .bank b => if s.bank33 b = true then (3130, 2970, 20) else (1710, 1620, 10) := by
  cases r with
  | core n => fin_cases n <;> rfl
  | bank b => rfl

theorem bank33_iff (s : State) (b : Fin 16) : s.bank33 b = true ↔
    (s.boot ≠ .done ∧ s.restored = false) ∨ (s.fld modePkgPage MODE_BANKV.V33).testBit b = true := by
  unfold State.bank33
  rw [Bool.or_eq_true, Bool.and_eq_true, decide_eq_true_eq, Bool.not_eq_true']
  rfl

theorem dipRecordWritten_held {s : State} {r : Store Word} (h : s.supply.taken = some r) :
    Gives .dipRecordWritten s (fun u => u.supply.record = r ∧ u.supply.taken = none
      ∧ u.flag upntPage UPNT_STATUS.DIP_VALID = true) := by
  have hexec : exec .dipRecordWritten s = .next (({ s with supply := { s.supply with taken := none, record := r } }).setFld
      upntPage UPNT_STATUS.DIP_VALID 1) := by
    change execDipRecordWritten s = _
    unfold execDipRecordWritten
    rw [h]
  refine ⟨_, hexec, rfl, rfl, ?_⟩
  rw [flag_eq, fld_setFld_self _ _ _ rfl]
  rfl

theorem dipRecordWritten_idles {s : State} (h : s.supply.taken = none) : Idles .dipRecordWritten s := by
  change execDipRecordWritten s = _
  unfold execDipRecordWritten
  rw [h]

end Sys2Proof.Proofs
end

section
/-! PROOFS. The junction sensors. Settles O53. -/

namespace Sys2Proof.Proofs

open Sys2Proof Sys2Proof.Machine

/-! ### The junction sensors (R59, R342) -/

theorem source_modeSlice {sl b : Nat} (hsl : sl < 8) (hb : b ≤ 5) : (sourceOf (modePage sl) b).isSome = true := by
  interval_cases sl <;> interval_cases b <;> rfl

/-- A converter's calibration is due by a reading of the junction. -/
def CalFar (s : State) (sl : Nat) (t : Int) (c : Nat) : Prop :=
  20 < t - (s.conv sl c).calJunction ∨ t - (s.conv sl c).calJunction < -20

/-- `CAL_DUE` of one converter follows a reading. -/
def markDueOne (sl : Nat) (t : Int) (u : State) (c : Nat) : State :=
  if u.flag (fadcPage sl c) FADC_CAL.CAL_DUE = false ∧ (20 < t - (u.conv sl c).calJunction ∨ t - (u.conv sl c).calJunction < -20)
  then (u.setFld (fadcPage sl c) FADC_CAL.CAL_DUE 1).raise (fadcPage sl c) 5 else u

theorem markDue_eq (s : State) (sl : Nat) (t : Int) : s.markDue sl t = (List.range 16).foldl (markDueOne sl t) s := rfl

/-- What the marks of a reading leave. -/
structure DueStep (s u : State) : Prop where
  keeps : ∀ {α : Type} (g : State → α), (∀ w r n a e v t, g { w with regs := r, setNow := n, evArrived := a, evPend := e, events := v, threads := t } = g w) → g u = g s
  regs : ∀ q o : Nat, o < 4096 → (∀ sl c, sl < 8 → c < 16 → q ≠ fadcPage sl c) → u.reg q o = s.reg q o

theorem dueStep_markDueOne {sl c : Nat} (hsl : sl < 8) (hc : c < 16) (t : Int) (u : State) : DueStep u (markDueOne sl t u c) := by
  unfold markDueOne
  split
  · refine ⟨fun g hg => (raise_keeps g _ _ _ hg).trans
      (setFld_keeps g u _ _ _ fun w r => hg w r w.setNow w.evArrived w.evPend w.events w.threads), fun q o ho hq => ?_⟩
    have hne : ∀ x : Nat, (q, o) ≠ (fadcPage sl c, x) := fun x h => hq sl c hsl hc (Prod.mk.inj h).1
    rw [reg_raise_ne _ ho (hne _), reg_setFld_ne _ _ _ ho (by decide) (hne _)]
  · exact ⟨fun _ _ => rfl, fun _ _ _ _ => rfl⟩

theorem dueStep_markDue {sl : Nat} (hsl : sl < 8) (t : Int) (s : State) : DueStep s (s.markDue sl t) := by
  rw [markDue_eq]
  have hl : ∀ c ∈ List.range 16, c < 16 := fun c hc => List.mem_range.mp hc
  generalize List.range 16 = l at hl
  induction l generalizing s with
  | nil => exact ⟨fun _ _ => rfl, fun _ _ _ _ => rfl⟩
  | cons c l ih =>
    obtain ⟨hkeeps, hregs⟩ := dueStep_markDueOne hsl (hl c List.mem_cons_self) t s
    obtain ⟨hkeeps', hregs'⟩ := ih (markDueOne sl t s c) fun x hx => hl x (List.mem_cons_of_mem c hx)
    exact ⟨fun g hg => (hkeeps' g hg).trans (hkeeps g hg), fun q o ho hq => (hregs' q o ho hq).trans (hregs q o ho hq)⟩

theorem conv_markDueOne (sl : Nat) (t : Int) (u : State) (c k d : Nat) : (markDueOne sl t u c).conv k d = u.conv k d := by
  unfold markDueOne
  split
  · rw [raise_keeps (State.conv · k d) _ _ _ fun _ _ _ _ _ _ _ => rfl]
    rfl
  · rfl

theorem due_markDueOne {sl c : Nat} (t : Int) {u : State} (h : CalFar u sl t c) :
    (markDueOne sl t u c).flag (fadcPage sl c) FADC_CAL.CAL_DUE = true := by
  unfold markDueOne
  split
  · rw [flag_eq, fld_raise _ _ _ _ rfl (by decide), fld_setFld_self _ _ _ rfl]
    rfl
  · next hnot =>
    by_contra hclear
    exact hnot ⟨Bool.eq_false_iff.mpr hclear, h⟩

theorem due_markDueOne_of_due {sl c d : Nat} (t : Int) {u : State}
    (h : u.flag (fadcPage sl c) FADC_CAL.CAL_DUE = true) :
    (markDueOne sl t u d).flag (fadcPage sl c) FADC_CAL.CAL_DUE = true := by
  unfold markDueOne
  split
  · rw [flag_eq, fld_raise _ _ _ _ rfl (by decide)]
    by_cases hpk : fadcPage sl c = fadcPage sl d
    · rw [hpk, fld_setFld_self _ _ _ rfl]
      rfl
    · rw [fld_setFld_of_page _ _ rfl rfl hpk, ← flag_eq, h]
  · exact h

theorem due_markDue {s : State} {sl c : Nat} {t : Int} (hc : c < 16) (h : CalFar s sl t c) :
    (s.markDue sl t).flag (fadcPage sl c) FADC_CAL.CAL_DUE = true := by
  have hfold : ∀ l : List Nat, ∀ u : State, CalFar u sl t c →
      u.flag (fadcPage sl c) FADC_CAL.CAL_DUE = true ∨ c ∈ l →
      (l.foldl (markDueOne sl t) u).flag (fadcPage sl c) FADC_CAL.CAL_DUE = true := by
    intro l
    induction l with
    | nil => exact fun u _ hdue => hdue.resolve_right List.not_mem_nil
    | cons d l ih =>
      intro u hfar hdue
      have hfar' : CalFar (markDueOne sl t u d) sl t c := by
        unfold CalFar
        rw [conv_markDueOne]
        exact hfar
      refine ih _ hfar' ?_
      rcases hdue with hdue | hm
      · exact .inl (due_markDueOne_of_due t hdue)
      · rcases List.mem_cons.mp hm with rfl | hm
        · exact .inl (due_markDueOne t hfar)
        · exact .inr hm
  rw [markDue_eq]
  exact hfold _ s h (.inr (List.mem_range.mpr hc))

/-- The reading is shown, and the thermal warning raised or armed again. -/
def readingShown (s : State) (sl : Nat) (t : Int) : State :=
  ((s.setSfld (modePage sl) MODE_THERMAL.NOW t).setPanel sl { s.panel sl with
    warned := if decide ((s.fld (modePage sl) MODE_THERMAL.WARN : Int) ≤ t) then true
      else if t ≤ s.fld (modePage sl) MODE_THERMAL.WARN - 5 then false else (s.panel sl).warned }).raiseIf
    (decide ((s.fld (modePage sl) MODE_THERMAL.WARN : Int) ≤ t) && !(s.panel sl).warned) (modePage sl) 4

/-- The thermal override of the slice's trip network follows the reading. -/
def thermalFollows (u : State) (sl : Nat) (t : Int) : State :=
  if 135 < t ∧ u.flag (tripPage sl) TRIP_OVERRIDE.THERMAL = false then
    ((u.setFld (tripPage sl) TRIP_OVERRIDE.THERMAL 1).raiseIf (decide (u.mode sl ≠ PRIME)) (tripPage sl) 49).protect
      sl causeThermal
  else if t < 130 then u.setFld (tripPage sl) TRIP_OVERRIDE.THERMAL 0
  else u

theorem exec_junctionReading {s : State} {sl : Slice} (t : Int) (hcold : s.boot ≠ .cold) (hsl : s.present sl = true) :
    exec (.junctionReading sl t) s = .next (thermalFollows ((readingShown s sl t).markDue sl t) sl t) := by
  refine congrArg Host.Outcome.next (if_neg fun h => h.elim hcold fun hno => ?_)
  rw [hsl] at hno
  exact Bool.noConfusion hno

/-- What shows a reading, before the thermal override follows it. -/
structure ReadingShown (s u : State) (sl : Nat) (t : Int) : Prop where
  now : u.sfld (modePage sl) MODE_THERMAL.NOW = t
  hot : (s.fld (modePage sl) MODE_THERMAL.WARN : Int) ≤ t →
    (u.panel sl).warned = true ∧ ((s.panel sl).warned = false → Raised u (modePage sl) 4)
  cool : t ≤ s.fld (modePage sl) MODE_THERMAL.WARN - 5 → (u.panel sl).warned = false
  trip : ∀ f : Fld, fits f = true → u.fld (tripPage sl) f = s.fld (tripPage sl) f
  mode : u.mode sl = s.mode sl
  due : ∀ c : Nat, c < 16 → CalFar s sl t c → u.flag (fadcPage sl c) FADC_CAL.CAL_DUE = true

theorem sfld_now_readingShown (s : State) (sl : Nat) {t : Int} (hlo : -256 ≤ t) (hhi : t < 256) :
    (readingShown s sl t).sfld (modePage sl) MODE_THERMAL.NOW = t := by
  refine (sfld_of_fld (s := s.setSfld (modePage sl) MODE_THERMAL.NOW t) ?_).trans (sfld_setSfld_self s _ rfl ?_ ?_)
  · exact fld_raiseIf _ _ _ _ _ rfl (by decide)
  · change -2 ^ 9 ≤ _
    omega
  · change _ < 2 ^ 9
    omega

theorem warned_readingShown (s : State) (sl : Nat) (t : Int) : ((readingShown s sl t).panel sl).warned
    = if decide ((s.fld (modePage sl) MODE_THERMAL.WARN : Int) ≤ t) then true
      else if t ≤ s.fld (modePage sl) MODE_THERMAL.WARN - 5 then false else (s.panel sl).warned := by
  unfold readingShown
  rw [raiseIf_keeps (State.panel · sl) _ _ _ _ fun _ _ _ _ _ _ _ => rfl, panel_setPanel_self]

theorem raised_readingShown (s : State) {sl : Nat} (hsl : sl < 8) {t : Int}
    (hot : (s.fld (modePage sl) MODE_THERMAL.WARN : Int) ≤ t) (hcool : (s.panel sl).warned = false) :
    Raised (readingShown s sl t) (modePage sl) 4 :=
  raised_raiseIf _ (by rw [decide_eq_true hot, hcool]; rfl) _ (by decide) (source_modeSlice hsl (by decide))

theorem reg_readingShown (s : State) (sl : Nat) (t : Int) {q o : Nat} (ho : o < 4096)
    (h : q ≠ modePage sl ∨ (o ≠ 0x020 ∧ o ≠ 0x140)) : (readingShown s sl t).reg q o = s.reg q o := by
  have hset : (s.setSfld (modePage sl) MODE_THERMAL.NOW t).reg q o = s.reg q o :=
    reg_setFld_ne s MODE_THERMAL.NOW _ ho (by decide) fun he => by
      obtain ⟨h1, h2⟩ := Prod.mk.inj he
      exact h.elim (fun hne => hne h1) fun hne => hne.2 h2
  unfold readingShown State.raiseIf
  split
  · rw [reg_raise_ne _ ho fun he => by
      obtain ⟨h1, h2⟩ := Prod.mk.inj he
      exact h.elim (fun hne => hne h1) fun hne => hne.1 h2]
    exact hset
  · exact hset

theorem modePage_ne_fadcPage {k sl c : Nat} (hsl : sl < 8) (hc : c < 16) : modePage k ≠ fadcPage sl c :=
  packagePage_ne_fadcPage (16 + k) hsl hc

theorem readingShown_spec (s : State) {sl : Nat} (hsl : sl < 8) {t : Int} (hlo : -256 ≤ t) (hhi : t < 256) :
    ReadingShown s ((readingShown s sl t).markDue sl t) sl t := by
  have hnow := sfld_now_readingShown s sl hlo hhi
  have hwarned := warned_readingShown s sl t
  have hraised := fun h1 h2 => raised_readingShown s hsl (t := t) h1 h2
  have htrip : ∀ o, o < 4096 → (readingShown s sl t).reg (tripPage sl) o = s.reg (tripPage sl) o := fun o ho =>
    reg_readingShown s sl t ho (.inl (tripPage_ne_modePage hsl))
  have hmode : (readingShown s sl t).reg (modePage sl) 0x108 = s.reg (modePage sl) 0x108 :=
    reg_readingShown s sl t (by decide) (.inr (by decide))
  have hconv : ∀ c, (readingShown s sl t).conv sl c = s.conv sl c := fun c =>
    (raiseIf_keeps (State.conv · sl c) _ _ _ _ fun _ _ _ _ _ _ _ => rfl).trans rfl
  generalize readingShown s sl t = v at *
  obtain ⟨hkeeps, hregs⟩ := dueStep_markDue hsl t v
  have hpanel := hkeeps (State.panel · sl) fun _ _ _ _ _ _ _ => rfl
  have hmodeReg : ∀ o, o < 4096 → (v.markDue sl t).reg (modePage sl) o = v.reg (modePage sl) o := fun o ho =>
    hregs _ o ho fun k c hk hc => modePage_ne_fadcPage hk hc
  refine ⟨(sfld_of_fld (fld_of_reg (hmodeReg _ (by decide)))).trans hnow, fun hot => ⟨?_, fun hcool => ?_⟩,
    fun hcool => ?_, fun f hf => ?_, ?_, fun c hc hfar => due_markDue hc ?_⟩
  · rw [hpanel, hwarned, decide_eq_true hot, if_pos rfl]
  · exact (raised_of_reg (hmodeReg _ (by decide))).mpr (hraised hot hcool)
  · rw [hpanel, hwarned, decide_eq_false (by omega), if_neg Bool.false_ne_true, if_pos hcool]
  · obtain ⟨-, -, hoff⟩ := (fits_iff f).mp hf
    refine fld_of_reg ((hregs _ _ hoff fun k c hk hc => ?_).trans (htrip _ hoff))
    unfold tripPage fadcPage sectorPage
    omega
  · exact (fld_of_reg (f := MODE_STATE.MODE) (hmodeReg _ (by decide))).trans (fld_of_reg (f := MODE_STATE.MODE) hmode)
  · unfold CalFar
    rw [hconv]
    exact hfar

/-- What the thermal override's following leaves. -/
structure ThermalFollows (s u : State) (sl : Nat) (t : Int) : Prop where
  now : u.sfld (modePage sl) MODE_THERMAL.NOW = s.sfld (modePage sl) MODE_THERMAL.NOW
  warned : (u.panel sl).warned = (s.panel sl).warned
  raised : ∀ b : Nat, Raised s (modePage sl) b → Raised u (modePage sl) b
  hot : 135 < t → u.flag (tripPage sl) TRIP_OVERRIDE.THERMAL = true
    ∧ (s.flag (tripPage sl) TRIP_OVERRIDE.THERMAL = false → s.mode sl = RUN → u.mode sl = HOLD)
  cool : t < 130 → u.flag (tripPage sl) TRIP_OVERRIDE.THERMAL = false
  between : 130 ≤ t → t ≤ 135 → u.flag (tripPage sl) TRIP_OVERRIDE.THERMAL = s.flag (tripPage sl) TRIP_OVERRIDE.THERMAL
  due : ∀ c : Nat, c < 16 → u.flag (fadcPage sl c) FADC_CAL.CAL_DUE = s.flag (fadcPage sl c) FADC_CAL.CAL_DUE

theorem tripPage_ne_fadcPage {sl c : Nat} (hc : c < 16) (k : Nat) : fadcPage sl c ≠ tripPage k := by
  unfold tripPage fadcPage sectorPage
  omega

theorem outerModePanel_warned : OuterModePanel Panel.warned := ⟨fun _ _ _ _ _ _ _ => rfl, fun _ _ _ _ => rfl⟩

/-- The override is set, with its event, before the cause protects the slice. -/
def overrideSet (s : State) (sl : Nat) : State :=
  (s.setFld (tripPage sl) TRIP_OVERRIDE.THERMAL 1).raiseIf (decide (s.mode sl ≠ PRIME)) (tripPage sl) 49

theorem reg_overrideSet (s : State) (sl : Nat) {q o : Nat} (ho : o < 4096) (h : q ≠ tripPage sl) :
    (overrideSet s sl).reg q o = s.reg q o := by
  have hne : ∀ x : Nat, (q, o) ≠ (tripPage sl, x) := fun x he => h (Prod.mk.inj he).1
  unfold overrideSet State.raiseIf
  split
  · rw [reg_raise_ne _ ho (hne _), reg_setFld_ne _ _ _ ho (by decide) (hne _)]
  · rw [reg_setFld_ne _ _ _ ho (by decide) (hne _)]

theorem thermalFollows_of_rise {s : State} {sl : Nat} (hsl : sl < 8) {t : Int} (ht : 135 < t)
    (hwas : s.flag (tripPage sl) TRIP_OVERRIDE.THERMAL = false) : ThermalFollows s (thermalFollows s sl t) sl t := by
  have heq : thermalFollows s sl t = (overrideSet s sl).protect sl causeThermal := if_pos ⟨ht, hwas⟩
  have hreg := fun q o => reg_overrideSet s sl (q := q) (o := o)
  have hthermal : (overrideSet s sl).fld (tripPage sl) TRIP_OVERRIDE.THERMAL = 1 :=
    (fld_raiseIf _ _ _ _ _ rfl (by decide)).trans (fld_setFld_self _ _ _ rfl)
  have hpanel : (overrideSet s sl).panel sl = s.panel sl :=
    (raiseIf_keeps (State.panel · sl) _ _ _ _ fun _ _ _ _ _ _ _ => rfl).trans (panel_setFld ..)
  rw [heq]
  generalize overrideSet s sl = v at *
  have hstep := ModeStep.protect (.refl sl v) hsl causeThermal
  have hmodePage : ∀ o, o < 4096 → v.reg (modePage sl) o = s.reg (modePage sl) o := fun o ho =>
    hreg _ o ho (tripPage_ne_modePage hsl).symm
  have hrun : v.mode sl = s.mode sl := fld_of_reg (f := MODE_STATE.MODE) (hmodePage _ (by decide))
  refine ⟨sfld_of_fld (fld_of_reg ?_), ?_, fun b hb => hstep.raised b ((raised_of_reg (hmodePage _ (by decide))).mpr hb),
    fun _ => ⟨?_, fun _ hmode => ?_⟩, fun hcool => by omega, fun _ h => by omega, fun c hc => ?_⟩
  · refine (hstep.regs _ _ (by decide) (unitPage_of_not_isPanelPage (isPanelPage_modePage hsl)) (.inr (by decide))
      (.inl (tripPage_ne_modePage hsl).symm)).trans ?_
    exact hmodePage _ (by decide)
  · rw [hstep.panel Panel.warned outerModePanel_warned, hpanel]
  · rw [flag_eq, hstep.trip _ rfl rfl, hthermal]
    rfl
  · exact mode_protect_of_run hsl (.inr (hrun.trans hmode)) _
  · have hfadc : (v.protect sl causeThermal).reg (fadcPage sl c) FADC_CAL.CAL_DUE.off
        = s.reg (fadcPage sl c) FADC_CAL.CAL_DUE.off :=
      (hstep.regs _ _ (by decide) (unitPage_of_not_isPanelPage (isPanelPage_sectorPage hsl (by omega)))
        (.inl (modePage_ne_fadcPage hsl hc).symm)
        (.inl (tripPage_ne_fadcPage hc sl))).trans (hreg _ _ (by decide) (tripPage_ne_fadcPage hc sl))
    rw [flag_eq, flag_eq, fld_of_reg hfadc]

theorem thermalFollows_of_cool {s : State} {sl : Nat} (hsl : sl < 8) {t : Int} (ht : t < 130) :
    ThermalFollows s (thermalFollows s sl t) sl t := by
  have heq : thermalFollows s sl t = s.setFld (tripPage sl) TRIP_OVERRIDE.THERMAL 0 :=
    (if_neg fun h => by omega).trans (if_pos ht)
  have hmodePage : ∀ o, o < 4096 → (s.setFld (tripPage sl) TRIP_OVERRIDE.THERMAL 0).reg (modePage sl) o
      = s.reg (modePage sl) o := fun o ho =>
    reg_setFld_ne s _ 0 ho (by decide) fun h => tripPage_ne_modePage hsl (Prod.mk.inj h).1.symm
  rw [heq]
  refine ⟨sfld_of_fld (fld_of_reg (hmodePage _ (by decide))), rfl,
    fun b hb => (raised_of_reg (hmodePage _ (by decide))).mpr hb, fun h => by omega, fun _ => ?_, fun h _ => by omega,
    fun c hc => ?_⟩
  · rw [flag_eq, fld_setFld_self _ _ _ rfl]
    rfl
  · rw [flag_eq, flag_eq, fld_setFld_of_page _ _ rfl rfl (tripPage_ne_fadcPage hc sl)]

theorem thermalFollows_spec (s : State) {sl : Nat} (hsl : sl < 8) (t : Int) :
    ThermalFollows s (thermalFollows s sl t) sl t := by
  by_cases hrise : 135 < t ∧ s.flag (tripPage sl) TRIP_OVERRIDE.THERMAL = false
  · exact thermalFollows_of_rise hsl hrise.1 hrise.2
  by_cases hcool : t < 130
  · exact thermalFollows_of_cool hsl hcool
  · have heq : thermalFollows s sl t = s := (if_neg hrise).trans (if_neg hcool)
    rw [heq]
    refine ⟨rfl, rfl, fun _ h => h, fun hhot => ?_, fun h => absurd h hcool, fun _ _ => rfl, fun _ _ => rfl⟩
    have hset : s.flag (tripPage sl) TRIP_OVERRIDE.THERMAL = true := by
      by_contra hclear
      exact hrise ⟨hhot, Bool.eq_false_iff.mpr hclear⟩
    exact ⟨hset, fun hclear => by rw [hset] at hclear; exact Bool.noConfusion hclear⟩

theorem junctionReading_idles {s : State} {sl : Slice} (t : Int) (h : s.boot = .cold ∨ s.present sl = false) :
    Idles (.junctionReading sl t) s := congrArg Host.Outcome.next (if_pos h)

theorem junctionReading_follows {s : State} {sl : Slice} {t : Int} (hcold : s.boot ≠ .cold) (hpresent : s.present sl = true)
    (hlo : -256 ≤ t) (hhi : t < 256) : Gives (.junctionReading sl t) s (fun u =>
      u.sfld (modePage sl) MODE_THERMAL.NOW = t
      ∧ ((s.fld (modePage sl) MODE_THERMAL.WARN : Int) ≤ t → (u.panel sl).warned = true
        ∧ ((s.panel sl).warned = false → Raised u (modePage sl) 4))
      ∧ (t ≤ s.fld (modePage sl) MODE_THERMAL.WARN - 5 → (u.panel sl).warned = false)
      ∧ (135 < t → u.flag (tripPage sl) TRIP_OVERRIDE.THERMAL = true
        ∧ (s.flag (tripPage sl) TRIP_OVERRIDE.THERMAL = false → s.mode sl = RUN → u.mode sl = HOLD))
      ∧ (t < 130 → u.flag (tripPage sl) TRIP_OVERRIDE.THERMAL = false)
      ∧ (130 ≤ t → t ≤ 135 →
        u.flag (tripPage sl) TRIP_OVERRIDE.THERMAL = s.flag (tripPage sl) TRIP_OVERRIDE.THERMAL)
      ∧ ∀ c : Nat, c < 16 → CalFar s sl t c → u.flag (fadcPage sl c) FADC_CAL.CAL_DUE = true) := by
  have hsl : sl.val < 8 := sl.isLt
  obtain ⟨hnow, hhot, hcool, htrip, hmode, hdue⟩ := readingShown_spec s hsl hlo hhi
  refine ⟨_, exec_junctionReading t hcold hpresent, ?_⟩
  generalize (readingShown s sl t).markDue sl t = v at *
  obtain ⟨hfnow, hfwarned, hfraised, hfhot, hfcool, hfbetween, hfdue⟩ := thermalFollows_spec v hsl t
  have hthermal : v.flag (tripPage sl) TRIP_OVERRIDE.THERMAL = s.flag (tripPage sl) TRIP_OVERRIDE.THERMAL := by
    rw [flag_eq, flag_eq, htrip _ rfl]
  rw [hthermal] at hfbetween hfhot
  rw [hmode] at hfhot
  refine ⟨hfnow.trans hnow, fun h => ⟨hfwarned.trans (hhot h).1, fun hw => hfraised _ ((hhot h).2 hw)⟩,
    fun h => hfwarned.trans (hcool h), hfhot, hfcool, hfbetween, fun c hc hfar => (hfdue c hc).trans (hdue c hc hfar)⟩

/-- Settles O53, by the causes of a reset, the readings of a rail and those of a junction. -/
theorem suppliesAndResets : Obligations.SuppliesAndResets := by
  unfold Obligations.SuppliesAndResets
  intro s ag
  refine ⟨fun code => ⟨fun hcode => ?_, fun hcode => ?_⟩, fun hcold => ?_, fun hcold => congrArg Host.Outcome.next (if_pos hcold),
    rfl, fun hcold => ⟨_, congrArg Host.Outcome.next (if_pos hcold), rfl, rfl, rfl, rfl⟩,
    fun hcold => congrArg Host.Outcome.next (if_neg hcold), bank33_iff s, railLevels_eq s, fun r x => ?_,
    dipRecordWritten_idles, fun r h => dipRecordWritten_held h,
    fun sl t => ⟨junctionReading_idles t, fun hcold hsl hlo hhi => junctionReading_follows hcold hsl hlo hhi⟩⟩
  · subst hcode
    have hpost : (s.packageReset 3).boot = .priming ∧ Primed s (s.packageReset 3) 3 :=
      ⟨boot_resetPackage _ _ _ _, primed_resetPackage s .priming 0 (by decide)⟩
    exact acceptsTo_of_writeBy rfl hpost
  · exact accepts_of_writeBy rfl (if_neg fun h => hcode (BitVec.eq_of_toNat_eq h))
  · have hprimed : Primed s (({ s with resetPinLow := true }).packageReset 2) 2 := by
      have h := primed_resetPackage { s with resetPinLow := true } .priming 0 (cause := 2) (by decide)
      unfold Primed at h ⊢
      exact h
    refine ⟨({ s with resetPinLow := true }).packageReset 2, congrArg Host.Outcome.next (if_neg hcold),
      boot_resetPackage _ _ _ _, ?_, hprimed⟩
    exact resetPackage_keeps State.resetPinLow _ _ _ _ (fun _ _ => rfl) fun _ _ => rfl
  · refine ⟨railBelowWarning_idles, railBelowReset_idles, railRecovered_idles,
      fun hlow hcold hthere hbelow => railBelowWarning_dips hlow hcold hthere hbelow,
      fun hback hbelow => railRecovered_ends hback hbelow, fun n hr => ?_, fun b hr => ?_⟩
    · subst hr
      exact ⟨railBelowReset_core_cold, fun hunder hcold => railBelowReset_core hunder hcold, railRecovered_core_idles⟩
    · subst hr
      obtain ⟨hdip, hdown, hlow⟩ := railBackUp_bank s b
      refine ⟨fun hback hbelow => ⟨_, exec_railRecovered_bank hback hbelow, hdip, ?_, fun k hk => ?_, hlow⟩,
        railBelowReset_bank_down, fun hunder hthere hup => railBelowReset_bank hunder hthere hup⟩
      · exact (hdown b b.isLt).trans (if_pos rfl)
      · by_cases hk16 : k < 16
        · exact (hdown k hk16).trans (if_neg hk)
        · rw [BitVec.getLsbD_of_ge _ _ (by omega), BitVec.getLsbD_of_ge _ _ (by omega)]

end Sys2Proof.Proofs
end

section
/-! PROOFS. The path of a timed write of a loop slot as its reference value, and two that are due at once. Settles O11. -/

namespace Sys2Proof.Proofs

open Sys2Proof Sys2Proof.Machine

/-! ### A write at a reference value of a loop slot (R37, R38, R42 to R45) -/

theorem windowOf_sectorPage {a b : Nat} (hb : b < 4096) : windowOf (sectorPage a b) = a := by
  unfold windowOf sectorPage
  omega

theorem blockOf_loopPage (sec : Slice) (n : Fin 16) : blockOf (loopPage sec n) = some (.loop, n.val) := by
  rw [show loopPage sec n = sectorPage sec (128 + n) from rfl, blockOf_sectorPage sec.isLt (by omega)]
  unfold sectorBlock
  rw [if_neg (by omega), if_neg (by omega), if_neg (by omega), if_neg (by omega), if_neg (by omega), if_neg (by omega),
    if_pos (by omega)]
  simp

theorem windowOf_loopPage (sec : Slice) (n : Fin 16) : windowOf (loopPage sec n) = sec :=
  windowOf_sectorPage (by omega)

theorem queueOf_loopPage (sec : Slice) (n : Fin 16) : queueOf (loopPage sec n) = sec := by
  unfold queueOf
  rw [windowOf_loopPage, if_pos sec.isLt]

theorem fieldsAt_of_blockOf {pk : Nat} {b : Block} {i : Nat} (h : blockOf pk = some (b, i)) (off : Nat) (hoff : ¬ off < 0x100)
    (hb : b ≠ .evc) : fieldsAt pk off = match (blockRows b).find? (fun r => r.holds off) with
      | some r => r.fields.map (fun f => { f with fld := f.fld.at (off - r.first) })
      | none => [] := by
  unfold fieldsAt
  rw [if_neg hoff, h]
  simp only [hb, false_and, if_false] <;> rfl

theorem fieldsAt_loopRef {pk n : Nat} (h : blockOf pk = some (.loop, n)) :
    fieldsAt pk 0x110 = [⟨LOOP_REF.VALUE, .rwt, .u, .val 0x0⟩] := by
  rw [fieldsAt_of_blockOf h 0x110 (by decide) (by decide)]
  rfl

theorem illegal_loopRef (s : State) {pk n : Nat} (h : blockOf pk = some (.loop, n)) (hw : windowOf pk < 8) :
    s.illegal pk 0x110 = false := by
  unfold State.illegal
  simp only [h, if_pos hw]
  rw [if_neg (by simp)]
  rfl

theorem checkWrite_of_legal {s : State} {pk off : Nat} (h : s.illegal pk off = false) : s.checkWrite pk off = s := by
  unfold State.checkWrite
  rw [h]
  rfl

theorem putBits_putBits (w : Word) (hi lo v x : Nat) (hhi : hi < 64) (hlo : lo ≤ hi) :
    putBits (putBits w hi lo v) hi lo x = putBits w hi lo x := by
  refine BitVec.eq_of_getLsbD_eq fun i _ => ?_
  rw [getLsbD_putBits _ hi lo x i hhi hlo, getLsbD_putBits _ hi lo x i hhi hlo, getLsbD_putBits w hi lo v i hhi hlo]
  split <;> rfl

theorem setFld_setFld_same (s : State) (pk : Nat) {f : Fld} (hf : fits f = true) (v w : Nat) :
    (s.setFld pk f v).setFld pk f w = s.setFld pk f w := by
  obtain ⟨hhi, hlo, -⟩ := (fits_iff f).mp hf
  have hreg : (s.setFld pk f v).reg pk f.off = putBits (s.reg pk f.off) f.hi f.lo v := reg_setFld_self s pk f v
  unfold State.setFld State.setReg at *
  rw [hreg, putBits_putBits _ _ _ _ _ hhi hlo]
  exact congrArg (fun r => ({ s with regs := r } : State)) (Laws.write_write _ _ _ _ _ _)

/-- A write of the reference value that takes effect. -/
theorem timedEffect_loopRef (s : State) {pk n : Nat} (h : blockOf pk = some (.loop, n)) (hw : windowOf pk < 8) (data : Word) :
    s.timedEffect pk 0x110 data = s.setFld pk LOOP_REF.VALUE (data.toNat % 2 ^ 16) := by
  have hput : s.timedWord pk 0x110 data = putBits (s.reg pk 0x110) 15 0 (bits data 15 0) := by
    unfold State.timedWord
    rw [fieldsAt_loopRef h]
    unfold stored
    rw [h]
    rfl
  have hbits : bits data 15 0 = data.toNat % 2 ^ 16 := by
    unfold bits
    simp
  unfold State.timedEffect
  rw [h]
  change State.checkWrite (if windowOf pk < 8 then s.setReg pk 0x110 (s.timedWord pk 0x110 data) else _) pk 0x110 = _
  rw [if_pos hw, checkWrite_of_legal (illegal_loopRef _ h hw), hput, hbits]
  rfl

theorem applyTimed_loopRef (s : State) (e : Queued) {n : Nat} (h : blockOf e.page = some (.loop, n))
    (hw : windowOf e.page < 8) (hoff : e.off = 0x110) :
    s.applyTimed e = s.setFld e.page LOOP_REF.VALUE (e.data.toNat % 2 ^ 16) := by
  unfold State.applyTimed State.drivenNow
  rw [h, hoff, if_neg (by simp), timedEffect_loopRef s h hw]

theorem starts_loopRef {e : Queued} (hoff : e.off = 0x110) : e.starts = false := by
  unfold Queued.starts
  rw [hoff]
  rfl

/-- Two writes of one register in the order of their origins, whatever their order in the queue. -/
theorem startsLast_inOrder_pair {a b : Queued} (ha : a.starts = false) (hb : b.starts = false) (h : a.origin < b.origin)
    {l : List Queued} (hl : l = [a, b] ∨ l = [b, a]) : startsLast (inOrder l) = [a, b] := by
  have hab : inOrder l = [a, b] := by
    rcases hl with rfl | rfl
    · change (if b.origin < a.origin ∨ (b.origin = a.origin ∧ b.seq < a.seq) then [b, a] else [a, b]) = _
      rw [if_neg (by omega)]
    · change (if a.origin < b.origin ∨ (a.origin = b.origin ∧ a.seq < b.seq) then [a, b] else [b, a]) = _
      rw [if_pos (Or.inl h)]
  rw [hab]
  unfold startsLast
  simp [ha, hb]

/-- Of two writes of one reference value the later stands. -/
theorem foldl_applyTimed_pair (s : State) {sec : Slice} {n : Fin 16} {a b : Queued} (ha : a.page = loopPage sec n)
    (hb : b.page = loopPage sec n) (hao : a.off = 0x110) (hbo : b.off = 0x110) (h : a.origin < b.origin)
    {l : List Queued} (hl : l = [a, b] ∨ l = [b, a]) :
    (startsLast (inOrder l)).foldl (fun u e => u.applyTimed e) s
      = s.setFld (loopPage sec n) LOOP_REF.VALUE (b.data.toNat % 2 ^ 16) := by
  have hblock : ∀ {e : Queued}, e.page = loopPage sec n → blockOf e.page = some (.loop, n.val) := fun he =>
    (congrArg blockOf he).trans (blockOf_loopPage sec n)
  have hwin : ∀ {e : Queued}, e.page = loopPage sec n → windowOf e.page < 8 := fun he => by
    rw [he, windowOf_loopPage]
    exact sec.isLt
  rw [startsLast_inOrder_pair (starts_loopRef hao) (starts_loopRef hbo) h hl]
  change (s.applyTimed a).applyTimed b = _
  rw [applyTimed_loopRef s a (hblock ha) (hwin ha) hao, applyTimed_loopRef _ b (hblock hb) (hwin hb) hbo, ha, hb,
    setFld_setFld_same s _ rfl]

theorem largerOriginStands : LargerOriginStands := by
  intro s sec n a b hthere ha hb hao hbo hlt
  have hall : ∀ {l : List Queued}, l = [a, b] ∨ l = [b, a] → ∀ {c : Queued → Prop}, c a → c b → ∀ e ∈ l, c e := by
    rintro l (rfl | rfl) c hca hcb e he
    · rcases List.mem_pair.mp he with rfl | rfl <;> assumption
    · rcases List.mem_pair.mp he with rfl | rfl <;> assumption
  constructor
  · intro l hmode hl htwq had hbd hadone hbdone
    have hruns : s.queueRuns sec = true := by
      unfold State.queueRuns
      rw [if_pos sec.isLt, hthere, decide_eq_true hmode]
      rfl
    have hdue : ∀ e ∈ l, (decide (queueOf e.page = sec.val) && decide (e.due = s.canvas) && !e.done) = true :=
      hall hl (c := fun e => _ = true) (by simp [ha, queueOf_loopPage, had, hadone]) (by simp [hb, queueOf_loopPage, hbd, hbdone])
    change Host.Outcome.next (if (decide (sec.val = 8) || s.present sec) && s.queueRuns sec then s.applyDue sec.val else s) = _
    rw [hthere, hruns, Bool.or_true, Bool.and_true, if_pos rfl]
    have hdone : l.map (fun e => if (decide (queueOf e.page = sec.val) && decide (e.due = s.canvas) && !e.done) = true
        then ({ e with done := true } : Queued) else e) = l.map (fun e => ({ e with done := true } : Queued)) :=
      List.map_congr_left fun e he => if_pos (hdue e he)
    unfold State.applyDue
    dsimp only
    rw [htwq, List.filter_eq_self.mpr hdue, hdone, foldl_applyTimed_pair _ ha hb hao hbo hlt hl]
  · intro l hl hwait hen
    have hpage : ∀ e ∈ l, e.page = loopPage sec n := hall hl ha hb
    have hkey : pageKey (.sector sec ⟨128 + n.val, by omega⟩) = loopPage sec n := rfl
    have hpoint : s.updatePoint (loopPage sec n) = true := by
      unfold State.updatePoint
      rw [blockOf_loopPage]
      change s.loopPoint (windowOf (loopPage sec n)) n = true
      unfold State.loopPoint
      rw [windowOf_loopPage]
      dsimp only
      rw [hen]
      rfl
    have hpageThere : s.pageThere (loopPage sec n) = true := by
      unfold State.pageThere
      rw [blockOf_loopPage]
      dsimp only
      rw [windowOf_loopPage, if_pos (by omega), Nat.mod_eq_of_lt sec.isLt, hthere]
    change (if s.pageThere (loopPage sec n) = true ∧ s.updatePoint (loopPage sec n) = true then
      Host.Outcome.next (s.applyWaiting (loopPage sec n)) else .next s) = _
    rw [if_pos ⟨hpageThere, hpoint⟩]
    unfold State.applyWaiting
    rw [hwait, List.filter_eq_self.mpr fun e he => decide_eq_true (hpage e he),
      List.filter_eq_nil_iff.mpr fun e he => by simp [hpage e he], foldl_applyTimed_pair _ ha hb hao hbo hlt hl]

/-! #### The path of a timed write (R12, R21, R42 to R45) -/

/-- What the port and the writer of a write learn of its arrival: nothing outside the panels. -/
structure PortStep (s u : State) : Prop where
  keeps : ∀ {α : Type} (g : State → α), Outer g → g u = g s
  regs : ∀ q o : Nat, o < 4096 → unitPage q = false → u.reg q o = s.reg q o

namespace PortStep
variable {s u : State}

theorem refl (s : State) : PortStep s s := ⟨fun _ _ => rfl, fun _ _ _ _ => rfl⟩

theorem inward (h : PortStep s u) {v : State} (h' : Inward u v) : PortStep s v :=
  ⟨fun g hg => (h'.keeps g hg).trans (h.keeps g hg), fun q o ho hq => (h'.regs q o ho hq).trans (h.regs q o ho hq)⟩

theorem trans (h : PortStep s u) {v : State} (h' : PortStep u v) : PortStep s v :=
  ⟨fun g hg => (h'.keeps g hg).trans (h.keeps g hg), fun q o ho hq => (h'.regs q o ho hq).trans (h.regs q o ho hq)⟩

theorem setPanel (h : PortStep s u) (p : Nat) (v : Panel) : PortStep s (u.setPanel p v) :=
  ⟨fun g hg => (hg.panels u _).trans (h.keeps g hg), h.regs⟩

theorem setThread (h : PortStep s u) (p k : Nat) (v : Thread) : PortStep s (u.setThread p k v) :=
  ⟨fun g hg => (hg u _ _ _ _ _ _ _ _ _ _ _ _ _ _ _ _ _ _).trans (h.keeps g hg), h.regs⟩

theorem fresh (h : PortStep s u) : PortStep s u.fresh.2 :=
  ⟨fun g hg => (hg u _ _ _ _ _ _ _ _ _ _ _ _ _ _ _ _ _ _).trans (h.keeps g hg), h.regs⟩

theorem count (h : PortStep s u) {pk : Nat} (hpk : unitPage pk = true) (f : Fld) (d : Nat)
    (hf : f.off < 4096 := by decide) :
    PortStep s (u.count pk f d) := h.inward ((Inward.refl u).count hpk f d hf)
end PortStep

theorem lt_of_agentPanel {ag : Agent} {p : Nat} (h : agentPanel ag = some p) : p < 8 := by
  cases ag <;> simp only [agentPanel, Option.some.injEq, reduceCtorEq] at h <;> subst h <;> exact Fin.isLt _

theorem unitPage_fabPage {p : Nat} (hp : p < 8) : unitPage (fabPage p) = true := unitPage_panelPage hp (by decide)

theorem portStep_leavePort (s : State) {p : Nat} (hp : p < 8) (ready : Nat) : PortStep s (s.leavePort p ready).2 := by
  have hpanel : ∀ {u : State}, PortStep s u → ∀ (v : Panel) (x : Nat), PortStep s
      (if x ≤ s.ticks then (u.setPanel p v).noteFlit p else u.setPanel p v) := fun {u} h v x => by
    split
    · exact (h.setPanel p v).count (unitPage_fabPage hp) _ _
    · exact h.setPanel p v
  unfold State.leavePort
  dsimp only
  split
  · exact hpanel (PortStep.refl s) _ _
  · exact hpanel (PortStep.refl s).fresh _ _

theorem portStep_noteAccess (s : State) (ag : Agent) (addr : Nat) : PortStep s (s.noteAccess ag addr) := by
  unfold State.noteAccess
  split
  · next p hp =>
    split
    · exact portStep_leavePort s (lt_of_agentPanel hp) _
    · exact PortStep.refl s
  · exact PortStep.refl s

theorem portStep_answer (s : State) (ag : Agent) (addr : Nat) : PortStep s (s.answer ag addr false) := by
  cases ag with
  | thread tid =>
    change PortStep s (if _ then s.setThread _ _ _ else s)
    split
    · exact (PortStep.refl s).setThread _ _ _
    · exact PortStep.refl s
  | dma p c => exact PortStep.refl s
  | manager p port => exact PortStep.refl s
  | intent p channel => exact PortStep.refl s
  | easel => exact PortStep.refl s

theorem portStep_reply (s : State) (x : Transfer) (haddr : x.addr ≠ 0) : PortStep s (s.reply x false) := by
  unfold State.reply
  rw [if_neg haddr]
  split
  · exact portStep_answer s _ _
  · exact (portStep_noteAccess s _ _).trans (portStep_answer _ _ _)

theorem portStep_notePort (s : State) (x : Transfer) (due : Option Nat) : PortStep s (s.notePort x due) := by
  unfold State.notePort
  split
  · next p d hp =>
    have hlt : p < 8 := lt_of_agentPanel hp
    have hcount : ∀ {u : State}, PortStep s u → ∀ c : Bool,
        PortStep s (if c then (u.count (fabPage p) FAB_OVERFLOW.COUNT 1).raise (fabPage p) 0 else u) := fun {u} h c => by
      split
      · exact (h.count (unitPage_fabPage hlt) FAB_OVERFLOW.COUNT 1).inward
          ((Inward.refl _).raise (unitPage_fabPage hlt) 0)
      · exact h
    split
    · exact PortStep.refl s
    · dsimp only
      split
      · exact hcount (PortStep.refl s) _
      · exact hcount (PortStep.refl s).fresh _
  · exact PortStep.refl s

/-- The write of a reference value puts nothing in its register as it arrives. -/
theorem arriveWrite_loopRef (s : State) (ag : Agent) (sec : Bool) {pk n : Nat} (h : blockOf pk = some (.loop, n))
    (hw : windowOf pk < 8) (data : Word) : s.arriveWrite ag sec pk 0x110 data = s.setReg pk 0x110 (s.reg pk 0x110) := by
  have hword : s.arriveWord sec pk 0x110 data = s.reg pk 0x110 := by
    unfold State.arriveWord
    rw [fieldsAt_loopRef h]
    unfold stored
    rw [h]
    rfl
  have heffect : ∀ u : State, u.arrivalEffect s ag sec pk 0x110 data = u := fun u => by
    unfold State.arrivalEffect
    rw [h]
    change (if windowOf pk < 8 then u else _) = u
    rw [if_pos hw]
  have hnote : ∀ u : State, u.noteRwc s ag sec pk 0x110 = u := fun u => by
    unfold State.noteRwc withRwc
    rw [fieldsAt_loopRef h]
    exact if_pos rfl
  unfold State.arriveWrite assigned
  rw [fieldsAt_loopRef h, if_pos (by rfl)]
  dsimp only
  rw [hword, heffect, checkWrite_of_legal (illegal_loopRef _ h hw), hnote, if_neg fun hx => absurd hx.1 (by decide)]

theorem timedReg_loopRef {pk n : Nat} (h : blockOf pk = some (.loop, n)) : timedReg pk 0x110 = true := by
  unfold timedReg
  rw [fieldsAt_loopRef h]
  rfl

theorem lockDrops_loopRef (s : State) {pk n : Nat} (h : blockOf pk = some (.loop, n)) (data : Word) :
    s.lockDrops pk 0x110 data = false := by
  unfold State.lockDrops
  rw [fieldsAt_loopRef h]
  simp

/-- An intent channel writes no reference value itself: its writes that are accepted lie elsewhere. -/
theorem mayArrive_of_accept {s : State} {x : Transfer} (hsent : x.sent ≤ s.ticks)
    (h : ∀ p c, x.agent ≠ .intent p c) : s.mayArrive x = true := by
  unfold State.mayArrive
  split
  · next p c hx => exact absurd hx (h p c)
  · exact decide_eq_true hsent

theorem deliver_loopRef {s : State} {x : Transfer} {sec : Slice} {n : Fin 16} (hpage : x.page = loopPage sec n)
    (hoff : x.off = 0x110) (hok : s.verdict x.agent (loopPage sec n) 0x110 = .accept) {due : Option Nat} {u : State}
    (hdue : (s.setReg (loopPage sec n) 0x110 (s.reg (loopPage sec n) 0x110)).transferDue x = (due, u)) :
    s.deliver x = ((u.notePort x due).acceptTimed (loopPage sec n) 0x110 x.data due x.origin x.seq).reply x false := by
  have hb := blockOf_loopPage sec n
  have hw : windowOf (loopPage sec n) < 8 := by
    rw [windowOf_loopPage]
    exact sec.isLt
  have haccept : (if x.entitled then Verdict.accept else s.verdict x.agent x.page x.off) = .accept := by
    rw [hpage, hoff, hok, ite_self]
  unfold State.deliver
  rw [haccept]
  dsimp only
  rw [hoff, hpage, if_neg (by decide), arriveWrite_loopRef s _ _ hb hw, if_neg fun h => h rfl, timedReg_loopRef hb,
    lockDrops_loopRef s hb, hdue, if_pos rfl]

/-- What a write that arrives at its queue meets: the queue, the waiting writes, the time and the registers of its sector. -/
structure SameQueue (sec : Slice) (s u : State) : Prop where
  twq : u.twq = s.twq
  waiting : u.waiting = s.waiting
  canvas : u.canvas = s.canvas
  variant : u.variant = s.variant
  regs : ∀ q o : Nat, o < 4096 → isPanelPage q = false → u.reg q o = s.reg q o

theorem PortStep.sameQueue {s u : State} (h : PortStep s u) (sec : Slice) : SameQueue sec s u :=
  ⟨h.keeps State.twq fun _ _ _ _ _ _ _ _ _ _ _ _ _ _ _ _ _ _ _ => rfl,
    h.keeps State.waiting fun _ _ _ _ _ _ _ _ _ _ _ _ _ _ _ _ _ _ _ => rfl,
    h.keeps State.canvas fun _ _ _ _ _ _ _ _ _ _ _ _ _ _ _ _ _ _ _ => rfl, h.keeps State.variant Outer.variant,
    fun q o ho hq => h.regs q o ho (unitPage_of_not_isPanelPage hq)⟩

/-- What a change of the registers of a sector's queue, or an event of its page, leaves. -/
structure QueueNote (sec : Slice) (s u : State) : Prop where
  twq : u.twq = s.twq
  waiting : u.waiting = s.waiting
  regs : ∀ q o : Nat, o < 4096 → q ≠ twqPage sec → u.reg q o = s.reg q o

namespace QueueNote
variable {sec : Slice} {s u : State}

theorem refl (sec : Slice) (s : State) : QueueNote sec s s := ⟨rfl, rfl, fun _ _ _ _ => rfl⟩

theorem setFld (h : QueueNote sec s u) (f : Fld) (v : Nat) (hf : f.off < 4096 := by decide) :
    QueueNote sec s (u.setFld (twqPage sec) f v) :=
  ⟨h.twq, h.waiting, fun q o ho hq =>
    (reg_setFld_ne u f v ho hf fun hx => hq (Prod.mk.inj hx).1).trans (h.regs q o ho hq)⟩

theorem raise (h : QueueNote sec s u) (b : Nat) : QueueNote sec s (u.raise (twqPage sec) b) :=
  ⟨(raise_keeps State.twq _ _ _ fun _ _ _ _ _ _ _ => rfl).trans h.twq,
    (raise_keeps State.waiting _ _ _ fun _ _ _ _ _ _ _ => rfl).trans h.waiting,
    fun q o ho hq => (reg_raise_ne u ho fun hx => hq (Prod.mk.inj hx).1).trans (h.regs q o ho hq)⟩

theorem raiseIf (h : QueueNote sec s u) (c : Bool) (b : Nat) : QueueNote sec s (u.raiseIf c (twqPage sec) b) := by
  unfold State.raiseIf
  split
  · exact h.raise b
  · exact h
end QueueNote

theorem qfld_sector (sec : Slice) (f : Fld) : qfld sec f = f := by
  unfold qfld queueShift
  rw [if_pos sec.isLt]
  rfl

theorem queuePage_sector (sec : Slice) : queuePage sec = twqPage sec := if_pos sec.isLt

theorem source_twq (sec : Slice) {b : Nat} (hb : b ≤ 3) : (sourceOf (twqPage sec) b).isSome = true := by
  obtain ⟨sl, hsl⟩ := sec
  change (sourceOf (twqPage sl) b).isSome = true
  interval_cases sl <;> interval_cases b <;> rfl

theorem loopPage_ne_twqPage (sec : Slice) (n : Fin 16) : loopPage sec n ≠ twqPage sec := by
  unfold loopPage twqPage sectorPage
  omega

/-- A write that comes after its time is discarded or applied at the next update point, with its event (R44, R45). -/
theorem lateWrite_spec (s : State) {sec : Slice} {n : Fin 16} {e : Queued} (he : e.page = loopPage sec n) (d : Nat) :
    ∃ u, QueueNote sec s u ∧ s.lateWrite e d
      = if s.flag (loopPage sec n) HEAD.LATE_APPLY
        then ({ u with waiting := u.waiting ++ [e] }.count (twqPage sec) TWQ_APPLIED_LATE.APPLIED_LATE 1).raise (twqPage sec) 1
        else (u.count (twqPage sec) TWQ_DISCARDED.DISCARDED 1).raise (twqPage sec) 0 := by
  unfold State.lateWrite
  dsimp only
  rw [he, queueOf_loopPage, queuePage_sector]
  simp only [qfld_sector]
  exact ⟨_, (((QueueNote.refl sec s).setFld TWQ_LAST_LATE.LATENESS _).setFld TWQ_LAST_LATE.PAGE _).setFld
    TWQ_LAST_LATE.OFFSET _, rfl⟩

/-- The queue after a write whose time is over. -/
theorem lateWrite_queue (s : State) {sec : Slice} {n : Fin 16} {e : Queued} (he : e.page = loopPage sec n) (d : Nat) :
    (s.lateWrite e d).twq = s.twq
      ∧ (s.lateWrite e d).waiting = (if s.flag (loopPage sec n) HEAD.LATE_APPLY then s.waiting ++ [e] else s.waiting)
      ∧ Raised (s.lateWrite e d) (twqPage sec) (if s.flag (loopPage sec n) HEAD.LATE_APPLY then 1 else 0)
      ∧ (s.lateWrite e d).reg (loopPage sec n) 0x110 = s.reg (loopPage sec n) 0x110 := by
  obtain ⟨u, ⟨htwq, hwaiting, hregs⟩, hlate⟩ := lateWrite_spec s he d
  rw [hlate]
  split
  · have hnote : QueueNote sec { u with waiting := u.waiting ++ [e] }
        (({ u with waiting := u.waiting ++ [e] }.count (twqPage sec) TWQ_APPLIED_LATE.APPLIED_LATE 1).raise (twqPage sec) 1) :=
      ((QueueNote.refl sec _).setFld TWQ_APPLIED_LATE.APPLIED_LATE _).raise 1
    exact ⟨hnote.twq.trans htwq, hnote.waiting.trans (congrArg (· ++ [e]) hwaiting),
      raised_raise _ _ (by decide) (source_twq sec (by decide)),
      (hnote.regs _ _ (by decide) (loopPage_ne_twqPage sec n)).trans (hregs _ _ (by decide) (loopPage_ne_twqPage sec n))⟩
  · have hnote : QueueNote sec u ((u.count (twqPage sec) TWQ_DISCARDED.DISCARDED 1).raise (twqPage sec) 0) :=
      ((QueueNote.refl sec _).setFld TWQ_DISCARDED.DISCARDED _).raise 0
    exact ⟨hnote.twq.trans htwq, hnote.waiting.trans hwaiting, raised_raise _ _ (by decide) (source_twq sec (by decide)),
      (hnote.regs _ _ (by decide) (loopPage_ne_twqPage sec n)).trans (hregs _ _ (by decide) (loopPage_ne_twqPage sec n))⟩

theorem refuseTimed_queue (s : State) (sec : Slice) (n : Fin 16) :
    QueueNote sec s (s.refuseTimed (loopPage sec n)) ∧ Raised (s.refuseTimed (loopPage sec n)) (twqPage sec) 2 := by
  unfold State.refuseTimed
  dsimp only
  rw [queueOf_loopPage, queuePage_sector]
  simp only [qfld_sector]
  exact ⟨((QueueNote.refl sec s).setFld TWQ_REFUSED.REFUSED _).raise 2, raised_raise _ _ (by decide) (source_twq sec (by decide))⟩

theorem enqueue_queue (s : State) {sec : Slice} {n : Fin 16} {e : Queued} (he : e.page = loopPage sec n) :
    QueueNote sec { s with twq := s.twq ++ [e] } (s.enqueue e) := by
  unfold State.enqueue
  dsimp only
  rw [he, queueOf_loopPage, queuePage_sector]
  simp only [qfld_sector]
  refine QueueNote.raiseIf ?_ _ 3
  split
  · exact (QueueNote.refl sec _).setFld TWQ_LEVEL.HIGH_WATER _
  · exact QueueNote.refl sec _

theorem present_of_pageThere {s : State} {sec : Slice} {n : Fin 16} (h : s.pageThere (loopPage sec n) = true) :
    s.present sec = true := by
  unfold State.pageThere at h
  rw [blockOf_loopPage] at h
  dsimp only at h
  rwa [windowOf_loopPage, if_pos (by omega), Nat.mod_eq_of_lt sec.isLt] at h

theorem pageThere_of_accept {s : State} {ag : Agent} {pk off : Nat} (h : s.verdict ag pk off = .accept) :
    s.pageThere pk = true := by
  unfold State.verdict at h
  by_contra hx
  rw [if_pos (Bool.not_eq_true _ ▸ hx)] at h
  cases h

theorem queueRuns_sector {s : State} {sec : Slice} (h : s.present sec = true) :
    s.queueRuns sec = decide (s.mode sec ≠ PRIME) := by
  unfold State.queueRuns
  rw [if_pos sec.isLt, h, Bool.true_and]

theorem not_intent_of_accept {s : State} {ag : Agent} {sec : Slice} {n : Fin 16}
    (h : s.verdict ag (loopPage sec n) 0x110 = .accept) (p : Slice) (c : Fin 32) : ag ≠ .intent p c := by
  rintro rfl
  have hthere := pageThere_of_accept h
  unfold State.verdict at h
  rw [hthere, blockOf_loopPage] at h
  simp at h

/-- The four ends of a write with a due time at its queue (R42 to R45, assumption 85). -/
theorem acceptTimed_queue (s : State) (sec : Slice) (n : Fin 16) (data : Word) (origin seq d : Nat)
    (hthere : s.present sec = true) {u : State}
    (hu : s.acceptTimed (loopPage sec n) 0x110 data (some d) origin seq = u) :
    u.reg (loopPage sec n) 0x110 = s.reg (loopPage sec n) 0x110
      ∧ (s.mode sec = PRIME → u.twq = s.twq ∧ u.waiting = s.waiting)
      ∧ (s.mode sec ≠ PRIME → s.canvas ≤ d →
        (s.occupancy sec < 256 → u.twq = s.twq ++ [⟨loopPage sec n, 0x110, data, origin, seq, d, false⟩] ∧ u.waiting = s.waiting)
        ∧ (256 ≤ s.occupancy sec → u.twq = s.twq ∧ u.waiting = s.waiting ∧ Raised u (twqPage sec) 2))
      ∧ (s.mode sec ≠ PRIME → d < s.canvas → u.twq = s.twq
        ∧ u.waiting = (if s.flag (loopPage sec n) HEAD.LATE_APPLY
            then s.waiting ++ [⟨loopPage sec n, 0x110, data, origin, seq, d, false⟩] else s.waiting)
        ∧ Raised u (twqPage sec) (if s.flag (loopPage sec n) HEAD.LATE_APPLY then 1 else 0)) := by
  have hsize : queueSize sec = 256 := if_pos sec.isLt
  unfold State.acceptTimed at hu
  dsimp only at hu
  rw [queueOf_loopPage, queueRuns_sector hthere, hsize] at hu
  split at hu
  · next hprime =>
    have hprime : s.mode sec = PRIME := by simpa using hprime
    subst hu
    exact ⟨rfl, fun _ => ⟨rfl, rfl⟩, fun h => absurd hprime h, fun h => absurd hprime h⟩
  · next hrun =>
    have hrun : s.mode sec ≠ PRIME := by simpa using hrun
    split at hu
    · next hlate =>
      obtain ⟨htwq, hwaiting, hraised, hreg⟩ := lateWrite_queue s
        (e := ⟨loopPage sec n, 0x110, data, origin, seq, d, false⟩) rfl (s.canvas - d)
      subst hu
      exact ⟨hreg, fun h => absurd h hrun, fun _ h => absurd hlate (by omega), fun _ _ => ⟨htwq, hwaiting, hraised⟩⟩
    · next hlate =>
      split at hu
      · next hfull =>
        obtain ⟨⟨htwq, hwaiting, hregs⟩, hraised⟩ := refuseTimed_queue s sec n
        subst hu
        exact ⟨hregs _ _ (by decide) (loopPage_ne_twqPage sec n), fun h => absurd h hrun,
          fun _ _ => ⟨fun h => absurd hfull (by omega), fun _ => ⟨htwq, hwaiting, hraised⟩⟩, fun _ h => absurd h hlate⟩
      · next hfull =>
        obtain ⟨htwq, hwaiting, hregs⟩ := enqueue_queue s
          (e := ⟨loopPage sec n, 0x110, data, origin, seq, d, false⟩) (n := n) rfl
        subst hu
        exact ⟨hregs _ _ (by decide) (loopPage_ne_twqPage sec n), fun h => absurd h hrun,
          fun _ _ => ⟨fun _ => ⟨htwq, hwaiting⟩, fun h => absurd h hfull⟩, fun _ h => absurd h hlate⟩

theorem SameQueue.occupancy {sec : Slice} {s u : State} (h : SameQueue sec s u) : u.occupancy sec = s.occupancy sec := by
  unfold State.occupancy
  rw [h.twq]

theorem SameQueue.mode {sec : Slice} {s u : State} (h : SameQueue sec s u) : u.mode sec = s.mode sec :=
  fld_of_reg (h.regs _ _ (by decide) (isPanelPage_modePage sec.isLt))

theorem SameQueue.lateApply {sec : Slice} {s u : State} (h : SameQueue sec s u) (n : Fin 16) :
    u.flag (loopPage sec n) HEAD.LATE_APPLY = s.flag (loopPage sec n) HEAD.LATE_APPLY := by
  rw [flag_eq, flag_eq, fld_of_reg (h.regs (loopPage sec n) _ (by decide) (isPanelPage_sectorPage sec.isLt (by omega)))]

theorem SameQueue.trans {sec : Slice} {s u v : State} (h : SameQueue sec s u) (h' : SameQueue sec u v) : SameQueue sec s v :=
  ⟨h'.twq.trans h.twq, h'.waiting.trans h.waiting, h'.canvas.trans h.canvas, h'.variant.trans h.variant,
    fun q o ho hq => (h'.regs q o ho hq).trans (h.regs q o ho hq)⟩

/-- A register that takes its own value shows what it showed. -/
theorem reg_setReg_own (s : State) (pk off q o : Nat) (hoff : off < 4096) (ho : o < 4096) :
    (s.setReg pk off (s.reg pk off)).reg q o = s.reg q o := by
  by_cases h : (q, o) = (pk, off)
  · obtain ⟨rfl, rfl⟩ := Prod.mk.inj h
    exact reg_setReg_self _ _ _ _
  · exact reg_setReg_ne s _ ho hoff h

theorem dueOf_dues (s : State) (p pk : Nat) : ∃ r, (s.dueOf p pk).2 = { s with dues := r } := by
  unfold State.dueOf
  dsimp only
  split
  · exact ⟨_, rfl⟩
  · split <;> exact ⟨s.dues, rfl⟩

theorem transferDue_sameQueue (s : State) (x : Transfer) (sec : Slice) : SameQueue sec s (s.transferDue x).2 := by
  unfold State.transferDue
  split
  · exact ⟨rfl, rfl, rfl, rfl, fun _ _ _ _ => rfl⟩
  · split
    · exact ⟨rfl, rfl, rfl, rfl, fun _ _ _ _ => rfl⟩
    · obtain ⟨dues, hdues⟩ := dueOf_dues s (s.duePanel x.agent) x.page
      rw [hdues]
      exact ⟨rfl, rfl, rfl, rfl, fun _ _ _ _ => rfl⟩

/-- A write of a reference value passes its queue as the state then stands, and its writer is told. -/
theorem deliver_queue {s : State} {x : Transfer} {sec : Slice} {n : Fin 16} (hpage : x.page = loopPage sec n)
    (hoff : x.off = 0x110) (haddr : x.addr ≠ 0) (hok : s.verdict x.agent (loopPage sec n) 0x110 = .accept) :
    ∃ due u, SameQueue sec s u
      ∧ SameQueue sec (u.acceptTimed (loopPage sec n) 0x110 x.data due x.origin x.seq) (s.deliver x)
      ∧ (x.due = none → x.untimed = true → due = none) ∧ ∀ d, x.due = some d → due = some d := by
  have hbase : SameQueue sec s (s.setReg (loopPage sec n) 0x110 (s.reg (loopPage sec n) 0x110)) :=
    ⟨rfl, rfl, rfl, rfl, fun q o ho _ => reg_setReg_own s _ _ q o (by decide) ho⟩
  have hdeliver := fun due u => deliver_loopRef (s := s) (due := due) (u := u) hpage hoff hok
  generalize s.setReg (loopPage sec n) 0x110 (s.reg (loopPage sec n) 0x110) = b at hbase hdeliver
  obtain ⟨due, u, hdue⟩ : ∃ due u, b.transferDue x = (due, u) := ⟨_, _, rfl⟩
  have hqueue := transferDue_sameQueue b x sec
  rw [hdue] at hqueue
  rw [hdeliver due u hdue]
  refine ⟨due, u.notePort x due, (hbase.trans hqueue).trans ((portStep_notePort u x due).sameQueue sec),
    (portStep_reply _ x haddr).sameQueue sec, fun hnone huntimed => ?_, fun d hd => ?_⟩
  · unfold State.transferDue at hdue
    rw [hnone] at hdue
    dsimp only at hdue
    rw [if_pos huntimed] at hdue
    exact (Prod.mk.inj hdue).1.symm
  · unfold State.transferDue at hdue
    rw [hd] at hdue
    exact (Prod.mk.inj hdue).1.symm

theorem exec_transferReady {s : State} {i : Nat} {x : Transfer} (hx : s.flight[i]? = some x) (hmay : s.mayArrive x = true) :
    exec (.transferReady i) s = .next ({ s with flight := s.flight.eraseIdx i }.deliver x) := by
  change execTransferReady i s = _
  unfold execTransferReady
  rw [hx]
  dsimp only
  rw [hmay, if_pos rfl]

theorem timedWritesWaitForTheirTick : TimedWritesWaitForTheirTick := by
  intro s i x sec n hx hsent hpage hoff haddr hok
  have hthere : s.present sec = true := present_of_pageThere (pageThere_of_accept hok)
  have hexec := exec_transferReady hx (mayArrive_of_accept hsent fun p c => not_intent_of_accept hok p c)
  obtain ⟨due, u, hu, hv, huntimed, htimed⟩ := deliver_queue (s := { s with flight := s.flight.eraseIdx i }) hpage hoff haddr hok
  generalize State.deliver { s with flight := s.flight.eraseIdx i } x = v at hexec hv
  replace hu : SameQueue sec s u := ⟨hu.twq, hu.waiting, hu.canvas, hu.variant, hu.regs⟩
  have hreg : v.reg (loopPage sec n) 0x110 = (u.acceptTimed (loopPage sec n) 0x110 x.data due x.origin x.seq).reg
      (loopPage sec n) 0x110 := hv.regs _ _ (by decide) (isPanelPage_sectorPage sec.isLt (by omega))
  have hureg : u.reg (loopPage sec n) 0x110 = s.reg (loopPage sec n) 0x110 :=
    hu.regs _ _ (by decide) (isPanelPage_sectorPage sec.isLt (by omega))
  have hevent : v.reg (twqPage sec) 0x020 = (u.acceptTimed (loopPage sec n) 0x110 x.data due x.origin x.seq).reg
      (twqPage sec) 0x020 := hv.regs _ _ (by decide) (isPanelPage_sectorPage sec.isLt (by decide))
  refine ⟨v, hexec, ?_⟩
  cases due with
  | none =>
    refine ⟨hreg.trans hureg, fun _ _ => ⟨hv.waiting.trans (congrArg (· ++ _) hu.waiting), hv.twq.trans hu.twq⟩,
      fun _ hsome => ?_, fun d hd => ?_, fun d hd => ?_⟩
    · obtain ⟨d, hd⟩ := Option.isSome_iff_exists.mp hsome
      cases htimed d hd
    · cases htimed d hd
    · cases htimed d hd
  | some d =>
    have huthere : u.present sec = true := by
      unfold State.present at *
      rw [hu.variant]
      exact hthere
    obtain ⟨hkeep, hprime, hqueued, hlate⟩ := acceptTimed_queue u sec n x.data x.origin x.seq d huthere rfl
    rw [hu.mode, hu.twq, hu.waiting] at hprime
    rw [hu.mode, hu.canvas, hu.occupancy, hu.twq, hu.waiting] at hqueued
    rw [hu.mode, hu.canvas, hu.twq, hu.waiting, hu.lateApply] at hlate
    generalize u.acceptTimed (loopPage sec n) 0x110 x.data (some d) x.origin x.seq = w at *
    have hsome : ∀ d', x.due = some d' → d' = d := fun d' hd => (Option.some.inj (htimed d' hd)).symm
    have hraised : ∀ {b}, Raised w (twqPage sec) b → Raised v (twqPage sec) b := (raised_of_reg hevent).mpr
    refine ⟨hreg.trans (hkeep.trans hureg), fun hnone hun => ?_, fun hmode _ => ?_, fun d' hd hmode hle => ?_,
      fun d' hd hmode hlt => ?_⟩
    · cases huntimed hnone hun
    · rw [hv.twq, hv.waiting]
      exact hprime hmode
    · cases hsome d' hd
      rw [hv.twq, hv.waiting]
      obtain ⟨hroom, hfull⟩ := hqueued hmode hle
      exact ⟨hroom, fun h => ⟨(hfull h).1, (hfull h).2.1, hraised (hfull h).2.2⟩⟩
    · cases hsome d' hd
      rw [hv.twq, hv.waiting]
      obtain ⟨htwq, hwaiting, hev⟩ := hlate hmode hlt
      exact ⟨htwq, hwaiting, hraised hev⟩

/-- Settles O11, from the path of a write through its queue and the order in which two due ones are taken. -/
theorem timedWritesFollowTheirTick : Obligations.TimedWritesFollowTheirTick :=
  ⟨timedWritesWaitForTheirTick, largerOriginStands⟩

end Sys2Proof.Proofs
end
